-- ==== Sys2Proof/Word.lean ====
section
/-! DEFINITION. The two word types of the block: a register word (R25) and a byte. -/

namespace Sys2Proof

/-- A register word: registers are 32 bits wide (R25). -/
abbrev Word := BitVec 32

/-- One byte of memory, of a descriptor or of a frame. -/
abbrev Byte := BitVec 8

end Sys2Proof
end

