-- ==== Sys2Proof/Syntax.lean ====
section
/-! DEFINITION. The commands of the block: one constructor of `Instr` for every row of
spec/opcode_table.json, with the operands the step acts on. Where a row's outcome is decided outside the
block (a bus answer, a measured count, a bitstream's content under a published standard), that outcome is an
operand of the command (assumption log 1). -/

namespace Sys2Proof

/-- A register page, 0x000 to 0x03C (R24, Table 23.2). -/
abbrev Page := Fin 61
/-- A work ring (R82). -/
abbrev RingNo := Fin 256
/-- A parity group with its MC and DP (R110). -/
abbrev Group := Fin 4
/-- A member of a parity group (R110). -/
abbrev Member := Fin 9
/-- A radio: 0 RADIO_A, 1 RADIO_B, 2 RADIO_C. -/
abbrev Radio := Fin 3
/-- A chain of a radio. -/
abbrev Chain := Fin 4
/-- A video engine VE0 to VE15. -/
abbrev Engine := Fin 16
/-- A DSP cluster DS0 to DS7. -/
abbrev Cluster := Fin 8
/-- A compositor CP0 to CP3. -/
abbrev Compositor := Fin 4
/-- A cipher engine CE0 or CE1. -/
abbrev CipherEngine := Fin 2
/-- A BAR0 byte offset (Table 2.1: 64 MiB). -/
abbrev Bar0 := BitVec 26

/-- A fabric requester (R11, Table 1.3; the translated ones carry the numbers of Table 6.1). -/
inductive Requester where
  | dma (ch : RingNo)
  | ve (n : Engine)
  | ds (n : Cluster)
  | cp (n : Compositor)
  | am | px | ac
  | ce (n : CipherEngine)
  | cc | qm | tm | hb | ps | sk
deriving DecidableEq, Repr

/-- What the read-back of a persistent write shows (Table 2.14, R534). -/
inductive ReadBack where
  /-- both mirror copies read back equal -/
  | equal
  /-- the copy in this bank read back unequal, and its second read-back was equal or not -/
  | unequal (bank : Fin 8) (secondEqual : Bool)
deriving DecidableEq, Repr

/-- Where a clocked transmit consumer runs dry (R17). -/
inductive TxPoint where
  /-- an Ethernet port 0-15 or MG (16), in the numbering of R305 -/
  | port (n : Fin 17)
  | chain (r : Radio) (c : Chain)
deriving DecidableEq, Repr

/-- Where a clocked producer finds its buffer full (R18). -/
inductive RxPoint where
  | port (n : Fin 17)
  | chain (r : Radio) (c : Chain)
deriving DecidableEq, Repr

/-- One 10 µs energy sample of one meter (R61, R63), in µJ. -/
structure MeterDelta where
  meter : Fin 64
  uj : Nat
deriving DecidableEq, Repr

/-- The energy an island's meter attributes to one ring item in an interval, with the bytes it moved in each
parity group (R63, R68). -/
structure ItemEnergy where
  ring : RingNo
  seq : Nat
  islandUj : Nat
  bytes : List Nat
deriving DecidableEq, Repr

/-- The answer to the read of a head descriptor (R536). -/
inductive DescRead where
  /-- the 64 bytes of the descriptor were returned -/
  | data
  /-- translation refused the read -/
  | refused
  /-- the read was answered with an error -/
  | error
deriving DecidableEq, Repr

/-- How a fabric response comes back (R147). -/
inductive BeatReply where
  | ok
  | addressError
  | otherError
deriving DecidableEq, Repr

/-- The operand fields of one 64-bit lane instruction (R278), the opcode apart. -/
structure LaneFields where
  dd : Fin 16
  da : Fin 16
  db : Fin 16
  ac : Fin 4
  ha : Bool
  hb : Bool
  neg : Bool
  an : Fin 16
  ofm : Fin 16
  pm : Fin 4
  ls : Bool
  lsdir : Bool
  lsw : Bool
  lsd : Fin 16
  imm : BitVec 24
deriving DecidableEq, Repr

/-- A lane of a cluster. -/
structure LaneId where
  cluster : Cluster
  lane : Fin 32
deriving DecidableEq, Repr

/-- What the entropy engine finds in one access unit (R184, R192, R197, R201): read off the bitstream under the
published video standards. -/
structure ParseResult where
  /-- the stream steps outside Table 8.1, or its SPS does not fit the context (R184) -/
  unsupported : Bool
  syntaxErrors : Nat
  /-- POCs named by the reference set and absent from the DPB, in order of discovery -/
  missing : List Int
  poc : Int
  tid : Fin 4
  /-- 0 other, 1 IRAP or IDR, 2 TSA, 3 STSA -/
  ptype : Fin 4
  /-- the picture is a reference for later pictures -/
  isRef : Bool
  /-- POCs of the DPB pictures this one refers to -/
  refs : List Int
  /-- POCs that leave the DPB by the standard's marking -/
  dropped : List Int
  /-- POC of the picture that the standard's output process outputs with this one, if any -/
  output : Option Int
  /-- a recovery point SEI whose recovery point is this picture (R200) -/
  recovered : Bool
  /-- CTUs or macroblocks that no slice decoded -/
  concealedUnits : Nat
  consumed : Nat
  /-- coded size and conformance cropping window: left, top, width, height -/
  codedW : Nat
  codedH : Nat
  cropX : Nat
  cropY : Nat
  cropW : Nat
  cropH : Nat
  profile : BitVec 8
  level : BitVec 8
  spsId : Fin 16
deriving DecidableEq, Repr

/-- How the doubled computation of AES blocks of one request compares (R447). -/
inductive CmpOutcome where
  | equal
  /-- block `n` of the request differed, and its recomputation agreed, or not -/
  | mismatch (block : Nat) (recomputedOk : Bool)
deriving DecidableEq, Repr

/-- A received frame as PX sees it after parsing (Table 14.1). -/
structure RxFrame where
  source : Fin 21
  /-- IP total length plus the L2 header (R295); not used where there is no IP header -/
  length : Nat
  /-- more than one tag, an 0x88A8 outer tag, or a header that does not parse (R306) -/
  parseError : Bool
  tagged : Bool
  vid : Fin 4096
  pcp : Fin 8
  dei : Bool
  /-- destination MAC: 0 the port's own, 1 broadcast or multicast, 2 other unicast, 3 PAUSE or PFC -/
  dmac : Fin 4
  /-- 0 not IP, 4 IPv4, 6 IPv6 -/
  ip : Fin 7
  dscp : Fin 64
  ttl : Fin 256
  /-- destination address; an IPv4 address stands in the low 32 bits -/
  dst : BitVec 128
  /-- leg matched by the 5-tuple, if any (R156) -/
  leg : Option (Fin 8192)
  rtcp : Bool
  /-- a picture-loss indication or full intra request from a receiver, for this source (R172) -/
  wantsKey : Option (Fin 4096)
  /-- the packet's SRTP or SRTCP tag verifies -/
  srtpOk : Bool
  /-- SRTCP index -/
  srtcpIndex : Nat
  ssrc : Word
  /-- the SSRC is the leg's audio stream: no register holds it, signalling does -/
  audio : Bool
  seq : BitVec 16
  timestamp : Word
  tid : Fin 4
  /-- 0 other, 1 IRAP or IDR, 2 TSA, 3 STSA, 4 first picture of a refresh period -/
  ptype : Fin 5
  marker : Bool
  /-- a packet type that depacketisation does not take (R196) -/
  badPacket : Bool
  nonref : Bool
  /-- the bytes behind the headers; for media the decrypted RTP payload -/
  payload : List Byte
  /-- the frame ended with a bad FCS -/
  badFcs : Bool
  /-- receive stamp as the MAC measured it, in 1/256 ns of presented time, before the correction of R353 -/
  stamp256 : Nat
  /-- audio: RTP clock of the stream in Hz, and the RFC 6464 level, when the packet carries one (R175, R258) -/
  clock : Nat
  level : Option Nat
  /-- first bit in to notice, ns -/
  latency : Nat
  /-- how the AES blocks of the inline request compare -/
  cmp : CmpOutcome
  /-- a PTP frame (R309, R349) -/
  ptp : Bool
deriving DecidableEq, Repr

/-- A decode or encode job that firmware queues for a leg's frame (R247): its cluster and kernel, its buffers and stream
state. Firmware chooses them; no register holds them. -/
structure AudioWork where
  leg : Fin 8192
  cluster : Cluster
  kernel : Fin 64
  src : BitVec 48
  dst : BitVec 48
  stateVa : BitVec 48
  arg0 : Word
  arg1 : Word
deriving DecidableEq, Repr

/-- What a read of a packet's cells shows (R302, source 5). -/
inductive CellRead where
  | ok
  /-- cell `i` of the packet fails its check, and its retry fails too or not -/
  | bad (i : Nat) (again : Bool)
deriving DecidableEq, Repr

/-- An RTCP report about a leg (R170). -/
inductive RtcpReport where
  /-- TMMBR maximum, kb/s -/
  | tmmbr (kbps : Nat)
  /-- receiver report with the loss fraction in percent -/
  | receiver (lossPct : Nat)
deriving DecidableEq, Repr

/-- How one LDPC codeword ended (R377, R378). -/
inductive CodewordResult where
  | clean | corrected | failed
deriving DecidableEq, Repr

/-- One link frame of a received burst, after its CRC passed (Table 17.3). -/
structure LinkFrame where
  ftype : Fin 4
  ackReq : Bool
  seq : BitVec 16
  body : List Byte
  /-- a control frame that is the join request of this node (R394) -/
  join : Option (BitVec 48)
deriving DecidableEq, Repr

/-- A partner's caller as decoded (Table 17.2; R422, R423). -/
structure PartnerCaller where
  nodeId : BitVec 48
  meshId : BitVec 16
  partnerOpen : Bool
  quadNum : Nat
  quadLen : Nat
  position : Fin 4
  channel : Fin 32
  spanStart : Nat
  spanEnd : Nat
  holdQuads : Nat
  /-- measured time less the time that QUAD_NUM and the position give, ns -/
  offsetNs : Int
deriving DecidableEq, Repr

/-- What a burst carried. -/
inductive BurstPayload where
  | frames (fs : List LinkFrame)
  | caller (c : PartnerCaller)
deriving DecidableEq, Repr

/-- A burst as the block modem receives it and reports it to AC (R377). -/
structure RxBurst where
  radio : Radio
  headerOk : Bool
  codewords : List CodewordResult
  /-- AC_TAG: LINK and KIND -/
  link : Fin 1024
  kind : Fin 4
  streams : Fin 4
  /-- SNR per stream, 0.5 dB -/
  snr : List Nat
  /-- start relative to the grant boundary, ns -/
  startOffset : Int
  payload : BurstPayload
  /-- carrier offset, 0.01 ppm, symbol rate error, ppm, gain, dB, LNA bypass, EVM, −0.5 dB -/
  cfo : Int
  timing : Int
  gain : Nat
  bypass : Bool
  evm : Nat
deriving DecidableEq, Repr

/-- A decoded 2-GFSK sensor frame (Table 17.6). -/
structure SensorFrame where
  crcOk : Bool
  sensor : Fin 2048
  kind : Fin 32
  /-- WAKE_LAG of an uplink, µs, and the presented time in ns of the end of the sync word it counts to -/
  wakeLag : Nat
  syncEnd : Int
  /-- presented time of its first bit, ns -/
  time : Nat
  seq : Byte
  /-- hardware identifier of a wake response -/
  hwid : BitVec 48
  body : List Byte
  /-- bit rate error, ppm, and carrier offset, 0.01 ppm -/
  timing : Int
  cfo : Int
deriving DecidableEq, Repr

/-- The grant a burst is assembled for (R402, R423). -/
inductive GrantRef where
  /-- an entry of this unit's own active card -/
  | own (i : Fin 256)
  /-- a grant on a partner's card that names this unit: presented ns of its boundary by the partner, slots -/
  | partner (p : Fin 32) (start : Int) (slots : Fin 256)
deriving DecidableEq, Repr

/-- How a DRAM read comes back over the link (R117). -/
inductive EccOutcome where
  | clean | corrected | uncorrectable
deriving DecidableEq, Repr

/-- An inline SRTP or SRTCP request of PX (R440, R444). -/
structure InlineReq where
  leg : Fin 8192
  encrypt : Bool
  rtcp : Bool
  ssrc : Word
  /-- SRTP index ROC × 2^16 + SEQ, or SRTCP index -/
  index : Nat
  /-- decrypt: the packet's tag verifies -/
  authOk : Bool
  bytes : Nat
  cmp : CmpOutcome
deriving DecidableEq, Repr

/-- What a host answers to an ATS Translation Request (R136). -/
structure AtsReply where
  page : BitVec 48
  rd : Bool
  wr : Bool
  /-- translated PCI Express address of the page -/
  target : BitVec 48
deriving DecidableEq, Repr

/-- A PRG Response code (R141). -/
inductive PrgCode where
  | success | invalidRequest | responseFailure
deriving DecidableEq, Repr

/-- The JTAG instructions that are not public (R462). -/
inductive DebugAccess where
  | readReg (off : Bar0)
  | writeReg (off : Bar0) (v : Word)
  | readMem (a : BitVec 48)
  | writeMem (a : BitVec 48) (b : Byte)
  | runControl (core : Fin 8) (halt : Bool)
deriving DecidableEq, Repr

/-- A PCI Express error class (Table 20.2). -/
inductive PcieErr where
  | correctable | uncorrectable
deriving DecidableEq, Repr

/-- Every step the block can take: one constructor per row of spec/opcode_table.json, in the table's order. -/
inductive Instr where
  /-- REGISTER_WRITE (R27): A host, SMBus or internal write to a register that has no row of its own is stored as its field rules state. -/
  | registerWrite (off : Bar0) (be : BitVec 4) (v : Word)
  /-- PAIR_LO_READ (R26): A read of the _LO half of a device-changed pair latches the _HI half of the same moment. -/
  | pairLoRead (off : Bar0)
  /-- RWS_WRITE (R34): A write to an RWS register or shadowed table entry changes only its shadow. -/
  | rwsWrite (off : Bar0) (v : Word)
  /-- HB_WIN_BASE_WRITE (R29): A write of HB_WIN_BASE sets the DRAM base of BAR4 for later requests, or is not stored above 120. -/
  | hbWinBaseWrite (v : Word)
  /-- ENABLE (R31): A write of PAGE_CTRL.ENABLE = 1 moves the page from OFF to STARTING. -/
  | enable (p : Page)
  /-- DISABLE (R106): A write of PAGE_CTRL.ENABLE = 0 stops dispatch, enters DRAINING and returns or finishes work by DRAIN_MODE. -/
  | disable (p : Page) (mode : BitVec 2)
  /-- ISLAND_RST (R496): A write of PAGE_CTRL.ISLAND_RST resets the island after completing its outer handshakes. -/
  | islandRst (p : Page)
  /-- ISLAND_RESET_DONE (R480): An island reset finishes and the page moves to STARTING or OFF. -/
  | islandResetDone (p : Page)
  /-- UNIT_INITIALISED (R31): A starting unit finishes its initialisation and moves to READY. -/
  | unitInitialised (p : Page)
  /-- DRAIN_DONE (R31): INFLIGHT of a draining page reaches 0 and the page moves to OFF or STARTING. -/
  | drainDone (p : Page)
  /-- COMMIT (R38): A write of PAGE_CTRL.COMMIT is checked and either sets COMMIT_PENDING or is refused. -/
  | commit (p : Page) (at_ : BitVec 2)
  /-- COMMIT_CANCEL (R39): A write of COMMIT_CANCEL withdraws a pending bow and reloads shadows from active values. -/
  | commitCancel (p : Page)
  /-- BOW (R35): At the chosen commit-unit boundary every shadow of the page is copied to its active value at once. -/
  | bow (p : Page)
  /-- EVT_RAW_CLEAR (R483): A W1C write of EVT_RAW clears raw bits and their carried severity. -/
  | evtRawClear (p : Page) (v : Word)
  /-- EVT_EN_WRITE (R48): A write of EVT_EN that enables a source already raised at NOTICE or above sends the page vector. -/
  | evtEnWrite (p : Page) (v : Word)
  /-- EVT_FORCE (R487): A write of 1 to EVT_FORCE[n] is a detection of source n with its full severity action. -/
  | evtForce (p : Page) (n : Fin 32)
  /-- HIST_READ (R33): A read of HIST_READ pops the oldest history entry of the page. -/
  | histRead (p : Page)
  /-- RWP_WRITE (R40): A write to an RWP register reaches PS, holds the page and queues a persistent write. -/
  | rwpWrite (off : Bar0) (v : Word)
  /-- PERSISTENT_WRITE_DONE (R40): PS finishes the compare, program and verify of a persistent word and releases the page. -/
  | persistentWriteDone (rb : ReadBack)
  /-- ROP_COMMIT (R44): Changed ROP counters are committed from volatile storage to MRAM at most once per 60 s. -/
  | ropCommit
  /-- RETIRE_REC_CLEAR (R484): A write of 0 to a set retirement record bit starts the unit's re-qualification. -/
  | retireRecClear (p : Page) (bit : Fin 9)
  /-- RETIRE_REC_SET (R485): A write of 1 to a clear retirement record bit retires the unit as an escalation would, with no event. -/
  | retireRecSet (p : Page) (bit : Fin 9)
  /-- REQUALIFY_DONE (R484): A re-qualification ends, clearing the record and returning the unit, or keeping it retired. -/
  | requalifyDone (p : Page) (bit : Fin 9) (pass : Bool)
  /-- FABRIC_REQUEST (R11): A requester issues a fabric transaction, taking a tag from its partition or waiting for one. -/
  | fabricRequest (who : Requester) (addr : BitVec 48) (write : Bool)
  /-- TAG_RETURN (R11): A transaction's response reaches its requester and its tag returns to the partition. -/
  | tagReturn (who : Requester)
  /-- FB_PART_WRITE (R530): A write of FB_DX_PART, FB_VE_PART or FB_CP_PART is held as a pending value. -/
  | fbPartWrite (which : Fin 3) (v : Word)
  /-- FB_SHARED_PART_WRITE (R530): A write of FB_SHARED_PART checks the sum of the partitions and applies all four at once. -/
  | fbSharedPartWrite (v : Word)
  /-- TX_UNDERRUN (R17): A clocked transmit consumer finds its elastic buffer empty after a transfer started and ends the frame or burst. -/
  | txUnderrun (at_ : TxPoint)
  /-- RX_OVERRUN (R18): A clocked producer cannot place data in a full receive buffer and drops a whole frame or block. -/
  | rxOverrun (at_ : RxPoint)
  /-- REQ_VP_WRITE (R50): A write of ISLAND_METER.REQ_VP starts a change of the island's voltage point. -/
  | reqVpWrite (p : Page) (vp : Fin 8)
  /-- VP_SETTLED (R50): An island's supply settles at its new voltage point. -/
  | vpSettled (p : Page)
  /-- PACE_INTERVAL (R54): At the end of each 1 µs interval the floor detector compares the count with the island's floor. -/
  | paceInterval (p : Page) (count : Nat)
  /-- PACE_METER_UPDATE (R52): Every 8 µs ISLAND_METER.PACE is refreshed with the mean pace. -/
  | paceMeterUpdate (p : Page) (pace : Nat)
  /-- LIFT_RELEASE (R56): After pace has held above floor with margin for 100 ms one lift step is released. -/
  | liftRelease (p : Page)
  /-- REPLAN (R58): Once per second firmware chooses REQ_VP of each island and recomputes floors. -/
  | replan
  /-- TEMP_EDGE (R58): A junction sensor crossing a temperature edge triggers a firmware re-plan. -/
  | tempEdge (hot cold : Int) (sensor : Fin 24)
  /-- LEDGER_UPDATE (R63): Every 10 µs S_short and S_long are updated and DRAM energy is apportioned. -/
  | ledgerUpdate (meters : List MeterDelta) (items : List ItemEnergy) (moved : List Nat)
  /-- BUCKET_BOUNDARY (R63): At a bucket boundary the oldest bucket leaves its window. -/
  | bucketBoundary (long : Bool)
  /-- BATT_GPIO_CHANGE (R64): A change on the on-battery GPIO changes the effective budgets within 1 ms. -/
  | battGpioChange (levels : BitVec 16)
  /-- BUDGET_SCALE_WRITE (R64): A write of CC_BUDGET_SCALE changes the effective budgets at once or starts a descent. -/
  | budgetScaleWrite (v : Word)
  /-- DEGRADE_STEP (R77): Every 100 ms of breach firmware takes one further degradation step. -/
  | degradeStep (p : Page)
  /-- RESTORE_STEP (R77): After a breach clears firmware clears FORCE_FB bits one step per second. -/
  | restoreStep
  /-- TABLE_READ (R80): A table window command with [1:0] = 1 places the addressed entry in DATA0-3. -/
  | tableRead (p : Page) (active : Bool)
  /-- TABLE_WRITE (R80): A table window command with [1:0] = 2 writes DATA0-3 to the addressed entry under the page's rules. -/
  | tableWrite (p : Page)
  /-- SQ_DOORBELL (R84): A write of SQ_DOORBELL extends the value to a submission tail for the ring. -/
  | sqDoorbell (ring : RingNo) (v : Word)
  /-- CQ_DOORBELL (R84): A write of CQ_DOORBELL advances the consumed completion tail. -/
  | cqDoorbell (ring : RingNo) (v : Word)
  /-- HEAD_TEST (R87): The device tests the head item of an enabled ring against the acceptance conditions. -/
  | headTest (ring : RingNo)
  /-- DESC_READ_RESPONSE (R536): The read of a head descriptor returns, or is refused or errored and halts the ring. -/
  | descReadResponse (ring : RingNo) (r : DescRead)
  /-- ACCEPTED_WRITE_ACK (R89): Both ACCEPTED ledger entry writes are acknowledged and the header write follows. -/
  | acceptedWriteAck (ring : RingNo) (okA okB : Bool)
  /-- ACCEPTANCE (R89): The second header write is acknowledged and ACCEPT_SEQ shows the item. -/
  | acceptance (ring : RingNo)
  /-- LEDGER_WRITE_ACK (R94): Both copies of a ledger transition are acknowledged and the engine may act. -/
  | ledgerWriteAck (ring : RingNo) (seq : Nat) (okA okB : Bool)
  /-- COMPLETED_RECORDED (R97): An item's COMPLETED transition is acknowledged and its new context state becomes current. -/
  | completedRecorded (ring : RingNo) (seq : Nat) (okA okB : Bool)
  /-- COMPLETION_WRITE (R91): The device writes the next completion entry in sequence order. -/
  | completionWrite (ring : RingNo)
  /-- COMPLETION_WRITE_ACK (R91): A completion entry write is acknowledged and POSTED_SEQ advances, or the ring halts for CQ_WRITE. -/
  | completionWriteAck (ring : RingNo) (ok : Bool)
  /-- IRQ_DELAY_EXPIRE (R92): IRQ_DELAY_US after the first unsignalled entry the completion-ring vector is sent. -/
  | irqDelayExpire (ring : RingNo)
  /-- DISPATCH (R106): An accepted item reaches dispatch and is bound to an instance, waits, or is returned. -/
  | dispatch (ring : RingNo) (seq : Nat)
  /-- CHECKPOINT_RECORD (R95): PS writes a ledger checkpoint record to its rotating slots. -/
  | checkpointRecord
  /-- ENCORE (R101): After a reset, encore restores ring sequence numbers and replays or posts ledger entries. -/
  | encore
  /-- RING_EN_WRITE (R109): A window write of RING_EN = 1 starts, resumes or leaves a ring. -/
  | ringEnWrite (ring : RingNo) (d0 d1 d2 d3 : Word)
  /-- RING_DISABLE (R109): A window write of RING_EN = 0 stops acceptance on the ring at once. -/
  | ringDisable (ring : RingNo) (d0 d1 d2 d3 : Word)
  /-- LEDGER_CFG_WRITE (R108): A write of a DX ledger register is stored only while no ring is active, else raises LEDGER_CFG. -/
  | ledgerCfgWrite (which : Fin 5) (v : Word)
  /-- NOP (R97): A NOP item completes at acceptance. -/
  | nop (ring : RingNo) (seq : Nat)
  /-- COPY (R146): A DMA COPY item moves LENGTH bytes from SRC to DST. -/
  | copy (ring : RingNo) (seq : Nat)
  /-- FILL (R146): A DMA FILL item writes LENGTH bytes of DST with FILL_PATTERN. -/
  | fill (ring : RingNo) (seq : Nat)
  /-- PERIPH_IN (R148): A PERIPH_IN item moves bursts from a request line's peripheral to DST. -/
  | periphIn (ring : RingNo) (seq : Nat) (bursts : List (List Byte)) (overrun : Option Nat)
  /-- PERIPH_OUT (R148): A PERIPH_OUT item moves bursts from SRC to a request line's peripheral. -/
  | periphOut (ring : RingNo) (seq : Nat) (bursts : Nat) (overrun : Option Nat)
  /-- DECODE (R194): A decode item decodes one access unit and copies the output picture to DST. -/
  | decode (ring : RingNo) (seq : Nat)
  /-- OUTPUT_NEXT (R194): An OUTPUT_NEXT item outputs the next waiting DPB picture to DST. -/
  | outputNext (ring : RingNo) (seq : Nat)
  /-- CLEAR (R194): A CLEAR item empties the DPB and concealment state of a context. -/
  | clearCtx (ring : RingNo) (seq : Nat)
  /-- ENCODE (R209): An ENCODE item encodes the picture at SRC into DST. -/
  | encode (ring : RingNo) (seq : Nat)
  /-- RC_RESET (R209): An RC_RESET item sets DEBT to 0 and clears the QP history. -/
  | rcReset (ring : RingNo) (seq : Nat)
  /-- DSP_KERNEL (R284): A DSP item runs the kernel entry named by OP on a lane. -/
  | dspKernel (ring : RingNo) (seq : Nat)
  /-- COMPOSE (R241): A COMPOSE item opens one frame of an on-request output at its next tick. -/
  | compose (ring : RingNo) (seq : Nat)
  /-- GCM_ENC (R438): A GCM_ENC item encrypts with a device-formed IV and writes IV and tag to PARAM. -/
  | gcmEnc (ring : RingNo) (seq : Nat) (cmp : CmpOutcome)
  /-- GCM_DEC (R441): A GCM_DEC item decrypts and verifies the tag, buffered or streaming. -/
  | gcmDec (ring : RingNo) (seq : Nat) (cmp : CmpOutcome)
  /-- CTR_ENC (R438): A CTR_ENC item encrypts with a device-formed counter block. -/
  | ctrEnc (ring : RingNo) (seq : Nat) (cmp : CmpOutcome)
  /-- CTR_XFORM (R436): A CTR_XFORM item transforms data with the counter block in PARAM. -/
  | ctrXform (ring : RingNo) (seq : Nat) (cmp : CmpOutcome)
  /-- XTS_ENC (R436): An XTS_ENC item encrypts data units from the unit number in PARAM. -/
  | xtsEnc (ring : RingNo) (seq : Nat) (cmp : CmpOutcome)
  /-- XTS_DEC (R436): An XTS_DEC item decrypts data units from the unit number in PARAM. -/
  | xtsDec (ring : RingNo) (seq : Nat) (cmp : CmpOutcome)
  /-- UNWRAP (R434): An UNWRAP item checks a blob and loads its key into a slot. -/
  | unwrap (ring : RingNo) (seq : Nat)
  /-- WIRE_TRANSMIT (R98): A wire transmit item is held whole in the transmit buffer until EMITTED is recorded, then sent. -/
  | wireTransmit (ring : RingNo) (seq : Nat)
  /-- SEND (R410): An air transmit item carries a frame body to a link or sensor. -/
  | send (ring : RingNo) (seq : Nat)
  /-- DRAM_READ (R114): A DRAM read is served from its member or by reconstruction in a degraded group. -/
  | dramRead (who : Requester) (addr : BitVec 48) (ecc : EccOutcome)
  /-- DRAM_WRITE (R113): A DRAM write runs as a full-row write or a locked read-modify-write of data and parity. -/
  | dramWrite (who : Requester) (addr : BitVec 48) (bytes : List Byte)
  /-- READ_TIMEOUT (R117): A read unanswered within MCn_TIMEOUT_CFG is detected as a channel fault. -/
  | readTimeout (g : Group) (m : Member)
  /-- CHAN_RETRY (R117): A failed exit, synchronisation or verification is retried every 0.5 µs. -/
  | chanRetry (g : Group) (m : Member) (pass : Bool)
  /-- RETIRE_RECORD_COMMIT (R119): A retirement record commit ends and the held service resumes degraded. -/
  | retireRecordCommit (p : Page) (bit : Fin 9)
  /-- ROW_COMBINE_EXPIRE (R113): The merge window of a partial row ends and its merged writes are issued. -/
  | rowCombineExpire (g : Group) (row : Nat)
  /-- MC_RETIRE_REC_WRITE (R121): A write of 0 to a set CH_MASK bit starts training and rebuild of the member. -/
  | mcRetireRecWrite (g : Group) (m : Member)
  /-- REBUILD_TRAIN_DONE (R121): Training of a rebuilding member ends, starting the rebuild writes or failing. -/
  | rebuildTrainDone (g : Group) (pass : Bool)
  /-- REBUILD_DONE (R121): A rebuild ends, CH_MASK is stored clear and the member returns to service. -/
  | rebuildDone (g : Group) (pass : Bool)
  /-- SCRUB_ROW (R122): The scrubber reads a row of a healthy group and checks its parity. -/
  | scrubRow (g : Group) (row : Nat)
  /-- REFRESH (R123): A refresh falls due for a member at its average interval. -/
  | refresh (g : Group) (m : Member) (busy : Bool)
  /-- MR4_POLL (R123): Every 4 ms MC reads MR4 of every active member. -/
  | mr4Poll (g : Group) (codes : List (Option (Fin 8)))
  /-- SR_ENTRY (R125): A member idle for MCn_SR_IDLE enters self-refresh. -/
  | srEntry (g : Group) (m : Member)
  /-- FREQ_GO (R126): A write of MCn_FREQ_CTRL.GO starts a frequency change of the group. -/
  | freqGo (g : Group)
  /-- FREQ_DONE (R126): A frequency change ends with verification and service resumes. -/
  | freqDone (g : Group) (passed : BitVec 9)
  /-- FREQ_AUTO (R127): Firmware judges group traffic and moves a group one point up or down. -/
  | freqAuto (g : Group) (bytes1s bytes10ms : Nat)
  /-- TRAIN_GO (R128): A write of DPn_TRAIN_CTRL.GO starts training or verification of the masked members. -/
  | trainGo (g : Group)
  /-- TRAIN_DONE (R128): A training run ends and its results are stored. -/
  | trainDone (g : Group) (passed : BitVec 9) (tj : Int)
  /-- WCK_TRACK (R129): Every INTERVAL the DP reads the WCK2DQ oscillator and corrects the phase. -/
  | wckTrack (g : Group) (stepPs : Nat)
  /-- WALK_DONE (R135): A device-mode table walk ends with a translation, a fault or a walk error. -/
  | walkDone (who : Fin 512) (readError : Bool)
  /-- ATS_COMPLETION (R136): An ATS Translation Completion returns a translation or a fault. -/
  | atsCompletion (who : Fin 512) (reply : AtsReply)
  /-- DX_PR_POP (R140): A read of DX_PR_POP pops the oldest device-mode page request. -/
  | dxPrPop
  /-- DX_PR_RESP (R141): A write of DX_PR_RESP resolves the parked request of a requester. -/
  | dxPrResp (v : Word)
  /-- PRG_RESPONSE (R141): A PRG Response from the host resolves or refuses a page request. -/
  | prgResponse (who : Fin 512) (code : PrgCode)
  /-- PARK_TIMEOUT (R141): A requester parked for TIMEOUT_MS is refused. -/
  | parkTimeout (who : Fin 512)
  /-- INVALIDATE (R138): A write of DX_INV_CTRL.GO removes matching translation cache entries. -/
  | invalidate (v : Word)
  /-- ATS_INVALIDATE (R138): An ATS Invalidate Request removes matching translation cache entries. -/
  | atsInvalidate (pasid : Nat) (va : BitVec 48) (pages : Nat)
  /-- INVALIDATE_DONE (R138): Every request translated through removed entries has responded and BUSY falls or completion is sent. -/
  | invalidateDone
  /-- BEAT_ISSUE (R144): Every 0.5 ns DX chooses a ready channel and issues one beat. -/
  | beatIssue
  /-- BEAT_RESPONSE (R147): A beat's response returns to its channel, recording any error. -/
  | beatResponse (ch : RingNo) (dst : Bool) (beat : Nat) (reply : BeatReply)
  /-- REQ_LINE_ASSERT (R148): A peripheral asserts its request line and starts one burst. -/
  | reqLineAssert (line : Fin 32) (data : List Byte)
  /-- REQ_LINE_WITHDRAW (R148): A peripheral withdraws its line and the transfer ends after the burst in progress. -/
  | reqLineWithdraw (line : Fin 32)
  /-- REQ_LINE_EN_WRITE (R148): A write of DX_REQ_LINE_EN enables lines, and clearing a bit acts as a withdrawal. -/
  | reqLineEnWrite (v : Word)
  /-- PX_INGRESS (R306): PX parses, filters, polices, classifies, looks up and queues a received frame. -/
  | pxIngress (f : RxFrame)
  /-- REPL_NODE_NEXT (R163): The next replication node begins once every copy of the node before is queued. -/
  | replNodeNext
  /-- ADAPT_PERIOD (R171): Every ADAPT_PERIOD the leg adapter chooses layers within each leg's budget. -/
  | adaptPeriod
  /-- SWITCH_TIMEOUT (R172): A pending encoding move with no switch point within SWITCH_WAIT sends a key request. -/
  | switchTimeout (node : Fin 16384) (slot : Fin 64)
  /-- RTCP_RECEIVER_REPORT (R170): Firmware updates a leg's estimate from an RTCP report or TMMBR. -/
  | rtcpReceiverReport (leg : Fin 8192) (r : RtcpReport)
  /-- LEG_CLOSED (R177): A closing leg's INFLIGHT reaches 0 and CLOSING returns to 0. -/
  | legClosed (leg : Fin 8192)
  /-- JOB_TICK_DISCARD (R176): A non-ring job still held at its frame tick is discarded. -/
  | jobTickDiscard (n : Nat)
  /-- CONTEXT_PLACE (R178): Firmware places a decode or encode context on the engine with most unused rate or refuses it. -/
  | contextPlace (enc : Bool) (leg : Fin 8192) (fps : Fin 128) (k0 k1 k3 : BitVec 128)
  /-- DECODE_BIND (R187): The entropy engine binds a decode job and parses its access unit. -/
  | decodeBind (e : Engine) (r : ParseResult)
  /-- FRAME_BOUNDARY (R187): The pixel engine finishes a picture and the engine's frame boundary occurs. -/
  | frameBoundary (e : Engine) (refBytes : Nat)
  /-- PIXEL_HANG (R204): The pixel engine makes no progress for HANG_MS and the engine is reset. -/
  | pixelHang (e : Engine)
  /-- VE_REF_MISS_POP (R205): A read of VEnn_REF_MISS pops the oldest missing-reference entry. -/
  | veRefMissPop (e : Engine)
  /-- PLI_REPEAT (R203): While pictures stay concealed firmware sends a further picture-loss indication after 1 s. -/
  | pliRepeat (e : Engine) (ctx : Fin 512)
  /-- ENCODE_BIND (R215): At bind the encoder computes budget, cap and QP and checks DST_SIZE. -/
  | encodeBind (e : Engine) (headerBits least : Nat)
  /-- ROW_END (R215): An encoded row ends, is checked against DST and CAP, and QP is adjusted. -/
  | rowEnd (e : Engine) (bits starvedBits backlog : Nat) (packets : List Nat)
  /-- KEY_REQUEST (R218): A picture-loss indication or full intra request reaches an encode context. -/
  | keyRequest (e : Engine) (ctx : Fin 512)
  /-- FRAME_OPEN (R227): At a tick a compositor output latches configuration and layers and opens a frame. -/
  | frameOpen (c : Compositor) (output : Fin 128)
  /-- FRAME_WRITTEN (R228): A composed frame is written and published unless a held region mismatches. -/
  | frameWritten (c : Compositor) (readErr writeErr : Bool)
  /-- BLEND_HANG (R242): A compositor without progress for HANG_MS takes an island reset. -/
  | blendHang (c : Compositor)
  /-- CP_STALE_POP (R243): A read of CPn_STALE_POP pops the oldest stale transition. -/
  | cpStalePop (c : Compositor)
  /-- CP_SIG_POP (R243): A read of CPn_SIG_POP pops the oldest mismatch and latches its CRC. -/
  | cpSigPop (c : Compositor)
  /-- AM_TICK (R246): An audio tick opens frames of the mixes due and queues their decodes. -/
  | amTick (jobs : List AudioWork)
  /-- MIX_FORM (R248): At DEC_DL or when all decodes end AM selects legs and forms every mix. -/
  | mixForm (jobs : List AudioWork)
  /-- MIX_LATE (R249): A mix not formed by MIX_DL is counted late. -/
  | mixLate (mix : Fin 1024)
  /-- RAMP_END (R255): A gain ramp reaches its target and frees its generator. -/
  | rampEnd (leg : Fin 8192) (out : Bool)
  /-- ZERO_CROSSING (R256): A waiting gain steps to its target at a zero or sign change of its signal. -/
  | zeroCrossing (leg : Fin 8192) (out : Bool) (at_ : Nat)
  /-- ZC_TIMEOUT (R256): A waiting gain steps to its target 20 ms after its write. -/
  | zcTimeout (leg : Fin 8192) (out : Bool)
  /-- CROSSFADE_END (R260): A route crossfade ends and any later MIX write takes effect. -/
  | crossfadeEnd (leg : Fin 8192)
  /-- MIX_HANG (R263): No mix progress for HANG_MS resets AM. -/
  | mixHang
  /-- KERNEL_LOAD (R281): DSn_KERNEL_CMD OP 1 loads and checks a kernel image into an entry. -/
  | kernelLoad (c : Cluster)
  /-- KERNEL_UNLOAD (R281): DSn_KERNEL_CMD OP 2 unloads an entry and frees its span. -/
  | kernelUnload (c : Cluster)
  /-- JOB_STAGE (R282): A DSP job's frame is staged and its lane starts at ENTRY. -/
  | jobStage (c : Cluster)
  /-- DEADLINE_MISS (R286): A deadline job not bound by its deadline is discarded. -/
  | deadlineMiss (c : Cluster)
  /-- LANE_HANG (R289): A lane without progress for HANG_MS resets the cluster. -/
  | laneHang (l : LaneId)
  /-- NOP_INSTR (R278): Lane instruction NOP does nothing except its slot. -/
  | nopInstr (l : LaneId) (f : LaneFields)
  /-- HALT (R283): Lane instruction HALT ends the job and writes output and state. -/
  | halt (l : LaneId) (f : LaneFields)
  /-- LDST (R278): Lane instruction LDST performs only its load or store slot. -/
  | ldst (l : LaneId) (f : LaneFields)
  /-- MAC16 (R268): Lane instruction MAC16 adds or subtracts a 16 x 16 product to an accumulator. -/
  | mac16 (l : LaneId) (f : LaneFields)
  /-- MAC32 (R268): Lane instruction MAC32 accumulates a rounded 32 x 16 product. -/
  | mac32 (l : LaneId) (f : LaneFields)
  /-- MUL16 (R268): Lane instruction MUL16 loads a 16 x 16 product into an accumulator, ending a hold. -/
  | mul16 (l : LaneId) (f : LaneFields)
  /-- MUL32 (R268): Lane instruction MUL32 loads a rounded 32 x 16 product, ending a hold. -/
  | mul32 (l : LaneId) (f : LaneFields)
  /-- ACLD (R278): Lane instruction ACLD loads a shifted register into an accumulator. -/
  | acld (l : LaneId) (f : LaneFields)
  /-- ACCLR (R278): Lane instruction ACCLR clears an accumulator. -/
  | acclr (l : LaneId) (f : LaneFields)
  /-- ACADD (R269): Lane instruction ACADD adds one accumulator to another with guard overflow. -/
  | acadd (l : LaneId) (f : LaneFields)
  /-- ACGRD (R278): Lane instruction ACGRD reads an accumulator's guard bits. -/
  | acgrd (l : LaneId) (f : LaneFields)
  /-- NARROW32 (R270): Lane instruction NARROW32 rounds and saturates an accumulator to 32 bits. -/
  | narrow32 (l : LaneId) (f : LaneFields)
  /-- NARROW16 (R270): Lane instruction NARROW16 rounds and saturates an accumulator into a 16-bit half. -/
  | narrow16 (l : LaneId) (f : LaneFields)
  /-- ADD (R271): Lane instruction ADD adds with wrap. -/
  | add (l : LaneId) (f : LaneFields)
  /-- ADDS (R271): Lane instruction ADDS adds with saturation. -/
  | adds (l : LaneId) (f : LaneFields)
  /-- SUB (R271): Lane instruction SUB subtracts with wrap. -/
  | sub (l : LaneId) (f : LaneFields)
  /-- SUBS (R271): Lane instruction SUBS subtracts with saturation. -/
  | subs (l : LaneId) (f : LaneFields)
  /-- AND (R278): Lane instruction AND combines two registers bitwise. -/
  | landI (l : LaneId) (f : LaneFields)
  /-- OR (R278): Lane instruction OR combines two registers bitwise. -/
  | lorI (l : LaneId) (f : LaneFields)
  /-- XOR (R278): Lane instruction XOR combines two registers bitwise. -/
  | lxorI (l : LaneId) (f : LaneFields)
  /-- ASR (R271): Lane instruction ASR shifts right arithmetically. -/
  | asr (l : LaneId) (f : LaneFields)
  /-- LSL (R271): Lane instruction LSL shifts left, filling zeros. -/
  | lsl (l : LaneId) (f : LaneFields)
  /-- MIN (R278): Lane instruction MIN takes the signed minimum. -/
  | minI (l : LaneId) (f : LaneFields)
  /-- MAX (R278): Lane instruction MAX takes the signed maximum. -/
  | maxI (l : LaneId) (f : LaneFields)
  /-- ABS (R271): Lane instruction ABS takes a saturating absolute value. -/
  | abs (l : LaneId) (f : LaneFields)
  /-- MOVI (R278): Lane instruction MOVI loads a signed immediate. -/
  | movi (l : LaneId) (f : LaneFields)
  /-- MOVHI (R278): Lane instruction MOVHI loads an immediate into the upper half. -/
  | movhi (l : LaneId) (f : LaneFields)
  /-- NORM (R277): Lane instruction NORM returns a register's headroom. -/
  | norm (l : LaneId) (f : LaneFields)
  /-- SETA (R278): Lane instruction SETA loads an address register from an immediate. -/
  | seta (l : LaneId) (f : LaneFields)
  /-- MOVA (R278): Lane instruction MOVA loads an address register from a data register. -/
  | mova (l : LaneId) (f : LaneFields)
  /-- SETOF (R278): Lane instruction SETOF loads an offset register. -/
  | setof (l : LaneId) (f : LaneFields)
  /-- SETCB (R273): Lane instruction SETCB sets a circular buffer base or length. -/
  | setcb (l : LaneId) (f : LaneFields)
  /-- REP (R275): Lane instruction REP starts a zero-overhead block repeat. -/
  | rep (l : LaneId) (f : LaneFields)
  /-- BRA (R278): Lane instruction BRA branches by a signed offset. -/
  | bra (l : LaneId) (f : LaneFields)
  /-- BZ (R278): Lane instruction BZ branches when a register is zero. -/
  | bz (l : LaneId) (f : LaneFields)
  /-- BNZ (R278): Lane instruction BNZ branches when a register is not zero. -/
  | bnz (l : LaneId) (f : LaneFields)
  /-- BLT (R278): Lane instruction BLT branches when a register is negative. -/
  | blt (l : LaneId) (f : LaneFields)
  /-- BGE (R278): Lane instruction BGE branches when a register is not negative. -/
  | bge (l : LaneId) (f : LaneFields)
  /-- BXCLR (R277): Lane instruction BXCLR sets BEXP to 31. -/
  | bxclr (l : LaneId) (f : LaneFields)
  /-- BXRD (R277): Lane instruction BXRD reads BEXP. -/
  | bxrd (l : LaneId) (f : LaneFields)
  /-- BXEN (R277): Lane instruction BXEN enables or disables block exponent tracking. -/
  | bxen (l : LaneId) (f : LaneFields)
  /-- CELL_ARRIVE (R297): A further cell of a packet arrives and is written to the pool. -/
  | cellArrive (source : Fin 21) (bytes : List Byte) (eop badFcs : Bool)
  /-- PACKET_DEQUEUE (R300): A consumer begins reading the head packet and removes it from its queue. -/
  | packetDequeue (queue : Fin 65536) (cell : CellRead)
  /-- QM_FLUSH (R301): A write of QM_FLUSH.GO sets the flush moment and walks the queue. -/
  | qmFlush (queue : Fin 65536)
  /-- FLUSH_DONE (R301): The flush walk ends and raises FLUSH_DONE. -/
  | flushDone
  /-- POLICER_REFILL (R314): Every 1 µs each policer bucket is refilled. -/
  | policerRefill
  /-- PORT_READY (R322): When a port can start a frame TM chooses a queue and starts the frame. -/
  | portReady (port : Fin 20) (link : Fin 1024) (cell : CellRead)
  /-- SHAPER_REFILL (R323): Every 1 µs each shaper's tokens are refilled. -/
  | shaperRefill
  /-- GATE_CHANGE (R325): A gate list entry's interval ends and the next gates take effect. -/
  | gateChange (port : Fin 16)
  /-- GCL_PENDING_START (R327): A pending gate list reaches its start and becomes operational. -/
  | gclPendingStart (port : Fin 16)
  /-- SWAP (R319): A write of PX_RT_CTRL.SWAP makes the next route version current. -/
  | swap
  /-- SWAP_DONE (R319): The route swap completes and raises SWAP_DONE. -/
  | swapDone
  /-- VERSION_FREE (R320): A non-current route version that no packet carries is freed. -/
  | versionFree (ver : Fin 16)
  /-- MONITOR_SAMPLE (R329): Every 1 µs an enabled monitor writes a queue sample and may freeze. -/
  | monitorSample (m : Fin 64)
  /-- EP_LINK_DOWN (R330): An Ethernet port or subport loses link. -/
  | epLinkDown (port : Fin 17)
  /-- EP_LINK_UP (R330): An Ethernet port or subport gains link. -/
  | epLinkUp (port : Fin 17) (speed : Fin 3)
  /-- EP_LANE_FAULT (R311): An active lane loses signal or block lock. -/
  | epLaneFault (ep lane : Fin 4)
  /-- PX_HANG (R330): No lookup progress for 10 ms resets PX. -/
  | pxHang
  /-- TM_HANG (R330): No port served for HANG_MS while a queue is eligible. -/
  | tmHang
  /-- REF_IN_EDGE (R337): At each REF_IN edge TU adds TU_INC to raw time and applies pending rate, slew and steps. -/
  | refInEdge
  /-- TU_INC_WRITE (R338): A write of TU_INC_HI applies a new increment at the next edge or is refused. -/
  | tuIncWrite (v : Word)
  /-- TU_RATE_WRITE (R341): A write of TU_RATE_HI re-bases presented time and applies a new rate or is refused. -/
  | tuRateWrite (host : Bool) (v : Word)
  /-- TU_ADJ_WRITE (R343): A write of TU_ADJ_HI submits an adjustment that steps, slews or is refused. -/
  | tuAdjWrite (host : Bool) (v : Word)
  /-- ARM (R344): A write of TU_STEP_CTRL.ARM sets ARMED. -/
  | arm
  /-- DISARM (R344): A write of TU_STEP_CTRL.DISARM clears ARMED. -/
  | disarm
  /-- TICK (R347): A tick generator issues tick k when presented time reaches its nominal time. -/
  | tick (g : Fin 32)
  /-- SERVO_UPDATE (R349): Once per second firmware computes the offset and submits adjustment and rate. -/
  | servoUpdate (offset : Option Int) (rate : Int)
  /-- HOLDOVER_ENTER (R350): A receipt timeout, missing PPS_IN or refused adjustment moves LOCKED to HOLDOVER. -/
  | holdoverEnter
  /-- HOLDOVER_EXPIRED (R350): TU_HOLDOVER_LIMIT minutes in HOLDOVER move the state to FREE_RUN. -/
  | holdoverExpired
  /-- OSC_MODEL_STORE (R352): Every 15 min while LOCKED firmware stores the oscillator model. -/
  | oscModelStore (tj : Int) (rate : Int) (valid : Bool) (ageDays : Nat)
  /-- PPS_IN_EDGE (R359): A PPS_IN edge is stamped and accepted or ignored. -/
  | ppsInEdge (falling : Bool)
  /-- PPS_IN_MISSING (R359): 2.5 s without an accepted edge raises PPS_IN_MISSING. -/
  | ppsInMissing
  /-- TXTS_POP (R362): A read of TU_TXTS_POP pops the oldest transmit stamp of the selected queue. -/
  | txtsPop
  /-- REF_LOST (R482): REF_IN stops toggling and the clocked domains stop with DRAM in self-refresh. -/
  | refLost
  /-- REF_RETURN (R482): REF_IN toggles again and firmware resets the clocked domains in turn. -/
  | refReturn (elapsed : Nat)
  /-- RETUNE (R365): A radio's synthesiser retunes to a new centre frequency. -/
  | retune (r : Radio) (mode : Fin 5) (carrier : Nat)
  /-- CAL_GO (R373): A write of CV_CAL_CTRL.GO requests calibration of chains in the next gap. -/
  | calGo (v : Word)
  /-- CALIBRATION (R373): CV calibrates a chain in a free gap. -/
  | calibration (r : Radio) (c : Chain) (pass granted : Bool) (imageDb : Nat) (tj : Int)
  /-- TX_BURST_START (R367): CV runs the front-end sequence and drains the buffer to put the first sample at the boundary. -/
  | txBurstStart (r : Radio) (filled : Bool)
  /-- BURST_END (R367): The last sample leaves and the bias ramps down and the T/R switch returns. -/
  | burstEnd (r : Radio) (ack : Option LinkFrame)
  /-- BLOCK_END (R384): At the end of each block the chain loopback power is checked. -/
  | blockEnd (r : Radio) (short : BitVec 4)
  /-- RB_CHAIN_RETIRE_WRITE (R386): A write of 0 to a set RBn_CHAIN_RETIRE bit requests re-qualification of the chain. -/
  | rbChainRetireWrite (r : Radio) (c : Chain)
  /-- RX_BURST (R377): The block modem receives and decodes a burst and reports it to AC. -/
  | rxBurst (b : RxBurst)
  /-- GFSK_FRAME (R380): The GFSK receiver decodes a sensor frame. -/
  | gfskFrame (r : Radio) (f : SensorFrame)
  /-- LO_UNLOCK (R388): A synthesiser loses lock, the burst is cut and relock is tried. -/
  | loUnlock (r : Radio) (relocks : Bool)
  /-- MODEM_HANG (R388): No modem progress for HANG_MS while a burst is due resets RB. -/
  | modemHang (r : Radio)
  /-- CALLER_ASSEMBLY (R401): 40 µs before a quadrille AC takes any bow and assembles each radio's caller. -/
  | callerAssembly
  /-- GRANT_ASSEMBLY (R402): 40 µs before a DOWN grant AC assembles its burst from assured items and TM queues. -/
  | grantAssembly (r : Radio) (g : GrantRef)
  /-- REORDER_TIMEOUT (R406): REORDER after the oldest held frame NEXT jumps and delivery resumes. -/
  | reorderTimeout (link : Fin 1024)
  /-- LINK_LOST (R409): A link with no decoded burst in LINK_LOSS_QUADS granted quadrilles becomes LOST. -/
  | linkLost (link : Fin 1024)
  /-- CALLER_MISS (R423): A partner caller not decoded in its search window is counted missed. -/
  | callerMiss (p : Fin 32)
  /-- SENSOR_EXCHANGE (R417): AC sends a guarded preamble and downlink frame at a sensor's predicted wake. -/
  | sensorExchange (i : Fin 2048)
  /-- SENSOR_RETRY (R418): A failed exchange starts the next escalation step. -/
  | sensorRetry (i : Fin 2048)
  /-- DISCOVERY_CALL (R420): Every DISC_EVERY quadrilles AC sends a discovery call and opens the sleepy window. -/
  | discoveryCall
  /-- WINDOW_ANSWER (R420): AC sends the window answer listing admitted and deferred sensors. -/
  | windowAnswer
  /-- MAC_HANG (R426): No slot boundary served for HANG_MS resets AC. -/
  | macHang
  /-- AC_LOST_POP (R427): A read of AC_LOST_POP pops the oldest lost or found transition. -/
  | acLostPop
  /-- INLINE_REQUEST (R444): An inline SRTP request from PX suspends lower work and is served. -/
  | inlineRequest (r : InlineReq)
  /-- KEY_ERASE (R435): A write of CEn_KEY_CMD.ERASE empties a key slot. -/
  | keyErase (slot : Fin 256) (ce : CipherEngine)
  /-- LOCK_SERVICE (R448): A host write of MODE 0 returns an engine from TEST to SERVICE. -/
  | lockService (ce : CipherEngine)
  /-- LOCK_TEST (R448): A host write of MODE 2 puts an engine into TEST. -/
  | lockTest (ce : CipherEngine)
  /-- LOCK_RECOVERY (R448): A host write of MODE 3 puts an engine into RECOVERY. -/
  | lockRecovery (ce : CipherEngine)
  /-- SELFTEST_DONE (R448): Known-answer tests end, passing to SERVICE or failing to sit out. -/
  | selftestDone (ce : CipherEngine) (pass : Bool) (durationUs : Nat)
  /-- CE_HANG (R449): No block completed for HANG_MS resets the engine. -/
  | ceHang (ce : CipherEngine)
  /-- STAGE (R459): SK_CMD STAGE checks an image and programs it into the other bank as a trial. -/
  | stage (flashOk : Bool)
  /-- CONFIRM (R459): SK_CMD CONFIRM fixes the running bank, raises the floor and revokes keys. -/
  | confirm
  /-- ATTEST (R461): SK_CMD ATTEST produces a signed attestation report. -/
  | attest
  /-- EXTEND (R461): SK_CMD EXTEND extends a host measurement register. -/
  | extend
  /-- WRAP (R454): SK_CMD WRAP makes a blob under a KEK. -/
  | wrap
  /-- CHALLENGE (R462): SK_CMD CHALLENGE draws a debug challenge. -/
  | challenge
  /-- UNLOCK (R462): SK_CMD UNLOCK checks a token, erases secrets, opens the gate and starts a warm reset. -/
  | unlock (shifted : Option (List Byte))
  /-- CLOSE (R462): SK_CMD CLOSE closes the debug gate. -/
  | gateClose
  /-- RETURN (R464): SK_CMD RETURN moves the part to RETURNED with a level 3 token. -/
  | skReturn
  /-- CHALLENGE_EXPIRE (R462): A debug challenge expires 60 s after it was drawn. -/
  | challengeExpire
  /-- DEBUG_LOCK_WRITE (R463): A write of SK_DEBUG_LOCK makes the lock stricter or is refused. -/
  | debugLockWrite (v : Word)
  /-- RNG_FAIL (R466): SK's random source fails its health tests. -/
  | rngFail
  /-- FIRMWARE_ISLAND_RST (R480): Firmware writes ISLAND_RST of a page that entered FAULTED. -/
  | firmwareIslandRst (p : Page)
  /-- PWRGOOD_RISE (R492): A rise of PWRGOOD starts a cold boot. -/
  | pwrgoodRise (refIn : Option (Fin 4)) (rngOk flashOk : Bool)
  /-- STAGE_TIMEOUT (R493): A unit that fails to reach READY within 100 ms of ENABLE is handled as FAULTED. -/
  | stageTimeout (p : Page)
  /-- PWRGOOD_FALL (R491): A fall of PWRGOOD releases PAEN, commits persistent state and takes safe levels. -/
  | pwrgoodFall
  /-- RAIL_DIP (R509): A rail below its minimum for over 10 µs is treated as a fall of PWRGOOD. -/
  | railDip
  /-- RESET_N (R494): RESET_N held low for 1.0 µs starts a warm reset. -/
  | resetN
  /-- WARM_RESET_WRITE (R494): A write of CC_RESET_CTRL with WARM and the key starts a warm reset. -/
  | warmResetWrite (v : Word)
  /-- WDOG_KICK (R497): A write of 0x4B43 to CC_WDOG_KICK restarts the host watchdog period. -/
  | wdogKick (v : Word)
  /-- WATCHDOG_EXPIRE (R497): A missed kick for TIMEOUT_MS starts a watchdog reset. -/
  | watchdogExpire (host : Bool)
  /-- THERMAL_TRIP (R499): A sensor reaching +125 °C latches THERMTRIP_N and stops the device. -/
  | thermalTrip (sensor : Fin 24)
  /-- PH_LINK_DOWN (R475): The PCI Express link leaves L0 and does not return within 10 ms. -/
  | phLinkDown
  /-- PH_LINK_UP (R475): The PCI Express link reaches L0. -/
  | phLinkUp (speed : Fin 8) (width : Fin 16)
  /-- SMB_STATUS (R520): SMBus STATUS returns fault, trip, readiness and buffer flags. -/
  | smbStatus
  /-- SMB_REG_ADDR (R520): SMBus REG_ADDR sets the BAR0 offset for register access. -/
  | smbRegAddr (a : BitVec 24)
  /-- SMB_REG_DATA_READ (R520): SMBus REG_DATA block read reads the register at REG_ADDR. -/
  | smbRegDataRead
  /-- SMB_REG_DATA_WRITE (R520): SMBus REG_DATA block write writes the register at REG_ADDR. -/
  | smbRegDataWrite (v : Word)
  /-- SMB_BUF_READ (R520): SMBus BUF block read reads the target buffer. -/
  | smbBufRead (n : Nat)
  /-- SMB_BUF_WRITE (R520): SMBus BUF block write fills the target buffer. -/
  | smbBufWrite (bytes : List Byte)
  /-- SMB_ALERT_RESPONSE (R520): The Alert Response Address returns CC_SMBUS_ADDR. -/
  | smbAlertResponse
  /-- JTAG_BYPASS (R521): TAP instruction BYPASS. -/
  | jtagBypass
  /-- JTAG_IDCODE (R521): TAP instruction IDCODE returns the device IDCODE. -/
  | jtagIdcode
  /-- JTAG_SAMPLE_PRELOAD (R521): TAP instruction SAMPLE/PRELOAD. -/
  | jtagSamplePreload
  /-- JTAG_EXTEST (R521): TAP instruction EXTEST, loaded only while RESET_N is low. -/
  | jtagExtest
  /-- JTAG_CLAMP (R521): TAP instruction CLAMP, loaded only while RESET_N is low. -/
  | jtagClamp
  /-- JTAG_HIGHZ (R521): TAP instruction HIGHZ, loaded only while RESET_N is low. -/
  | jtagHighz
  /-- RESET_N_RELEASE (R494): RESET_N rises while a warm reset holds before its release step, and the reset goes on. -/
  | resetNRelease
  /-- DP_PLL_UNLOCK (R475): A DP PLL loses lock, the group is held as in a frequency change, and the PLL relocks or escalates to FAULTED. -/
  | dpPllUnlock (g : Group) (relocks : Bool)
  /-- PH_PLL_UNLOCK (R475): The PCI Express PHY PLL loses lock and the link retrains, or escalates to FAULTED. -/
  | phPllUnlock (relocks : Bool)
  /-- PCIE_ERROR (R475): The link reports a correctable or uncorrectable error under the PCI Express Base Specification, raising PH AER_CORR or AER_UNCORR. -/
  | pcieError (e : PcieErr)
  /-- HB_HANG (R475): HB makes no progress for 10 ms while work is due and takes an island reset, or faults on escalation. -/
  | hbHang
  /-- FB_HANG (R475): FB makes no progress for 10 ms while work is due and takes an island reset, or faults on escalation. -/
  | fbHang
  /-- DX_HANG (R475): DX makes no progress for 10 ms while work is due and takes an island reset followed by encore, or faults on escalation. -/
  | dxHang
  /-- CORE_FAULT (R475): A control core's lockstep compare differs, its task restarts from its checkpoint, and escalation retires the core. -/
  | coreFault (core : Fin 8)
  /-- TEMP_WARN (R475): The hottest junction sensor reaches CC_TEMP_WARN and CC event TEMP_WARN is raised. -/
  | tempWarn (hot : Int) (sensor : Fin 24)
  /-- ILLEGAL_OP (R278): A lane instruction whose OP is not in Table 12.2 faults with subcause ILLEGAL. -/
  | illegalOp (l : LaneId) (op : BitVec 8)
  /-- RC_READ (R36): A read of an RC register or field returns its value and clears it. -/
  | rcRead (off : Bar0)
  /-- CONFIG_WRITE (R141): A host configuration write enables or disables Address Translation Services or the Page Request Interface of the function. -/
  | configWrite (ats pri : Bool)
  /-- JTAG_DEBUG_INSTRUCTION (R462): A non-public TAP instruction is refused while the gate is closed, or grants register, memory or run-control access at the open LEVEL. -/
  | jtagDebugInstruction (access : DebugAccess)
deriving DecidableEq, Repr

end Sys2Proof
end

