-- ==== Sys2Proof/Decode.lean ====
section
/-! DEFINITION. The command a word spells by the opcode table's bits. Every row of spec/opcode_table.json gives no bits:
the commands come over a bus, a link, a pin or from the block's own units, each in the form its rule states, and no word
of the table's spells one (assumption log 8). -/

namespace Sys2Proof

/-- The command an `nbits`-bit word spells by the table's bits: the table gives no row any, so none. -/
def decodeTableWord (_nbits _w : Nat) : Option Instr := none

end Sys2Proof
end

