-- ==== Sys2Proof/Config.lean ====
section
/-! DEFINITION. The free values of the model: constants without a body, so nothing can be proved of what they are.
Each stands where the spec (or a published standard outside it) leaves a value open; the assumption log names every one
(log 2 and 3). A `Nat` first argument is the model's draw counter `Dev.fresh` where a fresh value is needed each time. -/

namespace Sys2Proof.Config

/-- A fresh value of any size, drawn with the counter. -/
opaque freeNat : Nat → Nat
/-- What an out-of-range write stores in a field whose range the spec gives without a rule: register key, low bit,
written value (log 4). -/
opaque outOfRange : Nat → Nat → Nat → Nat
/-- What a manufacturing register reads in MANUFACTURE: its BAR0 offset and the word last written (log 6). -/
opaque mfgRead : Nat → Word → Word
/-- Firmware's default cost of one unit, 1/16 µJ, for classes 0–14 (R69). -/
opaque costDefault : Nat → Nat
/-- The floor firmware computes for an island, by page and a digest of the configured work (R52, R53; R383 gives the one
of RB). -/
opaque floorOf : Nat → Nat → Nat
/-- Pace between the columns of Table 3.2: page, voltage point, junction in °C (R58). -/
opaque paceAt : Nat → Nat → Int → Nat
/-- The neighbour-refresh draw of a channel: channel and draw counter (R124). -/
opaque refreshDraw : Nat → Nat → Nat
/-- What a read of a page or row whose content the spec leaves open returns. -/
opaque freeByte : Nat → Byte
/-- Bytes a coding or decoding process of a published standard, a codec kernel or a radio produces: draw and index. -/
opaque codedByte : Nat → Nat → Byte
/-- SHA3-512 of a byte string (FIPS 202), 64 bytes. -/
opaque sha3_512 : List Byte → List Byte
/-- Does the fuse entry of this index equal this hash (R456)? -/
opaque fuseMatches : Nat → List Byte → Bool
/-- ML-DSA-87 verification (FIPS 204): public key, message, context, signature. -/
opaque mldsaVerify : List Byte → List Byte → List Byte → List Byte → Bool
/-- ML-DSA-87 public key of a device key: 0 DevID, 1 AK; AK's is that of an epoch and a manifest hash (R452). -/
opaque mldsaPublic : Nat → Nat → List Byte → List Byte
/-- ML-DSA-87 signature of a device key, as above: message, context string. -/
opaque mldsaSign : Nat → Nat → List Byte → List Byte → List Byte → List Byte
/-- The DevID certificate written at manufacture (R453). -/
opaque devCertificate : List Byte
/-- STATUS of an UNLOCK whose token fails MAGIC, SERIAL, PK or LEVEL: the spec names no status for these checks; the check
that fails, 1 to 4 (R462). -/
opaque tokenStatus : Nat → Nat
/-- Plan version of a channel-plan component: the layout of the component is left open (R500). -/
opaque planVersion : List Byte → Nat
/-- Offset, in the vendor kernel component, of the image that goes to an entry: manifest hash and entry; the layout of the
component is left open (R281). -/
opaque kernelOffset : List Byte → Nat → Nat
/-- Kulomund's JEP106 manufacturer code in the IDCODE (R521). -/
opaque jep106 : Nat
/-- VERIFY_MS of a boot check: the time that it took (Table 19.8). -/
opaque verifyMs : Nat → Nat
/-- Is this hash that of Kulomund's debug authority key (R462)? -/
opaque debugAuthority : List Byte → Bool
/-- SK's ROM version bytes (extended into MR0). -/
opaque romVersion : List Byte
/-- A device-held KEK by number and epoch. -/
opaque kek : Nat → Nat → List Byte
/-- SSRC of the audio stream a leg is sent, from signalling (Table 7.3). -/
opaque audioSsrc : Nat → Nat
/-- RMS level of a frame of 16-bit samples, in thousandths of a dBFS: its reference and its rounding are left open (R250). -/
opaque rmsLevel : List Int → Int
/-- How far a ramping gain lies from its line, in thousandths of a dB; within ±10 (R255). -/
opaque rampSlack : Nat → Nat → Int
/-- Does a product of a crossfade weight round up at a sample (R260)? -/
opaque fadeRound : Nat → Nat → Bool
/-- Does the persistent store hold a channel plan for a country, in a plan version (R411)? -/
opaque planKnown : Nat → Nat → Bool
/-- A plan channel by country, version, radio and index: centre in 250 kHz, air mode, EIRP in 0.5 dBm, hopping flag, dwell
limit in ms (R411). -/
opaque planChan : Nat → Nat → Nat → Nat → Option (Nat × Nat × Nat × Bool × Nat)
/-- clockClass that the active profile assigns to a synchronisation state (R350). -/
opaque clockClass : Nat → Nat
/-- A 32-byte random draw of SK. -/
opaque random32 : Nat → List Byte
/-- Eight bit steps of a reflected CRC with a reflected polynomial. -/
def crcSteps (poly : Nat) : Nat → Nat → Nat
  | 0, c => c
  | n + 1, c => crcSteps poly n (if c % 2 = 1 then (c / 2) ^^^ poly else c / 2)
/-- A reflected 32-bit CRC, initial value and final XOR 0xFFFF_FFFF. -/
def crcOf (poly : Nat) (bs : List Byte) : Nat :=
  (bs.foldl (fun c b => crcSteps poly 8 (c ^^^ b.toNat)) 0xFFFFFFFF) ^^^ 0xFFFFFFFF
/-- CRC-32 of R239: polynomial 0x04C1_1DB7 reflected. -/
def crc32 (bs : List Byte) : Nat := crcOf 0xEDB88320 bs

/-- CRC-32C of R150: polynomial 0x1EDC_6F41 reflected. -/
def crc32c (bs : List Byte) : Nat := crcOf 0x82F63B78 bs

end Sys2Proof.Config
end

