-- ==== Sys2Proof/Machine/Pages.lean ====
section
/-! DEFINITION. The 61 register pages, their kinds, what a register table row says, the event catalogue and the table
windows: constants of the spec that the operations read (chapters 2, 20 and 23, and the event tables of the other
chapters). -/

namespace Sys2Proof.Machine

/-- The kinds of page (Table 23.2). -/
inductive PageKind where
  | dir | cc | ps | sk | hb | fb | tu | dx | mc | dp | ve | ds | cp | am | qm | px | tm | ep | mg | rb | cv | ac | ce | ph
deriving DecidableEq, Repr

/-- A page number from a Nat; numbers above 0x03C do not occur. -/
def pg (n : Nat) : Page := Fin.ofNat 61 n

namespace Pg
abbrev dir : Page := 0
abbrev cc : Page := 1
abbrev ps : Page := 2
abbrev sk : Page := 3
abbrev hb : Page := 4
abbrev fb : Page := 5
abbrev tu : Page := 6
abbrev dx : Page := 7
abbrev am : Page := 0x2C
abbrev qm : Page := 0x2D
abbrev px : Page := 0x2E
abbrev tm : Page := 0x2F
abbrev mg : Page := 0x34
abbrev cv : Page := 0x38
abbrev ac : Page := 0x39
abbrev ph : Page := 0x3C
def mc (g : Group) : Page := pg (0x08 + g.val)
def dp (g : Group) : Page := pg (0x0C + g.val)
def ve (e : Engine) : Page := pg (0x10 + e.val)
def ds (c : Cluster) : Page := pg (0x20 + c.val)
def cp (c : Compositor) : Page := pg (0x28 + c.val)
def ep (n : Fin 4) : Page := pg (0x30 + n.val)
def rb (r : Radio) : Page := pg (0x35 + r.val)
def ce (n : CipherEngine) : Page := pg (0x3A + n.val)
end Pg

/-- The kind of each page (Table 23.2). -/
def kindOf (p : Page) : PageKind :=
  let n := p.val
  if n = 0 then .dir else if n = 1 then .cc else if n = 2 then .ps else if n = 3 then .sk else if n = 4 then .hb
  else if n = 5 then .fb else if n = 6 then .tu else if n = 7 then .dx else if n < 0x0C then .mc
  else if n < 0x10 then .dp else if n < 0x20 then .ve else if n < 0x28 then .ds else if n < 0x2C then .cp
  else if n = 0x2C then .am else if n = 0x2D then .qm else if n = 0x2E then .px else if n = 0x2F then .tm
  else if n < 0x34 then .ep else if n = 0x34 then .mg else if n < 0x38 then .rb else if n = 0x38 then .cv
  else if n = 0x39 then .ac else if n < 0x3C then .ce else .ph

/-- The first page of a kind. -/
def kindBase : PageKind → Nat
  | .dir => 0 | .cc => 1 | .ps => 2 | .sk => 3 | .hb => 4 | .fb => 5 | .tu => 6 | .dx => 7 | .mc => 0x08 | .dp => 0x0C
  | .ve => 0x10 | .ds => 0x20 | .cp => 0x28 | .am => 0x2C | .qm => 0x2D | .px => 0x2E | .tm => 0x2F | .ep => 0x30
  | .mg => 0x34 | .rb => 0x35 | .cv => 0x38 | .ac => 0x39 | .ce => 0x3A | .ph => 0x3C

/-- PAGE_ID.INSTANCE (Table 2.3). -/
def instOf (p : Page) : Nat := p.val - kindBase (kindOf p)

/-- PAGE_ID.BLOCK_TYPE (Table 23.2). -/
def blockType : PageKind → Nat
  | .dir => 0 | .cc => 0x01 | .ps => 0x02 | .sk => 0x03 | .hb => 0x04 | .fb => 0x05 | .tu => 0x06 | .dx => 0x07
  | .mc => 0x08 | .dp => 0x09 | .ve => 0x0A | .ds => 0x0B | .cp => 0x0C | .am => 0x0D | .qm => 0x0E | .px => 0x0F
  | .tm => 0x10 | .ep => 0x11 | .mg => 0x12 | .rb => 0x13 | .cv => 0x14 | .ac => 0x15 | .ce => 0x16 | .ph => 0x17

/-- The clocked domains (Table 1.2); every other page but DIR is a self-timed island (Table 1.1). -/
def PageKind.clocked : PageKind → Bool
  | .tu | .ph | .ep | .mg | .dp | .cv => true
  | _ => false

/-- Self-timed islands (Table 1.1). -/
def PageKind.selfTimed (k : PageKind) : Bool := !k.clocked && k != .dir

/-- Pages with RWS registers or shadowed entries, which have COMMIT_STAT (R36). -/
def PageKind.hasCommit : PageKind → Bool
  | .ve | .cp | .am | .tm | .ac => true
  | _ => false

/-- Access codes of the register tables. -/
inductive Acc where
  | rw | ro | rc | rwp | rop | rws | w1s | w1c | wo
deriving DecidableEq, Repr

/-- What a write does with a value outside a field's range. -/
inductive FieldRule where
  /-- every value of the field's width is stored -/
  | any
  /-- a value outside lo..hi leaves the field unchanged -/
  | keep (lo hi : Nat)
  /-- as `keep`, the field read as a signed number -/
  | keepSigned (lo hi : Int)
  /-- a value below lo is stored as lo, one above hi as hi -/
  | clamp (lo hi : Nat)
  /-- a value not listed leaves the field unchanged -/
  | oneOf (vs : List Nat)
  /-- the spec gives the range and no rule: an out-of-range write stores a free value -/
  | free (lo hi : Nat)
  /-- as `free`, for a list of values -/
  | freeOf (vs : List Nat)
deriving DecidableEq, Repr

/-- One field of a register table row. -/
structure Field where
  hi : Nat
  lo : Nat
  acc : Acc
  rule : FieldRule
deriving DecidableEq, Repr

/-- A register whose copy is chosen by a select register of its page. -/
structure Bank where
  sel : Nat
  hi : Nat
  lo : Nat
deriving DecidableEq, Repr

/-- One row of a register table. -/
structure RegDesc where
  off : Nat
  reset : Word
  fields : List Field
  bank : Option Bank
deriving DecidableEq, Repr

/-! ## Events -/

/-- Severities (Table 2.9). -/
inductive Sev where
  | log | notice | transient | permanent
deriving DecidableEq, Repr

/-- The code of a severity in EVT_SEV and HIST_READ. -/
def Sev.code : Sev → Nat
  | .log => 0 | .notice => 1 | .transient => 2 | .permanent => 3

/-- The severity of a code. -/
def Sev.ofCode (n : Nat) : Sev :=
  if n % 4 = 0 then .log else if n % 4 = 1 then .notice else if n % 4 = 2 then .transient else .permanent

/-- What a PERMANENT detection of a source does (R473). -/
inductive Action where
  | none | retire | faulted
deriving DecidableEq, Repr

/-- One catalogue row: source, default severity, action at PERMANENT, and whether it is a hang source (R475). -/
structure EvDesc where
  src : Nat
  sev : Sev
  act : Action
  hang : Bool
deriving DecidableEq, Repr

/-- A source that is no hang and takes no action. -/
def ev (n : Nat) (s : Sev) : EvDesc := ⟨n, s, .none, false⟩

/-- Sources every self-timed page has besides its own (R32, R474). -/
def commonEvents (k : PageKind) : List EvDesc :=
  (if k.selfTimed then [ev 28 .log, ev 29 .notice] else []) ++ (if k = .dir then [] else [ev 30 .notice, ev 31 .notice])

/-- The block sources of a page (Tables 20.2, 8.6, 9.6, 10.5, 11.3, 12.7, 13.5, 14.5, 15.6, 16.9, 17.9, 18.8, 19.7). -/
def blockEvents : PageKind → List EvDesc
  | .dir => []
  | .cc => [ev 0 .notice, ev 1 .notice, ⟨2, .transient, .retire, false⟩]
  | .ps => [ev 0 .notice, ev 1 .permanent, ⟨2, .transient, .retire, false⟩]
  | .sk => [ev 0 .permanent, ev 1 .notice, ev 2 .notice, ev 3 .notice, ev 4 .notice, ev 5 .notice, ev 6 .permanent,
      ev 7 .log]
  | .hb => [ev 0 .notice, ev 1 .notice, ⟨2, .transient, .faulted, true⟩]
  | .fb => [ev 0 .notice, ev 1 .notice, ev 2 .log, ev 3 .notice, ⟨4, .transient, .faulted, true⟩]
  | .tu => [ev 0 .notice, ev 1 .log, ev 2 .notice, ev 3 .notice, ev 4 .notice, ev 5 .log, ev 6 .notice, ev 7 .notice,
      ev 8 .log, ev 9 .notice, ev 10 .permanent]
  | .dx => [ev 0 .notice, ev 1 .notice, ev 2 .notice, ev 3 .permanent, ev 4 .notice, ev 5 .notice, ev 6 .notice,
      ev 7 .notice, ev 8 .log, ⟨9, .transient, .faulted, true⟩, ev 10 .permanent, ev 11 .notice]
  | .mc => [⟨0, .transient, .retire, false⟩, ev 1 .permanent, ev 2 .notice, ev 3 .notice, ev 4 .notice, ev 5 .log]
  | .dp => [ev 0 .log, ⟨1, .transient, .faulted, false⟩]
  | .ve => [ev 0 .log, ev 1 .notice, ev 2 .notice, ev 3 .notice, ev 4 .notice, ⟨5, .transient, .retire, true⟩,
      ev 8 .log, ev 9 .notice, ev 10 .notice, ev 11 .notice, ev 12 .notice, ev 13 .notice, ev 14 .log]
  | .ds => [ev 0 .log, ev 1 .notice, ev 2 .notice, ev 3 .log, ev 4 .notice, ⟨5, .transient, .retire, true⟩]
  | .cp => [ev 0 .log, ev 1 .notice, ev 2 .notice, ev 3 .notice, ev 4 .notice, ev 5 .notice,
      ⟨6, .transient, .retire, true⟩]
  | .am => [ev 0 .log, ev 1 .notice, ev 2 .log, ev 3 .log, ev 4 .log, ev 5 .notice, ev 6 .notice,
      ⟨7, .transient, .faulted, true⟩]
  | .qm => [ev 0 .log, ev 1 .notice, ev 2 .notice, ev 3 .notice, ev 4 .log, ⟨5, .transient, .retire, false⟩]
  | .px => [ev 0 .log, ev 1 .notice, ev 2 .notice, ev 3 .log, ev 4 .notice, ev 5 .notice, ev 6 .log,
      ⟨7, .transient, .faulted, true⟩]
  | .tm => [ev 0 .notice, ev 1 .notice, ev 2 .notice, ev 3 .log, ⟨4, .transient, .faulted, true⟩]
  | .ep => [ev 0 .notice, ev 1 .notice, ev 2 .log, ev 3 .log, ⟨4, .transient, .retire, false⟩, ev 5 .log]
  | .mg => [ev 0 .notice, ev 1 .notice, ev 2 .log, ev 5 .log]
  | .rb => [⟨0, .transient, .retire, false⟩, ev 1 .log, ev 2 .log, ev 3 .log, ev 4 .notice, ev 5 .notice,
      ⟨6, .transient, .faulted, true⟩]
  | .cv => [ev 0 .notice, ev 1 .notice, ev 2 .log, ⟨3, .transient, .faulted, false⟩, ev 4 .log, ev 5 .notice,
      ev 6 .notice]
  | .ac => [ev 0 .log, ev 1 .notice, ev 2 .log, ev 3 .log, ev 4 .notice, ev 5 .notice, ev 6 .log, ev 7 .log, ev 8 .notice,
      ev 9 .log, ev 10 .log, ev 11 .notice, ev 12 .log, ev 13 .log, ev 14 .notice, ev 15 .notice, ev 16 .notice,
      ⟨17, .transient, .faulted, true⟩]
  | .ce => [ev 0 .notice, ev 1 .log, ev 2 .notice, ev 3 .notice, ⟨4, .transient, .retire, false⟩,
      ⟨5, .permanent, .retire, false⟩, ev 6 .log, ⟨7, .transient, .retire, true⟩]
  | .ph => [ev 0 .notice, ev 1 .log, ev 2 .log, ev 3 .notice, ⟨4, .transient, .faulted, false⟩]

/-- The catalogue row of a source; a reserved source takes no action and defaults to LOG (assumption log 5). -/
def evDesc (k : PageKind) (n : Nat) : EvDesc :=
  ((blockEvents k ++ commonEvents k).find? (fun e => e.src == n)).getD (ev n .log)

/-! Source numbers by name. -/
namespace Evt
abbrev PACE_LIFT := 28
abbrev PACE_FLOOR_BREACH := 29
abbrev SHADOW_LOCKED := 30
abbrev COMMIT_REJECT := 31
abbrev CC_BUDGET_OVER := 0
abbrev CC_TEMP_WARN := 1
abbrev CC_CORE_FAULT := 2
abbrev PS_WORD_REMAP := 0
abbrev PS_PS_WORN := 1
abbrev PS_BANK_FAULT := 2
abbrev HB_REG_WIDTH := 0
abbrev HB_REG_HOLE := 1
abbrev HB_HANG := 2
abbrev FB_ADDR_HOLE := 0
abbrev FB_PARTITION_REFUSED := 1
abbrev FB_SRAM_CORR := 2
abbrev FB_SRAM_UNCORR := 3
abbrev FB_HANG := 4
abbrev DX_SEQ_BREAK := 0
abbrev DX_DOORBELL_RANGE := 1
abbrev DX_LEDGER_CFG := 2
abbrev DX_LEDGER_ONE_COPY := 3
abbrev DX_ENCORE_DONE := 4
abbrev DX_WALK_ERROR := 5
abbrev DX_PAGE_REQ := 6
abbrev DX_PAGE_REFUSED := 7
abbrev DX_XLATE_PARK := 8
abbrev DX_HANG := 9
abbrev DX_LEDGER_LOST := 10
abbrev DX_RING_HALT := 11
abbrev MC_CHAN_FAULT := 0
abbrev MC_GROUP_LOST := 1
abbrev MC_REBUILD_DONE := 2
abbrev MC_PARITY_MISMATCH := 3
abbrev MC_REFRESH_LATE := 4
abbrev MC_FREQ_DONE := 5
abbrev DP_TRAIN_FAIL := 0
abbrev DP_PLL_UNLOCK := 1
abbrev PH_LINK_DOWN := 0
abbrev PH_LINK_UP := 1
abbrev PH_AER_CORR := 2
abbrev PH_AER_UNCORR := 3
abbrev PH_PLL_UNLOCK := 4
abbrev VE_SYNTAX_ERR := 0
abbrev VE_REF_MISSING := 1
abbrev VE_UNSUPPORTED := 2
abbrev VE_CTX_INVALID := 3
abbrev VE_POOL_FULL := 4
abbrev VE_PIXEL_HANG := 5
abbrev VE_STARVED := 8
abbrev VE_RC_STARVE_RUN := 9
abbrev VE_DST_FULL := 10
abbrev VE_SRC_FORMAT := 11
abbrev VE_EMIT_BACKLOG := 12
abbrev VE_RESYNC_FORCED := 13
abbrev VE_KEY_ABSORBED := 14
abbrev CP_LAYER_LATE := 0
abbrev CP_LAYER_STALE := 1
abbrev CP_SIG_MISMATCH := 2
abbrev CP_FRAME_LATE := 3
abbrev CP_OUT_BUSY := 4
abbrev CP_ACCESS_ERR := 5
abbrev CP_BLEND_HANG := 6
abbrev AM_DECODE_LATE := 0
abbrev AM_MIX_LATE := 1
abbrev AM_RAMP_EXHAUSTED := 2
abbrev AM_ZC_TIMEOUT := 3
abbrev AM_SATURATED := 4
abbrev AM_TAP_OVERRUN := 5
abbrev AM_TABLE_REFUSED := 6
abbrev AM_MIX_HANG := 7
abbrev DS_ACC_OVF := 0
abbrev DS_LANE_FAULT := 1
abbrev DS_RUN_LIMIT := 2
abbrev DS_DEADLINE_MISS := 3
abbrev DS_KERNEL_LOAD_ERR := 4
abbrev DS_LANE_HANG := 5
abbrev QM_REFUSED := 0
abbrev QM_POOL_EMPTY := 1
abbrev QM_TRUNCATED := 2
abbrev QM_MIN_REFUSED := 3
abbrev QM_FLUSH_DONE := 4
abbrev QM_CELL_ERR := 5
abbrev PX_SRTP_AUTH_FAIL := 0
abbrev PX_TABLE_REFUSED := 1
abbrev PX_REPL_TRUNC := 2
abbrev PX_SWITCH_TIMEOUT := 3
abbrev PX_LEG_LINK_LOST := 4
abbrev PX_NH_DOWN := 5
abbrev PX_SWAP_DONE := 6
abbrev PX_HANG := 7
abbrev TM_GATE_BASE_PAST := 0
abbrev TM_GATE_OVERSIZE := 1
abbrev TM_TABLE_REFUSED := 2
abbrev TM_SAMPLE_FROZEN := 3
abbrev TM_HANG := 4
abbrev EP_TX_UNDERRUN := 0
abbrev EP_LINK_DOWN := 1
abbrev EP_LINK_UP := 2
abbrev EP_FEC_UNCORR := 3
abbrev EP_LANE_FAULT := 4
abbrev EP_RX_OVERSIZE := 5
abbrev TU_JUMP_REFUSED := 0
abbrev TU_STEPPED := 1
abbrev TU_RATE_REFUSED := 2
abbrev TU_HOLDOVER_ENTER := 3
abbrev TU_HOLDOVER_EXPIRED := 4
abbrev TU_LOCKED := 5
abbrev TU_TXTS_OVERFLOW := 6
abbrev TU_PPS_IN_MISSING := 7
abbrev TU_TICK_SKIP := 8
abbrev TU_TABLE_REFUSED := 9
abbrev TU_REF_LOST := 10
abbrev RB_CHAIN_FAULT := 0
abbrev RB_HDR_FAIL := 1
abbrev RB_LDPC_FAIL := 2
abbrev RB_GFSK_CRC_FAIL := 3
abbrev RB_BURST_CUT := 4
abbrev RB_TABLE_REFUSED := 5
abbrev RB_MODEM_HANG := 6
abbrev CV_TX_UNDERRUN := 0
abbrev CV_RX_OVERRUN := 1
abbrev CV_CONV_FAULT := 2
abbrev CV_LO_UNLOCK := 3
abbrev CV_SAT_TX := 4
abbrev CV_CAL_FAIL := 5
abbrev CV_TABLE_REFUSED := 6
abbrev AC_CALLER_MISS := 0
abbrev AC_PARTNER_LOST := 1
abbrev AC_PARTNER_FOUND := 2
abbrev AC_PARTNER_DRIFT := 3
abbrev AC_SPAN_CLASH := 4
abbrev AC_LINK_LOST := 5
abbrev AC_LINK_FOUND := 6
abbrev AC_SENSOR_RETRY := 7
abbrev AC_SENSOR_LOST := 8
abbrev AC_SENSOR_FOUND := 9
abbrev AC_WINDOW_FULL := 10
abbrev AC_DWELL_HOLD := 11
abbrev AC_REORDER_SKIP := 12
abbrev AC_FLOOD_CACHE_FULL := 13
abbrev AC_QUAD_CUT := 14
abbrev AC_NO_PLAN := 15
abbrev AC_TABLE_REFUSED := 16
abbrev AC_MAC_HANG := 17
abbrev CE_NONCE_EXHAUSTED := 0
abbrev CE_TAG_FAIL := 1
abbrev CE_SCRUB_FAIL := 2
abbrev CE_UNWRAP_FAIL := 3
abbrev CE_CMP_MISMATCH := 4
abbrev CE_SELFTEST_FAIL := 5
abbrev CE_LOCK_CHANGE := 6
abbrev CE_HANG := 7
abbrev SK_BOOT_FAIL := 0
abbrev SK_BANK_FALLBACK := 1
abbrev SK_UPDATE_FAIL := 2
abbrev SK_UNLOCK_FAIL := 3
abbrev SK_DEBUG_OPEN := 4
abbrev SK_LOCK_REFUSED := 5
abbrev SK_RNG_FAIL := 6
abbrev SK_CMD_REFUSED := 7
end Evt

/-- EVT_SEV_LO and EVT_SEV_HI together at reset: the catalogue defaults, two bits per source (Table 2.9). -/
def sevReset (k : PageKind) (n : Nat) : Sev := (evDesc k n).sev

/-- RETRY_CFG at reset (Table 2.11, Table 20.1): (LIMIT, WINDOW_MS). -/
def retryReset : PageKind → Nat × Nat
  | .ps => (2, 1000)
  | .ce => (1, 60000)
  | .ep | .mg => (8, 10000)
  | .cv => (5, 1000)
  | _ => (3, 1000)

/-- Offset of the first table-window register (ADDR, DATA0–3, CMD follow at 4-byte steps), where there is one
(Table 23.4). -/
def windowBase : PageKind → Option Nat
  | .dx => some 0x240
  | .dp => some 0x140
  | .cc | .sk | .tu | .ve | .ds | .cp | .am | .qm | .px | .tm | .rb | .cv | .ac | .ce => some 0x1C0
  | _ => none

/-- Width in bits of the table-window address (R80 and the owning chapters). -/
def windowAddrBits : PageKind → Nat
  | .px | .tm => 24
  | .qm => 21
  | .cp | .am | .ac | .sk => 16
  | .ce => 14
  | _ => 12

/-- Manufacturing registers: first and last offset (Table 23.2, R529). -/
def mfgRange : PageKind → Option (Nat × Nat)
  | .cc => some (0x300, 0x338)
  | .hb => some (0x300, 0x33C)
  | .dx => some (0x300, 0x314)
  | .px => some (0x300, 0x334)
  | .tm => some (0x300, 0x340)
  | .ep => some (0x300, 0x318)
  | _ => none

/-- Units that hardware enables at PWRGOOD: TU, PS, SK, PH and HB (Table 2.5, Table 21.3). -/
def stageOf : PageKind → Nat
  | .tu | .ps | .sk | .ph | .hb => 1
  | .fb | .dp | .mc => 2
  | .cc => 3
  | .dx | .qm | .ce => 4
  | .px | .tm | .ve | .ds | .cp | .am => 5
  | .ep | .mg | .cv | .rb | .ac => 6
  | .dir => 0

end Sys2Proof.Machine
end

