-- ==== Sys2Proof/Machine/RegMap.lean ====
section
/-! DEFINITION. The block registers of every page as the register tables of the spec give them: offset, reset value,
fields with their access codes and the rule a write of an out-of-range value follows. Each list cites its tables.
A field whose range is narrower than its width and for which the spec states no rule carries `.free`: the stored value of
an out-of-range write is then a free value (assumption log 4). -/

namespace Sys2Proof.Machine

/-! Offsets within the page, one name per register. -/

namespace Reg
abbrev DIR_ID : Nat := 0x000
abbrev DIR_PAGES : Nat := 0x004
abbrev DIR_FW_VERSION : Nat := 0x008
abbrev DIR_UNITS0 : Nat := 0x00C
abbrev DIR_UNITS1 : Nat := 0x010
abbrev DIR_PERM_LO : Nat := 0x014
abbrev DIR_PERM_HI : Nat := 0x018
abbrev DIR_SITOUT_LO : Nat := 0x01C
abbrev DIR_SITOUT_HI : Nat := 0x020
abbrev DIR_FAULTED_LO : Nat := 0x024
abbrev DIR_FAULTED_HI : Nat := 0x028
abbrev DIR_RAW_LO : Nat := 0x02C
abbrev DIR_RAW_HI : Nat := 0x030
abbrev DIR_BOOT : Nat := 0x034
abbrev DIR_SCRATCH : Nat := 0x038
abbrev DIR_PINS : Nat := 0x03C
abbrev CC_BOOT_STAT : Nat := 0x100
abbrev CC_RESET_CAUSE : Nat := 0x104
abbrev CC_BOOT_COUNT : Nat := 0x108
abbrev CC_WDOG_COUNT : Nat := 0x10C
abbrev CC_RESET_CTRL : Nat := 0x110
abbrev CC_WDOG_CFG : Nat := 0x114
abbrev CC_WDOG_KICK : Nat := 0x118
abbrev CC_SITE_ID_LO : Nat := 0x11C
abbrev CC_SITE_ID_HI : Nat := 0x120
abbrev CC_GPIO_DIR : Nat := 0x124
abbrev CC_GPIO_DEFAULT : Nat := 0x128
abbrev CC_GPIO_IN : Nat := 0x12C
abbrev CC_GPIO_OUT : Nat := 0x130
abbrev CC_SMBUS_ADDR : Nat := 0x134
abbrev CC_TEMP_WARN : Nat := 0x138
abbrev CC_BUDGET_SHORT : Nat := 0x140
abbrev CC_BUDGET_LONG : Nat := 0x144
abbrev CC_BUDGET_FLOOR : Nat := 0x148
abbrev CC_BUDGET_SCALE : Nat := 0x14C
abbrev CC_LEDGER_CFG : Nat := 0x150
abbrev CC_COST_PIN_LO : Nat := 0x154
abbrev CC_COST_PIN_HI : Nat := 0x158
abbrev CC_PACE_MARGIN : Nat := 0x15C
abbrev CC_TJ_NOW : Nat := 0x160
abbrev CC_LEDGER_SHORT : Nat := 0x164
abbrev CC_LEDGER_LONG : Nat := 0x168
abbrev CC_RESERVED : Nat := 0x16C
abbrev CC_ADMIT_STAT : Nat := 0x170
abbrev CC_ENERGY_TOTAL_LO : Nat := 0x174
abbrev CC_ENERGY_TOTAL_HI : Nat := 0x178
abbrev CC_RUN_HOURS : Nat := 0x17C
abbrev CC_TJ_MAX : Nat := 0x180
abbrev CC_TJ_MIN : Nat := 0x184
abbrev CC_TRIP_COUNT : Nat := 0x188
abbrev CC_BATT_POLICY : Nat := 0x18C
abbrev CC_FW_CFG : Nat := 0x190
abbrev CC_CORE_RETIRE : Nat := 0x198
abbrev PS_STATUS : Nat := 0x100
abbrev PS_WORD_SEL : Nat := 0x104
abbrev PS_WORD_WEAR : Nat := 0x108
abbrev PS_WORD_INFO : Nat := 0x10C
abbrev PS_WORD_TOTAL : Nat := 0x110
abbrev PS_WORD_ADDR : Nat := 0x114
abbrev PS_REMAP_LAST : Nat := 0x118
abbrev PS_REMAP_COUNT : Nat := 0x11C
abbrev PS_WORN_COUNT : Nat := 0x120
abbrev PS_BANK_RETIRE : Nat := 0x124
abbrev PS_ENDURANCE : Nat := 0x128
abbrev PS_SKIP_COUNT : Nat := 0x12C
abbrev SK_STATUS : Nat := 0x100
abbrev SK_CMD : Nat := 0x104
abbrev SK_CMD_ADDR_LO : Nat := 0x108
abbrev SK_CMD_ADDR_HI : Nat := 0x10C
abbrev SK_BOOT_STAT : Nat := 0x110
abbrev SK_FW_VERSION : Nat := 0x114
abbrev SK_DEVICE_SERIAL_LO : Nat := 0x118
abbrev SK_DEVICE_SERIAL_HI : Nat := 0x11C
abbrev SK_ROLLBACK_FLOOR : Nat := 0x120
abbrev SK_LIFECYCLE : Nat := 0x124
abbrev SK_DEBUG_LOCK : Nat := 0x128
abbrev SK_UNLOCK_COUNT : Nat := 0x12C
abbrev SK_ATTEST_COUNT : Nat := 0x130
abbrev SK_BOOT_CFG : Nat := 0x134
abbrev SK_DEBUG_STAT : Nat := 0x138
abbrev SK_RNG_STAT : Nat := 0x13C
abbrev HB_WIN_BASE : Nat := 0x100
abbrev HB_SUBSYS_ID : Nat := 0x104
abbrev HB_ASPM_CFG : Nat := 0x108
abbrev HB_LINK_DOWN_COUNT : Nat := 0x10C
abbrev FB_DX_PART : Nat := 0x100
abbrev FB_VE_PART : Nat := 0x104
abbrev FB_CP_PART : Nat := 0x108
abbrev FB_SHARED_PART : Nat := 0x10C
abbrev FB_TAGS_USED : Nat := 0x110
abbrev FB_BISECT : Nat := 0x114
abbrev FB_HOLE_ADDR_LO : Nat := 0x118
abbrev FB_HOLE_ADDR_HI : Nat := 0x11C
abbrev TU_REF_SEL : Nat := 0x100
abbrev TU_JUMP_LIMIT : Nat := 0x104
abbrev TU_PPS_CFG : Nat := 0x108
abbrev TU_HOLDOVER_LIMIT : Nat := 0x10C
abbrev TU_CABLE_DELAY : Nat := 0x110
abbrev TU_PORT_ASYM0 : Nat := 0x114
abbrev TU_PORT_ASYM1 : Nat := 0x118
abbrev TU_PORT_ASYM2 : Nat := 0x11C
abbrev TU_PORT_ASYM3 : Nat := 0x120
abbrev TU_OSC_STAMP : Nat := 0x124
abbrev TU_INC_LO : Nat := 0x128
abbrev TU_INC_HI : Nat := 0x12C
abbrev TU_RAW_LO : Nat := 0x130
abbrev TU_RAW_HI : Nat := 0x134
abbrev TU_RAW_FRAC : Nat := 0x138
abbrev TU_TIME_LO : Nat := 0x13C
abbrev TU_TIME_HI : Nat := 0x140
abbrev TU_OFFSET_LO : Nat := 0x144
abbrev TU_OFFSET_HI : Nat := 0x148
abbrev TU_ANCHOR_LO : Nat := 0x14C
abbrev TU_ANCHOR_HI : Nat := 0x150
abbrev TU_RATE_LO : Nat := 0x154
abbrev TU_RATE_HI : Nat := 0x158
abbrev TU_ADJ_LO : Nat := 0x15C
abbrev TU_ADJ_HI : Nat := 0x160
abbrev TU_STEP_CTRL : Nat := 0x164
abbrev TU_SYNC_STAT : Nat := 0x168
abbrev TU_SERVO_OFFSET : Nat := 0x16C
abbrev TU_PPS_IN_STAMP : Nat := 0x170
abbrev TU_TXTS_SEL : Nat := 0x174
abbrev TU_TXTS_POP : Nat := 0x178
abbrev TU_TXTS_STAMP : Nat := 0x17C
abbrev DX_CFG : Nat := 0x100
abbrev DX_PARK_MODE : Nat := 0x104
abbrev DX_ARB_MODE : Nat := 0x108
abbrev DX_XC_STAT : Nat := 0x10C
abbrev DX_XC_HITS : Nat := 0x110
abbrev DX_XC_MISSES : Nat := 0x114
abbrev DX_INV_CTRL : Nat := 0x118
abbrev DX_INV_VA_LO : Nat := 0x11C
abbrev DX_INV_VA_HI : Nat := 0x120
abbrev DX_INV_PAGES : Nat := 0x124
abbrev DX_PARK_STAT : Nat := 0x128
abbrev DX_PR_POP : Nat := 0x12C
abbrev DX_PR_VA_LO : Nat := 0x130
abbrev DX_PR_VA_HI : Nat := 0x134
abbrev DX_PR_RESP : Nat := 0x138
abbrev DX_PARK_COUNT : Nat := 0x13C
abbrev DX_CUTIN_COUNT : Nat := 0x140
abbrev DX_BW : Nat := 0x144
abbrev DX_CHAN_ACTIVE : Nat := 0x148
abbrev DX_WALK_STAT : Nat := 0x14C
abbrev DX_REQ_LINE_EN : Nat := 0x150
abbrev DX_REQ_LINE_STAT : Nat := 0x154
abbrev DX_STAGE_STAT : Nat := 0x158
abbrev DX_LEDGER_A_LO : Nat := 0x200
abbrev DX_LEDGER_A_HI : Nat := 0x204
abbrev DX_LEDGER_B_LO : Nat := 0x208
abbrev DX_LEDGER_B_HI : Nat := 0x20C
abbrev DX_LEDGER_CFG : Nat := 0x210
abbrev DX_LEDGER_STAT : Nat := 0x214
abbrev DX_ENCORE_COUNT : Nat := 0x218
abbrev MC_GROUP_STAT : Nat := 0x100
abbrev MC_RETIRE_REC : Nat := 0x104
abbrev MC_NBR_K : Nat := 0x108
abbrev MC_SR_IDLE : Nat := 0x10C
abbrev MC_FREQ_BOOT : Nat := 0x110
abbrev MC_FREQ_CTRL : Nat := 0x114
abbrev MC_FREQ_STAT : Nat := 0x118
abbrev MC_CHAN_FAULT_COUNT : Nat := 0x11C
abbrev MC_CHAN_SEL : Nat := 0x120
abbrev MC_CH_STAT : Nat := 0x124
abbrev MC_CH_ECC_CNT : Nat := 0x128
abbrev MC_CH_TIMEOUTS : Nat := 0x12C
abbrev MC_CH_NBR_CNT : Nat := 0x130
abbrev MC_CH_SR_TIME : Nat := 0x134
abbrev MC_SCRUB_CFG : Nat := 0x138
abbrev MC_SCRUB_STAT : Nat := 0x13C
abbrev MC_REBUILD_STAT : Nat := 0x140
abbrev MC_REFRESH_CFG : Nat := 0x144
abbrev MC_RD_BW : Nat := 0x148
abbrev MC_WR_BW : Nat := 0x14C
abbrev MC_DEGRADED_RD : Nat := 0x150
abbrev MC_RMW_CNT : Nat := 0x154
abbrev MC_COMBINE_CFG : Nat := 0x158
abbrev MC_TIMEOUT_CFG : Nat := 0x15C
abbrev DP_TRAIN_CTRL : Nat := 0x100
abbrev DP_TRAIN_STAT : Nat := 0x104
abbrev DP_TRAIN_STAMP : Nat := 0x108
abbrev DP_RATE : Nat := 0x10C
abbrev DP_TRACK_CFG : Nat := 0x110
abbrev DP_TRACK_STAT : Nat := 0x114
abbrev DP_LINK_ECC : Nat := 0x118
abbrev DP_WCK_STAT : Nat := 0x11C
abbrev VE_COMMIT_TIME_LO : Nat := 0x100
abbrev VE_COMMIT_TIME_HI : Nat := 0x104
abbrev VE_COMMIT_STAT : Nat := 0x108
abbrev VE_DEC_CFG : Nat := 0x110
abbrev VE_DEC_STAT : Nat := 0x114
abbrev VE_DEC_PICS : Nat := 0x118
abbrev VE_DEC_CONCEAL : Nat := 0x11C
abbrev VE_REF_MISS : Nat := 0x120
abbrev VE_REF_MISS_POC : Nat := 0x124
abbrev VE_DEC_PIXRATE : Nat := 0x128
abbrev VE_ENC_CFG : Nat := 0x130
abbrev VE_ENC_RC_CFG : Nat := 0x134
abbrev VE_ENC_STAT : Nat := 0x138
abbrev VE_ENC_PICS : Nat := 0x13C
abbrev VE_ENC_STARVED : Nat := 0x140
abbrev VE_ENC_PIXRATE : Nat := 0x144
abbrev VE_ENC_REF_BW : Nat := 0x148
abbrev VE_ENC_SLICES : Nat := 0x14C
abbrev VE_RETIRE_REC : Nat := 0x1E0
abbrev DS_CFG : Nat := 0x100
abbrev DS_LMEM_CFG : Nat := 0x104
abbrev DS_LANE_BUSY : Nat := 0x108
abbrev DS_QUEUE : Nat := 0x10C
abbrev DS_FRAME_FREE : Nat := 0x110
abbrev DS_JOBS : Nat := 0x114
abbrev DS_LATE : Nat := 0x118
abbrev DS_OVF_COUNT : Nat := 0x11C
abbrev DS_FAULT_LAST : Nat := 0x120
abbrev DS_FAULT_PC : Nat := 0x124
abbrev DS_INSTR : Nat := 0x128
abbrev DS_BANK_STALL : Nat := 0x12C
abbrev DS_LOAD : Nat := 0x130
abbrev DS_KERNEL_CMD : Nat := 0x134
abbrev DS_RETIRE_REC : Nat := 0x1E0
abbrev CP_COMMIT_TIME_LO : Nat := 0x100
abbrev CP_COMMIT_TIME_HI : Nat := 0x104
abbrev CP_COMMIT_STAT : Nat := 0x108
abbrev CP_COMMIT_CFG : Nat := 0x10C
abbrev CP_CFG : Nat := 0x110
abbrev CP_REJECT : Nat := 0x114
abbrev CP_PLAN_RATE : Nat := 0x118
abbrev CP_PIX_OUT : Nat := 0x11C
abbrev CP_PIX_IN : Nat := 0x120
abbrev CP_STAT : Nat := 0x124
abbrev CP_OUTPUTS : Nat := 0x128
abbrev CP_FRAMES : Nat := 0x12C
abbrev CP_LATE_CNT : Nat := 0x130
abbrev CP_SKIP_CNT : Nat := 0x134
abbrev CP_SIG_CNT : Nat := 0x138
abbrev CP_STALE_POP : Nat := 0x13C
abbrev CP_SIG_POP : Nat := 0x140
abbrev CP_SIG_FOUND : Nat := 0x144
abbrev CP_HANG_CFG : Nat := 0x148
abbrev CP_LINEBUF_MAX : Nat := 0x14C
abbrev CP_FETCH_BW : Nat := 0x150
abbrev CP_WRITE_BW : Nat := 0x154
abbrev CP_RETIRE_REC : Nat := 0x1E0
abbrev AM_COMMIT_TIME_LO : Nat := 0x100
abbrev AM_COMMIT_TIME_HI : Nat := 0x104
abbrev AM_COMMIT_STAT : Nat := 0x108
abbrev AM_CFG : Nat := 0x10C
abbrev AM_DEADLINE : Nat := 0x110
abbrev AM_SIL_CFG : Nat := 0x114
abbrev AM_SEL_CFG : Nat := 0x118
abbrev AM_STAT : Nat := 0x11C
abbrev AM_LEGS : Nat := 0x120
abbrev AM_SILENT : Nat := 0x124
abbrev AM_RAMP_STAT : Nat := 0x128
abbrev AM_RAMP_PEAK : Nat := 0x12C
abbrev AM_ZC_COUNT : Nat := 0x130
abbrev AM_SAT_COUNT : Nat := 0x134
abbrev AM_SAT_LAST : Nat := 0x138
abbrev AM_LATE_DEC : Nat := 0x13C
abbrev AM_LATE_MIX : Nat := 0x140
abbrev AM_SKIPPED : Nat := 0x144
abbrev AM_XFADE_COUNT : Nat := 0x148
abbrev AM_SEL_CHANGES : Nat := 0x14C
abbrev AM_FRAMES : Nat := 0x150
abbrev AM_TAP0_CFG : Nat := 0x154
abbrev AM_TAP1_CFG : Nat := 0x158
abbrev AM_TAP2_CFG : Nat := 0x15C
abbrev AM_TAP3_CFG : Nat := 0x160
abbrev AM_TAP_STAT : Nat := 0x164
abbrev AM_HANG_CFG : Nat := 0x168
abbrev AM_LOAD : Nat := 0x16C
abbrev QM_CFG : Nat := 0x100
abbrev QM_ALPHA_DEFAULT : Nat := 0x104
abbrev QM_POOL_FREE : Nat := 0x108
abbrev QM_POOL_USED : Nat := 0x10C
abbrev QM_MIN_TOTAL : Nat := 0x110
abbrev QM_MIN_UNMET : Nat := 0x114
abbrev QM_PEAK_USED : Nat := 0x118
abbrev QM_FLUSH : Nat := 0x11C
abbrev QM_FLUSH_COUNT : Nat := 0x120
abbrev QM_ENQ_PKTS : Nat := 0x124
abbrev QM_DEQ_PKTS : Nat := 0x128
abbrev QM_REFUSED_PKTS : Nat := 0x12C
abbrev QM_REFUSED_CELLS : Nat := 0x130
abbrev QM_REFUSE_LAST : Nat := 0x134
abbrev QM_TRUNC_PKTS : Nat := 0x138
abbrev QM_ERR_PKTS : Nat := 0x13C
abbrev QM_NOTICE_STAT : Nat := 0x140
abbrev QM_QUEUES_ACTIVE : Nat := 0x144
abbrev QM_RESERVE_STAT : Nat := 0x148
abbrev QM_SHARED_CELLS : Nat := 0x14C
abbrev PX_CFG : Nat := 0x100
abbrev PX_ROUTER_ID : Nat := 0x104
abbrev PX_MGMT_VLAN : Nat := 0x108
abbrev PX_RT_CTRL : Nat := 0x10C
abbrev PX_RT_STAT : Nat := 0x110
abbrev PX_RT_CHANGES : Nat := 0x114
abbrev PX_VER_OLDEST : Nat := 0x118
abbrev PX_RT_EXC_QUEUE : Nat := 0x11C
abbrev PX_FWD_PKTS : Nat := 0x120
abbrev PX_NO_ROUTE : Nat := 0x124
abbrev PX_TTL_EXC : Nat := 0x128
abbrev PX_VLAN_DROPS : Nat := 0x12C
abbrev PX_POLICE_RED : Nat := 0x130
abbrev PX_PARSE_ERR : Nat := 0x134
abbrev PX_NH_DOWN : Nat := 0x138
abbrev PX_ASSURED_DROPS : Nat := 0x13C
abbrev PX_MPPS : Nat := 0x140
abbrev PX_LAT_MAX : Nat := 0x144
abbrev PX_MEDIA_CFG : Nat := 0x200
abbrev PX_ENERGY_CEIL : Nat := 0x204
abbrev PX_MEDIA_STAT : Nat := 0x208
abbrev PX_COPIES : Nat := 0x20C
abbrev PX_COPY_DROPS : Nat := 0x210
abbrev PX_SEQ_GAPS : Nat := 0x214
abbrev PX_SRTP_FAIL : Nat := 0x218
abbrev PX_CLASSIFY_MISS : Nat := 0x21C
abbrev PX_SWITCHES : Nat := 0x220
abbrev PX_KEYREQ : Nat := 0x224
abbrev PX_NODE_FREE : Nat := 0x228
abbrev PX_EXC_QUEUE : Nat := 0x22C
abbrev TM_COMMIT_TIME_LO : Nat := 0x100
abbrev TM_COMMIT_TIME_HI : Nat := 0x104
abbrev TM_COMMIT_STAT : Nat := 0x108
abbrev TM_CFG : Nat := 0x10C
abbrev TM_PORT_SEL : Nat := 0x110
abbrev TM_PORT_STAT : Nat := 0x114
abbrev TM_PORT_TX : Nat := 0x118
abbrev TM_PORT_BW : Nat := 0x11C
abbrev TM_GCL_START_LO : Nat := 0x120
abbrev TM_GCL_START_HI : Nat := 0x124
abbrev TM_GATE_WAITS : Nat := 0x128
abbrev TM_DOWN_DISCARDS : Nat := 0x12C
abbrev TM_BASE_PAST : Nat := 0x130
abbrev TM_MON_SEL : Nat := 0x134
abbrev TM_MON_STAT : Nat := 0x138
abbrev TM_MON_MAX : Nat := 0x13C
abbrev TM_HANG_CFG : Nat := 0x140
abbrev TM_GATE_OVERSIZE : Nat := 0x144
abbrev TM_REJECT : Nat := 0x148
abbrev EP_PORT_MODE : Nat := 0x100
abbrev EP_LANE_MAP : Nat := 0x104
abbrev EP_LANE_RETIRE : Nat := 0x108
abbrev EP_MAC_LO : Nat := 0x10C
abbrev EP_MAC_HI : Nat := 0x110
abbrev EP_LINK_STAT : Nat := 0x114
abbrev EP_SUB_SEL : Nat := 0x118
abbrev EP_RX_FRAMES : Nat := 0x11C
abbrev EP_TX_FRAMES : Nat := 0x120
abbrev EP_RX_ERR : Nat := 0x124
abbrev EP_RX_OVERRUN : Nat := 0x128
abbrev EP_TX_UNDERRUN : Nat := 0x12C
abbrev EP_FEC_CNT : Nat := 0x130
abbrev MG_MODE : Nat := 0x100
abbrev MG_MAC_LO : Nat := 0x104
abbrev MG_MAC_HI : Nat := 0x108
abbrev MG_STAT : Nat := 0x10C
abbrev RB_CHAIN_RETIRE : Nat := 0x100
abbrev RB_FEM_CFG : Nat := 0x104
abbrev RB_ANT_CFG : Nat := 0x108
abbrev RB_PA_RAMP_SEL : Nat := 0x10C
abbrev RB_STAT : Nat := 0x110
abbrev RB_CHAIN_STAT : Nat := 0x114
abbrev RB_MODEM_CFG : Nat := 0x118
abbrev RB_GFSK_SYNC : Nat := 0x11C
abbrev RB_GFSK_CFG : Nat := 0x120
abbrev RB_TX_BURSTS : Nat := 0x124
abbrev RB_RX_BURSTS : Nat := 0x128
abbrev RB_RX_HDR_FAIL : Nat := 0x12C
abbrev RB_LDPC_STAT : Nat := 0x130
abbrev RB_LDPC_ITER : Nat := 0x134
abbrev RB_SNR_LAST : Nat := 0x138
abbrev RB_CFO_LAST : Nat := 0x13C
abbrev RB_TIMING_LAST : Nat := 0x140
abbrev RB_AGC_LAST : Nat := 0x144
abbrev RB_GFSK_STAT : Nat := 0x148
abbrev RB_RETUNES : Nat := 0x14C
abbrev RB_CUT_BURSTS : Nat := 0x150
abbrev RB_LOAD : Nat := 0x154
abbrev RB_EVM_LAST : Nat := 0x158
abbrev RB_HANG_CFG : Nat := 0x15C
abbrev CV_RADIO_SEL : Nat := 0x100
abbrev CV_PATH_STAT : Nat := 0x104
abbrev CV_LO_STAT : Nat := 0x108
abbrev CV_CAL_CTRL : Nat := 0x10C
abbrev CV_CAL_STAT : Nat := 0x110
abbrev CV_UNDERRUN : Nat := 0x114
abbrev CV_OVERRUN : Nat := 0x118
abbrev CV_CLIP : Nat := 0x11C
abbrev CV_CAL_STAMP0 : Nat := 0x120
abbrev CV_CAL_STAMP1 : Nat := 0x124
abbrev CV_CAL_STAMP2 : Nat := 0x128
abbrev CV_FILT_ACTIVE : Nat := 0x12C
abbrev AC_COMMIT_TIME_LO : Nat := 0x100
abbrev AC_COMMIT_TIME_HI : Nat := 0x104
abbrev AC_COMMIT_STAT : Nat := 0x108
abbrev AC_COUNTRY : Nat := 0x10C
abbrev AC_PLAN_VER : Nat := 0x110
abbrev AC_RADIO_EN : Nat := 0x114
abbrev AC_CHAN_MASK_A : Nat := 0x118
abbrev AC_CHAN_MASK_B : Nat := 0x11C
abbrev AC_CHAN_MASK_C : Nat := 0x120
abbrev AC_TXP_LIMIT_A : Nat := 0x124
abbrev AC_TXP_LIMIT_B : Nat := 0x128
abbrev AC_TXP_LIMIT_C : Nat := 0x12C
abbrev AC_DWELL_LIMIT : Nat := 0x130
abbrev AC_NODE_ID_LO : Nat := 0x134
abbrev AC_NODE_ID_HI : Nat := 0x138
abbrev AC_MESH_CFG : Nat := 0x13C
abbrev AC_CALLER_CFG : Nat := 0x140
abbrev AC_CFG : Nat := 0x144
abbrev AC_QUAD_CFG : Nat := 0x148
abbrev AC_LAYOUT_A : Nat := 0x14C
abbrev AC_LAYOUT_B : Nat := 0x150
abbrev AC_LAYOUT_C : Nat := 0x154
abbrev AC_SPAN_A : Nat := 0x158
abbrev AC_SPAN_B : Nat := 0x15C
abbrev AC_SPAN_C : Nat := 0x160
abbrev AC_CHAN_A : Nat := 0x164
abbrev AC_CHAN_B : Nat := 0x168
abbrev AC_CHAN_C : Nat := 0x16C
abbrev AC_QUAD_NUM : Nat := 0x170
abbrev AC_STAT_A : Nat := 0x174
abbrev AC_STAT_B : Nat := 0x178
abbrev AC_STAT_C : Nat := 0x17C
abbrev AC_LINKS : Nat := 0x180
abbrev AC_SENSORS : Nat := 0x184
abbrev AC_PARTNERS : Nat := 0x188
abbrev AC_SLEEPY_CFG : Nat := 0x18C
abbrev AC_TIMING_CFG : Nat := 0x190
abbrev AC_REORDER_CFG : Nat := 0x194
abbrev AC_SCAN_CFG : Nat := 0x198
abbrev AC_FLOOD_STAT : Nat := 0x19C
abbrev AC_FLOOD_FWD : Nat := 0x1A0
abbrev AC_LOST_POP : Nat := 0x1A4
abbrev AC_DWELL_STAT : Nat := 0x1A8
abbrev AC_DWELL_HOLDS : Nat := 0x1AC
abbrev AC_CALLER_MISS : Nat := 0x1B0
abbrev AC_REORDER_SKIPS : Nat := 0x1B4
abbrev AC_REJECT : Nat := 0x1B8
abbrev AC_HANG_CFG : Nat := 0x1BC
abbrev CE_LOCK : Nat := 0x100
abbrev CE_CFG : Nat := 0x104
abbrev CE_STAT : Nat := 0x108
abbrev CE_RETIRE_REC : Nat := 0x10C
abbrev CE_RING_REQS : Nat := 0x110
abbrev CE_INLINE : Nat := 0x114
abbrev CE_BW : Nat := 0x118
abbrev CE_SUSPENDS : Nat := 0x11C
abbrev CE_TAG_FAILS : Nat := 0x120
abbrev CE_SCRUB_BYTES : Nat := 0x124
abbrev CE_NONCE_LAST : Nat := 0x128
abbrev CE_CMP_COUNT : Nat := 0x12C
abbrev CE_UNWRAP_STAT : Nat := 0x130
abbrev CE_SELFTEST : Nat := 0x134
abbrev CE_SLOTS : Nat := 0x138
abbrev CE_LOADNUM : Nat := 0x13C
abbrev CE_LOAD : Nat := 0x140
abbrev CE_KEY_CMD : Nat := 0x144
abbrev PH_LINK_CFG : Nat := 0x100
abbrev PH_LANE_CFG : Nat := 0x104
abbrev PH_LINK_STAT : Nat := 0x108
abbrev PH_EQ_STAT : Nat := 0x10C
abbrev PH_ERR_CNT : Nat := 0x110
abbrev PH_RECOVERY_CNT : Nat := 0x114
abbrev PH_LANE_SEL : Nat := 0x118
abbrev PH_LANE_ERR : Nat := 0x11C
end Reg

/-- Block registers of the DIR page (Table 23.1). -/
def dirRegs0 : List RegDesc := [
  ⟨0x000, 0x01B09640, [⟨15, 0, .ro, .any⟩, ⟨23, 16, .ro, .any⟩, ⟨31, 24, .ro, .any⟩], none⟩,
  ⟨0x004, 0x077C003D, [⟨7, 0, .ro, .any⟩, ⟨31, 16, .ro, .any⟩], none⟩,
  ⟨0x008, 0x00030002, [⟨31, 0, .ro, .any⟩], none⟩,
  ⟨0x00C, 0x00024810, [⟨4, 0, .ro, .any⟩, ⟨11, 8, .ro, .any⟩, ⟨14, 12, .ro, .any⟩, ⟨17, 16, .ro, .any⟩], none⟩,
  ⟨0x010, 0x0810C824, [⟨5, 0, .ro, .any⟩, ⟨11, 8, .ro, .any⟩, ⟨15, 12, .ro, .any⟩, ⟨20, 16, .ro, .any⟩, ⟨27, 24, .ro, .any⟩], none⟩,
  ⟨0x014, 0x00000000, [⟨31, 0, .ro, .any⟩], none⟩,
  ⟨0x018, 0x00000000, [⟨28, 0, .ro, .any⟩], none⟩,
  ⟨0x01C, 0x00000000, [⟨31, 0, .ro, .any⟩], none⟩,
  ⟨0x020, 0x00000000, [⟨28, 0, .ro, .any⟩], none⟩,
  ⟨0x024, 0x00000000, [⟨31, 0, .ro, .any⟩], none⟩,
  ⟨0x028, 0x00000000, [⟨28, 0, .ro, .any⟩], none⟩,
  ⟨0x02C, 0x00000000, [⟨31, 0, .ro, .any⟩], none⟩,
  ⟨0x030, 0x00000000, [⟨28, 0, .ro, .any⟩], none⟩,
  ⟨0x034, 0x00000000, [⟨2, 0, .ro, .any⟩, ⟨8, 8, .ro, .any⟩], none⟩,
  ⟨0x038, 0x00000000, [⟨31, 0, .rw, .any⟩], none⟩,
  ⟨0x03C, 0, [⟨0, 0, .ro, .any⟩, ⟨1, 1, .ro, .any⟩, ⟨2, 2, .ro, .any⟩, ⟨3, 3, .ro, .any⟩], none⟩]

/-- Block registers of the CC page (Table 21.6, Table 3.9, Table 20.7), part 1. -/
def ccRegs0 : List RegDesc := [
  ⟨0x100, 0x00000000, [⟨2, 0, .ro, .any⟩, ⟨8, 8, .ro, .any⟩, ⟨31, 16, .ro, .any⟩], none⟩,
  ⟨0x104, 0, [⟨3, 0, .rop, .any⟩], none⟩,
  ⟨0x108, 0, [⟨31, 0, .rop, .any⟩], none⟩,
  ⟨0x10C, 0, [⟨15, 0, .rop, .any⟩], none⟩,
  ⟨0x110, 0x00000000, [⟨0, 0, .w1s, .any⟩, ⟨31, 16, .wo, .any⟩], none⟩,
  ⟨0x114, 0x000107D0, [⟨15, 0, .rw, .clamp 10 65535⟩, ⟨16, 16, .rw, .any⟩, ⟨17, 17, .rw, .any⟩], none⟩,
  ⟨0x118, 0, [⟨15, 0, .wo, .any⟩], none⟩,
  ⟨0x11C, 0x00000000, [⟨31, 0, .rwp, .any⟩], none⟩,
  ⟨0x120, 0x00000000, [⟨31, 0, .rwp, .any⟩], none⟩,
  ⟨0x124, 0x00000000, [⟨15, 0, .rwp, .any⟩], none⟩,
  ⟨0x128, 0x00000000, [⟨15, 0, .rwp, .any⟩], none⟩,
  ⟨0x12C, 0, [⟨15, 0, .ro, .any⟩], none⟩,
  ⟨0x130, 0, [⟨15, 0, .rw, .any⟩], none⟩,
  ⟨0x134, 0x00000062, [⟨6, 0, .rwp, .any⟩], none⟩,
  ⟨0x138, 0x00000064, [⟨7, 0, .rwp, .any⟩], none⟩,
  ⟨0x140, 0x0015D1F0, [⟨31, 0, .rwp, .any⟩], none⟩,
  ⟨0x144, 0x07BFA480, [⟨31, 0, .rwp, .any⟩], none⟩,
  ⟨0x148, 0x00895440, [⟨31, 0, .rwp, .any⟩], none⟩,
  ⟨0x14C, 0x00000064, [⟨7, 0, .rw, .keep 1 100⟩, ⟨8, 8, .ro, .any⟩], none⟩,
  ⟨0x150, 0x000A8A04, [⟨3, 0, .rwp, .clamp 1 8⟩, ⟨8, 4, .rwp, .any⟩, ⟨13, 9, .rwp, .any⟩, ⟨18, 14, .rwp, .any⟩, ⟨19, 19, .rwp, .any⟩], none⟩,
  ⟨0x154, 0x00000000, [⟨31, 0, .rwp, .any⟩], none⟩,
  ⟨0x158, 0x00000000, [⟨31, 0, .rwp, .any⟩], none⟩,
  ⟨0x15C, 0x0000000A, [⟨5, 0, .rwp, .any⟩], none⟩,
  ⟨0x160, 0, [⟨7, 0, .ro, .any⟩, ⟨15, 8, .ro, .any⟩, ⟨20, 16, .ro, .any⟩], none⟩]

/-- Block registers of the CC page (Table 21.6, Table 3.9, Table 20.7), part 2. -/
def ccRegs1 : List RegDesc := [
  ⟨0x164, 0x00000000, [⟨31, 0, .ro, .any⟩], none⟩,
  ⟨0x168, 0x00000000, [⟨31, 0, .ro, .any⟩], none⟩,
  ⟨0x16C, 0x00000000, [⟨31, 0, .ro, .any⟩], none⟩,
  ⟨0x170, 0x00000000, [⟨15, 0, .rc, .any⟩, ⟨31, 16, .rc, .any⟩], none⟩,
  ⟨0x174, 0, [⟨31, 0, .rop, .any⟩], none⟩,
  ⟨0x178, 0, [⟨31, 0, .rop, .any⟩], none⟩,
  ⟨0x17C, 0, [⟨31, 0, .rop, .any⟩], none⟩,
  ⟨0x180, 0, [⟨7, 0, .rop, .any⟩], none⟩,
  ⟨0x184, 0, [⟨7, 0, .rop, .any⟩], none⟩,
  ⟨0x188, 0, [⟨15, 0, .rop, .any⟩], none⟩,
  ⟨0x18C, 0x00003C00, [⟨3, 0, .rwp, .any⟩, ⟨4, 4, .rwp, .any⟩, ⟨5, 5, .rwp, .any⟩, ⟨15, 8, .rwp, .keep 1 100⟩], none⟩,
  ⟨0x190, 0x00000007, [⟨0, 0, .rwp, .any⟩, ⟨1, 1, .rwp, .any⟩, ⟨2, 2, .rwp, .any⟩], none⟩,
  ⟨0x198, 0x0000FF00, [⟨7, 0, .rw, .any⟩, ⟨15, 8, .ro, .any⟩, ⟨16, 16, .ro, .any⟩], none⟩]

/-- Block registers of the PS page (Table 2.15). -/
def psRegs0 : List RegDesc := [
  ⟨0x100, 0x01000000, [⟨0, 0, .ro, .any⟩, ⟨1, 1, .ro, .any⟩, ⟨4, 2, .ro, .any⟩, ⟨8, 8, .ro, .any⟩, ⟨24, 16, .ro, .any⟩], none⟩,
  ⟨0x104, 0x00000000, [⟨7, 0, .rw, .free 0 159⟩], none⟩,
  ⟨0x108, 0, [⟨24, 0, .ro, .any⟩], none⟩,
  ⟨0x10C, 0, [⟨8, 0, .ro, .any⟩, ⟨23, 16, .ro, .any⟩, ⟨24, 24, .ro, .any⟩], none⟩,
  ⟨0x110, 0, [⟨31, 0, .ro, .any⟩], none⟩,
  ⟨0x114, 0, [⟨23, 0, .ro, .any⟩], none⟩,
  ⟨0x118, 0x00000000, [⟨7, 0, .rc, .any⟩, ⟨8, 8, .rc, .any⟩, ⟨17, 9, .rc, .any⟩], none⟩,
  ⟨0x11C, 0, [⟨15, 0, .rop, .any⟩], none⟩,
  ⟨0x120, 0, [⟨8, 0, .rop, .any⟩], none⟩,
  ⟨0x124, 0, [⟨7, 0, .rwp, .any⟩], none⟩,
  ⟨0x128, 0x01312D00, [⟨31, 0, .ro, .any⟩], none⟩,
  ⟨0x12C, 0x00000000, [⟨31, 0, .ro, .any⟩], none⟩]

/-- Block registers of the SK page (Table 19.8). -/
def skRegs0 : List RegDesc := [
  ⟨0x100, 0, [⟨1, 0, .ro, .any⟩, ⟨4, 4, .ro, .any⟩, ⟨5, 5, .ro, .any⟩, ⟨6, 6, .ro, .any⟩, ⟨31, 16, .ro, .any⟩], none⟩,
  ⟨0x104, 0x00000000, [⟨3, 0, .rw, .any⟩, ⟨4, 4, .w1s, .any⟩, ⟨11, 8, .ro, .any⟩, ⟨31, 31, .ro, .any⟩], none⟩,
  ⟨0x108, 0x00000000, [⟨31, 0, .rw, .any⟩], none⟩,
  ⟨0x10C, 0x00000000, [⟨15, 0, .rw, .any⟩], none⟩,
  ⟨0x110, 0x00000000, [⟨3, 0, .ro, .any⟩, ⟨7, 4, .ro, .any⟩, ⟨8, 8, .ro, .any⟩, ⟨31, 16, .ro, .any⟩], none⟩,
  ⟨0x114, 0x00030002, [⟨31, 0, .ro, .any⟩], none⟩,
  ⟨0x118, 0x00000001, [⟨31, 0, .rop, .any⟩], none⟩,
  ⟨0x11C, 0, [⟨31, 0, .rop, .any⟩], none⟩,
  ⟨0x120, 0, [⟨15, 0, .rop, .any⟩], none⟩,
  ⟨0x124, 0x00000001, [⟨1, 0, .rop, .any⟩, ⟨7, 4, .rop, .any⟩, ⟨8, 8, .rop, .any⟩], none⟩,
  ⟨0x128, 0x00000000, [⟨1, 0, .rwp, .any⟩], none⟩,
  ⟨0x12C, 0, [⟨15, 0, .rop, .any⟩], none⟩,
  ⟨0x130, 0, [⟨31, 0, .rop, .any⟩], none⟩,
  ⟨0x134, 0x0000000E, [⟨0, 0, .rwp, .any⟩, ⟨1, 1, .rwp, .any⟩, ⟨3, 2, .rwp, .any⟩], none⟩,
  ⟨0x138, 0x00000000, [⟨0, 0, .ro, .any⟩, ⟨2, 1, .ro, .any⟩, ⟨3, 3, .ro, .any⟩, ⟨11, 8, .ro, .any⟩, ⟨31, 16, .ro, .any⟩], none⟩,
  ⟨0x13C, 0, [⟨0, 0, .ro, .any⟩, ⟨15, 8, .ro, .any⟩], none⟩]

/-- Block registers of the HB page (Table 2.2, Table 22.9). -/
def hbRegs0 : List RegDesc := [
  ⟨0x100, 0x00000000, [⟨6, 0, .rw, .keep 0 120⟩], none⟩,
  ⟨0x104, 0x00000000, [⟨15, 0, .rwp, .any⟩, ⟨31, 16, .rwp, .any⟩], none⟩,
  ⟨0x108, 0x00000041, [⟨0, 0, .rwp, .any⟩, ⟨6, 4, .rwp, .any⟩], none⟩,
  ⟨0x10C, 0, [⟨15, 0, .rop, .any⟩], none⟩]

/-- Block registers of the FB page (Table 23.3). -/
def fbRegs0 : List RegDesc := [
  ⟨0x100, 0x00001000, [⟨14, 0, .rw, .any⟩], none⟩,
  ⟨0x104, 0x00000200, [⟨9, 0, .rw, .any⟩], none⟩,
  ⟨0x108, 0x00000200, [⟨10, 0, .rw, .any⟩], none⟩,
  ⟨0x10C, 0x00000800, [⟨14, 0, .rw, .any⟩], none⟩,
  ⟨0x110, 0x00000000, [⟨14, 0, .ro, .any⟩, ⟨30, 16, .rc, .any⟩], none⟩,
  ⟨0x114, 0x00000000, [⟨7, 0, .ro, .any⟩], none⟩,
  ⟨0x118, 0x00000000, [⟨31, 0, .rc, .any⟩], none⟩,
  ⟨0x11C, 0x00000000, [⟨15, 0, .ro, .any⟩, ⟨24, 16, .ro, .any⟩], none⟩]

/-- Block registers of the TU page (Table 15.7), part 1. -/
def tuRegs0 : List RegDesc := [
  ⟨0x100, 0x00000000, [⟨2, 0, .rwp, .free 0 4⟩, ⟨5, 4, .rwp, .any⟩, ⟨10, 6, .rwp, .free 0 16⟩, ⟨11, 11, .rwp, .any⟩, ⟨31, 16, .rwp, .any⟩], none⟩,
  ⟨0x104, 0x000003E8, [⟨23, 0, .rwp, .clamp 1 16777215⟩, ⟨31, 24, .rwp, .any⟩], none⟩,
  ⟨0x108, 0x00006403, [⟨0, 0, .rwp, .any⟩, ⟨1, 1, .rwp, .any⟩, ⟨2, 2, .rwp, .any⟩, ⟨3, 3, .rwp, .any⟩, ⟨15, 8, .rwp, .clamp 1 255⟩], none⟩,
  ⟨0x10C, 0x000001E0, [⟨15, 0, .rwp, .free 1 65535⟩], none⟩,
  ⟨0x110, 0x00000000, [⟨19, 0, .rwp, .free 0 1000000⟩], none⟩,
  ⟨0x114, 0x00000000, [⟨31, 0, .rwp, .any⟩], none⟩,
  ⟨0x118, 0x00000000, [⟨31, 0, .rwp, .any⟩], none⟩,
  ⟨0x11C, 0x00000000, [⟨31, 0, .rwp, .any⟩], none⟩,
  ⟨0x120, 0x00000000, [⟨31, 0, .rwp, .any⟩], none⟩,
  ⟨0x124, 0, [⟨15, 0, .rop, .any⟩, ⟨23, 16, .rop, .any⟩, ⟨31, 24, .rop, .any⟩], none⟩,
  ⟨0x128, 0x00000000, [⟨31, 0, .rw, .any⟩], none⟩,
  ⟨0x12C, 0x00000032, [⟨7, 0, .rw, .any⟩], none⟩,
  ⟨0x130, 0x00000000, [⟨31, 0, .ro, .any⟩], none⟩,
  ⟨0x134, 0x00000000, [⟨31, 0, .ro, .any⟩], none⟩,
  ⟨0x138, 0x00000000, [⟨31, 0, .ro, .any⟩], none⟩,
  ⟨0x13C, 0x00000000, [⟨31, 0, .ro, .any⟩], none⟩,
  ⟨0x140, 0x00000000, [⟨31, 0, .ro, .any⟩], none⟩,
  ⟨0x144, 0x00000000, [⟨31, 0, .ro, .any⟩], none⟩,
  ⟨0x148, 0x00000000, [⟨31, 0, .ro, .any⟩], none⟩,
  ⟨0x14C, 0x00000000, [⟨31, 0, .ro, .any⟩], none⟩,
  ⟨0x150, 0x00000000, [⟨31, 0, .ro, .any⟩], none⟩,
  ⟨0x154, 0x00000000, [⟨31, 0, .rw, .any⟩], none⟩,
  ⟨0x158, 0x00000000, [⟨7, 0, .rw, .any⟩], none⟩,
  ⟨0x15C, 0x00000000, [⟨31, 0, .rw, .any⟩], none⟩]

/-- Block registers of the TU page (Table 15.7), part 2. -/
def tuRegs1 : List RegDesc := [
  ⟨0x160, 0x00000000, [⟨31, 0, .rw, .any⟩], none⟩,
  ⟨0x164, 0x00003204, [⟨0, 0, .w1s, .any⟩, ⟨1, 1, .w1s, .any⟩, ⟨2, 2, .ro, .any⟩, ⟨3, 3, .ro, .any⟩, ⟨5, 4, .ro, .any⟩, ⟨14, 8, .rw, .keep 1 100⟩, ⟨31, 16, .ro, .any⟩], none⟩,
  ⟨0x168, 0x00000000, [⟨1, 0, .ro, .any⟩, ⟨15, 8, .ro, .any⟩, ⟨31, 16, .ro, .any⟩], none⟩,
  ⟨0x16C, 0x00000000, [⟨31, 0, .ro, .any⟩], none⟩,
  ⟨0x170, 0x00000000, [⟨31, 0, .ro, .any⟩], none⟩,
  ⟨0x174, 0x00000000, [⟨2, 0, .rw, .free 0 4⟩, ⟨22, 16, .ro, .any⟩], none⟩,
  ⟨0x178, 0x00000000, [⟨15, 0, .rc, .any⟩, ⟨17, 16, .rc, .any⟩, ⟨18, 18, .rc, .any⟩, ⟨27, 20, .rc, .any⟩, ⟨30, 30, .rc, .any⟩, ⟨31, 31, .rc, .any⟩], none⟩,
  ⟨0x17C, 0x00000000, [⟨31, 0, .ro, .any⟩], none⟩]

/-- Block registers of the DX page (Table 6.10, Table 4.8), part 1. -/
def dxRegs0 : List RegDesc := [
  ⟨0x100, 0x00000001, [⟨0, 0, .rw, .any⟩, ⟨1, 1, .ro, .any⟩, ⟨2, 2, .ro, .any⟩], none⟩,
  ⟨0x104, 0x00033E80, [⟨0, 0, .rwp, .any⟩, ⟨15, 4, .rwp, .clamp 1 4095⟩, ⟨19, 16, .rwp, .clamp 1 15⟩], none⟩,
  ⟨0x108, 0x00000000, [⟨15, 0, .rw, .any⟩], none⟩,
  ⟨0x10C, 0x00000000, [⟨13, 0, .ro, .any⟩], none⟩,
  ⟨0x110, 0x00000000, [⟨31, 0, .ro, .any⟩], none⟩,
  ⟨0x114, 0x00000000, [⟨31, 0, .ro, .any⟩], none⟩,
  ⟨0x118, 0x00000000, [⟨5, 0, .rw, .any⟩, ⟨9, 8, .rw, .any⟩, ⟨16, 16, .w1s, .any⟩, ⟨31, 31, .ro, .any⟩], none⟩,
  ⟨0x11C, 0x00000000, [⟨31, 12, .rw, .any⟩], none⟩,
  ⟨0x120, 0x00000000, [⟨15, 0, .rw, .any⟩], none⟩,
  ⟨0x124, 0x00000000, [⟨31, 0, .rw, .any⟩], none⟩,
  ⟨0x128, 0x00000000, [⟨9, 0, .ro, .any⟩, ⟨25, 16, .ro, .any⟩], none⟩,
  ⟨0x12C, 0x00000000, [⟨8, 0, .rc, .any⟩, ⟨14, 9, .rc, .any⟩, ⟨29, 29, .rc, .any⟩, ⟨30, 30, .rc, .any⟩, ⟨31, 31, .rc, .any⟩], none⟩,
  ⟨0x130, 0x00000000, [⟨31, 12, .ro, .any⟩], none⟩,
  ⟨0x134, 0x00000000, [⟨15, 0, .ro, .any⟩], none⟩,
  ⟨0x138, 0, [⟨8, 0, .wo, .any⟩, ⟨16, 16, .wo, .any⟩], none⟩,
  ⟨0x13C, 0x00000000, [⟨15, 0, .ro, .any⟩, ⟨31, 16, .ro, .any⟩], none⟩,
  ⟨0x140, 0x00000000, [⟨31, 0, .ro, .any⟩], none⟩,
  ⟨0x144, 0x00000000, [⟨31, 0, .ro, .any⟩], none⟩,
  ⟨0x148, 0x00000000, [⟨7, 0, .ro, .any⟩, ⟨8, 8, .ro, .any⟩, ⟨15, 12, .ro, .any⟩], none⟩,
  ⟨0x14C, 0x00000000, [⟨15, 0, .ro, .any⟩, ⟨31, 16, .ro, .any⟩], none⟩,
  ⟨0x150, 0x00000000, [⟨31, 0, .rw, .any⟩], none⟩,
  ⟨0x154, 0x00000000, [⟨31, 0, .ro, .any⟩], none⟩,
  ⟨0x158, 0x00000000, [⟨8, 0, .ro, .any⟩, ⟨31, 16, .ro, .any⟩], none⟩,
  ⟨0x200, 0x00000000, [⟨31, 12, .rw, .any⟩], none⟩]

/-- Block registers of the DX page (Table 6.10, Table 4.8), part 2. -/
def dxRegs1 : List RegDesc := [
  ⟨0x204, 0x00000000, [⟨4, 0, .rw, .any⟩], none⟩,
  ⟨0x208, 0x00000000, [⟨31, 12, .rw, .any⟩], none⟩,
  ⟨0x20C, 0x00000000, [⟨4, 0, .rw, .any⟩], none⟩,
  ⟨0x210, 0x00000000, [⟨0, 0, .rw, .any⟩, ⟨10, 1, .rw, .any⟩], none⟩,
  ⟨0x214, 0x00000000, [⟨0, 0, .ro, .any⟩, ⟨1, 1, .ro, .any⟩, ⟨2, 2, .ro, .any⟩, ⟨15, 8, .ro, .any⟩], none⟩,
  ⟨0x218, 0x00000000, [⟨15, 0, .ro, .any⟩, ⟨31, 16, .ro, .any⟩], none⟩]

/-- Block registers of the MC pages (Table 5.5). -/
def mcRegs0 : List RegDesc := [
  ⟨0x100, 0, [⟨0, 0, .ro, .any⟩, ⟨4, 1, .ro, .any⟩, ⟨5, 5, .ro, .any⟩, ⟨6, 6, .ro, .any⟩, ⟨9, 8, .ro, .any⟩, ⟨10, 10, .ro, .any⟩, ⟨11, 11, .ro, .any⟩, ⟨20, 12, .ro, .any⟩], none⟩,
  ⟨0x104, 0x00000000, [⟨8, 0, .rwp, .any⟩], none⟩,
  ⟨0x108, 0x0000010B, [⟨4, 0, .rwp, .keep 6 16⟩, ⟨8, 8, .rwp, .any⟩], none⟩,
  ⟨0x10C, 0x00010028, [⟨11, 0, .rwp, .any⟩, ⟨16, 16, .rwp, .any⟩], none⟩,
  ⟨0x110, 0x00000000, [⟨1, 0, .rwp, .keep 0 2⟩], none⟩,
  ⟨0x114, 0x00000100, [⟨1, 0, .rw, .keep 0 2⟩, ⟨4, 4, .w1s, .any⟩, ⟨8, 8, .rw, .any⟩, ⟨16, 16, .ro, .any⟩], none⟩,
  ⟨0x118, 0x00000000, [⟨15, 0, .ro, .any⟩, ⟨31, 16, .ro, .any⟩], none⟩,
  ⟨0x11C, 0, [⟨15, 0, .rop, .any⟩], none⟩,
  ⟨0x120, 0x00000000, [⟨3, 0, .rw, .free 0 8⟩], none⟩,
  ⟨0x124, 0, [⟨2, 0, .ro, .any⟩, ⟨10, 8, .ro, .any⟩, ⟨23, 16, .ro, .any⟩], some ⟨0x120, 3, 0⟩⟩,
  ⟨0x128, 0x00000000, [⟨15, 0, .rc, .any⟩, ⟨31, 16, .rc, .any⟩], some ⟨0x120, 3, 0⟩⟩,
  ⟨0x12C, 0x00000000, [⟨15, 0, .rc, .any⟩], some ⟨0x120, 3, 0⟩⟩,
  ⟨0x130, 0x00000000, [⟨31, 0, .ro, .any⟩], some ⟨0x120, 3, 0⟩⟩,
  ⟨0x134, 0x00000000, [⟨31, 0, .ro, .any⟩], some ⟨0x120, 3, 0⟩⟩,
  ⟨0x138, 0x00010018, [⟨15, 0, .rw, .free 1 65535⟩, ⟨16, 16, .rw, .any⟩], none⟩,
  ⟨0x13C, 0x00000000, [⟨15, 0, .ro, .any⟩, ⟨31, 16, .ro, .any⟩], none⟩,
  ⟨0x140, 0x00000000, [⟨15, 0, .ro, .any⟩, ⟨16, 16, .ro, .any⟩], none⟩,
  ⟨0x144, 0x00000009, [⟨0, 0, .rw, .any⟩, ⟨4, 1, .rw, .free 0 8⟩], none⟩,
  ⟨0x148, 0x00000000, [⟨31, 0, .ro, .any⟩], none⟩,
  ⟨0x14C, 0x00000000, [⟨31, 0, .ro, .any⟩], none⟩,
  ⟨0x150, 0x00000000, [⟨31, 0, .ro, .any⟩], none⟩,
  ⟨0x154, 0x00000000, [⟨31, 0, .ro, .any⟩], none⟩,
  ⟨0x158, 0x000001F4, [⟨9, 0, .rw, .any⟩], none⟩,
  ⟨0x15C, 0x000000C8, [⟨11, 0, .rw, .clamp 50 4095⟩], none⟩]

/-- Block registers of the DP pages (Table 5.6). -/
def dpRegs0 : List RegDesc := [
  ⟨0x100, 0x00000000, [⟨0, 0, .w1s, .any⟩, ⟨1, 1, .rw, .any⟩, ⟨12, 4, .rw, .any⟩, ⟨17, 16, .rw, .any⟩], none⟩,
  ⟨0x104, 0x00000000, [⟨8, 0, .ro, .any⟩, ⟨31, 31, .ro, .any⟩], none⟩,
  ⟨0x108, 0, [⟨7, 0, .rop, .any⟩, ⟨10, 8, .rop, .any⟩, ⟨31, 16, .rop, .any⟩], none⟩,
  ⟨0x10C, 0, [⟨15, 0, .ro, .any⟩], none⟩,
  ⟨0x110, 0x00000004, [⟨7, 0, .rw, .free 1 255⟩], none⟩,
  ⟨0x114, 0x00000000, [⟨15, 0, .ro, .any⟩, ⟨31, 16, .ro, .any⟩], none⟩,
  ⟨0x118, 0x00000003, [⟨0, 0, .rw, .any⟩, ⟨1, 1, .rw, .any⟩], none⟩,
  ⟨0x11C, 0, [⟨8, 0, .ro, .any⟩], none⟩]

/-- Block registers of the VE pages (R36, Table 2.13, Table 8.7, Table 9.7, Table 20.7). -/
def veRegs0 : List RegDesc := [
  ⟨0x100, 0x00000000, [⟨31, 0, .rw, .any⟩], none⟩,
  ⟨0x104, 0x00000000, [⟨31, 0, .rw, .any⟩], none⟩,
  ⟨0x108, 0x00000000, [⟨3, 0, .rc, .any⟩, ⟨15, 8, .rc, .any⟩, ⟨31, 16, .ro, .any⟩], none⟩,
  ⟨0x110, 0x00006402, [⟨1, 0, .rw, .keep 0 2⟩, ⟨4, 4, .rw, .any⟩, ⟨15, 8, .rw, .clamp 10 255⟩], none⟩,
  ⟨0x114, 0x00000000, [⟨8, 0, .ro, .any⟩, ⟨9, 9, .ro, .any⟩, ⟨11, 10, .ro, .any⟩, ⟨12, 12, .ro, .any⟩, ⟨26, 16, .ro, .any⟩], none⟩,
  ⟨0x118, 0x00000000, [⟨31, 0, .ro, .any⟩], none⟩,
  ⟨0x11C, 0x00000000, [⟨15, 0, .ro, .any⟩, ⟨31, 16, .ro, .any⟩], none⟩,
  ⟨0x120, 0x00000000, [⟨8, 0, .rc, .any⟩, ⟨30, 30, .rc, .any⟩, ⟨31, 31, .rc, .any⟩], none⟩,
  ⟨0x124, 0x00000000, [⟨31, 0, .ro, .any⟩], none⟩,
  ⟨0x128, 0x00000000, [⟨15, 0, .ro, .any⟩], none⟩,
  ⟨0x130, 0x00000006, [⟨1, 0, .rws, .keep 0 2⟩, ⟨2, 2, .rws, .any⟩], none⟩,
  ⟨0x134, 0x00031996, [⟨7, 0, .rws, .clamp 100 255⟩, ⟨14, 8, .rws, .keep 10 100⟩, ⟨18, 16, .rws, .keep 1 6⟩], none⟩,
  ⟨0x138, 0x00000000, [⟨8, 0, .ro, .any⟩, ⟨9, 9, .ro, .any⟩, ⟨10, 10, .ro, .any⟩, ⟨21, 16, .ro, .any⟩, ⟨29, 24, .ro, .any⟩], none⟩,
  ⟨0x13C, 0x00000000, [⟨31, 0, .ro, .any⟩], none⟩,
  ⟨0x140, 0x00000000, [⟨15, 0, .ro, .any⟩, ⟨31, 16, .ro, .any⟩], none⟩,
  ⟨0x144, 0x00000000, [⟨15, 0, .ro, .any⟩], none⟩,
  ⟨0x148, 0x00000000, [⟨31, 0, .ro, .any⟩], none⟩,
  ⟨0x14C, 0x00000000, [⟨31, 0, .ro, .any⟩], none⟩,
  ⟨0x1E0, 0x00000000, [⟨0, 0, .rwp, .any⟩], none⟩]

/-- Block registers of the DS pages (Table 12.8, Table 20.7). -/
def dsRegs0 : List RegDesc := [
  ⟨0x100, 0x00006408, [⟨5, 0, .rw, .free 0 32⟩, ⟨15, 8, .rw, .clamp 10 255⟩], none⟩,
  ⟨0x104, 0x00000040, [⟨8, 0, .rw, .freeOf [16, 32, 48, 64, 80, 96, 112, 128, 144, 160, 176, 192, 208, 224]⟩], none⟩,
  ⟨0x108, 0x00000000, [⟨31, 0, .ro, .any⟩], none⟩,
  ⟨0x10C, 0x00000000, [⟨11, 0, .ro, .any⟩, ⟨27, 16, .ro, .any⟩], none⟩,
  ⟨0x110, 0, [⟨8, 0, .ro, .any⟩, ⟨24, 16, .ro, .any⟩], none⟩,
  ⟨0x114, 0x00000000, [⟨31, 0, .ro, .any⟩], none⟩,
  ⟨0x118, 0x00000000, [⟨15, 0, .ro, .any⟩], none⟩,
  ⟨0x11C, 0x00000000, [⟨15, 0, .ro, .any⟩, ⟨31, 16, .ro, .any⟩], none⟩,
  ⟨0x120, 0x00000000, [⟨5, 0, .rc, .any⟩, ⟨10, 6, .rc, .any⟩, ⟨14, 11, .rc, .any⟩, ⟨15, 15, .rc, .any⟩, ⟨31, 31, .rc, .any⟩], none⟩,
  ⟨0x124, 0x00000000, [⟨15, 0, .ro, .any⟩], none⟩,
  ⟨0x128, 0x00000000, [⟨31, 0, .ro, .any⟩], none⟩,
  ⟨0x12C, 0x00000000, [⟨31, 0, .ro, .any⟩], none⟩,
  ⟨0x130, 0x00000000, [⟨7, 0, .ro, .any⟩], none⟩,
  ⟨0x134, 0x00000000, [⟨5, 0, .rw, .any⟩, ⟨9, 8, .rw, .any⟩, ⟨16, 16, .w1s, .any⟩, ⟨27, 24, .ro, .any⟩, ⟨31, 31, .ro, .any⟩], none⟩,
  ⟨0x1E0, 0x00000000, [⟨0, 0, .rwp, .any⟩], none⟩]

/-- Block registers of the CP pages (R36, Table 2.13, Table 10.6, Table 20.7). -/
def cpRegs0 : List RegDesc := [
  ⟨0x100, 0x00000000, [⟨31, 0, .rw, .any⟩], none⟩,
  ⟨0x104, 0x00000000, [⟨31, 0, .rw, .any⟩], none⟩,
  ⟨0x108, 0x00000000, [⟨3, 0, .rc, .any⟩, ⟨15, 8, .rc, .any⟩, ⟨31, 16, .ro, .any⟩], none⟩,
  ⟨0x10C, 0x00000000, [⟨6, 0, .rw, .any⟩], none⟩,
  ⟨0x110, 0x00000003, [⟨3, 0, .rws, .clamp 1 15⟩], none⟩,
  ⟨0x114, 0x00000000, [⟨3, 0, .rc, .any⟩, ⟨10, 4, .rc, .any⟩, ⟨15, 11, .rc, .any⟩], none⟩,
  ⟨0x118, 0x00000000, [⟨15, 0, .ro, .any⟩, ⟨31, 16, .ro, .any⟩], none⟩,
  ⟨0x11C, 0x00000000, [⟨15, 0, .ro, .any⟩], none⟩,
  ⟨0x120, 0x00000000, [⟨15, 0, .ro, .any⟩], none⟩,
  ⟨0x124, 0x00000000, [⟨6, 0, .ro, .any⟩, ⟨7, 7, .ro, .any⟩, ⟨19, 8, .ro, .any⟩], none⟩,
  ⟨0x128, 0x00000000, [⟨7, 0, .ro, .any⟩, ⟨15, 8, .ro, .any⟩], none⟩,
  ⟨0x12C, 0x00000000, [⟨31, 0, .ro, .any⟩], none⟩,
  ⟨0x130, 0x00000000, [⟨15, 0, .ro, .any⟩, ⟨31, 16, .ro, .any⟩], none⟩,
  ⟨0x134, 0x00000000, [⟨15, 0, .ro, .any⟩, ⟨31, 16, .ro, .any⟩], none⟩,
  ⟨0x138, 0x00000000, [⟨15, 0, .ro, .any⟩, ⟨31, 16, .ro, .any⟩], none⟩,
  ⟨0x13C, 0x00000000, [⟨6, 0, .rc, .any⟩, ⟨10, 7, .rc, .any⟩, ⟨30, 30, .rc, .any⟩, ⟨31, 31, .rc, .any⟩], none⟩,
  ⟨0x140, 0x00000000, [⟨6, 0, .rc, .any⟩, ⟨10, 8, .rc, .any⟩, ⟨30, 30, .rc, .any⟩, ⟨31, 31, .rc, .any⟩], none⟩,
  ⟨0x144, 0x00000000, [⟨31, 0, .ro, .any⟩], none⟩,
  ⟨0x148, 0x00000064, [⟨7, 0, .rw, .clamp 10 255⟩], none⟩,
  ⟨0x14C, 0x00000000, [⟨14, 0, .ro, .any⟩], none⟩,
  ⟨0x150, 0x00000000, [⟨31, 0, .ro, .any⟩], none⟩,
  ⟨0x154, 0x00000000, [⟨31, 0, .ro, .any⟩], none⟩,
  ⟨0x1E0, 0x00000000, [⟨0, 0, .rwp, .any⟩], none⟩]

/-- Block registers of the AM page (R36, Table 2.13, Table 11.4), part 1. -/
def amRegs0 : List RegDesc := [
  ⟨0x100, 0x00000000, [⟨31, 0, .rw, .any⟩], none⟩,
  ⟨0x104, 0x00000000, [⟨31, 0, .rw, .any⟩], none⟩,
  ⟨0x108, 0x00000000, [⟨3, 0, .rc, .any⟩, ⟨15, 8, .rc, .any⟩, ⟨31, 16, .ro, .any⟩], none⟩,
  ⟨0x10C, 0x00000100, [⟨4, 0, .rws, .any⟩, ⟨8, 8, .rws, .any⟩], none⟩,
  ⟨0x110, 0x002D140F, [⟨7, 0, .rws, .any⟩, ⟨15, 8, .rws, .any⟩, ⟨23, 16, .rws, .any⟩], none⟩,
  ⟨0x114, 0x00002837, [⟨6, 0, .rws, .keep 20 90⟩, ⟨16, 8, .rws, .keep 2 500⟩], none⟩,
  ⟨0x118, 0x00001403, [⟨3, 0, .rws, .keep 0 12⟩, ⟨14, 8, .rws, .keep 1 100⟩], none⟩,
  ⟨0x11C, 0x00000000, [⟨10, 0, .ro, .any⟩], none⟩,
  ⟨0x120, 0x00000000, [⟨13, 0, .ro, .any⟩], none⟩,
  ⟨0x124, 0x00000000, [⟨13, 0, .ro, .any⟩], none⟩,
  ⟨0x128, 0x00000000, [⟨10, 0, .ro, .any⟩, ⟨26, 16, .ro, .any⟩], none⟩,
  ⟨0x12C, 0x00000000, [⟨10, 0, .rc, .any⟩], none⟩,
  ⟨0x130, 0x00000000, [⟨15, 0, .ro, .any⟩, ⟨31, 16, .ro, .any⟩], none⟩,
  ⟨0x134, 0x00000000, [⟨31, 0, .ro, .any⟩], none⟩,
  ⟨0x138, 0x00000000, [⟨12, 0, .rc, .any⟩, ⟨31, 31, .rc, .any⟩], none⟩,
  ⟨0x13C, 0x00000000, [⟨31, 0, .ro, .any⟩], none⟩,
  ⟨0x140, 0x00000000, [⟨31, 0, .ro, .any⟩], none⟩,
  ⟨0x144, 0x00000000, [⟨31, 0, .ro, .any⟩], none⟩,
  ⟨0x148, 0x00000000, [⟨31, 0, .ro, .any⟩], none⟩,
  ⟨0x14C, 0x00000000, [⟨31, 0, .ro, .any⟩], none⟩,
  ⟨0x150, 0x00000000, [⟨31, 0, .ro, .any⟩], none⟩,
  ⟨0x154, 0x00000000, [⟨0, 0, .rw, .any⟩, ⟨1, 1, .rw, .any⟩, ⟨15, 3, .rw, .any⟩], none⟩,
  ⟨0x158, 0x00000000, [⟨0, 0, .rw, .any⟩, ⟨1, 1, .rw, .any⟩, ⟨15, 3, .rw, .any⟩], none⟩,
  ⟨0x15C, 0x00000000, [⟨0, 0, .rw, .any⟩, ⟨1, 1, .rw, .any⟩, ⟨15, 3, .rw, .any⟩], none⟩]

/-- Block registers of the AM page (R36, Table 2.13, Table 11.4), part 2. -/
def amRegs1 : List RegDesc := [
  ⟨0x160, 0x00000000, [⟨0, 0, .rw, .any⟩, ⟨1, 1, .rw, .any⟩, ⟨15, 3, .rw, .any⟩], none⟩,
  ⟨0x164, 0x00000000, [⟨3, 0, .ro, .any⟩, ⟨19, 16, .w1c, .any⟩], none⟩,
  ⟨0x168, 0x00000064, [⟨7, 0, .rw, .clamp 10 255⟩], none⟩,
  ⟨0x16C, 0x00000000, [⟨7, 0, .ro, .any⟩], none⟩]

/-- Block registers of the QM page (Table 13.6). -/
def qmRegs0 : List RegDesc := [
  ⟨0x100, 0x00000040, [⟨7, 0, .rw, .keep 16 255⟩], none⟩,
  ⟨0x104, 0x00000000, [⟨3, 0, .rwp, .keepSigned (-6) 3⟩], none⟩,
  ⟨0x108, 0x00030000, [⟨17, 0, .ro, .any⟩], none⟩,
  ⟨0x10C, 0x00000000, [⟨17, 0, .ro, .any⟩], none⟩,
  ⟨0x110, 0x00000000, [⟨17, 0, .ro, .any⟩], none⟩,
  ⟨0x114, 0x00000000, [⟨17, 0, .ro, .any⟩], none⟩,
  ⟨0x118, 0x00000000, [⟨17, 0, .rc, .any⟩], none⟩,
  ⟨0x11C, 0x00000000, [⟨15, 0, .rw, .any⟩, ⟨16, 16, .w1s, .any⟩, ⟨31, 31, .ro, .any⟩], none⟩,
  ⟨0x120, 0x00000000, [⟨15, 0, .ro, .any⟩, ⟨31, 16, .ro, .any⟩], none⟩,
  ⟨0x124, 0x00000000, [⟨31, 0, .ro, .any⟩], none⟩,
  ⟨0x128, 0x00000000, [⟨31, 0, .ro, .any⟩], none⟩,
  ⟨0x12C, 0x00000000, [⟨31, 0, .ro, .any⟩], none⟩,
  ⟨0x130, 0x00000000, [⟨31, 0, .ro, .any⟩], none⟩,
  ⟨0x134, 0x00000000, [⟨15, 0, .rc, .any⟩, ⟨17, 16, .rc, .any⟩, ⟨31, 31, .rc, .any⟩], none⟩,
  ⟨0x138, 0x00000000, [⟨31, 0, .ro, .any⟩], none⟩,
  ⟨0x13C, 0x00000000, [⟨31, 0, .ro, .any⟩], none⟩,
  ⟨0x140, 0x00000000, [⟨15, 0, .ro, .any⟩, ⟨31, 16, .ro, .any⟩], none⟩,
  ⟨0x144, 0x00000000, [⟨16, 0, .ro, .any⟩], none⟩,
  ⟨0x148, 0x00000000, [⟨12, 0, .ro, .any⟩], none⟩,
  ⟨0x14C, 0x00000000, [⟨17, 0, .ro, .any⟩], none⟩]

/-- Block registers of the PX page (Table 14.6, Table 7.5), part 1. -/
def pxRegs0 : List RegDesc := [
  ⟨0x100, 0x00000007, [⟨0, 0, .rw, .any⟩, ⟨1, 1, .rw, .any⟩, ⟨2, 2, .rw, .any⟩], none⟩,
  ⟨0x104, 0x00000000, [⟨31, 0, .rwp, .any⟩], none⟩,
  ⟨0x108, 0x00000000, [⟨11, 0, .rwp, .any⟩, ⟨12, 12, .rwp, .any⟩], none⟩,
  ⟨0x10C, 0x00000100, [⟨0, 0, .w1s, .any⟩, ⟨7, 4, .ro, .any⟩, ⟨10, 8, .ro, .any⟩, ⟨16, 16, .ro, .any⟩], none⟩,
  ⟨0x110, 0x00000000, [⟨18, 0, .ro, .any⟩], none⟩,
  ⟨0x114, 0x00000000, [⟨18, 0, .ro, .any⟩], none⟩,
  ⟨0x118, 0x00000000, [⟨3, 0, .ro, .any⟩, ⟨31, 8, .ro, .any⟩], none⟩,
  ⟨0x11C, 0x00000000, [⟨15, 0, .rw, .any⟩], none⟩,
  ⟨0x120, 0x00000000, [⟨31, 0, .ro, .any⟩], none⟩,
  ⟨0x124, 0x00000000, [⟨31, 0, .ro, .any⟩], none⟩,
  ⟨0x128, 0x00000000, [⟨31, 0, .ro, .any⟩], none⟩,
  ⟨0x12C, 0x00000000, [⟨31, 0, .ro, .any⟩], none⟩,
  ⟨0x130, 0x00000000, [⟨31, 0, .ro, .any⟩], none⟩,
  ⟨0x134, 0x00000000, [⟨31, 0, .ro, .any⟩], none⟩,
  ⟨0x138, 0x00000000, [⟨31, 0, .ro, .any⟩], none⟩,
  ⟨0x13C, 0x00000000, [⟨31, 0, .ro, .any⟩], none⟩,
  ⟨0x140, 0x00000000, [⟨15, 0, .ro, .any⟩], none⟩,
  ⟨0x144, 0x00000000, [⟨15, 0, .rc, .any⟩], none⟩,
  ⟨0x200, 0x00140A21, [⟨0, 0, .rw, .any⟩, ⟨7, 4, .rw, .clamp 1 15⟩, ⟨15, 8, .rw, .free 1 255⟩, ⟨23, 16, .rw, .free 1 255⟩], none⟩,
  ⟨0x204, 0x00000033, [⟨7, 0, .rw, .any⟩], none⟩,
  ⟨0x208, 0x00000000, [⟨13, 0, .ro, .any⟩, ⟨26, 16, .ro, .any⟩], none⟩,
  ⟨0x20C, 0x00000000, [⟨31, 0, .ro, .any⟩], none⟩,
  ⟨0x210, 0x00000000, [⟨31, 0, .ro, .any⟩], none⟩,
  ⟨0x214, 0x00000000, [⟨31, 0, .ro, .any⟩], none⟩]

/-- Block registers of the PX page (Table 14.6, Table 7.5), part 2. -/
def pxRegs1 : List RegDesc := [
  ⟨0x218, 0x00000000, [⟨31, 0, .ro, .any⟩], none⟩,
  ⟨0x21C, 0x00000000, [⟨31, 0, .ro, .any⟩], none⟩,
  ⟨0x220, 0x00000000, [⟨15, 0, .ro, .any⟩, ⟨31, 16, .ro, .any⟩], none⟩,
  ⟨0x224, 0x00000000, [⟨15, 0, .ro, .any⟩, ⟨31, 16, .ro, .any⟩], none⟩,
  ⟨0x228, 0x00004000, [⟨14, 0, .ro, .any⟩], none⟩,
  ⟨0x22C, 0x00000000, [⟨15, 0, .rw, .any⟩], none⟩]

/-- Block registers of the TM page (R36, Table 2.13, Table 14.8). -/
def tmRegs0 : List RegDesc := [
  ⟨0x100, 0x00000000, [⟨31, 0, .rw, .any⟩], none⟩,
  ⟨0x104, 0x00000000, [⟨31, 0, .rw, .any⟩], none⟩,
  ⟨0x108, 0x00000000, [⟨3, 0, .rc, .any⟩, ⟨15, 8, .rc, .any⟩, ⟨31, 16, .ro, .any⟩], none⟩,
  ⟨0x10C, 0x00000003, [⟨0, 0, .rw, .any⟩, ⟨1, 1, .rw, .any⟩], none⟩,
  ⟨0x110, 0x00000000, [⟨4, 0, .rw, .free 0 19⟩], none⟩,
  ⟨0x114, 0x00000000, [⟨0, 0, .ro, .any⟩, ⟨1, 1, .ro, .any⟩, ⟨2, 2, .ro, .any⟩, ⟨3, 3, .ro, .any⟩, ⟨13, 4, .ro, .any⟩, ⟨31, 16, .ro, .any⟩], some ⟨0x110, 4, 0⟩⟩,
  ⟨0x118, 0x00000000, [⟨31, 0, .ro, .any⟩], some ⟨0x110, 4, 0⟩⟩,
  ⟨0x11C, 0x00000000, [⟨31, 0, .ro, .any⟩], some ⟨0x110, 4, 0⟩⟩,
  ⟨0x120, 0x00000000, [⟨31, 0, .ro, .any⟩], some ⟨0x110, 4, 0⟩⟩,
  ⟨0x124, 0x00000000, [⟨31, 0, .ro, .any⟩], some ⟨0x110, 4, 0⟩⟩,
  ⟨0x128, 0x00000000, [⟨31, 0, .ro, .any⟩], some ⟨0x110, 4, 0⟩⟩,
  ⟨0x12C, 0x00000000, [⟨31, 0, .ro, .any⟩], some ⟨0x110, 4, 0⟩⟩,
  ⟨0x130, 0x00000000, [⟨4, 0, .rc, .any⟩, ⟨30, 8, .rc, .any⟩, ⟨31, 31, .rc, .any⟩], none⟩,
  ⟨0x134, 0x00000000, [⟨5, 0, .rw, .any⟩], none⟩,
  ⟨0x138, 0x00000000, [⟨9, 0, .ro, .any⟩, ⟨16, 16, .ro, .any⟩, ⟨17, 17, .ro, .any⟩], some ⟨0x134, 5, 0⟩⟩,
  ⟨0x13C, 0x00000000, [⟨17, 0, .rc, .any⟩], some ⟨0x134, 5, 0⟩⟩,
  ⟨0x140, 0x00000064, [⟨7, 0, .rw, .clamp 10 255⟩], none⟩,
  ⟨0x144, 0x00000000, [⟨31, 0, .ro, .any⟩], none⟩,
  ⟨0x148, 0x00000000, [⟨4, 0, .rc, .any⟩, ⟨7, 5, .rc, .any⟩, ⟨31, 31, .rc, .any⟩], none⟩]

/-- Block registers of the EP pages (Table 14.10). -/
def epRegs0 : List RegDesc := [
  ⟨0x100, 0x05F20040, [⟨2, 0, .rwp, .keep 0 4⟩, ⟨5, 4, .rwp, .free 0 2⟩, ⟨6, 6, .rwp, .any⟩, ⟨29, 16, .rwp, .free 64 9600⟩], none⟩,
  ⟨0x104, 0x000000E4, [⟨7, 0, .rwp, .any⟩, ⟨11, 8, .rwp, .any⟩, ⟨15, 12, .rwp, .any⟩], none⟩,
  ⟨0x108, 0x00000000, [⟨3, 0, .rwp, .any⟩], none⟩,
  ⟨0x10C, 0x00000020, [⟨31, 0, .rwp, .any⟩], none⟩,
  ⟨0x110, 0, [⟨15, 0, .rwp, .any⟩], none⟩,
  ⟨0x114, 0x00000000, [⟨3, 0, .ro, .any⟩, ⟨7, 4, .ro, .any⟩, ⟨11, 8, .ro, .any⟩, ⟨15, 12, .ro, .any⟩], none⟩,
  ⟨0x118, 0x00000000, [⟨1, 0, .rw, .any⟩], none⟩,
  ⟨0x11C, 0x00000000, [⟨31, 0, .ro, .any⟩], some ⟨0x118, 1, 0⟩⟩,
  ⟨0x120, 0x00000000, [⟨31, 0, .ro, .any⟩], some ⟨0x118, 1, 0⟩⟩,
  ⟨0x124, 0x00000000, [⟨15, 0, .ro, .any⟩, ⟨31, 16, .ro, .any⟩], some ⟨0x118, 1, 0⟩⟩,
  ⟨0x128, 0x00000000, [⟨15, 0, .ro, .any⟩, ⟨31, 16, .ro, .any⟩], some ⟨0x118, 1, 0⟩⟩,
  ⟨0x12C, 0x00000000, [⟨15, 0, .ro, .any⟩], some ⟨0x118, 1, 0⟩⟩,
  ⟨0x130, 0x00000000, [⟨15, 0, .rc, .any⟩, ⟨31, 16, .rc, .any⟩], some ⟨0x118, 1, 0⟩⟩]

/-- Block registers of the MG page (Table 14.11). -/
def mgRegs0 : List RegDesc := [
  ⟨0x100, 0x05F20002, [⟨0, 0, .rwp, .any⟩, ⟨1, 1, .rwp, .any⟩, ⟨29, 16, .rwp, .free 64 9600⟩], none⟩,
  ⟨0x104, 0x00000030, [⟨31, 0, .rwp, .any⟩], none⟩,
  ⟨0x108, 0, [⟨15, 0, .rwp, .any⟩], none⟩,
  ⟨0x10C, 0x00000000, [⟨0, 0, .ro, .any⟩, ⟨2, 1, .ro, .any⟩, ⟨31, 16, .ro, .any⟩], none⟩]

/-- Block registers of the RB pages (Table 16.10). -/
def rbRegs0 : List RegDesc := [
  ⟨0x100, 0x00000000, [⟨3, 0, .rwp, .any⟩], none⟩,
  ⟨0x104, 0x00143264, [⟨7, 0, .rwp, .any⟩, ⟨15, 8, .rwp, .any⟩, ⟨23, 16, .rwp, .any⟩, ⟨24, 24, .rwp, .any⟩, ⟨25, 25, .rwp, .any⟩, ⟨26, 26, .rwp, .any⟩], none⟩,
  ⟨0x108, 0x000003FF, [⟨9, 0, .rwp, .any⟩, ⟨23, 16, .rwp, .any⟩], none⟩,
  ⟨0x10C, 0x00000000, [⟨2, 0, .rwp, .any⟩, ⟨6, 4, .rwp, .any⟩, ⟨10, 8, .rwp, .any⟩, ⟨14, 12, .rwp, .any⟩], none⟩,
  ⟨0x110, 0x00000000, [⟨2, 0, .ro, .any⟩, ⟨4, 4, .ro, .any⟩, ⟨5, 5, .ro, .any⟩, ⟨11, 8, .ro, .any⟩, ⟨14, 12, .ro, .any⟩, ⟨31, 16, .ro, .any⟩], none⟩,
  ⟨0x114, 0x00000000, [⟨7, 0, .ro, .any⟩, ⟨15, 8, .ro, .any⟩], none⟩,
  ⟨0x118, 0x00100220, [⟨5, 0, .rw, .keep 0 32⟩, ⟨9, 8, .rw, .keep 1 3⟩, ⟨21, 16, .rw, .keep 1 50⟩], none⟩,
  ⟨0x11C, 0x5A3C96E1, [⟨31, 0, .rw, .any⟩], none⟩,
  ⟨0x120, 0x00000001, [⟨2, 0, .rw, .keep 0 4⟩], none⟩,
  ⟨0x124, 0x00000000, [⟨31, 0, .ro, .any⟩], none⟩,
  ⟨0x128, 0x00000000, [⟨31, 0, .ro, .any⟩], none⟩,
  ⟨0x12C, 0x00000000, [⟨31, 0, .ro, .any⟩], none⟩,
  ⟨0x130, 0x00000000, [⟨15, 0, .rc, .any⟩, ⟨31, 16, .rc, .any⟩], none⟩,
  ⟨0x134, 0x00000000, [⟨7, 0, .ro, .any⟩], none⟩,
  ⟨0x138, 0x00000000, [⟨31, 0, .ro, .any⟩], none⟩,
  ⟨0x13C, 0x00000000, [⟨15, 0, .ro, .any⟩], none⟩,
  ⟨0x140, 0x00000000, [⟨15, 0, .ro, .any⟩], none⟩,
  ⟨0x144, 0x00000000, [⟨5, 0, .ro, .any⟩, ⟨8, 8, .ro, .any⟩], none⟩,
  ⟨0x148, 0x00000000, [⟨15, 0, .ro, .any⟩, ⟨31, 16, .ro, .any⟩], none⟩,
  ⟨0x14C, 0x00000000, [⟨31, 0, .ro, .any⟩], none⟩,
  ⟨0x150, 0x00000000, [⟨31, 0, .ro, .any⟩], none⟩,
  ⟨0x154, 0x00000000, [⟨7, 0, .ro, .any⟩], none⟩,
  ⟨0x158, 0x00000000, [⟨7, 0, .ro, .any⟩], none⟩,
  ⟨0x15C, 0x00000064, [⟨7, 0, .rw, .clamp 10 255⟩], none⟩]

/-- Block registers of the CV page (Table 16.12). -/
def cvRegs0 : List RegDesc := [
  ⟨0x100, 0x00000000, [⟨1, 0, .rw, .keep 0 2⟩], none⟩,
  ⟨0x104, 0x00000000, [⟨2, 0, .ro, .any⟩, ⟨4, 4, .ro, .any⟩, ⟨5, 5, .ro, .any⟩, ⟨11, 8, .ro, .any⟩], some ⟨0x100, 1, 0⟩⟩,
  ⟨0x108, 0x00000000, [⟨0, 0, .ro, .any⟩, ⟨1, 1, .w1c, .any⟩, ⟨31, 16, .ro, .any⟩], some ⟨0x100, 1, 0⟩⟩,
  ⟨0x10C, 0x00000020, [⟨3, 0, .rw, .any⟩, ⟨4, 4, .w1s, .any⟩, ⟨5, 5, .rw, .any⟩, ⟨31, 31, .ro, .any⟩], some ⟨0x100, 1, 0⟩⟩,
  ⟨0x110, 0x00000000, [⟨3, 0, .ro, .any⟩, ⟨15, 8, .ro, .any⟩, ⟨23, 16, .ro, .any⟩], some ⟨0x100, 1, 0⟩⟩,
  ⟨0x114, 0x00000000, [⟨31, 0, .ro, .any⟩], some ⟨0x100, 1, 0⟩⟩,
  ⟨0x118, 0x00000000, [⟨31, 0, .ro, .any⟩], some ⟨0x100, 1, 0⟩⟩,
  ⟨0x11C, 0x00000000, [⟨31, 0, .ro, .any⟩], some ⟨0x100, 1, 0⟩⟩,
  ⟨0x120, 0, [⟨15, 0, .rop, .any⟩, ⟨23, 16, .rop, .any⟩, ⟨31, 24, .rop, .any⟩], none⟩,
  ⟨0x124, 0, [⟨15, 0, .rop, .any⟩, ⟨23, 16, .rop, .any⟩, ⟨31, 24, .rop, .any⟩], none⟩,
  ⟨0x128, 0, [⟨15, 0, .rop, .any⟩, ⟨23, 16, .rop, .any⟩, ⟨31, 24, .rop, .any⟩], none⟩,
  ⟨0x12C, 0x00000000, [⟨3, 0, .ro, .any⟩, ⟨11, 8, .ro, .any⟩, ⟨18, 16, .ro, .any⟩], some ⟨0x100, 1, 0⟩⟩]

/-- Block registers of the AC page (R36, Table 2.13, Table 17.10), part 1. -/
def acRegs0 : List RegDesc := [
  ⟨0x100, 0x00000000, [⟨31, 0, .rw, .any⟩], none⟩,
  ⟨0x104, 0x00000000, [⟨31, 0, .rw, .any⟩], none⟩,
  ⟨0x108, 0x00000000, [⟨3, 0, .rc, .any⟩, ⟨15, 8, .rc, .any⟩, ⟨31, 16, .ro, .any⟩], none⟩,
  ⟨0x10C, 0x00000000, [⟨15, 0, .rwp, .any⟩], none⟩,
  ⟨0x110, 0, [⟨15, 0, .rop, .any⟩], none⟩,
  ⟨0x114, 0x00000000, [⟨2, 0, .rwp, .any⟩], none⟩,
  ⟨0x118, 0xFFFFFFFF, [⟨31, 0, .rwp, .any⟩], none⟩,
  ⟨0x11C, 0xFFFFFFFF, [⟨31, 0, .rwp, .any⟩], none⟩,
  ⟨0x120, 0xFFFFFFFF, [⟨31, 0, .rwp, .any⟩], none⟩,
  ⟨0x124, 0x000000FF, [⟨7, 0, .rwp, .any⟩], none⟩,
  ⟨0x128, 0x000000FF, [⟨7, 0, .rwp, .any⟩], none⟩,
  ⟨0x12C, 0x000000FF, [⟨7, 0, .rwp, .any⟩], none⟩,
  ⟨0x130, 0x00000190, [⟨15, 0, .rwp, .any⟩], none⟩,
  ⟨0x134, 0x00000031, [⟨31, 0, .rwp, .any⟩], none⟩,
  ⟨0x138, 0, [⟨15, 0, .rwp, .any⟩], none⟩,
  ⟨0x13C, 0x00000008, [⟨0, 0, .rwp, .any⟩, ⟨4, 1, .rwp, .clamp 1 15⟩, ⟨31, 16, .rwp, .any⟩], none⟩,
  ⟨0x140, 0x00000114, [⟨3, 0, .rwp, .free 1 15⟩, ⟨5, 4, .rwp, .any⟩, ⟨7, 6, .rwp, .any⟩, ⟨10, 8, .rwp, .free 0 4⟩], none⟩,
  ⟨0x144, 0x00000607, [⟨0, 0, .rw, .any⟩, ⟨1, 1, .rw, .any⟩, ⟨2, 2, .rw, .any⟩, ⟨5, 4, .rw, .free 0 2⟩, ⟨6, 6, .rw, .any⟩, ⟨15, 8, .rw, .any⟩], none⟩,
  ⟨0x148, 0x00000010, [⟨6, 0, .rw, .free 4 64⟩], none⟩,
  ⟨0x14C, 0x00DC00B4, [⟨9, 0, .rws, .any⟩, ⟨25, 16, .rws, .any⟩], none⟩,
  ⟨0x150, 0x00DC00B4, [⟨9, 0, .rws, .any⟩, ⟨25, 16, .rws, .any⟩], none⟩,
  ⟨0x154, 0x00DC00B4, [⟨9, 0, .rws, .any⟩, ⟨25, 16, .rws, .any⟩], none⟩,
  ⟨0x158, 0x03FF0000, [⟨9, 0, .rws, .any⟩, ⟨25, 16, .rws, .any⟩], none⟩,
  ⟨0x15C, 0x03FF0000, [⟨9, 0, .rws, .any⟩, ⟨25, 16, .rws, .any⟩], none⟩]

/-- Block registers of the AC page (R36, Table 2.13, Table 17.10), part 2. -/
def acRegs1 : List RegDesc := [
  ⟨0x160, 0x03FF0000, [⟨9, 0, .rws, .any⟩, ⟨25, 16, .rws, .any⟩], none⟩,
  ⟨0x164, 0x00000000, [⟨4, 0, .rws, .any⟩, ⟨8, 8, .ro, .any⟩], none⟩,
  ⟨0x168, 0x00000000, [⟨4, 0, .rws, .any⟩, ⟨8, 8, .ro, .any⟩], none⟩,
  ⟨0x16C, 0x00000000, [⟨4, 0, .rws, .any⟩, ⟨8, 8, .ro, .any⟩], none⟩,
  ⟨0x170, 0x00000000, [⟨31, 0, .ro, .any⟩], none⟩,
  ⟨0x174, 0x00000000, [⟨1, 0, .ro, .any⟩, ⟨16, 8, .ro, .any⟩, ⟨27, 18, .ro, .any⟩], none⟩,
  ⟨0x178, 0x00000000, [⟨1, 0, .ro, .any⟩, ⟨16, 8, .ro, .any⟩, ⟨27, 18, .ro, .any⟩], none⟩,
  ⟨0x17C, 0x00000000, [⟨1, 0, .ro, .any⟩, ⟨16, 8, .ro, .any⟩, ⟨27, 18, .ro, .any⟩], none⟩,
  ⟨0x180, 0x00000000, [⟨9, 0, .ro, .any⟩, ⟨25, 16, .ro, .any⟩], none⟩,
  ⟨0x184, 0x00000000, [⟨11, 0, .ro, .any⟩, ⟨27, 16, .ro, .any⟩], none⟩,
  ⟨0x188, 0x00000000, [⟨5, 0, .ro, .any⟩, ⟨13, 8, .ro, .any⟩], none⟩,
  ⟨0x18C, 0x00040404, [⟨5, 0, .rw, .free 1 63⟩, ⟨13, 8, .rw, .free 1 63⟩, ⟨23, 16, .rw, .free 1 255⟩], none⟩,
  ⟨0x190, 0x20081032, [⟨7, 0, .rw, .any⟩, ⟨15, 8, .rw, .any⟩, ⟨23, 16, .rw, .any⟩, ⟨31, 24, .rw, .any⟩], none⟩,
  ⟨0x194, 0x000000C8, [⟨11, 0, .rw, .any⟩], none⟩,
  ⟨0x198, 0x00000140, [⟨7, 0, .rw, .any⟩, ⟨8, 8, .rw, .any⟩], none⟩,
  ⟨0x19C, 0x00000000, [⟨12, 0, .ro, .any⟩, ⟨31, 16, .ro, .any⟩], none⟩,
  ⟨0x1A0, 0x00000000, [⟨31, 0, .ro, .any⟩], none⟩,
  ⟨0x1A4, 0x00000000, [⟨10, 0, .rc, .any⟩, ⟨12, 11, .rc, .any⟩, ⟨13, 13, .rc, .any⟩, ⟨30, 30, .rc, .any⟩, ⟨31, 31, .rc, .any⟩], none⟩,
  ⟨0x1A8, 0x00000000, [⟨15, 0, .ro, .any⟩, ⟨20, 16, .ro, .any⟩, ⟨23, 22, .ro, .any⟩], none⟩,
  ⟨0x1AC, 0x00000000, [⟨31, 0, .ro, .any⟩], none⟩,
  ⟨0x1B0, 0x00000000, [⟨31, 0, .ro, .any⟩], none⟩,
  ⟨0x1B4, 0x00000000, [⟨31, 0, .ro, .any⟩], none⟩,
  ⟨0x1B8, 0x00000000, [⟨3, 0, .rc, .any⟩, ⟨5, 4, .rc, .any⟩, ⟨15, 8, .rc, .any⟩, ⟨31, 31, .rc, .any⟩], none⟩,
  ⟨0x1BC, 0x00000064, [⟨7, 0, .rw, .clamp 10 255⟩], none⟩]

/-- Block registers of the CE pages (Table 18.9). -/
def ceRegs0 : List RegDesc := [
  ⟨0x100, 0x00000001, [⟨1, 0, .rw, .any⟩], none⟩,
  ⟨0x104, 0x0000640F, [⟨2, 0, .rw, .any⟩, ⟨3, 3, .rw, .any⟩, ⟨4, 4, .rw, .any⟩, ⟨15, 8, .rw, .clamp 10 255⟩], none⟩,
  ⟨0x108, 0x00000000, [⟨0, 0, .ro, .any⟩, ⟨3, 1, .ro, .any⟩, ⟨8, 4, .ro, .any⟩], none⟩,
  ⟨0x10C, 0x00000000, [⟨0, 0, .rwp, .any⟩], none⟩,
  ⟨0x110, 0x00000000, [⟨31, 0, .ro, .any⟩], none⟩,
  ⟨0x114, 0x00000000, [⟨31, 0, .ro, .any⟩], none⟩,
  ⟨0x118, 0x00000000, [⟨31, 0, .ro, .any⟩], none⟩,
  ⟨0x11C, 0x00000000, [⟨31, 0, .ro, .any⟩], none⟩,
  ⟨0x120, 0x00000000, [⟨15, 0, .ro, .any⟩, ⟨31, 16, .ro, .any⟩], none⟩,
  ⟨0x124, 0x00000000, [⟨31, 0, .ro, .any⟩], none⟩,
  ⟨0x128, 0x00000000, [⟨7, 0, .rc, .any⟩, ⟨9, 8, .rc, .any⟩, ⟨31, 31, .rc, .any⟩], none⟩,
  ⟨0x12C, 0x00000000, [⟨15, 0, .ro, .any⟩, ⟨31, 16, .ro, .any⟩], none⟩,
  ⟨0x130, 0x00000000, [⟨7, 0, .rc, .any⟩, ⟨11, 8, .rc, .any⟩, ⟨31, 31, .rc, .any⟩], none⟩,
  ⟨0x134, 0x00000000, [⟨0, 0, .ro, .any⟩, ⟨15, 8, .ro, .any⟩], none⟩,
  ⟨0x138, 0x00000000, [⟨8, 0, .ro, .any⟩, ⟨24, 16, .ro, .any⟩], none⟩,
  ⟨0x13C, 0x00000000, [⟨16, 0, .ro, .any⟩], none⟩,
  ⟨0x140, 0x00000000, [⟨7, 0, .ro, .any⟩], none⟩,
  ⟨0x144, 0x00000000, [⟨7, 0, .rw, .any⟩, ⟨8, 8, .w1s, .any⟩, ⟨31, 31, .ro, .any⟩], none⟩]

/-- Block registers of the PH page (Table 22.10). -/
def phRegs0 : List RegDesc := [
  ⟨0x100, 0x00000085, [⟨2, 0, .rwp, .keep 1 5⟩, ⟨7, 4, .rwp, .oneOf [1, 2, 4, 8]⟩, ⟨8, 8, .rwp, .any⟩], none⟩,
  ⟨0x104, 0x00040100, [⟨7, 0, .rwp, .any⟩, ⟨8, 8, .rwp, .any⟩, ⟨19, 16, .rwp, .keep 0 10⟩], none⟩,
  ⟨0x108, 0x00000000, [⟨2, 0, .ro, .any⟩, ⟨7, 4, .ro, .any⟩, ⟨8, 8, .ro, .any⟩, ⟨9, 9, .ro, .any⟩, ⟨10, 10, .ro, .any⟩, ⟨21, 16, .ro, .any⟩], none⟩,
  ⟨0x10C, 0x00000000, [⟨7, 0, .ro, .any⟩, ⟨15, 8, .ro, .any⟩], none⟩,
  ⟨0x110, 0x00000000, [⟨15, 0, .rc, .any⟩, ⟨31, 16, .rc, .any⟩], none⟩,
  ⟨0x114, 0x00000000, [⟨15, 0, .ro, .any⟩], none⟩,
  ⟨0x118, 0x00000000, [⟨2, 0, .rw, .any⟩], none⟩,
  ⟨0x11C, 0x00000000, [⟨15, 0, .rc, .any⟩], some ⟨0x118, 2, 0⟩⟩]

/-- The block registers of a page by its kind (R527, R528). -/
def blockRegs : PageKind → List RegDesc
  | .dir => dirRegs0
  | .cc => ccRegs0 ++ ccRegs1
  | .ps => psRegs0
  | .sk => skRegs0
  | .hb => hbRegs0
  | .fb => fbRegs0
  | .tu => tuRegs0 ++ tuRegs1
  | .dx => dxRegs0 ++ dxRegs1
  | .mc => mcRegs0
  | .dp => dpRegs0
  | .ve => veRegs0
  | .ds => dsRegs0
  | .cp => cpRegs0
  | .am => amRegs0 ++ amRegs1
  | .qm => qmRegs0
  | .px => pxRegs0 ++ pxRegs1
  | .tm => tmRegs0
  | .ep => epRegs0
  | .mg => mgRegs0
  | .rb => rbRegs0
  | .cv => cvRegs0
  | .ac => acRegs0 ++ acRegs1
  | .ce => ceRegs0
  | .ph => phRegs0

/-- The descriptor of the block register at offset `off` of a page of kind `k`. -/
def blockReg (k : PageKind) (off : Nat) : Option RegDesc := (blockRegs k).find? (fun d => d.off == off)

end Sys2Proof.Machine
end

