-- ==== Sys2Proof/Machine/SMap.lean ====
section
/-! DEFINITION. Sparse maps: lists of (key, value) pairs in one canonical form. The keys rise strictly and no listed
value equals what an unlisted key reads as (`d k`). Every memory, register file and table of the block is held so. -/

namespace Sys2Proof.Machine

/-- A sparse map from Nat keys; what an unlisted key reads as is given to each operation. -/
abbrev SMap (α : Type) := List (Nat × α)

/-- The value at a key. -/
def SMap.get {α : Type} (d : Nat → α) : SMap α → Nat → α
  | [], k => d k
  | (j, v) :: m, k => if k = j then v else SMap.get d m k

/-- Put an entry in its place, whatever its value. -/
def SMap.put {α : Type} : SMap α → Nat → α → SMap α
  | [], k, v => [(k, v)]
  | (j, w) :: m, k, v =>
    if k = j then (k, v) :: m else if k < j then (k, v) :: (j, w) :: m else (j, w) :: SMap.put m k v

/-- Take an entry away. -/
def SMap.del {α : Type} (m : SMap α) (k : Nat) : SMap α := m.filter (fun e => e.1 != k)

/-- Store a value; a value equal to the unlisted one removes the entry. -/
def SMap.set {α : Type} [DecidableEq α] (d : Nat → α) (m : SMap α) (k : Nat) (v : α) : SMap α :=
  if v = d k then SMap.del m k else SMap.put m k v

/-- All keys of the map are above `k`. -/
def SMap.above {α : Type} (k : Nat) (m : SMap α) : Bool := m.all (fun e => decide (k < e.1))

/-- The canonical form. -/
def SMap.wf {α : Type} [DecidableEq α] (d : Nat → α) : SMap α → Bool
  | [] => true
  | (k, v) :: m => SMap.above k m && decide (v ≠ d k) && SMap.wf d m

/-- Keep the entries whose key the test accepts; the others read as unlisted again. -/
def SMap.keep {α : Type} (p : Nat → Bool) (m : SMap α) : SMap α := m.filter (fun e => p e.1)

end Sys2Proof.Machine
end

