-- ==== Sys2Proof/Machine/State.lean ====
section
/-! DEFINITION. The state of the block as plain data: everything the spec gives it, chapter by chapter, and the state
right after a cold reset. -/

namespace Sys2Proof.Machine

/-- Who raises it: nothing; no command of this model ends in a fault (every error the spec names is an answer, an event
or a status). Safe. -/
inductive Fault where
  /-- Raised by no command. Safe. -/
  | noFault
deriving DecidableEq, Repr

/-- Why a command has no meaning. -/
inductive Refusal where
  /-- Raised by the dispatcher for a command without a meaning in this model. Safe. -/
  | notModelled (mnemonic : String)
deriving DecidableEq, Repr

/-! ## Pages and their headers (chapters 2, 20 and 23) -/

/-- PAGE_STATE.STATE (Table 2.6). -/
inductive PState where
  | off | starting | ready | running | draining | sitOut | faulted
deriving DecidableEq, Repr

/-- One history entry (Table 2.10). -/
structure HistEntry where
  timeUs : Nat
  sev : Sev
  source : Nat
  lost : Bool
deriving DecidableEq, Repr

/-- One counted TRANSIENT detection: the unit it is counted for and its time in ns (R471). -/
structure Counted where
  unit : Nat
  time : Nat
deriving DecidableEq, Repr

/-- The common header of a page (Tables 2.3 to 2.12) and what the header rules keep behind it. -/
structure Hdr where
  /-- PAGE_CTRL.ENABLE -/
  enable : Bool
  /-- PAGE_CTRL.DRAIN_MODE is 1, return work in flight -/
  drainReturn : Bool
  /-- PAGE_CTRL.ISLAND_RST reads 1 -/
  rst : Bool
  /-- PAGE_CTRL.COMMIT_AT -/
  commitAt : BitVec 2
  /-- PAGE_STATE.STATE -/
  state : PState
  /-- PAGE_STATE.COMMIT_PENDING -/
  commitPending : Bool
  /-- the COMMIT_AT the pending bow was requested with -/
  bowAt : BitVec 2
  /-- PAGE_STATE.INFLIGHT before saturation -/
  inflight : Nat
  /-- the unit's continuous function (port, radio, time) is active (R31) -/
  continuous : Bool
  /-- EVT_RAW -/
  raw : Word
  /-- carried severity of each raw bit, two bits per source as in EVT_SEV_LO and EVT_SEV_HI (R470) -/
  carriedLo : Word
  carriedHi : Word
  /-- sources whose condition persists, so a cleared bit sets again (R483) -/
  persists : Word
  /-- EVT_EN -/
  en : Word
  /-- EVT_SEV_LO, EVT_SEV_HI -/
  sevLo : Word
  sevHi : Word
  /-- the history, oldest first, at most eight (R33) -/
  hist : List HistEntry
  /-- RETRY_CFG -/
  limit : Nat
  windowMs : Nat
  /-- TRANSIENT detections counted in the window (R471) -/
  counted : List Counted
  /-- ISLAND_METER.REQ_VP and GRANTED_VP of a self-timed island -/
  reqVp : Fin 8
  grantedVp : Fin 8
  /-- ISLAND_METER.PACE -/
  pace : Nat
  /-- ISLAND_METER of a clocked domain (Table 2.12) -/
  pllLock : Bool
  refPresent : Bool
  unlockSeen : Bool
  clkMhz : Nat
  /-- retirement records of this page under re-qualification, one bit per unit (R484) -/
  requal : Word
deriving DecidableEq, Repr

/-- Where a read's data goes: to the host's bus, to SMBus, or out of the TAP. -/
inductive Via where
  | host | smb | tap
deriving DecidableEq, Repr

/-- An access from the bus that a held page keeps waiting (R40). -/
inductive Access where
  | write (off : Bar0) (v : Word)
  | read (off : Bar0) (via : Via)
deriving DecidableEq, Repr

/-- What a register write asks of the whole block: the tag partitions (0 FB_DX_PART, 1 FB_VE_PART, 2 FB_CP_PART), a warm
reset, an UNLOCK. -/
inductive Ask where
  | part (which : Nat) (v : Word)
  | shared (v : Word)
  | reset (v : Word)
  | unlock
  /-- bytes that DX writes at a device physical address in register space -/
  | regs (pa : Nat) (bytes : List Byte)
deriving DecidableEq, Repr

/-- Register words, tables and headers. -/
structure Pages where
  /-- active register words, by `regKey` -/
  regs : SMap Word
  /-- shadows of RWS registers, by `regKey` (R34) -/
  shadow : SMap Word
  /-- active table-window words, by `tblKey` -/
  tbl : SMap Word
  /-- shadows of shadowed table entries, by `tblKey` -/
  tblSh : SMap Word
  /-- latched _HI halves, by `regKey` of the _HI register (R26) -/
  latch : SMap Word
  /-- page headers, by page number -/
  hdrs : SMap Hdr
  /-- accesses waiting for a page that PS holds, in arrival order (R40) -/
  waiting : List Access
deriving DecidableEq, Repr

/-! ## The persistent store (chapter 2) -/

/-- A write that PS serves or queues (R40, R41). -/
structure PsWrite where
  /-- BAR0 offset of the register -/
  off : Nat
  /-- value after the field rules -/
  v : Word
  /-- a retirement record write, served ahead of RWP writes (R477) -/
  record : Bool
deriving DecidableEq, Repr

/-- Where a persistent word lives and how worn it is (R42, Table 2.15). -/
structure PsWord where
  /-- 0–159 home, 160–415 spare -/
  slot : Nat
  remaps : Nat
  worn : Bool
  /-- programmed writes over the word's life -/
  total : Nat
deriving DecidableEq, Repr

/-- The persistent store: MRAM words and what PS keeps about them. -/
structure PsState where
  /-- committed words, by BAR0 offset; unlisted words hold their shipped value -/
  nv : SMap Word
  /-- words by index 0–159 -/
  words : SMap PsWord
  /-- programmed writes of each cell, by slot 0–415 -/
  wear : SMap Nat
  /-- writes in arrival order, the first being served (R41) -/
  queue : List PsWrite
  /-- spares in use -/
  sparesUsed : Nat
  /-- raw time in ms of the last timed ROP commit -/
  lastCommitMs : Nat
  /-- retirement records outside the 160 words: CC_CORE_RETIRE (R486) -/
  coreRetired : BitVec 8
  /-- trained points kept in the store, per group (R128), a bit mask -/
  trainStored : SMap Nat
  /-- the oscillator model: rate, VALID and age in days (R352) -/
  oscRate : Int
  oscValid : Bool
  oscAge : Nat
  /-- checkpoint records written (R95) and the epoch they hold (R96) -/
  epoch : Nat
deriving DecidableEq, Repr

/-! ## The fabric (R11, R530) -/

/-- One set of tag partitions (Table 1.3). -/
structure Parts where
  dx : Nat
  ve : Nat
  cp : Nat
  shared : Nat
deriving DecidableEq, Repr

/-- A fabric request as its requester issues it. -/
structure FabReq where
  who : Requester
  addr : BitVec 48
  write : Bool
deriving DecidableEq, Repr

/-- The Rinpiba fabric. -/
structure Fabric where
  /-- the partition in force -/
  parts : Parts
  /-- pending FB_DX_PART, FB_VE_PART and FB_CP_PART (R530) -/
  pendDx : Option Nat
  pendVe : Option Nat
  pendCp : Option Nat
  /-- the requesters of the transactions in flight, newest first -/
  flight : List Requester
  /-- requests held for want of a tag, in arrival order -/
  waiters : List FabReq
deriving DecidableEq, Repr

/-! ## Time (chapter 15) -/

/-- An entry of a transmit timestamp queue (R357). -/
structure TxStamp where
  id : Nat
  subport : Nat
  oneStep : Bool
  stamp : Nat
  subns : Nat
  lost : Bool
deriving DecidableEq, Repr

/-- The time unit. Times of one LSB 2^-32 ns unless a name says ns. -/
structure Time where
  /-- raw counter, 2^-32 ns (R337) -/
  raw : Nat
  /-- TU_INC in force, 2^-32 ns (R338) -/
  inc : Nat
  /-- nominal increment of the frequency in force (Table 15.1) -/
  nominal : Nat
  /-- increment written and applied at the next edge -/
  pendInc : Option Nat
  /-- TU_OFFSET, 2^-32 ns (R340) -/
  offset : Int
  /-- TU_ANCHOR, 2^-32 ns -/
  anchor : Nat
  /-- TU_RATE, 2^-48 -/
  rate : Int
  /-- rate written and applied at the next edge (R341) -/
  pendRate : Option Int
  /-- step in ns applied at the next edge (R343) -/
  pendStep : Option Int
  /-- rest of a slew, 2^-32 ns (R343) -/
  rem : Int
  /-- slew rate in force, ppm -/
  slewPpm : Nat
  armed : Bool
  /-- LAST: 0 none, 1 stepped, 2 slewed, 3 refused -/
  last : Nat
  refusals : Nat
  /-- next k of each tick generator, by generator -/
  nextK : SMap Nat
  /-- STATE: 0 FREE_RUN, 1 LOCKED, 2 HOLDOVER, 3 ACQUIRING (Table 15.3) -/
  sync : Fin 4
  /-- HOLDOVER was the state before FREE_RUN -/
  fromHoldover : Bool
  /-- consecutive accepted offsets within ±100 ns -/
  good : Nat
  /-- servo offsets refused in a row, newest first, ns (R344) -/
  refusedOffsets : List Int
  /-- minutes in HOLDOVER or FREE_RUN, from the P at which the state was entered, ns -/
  enteredAt : Int
  /-- P of the last accepted PPS_IN edge, ns -/
  ppsLast : Option Int
  /-- PPS_IN_MISSING has been detected for this silence (R359) -/
  ppsSilent : Bool
  /-- transmit timestamp queues of EP0–EP3 and MG (R357) -/
  txts : SMap (List TxStamp)
  /-- a stamp was discarded since the last pop of the queue -/
  txtsLost : BitVec 5
  /-- REF_IN toggles -/
  refPresent : Bool
  /-- level of PPS_OUT (R358), and the P at which it falls -/
  ppsOut : Bool
  ppsOutUntil : Int
deriving DecidableEq, Repr

/-! ## Energy and pace (chapter 3) -/

/-- What the ledger of energy and the pace rules keep. -/
structure Energy where
  /-- meters 0–63, µJ since cold reset (R61) -/
  meters : SMap Nat
  /-- ten 1 ms buckets, newest first (R63) -/
  shortW : List Nat
  /-- ten 100 ms buckets, newest first -/
  longW : List Nat
  /-- ten 1 ms buckets of each meter, newest first -/
  meterW : SMap (List Nat)
  /-- reserved energy R, µJ -/
  reserved : Nat
  /-- budgets in force, µJ (R64) -/
  bShort : Nat
  bLong : Nat
  /-- a descent: the value it started from and the 10 µs updates since -/
  descS : Option (Nat × Nat)
  descL : Option (Nat × Nat)
  /-- a sum exceeded its budget at the last update (R66) -/
  overrun : Bool
  /-- levels at the GPIO balls -/
  gpio : BitVec 16
  /-- on-battery as it was last judged -/
  onBatt : Bool
  /-- consecutive short intervals of each island, by page -/
  shortRun : SMap Nat
  /-- raw ns since which the pace has held floor with margin, by page (R56) -/
  heldSince : SMap (Option Nat)
  /-- raw ns of the last release, and whether the island was lifted since, by page -/
  lastRelease : SMap Nat
  liftedSince : SMap Bool
  /-- junction, °C -/
  hot : Int
  cold : Int
  /-- above +110 °C and not yet below +105 °C (R60) -/
  hotForce : Bool
  /-- the classes whose FORCE_FB that has set -/
  heatForced : List Nat
  /-- the junction edges of R58, each true while the sensor counts as above it -/
  edgeHot : BitVec 5
  edgeCold : BitVec 5
  /-- FORCE_FB bits set by firmware, newest first: the classes of one step (R77) -/
  forced : List (List Nat)
  /-- a page in breach now -/
  breach : SMap Bool
  /-- THERMTRIP_N latched low (R499) -/
  tripped : Bool
deriving DecidableEq, Repr

/-! ## Assured work (chapter 4) -/

/-- Ledger states (Table 4.5). -/
inductive LState where
  | accepted | started | emitted | completed
deriving DecidableEq, Repr

/-- Primary or fallback form (R71). -/
inductive Form where
  | primary | fallback
deriving DecidableEq, Repr

/-- Completion statuses (Table 4.3). -/
inductive Status where
  | done | doneDegraded | returned | failed | tagFail
deriving DecidableEq, Repr

/-- Completion bytes 8–31 and 48–63 as an engine leaves them (Tables 4.3 and 4.5). -/
structure Result where
  status : Status
  cause : Nat
  instance_ : Nat
  engine : Nat
  flags : Word
  result0 : BitVec 64
  result1 : BitVec 64
  eres : BitVec 128
deriving DecidableEq, Repr

/-- One ledger entry (Table 4.5). -/
structure LEntry where
  valid : Bool
  desc : BitVec 512
  state : LState
  form : Form
  encored : Bool
  inst : Nat
  epoch : Nat
  reservedUj : Nat
  engineState : BitVec 64
  result : Result
deriving DecidableEq, Repr

/-- One ring header in one ledger copy. -/
structure LHeader where
  valid : Bool
  acceptSeq : Int
  postedSeq : Int
  epoch : Nat
deriving DecidableEq, Repr

/-- One copy of the work ledger: entries by ring × 65,536 + slot, headers by ring. -/
structure LCopy where
  entries : SMap LEntry
  headers : SMap LHeader
deriving DecidableEq, Repr

/-- Where an accepted item stands inside the device. -/
inductive Phase where
  /-- accepted, not yet dispatched or bound -/
  | ready
  /-- waits for an instance that is coming back (R106) -/
  | waiting
  /-- bound to an instance, not started -/
  | bound
  /-- STARTED is recorded; the engine acts -/
  | running
  /-- EMITTED is recorded -/
  | emitted
  /-- finished, COMPLETED being recorded -/
  | finishing
  /-- COMPLETED is recorded; its completion entry is due -/
  | completed
deriving DecidableEq, Repr

/-- An item accepted and not yet posted. -/
structure Item where
  ring : Nat
  seq : Nat
  desc : BitVec 512
  form : Form
  phase : Phase
  /-- a ledger transition written and not yet acknowledged (R94) -/
  pend : Option LState
  /-- the transition last recorded -/
  recorded : LState
  encored : Bool
  inst : Option Nat
  /-- what is left of its reservation, and what was reserved, µJ -/
  reserved : Nat
  reservedUj : Nat
  /-- energy attributed to it, µJ -/
  energy : Nat
  /-- its cost sample is eligible (R68) -/
  eligible : Bool
  result : Result
  engineState : BitVec 64
  /-- the completion's ENERGY_UJ is 0: posted by encore from a COMPLETED entry -/
  noEnergy : Bool
deriving DecidableEq, Repr

/-- Progress of a ring's head item towards acceptance (R87, R89). -/
inductive Head where
  /-- nothing fetched -/
  | none
  /-- the descriptor read is outstanding -/
  | reading
  /-- the descriptor is here and is held or untested -/
  | here (desc : BitVec 512)
  /-- both ACCEPTED entries are being written -/
  | entryWrite (desc : BitVec 512) (form : Form) (uj : Nat)
  /-- the header is being written -/
  | headerWrite (desc : BitVec 512) (form : Form) (uj : Nat)
deriving DecidableEq, Repr

/-- One work ring besides its context entries in the table window. -/
structure Ring where
  enabled : Bool
  halted : Bool
  haltCause : Nat
  acceptSeq : Int
  postedSeq : Int
  /-- known submission tail and consumed completion tail (R84) -/
  sqTail : Int
  cqTail : Int
  head : Head
  /-- RING_STAT.HOLD_REASON -/
  hold : Nat
  /-- sequence number of the head item last counted as held (R72) -/
  heldSeq : Option Int
  /-- the same for holds by admission -/
  admHeldSeq : Option Int
  /-- a completion entry write is outstanding -/
  posting : Bool
  /-- entries posted since the last completion-ring message (R92) -/
  sinceIrq : Nat
  /-- a delay message is due -/
  delayArmed : Bool
  priorAccept : Int
  priorPosted : Int
deriving DecidableEq, Repr

/-- Rings, items and the ledger. -/
structure Work where
  rings : SMap Ring
  /-- accepted items not yet posted, in order of acceptance -/
  items : List Item
  copyA : LCopy
  copyB : LCopy
  /-- a copy can be written and read -/
  okA : Bool
  okB : Bool
  epoch : Nat
  /-- the last checkpoint record: ACCEPT_SEQ and POSTED_SEQ of each ring and its context and window words (R95) -/
  ckSeq : SMap (Int × Int)
  ckTbl : SMap Word
  ckCfg : List Word
  /-- slot of the next record, 0–15 -/
  ckSlot : Nat
deriving DecidableEq, Repr

/-! ## IOMMU and DMA (chapter 6) -/

/-- A cached translation (R137). -/
structure XEntry where
  asid : Nat
  /-- virtual address of the page and its size in bits -/
  va : Nat
  size : Nat
  pa : Nat
  rd : Bool
  wr : Bool
  /-- PR of the leaf: a permission fault may park -/
  pr : Bool
deriving DecidableEq, Repr

/-- A parked requester (R139, R140). -/
structure Park where
  who : Nat
  asid : Nat
  /-- page of the faulting beat -/
  va : Nat
  rd : Bool
  wr : Bool
  host : Bool
  /-- 1 with the host or firmware; 2 queued for DX_PR_POP; 3 answered with success, to be tried again; 4 refused and 5 ended by a
  walk error, which the requester's next access at this page meets -/
  stage : Nat
  /-- success responses for this beat (R141) -/
  successes : Nat
deriving DecidableEq, Repr

/-- A beat that a channel has issued and that has no response yet. -/
structure DmaBeat where
  /-- destination side -/
  dst : Bool
  idx : Nat
  va : Nat
  pa : Nat
  len : Nat
  /-- a write's bytes -/
  bytes : List Byte
  /-- an overrun beat (R148) -/
  overrun : Bool
  /-- the translation it was issued through has been removed (R138) -/
  stale : Bool
deriving DecidableEq, Repr

/-- A DMA channel. -/
structure Chan where
  /-- the item it runs -/
  seq : Option Nat
  /-- beats issued on each side -/
  srcNext : Nat
  dstNext : Nat
  out : List DmaBeat
  /-- staged data: source beats read and not yet written, or for PERIPH_IN the beats of the running burst -/
  got : List (Nat × List Byte)
  /-- beats acknowledged beyond the contiguous ones, with their bytes -/
  acked : List (Nat × List Byte)
  /-- beats and bytes acknowledged contiguously, and the checksum over them: CRC-32C state and sum of words (R150) -/
  folded : Nat
  contig : Nat
  crc : Nat
  sum : Nat
  /-- lowest failing beat: index, destination side, cause, virtual address; the index is none for a notice -/
  fail : Option (Option Nat × Bool × Nat × Nat)
  parks : Nat
  parked : Bool
  preempts : Nat
  /-- closed by a cut-in and not issued since -/
  cut : Bool
  halfDone : Bool
  halfSent : Bool
  fullDone : Bool
  fullSent : Bool
  withdrawn : Bool
  overrun : Nat
  /-- beats left of the running burst -/
  burst : Nat
  /-- the peripheral withdraws its line when the running burst ends -/
  lastBurst : Bool
  stored : Bool
deriving DecidableEq, Repr

/-- IOMMU and DMA engine. -/
structure Dx where
  cache : List XEntry
  /-- translations under way: requester, ASID, page address, read, write -/
  walks : List (Nat × Nat × Nat × Bool × Bool)
  parks : List Park
  /-- chans by number -/
  chans : SMap Chan
  /-- channel holding the issue port -/
  port : Option Nat
  /-- last channel served among equals -/
  lastServed : Nat
  /-- an invalidation is under way, and whether an ATS Invalidate Completion is due -/
  invBusy : Bool
  atsInvDue : Bool
  /-- request lines asserted now -/
  lines : Word
  /-- what a peripheral outside the block offers with its assertion, by line -/
  lineData : SMap (List Byte)
  /-- the host has enabled ATS and the Page Request Interface (DX_CFG) -/
  ats : Bool
  pri : Bool
deriving DecidableEq, Repr

/-! ## Memory (chapter 5) -/

/-- States of a member (MCn_CH_STAT.STATE). -/
inductive MState where
  | active | selfRefresh | retired | rebuilding | untrained
deriving DecidableEq, Repr

/-- A member of a parity group. -/
structure Mem1 where
  state : MState
  /-- MR4 multiplier code -/
  rate : Nat
  /-- refreshes postponed -/
  postponed : Nat
  /-- lost as a second member (R116) -/
  lost : Bool
  trained : Bool
deriving DecidableEq, Repr

/-- A row partly written whose merge window is open, with the data units written so far (R113). -/
structure Merge where
  row : Nat
  units : BitVec 8
deriving DecidableEq, Repr

/-- A fabric request to DRAM: a read with what its link check shows, or a write with its bytes. -/
structure DramReq where
  who : Requester
  addr : Nat
  ecc : EccOutcome
  bytes : Option (List Byte)
deriving DecidableEq, Repr

/-- A parity group with its controller and PHY. -/
structure Grp where
  /-- members by number -/
  mem : SMap Mem1
  /-- member whose retirement record is being committed; requests are held (R118) -/
  retiring : Option Nat
  /-- a second member is lost until the next cold boot (R116) -/
  lost : Bool
  /-- rebuild: member, and its training is over -/
  rebuild : Option (Nat × Bool)
  point : Nat
  setB : Bool
  /-- frequency change under way, with its latched target -/
  change : Option Nat
  /-- a GO waits for another group (R126) -/
  waiting : Option Nat
  /-- PLL out of lock: the group is held (R475) -/
  unlocked : Bool
  /-- rows whose merge window is open -/
  merges : List Merge
  /-- training run under way: members and kind -/
  train : Option (Nat × Bool)
  /-- raw ns of the last automatic change -/
  lastAuto : Nat
  /-- fabric requests held while the group serves nothing (R118, R126) -/
  held : List DramReq
deriving DecidableEq, Repr

/-- Everything that holds bytes. -/
structure Ram where
  /-- DRAM cells by channel: (9g + m) × 2^32 + byte offset in the channel; parity cells too (R112) -/
  dram : SMap Byte
  /-- stage SRAM and host memory, by device physical address -/
  sys : SMap Byte
  /-- boot flash, by flash offset -/
  flash : SMap Byte
deriving DecidableEq, Repr

/-! ## Start-up, pins and the security keeper (chapters 19, 21 and 22) -/

/-- SMBus target. -/
structure Smb where
  addr : BitVec 24
  /-- the 4 KiB target buffer -/
  buf : List Byte
  bufReady : Bool
deriving DecidableEq, Repr

/-- JTAG instructions the TAP can hold (R521). -/
inductive TapIr where
  | bypass | idcode | samplePreload | extest | clamp | highz | debug
deriving DecidableEq, Repr

/-- Resets, boot and pins. -/
structure Sys where
  pwrgood : Bool
  /-- RESET_N low at the ball -/
  resetLow : Bool
  /-- a warm or watchdog reset runs and has not been released (R494) -/
  inReset : Bool
  /-- the reset that runs came from RESET_N -/
  fromResetN : Bool
  /-- highest stage of Table 21.3 whose units may leave OFF -/
  stage : Nat
  /-- firmware runs: CC has been released -/
  ccReleased : Bool
  /-- SK has still to check the boot banks (R456) -/
  verifyPending : Bool
  /-- the check has passed -/
  bootOk : Bool
  /-- REF_IN is out of every range: the boot holds after stage 1 (R339) -/
  refHold : Bool
  encoreRunning : Bool
  /-- the next boot was by a thermal trip (R499) -/
  tripCause : Bool
  /-- raw ns at which the boot or the reset began -/
  bootAt : Nat
  /-- raw ns of the last host and firmware kicks (R497) -/
  hostKick : Nat
  /-- tasks of control cores that restart on other cores -/
  coreTasks : Nat
  l0 : Bool
  /-- MSI-X vectors pending, masked or while the link is not in L0, in the order in which they became so (R48, R513) -/
  pend : List Nat
  /-- the MSI-X table words, by byte offset in the table (R24) -/
  msix : SMap Word
  /-- the reset that runs is a cold boot -/
  cold : Bool
  /-- the boot flash answers reads (R456) -/
  flashOk : Bool
  /-- PAEN of each chain, radio × 4 + chain -/
  paen : BitVec 12
  tap : TapIr
  smb : Smb
  /-- control cores that run control has halted (R462) -/
  haltedCores : BitVec 8
deriving DecidableEq, Repr

/-- The security keeper (chapter 19). -/
structure Sk where
  /-- measurement registers, 64 bytes each, by number -/
  mr : SMap (List Byte)
  /-- the hierarchy is available -/
  keys : Bool
  /-- last challenge drawn, 32 bytes, whether it is valid, and the raw ns at which it was drawn -/
  challenge : List Byte
  chalValid : Bool
  chalAt : Nat
  fails : Nat
  /-- raw ns until which CHALLENGE answers RATE -/
  backoffUntil : Nat
  gateOpen : Bool
  level : Nat
  /-- a trial boot is marked for the next boot, with the bank to go back to (R459) -/
  trialNext : Bool
  /-- the running image is a trial -/
  trial : Bool
  bank : Nat
  svn : Nat
  minSvn : Nat
  vendorKey : Nat
  revokeBits : Nat
  wraps : Nat
  rngOk : Bool
  /-- SHA3-512 of the running manifest -/
  manifest : List Byte
  /-- owner debug key hash, 64 bytes -/
  ownerKey : List Byte
  report : List Byte
  endorsement : List Byte
  /-- number of the DRAM scramble key in use -/
  scramble : Nat
  /-- the DUS read path is disabled for good (R464) -/
  dusOff : Bool
  /-- plan version of the running image's channel plans, if it carries them (R500) -/
  plans : Option Nat
  /-- where the running image's vendor kernels have been loaded (R281) -/
  kernelsAt : Option Nat
deriving DecidableEq, Repr

/-! ## Frames (chapters 7, 13 and 14) -/

/-- The RTP header fields that a copy rewrites (R159). -/
structure Rtp where
  ssrc : Word
  pt : Nat
  seq : Nat
  ts : Nat
deriving DecidableEq, Repr

/-- The headers of a frame that routing and forwarding read or rewrite. -/
structure FrameHdr where
  tagged : Bool
  vid : Nat
  pcp : Nat
  dei : Bool
  /-- rewritten MAC addresses, once egress has set them (R317) -/
  dstMac : Option Nat
  srcMac : Option Nat
  /-- 0 not IP, 4, 6 -/
  ip : Nat
  ttl : Nat
  rtp : Option Rtp
deriving DecidableEq, Repr

/-! ## What leaves the block -/

/-- One thing the block sends out, newest first in `Dev.out`. -/
inductive Output where
  /-- an MSI-X message -/
  | msix (vector : Nat)
  /-- the data a bus read returns -/
  | readData (v : Word)
  /-- a Page Request message (R140) -/
  | pageRequest (who : Nat) (pasid : Option Nat) (va : Nat) (rd wr : Bool)
  /-- an ATS Translation Request (R136) -/
  | atsRequest (who : Nat) (va : Nat)
  /-- an ATS Invalidate Completion (R138) -/
  | atsInvalidated
  /-- an answer on SMBus; the empty list stands for no acknowledgement -/
  | smb (bytes : List Byte)
  /-- a word shifted out on TDO -/
  | jtag (v : Nat)
  /-- an address-error response of FB to a requester (R14) -/
  | addressError (who : Requester)
  /-- data or an error answered to a memory read -/
  | memData (who : Requester) (bytes : List Byte)
  | memError (who : Requester)
  /-- a pulse start on PPS_OUT -/
  | pps (rise : Bool)
  /-- a tick delivered to its subscribers: generator, k, nominal ns -/
  | tick (g k : Nat) (nominal : Int)
  /-- a frame on an egress port: its headers as rewritten, its bytes behind them, `badFcs` where it ended with an invalid
  FCS -/
  | frame (port : Nat) (hdr : FrameHdr) (data : List Byte) (badFcs : Bool)
  /-- bursts delivered to a peripheral (R148) -/
  | periph (line : Nat) (bytes : List Byte)
  /-- bytes handed to a host receive queue -/
  | hostQueue (queue : Nat) (head : List Byte) (hdr : FrameHdr) (data : List Byte)
  /-- a picture-loss indication, full intra request or key request to a source -/
  | keyRequest (source : Nat)
  /-- a burst leaves a radio's antenna: AC_TAG KIND (4 and above the sensor tier's), whom it is for, MCS, streams,
  its payload, and its link frames: TYPE, SEQ, headers and body -/
  | air (radio kind to_ mcs streams : Nat) (payload : List Byte) (frames : List (Nat × Nat × FrameHdr × List Byte))
  /-- levels of a GPIO output word -/
  | gpio (levels : Nat)
deriving DecidableEq, Repr

/-! ## Video engines (chapters 8 and 9) -/

/-- A picture in a decoded picture buffer. -/
structure DpbPic where
  poc : Int
  /-- its pool slot; none for a mid-grey substitute (R202) -/
  slot : Option Nat
  tid : Nat
  conc : Bool
  subst : Bool
  /-- waits for output -/
  waiting : Bool
deriving DecidableEq, Repr

/-- What rate control remembers of the last picture of a type (R215). -/
structure RcHist where
  bits : Nat
  budget : Nat
  qp : Nat
  rowBits : List Nat
deriving DecidableEq, Repr

/-- One generation of a stream context (R186). -/
structure VGen where
  dpb : List DpbPic
  lastPoc : Int
  /-- slot of the latest output picture -/
  outSlot : Option Nat
  /-- pictures output so far; a compositor sees a new picture by it -/
  outSerial : Nat
  /-- conformance cropping window of the active parameter set: left, top, width, height -/
  crop : Nat × Nat × Nat × Nat
  /-- encode: index of the next picture since the last IRAP picture; none before the first (R212) -/
  idx : Option Nat
  /-- encode: TemporalId 0 pictures since the last IRAP picture (R217) -/
  tl0 : Nat
  /-- encode: the first refresh period has begun -/
  gdrRuns : Bool
  /-- encode: position of the next TemporalId 0 picture in the running refresh period -/
  band : Option Nat
  refreshPend : Bool
  /-- encode: a key request waits for the next picture (R211) -/
  keyPend : Bool
  resync : Bool
  debt : Nat
  run : Nat
  meanQp : Nat
  histI : Option RcHist
  histP : Option RcHist
deriving DecidableEq, Repr

/-- A job queued to a video engine: a ring item or a job of PX or firmware (R176, R187). -/
structure VJob where
  id : Nat
  item : Option (Nat × Nat)
  ctx : Nat
  encode : Bool
  /-- the fallback that codes or decodes nothing: DECODE_DROP, SKIP_PICTURE -/
  skip : Bool
  lowEffort : Bool
  /-- fallback LAYER_CEIL: highest layer coded, s in [7:4], t in [3:0] -/
  ceil : Option Nat
  gap : Bool
  src : Nat
  len : Nat
  pitch : Nat
  dst : Nat
  dstPitch : Nat
  dstSize : Nat
  asid : Nat
  stamp : Nat
  forceIrap : Bool
  forceRefresh : Bool
  noEmit : Bool
  /-- energy reserved for a job that is not ring work, µJ (R67, R176) -/
  uj : Nat := 0
deriving DecidableEq, Repr

/-- A bound picture: what the entropy engine or the encoder has found, kept apart until it becomes current. -/
structure VPic where
  job : VJob
  gen : VGen
  slot : Option Nat
  out : Option Nat
  /-- failure cause, 0 none -/
  fail : Nat
  flags : Nat
  poc : Int
  tid : Nat
  ptype : Nat
  consumed : Nat
  concUnits : Nat
  missing : Option Int
  /-- this reference picture lost areas of its own (R203) -/
  ownLoss : Bool
  outW : Nat
  outH : Nat
  outX : Nat
  outY : Nat
  /-- encode: rows in all and done, bits, QP and its sum over coded rows -/
  rows : Nat
  row : Nat
  spent : Nat
  qp : Nat
  qpSum : Nat
  coded : Nat
  base : Nat
  budget : Nat
  cap : Nat
  starved : Option Nat
  rowBits : List Nat
  /-- encode: bytes of the slice being formed, slices handed over, and a cut hand-off (R220) -/
  sliceBits : Nat
  slices : Nat
  cut : Bool
  irap : Bool
  refresh : Bool
  switchPt : Bool
  /-- encode: position of this picture in the refresh period, when it carries a band -/
  bandAt : Option Nat
deriving DecidableEq, Repr

/-- An entry of a REF_MISS queue (R201). -/
structure RefMiss where
  ctx : Nat
  poc : Int
  lost : Bool
deriving DecidableEq, Repr

/-- A video engine. -/
structure VEng where
  /-- queued jobs in queue order -/
  queue : List VJob
  /-- bound pictures, the oldest in the pixel engine or the encoder -/
  bound : List VPic
  nextId : Nat
  miss : List RefMiss
  /-- charged pixels with their raw ns, newest first: decoded and encoded, and reference bytes -/
  pixDec : List (Nat × Nat)
  pixEnc : List (Nat × Nat)
  refBytes : List (Nat × Nat)
deriving DecidableEq, Repr

/-- A whole picture of a ring item that goes to PX once COMPLETED is recorded (R219): the job, the encoding it feeds, and
its size in bytes. -/
structure Emission where
  job : Nat
  source : Nat
  enc : Nat
  stamp : Nat
  tid : Nat
  ptype : Nat
  switchPt : Bool
  size : Nat
deriving DecidableEq, Repr

/-- What a stream context holds besides its table entries. -/
structure VCtx where
  cur : VGen
  /-- generations kept apart, by job id, oldest first (R186) -/
  pend : List (Nat × VGen)
  /-- pictures to be handed over at COMPLETED -/
  emits : List Emission := []
  /-- pixel rate charged under R178, and the context is firmware's own -/
  charge : Nat
  fw : Bool
  /-- encode: the compositor output whose published frames it codes (R229) -/
  feed : Option Nat
deriving DecidableEq, Repr

/-! ## Compositors (chapter 10) -/

/-- A layer's source as an opening latches it. -/
inductive LayerPic where
  /-- nothing to show -/
  | none
  /-- a picture in a video pool: handle, slot, address, bytes per sample, slot width and height, cropping window -/
  | video (handle slot base bps w h cx cy cw ch : Nat)
  | buffer (base pitch fmt w h : Nat)
  | solid (y cb cr : Nat)
deriving DecidableEq, Repr

/-- A frame opened and not yet written. -/
structure CpFrame where
  out : Nat
  item : Option (Nat × Nat)
  /-- the output's 256 active words at its opening -/
  cfg : List Word
  layers : List LayerPic
  slot : Nat
  lateMask : Nat
  staleMask : Nat
  openedNs : Nat
  /-- energy reserved for a frame that is not ring work, µJ -/
  uj : Nat := 0
deriving DecidableEq, Repr

/-- A layer of an output. -/
structure CpLayer where
  shown : LayerPic
  /-- output serial of the source when it was last latched -/
  serial : Option Nat
  /-- openings since a new picture was last latched -/
  since : Nat
  lates : Nat
  staleRun : Bool
deriving DecidableEq, Repr

/-- An output. -/
structure CpOut where
  layers : SMap CpLayer
  /-- published slot, and the pool and slot size it lies in (R236) -/
  published : Option Nat
  pubBase : Nat
  pubSize : Nat
  /-- composition items waiting for the next tick -/
  reqs : List (Nat × Nat)
deriving DecidableEq, Repr

/-- A compositor. -/
structure CpUnit where
  outs : SMap CpOut
  /-- frames opened, in opening order -/
  frames : List CpFrame
  /-- stale transitions and mismatches, oldest first: output, layer or region, lost, CRC -/
  stale : List (Nat × Nat × Bool)
  sig : List (Nat × Nat × Bool × Nat)
  pixOut : List (Nat × Nat)
  pixIn : List (Nat × Nat)
  rdBytes : List (Nat × Nat)
  wrBytes : List (Nat × Nat)
deriving DecidableEq, Repr

/-- A context generation before its first picture (R185). -/
def VGen.empty : VGen :=
  { dpb := [], lastPoc := 0, outSlot := none, outSerial := 0, crop := (0, 0, 0, 0), idx := none, tl0 := 0, gdrRuns := false, band := none,
    refreshPend := false, keyPend := false, resync := false, debt := 0, run := 0, meanQp := 0, histI := none,
    histP := none }

/-- An unused context. -/
def VCtx.reset : VCtx := { cur := VGen.empty, pend := [], charge := 0, fw := false, feed := none }

/-- An idle engine. -/
def VEng.reset : VEng :=
  { queue := [], bound := [], nextId := 0, miss := [], pixDec := [], pixEnc := [], refBytes := [] }

/-- A layer that has shown nothing. -/
def CpLayer.reset : CpLayer := { shown := .none, serial := none, since := 0, lates := 0, staleRun := false }

/-- An output before its first frame. -/
def CpOut.reset : CpOut := { layers := [], published := none, pubBase := 0, pubSize := 0, reqs := [] }

/-- An idle compositor. -/
def CpUnit.reset : CpUnit :=
  { outs := [], frames := [], stale := [], sig := [], pixOut := [], pixIn := [], rdBytes := [], wrBytes := [] }


/-! ## Cipher engines (chapter 18) -/

/-- States of a key slot (Table 18.10). -/
inductive SlotState where
  | empty | loaded | exhausted | test
deriving DecidableEq, Repr

/-- The highest index seen and a 128-bit map of the 128 indices below it (R440). -/
structure IdxWin where
  high : Option Nat
  map : Nat
deriving DecidableEq, Repr

/-- One SSRC record of an SRTP slot: encryption and decryption, SRTP and SRTCP (R440). -/
structure SsrcRec where
  ssrc : Word
  enc : IdxWin
  dec : IdxWin
  encC : IdxWin
  decC : IdxWin
deriving DecidableEq, Repr

/-- A key slot (R430). -/
structure KeySlot where
  state : SlotState
  kind : Nat
  use : Nat
  kekId : Nat
  fixed : Nat
  limit : Nat
  /-- invocations drawn (R439) -/
  count : Nat
  loadNum : Nat
  /-- key material, 64 bytes -/
  key : List Nat
  recs : List SsrcRec
deriving DecidableEq, Repr

/-- A ring request in progress whose output has begun to be released, or whose scrub has begun (R435, R442). -/
structure CeRun where
  ring : Nat
  seq : Nat
  /-- plaintext has been released to DST -/
  released : Bool
  /-- a scrub is under way, ending in this status and cause -/
  scrub : Option (Status × Nat)
deriving DecidableEq, Repr

/-- A cipher engine. -/
structure CeUnit where
  /-- lock mode that takes effect once no request is in progress (R448) -/
  pendMode : Option Nat
  runs : List CeRun
  bytes : List (Nat × Nat)
  scrubbed : Nat
deriving DecidableEq, Repr

/-- A key load whose item has finished and whose COMPLETED is being recorded (R97). -/
structure KeyLoad where
  ring : Nat
  seq : Nat
  slot : Nat
  key : KeySlot
deriving DecidableEq, Repr

/-- The store the two engines share. -/
structure KeyStore where
  slots : SMap KeySlot
  /-- GCM and CTR loads that took a LOADNUM this boot (R438) -/
  loads : Nat
  pend : List KeyLoad
deriving DecidableEq, Repr

/-- No index seen. -/
def IdxWin.fresh : IdxWin := { high := none, map := 0 }

/-- An empty slot. -/
def KeySlot.empty : KeySlot :=
  { state := .empty, kind := 0, use := 0, kekId := 0, fixed := 0, limit := 0, count := 0, loadNum := 0, key := [], recs := [] }

/-- An idle engine. -/
def CeUnit.reset : CeUnit := { pendMode := none, runs := [], bytes := [], scrubbed := 0 }

/-! ## DSP clusters (chapter 12) -/

/-- What a job that firmware queues for AM works on (R176, R247): the leg, decode or encode, its frame's tick in ns. -/
structure AudioTag where
  leg : Nat
  enc : Bool
  tick : Int
deriving DecidableEq, Repr

/-- A DSP job. -/
structure DsJob where
  item : Option (Nat × Nat)
  audio : Option AudioTag
  entry : Nat
  src : Nat
  len : Nat
  dst : Nat
  stateVa : Nat
  arg0 : Word
  arg1 : Word
  ctx : Word
  asid : Nat
  /-- presented ns by which it must be bound; none for a ring item -/
  deadline : Option Int
  /-- generation of the stream state it reads (R285) -/
  gen : Nat
  parked : Bool
  uj : Nat
deriving DecidableEq, Repr

/-- A loaded kernel (R280, R281). -/
structure DsKernel where
  /-- its span in the code region -/
  base : Nat
  codeBytes : Nat
  constBytes : Nat
  cls : Nat
  inMax : Nat
  outMax : Nat
  stateBytes : Nat
  scratch : Nat
  /-- instruction limit, thousands -/
  maxK : Nat
  entry : Nat
deriving DecidableEq, Repr

/-- A running block repeat: its body's first and last instruction, and the passes left with the running one (R275). -/
structure Rep where
  first : Nat
  last : Nat
  left : Nat
deriving DecidableEq, Repr

/-- A lane that runs a job (Table 12.1). -/
structure Lane where
  job : DsJob
  kernel : Nat
  /-- its frame: base, and size in bytes -/
  base : Nat
  size : Nat
  d : Vector Word 16
  ac : Vector (BitVec 40) 4
  /-- repeat depth at the guard overflow that holds the accumulator (R269) -/
  held : Vector (Option Nat) 4
  a : Vector (BitVec 18) 16
  ofs : Vector (BitVec 18) 16
  cbBase : Vector (BitVec 18) 8
  cbLen : Vector (BitVec 18) 8
  bexp : Nat
  ovf : BitVec 4
  sat : Bool
  bxEn : Bool
  /-- innermost first, at most four -/
  reps : List Rep
  pc : Nat
  /-- instructions executed -/
  count : Nat
deriving DecidableEq, Repr

/-- A cluster. -/
structure DsUnit where
  /-- firmware's jobs, in queue order -/
  queue : List DsJob
  lanes : SMap (Option Lane)
  /-- local memory -/
  lmem : SMap Byte
  kernels : SMap (Option DsKernel)
  /-- bound ring items that have parked -/
  parked : List (Nat × Nat)
deriving DecidableEq, Repr

/-- An idle cluster. -/
def DsUnit.reset : DsUnit := { queue := [], lanes := [], lmem := [], kernels := [], parked := [] }

/-! ## Audio mixer (chapter 11). Gains in thousandths of a dB; none stands for mute. -/

/-- How a gain moves (R255, R256). -/
inductive Move where
  | still
  /-- under a ramp generator: the value it started from, samples done and samples in all -/
  | ramp (from_ : Option Int) (done total : Nat)
  /-- waits for a generator or a zero crossing, until this presented ns -/
  | wait (till : Int)
  /-- has found its zero crossing at this sample of the frame now open -/
  | step (at_ : Nat)
deriving DecidableEq, Repr

/-- A gain. -/
structure AmGain where
  cur : Option Int
  target : Option Int
  move : Move
deriving DecidableEq, Repr

/-- A route crossfade (R260): old mix, samples done and samples in all. -/
structure Xfade where
  old : Nat
  /-- what the leg contributed to the old mix when the crossfade began -/
  con : Option Int
  done : Nat
  total : Nat
deriving DecidableEq, Repr

/-- What AM keeps of a leg. -/
structure AmLeg where
  /-- the leg is in a mix: enabled, or fading out -/
  active : Bool
  leaving : Bool
  mix : Nat
  /-- contribution gain and output gain -/
  con : AmGain
  out : AmGain
  /-- level L, thousandths of a dB; none before the first frame -/
  level : Option Int
  /-- ms below the silence threshold -/
  below : Nat
  silent : Bool
  /-- a decode was queued for the open frame, and its output once it has finished -/
  due : Bool
  pcm : Option (List Int)
  /-- the last frame used -/
  prev : List Int
  /-- the contribution was faded out by a late frame and rises again -/
  faded : Bool
  /-- last output frame -/
  prevOut : List Int
  xfade : Option Xfade
  /-- a MIX write kept for the end of the crossfade -/
  nextMix : Option Nat
  /-- presented ns of the tick of the last frame whose decode was queued -/
  lastTick : Int
  /-- energy reserved for the leg's mix job, µJ -/
  uj : Nat
  /-- number of the last audio packet sent, and its timestamp -/
  outSeq : Nat
  outTs : Nat
  roc : Nat
deriving DecidableEq, Repr

/-- A mix: the nominal presented ns of the tick of its open frame, and its selection. -/
structure AmMix where
  openTick : Option Int
  sel : List Nat
deriving DecidableEq, Repr

/-- The mixer. -/
structure Am where
  legs : SMap AmLeg
  mixes : SMap AmMix
  /-- window writes not yet applied: address and words (R265) -/
  writes : List (Nat × List Word)
  /-- gains that wait for a generator, in the order written: leg, output gain? -/
  waitq : List (Nat × Bool)
  /-- nominal presented ns of the last tick -/
  tick : Int
  /-- tap buffers -/
  taps : SMap (List Byte)
deriving DecidableEq, Repr

def AmGain.mute : AmGain := { cur := none, target := none, move := .still }

/-- A leg outside every mix. -/
def AmLeg.reset : AmLeg :=
  { active := false, leaving := false, mix := 0, con := AmGain.mute, out := AmGain.mute, level := none, below := 0,
    silent := false, due := false, pcm := none, prev := [], faded := false, prevOut := [], xfade := none, nextMix := none,
    lastTick := 0, uj := 0, outSeq := 0, outTs := 0, roc := 0 }

def AmMix.reset : AmMix := { openTick := none, sel := [] }

def Am.reset : Am := { legs := [], mixes := [], writes := [], waitq := [], tick := 0, taps := [] }

/-! ## Queues and the cell pool (chapter 13) -/

/-- The stored bytes of a frame: a payload and the cells that hold it (R292). -/
structure Body where
  source : Nat
  /-- cells in order -/
  cells : List Nat
  data : List Byte
  /-- the end mark has been written, and it carries ERR -/
  done : Bool
  err : Bool
  /-- packets and copies still to be read -/
  refs : Nat
  /-- a replication walk may still add copies -/
  walking : Bool
  /-- its cells belong to its source's ingress reserve: not yet classified, or dropped -/
  inReserve : Bool
  /-- dropped: what still arrives is freed at the end mark -/
  dropped : Bool
  /-- PX has named its queue or dropped it -/
  classified : Bool
deriving DecidableEq, Repr

/-- A packet linked in a queue, or being read (Tables 13.1 and 13.2). -/
structure Pkt where
  body : Nat
  /-- header cell of a copy -/
  header : Option Nat
  /-- LENGTH as admitted -/
  len : Nat
  hdr : FrameHdr
  yellow : Bool
  /-- route version and next hop of a routed packet (R320) -/
  ver : Option Nat
  nh : Nat
  /-- ring and sequence number of an assured packet (R90) -/
  assured : Option (Nat × Nat)
  /-- leg of a copy, for INFLIGHT -/
  leg : Option Nat
  link : Nat
  source : Nat
  stamp : Nat
  /-- raw ns of admission -/
  admitted : Nat
  /-- counted as held by the gate fit check -/
  held : Bool
deriving DecidableEq, Repr

/-- A packet whose read has begun and whose cells still arrive: its consumer's port, 32 for PX, 33 for the host. -/
structure Reading where
  port : Nat
  queue : Nat
  pkt : Pkt
deriving DecidableEq, Repr

/-- The cell pool and its queues. -/
structure Qm where
  /-- bodies by number -/
  bodies : SMap (Option Body)
  nextBody : Nat
  /-- queues by index, head first -/
  queues : SMap (List Pkt)
  reading : List Reading
  /-- the body of the frame each ingress source is writing -/
  rx : SMap (Option Nat)
  /-- cells taken out of use (Table 13.5) -/
  outOfUse : List Nat
  flushing : Option Nat
  /-- F was 0 when it was last looked at -/
  empty : Bool
deriving DecidableEq, Repr

/-! ## Traffic manager (chapter 14) -/

/-- A gate configuration in use (R325). -/
structure GateCfg where
  en : Bool
  bank : Nat
  len : Nat
  cycle : Nat
  base : Nat
deriving DecidableEq, Repr

/-- The gate state of a port. -/
structure Gate where
  oper : GateCfg
  /-- presented time in ns at which the operational list started, and its running entry -/
  start : Int
  index : Nat
  pend : Option (GateCfg × Nat)
deriving DecidableEq, Repr

/-- Weighted round robin of a port (and air link): the queue whose turn is open and the last one (R322). -/
structure Turn where
  cur : Option Nat
  last : Option Nat
deriving DecidableEq, Repr

/-- A monitor's run (R329). -/
structure Mon where
  wr : Nat
  /-- samples left before the freeze, once armed -/
  left : Option Nat
  frozen : Bool
deriving DecidableEq, Repr

/-- An assured wire frame in a port's transmit elastic buffer (R98). -/
structure WireTx where
  ring : Nat
  seq : Nat
  port : Nat
  hdr : FrameHdr
  data : List Byte
deriving DecidableEq, Repr

/-- An assured frame whose cells a reset takes, kept to be sent again by encore (Table 21.4): the queue it stood in and its
air link. -/
structure KeptFrame where
  w : WireTx
  queue : Nat
  link : Nat
deriving DecidableEq, Repr

structure Tm where
  turns : SMap Turn
  /-- tokens in millibits of shapers that have been named (R323) -/
  tokens : SMap (Option Int)
  gates : SMap Gate
  mons : SMap Mon
  wire : List WireTx
  kept : List KeptFrame
  /-- bytes sent, by queue -/
  qBytes : SMap Nat
  /-- sent bytes with their raw ns, by port -/
  sent : SMap (List (Nat × Nat))
deriving DecidableEq, Repr

/-! ## Packet engine (chapters 7 and 14) -/

/-- A live route version: its number, its table words and the packets' versions follow it (R319, R320). -/
structure RtVer where
  num : Nat
  words : SMap Word
deriving DecidableEq, Repr

/-- An access unit being assembled for a decode leg (R196). -/
structure AuState where
  ts : Nat
  bytes : Nat
  gap : Bool
  nonref : Bool
  nextSeq : Nat
deriving DecidableEq, Repr

/-- What PX and firmware keep about a leg besides its entries. -/
structure LegX where
  /-- raw ns of the last picture-loss indication (R203) -/
  pliAt : Option Nat
  /-- jitter anchor: presented ns, first timestamp and SSRC (R175) -/
  anchor : Option (Int × Nat × Word)
  lastTs : Nat
  au : Option AuState
  /-- interarrival jitter in 1/16 ns, and the last transit time in ns (R175) -/
  jitter : Nat
  transit : Int
  /-- raw ns of the last change of D -/
  dAt : Nat
  /-- the jitter store: presented ns at which each payload is due, and its bytes (R175) -/
  store : List (Int × List Byte)
  /-- audio levels of the stored payloads that carry the extension, by due time (R258) -/
  levels : List (Int × Nat)
deriving DecidableEq, Repr

/-- What PX keeps about an encoding. -/
structure EncX where
  /-- highest input sequence number seen -/
  high : Option Nat
  /-- timestamps of the newest picture and of the one before it -/
  ts : Option Nat
  prevTs : Option Nat
  /-- highest RTP sequence number with its rollover count (RFC 3711) -/
  roc : Nat
  /-- bytes forwarded in the last second: raw ns, bytes × 4 + TemporalId -/
  log : List (Nat × Nat)
  /-- a refresh period runs -/
  period : Bool
  /-- local encodings: next sequence number (R219) -/
  outSeq : Nat
deriving DecidableEq, Repr

/-- What PX keeps about a copy entry besides its state entry. -/
structure CopyX where
  /-- presented ns and output timestamp of the last forwarded packet (R161) -/
  lastAt : Int
  lastTs : Nat
  started : Bool
  /-- a decrement has been applied since the highest sequence number was seen (R160) -/
  dec : Bool
  up : Nat
  /-- raw ns since which a move to another encoding is pending (R172) -/
  since : Option Nat
  /-- the current picture is being forwarded -/
  inPic : Bool
deriving DecidableEq, Repr

/-- A packet on its way through a replication list (R163). -/
structure PxWalk where
  body : Nat
  source : Nat
  enc : Nat
  rtp : Rtp
  len : Nat
  tid : Nat
  ptype : Nat
  marked : Bool
  newPic : Bool
  /-- the packet is the highest of its encoding and one above the former highest -/
  next : Bool
  /-- it arrived below the highest -/
  late : Bool
  node : Nat
  done : Nat
  stamp : Nat
deriving DecidableEq, Repr

structure Px where
  cur : Nat
  vers : List RtVer
  /-- a SWAP waits for the oldest version or is running -/
  swapWait : Bool
  swapRun : Bool
  changes : Nat
  /-- buckets TC_B and TP_B of written policers, millibits (R314) -/
  buckets : SMap (Option (Nat × Nat))
  legs : SMap LegX
  encs : SMap EncX
  copies : SMap CopyX
  /-- raw ns of the last key request of each source (R172) -/
  keyAt : SMap (Option Nat)
  walks : List PxWalk
  /-- air links reported LOST (R174) -/
  lostLinks : List Nat
  /-- frames handled: raw ns -/
  rate : List (Nat × Nat)
deriving DecidableEq, Repr

/-! ## Jobs without a ring, held by admission (R176) -/

/-- What a held job does once it is admitted. -/
inductive JobWhat where
  | decode (handle : Nat) (j : VJob)
  | encode (handle : Nat) (j : VJob)
  | compose (cp out : Nat)
  /-- audio decode or encode of a leg on a cluster -/
  | audio (cluster : Nat) (j : DsJob)
  /-- the mix of a leg -/
  | mix (leg : Nat)
deriving DecidableEq, Repr

/-- A job held by admission: its class and size, and the fallback's where one is usable. -/
structure HeldJob where
  cls : Nat
  units : Nat
  fb : Option (Nat × Nat)
  page : Page
  what : JobWhat
deriving DecidableEq, Repr

/-- A queue entry no consumer has turned to. -/
def Turn.reset : Turn := { cur := none, last := none }

/-- No gate list. -/
def Gate.reset : Gate :=
  { oper := { en := false, bank := 0, len := 0, cycle := 0, base := 0 }, start := 0, index := 0, pend := none }

def Mon.reset : Mon := { wr := 0, left := none, frozen := false }

def Qm.reset : Qm :=
  { bodies := [], nextBody := 0, queues := [], reading := [], rx := [], outOfUse := [], flushing := none, empty := false }

def Tm.reset : Tm := { turns := [], tokens := [], gates := [], mons := [], wire := [], kept := [], qBytes := [], sent := [] }

def LegX.reset : LegX :=
  { pliAt := none, anchor := none, lastTs := 0, au := none, jitter := 0, transit := 0, dAt := 0, store := [], levels := [] }

def EncX.reset : EncX := { high := none, ts := none, prevTs := none, roc := 0, log := [], period := false, outSeq := 0 }

def CopyX.reset : CopyX :=
  { lastAt := 0, lastTs := 0, started := false, dec := false, up := 0, since := none, inPic := false }

def Px.reset : Px :=
  { cur := 0, vers := [{ num := 0, words := [] }], swapWait := false, swapRun := false, changes := 0, buckets := [],
    legs := [], encs := [], copies := [], keyAt := [], walks := [], lostLinks := [], rate := [] }


/-! ## Radios and the air (chapters 16 and 17) -/

/-- A link frame of a burst that AC sends (Table 17.3). -/
structure AirFrame where
  /-- 0 data, 1 flood, 2 block acknowledgement, 3 control -/
  ftype : Nat
  ackReq : Bool
  seq : Nat
  hdr : FrameHdr
  body : List Byte
  /-- ring and sequence number of an assured item -/
  item : Option (Nat × Nat)
  /-- the item was already STARTED when this burst was assembled -/
  again : Bool
  /-- queue and packet of a frame that TM chose -/
  pkt : Option (Nat × Pkt)
deriving DecidableEq, Repr

/-- What a burst is for. -/
inductive BurstKind where
  /-- a grant of a card, ours or a partner's -/
  | grant
  | caller
  /-- the normal exchange with a sensor -/
  | exchange
  /-- a run of Table 17.7 -/
  | run
  | discovery
  | answer
deriving DecidableEq, Repr

/-- A burst assembled for a radio, or on air. -/
structure Burst where
  kind : BurstKind
  /-- link of a grant, index of a sensor -/
  to_ : Nat
  /-- slot boundary, presented ns -/
  start : Int
  durNs : Nat
  mcs : Nat
  streams : Nat
  /-- plan index of its channel -/
  chan : Nat
  /-- EIRP of R413, 0.5 dBm, signed -/
  eirp : Int
  frames : List AirFrame
  /-- payload of a caller, a sensor frame, a discovery call or an answer -/
  payload : List Byte
  /-- coded blocks in all, and those whose end has come -/
  blocks : Nat
  block : Nat
  chains : BitVec 4
  /-- it underran: nothing of it is emitted -/
  dead : Bool
deriving DecidableEq, Repr

/-- A radio with its baseband and converter chains. -/
structure RadioX where
  /-- air mode: 0 SC20 … 3 SC160, 4 GFSK -/
  mode : Nat
  /-- centre frequency, 250 kHz -/
  carrier : Nat
  /-- raw ns at which a retune has settled (R365) -/
  settled : Nat
  /-- off air after an escalated LO_UNLOCK -/
  offAir : Bool
  /-- bursts assembled and not yet started, in order of their boundaries -/
  ready : List Burst
  onAir : Option Burst
  /-- chains that GO or AUTO asks CV to calibrate, and the last junction calibrated at -/
  calReq : BitVec 4
  calTj : Option Int
  calAt : Nat
  /-- control lines asserted, per chain: T/R switch at transmit, LNA bypass; codes of the bias DACs -/
  tr : BitVec 4
  lnaByp : BitVec 4
  bias : List Nat
  /-- mean iterations, SNR and so on are kept in their registers; quadrille from which the radio carries callers and grants
  again after a sensor run (R419) -/
  holdTill : Nat
  /-- quadrilles of a re-acquisition scan left (R424) -/
  scan : Nat
  /-- changes of the active card (Table 17.2) -/
  cardVer : Nat
deriving DecidableEq, Repr

/-- A frame held for its place in sequence: SEQ, TYPE, raw ns of its arrival, ingress source and body (R406). -/
structure HeldFrame where
  seq : Nat
  ftype : Nat
  at_ : Nat
  src : Nat
  frame : List Byte
deriving DecidableEq, Repr

/-- What AC keeps of a link besides its entries. -/
structure AirLink where
  /-- streams seen in the peer's bursts -/
  peerStreams : Option Nat
  /-- last 1,024 SEQs delivered, newest first -/
  delivered : List Nat
  held : List HeldFrame
  /-- consecutive quadrilles with an UP grant and no burst decoded (R409) -/
  missed : Nat
  /-- a burst was decoded in this quadrille, and an UP grant fell in it -/
  heard : Bool
  granted : Bool
  /-- data frames sent and not yet reported on -/
  sent : List Nat
  /-- reported frames of the last quadrilles: quadrille, acknowledged -/
  ratio : List (Int × Bool)
  /-- data frames received and not yet acknowledged -/
  owed : List Nat
  /-- flood copies that wait for the next DOWN grant -/
  floods : List (List Byte)
  /-- SNR of the last burst received, 0.5 dB -/
  rxSnr : Nat
deriving DecidableEq, Repr

/-- What AC keeps of a sensor besides its entries. -/
structure SensorX where
  /-- last measured wake and the one before, presented ns -/
  wake : Option Int
  prev : Option Int
  seqDown : Nat
  /-- raw ns of the last exchange -/
  lastEx : Nat
  /-- shift already applied by the sensor's next sleep, ns -/
  shift : Int
  /-- end of the last downlink, presented ns, while its uplink is awaited -/
  awaits : Option Int
  /-- item that the exchange carries -/
  item : Option (Nat × Nat)
  /-- the running step's quadrille has been set -/
  runs : Bool
deriving DecidableEq, Repr

/-- What AC keeps of a partner besides its entry. -/
structure PartnerX where
  known : Bool
  /-- last of the quadrilles that the partner announced without a caller, by its own number -/
  holdTill : Nat
  clash : Bool
  /-- |ε| is above the guard -/
  drift : Bool
deriving DecidableEq, Repr

/-- A lost or found transition (AC_LOST_POP). -/
structure LostEntry where
  index : Nat
  kind : Nat
  found : Bool
  lost : Bool
deriving DecidableEq, Repr

/-- The air controller. -/
structure Air where
  /-- number of the quadrille last assembled -/
  quad : Int
  /-- presented ns before which nothing is sent after a step (R396) -/
  cutTill : Option Int
  /-- radios whose next caller carries STEPPED -/
  stepped : BitVec 3
  /-- radios on which a caller has been sent since AC started (R492) -/
  called : BitVec 3
  radios : SMap RadioX
  links : SMap AirLink
  sensors : SMap SensorX
  partners : SMap PartnerX
  /-- seen cache: ORIGIN, FSEQ, raw ns, newest first (R425) -/
  seen : List (Nat × Nat × Nat)
  fseq : Nat
  /-- transmissions on hopping radios: radio, channel, raw ns, duration (R414) -/
  dwell : List (Nat × Nat × Nat × Nat)
  pops : List LostEntry
  /-- delivered frames that wait for PX: source and bytes -/
  toPx : List (Nat × List Byte)
  /-- sensor-tier receive queues, by radio (Table 6.5) -/
  rxq : SMap (List (List Byte))
  /-- sensors that wait for a run, in the order in which they failed (R419) -/
  runq : List Nat
  /-- the sensor whose run is on -/
  running : Option Nat
  /-- hardware identifiers decoded in the open sleepy window (R420) -/
  window : Option (List Nat)
deriving DecidableEq, Repr

def RadioX.reset : RadioX :=
  { mode := 0, carrier := 0, settled := 0, offAir := false, ready := [], onAir := none, calReq := 0, calTj := none, calAt := 0,
    tr := 0, lnaByp := 0, bias := [0, 0, 0, 0], holdTill := 0, scan := 0, cardVer := 0 }

def AirLink.reset : AirLink :=
  { peerStreams := none, delivered := [], held := [], missed := 0, heard := false, granted := false, sent := [], ratio := [],
    owed := [], floods := [], rxSnr := 0 }

def SensorX.reset : SensorX :=
  { wake := none, prev := none, seqDown := 0, lastEx := 0, shift := 0, awaits := none, item := none, runs := false }

def PartnerX.reset : PartnerX := { known := false, holdTill := 0, clash := false, drift := false }

def Air.reset : Air :=
  { quad := 0, cutTill := none, stepped := 0, called := 0, radios := [], links := [], sensors := [], partners := [], seen := [], fseq := 0,
    dwell := [], pops := [], toPx := [], rxq := [], runq := [], running := none, window := none }
/-! ## The whole block -/

/-- Everything the block holds but the queue of waiting commands and the fabric's tags. -/
structure Dev where
  /-- what has left the block, newest first -/
  out : List Output
  /-- data of the last bus read -/
  readData : Word
  /-- the model's own counter: how many free values have been drawn (assumption log 2) -/
  fresh : Nat
  pages : Pages
  ps : PsState
  tu : Time
  en : Energy
  wk : Work
  dx : Dx
  /-- parity groups by number -/
  grps : SMap Grp
  ram : Ram
  sys : Sys
  sk : Sk
  ves : SMap VEng
  vctx : SMap VCtx
  cps : SMap CpUnit
  keys : KeyStore
  ces : SMap CeUnit
  qm : Qm
  tm : Tm
  px : Px
  held : List HeldJob
  dss : SMap DsUnit
  am : Am
  air : Air
  /-- effects on the whole block that a register write of the running command asks for, in order; empty between commands -/
  asks : List Ask
deriving DecidableEq, Repr

/-- The state: the commands that wait, first in first out; the fabric's tags; and the rest of the block. -/
structure State where
  pending : List Instr
  tags : Fabric
  dev : Dev
deriving DecidableEq, Repr

/-! ## Reset -/

/-- The header of a page at a cold reset: stage-1 pages are enabled by hardware at PWRGOOD and start (Tables 2.5, 2.6). -/
def Hdr.reset (p : Nat) : Hdr :=
  let k := kindOf (pg p)
  let on := stageOf k == 1
  let sev (i : Nat) : Nat := (sevReset k i).code
  let word (base : Nat) : Word := BitVec.ofNat 32 ((List.range 16).foldl (fun a i => a + sev (base + i) * 4 ^ i) 0)
  { enable := on, drainReturn := false, rst := false, commitAt := 0, state := if on then .starting else .off,
    commitPending := false, bowAt := 0, inflight := 0, continuous := false, raw := 0, carriedLo := 0, carriedHi := 0,
    persists := 0, en := 0, sevLo := word 0, sevHi := word 16, hist := [], limit := (retryReset k).1,
    windowMs := (retryReset k).2, counted := [], reqVp := 4, grantedVp := 4, pace := 0, pllLock := false,
    refPresent := false, unlockSeen := false, clkMhz := 0, requal := 0 }

/-- A persistent word not yet written: its home cell, never remapped. -/
def PsWord.home (i : Nat) : PsWord := { slot := i, remaps := 0, worn := false, total := 0 }

/-- No item result yet. -/
def Result.none : Result :=
  { status := .done, cause := 0, instance_ := 0xFF, engine := 0, flags := 0, result0 := 0, result1 := 0, eres := 0 }

/-- A ledger entry that no epoch makes valid. -/
def LEntry.invalid : LEntry :=
  { valid := false, desc := 0, state := .accepted, form := .primary, encored := false, inst := 0, epoch := 0,
    reservedUj := 0, engineState := 0, result := Result.none }

/-- A ring header that no epoch makes valid. -/
def LHeader.invalid : LHeader := { valid := false, acceptSeq := 0, postedSeq := 0, epoch := 0 }

/-- A ring that has never been enabled. -/
def Ring.reset : Ring :=
  { enabled := false, halted := false, haltCause := 0, acceptSeq := 0, postedSeq := 0, sqTail := 0, cqTail := 0,
    head := .none, hold := 0, heldSeq := none, admHeldSeq := none, posting := false, sinceIrq := 0, delayArmed := false,
    priorAccept := 0, priorPosted := 0 }

/-- An idle channel. -/
def Chan.reset : Chan :=
  { seq := none, srcNext := 0, dstNext := 0, out := [], got := [], acked := [], folded := 0, contig := 0, crc := 0xFFFFFFFF,
    sum := 0, fail := none, parks := 0, parked := false, preempts := 0, cut := false, halfDone := false, halfSent := false,
    fullDone := false, fullSent := false, withdrawn := false, overrun := 0, burst := 0, lastBurst := false, stored := false }

/-- A member before its first training (R128). -/
def Mem1.reset : Mem1 := { state := .untrained, rate := 1, postponed := 0, lost := false, trained := false }

/-- A parity group at a cold reset. -/
def Grp.reset : Grp :=
  { mem := [], retiring := none, lost := false, rebuild := none, point := 0, setB := false, change := none,
    waiting := none, unlocked := false, merges := [], train := none, lastAuto := 0, held := [] }

/-- The tag partitions of Table 1.3. -/
def Parts.reset : Parts := { dx := 4096, ve := 512, cp := 512, shared := 2048 }

/-- No tag taken. -/
def Fabric.reset : Fabric :=
  { parts := Parts.reset, pendDx := none, pendVe := none, pendCp := none, flight := [], waiters := [] }

/-- Time at a cold boot (R360): raw and presented time from 0, ARMED = 1, slew rate 50 ppm; REF_IN of 20 MHz, the
frequency whose reset values Table 15.7 gives. -/
def Time.reset : Time :=
  { raw := 0, inc := 50 * 2 ^ 32, nominal := 50 * 2 ^ 32, pendInc := none, offset := 0, anchor := 0, rate := 0,
    pendRate := none, pendStep := none, rem := 0, slewPpm := 50, armed := true, last := 0, refusals := 0, nextK := [],
    sync := 0, fromHoldover := false, good := 0, refusedOffsets := [], enteredAt := 0, ppsLast := none,
    ppsSilent := false, txts := [], txtsLost := 0, refPresent := true, ppsOut := false, ppsOutUntil := 0 }

/-- Energy at a cold reset: meters and windows at 0, the shipped budgets in force (Table 3.9). -/
def Energy.reset : Energy :=
  { meters := [], shortW := List.replicate 10 0, longW := List.replicate 10 0, meterW := [], reserved := 0,
    bShort := 1430000, bLong := 130000000, descS := none, descL := none, overrun := false, gpio := 0, onBatt := false,
    shortRun := [], heldSince := [], lastRelease := [], liftedSince := [], hot := 0, cold := 0,
    hotForce := false, heatForced := [], edgeHot := 3, edgeCold := 3, forced := [], breach := [], tripped := false }

/-- No work. -/
def Work.reset : Work :=
  { rings := [], items := [], copyA := ⟨[], []⟩, copyB := ⟨[], []⟩, okA := true, okB := true, epoch := 0, ckSeq := [],
    ckTbl := [], ckCfg := [], ckSlot := 0 }

/-- An empty translation cache and idle channels. -/
def Dx.reset : Dx :=
  { cache := [], walks := [], parks := [], chans := [], port := none, lastServed := 255, invBusy := false,
    atsInvDue := false, lines := 0, lineData := [], ats := false, pri := false }

/-- Persistent store as shipped. -/
def PsState.reset : PsState :=
  { nv := [], words := [], wear := [], queue := [], sparesUsed := 0, lastCommitMs := 0, coreRetired := 0,
    trainStored := [], oscRate := 0, oscValid := false, oscAge := 0, epoch := 0 }

/-- Right after a rise of PWRGOOD: stage 1 starts, SK has not checked the banks. -/
def Sys.reset : Sys :=
  { pwrgood := true, resetLow := false, inReset := false, fromResetN := false, stage := 1, ccReleased := false,
    verifyPending := true, bootOk := false, refHold := false, encoreRunning := false, tripCause := false, bootAt := 0, hostKick := 0,
    coreTasks := 0, l0 := false, pend := [], msix := [], cold := true, flashOk := true, paen := 0, tap := .idcode,
    smb := { addr := 0, buf := [], bufReady := false }, haltedCores := 0 }

/-- SK at a cold boot: measurements zero, no keys formed yet. -/
def Sk.reset : Sk :=
  { mr := [], keys := false, challenge := [], chalValid := false, chalAt := 0, fails := 0, backoffUntil := 0, gateOpen := false, level := 0,
    trialNext := false, trial := false, bank := 0, svn := 0, minSvn := 0, vendorKey := 0, revokeBits := 0, wraps := 0,
    rngOk := true, manifest := [], ownerKey := [], report := [], endorsement := [],
    scramble := 0, dusOff := false, plans := none, kernelsAt := none }

/-- Pages at a cold reset: every register at the Reset column of its table. -/
def Pages.reset : Pages :=
  { regs := [], shadow := [], tbl := [], tblSh := [], latch := [], hdrs := [], waiting := [] }

/-- The block right after the rise of PWRGOOD that starts a cold boot (R492, Table 21.4). -/
def Dev.reset : Dev :=
  { out := [], readData := 0, fresh := 0, pages := Pages.reset, ps := PsState.reset, tu := Time.reset,
    en := Energy.reset, wk := Work.reset, dx := Dx.reset, grps := [], ram := { dram := [], sys := [], flash := [] },
    sys := Sys.reset, sk := Sk.reset,
    ves := [], vctx := [], cps := [], keys := { slots := [], loads := 0, pend := [] }, ces := [], qm := Qm.reset, tm := Tm.reset, px := Px.reset, held := [], dss := [], am := Am.reset,
    air := Air.reset, asks := [] }

/-- The state after reset: an empty queue, the shipped tag partitions, the block at a cold boot. -/
def State.reset : State := { pending := [], tags := Fabric.reset, dev := Dev.reset }

end Sys2Proof.Machine
end

