-- ==== Sys2Proof/Machine/Tables.lean ====
section
/-! DEFINITION. The table windows: which entries each page's window reaches, which bits of DATA0–3 a write stores and
what they read after reset (the table-window tables of the chapters). -/

namespace Sys2Proof.Machine

/-- A range of table entries: addresses lo, lo + stride, … up to hi, writable masks and reset values of DATA0–3. -/
structure TblRange where
  lo : Nat
  hi : Nat
  stride : Nat
  rw : List Nat
  reset : List Nat
  /-- writes go to shadows that a bow makes active (R34) -/
  shadowed : Bool
deriving DecidableEq, Repr

/-- A range whose entries reset to zero. -/
def trng (lo hi m0 m1 m2 m3 : Nat) : TblRange := ⟨lo, hi, 1, [m0, m1, m2, m3], [0, 0, 0, 0], false⟩

/-- A range of entries `stride` apart. -/
def tst (stride lo hi m0 m1 m2 m3 : Nat) : TblRange := ⟨lo, hi, stride, [m0, m1, m2, m3], [0, 0, 0, 0], false⟩

/-- A range with reset values. -/
def TblRange.from (r : TblRange) (r0 r1 r2 r3 : Nat) : TblRange := { r with reset := [r0, r1, r2, r3] }

/-- A shadowed range. -/
def TblRange.sh (r : TblRange) : TblRange := { r with shadowed := true }

/-- All 32 bits. -/
abbrev all32 : Nat := 0xFFFFFFFF

/-- Shipped timestamp corrections in ps, receive and transmit (Table 15.5). -/
def tuCorrection (e i : Nat) : Nat :=
  let row : Nat × Nat :=
    if e < 16 then
      (match e % 4 with
        | 0 => (171520, 168960) | 1 => (41280, 38400) | 2 => (118720, 40960) | _ => (254400, 197120))
    else if e = 16 then (312000, 264000) else (336000, 288000)
  if i = 0 then row.1 else row.2

/-- The raised-cosine ramp entries of R381: round(1,023 × (1 − cos(π × (i + 1) / 64)) / 2). -/
def raisedCosine : List Nat :=
  [1, 2, 6, 10, 15, 22, 30, 39, 49, 60, 73, 86, 101, 116, 133, 150] ++
  [168, 187, 207, 227, 249, 270, 293, 316, 339, 363, 387, 412, 436, 461, 486, 511] ++
  [537, 562, 587, 611, 636, 660, 684, 707, 730, 753, 774, 796, 816, 836, 855, 873] ++
  [890, 907, 922, 937, 950, 963, 974, 984, 993, 1001, 1008, 1013, 1017, 1021, 1022, 1023]

/-- A ramp profile as firmware loads it at cold boot (R381). -/
def rampEntry (p i : Nat) : Nat := if p = 3 then (1023 * (i + 1) * 2 + 64) / 128 else raisedCosine.getD i 0
/-- RAMP of a profile as loaded, in 10 ns. -/
def rampTime (p : Nat) : Nat := if p = 1 then 50 else if p = 2 then 400 else if p = 3 then 100 else 200

/-- Word i of entry a of an RB table window after a cold boot. -/
def rbLoaded (a i : Nat) : Nat :=
  let k := a % 32
  if 0xFF < a then 0 else if k = 0 then (if i = 0 then rampTime (a / 32) else 0)
  else if k ≤ 16 then rampEntry (a / 32) (4 * (k - 1) + i) else 0

/-- Oversampling D of an air mode (Table 16.3). -/
def modeD (m : Nat) : Nat := if m = 0 then 16 else if m = 1 then 8 else if m = 2 then 4 else if m = 3 then 2 else 64

/-- Does a band list a mode (Table 16.1)? -/
def bandHas (radio mode : Nat) : Bool := mode == 4 || (if radio = 0 then mode < 2 else mode < 4)

/-- Word i of entry a of the CV table window after a cold boot: sets 0–4 for the five modes with N = 5, and every radio
mapped to them (R391). The receive S_last of R369 where four bits hold it; the coefficients are firmware's and read 0
(assumption log 31). -/
def cvLoaded (a i : Nat) : Nat :=
  if a < 40 then
    (if a % 8 ≠ 0 then 0
     else if i = 0 then 5 + modeD (a / 8) * 2 ^ 8
     else if i = 2 then (if a / 8 = 0 then 14 else if a / 8 = 1 then 9 else if a / 8 = 2 then 4 else 0) * 2 ^ 16
     else 0)
  else if 0x100 ≤ a && a < 0x118 && i = 0 && bandHas ((a - 0x100) / 8) (a % 8) && a % 8 < 5 then a % 8 + a % 8 * 2 ^ 8
  else 0

/-- The table windows by kind of page (Tables 3.10, 4.9, 5.7, 6.11, 7.6, 8.8, 9.8, 10.7, 11.5, 12.9, 13.4, 14.7, 14.9,
15.8, 16.11, 16.13, 17.11, 18.10, 19.9). -/
def tables : PageKind → List TblRange
  | .cc => [trng 0x000 0x1FF 0xFFFFFF 0 0 0, trng 0x200 0x23F 0x3F 0 0 0, trng 0x300 0x33F 0 0 0 0,
      trng 0x401 0x43C 0x1FFFF 0 0 0]
  | .dx => [trng 0x000 0x3FF all32 all32 all32 all32, trng 0x400 0x4FF 0x3F0F 0 0 0,
      trng 0x800 0x83F 0xFFFFF007 0xFFFF 0x1FFFFF 0]
  | .dp => [trng 0x000 0x028 0 0 0 0, trng 0x100 0x101 0x103 all32 all32 all32]
  | .tu => [(trng 0 0 1 0x3FFFFFFF all32 0).from 1 2500000 0 0, trng 1 1 all32 all32 0 0] ++
      ((List.range 31).flatMap (fun g =>
        [trng (2 * g + 2) (2 * g + 2) 1 0x3FFFFFFF all32 0, trng (2 * g + 3) (2 * g + 3) all32 all32 0 0])) ++
      [trng 0x100 0x111 all32 all32 0 0]
  | .sk => [trng 0x3100 0x3103 all32 all32 all32 all32, trng 0x3300 0x3303 all32 all32 all32 all32,
      trng 0x3400 0x3405 all32 all32 all32 all32]
  | .ve => [tst 4 0 0x7FC 0xFFF7 0xFFFFF000 0x1F001F 0x1FFF1FFF,
      (tst 4 1 0x7FD 0xFFFFF 0x3F3F7F 0xFFFFFF 0xFFFF).from 0 0x330000 0x1003C0 0, tst 4 2 0x7FE 0 0 0 0,
      (tst 4 3 0x7FF 0x37FFF 0 0 0x7FF).from 0 0 0 1200]
  | .cp => [(tst 64 0 0x1FC0 0x1F0F 0x1FFF1FFF 0x3FFFFFFF 0x1FFFF).sh, (tst 64 1 0x1FC1 0xFFFFF000 0xF1F 0 0).sh,
      (tst 64 2 0x1FC2 0xFFFFF000 0xFF 0x3FFF3FFF 0).sh] ++
      ((List.range 16).flatMap (fun l =>
        [(tst 64 (4 + 2 * l) (0x1FC4 + 2 * l) 0xFFFFEF all32 0xFFFF00FF 0x1FFF3FFF).sh,
         (tst 64 (5 + 2 * l) (0x1FC5 + 2 * l) 0x1FFF1FFF 0x1FFF3FFF 0x1FFF1FFF 0x1FFF1FFF).sh])) ++
      ((List.range 8).map (fun i => (tst 64 (36 + i) (0x1FE4 + i) 3 0x1FFF1FFF 0x1FFF1FFF all32).sh)) ++
      [trng 0x2000 0x20FF 0x03FF03FF 0x03FF03FF 0x03FF03FF 0x03FF03FF] ++
      ((List.range 16).map (fun l => tst 32 (0x4000 + l) (0x4FE0 + l) 0 0 0 0))
  | .qm => [tst 4 0 0x3FFFC 0x3FFFF 0x3FFFF 0x7F 0, tst 4 1 0x3FFFD 0 0 0 0, tst 4 2 0x3FFFE 0 0 0 0,
      trng 0x100000 0x12FFFF 0 0 0 0]
  | .px => [trng 0 0x3FF 1 0 0 0, tst 4 0x10000 0x17FFC 0x3FFF9 0x1FFFFFFF 0x0FFFFFFF 0,
      (tst 4 0x10001 0x17FFD 0xFFFFFF 0xFFFFF 0 0).from 0x14AB33 4000 1000 0,
      (tst 4 0x10002 0x17FFE 0x17F7F 0 0 0).from 0x5010 16 0 0, tst 4 0x10003 0x17FFF 0 0 0 0,
      trng 0x20000 0x23FFF all32 0x3FFFF 0 0, trng 0x40000 0x43FFF 0x7FFF 0 0 0,
      trng 0x100000 0x1FFFFF 0xFFFF all32 0x7F 0, trng 0x200000 0x2FFFFF 0 0 0 0,
      tst 2 0x400000 0x47FFFE all32 all32 all32 all32, tst 2 0x400001 0x47FFFF 0x3FF 0x3FFF 0 0,
      tst 2 0x480000 0x487FFE 0x1F0003 0xFFFF 0x3FFF 0x3FFF, tst 2 0x480001 0x487FFF all32 0xFFFF 0x3FF 0,
      trng 0x490000 0x490FFF 0x1FFFFF 0x1FFF 1 0, tst 2 0x4A0000 0x4A1FFE 0x7FFFFFF 0xFFFFFF 0x7FFFFFF 0xFFFFFF,
      tst 2 0x4A0001 0x4A1FFF 3 0 0 0, (tst 16 0x4B0000 0x4B0100 0x7FFFFF 0 0 0).from 0x180000 0 0 0,
      tst 16 0x4B0110 0x4B0140 0x7FFFFF 0 0 0] ++
      ((List.range 8).map (fun t => tst 16 (0x4B0008 + t) (0x4B0148 + t) 0x1FFF 0 0 0)) ++
      [trng 0x4C0000 0x4C009F 0x1FF 0 0 0, trng 0x4D0000 0x4D003F 7 0 0 0]
  | .tm => [(tst 2 0 0x1FFFE 0xFFF 0x1FFF 0x3FFF 0x3FF).from 0x80 1 0 0, tst 2 1 0x1FFFF 0 0 0 0,
      trng 0x20001 0x23FFF 0x7FFFFFF 0xFFFFFF 0 0, (trng 0x30000 0x30010 0x7F 0x3FFF 0 0).from 24 0 0 0,
      trng 0x30011 0x30013 0x7F 0x3FFF 0 0, (trng 0x30100 0x30113 0x07FF0003 0x3FFFFFFF all32 all32).sh,
      trng 0x40000 0x47FFF 0xFF 0x3FFFFFFF 0 0, trng 0x50000 0x5003F 0x3FFFF 0x3FFFF 0xFFFFE000 0xFF]
  | .am => [(trng 0 0x3FF 0x1F7F 0 0 0).from 0x1E 0 0 0, trng 0x800 0xBFF 0 0 0 0,
      (tst 2 0x1000 0x4FFE 0x03FF003F 0x07FF07FF 0x7F 0).from 6 0 8 0, tst 2 0x1001 0x4FFF 0 0 0 0]
  | .ds => [tst 2 0 0x7E all32 0xFFFF 0 0, tst 2 1 0x7F 0 0 0 0, trng 0x100 0x11F 0 0 0 0]
  | .ce => [trng 0 0xFF 0 0 0 0, trng 0x1000 0x2FFF 0 0 0 0]
  | .ac => [(tst 4 0 0xFF4 0x7F all32 0xFFFF 0xFF3F).from 0 0 0 0xFF3B, tst 4 1 0xFF5 0 0 0 0, tst 4 2 0xFF6 0 0 0 0,
      (tst 4 0x1000 0x2FFC 0x7FFF 0xFF3FFF all32 0x1FFFFFF).from 0 0 0 0x280000, tst 4 0x1001 0x2FFD 0 0 0 0,
      (trng 0x3000 0x32FF 0x9FFFFFFF 0 0 0).sh, trng 0x3400 0x341F 0 0 0 0] ++
      ((List.range 12).map (fun m => (trng (0x3500 + m) (0x3500 + m) 0xFF 0 0 0).from
        ([4, 10, 16, 22, 28, 36, 42, 50, 56, 62, 68, 76].getD m 0) 0 0 0))
  | .rb => [tst 32 0 0xE0 0x1FF 0 0 0] ++
      ((List.range 16).map (fun k => tst 32 (1 + k) (0xE1 + k) 0x3FF 0x3FF 0x3FF 0x3FF))
  | .cv => [tst 8 0 0x78 0x7F07 0xFFFFF 0xFFFFF 1] ++
      ((List.range 4).map (fun j => tst 8 (1 + j) (0x79 + j) all32 all32 all32 all32)) ++
      [trng 0x100 0x104 0xF0F 0 0 0, trng 0x108 0x10C 0xF0F 0 0 0, trng 0x110 0x114 0xF0F 0 0 0]
  | _ => []

/-- The range an entry lies in. -/
def tblRange (k : PageKind) (a : Nat) : Option TblRange := (tables k).find? (fun r => r.lo ≤ a && a ≤ r.hi && (a - r.lo) % r.stride == 0)

/-- Attribute DATA0 of a class at a cold reset: UNIT, LEVEL, EXEMPT (Tables 3.5 and 3.11). -/
def classAttr (c : Nat) : Nat :=
  if c = 0 then 0x10 else if c ≤ 2 then 0x05 else if c ≤ 5 then 0x03 else if c ≤ 7 then 0x06 else if c ≤ 9 then 0x0E
  else if c = 10 then 0x0A else if c = 11 then 0x06 else if c ≤ 13 then 0x01 else if c = 14 then 0x08 else 0x0C

/-- The key of word i of entry a of a page's tables. -/
def tblKey (p : Page) (a i : Nat) : Nat := (p.val * 2 ^ 24 + a) * 4 + i

/-- What a table word reads after a cold reset. -/
def tblReset (k : Nat) : Word :=
  let kind := kindOf (pg (k / 4 / 2 ^ 24))
  let a := k / 4 % 2 ^ 24
  if kind = .cc && 0x200 ≤ a && a ≤ 0x23F && k % 4 = 0 then BitVec.ofNat 32 (classAttr (a - 0x200))
  else if kind = .tu && a ≤ 0x111 && 0x100 ≤ a && k % 4 < 2 then BitVec.ofNat 32 (tuCorrection (a - 0x100) (k % 4))
  else if kind = .rb then BitVec.ofNat 32 (rbLoaded a (k % 4))
  else if kind = .cv then BitVec.ofNat 32 (cvLoaded a (k % 4))
  else match tblRange kind a with
    | some r => BitVec.ofNat 32 (r.reset.getD (k % 4) 0)
    | none => 0

end Sys2Proof.Machine
end

