-- ==== Sys2Proof/Machine/Ops.lean ====
section
/-! DEFINITION. The named operations every command is written with: bit fields, register words, table words, page
headers, time, and what leaves the block. -/

namespace Sys2Proof.Machine

/-! ## Bit fields -/

/-- Field [hi:lo] of a word, as a number. -/
def fld (hi lo : Nat) (w : Word) : Nat := (w.toNat >>> lo) % 2 ^ (hi - lo + 1)

/-- One bit of a word. -/
def bit (n : Nat) (w : Word) : Bool := w.getLsbD n

/-- The mask of field [hi:lo]. -/
def fieldMask (hi lo : Nat) : Word := BitVec.ofNat 32 ((2 ^ (hi - lo + 1) - 1) <<< lo)

/-- The word with field [hi:lo] replaced. -/
def putFld (hi lo : Nat) (v : Nat) (w : Word) : Word :=
  (w &&& ~~~ fieldMask hi lo) ||| (BitVec.ofNat 32 (v <<< lo) &&& fieldMask hi lo)

/-- The word with one bit replaced. -/
def putBit (n : Nat) (b : Bool) (w : Word) : Word := putFld n n b.toNat w

/-- A field read as a two's-complement number of `n` bits. -/
def signed (n : Nat) (v : Nat) : Int := if v % 2 ^ n < 2 ^ (n - 1) then (v % 2 ^ n : Nat) else (v % 2 ^ n : Nat) - (2 ^ n : Nat)

/-- An integer as the low `n` bits of its two's complement. -/
def unsigned (n : Nat) (v : Int) : Nat := (v % (2 ^ n : Nat)).toNat

/-- A word from a number. -/
def word (n : Nat) : Word := BitVec.ofNat 32 n

/-- The low and the high half of a 64-bit quantity. -/
def loHalf (n : Nat) : Word := word n
def hiHalf (n : Nat) : Word := word (n >>> 32)

/-- Is this number listed? -/
def hasNat (l : List Nat) (n : Nat) : Bool := l.any (fun m => m == n)

/-! ## Registers -/

/-- The key of register `off` of a page, copy `idx` of a register that a select register banks. -/
def regKey (p : Page) (off : Nat) (idx : Nat) : Nat := idx * 2 ^ 26 + p.val * 0x1000 + off

/-- What a register reads after reset: the Reset column of its table. The MAC addresses of EP0 to EP3 lie four apart (R533). -/
def regReset (k : Nat) : Word :=
  match blockReg (kindOf (pg (k % 2 ^ 26 / 0x1000))) (k % 0x1000) with
  | some r =>
    if k % 0x1000 = Reg.EP_MAC_LO && kindOf (pg (k % 2 ^ 26 / 0x1000)) == .ep then r.reset + word (4 * instOf (pg (k % 2 ^ 26 / 0x1000)))
    else r.reset
  | none => 0

/-- The active word of a register. -/
def Dev.reg (d : Dev) (p : Page) (off : Nat) (idx : Nat := 0) : Word := SMap.get regReset d.pages.regs (regKey p off idx)

/-- Store the active word of a register. -/
def Dev.setReg (d : Dev) (p : Page) (off : Nat) (w : Word) (idx : Nat := 0) : Dev :=
  { d with pages := { d.pages with regs := SMap.set regReset d.pages.regs (regKey p off idx) w } }

/-- A field of a register. -/
def Dev.rf (d : Dev) (p : Page) (off hi lo : Nat) (idx : Nat := 0) : Nat := fld hi lo (d.reg p off idx)

/-- A flag of a register. -/
def Dev.rb (d : Dev) (p : Page) (off n : Nat) (idx : Nat := 0) : Bool := bit n (d.reg p off idx)

/-- Replace a field of a register. -/
def Dev.setRf (d : Dev) (p : Page) (off hi lo v : Nat) (idx : Nat := 0) : Dev :=
  d.setReg p off (putFld hi lo v (d.reg p off idx)) idx

/-- Replace a flag of a register. -/
def Dev.setRb (d : Dev) (p : Page) (off n : Nat) (b : Bool) (idx : Nat := 0) : Dev := d.setRf p off n n b.toNat idx

/-- Add to a counter field that wraps. -/
def Dev.bump (d : Dev) (p : Page) (off hi lo : Nat) (n : Nat := 1) (idx : Nat := 0) : Dev :=
  d.setRf p off hi lo ((d.rf p off hi lo idx + n) % 2 ^ (hi - lo + 1)) idx

/-- Add to a counter field that saturates. -/
def Dev.bumpSat (d : Dev) (p : Page) (off hi lo : Nat) (n : Nat := 1) (idx : Nat := 0) : Dev :=
  d.setRf p off hi lo (min (d.rf p off hi lo idx + n) (2 ^ (hi - lo + 1) - 1)) idx

/-- Add to a 64-bit quantity held in a _LO and _HI pair. -/
def Dev.bumpPair (d : Dev) (p : Page) (lo hi : Nat) (n : Nat) : Dev :=
  let v := (d.reg p lo).toNat + (d.reg p hi).toNat * 2 ^ 32 + n
  (d.setReg p lo (loHalf v)).setReg p hi (hiHalf v)

/-- Raise a peak field to a value. -/
def Dev.peak (d : Dev) (p : Page) (off hi lo v : Nat) (idx : Nat := 0) : Dev :=
  if d.rf p off hi lo idx < v then d.setRf p off hi lo v idx else d

/-- The shadow of an RWS register (R34). -/
def Dev.shadow (d : Dev) (p : Page) (off : Nat) : Word := SMap.get regReset d.pages.shadow (regKey p off 0)

/-- Store the shadow of an RWS register. -/
def Dev.setShadow (d : Dev) (p : Page) (off : Nat) (w : Word) : Dev :=
  { d with pages := { d.pages with shadow := SMap.set regReset d.pages.shadow (regKey p off 0) w } }

/-! ## Tables -/

/-- The active word `i` of table entry `a` of a page. -/
def Dev.tw (d : Dev) (p : Page) (a i : Nat) : Word := SMap.get tblReset d.pages.tbl (tblKey p a i)

/-- Store an active table word. -/
def Dev.setTw (d : Dev) (p : Page) (a i : Nat) (w : Word) : Dev :=
  { d with pages := { d.pages with tbl := SMap.set tblReset d.pages.tbl (tblKey p a i) w } }

/-- A field of an active table word. -/
def Dev.tf (d : Dev) (p : Page) (a i hi lo : Nat) : Nat := fld hi lo (d.tw p a i)

/-- A flag of an active table word. -/
def Dev.tb (d : Dev) (p : Page) (a i n : Nat) : Bool := bit n (d.tw p a i)

/-- Replace a field of an active table word. -/
def Dev.setTf (d : Dev) (p : Page) (a i hi lo v : Nat) : Dev := d.setTw p a i (putFld hi lo v (d.tw p a i))

/-- Add to a wrapping counter in a table word. -/
def Dev.bumpT (d : Dev) (p : Page) (a i hi lo : Nat) (n : Nat := 1) : Dev :=
  d.setTf p a i hi lo ((d.tf p a i hi lo + n) % 2 ^ (hi - lo + 1))

/-- Add to a saturating counter in a table word. -/
def Dev.bumpTSat (d : Dev) (p : Page) (a i hi lo : Nat) (n : Nat := 1) : Dev :=
  d.setTf p a i hi lo (min (d.tf p a i hi lo + n) (2 ^ (hi - lo + 1) - 1))

/-- The shadow word of a shadowed table entry. -/
def Dev.tsw (d : Dev) (p : Page) (a i : Nat) : Word := SMap.get tblReset d.pages.tblSh (tblKey p a i)

/-- Store a shadow table word. -/
def Dev.setTsw (d : Dev) (p : Page) (a i : Nat) (w : Word) : Dev :=
  { d with pages := { d.pages with tblSh := SMap.set tblReset d.pages.tblSh (tblKey p a i) w } }

/-! ## Page headers -/

/-- The header of a page. -/
def Dev.hdr (d : Dev) (p : Page) : Hdr := SMap.get Hdr.reset d.pages.hdrs p.val

/-- Replace the header of a page. -/
def Dev.setHdr (d : Dev) (p : Page) (h : Hdr) : Dev :=
  { d with pages := { d.pages with hdrs := SMap.set Hdr.reset d.pages.hdrs p.val h } }

/-- Change the header of a page. -/
def Dev.modHdr (d : Dev) (p : Page) (f : Hdr → Hdr) : Dev := d.setHdr p (f (d.hdr p))

/-- READY and RUNNING: the unit does its work. -/
def PState.serves (s : PState) : Bool := s == .ready || s == .running

/-- READY and RUNNING follow INFLIGHT and the continuous function (Table 2.7). -/
def Hdr.settle (h : Hdr) : Hdr :=
  if h.state.serves then { h with state := if h.inflight > 0 || h.continuous then .running else .ready } else h

/-- One more work item owned by a unit. -/
def Dev.addInflight (d : Dev) (p : Page) (n : Nat := 1) : Dev :=
  d.modHdr p (fun h => { h with inflight := h.inflight + n }.settle)

/-- Work items leave a unit. -/
def Dev.subInflight (d : Dev) (p : Page) (n : Nat := 1) : Dev :=
  d.modHdr p (fun h => { h with inflight := h.inflight - n }.settle)

/-- The unit's continuous function starts or stops (R31). -/
def Dev.setContinuous (d : Dev) (p : Page) (b : Bool) : Dev := d.modHdr p (fun h => { h with continuous := b }.settle)

/-! ## Outputs, free values, time -/

/-- Something leaves the block. -/
def Dev.emit (d : Dev) (o : Output) : Dev := { d with out := o :: d.out }

/-- A bus read returns a word. -/
def Dev.answer (d : Dev) (v : Word) : Dev := { d.emit (.readData v) with readData := v }

/-- Move the draw counter on by one. -/
def Dev.drawn (d : Dev) : Dev := { d with fresh := d.fresh + 1 }

/-- Raw time in ns. -/
def Dev.nowNs (d : Dev) : Nat := d.tu.raw >>> 32

/-- Presented time in units of 2^-32 ns (R340). -/
def Time.presented (t : Time) : Int := (t.raw : Int) + t.offset + (((t.raw : Int) - t.anchor) * t.rate) / (2 ^ 48 : Nat)

/-- Presented time in ns, truncated (R340). -/
def Dev.timeNs (d : Dev) : Int := d.tu.presented / (2 ^ 32 : Nat)

/-- Presented time as the 64-bit quantity software reads. -/
def Dev.time64 (d : Dev) : Nat := unsigned 64 d.timeNs

/-- An MSI-X table word after reset: every vector masked, everything else 0 (PRESUMED, assumption log 50). -/
def msixReset (off : Nat) : Word := if off % 16 = 12 then 1 else 0

/-- Is a vector masked (bit 0 of its vector control word)? -/
def Dev.vectorMasked (d : Dev) (v : Nat) : Bool := bit 0 (SMap.get msixReset d.sys.msix (v * 16 + 12))

/-- A message on a vector (R47). While the vector is masked or the link is not in L0 it stays pending (R48, R513). -/
def Dev.vector (d : Dev) (v : Nat) : Dev :=
  if d.sys.l0 && !d.vectorMasked v then d.emit (.msix v)
  else if hasNat d.sys.pend v then d
  else { d with sys := { d.sys with pend := d.sys.pend ++ [v] } }

/-- The pending messages that may now be sent are sent: after an unmasking, or on the return to L0. -/
def Dev.sendPending (d : Dev) : Dev :=
  d.sys.pend.foldl (fun d v => d.vector v) { d with sys := { d.sys with pend := [] } }

/-- A message on a page vector: page p uses vector p − 1 (R47). -/
def Dev.pageVector (d : Dev) (p : Page) : Dev := d.vector (p.val - 1)

/-- A message of completion ring n: vector 60 + n (R47). -/
def Dev.ringVector (d : Dev) (n : Nat) : Dev := d.vector (60 + n)

/-- Firmware runs: CC is released and no reset holds it. -/
def Dev.fwRuns (d : Dev) : Bool := d.sys.ccReleased && !d.sys.inReset

/-- Byte `i` upward of a 512-bit descriptor, field [hi:lo] of the 32-bit word there (Table 4.2, little-endian). -/
def descF (x : BitVec 512) (byte hi lo : Nat) : Nat := (x.toNat >>> (8 * byte + lo)) % 2 ^ (hi - lo + 1)

end Sys2Proof.Machine
end

