-- ==== Sys2Proof/Machine/WorkOps.lean ====
section
/-! DEFINITION. Operations on rings, accepted items and the two ledger copies (chapter 4) that other operations and
commands call. -/

namespace Sys2Proof.Machine

/-! ## Rings and items -/

/-- A ring. -/
def Dev.ring (d : Dev) (n : Nat) : Ring := SMap.get (fun _ => Ring.reset) d.wk.rings n

/-- Replace a ring. -/
def Dev.setRing (d : Dev) (n : Nat) (r : Ring) : Dev :=
  { d with wk := { d.wk with rings := SMap.set (fun _ => Ring.reset) d.wk.rings n r } }

/-- Change a ring. -/
def Dev.modRing (d : Dev) (n : Nat) (f : Ring → Ring) : Dev := d.setRing n (f (d.ring n))

/-- The item with a sequence number, among those accepted and not posted. -/
def Dev.item? (d : Dev) (ring seq : Nat) : Option Item := d.wk.items.find? (fun i => i.ring == ring && i.seq == seq)

/-- Change an item. -/
def Dev.modItem (d : Dev) (ring seq : Nat) (f : Item → Item) : Dev :=
  { d with wk := { d.wk with items := d.wk.items.map (fun i => if i.ring == ring && i.seq == seq then f i else i) } }

/-- ENGINE of a descriptor (Table 4.2). -/
def engineOf (x : BitVec 512) : Nat := descF x 8 7 0
/-- OP of a descriptor. -/
def opOf (x : BitVec 512) : Nat := descF x 8 15 8
/-- INSTANCE of a descriptor; 0xFF any. -/
def instanceOf (x : BitVec 512) : Nat := descF x 12 15 8
def srcOf (x : BitVec 512) : Nat := (x.toNat >>> 192) % 2 ^ 48
def dstOf (x : BitVec 512) : Nat := (x.toNat >>> 256) % 2 ^ 48
def lengthOf (x : BitVec 512) : Nat := descF x 40 31 0
def ctxOf (x : BitVec 512) : Nat := descF x 44 31 0
/-- CLASS of the form an item was accepted in. -/
def classOf (x : BitVec 512) (f : Form) : Nat := if f = .primary then descF x 8 21 16 else descF x 8 31 26
/-- UNITS of the form, in 1/1,024 unit. -/
def unitsOf (x : BitVec 512) (f : Form) : Nat := if f = .primary then descF x 16 31 0 else descF x 20 31 0

/-- The page of an engine's instance (Table 4.2). -/
def enginePage (engine inst : Nat) : Option Page :=
  if engine = 1 then some Pg.dx
  else if (engine = 2 || engine = 3) && inst < 16 then some (pg (0x10 + inst))
  else if engine = 4 && inst < 8 then some (pg (0x20 + inst))
  else if engine = 5 && inst < 4 then some (pg (0x28 + inst))
  else if engine = 6 && inst < 2 then some (pg (0x3A + inst))
  else if engine = 7 then some Pg.tm
  else if engine = 8 then some Pg.ac
  else none

/-- How many instances an engine has. -/
def engineCount (engine : Nat) : Nat :=
  if engine = 2 || engine = 3 then 16 else if engine = 4 then 8 else if engine = 5 then 4 else if engine = 6 then 2 else 1

/-- The page an item is bound to. -/
def Item.page? (i : Item) : Option Page := i.inst.bind (enginePage (engineOf i.desc))

/-! ## Ring context entries (Table 4.9) -/

def Dev.sqBase (d : Dev) (n : Nat) : Nat := (d.tf Pg.dx (n * 4) 0 31 6) * 64 + (d.tf Pg.dx (n * 4) 1 15 0) * 2 ^ 32
def Dev.sqLog2 (d : Dev) (n : Nat) : Nat := d.tf Pg.dx (n * 4) 2 4 0
def Dev.irqEn (d : Dev) (n : Nat) : Bool := d.tb Pg.dx (n * 4) 2 9
def Dev.ledgerLog2 (d : Dev) (n : Nat) : Nat := d.tf Pg.dx (n * 4) 3 3 0 + 6
def Dev.cqBase (d : Dev) (n : Nat) : Nat := (d.tf Pg.dx (n * 4 + 1) 0 31 12) * 4096 + (d.tf Pg.dx (n * 4 + 1) 1 15 0) * 2 ^ 32
def Dev.irqEvery (d : Dev) (n : Nat) : Nat := d.tf Pg.dx (n * 4 + 1) 2 7 0
def Dev.irqDelay (d : Dev) (n : Nat) : Nat := d.tf Pg.dx (n * 4 + 1) 2 17 8
def Dev.ledgerOffset (d : Dev) (n : Nat) : Nat := (d.tw Pg.dx (n * 4 + 1) 3).toNat
def Dev.startSeq (d : Dev) (n : Nat) : Nat := (d.tw Pg.dx (n * 4 + 2) 0).toNat + (d.tw Pg.dx (n * 4 + 2) 1).toNat * 2 ^ 32
/-- ASID of channel entry n, in which every item of ring n is translated (R134). -/
def Dev.ringAsid (d : Dev) (n : Nat) : Nat := d.tf Pg.dx (0x400 + n) 0 13 8
def Dev.chanPrio (d : Dev) (n : Nat) : Nat := d.tf Pg.dx (0x400 + n) 0 3 0

/-- Key of a ring's context entry k. -/
def ringEntry (n k : Nat) : Nat := n * 4 + k

/-- A ring is active while enabled or while it has items accepted and not posted (R109). -/
def Dev.ringActive (d : Dev) (n : Nat) : Bool := (d.ring n).enabled || (d.ring n).postedSeq < (d.ring n).acceptSeq

/-- Some ring is active. -/
def Dev.anyRingActive (d : Dev) : Bool := (List.range 256).any d.ringActive

/-! ## The ledger copies -/

/-- Key of a ledger entry: ring × 65,536 + slot, slot = s mod 2^LEDGER_LOG2 (R93). -/
def Dev.slotKey (d : Dev) (ring seq : Nat) : Nat := ring * 65536 + seq % 2 ^ d.ledgerLog2 ring

/-- Write an entry into the copies that can be written (R94). -/
def Dev.putEntry (d : Dev) (ring seq : Nat) (e : LEntry) : Dev :=
  let put (c : LCopy) : LCopy := { c with entries := SMap.set (fun _ => LEntry.invalid) c.entries (d.slotKey ring seq) e }
  { d with wk := { d.wk with copyA := if d.wk.okA then put d.wk.copyA else d.wk.copyA,
                             copyB := if d.wk.okB then put d.wk.copyB else d.wk.copyB } }

/-- Write a ring header into the copies that can be written. -/
def Dev.putHeader (d : Dev) (ring : Nat) (accept posted : Int) : Dev :=
  let h : LHeader := { valid := true, acceptSeq := accept, postedSeq := posted, epoch := d.wk.epoch }
  let put (c : LCopy) : LCopy := { c with headers := SMap.set (fun _ => LHeader.invalid) c.headers ring h }
  { d with wk := { d.wk with copyA := if d.wk.okA then put d.wk.copyA else d.wk.copyA,
                             copyB := if d.wk.okB then put d.wk.copyB else d.wk.copyB } }

/-- The ledger entry of an item at a state (Table 4.5). -/
def Item.entry (i : Item) (epoch : Nat) (st : LState) : LEntry :=
  { valid := true, desc := i.desc, state := st, form := i.form, encored := i.encored, inst := i.inst.getD 0xFF,
    epoch := epoch, reservedUj := i.reservedUj, engineState := i.engineState, result := i.result }

/-- A transition of an item goes to both copies and waits for the acknowledgements, from which it counts (R94; assumption
log 39). -/
def Dev.transition (d : Dev) (ring seq : Nat) (st : LState) : Dev := d.modItem ring seq (fun j => { j with pend := some st })

/-- An item has finished: its result is kept with COMPLETED, which is written into both copies. -/
def Dev.finish (d : Dev) (ring seq : Nat) (r : Result) : Dev :=
  (d.modItem ring seq (fun i => { i with result := r, phase := .finishing })).transition ring seq .completed

/-- The result of an item that ends with a status and cause and nothing else. -/
def Item.plain (i : Item) (st : Status) (cause : Nat) : Result :=
  { Result.none with status := st, cause := cause, instance_ := i.inst.getD 0xFF, engine := engineOf i.desc }

/-- DONE, or DONE_DEGRADED where the fallback form was carried out (Table 4.3). -/
def Item.doneStatus (i : Item) : Status := if i.form = .fallback then .doneDegraded else .done

/-- Finish with a status and cause alone. -/
def Dev.finishPlain (d : Dev) (ring seq : Nat) (st : Status) (cause : Nat) : Dev :=
  match d.item? ring seq with
  | none => d
  | some i => d.finish ring seq (i.plain st cause)

/-! Causes of Table 4.4 and of the engines. -/
namespace Cause
abbrev BAD_DESC := 0x01
abbrev OVERLAP := 0x02
abbrev ADDR_ERROR := 0x03
abbrev XLATE_REFUSED := 0x04
abbrev UNIT_RETIRED := 0x05
abbrev DRAINED := 0x06
abbrev PEER_LOST := 0x07
abbrev FRAME_SIZE := 0x08
abbrev LEDGER_LOST := 0x09
abbrev WALK_ERROR := 0x40
abbrev RESP_ERROR := 0x41
abbrev LINE_OFF := 0x42
end Cause

/-- Unbind an item so that it is dispatched again; a re-executed item's cost sample is not eligible (R68). -/
def Item.again (i : Item) : Item := { i with inst := none, phase := .ready, pend := none, eligible := false }

/-- The item names its instance: by INSTANCE, or by a handle that fixes the engine (R182, R207, R241). -/
def Item.named (i : Item) : Bool :=
  instanceOf i.desc != 0xFF || engineOf i.desc == 2 || engineOf i.desc == 3 || engineOf i.desc == 5

/-- Serve the items of an instance that sits out from their ledger entries (R107). -/
def Dev.redispatchRetired (d : Dev) (p : Page) : Dev :=
  (d.wk.items.filter (fun i => decide (i.page? = some p))).foldl (fun d i =>
    match i.recorded with
    | .completed => d
    | .emitted => d.finishPlain i.ring i.seq .done 0
    | st =>
      if i.phase = .finishing || i.phase = .completed then d
      else if !i.named then (d.modItem i.ring i.seq Item.again).subInflight p
      else if st = .accepted then d.finishPlain i.ring i.seq .returned Cause.DRAINED
      else d.finishPlain i.ring i.seq .failed Cause.UNIT_RETIRED) d

/-- Serve the items of an engine after its own island reset (R101): from the line marked dispatch, or DONE with
ENCORE = 1 past EMITTED. -/
def Dev.redispatchReset (d : Dev) (p : Page) : Dev :=
  (d.wk.items.filter (fun i => decide (i.page? = some p))).foldl (fun d i =>
    match i.recorded with
    | .completed => d
    | .emitted => (d.modItem i.ring i.seq (fun j => { j with encored := true })).finishPlain i.ring i.seq .done 0
    | _ =>
      if i.phase = .finishing || i.phase = .completed then d
      else (d.modItem i.ring i.seq (fun j => { j.again with encored := true })).subInflight p) d

/-- The energy that a head in acceptance has reserved. -/
def Head.uj : Head → Nat
  | .entryWrite _ _ e => e
  | .headerWrite _ _ e => e
  | _ => 0

/-- Acceptance of a ring's head stops: its reservation is withdrawn and the item stays in its ring (R73). -/
def Dev.dropHead (d : Dev) (n : Nat) : Dev :=
  { d with en := { d.en with reserved := d.en.reserved - (d.ring n).head.uj } }.modRing n (fun r => { r with head := .none })

/-- Halt a ring (R536). -/
def Dev.haltRing (d : Dev) (n cause : Nat) : Dev :=
  (d.dropHead n).modRing n (fun r => { r with halted := true, haltCause := cause, hold := 1 })

/-- Halt every ring (R536, HALT_CAUSE 2). -/
def Dev.haltAll (d : Dev) : Dev :=
  (List.range 256).foldl (fun d n => d.haltRing n 2) d

end Sys2Proof.Machine
end

