-- ==== Sys2Proof/Machine/Retire.lean ====
section
/-! DEFINITION. Bows withdrawn, island resets begun and units retired: the operations that a severity action runs
(R39, R473, R477 to R479). -/

namespace Sys2Proof.Machine

/-! ## Shadows -/

/-- Does a table key belong to a page? -/
def keyOfPage (p : Page) (k : Nat) : Bool := k / 4 / 2 ^ 24 == p.val

/-- The bits of a table word a window write stores. -/
def tblMask (k : PageKind) (a i : Nat) : Word :=
  match tblRange k a with
  | some r => BitVec.ofNat 32 (r.rw.getD i 0)
  | none => 0

/-- The table keys of a page's shadowed entries that either map lists. -/
def Dev.shadowKeys (d : Dev) (p : Page) : List Nat :=
  ((d.pages.tbl.map Prod.fst) ++ (d.pages.tblSh.map Prod.fst)).filter (fun k => keyOfPage p k &&
    (match tblRange (kindOf p) (k / 4 % 2 ^ 24) with | some r => r.shadowed | none => false))

/-- The bits of a register that RWS fields cover. -/
def rwsMask (r : RegDesc) : Word :=
  r.fields.foldl (fun m f => if f.acc = .rws then m ||| fieldMask f.hi f.lo else m) 0

/-- The registers of a page with RWS fields. -/
def rwsRegs (p : Page) : List RegDesc := (blockRegs (kindOf p)).filter (fun r => rwsMask r != 0)

/-- Copy every shadow of the page to its active value at once (R35). -/
def Dev.takeShadows (d : Dev) (p : Page) : Dev :=
  let d := (rwsRegs p).foldl (fun d r =>
    d.setReg p r.off ((d.reg p r.off &&& ~~~ rwsMask r) ||| (d.shadow p r.off &&& rwsMask r))) d
  (d.shadowKeys p).foldl (fun d k =>
    let a := k / 4 % 2 ^ 24
    let m := tblMask (kindOf p) a (k % 4)
    d.setTw p a (k % 4) ((d.tw p a (k % 4) &&& ~~~ m) ||| (d.tsw p a (k % 4) &&& m))) d

/-- Reload every shadow of the page from its active value (R39). -/
def Dev.reloadShadows (d : Dev) (p : Page) : Dev :=
  let d := (rwsRegs p).foldl (fun d r => d.setShadow p r.off (d.reg p r.off)) d
  (d.shadowKeys p).foldl (fun d k => let a := k / 4 % 2 ^ 24; d.setTsw p a (k % 4) (d.tw p a (k % 4))) d

/-- Withdraw a pending bow (R39). -/
def Dev.withdrawBow (d : Dev) (p : Page) : Dev :=
  if (d.hdr p).commitPending then
    (d.modHdr p (fun h => { h with commitPending := false })).reloadShadows p
  else d

/-- An island reset begins: outer handshakes complete, a pending bow is withdrawn, ISLAND_RST reads 1 (R496). -/
def Dev.startReset (d : Dev) (p : Page) : Dev := (d.withdrawBow p).modHdr p (fun h => { h with rst := true })

/-! ## Retirement -/

/-- Offset of the page's retirement record, where it has one (Table 20.7). -/
def recordOff : PageKind → Option Nat
  | .mc => some Reg.MC_RETIRE_REC
  | .ps => some Reg.PS_BANK_RETIRE
  | .cc => some Reg.CC_CORE_RETIRE
  | .ve => some Reg.VE_RETIRE_REC
  | .ds => some Reg.DS_RETIRE_REC
  | .cp => some Reg.CP_RETIRE_REC
  | .ce => some Reg.CE_RETIRE_REC
  | .ep => some Reg.EP_LANE_RETIRE
  | .rb => some Reg.RB_CHAIN_RETIRE
  | _ => none

/-- How many record bits the page has. -/
def recordBits : PageKind → Nat
  | .mc => 9 | .ps => 8 | .cc => 8 | .ep => 4 | .rb => 4
  | .ve | .ds | .cp | .ce => 1
  | _ => 0

/-- Kinds of page whose whole unit retires. -/
def PageKind.retiresPage : PageKind → Bool
  | .ve | .ds | .cp | .ce => true
  | _ => false

/-- The record bits of a page as stored. -/
def Dev.records (d : Dev) (p : Page) : Nat :=
  match recordOff (kindOf p) with
  | some off => fld (recordBits (kindOf p) - 1) 0 (d.reg p off)
  | none => 0

/-- Is a unit of the page out of service: recorded, or its record being committed, or under re-qualification (R484)? -/
def Dev.unitOut (d : Dev) (p : Page) (u : Nat) : Bool :=
  (d.records p).testBit u || (d.hdr p).requal.getLsbD u ||
    d.ps.queue.any (fun w => w.record && w.off == p.val * 0x1000 + (recordOff (kindOf p)).getD 0 && (w.v).getLsbD u)

/-- A group of DRAM members. -/
def Dev.grp (d : Dev) (g : Nat) : Grp := SMap.get (fun _ => Grp.reset) d.grps g

/-- Replace a group. -/
def Dev.setGrp (d : Dev) (g : Nat) (x : Grp) : Dev := { d with grps := SMap.set (fun _ => Grp.reset) d.grps g x }

/-- Change a group. -/
def Dev.modGrp (d : Dev) (g : Nat) (f : Grp → Grp) : Dev := d.setGrp g (f (d.grp g))

/-- A member of a group. -/
def Grp.m (x : Grp) (m : Nat) : Mem1 := SMap.get (fun _ => Mem1.reset) x.mem m

/-- Change a member of a group. -/
def Grp.modM (x : Grp) (m : Nat) (f : Mem1 → Mem1) : Grp := { x with mem := SMap.set (fun _ => Mem1.reset) x.mem m (f (x.m m)) }

/-- PS serves a retirement record ahead of every queued write but the one in progress (R119, R477). -/
def Dev.queueRecord (d : Dev) (p : Page) (v : Word) : Dev :=
  match recordOff (kindOf p) with
  | none => d
  | some off =>
    let w : PsWrite := { off := p.val * 0x1000 + off, v := v, record := true }
    let q := match d.ps.queue with
      | [] => [w]
      | x :: xs => x :: w :: xs
    { d with ps := { d.ps with queue := q } }

/-- Forget the counted detections of a unit (R471). -/
def Dev.clearCount (d : Dev) (p : Page) (u : Nat) : Dev :=
  d.modHdr p (fun h => { h with counted := h.counted.filter (fun c => c.unit != u) })

/-- Retire a unit: it leaves service at once and its record goes to PS; the record reads 1 when committed
(R477, Table 20.4). A second member of a parity group and a second MRAM bank are not retired (R479). The result says
whether MC must raise GROUP_LOST. -/
def Dev.retireUnit (d : Dev) (p : Page) (u : Nat) : Dev × Bool :=
  let k := kindOf p
  let v := putFld u u 1 (d.reg p ((recordOff k).getD 0))
  if k.retiresPage then
    if (d.hdr p).state = .sitOut then (d, false)
    else
      let d := (d.modHdr p (fun h => { h with state := .sitOut })).clearCount p 100
      ((d.queueRecord p v).redispatchRetired p, false)
  else if k = .mc then
    let g := instOf p
    let x := d.grp g
    if x.retiring = some u || (x.m u).state = .retired || (x.m u).lost then (d, false)
    else if x.retiring.isSome || (List.range 9).any (fun m => (x.m m).state == .retired || (x.m m).state == .rebuilding) then
      -- a second member: GROUP_LOST; a rebuilding member returns to retired (Table 5.4)
      let y := match x.rebuild with
        | some (m, _) => { x.modM m (fun z => { z with state := .retired }) with rebuild := none }
        | none => x
      let y := if (y.m u).state = .retired then y else y.modM u (fun z => { z with lost := true })
      ((d.setGrp g { y with lost := true }).clearCount p u, true)
    else
      let y := { x with retiring := some u, change := if x.change.isSome && (x.m u).state != .selfRefresh then none else x.change }
      (((d.setGrp g y).clearCount p u).queueRecord p v, false)
  else if k = .ps then
    if d.records p ≠ 0 || d.ps.queue.any (fun w => w.record && w.off == p.val * 0x1000 + Reg.PS_BANK_RETIRE) then (d, false)
    else ((d.clearCount p u).queueRecord p v, false)
  else if k = .cc then
    ((({ d with ps := { d.ps with coreRetired := d.ps.coreRetired ||| BitVec.ofNat 8 (2 ^ u) },
                sys := { d.sys with coreTasks := d.sys.coreTasks + 1 } }).setRf p Reg.CC_CORE_RETIRE u u 1).setRf p
        Reg.CC_CORE_RETIRE (8 + u) (8 + u) 0 |>.clearCount p u, false)
  else if (recordOff k).isSome then ((d.clearCount p u).queueRecord p v, false)
  else (d, false)

/-- Target of a forced source (Table 20.8): the unit it counts for and retires. `none`: no unit left. -/
def Dev.forcedTarget (d : Dev) (p : Page) (src : Nat) : Option Nat :=
  let lowest (n : Nat) : Option Nat := (List.range n).find? (fun u => !d.unitOut p u)
  match kindOf p with
  | .mc => if src = Evt.MC_CHAN_FAULT then some (d.rf p Reg.MC_CHAN_SEL 3 0) else some 0
  | .rb => if src = Evt.RB_CHAIN_FAULT then lowest 4 else some 0
  | .ep => if src = Evt.EP_LANE_FAULT then lowest 4 else some 0
  | .cc => if src = Evt.CC_CORE_FAULT then lowest 8 else some 0
  | .ps => if src = Evt.PS_BANK_FAULT then lowest 8 else some 0
  | .qm => if src = Evt.QM_CELL_ERR then none else some 0
  | _ => some 0

end Sys2Proof.Machine
end

