-- ==== Sys2Proof/Machine/Faults.lean ====
section
/-! DEFINITION. From detection to action (R469 to R473, R477, R487, R488): the one operation by which every event of
the block is raised. -/

namespace Sys2Proof.Machine

/-- The severity of two bits in a pair of words laid out as EVT_SEV_LO and EVT_SEV_HI. -/
def sevAt (lo hi : Word) (n : Nat) : Sev :=
  if n < 16 then Sev.ofCode (fld (2 * n + 1) (2 * n) lo) else Sev.ofCode (fld (2 * (n - 16) + 1) (2 * (n - 16)) hi)

/-- Severity in force of a source (Table 2.9). -/
def Hdr.sev (h : Hdr) (n : Nat) : Sev := sevAt h.sevLo h.sevHi n

/-- Severity carried by a raw bit (R470). -/
def Hdr.carried (h : Hdr) (n : Nat) : Sev := sevAt h.carriedLo h.carriedHi n

/-- Set the carried severity of a source. -/
def Hdr.setCarried (h : Hdr) (n : Nat) (s : Sev) : Hdr :=
  if n < 16 then { h with carriedLo := putFld (2 * n + 1) (2 * n) s.code h.carriedLo }
  else { h with carriedHi := putFld (2 * (n - 16) + 1) (2 * (n - 16)) s.code h.carriedHi }

/-- Set the raw bit of a source; it carries the highest severity since it was last cleared (R470). -/
def Hdr.raise (h : Hdr) (n : Nat) (s : Sev) : Hdr :=
  let c := if bit n h.raw && s.code < (h.carried n).code then h.carried n else s
  { h.setCarried n c with raw := putBit n true h.raw }

/-- Write a history entry: eight are held, a ninth overwrites the oldest and LOST is set in the oldest still held
(R33). -/
def Hdr.record (h : Hdr) (e : HistEntry) : Hdr :=
  if h.hist.length < 8 then { h with hist := h.hist ++ [e] }
  else match h.hist with
    | _ :: x :: xs => { h with hist := { x with lost := true } :: xs ++ [e] }
    | _ => { h with hist := [e] }

/-- Count a TRANSIENT detection of a unit over the window (R471); the detections still in the window stay. -/
def Hdr.count (h : Hdr) (unit now : Nat) : Hdr :=
  { h with counted := { unit := unit, time := now } :: h.counted.filter (fun c => now < c.time + h.windowMs * 1000000) }

/-- How many counted detections a unit has. -/
def Hdr.countOf (h : Hdr) (unit : Nat) : Nat := (h.counted.filter (fun c => c.unit == unit)).length

/-- Sources whose detections are counted per unit and not for the page (R471). -/
def perUnit (k : PageKind) (src : Nat) : Bool :=
  (k == .mc && src == Evt.MC_CHAN_FAULT) || (k == .rb && src == Evt.RB_CHAIN_FAULT) || (k == .ep && src == Evt.EP_LANE_FAULT) ||
  (k == .cc && src == Evt.CC_CORE_FAULT) || (k == .ps && src == Evt.PS_BANK_FAULT)

/-- The count a detection adds to: the unit's own, or number 100, the whole page's. -/
def countUnit (k : PageKind) (src unit : Nat) : Nat := if perUnit k src then unit else 100

/-- History entry, raw bit and count of one detection; the severity it is handled at (R469 steps 1 and 2, R471). -/
def Dev.note (d : Dev) (p : Page) (src unit : Nat) (at_ : Sev) : Dev × Sev :=
  let h := d.hdr p
  let u := countUnit (kindOf p) src unit
  let h := if at_ = .transient then h.count u d.nowNs else h
  let eff := if at_ = .transient && h.limit < h.countOf u then Sev.permanent else at_
  let t := ((d.timeNs / 1000) % (2 ^ 23 : Nat)).toNat
  (d.setHdr p ((h.record { timeUs := t, sev := eff, source := src, lost := false }).raise src eff), eff)

/-- Send the page vector when the raw bit was clear before, the source is enabled and its severity is NOTICE or above
(R48). -/
def Dev.signal (d : Dev) (p : Page) (src : Nat) (was : Bool) (eff : Sev) : Dev :=
  if !was && bit src (d.hdr p).en && eff ≠ .log then d.pageVector p else d

/-- A detection whose source takes no action. -/
def Dev.detectPlain (d : Dev) (p : Page) (src : Nat) (at_ : Sev) : Dev :=
  let was := bit src (d.hdr p).raw
  let (d, eff) := d.note p src 100 at_
  d.signal p src was eff

/-- The action of a PERMANENT detection (R473). In the SK, HB, FB, DX and TU pages a forced source never changes
PAGE_STATE (R488). -/
def Dev.permanent (d : Dev) (p : Page) (src : Nat) (unit : Option Nat) (forced : Bool) : Dev :=
  let k := kindOf p
  let noState := forced && (k == .sk || k == .hb || k == .fb || k == .dx || k == .tu)
  match (evDesc k src).act, unit with
  | .none, _ => d
  | .faulted, _ => if noState || (d.hdr p).state = .sitOut then d else d.modHdr p (fun h => { h with state := .faulted })
  | .retire, none => d
  | .retire, some u =>
    let (d, lost) := d.retireUnit p u
    if lost then d.detectPlain p Evt.MC_GROUP_LOST ((d.hdr p).sev Evt.MC_GROUP_LOST) else d

/-- One detection, in the order of R469, at a given severity. -/
def Dev.detectAt (d : Dev) (p : Page) (src : Nat) (unit : Option Nat) (forced : Bool) (at_ : Sev) : Dev :=
  if kindOf p = .dir then d
  else if forced && (d.hdr p).state = .sitOut then
    d.modHdr p (fun h => h.record { timeUs := ((d.timeNs / 1000) % (2 ^ 23 : Nat)).toNat, sev := at_, source := src, lost := false })
  else
    let was := bit src (d.hdr p).raw
    let (d, eff) := d.note p src (unit.getD 0) at_
    let d :=
      if eff = .permanent then d.permanent p src unit forced
      else if eff = .transient && !forced && (evDesc (kindOf p) src).hang then d.startReset p
      else d
    d.signal p src was eff

/-- A real detection of a source at the severity in force, for a unit of the page. -/
def Dev.detectUnit (d : Dev) (p : Page) (src unit : Nat) : Dev := d.detectAt p src (some unit) false ((d.hdr p).sev src)

/-- A real detection of a source of the page's own unit. -/
def Dev.detect (d : Dev) (p : Page) (src : Nat) : Dev := d.detectUnit p src 0

/-- A forced detection (R487, R488). -/
def Dev.force (d : Dev) (p : Page) (src : Nat) : Dev := d.detectAt p src (d.forcedTarget p src) true ((d.hdr p).sev src)

/-- A condition that persists: its bit sets again as soon as it is cleared (R483). -/
def Dev.setPersists (d : Dev) (p : Page) (src : Nat) (b : Bool) : Dev :=
  d.modHdr p (fun h => { h with persists := putBit src b h.persists })

/-- FAULT_N is low while any raw bit of any page carries PERMANENT (R483). -/
def Hdr.holdsFault (h : Hdr) : Bool := (List.range 32).any (fun n => bit n h.raw && h.carried n == .permanent)

/-- Some raw bit carries NOTICE or above. -/
def Hdr.holdsNotice (h : Hdr) : Bool := (List.range 32).any (fun n => bit n h.raw && h.carried n != .log)

/-- The level of FAULT_N: true when driven low. -/
def Dev.faultLow (d : Dev) : Bool := d.sys.pwrgood && (List.range 61).any (fun p => (d.hdr (pg p)).holdsFault)

end Sys2Proof.Machine
end

