-- ==== Sys2Proof/Machine/Operands.lean ====
section
/-! DEFINITION. How a written word is stored field by field (the access codes and ranges of the register tables), and
how an address, a byte string or a descriptor is read as an operand. -/

namespace Sys2Proof.Machine

/-- What a field holds after a write of `v` over `old` (the field rules of the register tables). -/
def fieldStore (r : FieldRule) (key lo width old v : Nat) : Nat :=
  match r with
  | .any => v
  | .keep a b => if a ≤ v && v ≤ b then v else old
  | .keepSigned a b => if a ≤ signed width v && signed width v ≤ b then v else old
  | .clamp a b => min (max v a) b
  | .oneOf vs => if hasNat vs v then v else old
  | .free a b => if a ≤ v && v ≤ b then v else Config.outOfRange key lo v % 2 ^ width
  | .freeOf vs => if hasNat vs v then v else Config.outOfRange key lo v % 2 ^ width

/-- The word a register holds after a write: fields of the accepted access codes take the written value by their rule,
W1C fields clear where 1 is written, everything else stays (R27). -/
def storeWord (r : RegDesc) (key : Nat) (accept : Acc → Bool) (old v : Word) : Word :=
  r.fields.foldl (fun w f =>
    if accept f.acc then putFld f.hi f.lo (fieldStore f.rule key f.lo (f.hi - f.lo + 1) (fld f.hi f.lo old) (fld f.hi f.lo v)) w
    else if f.acc = .w1c then w &&& ~~~ (v &&& fieldMask f.hi f.lo)
    else w) old

/-- The bits of a register that a read clears (RC). -/
def rcMask (r : RegDesc) : Word :=
  r.fields.foldl (fun m f => if f.acc = .rc then m ||| fieldMask f.hi f.lo else m) 0

/-- The bits of a register that a read shows: WO and W1S fields read 0. -/
def readMask (r : RegDesc) : Word :=
  r.fields.foldl (fun m f => if f.acc = .wo || f.acc = .w1s then m else m ||| fieldMask f.hi f.lo) 0

/-- Has the register a field of this access code? -/
def hasAcc (r : RegDesc) (a : Acc) : Bool := r.fields.any (fun f => f.acc == a)

/-- The copy of a banked register that its select register chooses. -/
def Dev.bankOf (d : Dev) (p : Page) (r : RegDesc) : Nat :=
  match r.bank with
  | some b => d.rf p b.sel b.hi b.lo
  | none => 0

/-- The page of a BAR0 offset, when it lies in a page. -/
def pageOf (off : Nat) : Option Page := if h : off / 0x1000 < 61 then some ⟨off / 0x1000, h⟩ else none

/-- Bytes of a number, lowest first. -/
def bytesLE : Nat → Nat → List Byte
  | 0, _ => []
  | n + 1, v => BitVec.ofNat 8 v :: bytesLE n (v / 256)

/-- Bytes of a number, highest first. -/
def bytesBE (n v : Nat) : List Byte := (bytesLE n v).reverse

/-- The number of a byte string, lowest byte first. -/
def numLE : List Byte → Nat
  | [] => 0
  | b :: bs => b.toNat + 256 * numLE bs

/-- A part of a byte string. -/
def slice (bs : List Byte) (off len : Nat) : List Byte := (bs.drop off).take len

/-- A little-endian field of a byte string. -/
def fieldLE (bs : List Byte) (off len : Nat) : Nat := numLE (slice bs off len)

/-- Do two address ranges overlap? -/
def overlaps (a la b lb : Nat) : Bool := a < b + lb && b < a + la && la != 0 && lb != 0

/-- Ceiling division. -/
def ceilDiv (a b : Nat) : Nat := (a + b - 1) / b

end Sys2Proof.Machine
end

