-- ==== Sys2Proof/Machine/PersistOps.lean ====
section
/-! DEFINITION. The persistent store's operations: word indices, queueing, programming, wear, remapping and bank
failure (R40 to R46, R534). -/

namespace Sys2Proof.Machine

/-- BAR0 offsets of the 160 persistent words in the order of their index (Table 2.16, R46). -/
def persistWords : List Nat :=
  [0x01140, 0x01144, 0x01148, 0x01154, 0x01158, 0x01150, 0x01190, 0x0115C, 0x0118C, 0x0111C] ++
  [0x01120, 0x01124, 0x01128, 0x01134, 0x01138, 0x01108, 0x0110C, 0x01104, 0x0117C, 0x01180] ++
  [0x01184, 0x01188, 0x01174, 0x01178, 0x0211C, 0x02120, 0x02124, 0x03118, 0x0311C, 0x03120] ++
  [0x03124, 0x03128, 0x0312C, 0x03130, 0x03134, 0x04104, 0x04108, 0x0410C, 0x06100, 0x06104] ++
  [0x06108, 0x0610C, 0x06110, 0x06114, 0x06118, 0x0611C, 0x06120, 0x06124, 0x07104, 0x08104] ++
  [0x08108, 0x0810C, 0x08110, 0x0811C, 0x09104, 0x09108, 0x0910C, 0x09110, 0x0911C, 0x0A104] ++
  [0x0A108, 0x0A10C, 0x0A110, 0x0A11C, 0x0B104, 0x0B108, 0x0B10C, 0x0B110, 0x0B11C, 0x0C108] ++
  [0x0D108, 0x0E108, 0x0F108, 0x101E0, 0x111E0, 0x121E0, 0x131E0, 0x141E0, 0x151E0, 0x161E0] ++
  [0x171E0, 0x181E0, 0x191E0, 0x1A1E0, 0x1B1E0, 0x1C1E0, 0x1D1E0, 0x1E1E0, 0x1F1E0, 0x201E0] ++
  [0x211E0, 0x221E0, 0x231E0, 0x241E0, 0x251E0, 0x261E0, 0x271E0, 0x281E0, 0x291E0, 0x2A1E0] ++
  [0x2B1E0, 0x2D104, 0x2E104, 0x2E108, 0x30100, 0x30104, 0x30108, 0x3010C, 0x30110, 0x31100] ++
  [0x31104, 0x31108, 0x3110C, 0x31110, 0x32100, 0x32104, 0x32108, 0x3210C, 0x32110, 0x33100] ++
  [0x33104, 0x33108, 0x3310C, 0x33110, 0x34100, 0x34104, 0x34108, 0x35100, 0x35104, 0x35108] ++
  [0x3510C, 0x36100, 0x36104, 0x36108, 0x3610C, 0x37100, 0x37104, 0x37108, 0x3710C, 0x38120] ++
  [0x38124, 0x38128, 0x3910C, 0x39110, 0x39114, 0x39118, 0x3911C, 0x39120, 0x39124, 0x39128] ++
  [0x3912C, 0x39130, 0x39134, 0x39138, 0x3913C, 0x39140, 0x3A10C, 0x3B10C, 0x3C100, 0x3C104]

/-- Index of a persistent word. -/
def wordIndex (off : Nat) : Option Nat := persistWords.findIdx? (fun o => o == off)

/-- What a persistent word holds as shipped: the Reset column of its register. -/
def nvReset (off : Nat) : Word := regReset off

/-- The committed value of a persistent word. -/
def Dev.nv (d : Dev) (off : Nat) : Word := SMap.get nvReset d.ps.nv off

/-- Commit a value of a persistent word. -/
def Dev.setNv (d : Dev) (off : Nat) (v : Word) : Dev := { d with ps := { d.ps with nv := SMap.set nvReset d.ps.nv off v } }

/-- A word's cell and wear. -/
def Dev.psWord (d : Dev) (i : Nat) : PsWord := SMap.get PsWord.home d.ps.words i

/-- Change a word's record. -/
def Dev.setPsWord (d : Dev) (i : Nat) (w : PsWord) : Dev :=
  { d with ps := { d.ps with words := SMap.set PsWord.home d.ps.words i w } }

/-- Programmed writes of a cell. -/
def Dev.wear (d : Dev) (slot : Nat) : Nat := SMap.get (fun _ => 0) d.ps.wear slot

/-- One more programmed write of the cell of word `i` (R40, R42). -/
def Dev.program (d : Dev) (i : Nat) : Dev :=
  let w := d.psWord i
  let d := d.setPsWord i { w with total := min (w.total + 1) (2 ^ 32 - 1) }
  { d with ps := { d.ps with wear := SMap.set (fun _ => 0) d.ps.wear w.slot (d.wear w.slot + 1) } }

/-- Programmed writes a cell takes (R42). -/
abbrev endurance : Nat := 20000000

/-- Remap a word into a free spare; with none the write is discarded, the word becomes read-only and PS_WORN stays set
(R42). The result says whether a spare was found. -/
def Dev.remap (d : Dev) (i : Nat) : Dev × Bool :=
  let w := d.psWord i
  if d.ps.sparesUsed < 256 then
    let slot := 160 + d.ps.sparesUsed
    let d := d.setPsWord i { w with slot := slot, remaps := w.remaps + 1 }
    let d := { d with ps := { d.ps with sparesUsed := d.ps.sparesUsed + 1 } }
    let d := d.setReg Pg.ps Reg.PS_REMAP_LAST (word (i + 2 ^ 8 + slot * 2 ^ 9))
    let d := d.bumpSat Pg.ps Reg.PS_REMAP_COUNT 15 0
    let d := d.setNv (Pg.ps.val * 0x1000 + Reg.PS_REMAP_COUNT) (d.reg Pg.ps Reg.PS_REMAP_COUNT)
    (d.detect Pg.ps Evt.PS_WORD_REMAP, true)
  else
    let d := d.setPsWord i { w with worn := true }
    let d := d.bumpSat Pg.ps Reg.PS_WORN_COUNT 8 0
    let d := d.setNv (Pg.ps.val * 0x1000 + Reg.PS_WORN_COUNT) (d.reg Pg.ps Reg.PS_WORN_COUNT)
    ((d.setPersists Pg.ps Evt.PS_PS_WORN true).detect Pg.ps Evt.PS_PS_WORN, false)

/-- Program word `i` with what its read-back shows; the result says whether the value was stored (Table 2.14, R534).
A copy in a bank that sits out is not programmed, so it cannot read back unequal. -/
def Dev.programVerified (d : Dev) (i : Nat) (rb : ReadBack) : Dev × Bool :=
  let (d, ok) := if d.wear (d.psWord i).slot < endurance then (d, true) else d.remap i
  if !ok then (d, false)
  else
    let d := d.program i
    match rb with
    | .equal => (d, true)
    | .unequal bank second =>
      if (d.records Pg.ps).testBit bank.val then (d, true)
      else
        let d := (d.detectUnit Pg.ps Evt.PS_BANK_FAULT bank.val).program i
        if second then (d, true)
        else
          let (d, ok) := d.remap i
          if ok then (d.program i, true) else (d, false)

/-- Write of one persistent word (Table 2.14): equal values are skipped, a read-only word keeps its value, otherwise it
is programmed and the register takes the new value. The result says whether the register changed. -/
def Dev.commitWord (d : Dev) (off : Nat) (v : Word) (rb : ReadBack) : Dev × Bool :=
  match wordIndex off, pageOf off with
  | some i, some p =>
    if (d.psWord i).worn then (d, false)
    else if d.nv off = v then (d.bump Pg.ps Reg.PS_SKIP_COUNT 31 0, false)
    else
      let (d, ok) := d.programVerified i rb
      if ok then ((d.setNv off v).setReg p (off % 0x1000) v, true) else (d, false)
  | _, _ => (d, false)

/-- Is a page held by a write that has reached PS (R40)? Retirement records that an escalation wrote hold no page. -/
def Dev.pageHeld (d : Dev) (p : Page) : Bool := d.ps.queue.any (fun w => !w.record && w.off / 0x1000 == p.val)

/-- A write reaches PS and holds its page (R40). -/
def Dev.psWrite (d : Dev) (p : Page) (off : Nat) (v : Word) : Dev :=
  { d with ps := { d.ps with queue := d.ps.queue ++ [{ off := p.val * 0x1000 + off, v := v, record := false }] } }

/-- PS has no place for a further write: a ninth outstanding one back-pressures the bus (R41). -/
def Dev.psFull (d : Dev) : Bool := decide (8 ≤ (d.ps.queue.filter (fun w => !w.record)).length)

/-- Registers with ROP fields, whose words are kept in volatile storage and committed (R44). -/
def ropWords : List Nat :=
  persistWords.filter (fun o => match pageOf o with
    | some p => (match blockReg (kindOf p) (o % 0x1000) with | some r => hasAcc r .rop | none => false)
    | none => false)

/-- Hours with PWRGOOD high: those that the store held at the boot and those since (CC_RUN_HOURS). -/
def Dev.runHours (d : Dev) : Nat := (d.reg Pg.cc Reg.CC_RUN_HOURS).toNat + d.nowNs / 3600000000000

/-- What an ROP word counts to now. -/
def Dev.ropNow (d : Dev) (p : Page) (off : Nat) : Word :=
  if p = Pg.cc && off = Reg.CC_RUN_HOURS then word d.runHours else d.reg p off

/-- Commit one ROP word, if it has changed; an event-recording one is committed when it changes (R44). -/
def Dev.commitNow (d : Dev) (p : Page) (off : Nat) : Dev :=
  let o := p.val * 0x1000 + off
  match wordIndex o with
  | some i =>
    if d.ropNow p off = d.nv o || (d.psWord i).worn then d
    else
      let (d, ok) := d.programVerified i .equal
      if ok then d.setNv o (d.ropNow p off) else d
  | none => d

/-- Commit every changed ROP counter to MRAM; only changed words are programmed (R44). -/
def Dev.commitRop (d : Dev) : Dev :=
  ropWords.foldl (fun d o => match pageOf o with
    | some p => d.commitNow p (o % 0x1000)
    | none => d) d

end Sys2Proof.Machine
end

