-- ==== Sys2Proof/Machine/Events.lean ====
section
/-! DEFINITION. The event registers of the page header: EVT_RAW, EVT_EN, EVT_FORCE and HIST_READ (R32, R33, R48, R483,
R487). -/

namespace Sys2Proof.Machine

/-- A meaning that changes the device alone: the waiting commands and the tags stay as they are. -/
def State.on (s : State) (f : Dev → Dev) : Host.Outcome State Fault Refusal := .next { s with dev := f s.dev }

/-- Clear raw bits with the severities they carry. -/
def Hdr.clearRaw (h : Hdr) (v : Word) : Hdr :=
  let two (base : Nat) : Word :=
    (List.range 16).foldl (fun m i => if bit (base + i) v then m ||| fieldMask (2 * i + 1) (2 * i) else m) 0
  { h with raw := h.raw &&& ~~~ v, carriedLo := h.carriedLo &&& ~~~ two 0, carriedHi := h.carriedHi &&& ~~~ two 16 }

/-- W1C write of EVT_RAW. A condition that persists is detected again as soon as its bit is cleared (R483; assumption
log 10). -/
def Dev.evtRawClear (d : Dev) (p : Page) (v : Word) : Dev :=
  if kindOf p = .dir then d
  else
    let again := (d.hdr p).raw &&& v &&& (d.hdr p).persists
    let d := d.modHdr p (fun h => h.clearRaw v)
    (List.range 32).foldl (fun d n => if bit n again then d.detect p n else d) d

/-- Write of EVT_EN: each source newly enabled whose raw bit carries NOTICE or above sends the page vector (R48;
assumption log 11). -/
def Dev.evtEnWrite (d : Dev) (p : Page) (v : Word) : Dev :=
  if kindOf p = .dir then d
  else
    let h := d.hdr p
    let rising := v &&& ~~~ h.en &&& h.raw
    let d := d.modHdr p (fun h => { h with en := v })
    (List.range 32).foldl (fun d n => if bit n rising && h.carried n ≠ .log then d.pageVector p else d) d

/-- Write of 1 to EVT_FORCE[n] (R487). -/
def Dev.evtForce (d : Dev) (p : Page) (n : Nat) : Dev := d.force p n

/-- HIST_READ's word for an entry (Table 2.10). -/
def HistEntry.word (e : HistEntry) : Word :=
  BitVec.ofNat 32 (e.timeUs % 2 ^ 23 + e.sev.code * 2 ^ 23 + e.source % 32 * 2 ^ 25 + e.lost.toNat * 2 ^ 30 + 2 ^ 31)

/-- A read of HIST_READ pops the oldest entry; an empty history reads 0 (Table 2.10). -/
def Dev.histPop (d : Dev) (p : Page) : Dev :=
  match (d.hdr p).hist with
  | [] => d.answer 0
  | e :: es => (d.modHdr p (fun h => { h with hist := es })).answer e.word

/-- EVT_RAW_CLEAR (R483). -/
def execEvtRawClear (p : Page) (v : Word) (s : State) : Host.Outcome State Fault Refusal := s.on (·.evtRawClear p v)

/-- EVT_EN_WRITE (R48). -/
def execEvtEnWrite (p : Page) (v : Word) (s : State) : Host.Outcome State Fault Refusal := s.on (·.evtEnWrite p v)

/-- EVT_FORCE (R487, R488). -/
def execEvtForce (p : Page) (n : Fin 32) (s : State) : Host.Outcome State Fault Refusal := s.on (·.evtForce p n.val)

/-- HIST_READ (R33): the popped word is the read's data. -/
def execHistRead (p : Page) (s : State) : Host.Outcome State Fault Refusal :=
  s.on (·.histPop p)

end Sys2Proof.Machine
end

