-- ==== Sys2Proof/Machine/Admit.lean ====
section
/-! DEFINITION. Expected cost and admission (R67 to R76), and the jobs that PX, AM and firmware queue without a ring
(R176). -/

namespace Sys2Proof.Machine

/-! ## Expected cost -/

/-- Supply of a voltage point in mV (Table 3.1). -/
def supplyMv (vp : Nat) : Nat := 550 + 50 * vp

/-- A cost entry has been learned or seeded. -/
def Dev.costKnown (d : Dev) (c vp : Nat) : Bool := d.tf Pg.cc (c * 8 + vp) 1 15 0 != 0 || d.tb Pg.cc (c * 8 + vp) 1 16

/-- The nearest learned or seeded voltage point of a class; of two as near, the lower (assumption log 16). -/
def Dev.nearestCost (d : Dev) (c vp : Nat) : Option Nat :=
  (List.range 8).foldl (fun a v => if !d.costKnown c v then a else match a with
    | none => some v
    | some b => if (if v < vp then vp - v else v - vp) < (if b < vp then vp - b else b - vp) then some v else a) none

/-- COST of a class at a voltage point, 1/16 µJ per unit (R68, R69). -/
def Dev.cost (d : Dev) (c vp : Nat) : Nat :=
  if d.costKnown c vp then d.tf Pg.cc (c * 8 + vp) 0 23 0
  else match d.nearestCost c vp with
    | some v => d.tf Pg.cc (c * 8 + v) 0 23 0 * supplyMv vp ^ 2 / supplyMv v ^ 2
    | none => if c < 15 then Config.costDefault c else 1024 * 16

/-- Class attributes (Table 3.11). -/
def Dev.classUnit (d : Dev) (c : Nat) : Nat := d.tf Pg.cc (0x200 + c) 0 1 0
def Dev.classLevel (d : Dev) (c : Nat) : Nat := d.tf Pg.cc (0x200 + c) 0 3 2
def Dev.classExempt (d : Dev) (c : Nat) : Bool := d.tb Pg.cc (0x200 + c) 0 4
def Dev.classForced (d : Dev) (c : Nat) : Bool := d.tb Pg.cc (0x200 + c) 0 5

/-- A size in 1/1,024 unit, rounded up to a whole unit except for megapixels (R67). -/
def Dev.roundUnits (d : Dev) (c units : Nat) : Nat := if d.classUnit c = 2 then units else ceilDiv units 1024 * 1024

/-- Expected energy in µJ of `units` (1/1,024 unit) of a class on an island (R67; rounding in assumption log 17). -/
def Dev.expected (d : Dev) (c units : Nat) (island : Page) : Nat :=
  d.cost c (d.hdr island).grantedVp.val * d.roundUnits c units / (16 * 1024)

/-! ## The test -/

/-- S_short and S_long (R63). -/
def Dev.sShort (d : Dev) : Nat := d.en.shortW.foldl (· + ·) 0
def Dev.sLong (d : Dev) : Nat := d.en.longW.foldl (· + ·) 0

/-- Headroom of a level in percent (R71). -/
def Dev.headroom (d : Dev) (level : Nat) : Nat :=
  if level = 0 then 0 else d.rf Pg.cc Reg.CC_LEDGER_CFG (5 * level + 3) (5 * level - 1)

/-- Does an expected energy fit both windows under a class's headroom? -/
def Dev.fits (d : Dev) (c e : Nat) : Bool :=
  let h := d.headroom (d.classLevel c)
  decide ((d.sShort + d.en.reserved + e) * 100 ≤ d.en.bShort * (100 - h)) &&
    decide ((d.sLong + d.en.reserved + e) * 100 ≤ d.en.bLong * (100 - h))

/-- The form that admission returns, with its expected energy (R71): primary class and units, and the fallback's where
one is usable. -/
def Dev.admission (d : Dev) (island : Page) (c u : Nat) (fb : Option (Nat × Nat)) : Option (Form × Nat) :=
  let e := d.expected c u island
  if d.classExempt c then some (.primary, 0)
  else if !(d.classForced c && fb.isSome) && d.fits c e then some (.primary, e)
  else match fb with
    | none => none
    | some (fc, fu) =>
      if d.classExempt fc then some (.fallback, 0)
      else if d.fits fc (d.expected fc fu island) then some (.fallback, d.expected fc fu island)
      else none

/-- Add to R. -/
def Dev.reserve (d : Dev) (e : Nat) : Dev := { d with en := { d.en with reserved := d.en.reserved + e } }
/-- Take from R. -/
def Dev.release (d : Dev) (e : Nat) : Dev := { d with en := { d.en with reserved := d.en.reserved - e } }

/-- Count an acceptance of a form (Table 3.10, CC_ADMIT_STAT; assumption log 18). -/
def Dev.countAdmitted (d : Dev) (c : Nat) (fb : Option (Nat × Nat)) (form : Form) : Dev :=
  match form with
  | .primary => d.bumpT Pg.cc (0x200 + c) 1 31 0
  | .fallback =>
    ((d.bumpT Pg.cc (0x200 + (fb.getD (c, 0)).1) 1 31 0).bumpT Pg.cc (0x200 + c) 3 31 0).bumpSat Pg.cc Reg.CC_ADMIT_STAT 31 16

/-- Count a first hold by admission (R72). -/
def Dev.countHeld (d : Dev) (c : Nat) : Dev := (d.bumpT Pg.cc (0x200 + c) 2 31 0).bumpSat Pg.cc Reg.CC_ADMIT_STAT 15 0

/-! ## Jobs -/

/-- A job asks for admission: its form and reservation, or it is held and counted once (R72, R176). -/
def Dev.admitJob (d : Dev) (j : HeldJob) : Dev × Option (Form × Nat) :=
  match d.admission j.page j.cls j.units j.fb with
  | some (f, e) => ((d.reserve e).countAdmitted j.cls j.fb f, some (f, e))
  | none => ({ d.countHeld j.cls with held := (d.countHeld j.cls).held ++ [j] }, none)

/-- JOB_TICK_DISCARD: a job still held when its frame tick has passed is discarded; it was counted when it was first held
(R72, R176). -/
def Dev.jobDiscard (d : Dev) (n : Nat) : Dev := { d with held := d.held.eraseIdx n }

/-- JOB_TICK_DISCARD (R176). -/
def execJobTickDiscard (n : Nat) (s : State) : Host.Outcome State Fault Refusal := s.on (·.jobDiscard n)

/-- Class of an encode or a decode (Table 3.5). -/
def videoClass (encode hevc : Bool) : Nat := if encode then (if hevc then 9 else 8) else (if hevc then 7 else 6)

end Sys2Proof.Machine
end

