-- ==== Sys2Proof/Machine/Aes.lean ====
section
/-! DEFINITION. The AES operations of the cipher engines (R432): FIPS 197, CTR of SP 800-38A, GCM of SP 800-38D with
96-bit IVs and 16-byte tags, XTS of IEEE 1619 on whole blocks. Byte strings are lists of numbers below 256. -/

namespace Sys2Proof.Machine

/-! ## FIPS 197 -/

/-- Multiplication by x in GF(2^8). -/
def aesXtime (b : Nat) : Nat := if b < 128 then 2 * b else (2 * b) ^^^ 0x11B

/-- Multiplication in GF(2^8); the first argument counts bits. -/
def aesMul : Nat → Nat → Nat → Nat
  | 0, _, _ => 0
  | n + 1, a, b => (if b % 2 = 1 then a else 0) ^^^ aesMul n (aesXtime a) (b / 2)

/-- Product of two field elements. -/
def gf (a b : Nat) : Nat := aesMul 8 a b

/-- The 254th power, the inverse in GF(2^8) with 0 sent to 0. -/
def gfInv (a : Nat) : Nat :=
  let a2 := gf a a
  let a3 := gf a2 a
  let a6 := gf a3 a3
  let a12 := gf a6 a6
  let a15 := gf a12 a3
  let a30 := gf a15 a15
  let a60 := gf a30 a30
  let a120 := gf a60 a60
  let a126 := gf a120 a6
  let a127 := gf a126 a
  gf a127 a127

/-- Rotation of a byte. -/
def rotl8 (b n : Nat) : Nat := ((b <<< n) ||| (b >>> (8 - n))) % 256

/-- SubBytes of one byte and its inverse. -/
def aesSub (b : Nat) : Nat :=
  let i := gfInv b
  i ^^^ rotl8 i 1 ^^^ rotl8 i 2 ^^^ rotl8 i 3 ^^^ rotl8 i 4 ^^^ 0x63
def aesUnsub (b : Nat) : Nat :=
  gfInv (rotl8 b 1 ^^^ rotl8 b 3 ^^^ rotl8 b 6 ^^^ 0x05)

/-- Bytewise exclusive or. -/
def xorBytes (a b : List Nat) : List Nat := (a.zip b).map (fun x => x.1 ^^^ x.2)

/-- ShiftRows: byte r + 4c takes r + 4(c + r). -/
def shiftRows (s : List Nat) : List Nat := (List.range 16).map (fun i => s.getD ((i % 4) + 4 * ((i / 4 + i % 4) % 4)) 0)
def unshiftRows (s : List Nat) : List Nat := (List.range 16).map (fun i => s.getD ((i % 4) + 4 * ((i / 4 + 4 - i % 4) % 4)) 0)

/-- MixColumns with the first row of its matrix. -/
def mixWith (m : List Nat) (s : List Nat) : List Nat :=
  (List.range 16).map (fun i =>
    (List.range 4).foldl (fun a k => a ^^^ gf (m.getD ((k + 4 - i % 4) % 4) 0) (s.getD (4 * (i / 4) + k) 0)) 0)
def mixColumns (s : List Nat) : List Nat := mixWith [2, 3, 1, 1] s
def unmixColumns (s : List Nat) : List Nat := mixWith [14, 11, 13, 9] s

/-- Words of the key schedule after the key's own `nk` words, `n` of them. -/
def expandKey (nk : Nat) : Nat → Nat → Nat → List (List Nat) → List (List Nat)
  | 0, _, _, ws => ws
  | n + 1, i, rc, ws =>
    let last := ws.getD (i - 1) []
    let t :=
      if i % nk = 0 then
        xorBytes [aesSub (last.getD 1 0), aesSub (last.getD 2 0), aesSub (last.getD 3 0), aesSub (last.getD 0 0)] [rc, 0, 0, 0]
      else if nk > 6 && i % nk = 4 then last.map aesSub
      else last
    expandKey nk n (i + 1) (if i % nk = 0 then aesXtime rc else rc) (ws ++ [xorBytes t (ws.getD (i - nk) [])])

/-- The round keys of a 16-byte or 32-byte key. -/
def roundKeys (key : List Nat) : List (List Nat) :=
  let nk := key.length / 4
  let ws := (List.range nk).map (fun i => (key.drop (4 * i)).take 4)
  let total := 4 * (nk + 7)
  let ws := expandKey nk (total - nk) nk 1 ws
  (List.range (nk + 7)).map (fun r => ((ws.drop (4 * r)).take 4).flatten)

/-- The cipher on one block with expanded round keys. -/
def aesEnc (rk : List (List Nat)) (b : List Nat) : List Nat :=
  let s := xorBytes b (rk.getD 0 [])
  let s := ((rk.drop 1).dropLast).foldl (fun s k => xorBytes (mixColumns (shiftRows (s.map aesSub))) k) s
  xorBytes (shiftRows (s.map aesSub)) (rk.getLastD [])

/-- The inverse cipher. -/
def aesDec (rk : List (List Nat)) (b : List Nat) : List Nat :=
  let s := (unshiftRows (xorBytes b (rk.getLastD []))).map aesUnsub
  let s := (((rk.drop 1).dropLast).reverse).foldl (fun s k => (unshiftRows (unmixColumns (xorBytes s k))).map aesUnsub) s
  xorBytes s (rk.getD 0 [])

/-! ## Modes -/

/-- Big-endian bytes of a number and the number of big-endian bytes. -/
def beBytes (n v : Nat) : List Nat := (bytesBE n v).map (·.toNat)
def beNum (bs : List Nat) : Nat := bs.foldl (fun a b => a * 256 + b) 0

/-- The key stream blocks from a counter block on; the low `w` bits count. -/
def ctrStream (rk : List (List Nat)) (w : Nat) : Nat → Nat → List Nat
  | 0, _ => []
  | n + 1, c =>
    aesEnc rk (beBytes 16 c) ++ ctrStream rk w n (c / 2 ^ w * 2 ^ w + (c % 2 ^ w + 1) % 2 ^ w)

/-- CTR from an initial counter block. -/
def ctrCrypt (key : List Nat) (w c : Nat) (data : List Nat) : List Nat :=
  xorBytes data (ctrStream (roundKeys key) w ((data.length + 15) / 16) c)

/-- One bit step of the GHASH product. -/
def ghashSteps : Nat → Nat → Nat → Nat → Nat
  | 0, _, _, z => z
  | n + 1, x, v, z =>
    ghashSteps n x (if v % 2 = 1 then (v / 2) ^^^ (0xE1 * 2 ^ 120) else v / 2) (if x.testBit n then z ^^^ v else z)

/-- Product in the field of GHASH. -/
def ghashMul (x h : Nat) : Nat := ghashSteps 128 x h 0

/-- Data padded with zeros to whole blocks. -/
def padBlock (bs : List Nat) : List Nat := bs ++ List.replicate ((16 - bs.length % 16) % 16) 0

/-- GHASH over whole blocks; the first argument counts them. -/
def ghash (h : Nat) : Nat → Nat → List Nat → Nat
  | 0, y, _ => y
  | n + 1, y, bs => ghash h n (ghashMul (y ^^^ beNum (bs.take 16)) h) (bs.drop 16)

/-- The tag of GCM over additional data and ciphertext. -/
def gcmTag (key : List Nat) (iv : Nat) (aad ct : List Nat) : List Nat :=
  let rk := roundKeys key
  let h := beNum (aesEnc rk (List.replicate 16 0))
  let all := padBlock aad ++ padBlock ct ++ beBytes 8 (8 * aad.length) ++ beBytes 8 (8 * ct.length)
  let s := ghash h (all.length / 16) 0 all
  xorBytes (beBytes 16 s) (aesEnc rk (beBytes 16 (iv * 2 ^ 32 + 1)))

/-- GCM's CTR part: J0 = IV ∥ 1, so data starts at counter 2 (R438). -/
def gcmCrypt (key : List Nat) (iv : Nat) (data : List Nat) : List Nat := ctrCrypt key 32 (iv * 2 ^ 32 + 2) data

/-- Multiplication of an XTS tweak by alpha, little-endian. -/
def xtsAlpha (t : Nat) : Nat := if t < 2 ^ 127 then 2 * t else (2 * t - 2 ^ 128) ^^^ 0x87

/-- Little-endian bytes of a number as numbers. -/
def leBytes (n v : Nat) : List Nat := (bytesLE n v).map (·.toNat)
def leNum : List Nat → Nat
  | [] => 0
  | b :: bs => b + 256 * leNum bs

/-- The blocks of one data unit; the first argument counts them. -/
def xtsBlocks (rk : List (List Nat)) (enc : Bool) : Nat → Nat → List Nat → List Nat
  | 0, _, _ => []
  | n + 1, t, bs =>
    let tw := leBytes 16 t
    let x := xorBytes (bs.take 16) tw
    xorBytes (if enc then aesEnc rk x else aesDec rk x) tw ++ xtsBlocks rk enc n (xtsAlpha t) (bs.drop 16)

/-- Data units from a unit number on; the first argument counts them. -/
def xtsUnits (k1 k2 : List (List Nat)) (enc : Bool) (size : Nat) : Nat → Nat → List Nat → List Nat
  | 0, _, _ => []
  | n + 1, u, bs =>
    xtsBlocks k1 enc (size / 16) (leNum (aesEnc k2 (leBytes 16 u))) (bs.take size) ++ xtsUnits k1 k2 enc size n (u + 1) (bs.drop size)

/-- XTS of whole data units. -/
def xtsCrypt (key : List Nat) (enc : Bool) (size unit : Nat) (bs : List Nat) : List Nat :=
  let n := key.length / 2
  xtsUnits (roundKeys (key.take n)) (roundKeys (key.drop n)) enc size (bs.length / size) unit bs

end Sys2Proof.Machine
end

