-- ==== Sys2Proof/Machine/MemOps.lean ====
section
/-! DEFINITION. Access to device physical addresses: the address map, DRAM with its parity and reconstruction, stage SRAM
and host memory (R13 to R15, R112 to R116). -/

namespace Sys2Proof.Machine

/-- What a device physical address reaches (Table 1.4). -/
inductive Target where
  | dram | sram | cell | regs | host | hole
deriving DecidableEq, Repr

/-- The address map (R13). -/
def targetOf (pa : Nat) : Target :=
  if pa < 0x2000000000 then .dram
  else if 0x4000000000 ≤ pa && pa < 0x4004000000 then .sram
  else if 0x4100000000 ≤ pa && pa < 0x4103000000 then .cell
  else if 0x8000000000 ≤ pa && pa < 0x8004000000 then .regs
  else if 0x10000000000 ≤ pa && pa < 2 ^ 48 then .host
  else .hole

/-! ## DRAM -/

/-- Group, row, data unit and byte of a DRAM address (R112). -/
def dramGroup (a : Nat) : Nat := a >>> 35
def dramRow (a : Nat) : Nat := (a % 2 ^ 35) >>> 9
def dramUnit (a : Nat) : Nat := (a >>> 6) % 8
/-- Parity member of a row. -/
def parityOf (n : Nat) : Nat := n % 9
/-- Member that holds data unit `u` of row `n`. -/
def memberOf (n u : Nat) : Nat := (parityOf n + 1 + u) % 9
/-- Byte offset in every member's channel of a DRAM address. -/
def chanOff (a : Nat) : Nat := dramRow a * 64 + a % 64

/-- Key of a byte of a channel. -/
def cellKey (g m off : Nat) : Nat := (9 * g + m) * 2 ^ 32 + off

/-- A byte of a channel. -/
def Dev.cell (d : Dev) (g m off : Nat) : Byte := SMap.get (fun _ => 0) d.ram.dram (cellKey g m off)

/-- Store a byte of a channel. -/
def Dev.setCell (d : Dev) (g m off : Nat) (b : Byte) : Dev :=
  { d with ram := { d.ram with dram := SMap.set (fun _ => 0) d.ram.dram (cellKey g m off) b } }

/-- A member serves reads: trained, neither retired nor lost nor rebuilding, its record not being committed. -/
def Grp.up (x : Grp) (m : Nat) : Bool :=
  ((x.m m).state == .active || (x.m m).state == .selfRefresh) && !(x.m m).lost && x.retiring != some m

/-- A member takes writes: as `up`, or trained and rebuilding (R121). -/
def Grp.takes (x : Grp) (m : Nat) : Bool := x.up m || x.rebuild == some (m, true)

/-- XOR of a byte position over the members other than `m`. -/
def Dev.xorOthers (d : Dev) (g m off : Nat) : Byte :=
  (List.range 9).foldl (fun b k => if k = m then b else b ^^^ d.cell g k off) 0

/-- Every member but `m` serves reads. -/
def Grp.othersUp (x : Grp) (m : Nat) : Bool := (List.range 9).all (fun k => k == m || x.up k)

/-- A byte of DRAM: from its member, or by XOR of the other eight (R114); none where both ways are shut (R116). -/
def Dev.dramByte (d : Dev) (a : Nat) : Option Byte :=
  let x := d.grp (dramGroup a)
  let m := memberOf (dramRow a) (dramUnit a)
  if x.up m then some (d.cell (dramGroup a) m (chanOff a))
  else if x.othersUp m then some (d.xorOthers (dramGroup a) m (chanOff a))
  else none

/-- Store a byte of DRAM with its parity (R113, R115): a write that needs two lost members is discarded (R116). -/
def Dev.setDramByte (d : Dev) (a : Nat) (b : Byte) : Dev :=
  let g := dramGroup a
  let x := d.grp g
  let n := dramRow a
  let m := memberOf n (dramUnit a)
  let p := parityOf n
  let off := chanOff a
  if x.up m then
    let par := d.cell g p off ^^^ d.cell g m off ^^^ b
    let d1 := d.setCell g m off b
    if x.up p then d1.setCell g p off par
    else if x.takes p then d1.setCell g p off (d1.xorOthers g p off)
    else d1
  else if x.othersUp m then
    let par := d.cell g p off ^^^ d.xorOthers g m off ^^^ b
    let d1 := d.setCell g p off par
    if x.takes m then d1.setCell g m off b else d1
  else d

/-- A write touches data units of a row: a row covered whole is written whole; a partial one waits for its merge window
(R113). -/
def Dev.noteRow (d : Dev) (g n : Nat) (units : BitVec 8) : Dev :=
  let x := d.grp g
  let old : BitVec 8 := match x.merges.find? (fun e => e.row == n) with
    | some e => e.units
    | none => 0
  let rest := x.merges.filter (fun e => e.row != n)
  let all := old ||| units
  if all = 0xFF then d.setGrp g { x with merges := rest }
  else if d.rf (pg (8 + g)) Reg.MC_COMBINE_CFG 9 0 = 0 then
    (d.setGrp g { x with merges := rest }).bump (pg (8 + g)) Reg.MC_RMW_CNT 31 0
  else d.setGrp g { x with merges := rest ++ [{ row := n, units := all }] }

/-- The units of row `n` of a group that a byte range of DRAM touches. -/
def unitsOf64 (a len n g : Nat) : BitVec 8 :=
  (List.range 8).foldl (fun m u =>
    if overlaps a len (g * 2 ^ 35 + n * 512 + u * 64) 64 then m ||| BitVec.ofNat 8 (2 ^ u) else m) 0

/-- Note every row a DRAM write touches. -/
def Dev.noteRows (d : Dev) (a len : Nat) : Dev :=
  if len = 0 then d
  else (List.range ((a + len - 1) / 512 - a / 512 + 1)).foldl (fun d i =>
    let r := a / 512 + i
    let g := r / 2 ^ 26
    d.noteRow g (r % 2 ^ 26) (unitsOf64 a len (r % 2 ^ 26) g)) d

/-- Count the units of a read that were reconstructed (R114). -/
def Dev.noteReads (d : Dev) (a len : Nat) : Dev :=
  if len = 0 then d
  else (List.range ((a + len - 1) / 64 - a / 64 + 1)).foldl (fun d i =>
    let u := (a / 64 + i) * 64
    if (d.grp (dramGroup u)).up (memberOf (dramRow u) (dramUnit u)) then d
    else d.bump (pg (8 + dramGroup u)) Reg.MC_DEGRADED_RD 31 0) d

/-! ## Physical accesses -/

/-- How a physical access ends. -/
inductive MRes where
  | ok
  /-- address-error response of FB (R14) -/
  | hole
  /-- error response of the target -/
  | err
deriving DecidableEq, Repr

/-- A byte of stage SRAM or host memory. -/
def Dev.sysByte (d : Dev) (a : Nat) : Byte := SMap.get (fun _ => 0) d.ram.sys a

/-- Store a byte of stage SRAM or host memory. -/
def Dev.setSysByte (d : Dev) (a : Nat) (b : Byte) : Dev :=
  { d with ram := { d.ram with sys := SMap.set (fun _ => 0) d.ram.sys a b } }

/-- A byte at a device physical address that holds memory, as a read sees it. -/
def Dev.physByte (d : Dev) (a : Nat) : Option Byte :=
  match targetOf a with
  | .dram => d.dramByte a
  | .sram | .host => some (d.sysByte a)
  | _ => none

/-- Store a byte at a device physical address that holds memory. -/
def Dev.setPhysByte (d : Dev) (a : Nat) (b : Byte) : Dev :=
  match targetOf a with
  | .dram => d.setDramByte a b
  | .sram | .host => d.setSysByte a b
  | _ => d

/-- Does an engine reach this address as memory (R14)? -/
def isMemory (a : Nat) : Bool := targetOf a == .dram || targetOf a == .sram || targetOf a == .host

/-- How an access of an engine to a byte range ends. -/
def Dev.physCheck (d : Dev) (a len : Nat) (write : Bool) : MRes :=
  let as := (List.range len).map (fun i => a + i)
  if as.any (fun x => !isMemory x) then .hole
  else if !write && as.any (fun x => (d.physByte x).isNone) then .err
  else .ok

/-- Requester number of Table 6.1, for the requesters it lists. -/
def requesterNumber : Requester → Option Nat
  | .dma ch => some ch.val
  | .ve n => some (256 + n.val)
  | .ds n => some (272 + n.val)
  | .cp n => some (280 + n.val)
  | .am => some 284
  | .px => some 285
  | .ac => some 286
  | .ce n => some (287 + n.val)
  | .cc => some 289
  | _ => none

/-- FB answers an access outside the map: its address is kept and ADDR_HOLE raised (R14, Table 23.3). For a requester that
Table 6.1 gives no number, the REQUESTER field takes a free value. -/
def Dev.hole (d : Dev) (a : Nat) (who : Option Nat) : Dev :=
  let (d, n) := match who with
    | some n => (d, n)
    | none => (d.drawn, Config.freeNat d.fresh)
  let d := d.setReg Pg.fb Reg.FB_HOLE_ADDR_LO (word a)
  (d.setReg Pg.fb Reg.FB_HOLE_ADDR_HI (word ((a >>> 32) % 2 ^ 16 + n % 512 * 2 ^ 16))).detect Pg.fb Evt.FB_ADDR_HOLE

/-- An engine's read of a physical byte range. -/
def Dev.physRead (d : Dev) (a len : Nat) (who : Option Nat := none) : Dev × MRes × List Byte :=
  match d.physCheck a len false with
  | .hole => (d.hole a who, .hole, [])
  | .err => (d, .err, [])
  | .ok =>
    let bs := (List.range len).map (fun i => (d.physByte (a + i)).getD 0)
    (if targetOf a = .dram then d.noteReads a len else d, .ok, bs)

/-- Store consecutive bytes. -/
def Dev.putBytes (d : Dev) : Nat → List Byte → Dev
  | _, [] => d
  | a, b :: bs => (d.setPhysByte a b).putBytes (a + 1) bs

/-- Is this a byte range that a requester reaches in register space: DX's own channels and rings, by number (R14)? -/
def dxRegs (who : Option Nat) (a len : Nat) : Bool :=
  (match who with | some n => decide (n < 256) | none => false) && 0 < len && targetOf a == .regs && targetOf (a + len - 1) == .regs

/-- An engine's write of a physical byte range. DX's writes to register space are made once the command has done the rest. -/
def Dev.physWrite (d : Dev) (a : Nat) (bs : List Byte) (who : Option Nat := none) : Dev × MRes :=
  match d.physCheck a bs.length true with
  | .hole => if dxRegs who a bs.length then ({ d with asks := d.asks ++ [.regs a bs] }, .ok) else (d.hole a who, .hole)
  | .err => (d, .err)
  | .ok => (if targetOf a = .dram then (d.putBytes a bs).noteRows a bs.length else d.putBytes a bs, .ok)

/-- A number read from physical memory, little-endian; unreadable bytes read 0. -/
def Dev.physNum (d : Dev) (a len : Nat) : Nat := numLE ((List.range len).map (fun i => (d.physByte (a + i)).getD 0))

end Sys2Proof.Machine
end

