-- ==== Sys2Proof/Machine/Xlate.lean ====
section
/-! DEFINITION. Translation in DX: address spaces, table walks, the translation cache, parking and refusal (R133 to
R142). -/

namespace Sys2Proof.Machine

/-! Requester numbers (Table 6.1). -/
def whoVe (e : Nat) : Nat := 256 + e
def whoDs (c : Nat) : Nat := 272 + c
def whoAc : Nat := 286
def whoCe (n : Nat) : Nat := 287 + n

/-! ## Address spaces (Table 6.11) -/

def Dev.asidValid (d : Dev) (a : Nat) : Bool := d.tb Pg.dx (0x800 + a) 0 0
def Dev.asidHost (d : Dev) (a : Nat) : Bool := d.tb Pg.dx (0x800 + a) 0 1
def Dev.asidPr (d : Dev) (a : Nat) : Bool := d.tb Pg.dx (0x800 + a) 0 2
def Dev.asidRoot (d : Dev) (a : Nat) : Nat := d.tf Pg.dx (0x800 + a) 0 31 12 * 4096 + d.tf Pg.dx (0x800 + a) 1 15 0 * 2 ^ 32
def Dev.asidPasid (d : Dev) (a : Nat) : Option Nat :=
  if d.tb Pg.dx (0x800 + a) 2 20 then some (d.tf Pg.dx (0x800 + a) 2 19 0) else none

/-- Does the ASID map each address to itself: ASID 0, or translation off (R133, Table 6.10)? -/
def Dev.identity (d : Dev) (a : Nat) : Bool := a == 0 || !d.rb Pg.dx Reg.DX_CFG 0

/-! ## Table walks -/

/-- How a device-mode walk ends. -/
inductive Walk where
  /-- page: physical address, size in bits, read and write permission, PR of the leaf -/
  | ok (pa size : Nat) (rd wr pr : Bool)
  /-- a fault; `pr` says whether it may park -/
  | fault (pr : Bool)
  | error
deriving DecidableEq, Repr

/-- One level of a walk and the levels below it (R135, Table 6.2). `pr` is the PR bit of the entry above. -/
def Dev.walkFrom (d : Dev) (va : Nat) : Nat → Nat → Bool → Bool → Bool → Walk
  | 0, _, _, _, pr => .fault pr
  | l + 1, table, rd, wr, pr =>
    let ea := table + (va >>> (12 + 9 * l)) % 512 * 8
    if !isMemory ea || (d.physCheck ea 8 false) != .ok then .error
    else
      let e := d.physNum ea 8
      let v := e.testBit 0
      let rd := rd && e.testBit 1
      let wr := wr && e.testBit 2
      let leaf := e.testBit 3
      let epr := e.testBit 4
      let addr := (e >>> 12) % 2 ^ 36 * 4096
      let size := 12 + 9 * l
      if !v then .fault pr
      else if (e >>> 5) % 128 ≠ 0 then .fault epr
      else if leaf then
        if l = 3 || addr % 2 ^ size ≠ 0 then .fault epr else .ok addr size rd wr epr
      else if l = 0 then .fault epr
      else d.walkFrom va l addr rd wr epr

/-- A walk from the ASID's root; a V = 0 entry at level 4 counts as PR = 1. -/
def Dev.walk (d : Dev) (asid va : Nat) : Walk := d.walkFrom va 4 (d.asidRoot asid) true true true

/-! ## The cache -/

/-- The cached translation of an address. -/
def Dev.cached (d : Dev) (asid va : Nat) : Option XEntry :=
  d.dx.cache.find? (fun e => e.asid == asid && e.va == va / 2 ^ e.size * 2 ^ e.size)

/-- Cache a translation, or use it again: it becomes the most recently used, and the least recently used of 8,192 entries makes
room (R137; assumption log 12). -/
def Dev.fillCache (d : Dev) (e : XEntry) : Dev :=
  { d with dx := { d.dx with cache := (e :: d.dx.cache.filter (fun x => !(x.asid == e.asid && x.va == e.va))).take 8192 } }

/-! ## Parking -/

/-- The park of a requester. -/
def Dev.park? (d : Dev) (who : Nat) : Option Park := d.dx.parks.find? (fun p => p.who == who)

/-- Replace the park of a requester. -/
def Dev.setPark (d : Dev) (p : Park) : Dev :=
  { d with dx := { d.dx with parks := (d.dx.parks.filter (fun x => x.who != p.who)) ++ [p] } }

/-- Forget the park of a requester. -/
def Dev.dropPark (d : Dev) (who : Nat) : Dev :=
  { d with dx := { d.dx with parks := d.dx.parks.filter (fun x => x.who != who) } }

/-- Is a requester parked on this page and not yet answered? -/
def Dev.parkedAt (d : Dev) (who va : Nat) : Bool :=
  match d.park? who with
  | some p => decide (p.stage ≤ 2) && p.va == va / 4096 * 4096
  | none => false

/-- Is a requester parked and not yet answered? -/
def Dev.isParked (d : Dev) (who : Nat) : Bool :=
  match d.park? who with
  | some p => decide (p.stage ≤ 2)
  | none => false

/-- How a request for this page that is no longer pending ended, where it did not succeed: refused, or by a walk error. -/
def Dev.ended? (d : Dev) (who va : Nat) : Option Nat :=
  match d.park? who with
  | some p => if 4 ≤ p.stage && p.va = va / 4096 * 4096 then some p.stage else none
  | none => none

/-- A translation succeeds: a request for its page that was answered is forgotten. -/
def Dev.passed (d : Dev) (who va : Nat) : Dev :=
  match d.park? who with
  | some p => if 3 ≤ p.stage && p.va = va / 4096 * 4096 then d.dropPark who else d
  | none => d

/-- A refusal: PAGE_REFUSED and its count (R141). -/
def Dev.refuse (d : Dev) (who : Nat) : Dev :=
  ((d.dropPark who).bump Pg.dx Reg.DX_PARK_COUNT 31 16).detect Pg.dx Evt.DX_PAGE_REFUSED

/-- What translating an address answers. -/
inductive XRes where
  | ok (pa : Nat)
  /-- a host translation has been asked for -/
  | wait
  | parked
  | refused
  | walkErr
deriving DecidableEq, Repr

/-- A translation fault: the requester parks and a page request is raised, or the fault is refused at once (R139 to
R141). -/
def Dev.xfault (d : Dev) (who asid va : Nat) (wr pr : Bool) : Dev × XRes :=
  if d.isParked who then (d, .parked)
  else
  let d := d.bumpT Pg.dx (0x800 + asid) 3 31 0
  let host := d.asidHost asid
  let tries := match d.park? who with
    | some p => if p.va = va / 4096 * 4096 then p.successes else 0
    | none => 0
  if !d.asidPr asid || !pr || (host && (!d.dx.pri || 0xFEFFFFFFFFFF < va)) ||
      (d.rf Pg.dx Reg.DX_PARK_MODE 19 16 ≤ tries && tries ≠ 0) then (d.refuse who, .refused)
  else
    let p : Park := { who := who, asid := asid, va := va / 4096 * 4096, rd := !wr, wr := wr, host := host,
                      stage := if host || d.rb Pg.dx Reg.DX_PARK_MODE 0 then 1 else 2, successes := tries }
    let d := ((d.setPark p).bump Pg.dx Reg.DX_PARK_COUNT 15 0).detect Pg.dx Evt.DX_XLATE_PARK
    let d :=
      if host then d.emit (.pageRequest who (d.asidPasid asid) p.va p.rd p.wr)
      else if d.rb Pg.dx Reg.DX_PARK_MODE 0 then d
      else d.detect Pg.dx Evt.DX_PAGE_REQ
    (d, .parked)

/-- A permission check on a cached translation. -/
def XEntry.allows (e : XEntry) (wr : Bool) : Bool := if wr then e.wr else e.rd

/-- Fault of a request that is answered later than its requester's access: a refusal waits for the requester. -/
def Dev.xfaultLater (d : Dev) (who asid va : Nat) (wr pr : Bool) : Dev :=
  match d.xfault who asid va wr pr with
  | (d, .refused) => d.setPark { who := who, asid := asid, va := va / 4096 * 4096, rd := !wr, wr := wr, host := false, stage := 4,
                                 successes := 0 }
  | (d, _) => d

/-- A device-mode walk at the end of its reads (R135). -/
def Dev.walked (d : Dev) (who asid va : Nat) (wr : Bool) : Dev × XRes :=
  let d := d.bump Pg.dx Reg.DX_WALK_STAT 15 0
  match d.walk asid va with
  | .error => (((d.bump Pg.dx Reg.DX_WALK_STAT 31 16).detect Pg.dx Evt.DX_WALK_ERROR).passed who va, .walkErr)
  | .fault pr => d.xfault who asid va wr pr
  | .ok pa size rd w pr =>
    let e : XEntry :=
      { asid := asid, va := va / 2 ^ size * 2 ^ size, size := size, pa := pa, rd := rd, wr := w, pr := pr }
    if e.allows wr then ((d.fillCache e).passed who va, .ok (pa + va % 2 ^ size)) else d.xfault who asid va wr pr

/-- A translation that others answer: the requester waits for it. -/
def Dev.await (d : Dev) (who asid va : Nat) (wr : Bool) : Dev :=
  let w := (who, asid, va / 4096 * 4096, !wr, wr)
  { d with dx := { d.dx with walks := d.dx.walks.filter (fun (x : Nat × Nat × Nat × Bool × Bool) => x.1 != who) ++ [w] } }

/-- Is a translation of this page under way for a requester? -/
def Dev.awaits (d : Dev) (who va : Nat) : Bool := d.dx.walks.any (fun x => x.1 == who && x.2.2.1 == va / 4096 * 4096)

/-- Translate one address for a requester (R133 to R141). In host mode with ATS a miss asks the host and waits. With `later`
a device-mode walk is left to end by itself. -/
def Dev.xlateWith (d : Dev) (later : Bool) (who asid va : Nat) (wr : Bool) : Dev × XRes :=
  if d.identity asid then (d, .ok va)
  else if !d.asidValid asid then (d.refuse who, .refused)
  else if d.parkedAt who va then (d, .parked)
  else if d.ended? who va = some 4 then (d.dropPark who, .refused)
  else if d.ended? who va = some 5 then (d.dropPark who, .walkErr)
  else if d.asidHost asid && 0xFEFFFFFFFFFF < va then d.xfault who asid va wr true
  else if d.asidHost asid && !d.dx.ats then (d.passed who va, .ok (0x10000000000 + va))
  else match d.cached asid va with
    | some e =>
      let d := (d.fillCache e).bump Pg.dx Reg.DX_XC_HITS 31 0
      if e.allows wr then (d.passed who va, .ok (e.pa + va % 2 ^ e.size)) else d.xfault who asid va wr e.pr
    | none =>
      if d.awaits who va && (later || d.asidHost asid) then (d, .wait)
      else
        let d := d.bump Pg.dx Reg.DX_XC_MISSES 31 0
        if d.asidHost asid then ((d.await who asid va wr).emit (.atsRequest who (va / 4096 * 4096)), .wait)
        else if later then (d.await who asid va wr, .wait)
        else d.walked who asid va wr

/-- Translate one address of an engine's access. -/
def Dev.xlate (d : Dev) (who asid va : Nat) (wr : Bool) : Dev × XRes := d.xlateWith false who asid va wr

/-! ## Virtual byte ranges of an engine -/

/-- How an engine's access to a virtual range ends. -/
inductive VRes where
  | ok
  /-- the engine waits: it is parked, or the host has been asked; the command is taken up again later -/
  | stop
  /-- the job fails with this cause -/
  | fail (cause : Nat)
deriving DecidableEq, Repr

/-- The pieces of a virtual range that lie in one 4 KiB page each. -/
def pieces : Nat → Nat → Nat → List (Nat × Nat)
  | 0, _, _ => []
  | f + 1, va, len =>
    if len = 0 then []
    else
      let n := min len (4096 - va % 4096)
      (va, n) :: pieces f (va + n) (len - n)

/-- The cause a failed physical access gives (R147). -/
def MRes.cause : MRes → Nat
  | .hole => Cause.ADDR_ERROR
  | _ => Cause.RESP_ERROR

/-- Read the pieces of a virtual range in order. -/
def Dev.readPieces (d : Dev) (who asid : Nat) : List (Nat × Nat) → Dev × VRes × List Byte
  | [] => (d, .ok, [])
  | (va, n) :: ps =>
    match d.xlate who asid va false with
    | (d, .ok pa) =>
      match d.physRead pa n (some who) with
      | (d, .ok, bs) =>
        match d.readPieces who asid ps with
        | (d, r, cs) => (d, r, bs ++ cs)
      | (d, r, _) => (d, .fail r.cause, [])
    | (d, .refused) => (d, .fail Cause.XLATE_REFUSED, [])
    | (d, .walkErr) => (d, .fail Cause.WALK_ERROR, [])
    | (d, _) => (d, .stop, [])

/-- Write the pieces of a virtual range in order; pieces before a fault stay written (R139). -/
def Dev.writePieces (d : Dev) (who asid : Nat) : List (Nat × Nat) → List Byte → Dev × VRes
  | [], _ => (d, .ok)
  | (va, n) :: ps, bs =>
    match d.xlate who asid va true with
    | (d, .ok pa) =>
      match d.physWrite pa (bs.take n) (some who) with
      | (d, .ok) => d.writePieces who asid ps (bs.drop n)
      | (d, r) => (d, .fail r.cause)
    | (d, .refused) => (d, .fail Cause.XLATE_REFUSED)
    | (d, .walkErr) => (d, .fail Cause.WALK_ERROR)
    | (d, _) => (d, .stop)

/-- Read a virtual byte range. -/
def Dev.virtRead (d : Dev) (who asid va len : Nat) : Dev × VRes × List Byte :=
  d.readPieces who asid (pieces (len / 4096 + 2) va len)

/-- Write a virtual byte range. -/
def Dev.virtWrite (d : Dev) (who asid va : Nat) (bs : List Byte) : Dev × VRes :=
  d.writePieces who asid (pieces (bs.length / 4096 + 2) va bs.length) bs

end Sys2Proof.Machine
end

