-- ==== Sys2Proof/Machine/Cipher.lean ====
section
/-! DEFINITION. Cipher engines (chapter 18): key slots, blobs, ring requests, inline requests, nonces, scrubs and the
lock register. -/

namespace Sys2Proof.Machine

namespace Cause
abbrev SLOT_EMPTY := 0x80
abbrev SLOT_USE := 0x81
abbrev NONCE_EXHAUSTED := 0x82
abbrev CE_LENGTH := 0x83
abbrev UNWRAP_FAIL := 0x84
abbrev LOADS_EXHAUSTED := 0x85
abbrev SLOT_ERASED := 0x86
abbrev CMP_FAIL := 0x87
abbrev SCRUB_FAIL := 0x88
end Cause

/-! ## Slots and engines -/

/-- A key slot. -/
def Dev.slot (d : Dev) (n : Nat) : KeySlot := SMap.get (fun _ => KeySlot.empty) d.keys.slots n
/-- Replace a key slot. -/
def Dev.setSlot (d : Dev) (n : Nat) (k : KeySlot) : Dev :=
  { d with keys := { d.keys with slots := SMap.set (fun _ => KeySlot.empty) d.keys.slots n k } }
/-- A cipher engine. -/
def Dev.ce (d : Dev) (n : Nat) : CeUnit := SMap.get (fun _ => CeUnit.reset) d.ces n
/-- Replace a cipher engine. -/
def Dev.setCe (d : Dev) (n : Nat) (u : CeUnit) : Dev := { d with ces := SMap.set (fun _ => CeUnit.reset) d.ces n u }
/-- Page of a cipher engine. -/
def cePage (n : Nat) : Page := pg (0x3A + n)
/-- CEn_LOCK.MODE. -/
def Dev.ceMode (d : Dev) (n : Nat) : Nat := d.rf (cePage n) Reg.CE_LOCK 1 0

/-- Ring requests in progress at an engine: STARTED is recorded or being recorded. -/
def Dev.ceInProgress (d : Dev) (n : Nat) : List Item :=
  d.wk.items.filter (fun i => engineOf i.desc == 6 && i.inst == some n && i.phase == .running)

/-- Items that have started on a slot and not finished, re-dispatched ones included (R434, R435). -/
def Dev.slotItems (d : Dev) (slot : Nat) : List Item :=
  d.wk.items.filter (fun i => engineOf i.desc == 6 && ctxOf i.desc % 256 == slot && opOf i.desc != 0x10 &&
    (i.phase == .running || (i.recorded == .started && (i.phase == .ready || i.phase == .waiting || i.phase == .bound))))

/-- Erase every TEST slot (Table 18.6). -/
def Dev.eraseTest (d : Dev) : Dev :=
  { d with keys := { d.keys with slots := d.keys.slots.filter (fun x => x.2.state != .test) } }

/-- The lock takes a mode (R448). -/
def Dev.setMode (d : Dev) (n m : Nat) : Dev :=
  let d := if d.ceMode n = 2 && m = 0 then d.eraseTest else d
  let changed := d.ceMode n != m
  let d := (d.setRf (cePage n) Reg.CE_LOCK 1 0 m).setCe n { d.ce n with pendMode := none }
  if changed then d.detect (cePage n) Evt.CE_LOCK_CHANGE else d

/-- A waiting mode takes effect once no request is in progress (R448). -/
def Dev.ceSettle (d : Dev) (n : Nat) : Dev :=
  match (d.ce n).pendMode with
  | some m => if (d.ceInProgress n).isEmpty then d.setMode n m else d
  | none => d

/-- A mode is asked for. -/
def Dev.askMode (d : Dev) (n m : Nat) : Dev := (d.setCe n { d.ce n with pendMode := some m }).ceSettle n

/-- Can the engine take this item now (R448): in SERVICE every one, in TEST one on a TEST slot or an UNWRAP? -/
def Dev.ceTakes (d : Dev) (n : Nat) (desc : BitVec 512) : Bool :=
  (d.hdr (cePage n)).state.serves && (d.ce n).pendMode.isNone &&
    (d.ceMode n == 0 || (d.ceMode n == 2 && (opOf desc == 0x10 || (d.slot (ctxOf desc % 256)).state == .test)))

/-- Bytes an engine processes, for CEn_BW. -/
def Dev.ceBytes (d : Dev) (n b : Nat) : Dev :=
  d.setCe n { d.ce n with bytes := logAdd' (d.ce n).bytes d.nowNs b }
where
  logAdd' (l : List (Nat × Nat)) (now v : Nat) : List (Nat × Nat) := (now, v) :: l.filter (fun x => now < x.1 + 1000000)

/-- A nonce refusal is latched (Table 18.9). -/
def Dev.nonceLast (d : Dev) (n slot cause : Nat) : Dev :=
  d.setReg (cePage n) Reg.CE_NONCE_LAST (word (slot + cause * 2 ^ 8 + 2 ^ 31))

/-- A slot is exhausted (R439). -/
def Dev.exhaust (d : Dev) (n slot cause : Nat) : Dev :=
  ((d.setSlot slot { d.slot slot with state := .exhausted }).nonceLast n slot cause).detect (cePage n) Evt.CE_NONCE_EXHAUSTED

/-! ## The doubled computation (R447) -/

/-- A block's two computations differ. The result says whether the request stops. -/
def Dev.compare (d : Dev) (n : Nat) (c : CmpOutcome) : Dev × Bool :=
  match c with
  | .equal => (d, false)
  | .mismatch _ ok =>
    let d := d.bump (cePage n) Reg.CE_CMP_COUNT 15 0
    let d := if ok then d else d.bump (cePage n) Reg.CE_CMP_COUNT 31 16
    (d.detect (cePage n) Evt.CE_CMP_MISMATCH, !ok)

/-! ## Inline requests (R440, R444, R445) -/

/-- Was an index seen: the highest or one of the 128 below it? -/
def IdxWin.seen (w : IdxWin) (i : Nat) : Bool :=
  match w.high with
  | some h => i == h || (i < h && w.map.testBit (h - 1 - i))
  | none => false

/-- Is an index more than 127 below the highest? -/
def IdxWin.old (w : IdxWin) (i : Nat) : Bool :=
  match w.high with
  | some h => i + 127 < h
  | none => false

/-- Mark an index. -/
def IdxWin.mark (w : IdxWin) (i : Nat) : IdxWin :=
  match w.high with
  | none => { high := some i, map := 0 }
  | some h =>
    if h < i then { high := some i, map := (w.map * 2 + 1) * 2 ^ (i - h - 1) % 2 ^ 128 }
    else if i < h then { w with map := w.map ||| 2 ^ (h - 1 - i) }
    else w

/-- The window a request uses. -/
def SsrcRec.win (r : SsrcRec) (encrypt rtcp : Bool) : IdxWin :=
  if encrypt then (if rtcp then r.encC else r.enc) else (if rtcp then r.decC else r.dec)
def SsrcRec.setWin (r : SsrcRec) (encrypt rtcp : Bool) (w : IdxWin) : SsrcRec :=
  if encrypt then (if rtcp then { r with encC := w } else { r with enc := w })
  else (if rtcp then { r with decC := w } else { r with dec := w })

/-- The record of an SSRC, or a new one. -/
def KeySlot.recOf (k : KeySlot) (ssrc : Word) : SsrcRec :=
  (k.recs.find? (fun r => r.ssrc == ssrc)).getD
    { ssrc := ssrc, enc := IdxWin.fresh, dec := IdxWin.fresh, encC := IdxWin.fresh, decC := IdxWin.fresh }

/-- Store a record. -/
def KeySlot.putRec (k : KeySlot) (r : SsrcRec) : KeySlot :=
  if k.recs.any (fun x => x.ssrc == r.ssrc) then { k with recs := k.recs.map (fun x => if x.ssrc == r.ssrc then r else x) }
  else { k with recs := k.recs ++ [r] }

/-- An engine serves inline requests (R445). -/
def Dev.ceInline (d : Dev) (n : Nat) : Bool := d.ceMode n == 0 && (d.hdr (cePage n)).state.serves

/-- The engine PX sends a leg's requests to (R445). -/
def Dev.ceFor (d : Dev) (leg : Nat) : Option Nat :=
  if d.ceInline (leg % 2) then some (leg % 2) else if d.ceInline (1 - leg % 2) then some (1 - leg % 2) else none

/-- An inline request arrives: it suspends a running ring request (R444). -/
def Dev.inlineArrive (d : Dev) (n bytes : Nat) : Dev :=
  let d := (d.bump (cePage n) Reg.CE_INLINE 31 0).ceBytes n bytes
  if (d.ceInProgress n).any (fun i => i.pend.isNone) then d.bump (cePage n) Reg.CE_SUSPENDS 31 0 else d

/-- Serve an inline request under a slot; the result says whether it succeeds (R440). -/
def Dev.inline (d : Dev) (slot : Nat) (r : InlineReq) : Dev × Bool :=
  match d.ceFor r.leg.val with
  | none => (d, false)
  | some n =>
    let d := d.inlineArrive n r.bytes
    let k := d.slot slot
    if k.state ≠ .loaded || k.kind < 4 then (d, false)
    else
      match d.compare n r.cmp with
      | (d, true) => (d.askMode n 3, false)
      | (d, false) =>
        let k := d.slot slot
        let x := k.recOf r.ssrc
        let w := x.win r.encrypt r.rtcp
        if k.recs.length ≥ 32 && k.recs.all (fun y => y.ssrc != r.ssrc) then (d.nonceLast n slot 2, false)
        else if r.encrypt then
          if (if r.rtcp then 2 ^ 31 - 1 else 2 ^ 48 - 1) < r.index then (d.exhaust n slot 0, false)
          else if w.old r.index then (d, false)
          else if w.seen r.index then (d.exhaust n slot 1, false)
          else (d.setSlot slot (k.putRec (x.setWin true r.rtcp (w.mark r.index))), true)
        else if w.old r.index || w.seen r.index then (d, false)
        else if !r.authOk then (d.bump (cePage n) Reg.CE_TAG_FAILS 31 16, false)
        else (d.setSlot slot (k.putRec (x.setWin false r.rtcp (w.mark r.index))), true)

/-- KEY_IN and KEY_OUT of a leg (Table 7.6). -/
def Dev.keyIn (d : Dev) (leg : Nat) : Nat := d.tf Pg.px (0x10000 + leg * 4) 1 7 0
def Dev.keyOut (d : Dev) (leg : Nat) : Nat := d.tf Pg.px (0x10000 + leg * 4) 1 15 8

/-- INLINE_REQUEST: PX's request under the leg's slot. -/
def Dev.inlineRequest (d : Dev) (r : InlineReq) : Dev :=
  (d.inline (if r.encrypt then d.keyOut r.leg.val else d.keyIn r.leg.val) r).1

/-! ## Ring requests: descriptor fields (Table 18.4) -/

def paramOf (x : BitVec 512) : Nat := (x.toNat >>> 384) % 2 ^ 48
def streamOf (x : BitVec 512) : Bool := descF x 54 0 0 == 1
def urgentOf (x : BitVec 512) : Bool := descF x 54 1 1 == 1
def aadLenOf (x : BitVec 512) : Nat := descF x 56 31 0

/-- The KIND and USE that an opcode needs (Tables 18.1 and 18.3). -/
def KeySlot.allows (k : KeySlot) (op : Nat) : Bool :=
  let enc := k.use % 2 == 1
  let dec := k.use / 2 % 2 == 1
  let aes := k.kind ≤ 1
  let xts := k.kind == 2 || k.kind == 3
  if op = 0 || op = 2 then aes && enc
  else if op = 1 || op = 3 then aes && dec
  else if op = 4 then xts && enc
  else xts && dec

/-- A ring request ends: its completion, the engine's counters, and a waiting lock mode. -/
def Dev.ceFinish (d : Dev) (n : Nat) (i : Item) (st : Status) (cause result0 : Nat) (drawn : Option Nat) : Dev :=
  let d := d.bump (cePage n) Reg.CE_RING_REQS 31 0
  let u := d.ce n
  let d := d.setCe n { u with runs := u.runs.filter (fun r => !(r.ring == i.ring && r.seq == i.seq)) }
  let d := d.finish i.ring i.seq { i.plain st cause with
    result0 := BitVec.ofNat 64 result0,
    eres := eres16 (match drawn with | some c => c % 2 ^ 32 | none => 0xFFFFFFFF) }
  d.ceSettle n
where
  eres16 (v : Nat) : BitVec 128 := BitVec.ofNat 128 v

/-- Why a request is refused before any data is read (R437). -/
def Dev.ceRefusal (d : Dev) (n : Nat) (x : BitVec 512) : Option Nat :=
  let op := opOf x
  let k := d.slot (ctxOf x % 256)
  let len := lengthOf x
  if op = 0x10 then (if len ≠ 112 then some Cause.BAD_DESC else none)
  else if k.state = .empty then some Cause.SLOT_EMPTY
  else if !k.allows op then some Cause.SLOT_USE
  else if k.state = .test && d.ceMode n = 0 then some Cause.SLOT_USE
  else if k.state = .exhausted then some Cause.NONCE_EXHAUSTED
  else if (op = 4 || op = 5) && (aadLenOf x % 16 ≠ 0 || aadLenOf x = 0 || 1048576 < aadLenOf x || len % aadLenOf x ≠ 0) then
    some Cause.CE_LENGTH
  else if op = 1 && !streamOf x && 16384 < len then some Cause.CE_LENGTH
  else none

/-- ENGINE_STATE of a drawn nonce: a mark, LOADNUM and the count (R439). -/
def nonceState (loadNum count : Nat) : BitVec 64 := BitVec.ofNat 64 (2 ^ 63 + loadNum % 2 ^ 16 * 2 ^ 40 + count % 2 ^ 40)

/-- A running request of at least this one's queue that is not parked keeps the engine (R444). -/
def Dev.ceBlocked (d : Dev) (n : Nat) (i : Item) : Bool :=
  (d.ceInProgress n).any (fun j => !(j.ring == i.ring && j.seq == i.seq) && (urgentOf j.desc || !urgentOf i.desc)) &&
    !d.isParked (whoCe n)

/-- A bound request starts: it is refused, or it draws its nonce and records STARTED (R437, R439, Table 4.6). -/
def Dev.ceStart (d : Dev) (n : Nat) (i : Item) : Dev :=
  let slot := ctxOf i.desc % 256
  match d.ceRefusal n i.desc with
  | some c => d.ceFinish n i .failed c 0 none
  | none =>
    let k := d.slot slot
    let draws := (opOf i.desc == 0 || opOf i.desc == 2) && i.engineState == 0
    if draws && k.limit ≤ k.count then (d.exhaust n slot 0).ceFinish n i .failed Cause.NONCE_EXHAUSTED 0 none
    else
      let d := if draws then d.setSlot slot { k with count := k.count + 1 } else d
      let st := if draws then nonceState k.loadNum k.count else i.engineState
      let d := if urgentOf i.desc && (d.ceInProgress n).any (fun j => j.pend.isNone) then d.bump (cePage n) Reg.CE_SUSPENDS 31 0 else d
      (d.modItem i.ring i.seq (fun j => { j with phase := .running, engineState := st })).transition i.ring i.seq .started

/-! ## Ring requests: the work -/

/-- Zero the pieces of a range: a piece that is refused is passed over; `none` while parked (R443). -/
def Dev.zeroPieces (d : Dev) (who asid : Nat) : List (Nat × Nat) → Nat → Dev × Option Nat
  | [], z => (d, some z)
  | (va, n) :: ps, z =>
    match d.virtWrite who asid va (List.replicate n 0) with
    | (d, .ok) => d.zeroPieces who asid ps (z + n)
    | (d, .fail _) => d.zeroPieces who asid ps z
    | (d, .stop) => (d, none)

/-- Remember what a request in progress has released or scrubs. -/
def Dev.setRun (d : Dev) (n : Nat) (r : CeRun) : Dev :=
  let u := d.ce n
  d.setCe n { u with runs := u.runs.filter (fun x => !(x.ring == r.ring && x.seq == r.seq)) ++ [r] }

/-- What a request in progress has released or scrubs. -/
def Dev.runOf (d : Dev) (n ring seq : Nat) : CeRun :=
  ((d.ce n).runs.find? (fun x => x.ring == ring && x.seq == seq)).getD { ring := ring, seq := seq, released := false, scrub := none }

/-- The count a request drew. -/
def Item.drawnCount (i : Item) : Option Nat := if i.engineState.getLsbD 63 then some (i.engineState.toNat % 2 ^ 40) else none

/-- Scrub DST and complete (R442, R443). -/
def Dev.ceScrub (d : Dev) (n : Nat) (i : Item) (st : Status) (cause : Nat) : Dev :=
  let len := lengthOf i.desc
  let d := d.setRun n { ring := i.ring, seq := i.seq, released := true, scrub := some (st, cause) }
  match d.zeroPieces (whoCe n) (d.ringAsid i.ring) (pieces (len / 4096 + 2) (dstOf i.desc) len) 0 with
  | (d, none) => d
  | (d, some z) =>
    let d := d.setCe n { d.ce n with scrubbed := (d.ce n).scrubbed + z }
    if z < len then (d.detect (cePage n) Evt.CE_SCRUB_FAIL).ceFinish n i .failed Cause.SCRUB_FAIL z none
    else d.ceFinish n i st cause len none

/-- Numbers as bytes. -/
def toBytes (l : List Nat) : List Byte := l.map (BitVec.ofNat 8)
def ofBytes (l : List Byte) : List Nat := l.map (·.toNat)

/-- The 96-bit IV of an invocation (R438). -/
def Dev.ivOf (d : Dev) (slot : Nat) (st : BitVec 64) : Nat :=
  (d.slot slot).fixed * 2 ^ 80 + d.wk.epoch % 2 ^ 24 * 2 ^ 56 + st.toNat % 2 ^ 56

/-- Output, tag verdict and PARAM bytes of a data operation: additional data, input and PARAM as read. -/
def Dev.ceCompute (d : Dev) (i : Item) (aad inp param : List Nat) : List Nat × Bool × List Byte :=
  let k := d.slot (ctxOf i.desc % 256)
  let key := k.key.take (if k.kind = 0 || k.kind = 2 then 16 else 32)
  let xkey := k.key.take (if k.kind = 2 then 32 else 64)
  let iv := d.ivOf (ctxOf i.desc % 256) i.engineState
  match opOf i.desc with
  | 0 =>
    let ct := gcmCrypt key iv inp
    (ct, true, toBytes (beBytes 12 iv) ++ (List.range 4).map (fun j => Config.freeByte (d.fresh * 4 + j)) ++ toBytes (gcmTag key iv aad ct))
  | 1 =>
    let iv := beNum (param.take 12)
    (gcmCrypt key iv inp, decide (gcmTag key iv aad inp = (param.drop 16).take 16), [])
  | 2 => (ctrCrypt key 32 (iv * 2 ^ 32) inp, true, toBytes (beBytes 16 (iv * 2 ^ 32)))
  | 3 => (ctrCrypt key 128 (beNum (param.take 16)) inp, true, [])
  | 4 => (xtsCrypt xkey true (aadLenOf i.desc) (leNum (param.take 16)) inp, true, [])
  | _ => (xtsCrypt xkey false (aadLenOf i.desc) (leNum (param.take 16)) inp, true, [])

/-- End of an access of a request that did not succeed. -/
def Dev.ceAccess (d : Dev) (n : Nat) (i : Item) (r : VRes) : Dev :=
  match r with
  | .fail c => d.ceFinish n i .failed c 0 i.drawnCount
  | _ => d

/-- The data part of a started request (R436, R441, R442, R447). -/
def Dev.ceWork (d : Dev) (n : Nat) (i : Item) (cmp : CmpOutcome) : Dev :=
  let asid := d.ringAsid i.ring
  let who := whoCe n
  let run := d.runOf n i.ring i.seq
  match run.scrub with
  | some (st, c) => d.ceScrub n i st c
  | none =>
    let op := opOf i.desc
    let aadLen := if op = 0 || op = 1 then aadLenOf i.desc else 0
    let len := lengthOf i.desc
    match d.virtRead who asid (srcOf i.desc) (aadLen + len) with
    | (d, .ok, src) =>
      match (if op = 0 || op = 2 then (d, VRes.ok, []) else d.virtRead who asid (paramOf i.desc) 32) with
      | (d, .ok, param) =>
        let (out, tagOk, par) := d.ceCompute i ((ofBytes src).take aadLen) ((ofBytes src).drop aadLen) (ofBytes param)
        let d := (d.drawn).ceBytes n (aadLen + len)
        let buffered := op == 1 && !streamOf i.desc
        match d.compare n cmp with
        | (d, true) =>
          let released := match cmp with
            | .mismatch b _ => if buffered then 0 else min len (16 * b)
            | .equal => 0
          let (d, _) := d.virtWrite who asid (dstOf i.desc) (toBytes (out.take released))
          let d := d.askMode n 3
          if op = 1 && streamOf i.desc then d.ceScrub n i .failed Cause.CMP_FAIL
          else d.ceFinish n i .failed Cause.CMP_FAIL released i.drawnCount
        | (d, false) =>
          if buffered && !tagOk then
            ((d.bump (cePage n) Reg.CE_TAG_FAILS 15 0).detect (cePage n) Evt.CE_TAG_FAIL).ceFinish n i .tagFail 0 0 none
          else
            match d.virtWrite who asid (dstOf i.desc) (toBytes out) with
            | (d, .ok) =>
              if !tagOk then
                ((d.bump (cePage n) Reg.CE_TAG_FAILS 15 0).detect (cePage n) Evt.CE_TAG_FAIL).ceScrub n i .tagFail 0
              else
                match d.virtWrite who asid (paramOf i.desc) par with
                | (d, .ok) => d.ceFinish n i i.doneStatus 0 len i.drawnCount
                | (d, r) => d.ceAccess n i r
            | (d, .stop) => d.setRun n { run with released := true }
            | (d, r) => d.ceAccess n i r
      | (d, r, _) => d.ceAccess n i r
    | (d, r, _) => d.ceAccess n i r

/-! ## UNWRAP (R433, R434) -/

/-- The key-encryption key of a number, while SK holds the hierarchy. -/
def Dev.kekOf (d : Dev) (id : Nat) : Option (List Nat) :=
  if !d.sk.keys || 7 < id then none else some (ofBytes (Config.kek id (if id = 0 then d.wk.epoch else 0)))

/-- The key material of a blob, where its tag verifies. -/
def Dev.blobKey (d : Dev) (b : List Nat) : Option (List Nat) :=
  if b.getD 7 0 = 15 then some ((b.drop 32).take 64)
  else match d.kekOf (b.getD 7 0) with
    | none => none
    | some k =>
      let iv := beNum ((b.drop 16).take 12)
      let ct := (b.drop 32).take 64
      if gcmTag k iv (b.take 32) ct = (b.drop 96).take 16 then some (gcmCrypt k iv ct) else none

/-- The number of the first check a blob fails, 0 when it passes, with the slot it would load (R434). -/
def Dev.checkBlob (d : Dev) (n : Nat) (b : List Nat) : Nat × KeySlot :=
  let kind := b.getD 5 0
  let use := b.getD 6 0
  let kek := b.getD 7 0
  let lim := leNum ((b.drop 10).take 6)
  let slot (key : List Nat) : KeySlot :=
    { state := if use / 8 % 2 = 1 then .test else .loaded, kind := kind, use := use, kekId := kek,
      fixed := leNum ((b.drop 8).take 2), limit := if lim = 0 then 2 ^ 40 else min lim (2 ^ 40), count := 0, loadNum := 0,
      key := key, recs := [] }
  if leNum (b.take 4) ≠ 0x424C4F42 || b.getD 4 0 ≠ 1 || 16 ≤ use || (b.drop 28).take 4 ≠ [0, 0, 0, 0] then (1, KeySlot.empty)
  else if 8 ≤ kind then (2, KeySlot.empty)
  else if (use / 4 % 2 = 1) != (4 ≤ kind : Bool) then (3, KeySlot.empty)
  else if (kek = 15) != (use / 8 % 2 = 1 : Bool) || (kek = 15 && d.ceMode n ≠ 2) then (4, KeySlot.empty)
  else match d.blobKey b with
    | none => (5, KeySlot.empty)
    | some key =>
      if (kind = 2 && key.take 16 = (key.drop 16).take 16) || (kind = 3 && key.take 32 = (key.drop 32).take 32) then (6, KeySlot.empty)
      else (0, slot key)

/-- The work of an UNWRAP: the load waits for the requests in progress on its slot and becomes current when COMPLETED is
recorded (R97, R434). -/
def Dev.unwrapWork (d : Dev) (n : Nat) (i : Item) : Dev :=
  let slot := ctxOf i.desc % 256
  match d.virtRead (whoCe n) (d.ringAsid i.ring) (srcOf i.desc) 112 with
  | (d, .ok, bs) =>
    match d.checkBlob n (ofBytes bs) with
    | (0, k) =>
      let gcm := k.kind ≤ 1
      if gcm && 65536 ≤ d.keys.loads + (d.keys.pend.filter (fun p => p.key.kind ≤ 1)).length then
        d.ceFinish n i .failed Cause.LOADS_EXHAUSTED 0 none
      else if !(d.slotItems slot).isEmpty then d
      else
        let l : KeyLoad := { ring := i.ring, seq := i.seq, slot := slot, key := k }
        let d := { d with keys := { d.keys with pend := d.keys.pend ++ [l] } }
        d.ceFinish n i i.doneStatus 0 0 none
    | (c, _) =>
      let d := d.setReg (cePage n) Reg.CE_UNWRAP_STAT (word (slot + c * 2 ^ 8 + 2 ^ 31))
      (d.detect (cePage n) Evt.CE_UNWRAP_FAIL).ceFinish n i .failed Cause.UNWRAP_FAIL 0 none
  | (d, r, _) => d.ceAccess n i r

/-- COMPLETED of an UNWRAP is recorded: its load takes effect and takes its LOADNUM (R434, R438). -/
def Dev.keyRecorded (d : Dev) (ring seq : Nat) : Dev :=
  match d.keys.pend.find? (fun p => p.ring == ring && p.seq == seq) with
  | none => d
  | some p =>
    let gcm := p.key.kind ≤ 1
    let d := d.setSlot p.slot { p.key with loadNum := if gcm then d.keys.loads else 0 }
    let ks := d.keys
    { d with keys := { ks with pend := ks.pend.filter (fun q => !(q.ring == ring && q.seq == seq)),
                               loads := if gcm then ks.loads + 1 else ks.loads } }

/-! ## The ring commands -/

/-- A cipher item acts: bound, it starts; started and recorded, it does its work. -/
def Dev.cipherItem (d : Dev) (ring seq : Nat) (op : Nat) (cmp : CmpOutcome) : Dev :=
  match d.item? ring seq with
  | none => d
  | some i =>
    match i.inst with
    | none => d
    | some n =>
      if engineOf i.desc ≠ 6 || i.pend.isSome || !(d.hdr (cePage n)).state.serves then d
      else if i.phase = .bound && op = 0 && opOf i.desc ≠ 0x10 && 6 ≤ opOf i.desc then d.ceFinish n i .failed Cause.BAD_DESC 0 none
      else if opOf i.desc ≠ op then d
      else if i.phase = .bound then
        if !d.ceTakes n i.desc || d.ceBlocked n i || (op ≠ 0x10 && d.keys.pend.any (fun p => p.slot == ctxOf i.desc % 256)) then d
        else d.ceStart n i
      else if i.phase = .running then
        if (d.ceInProgress n).any (fun j => urgentOf j.desc && !urgentOf i.desc) && !d.isParked (whoCe n) then d
        else if op = 0x10 then d.unwrapWork n i
        else d.ceWork n i cmp
      else d

/-- KEY_ERASE: the slot is emptied; requests in progress on it stop and scrub what they released (R435). -/
def Dev.keyErase (d : Dev) (slot : Nat) : Dev :=
  let hit := d.slotItems slot
  let d := d.setSlot slot KeySlot.empty
  hit.foldl (fun d i => match i.inst with
    | some n =>
      if i.phase != .running || i.pend.isSome then d
      else if (d.runOf n i.ring i.seq).released then d.ceScrub n i .failed Cause.SLOT_ERASED
      else d.ceFinish n i .failed Cause.SLOT_ERASED 0 i.drawnCount
    | none => d) d

/-- LOCK_SERVICE, LOCK_TEST, LOCK_RECOVERY: the writes of MODE the host may make (R448). -/
def Dev.lockWrite (d : Dev) (n m : Nat) : Dev :=
  if (m = 0 && d.ceMode n = 2) || ((m = 2 || m = 3) && d.ceMode n = 0) then d.askMode n m else d

/-- SELFTEST_DONE: the known-answer tests of START or RECOVERY end (Table 18.6). -/
def Dev.selftestDone (d : Dev) (n : Nat) (pass : Bool) (us : Nat) : Dev :=
  if d.ceMode n ≠ 1 && d.ceMode n ≠ 3 then d
  else
    let d := d.setReg (cePage n) Reg.CE_SELFTEST (word (pass.toNat + us % 256 * 2 ^ 8))
    if pass then d.setMode n 0 else d.detect (cePage n) Evt.CE_SELFTEST_FAIL

/-- CE_HANG: no block completed for HANG_MS while a request is due (Table 18.8). -/
def Dev.ceHang (d : Dev) (n : Nat) : Dev :=
  if (d.ceInProgress n).isEmpty then d else d.detect (cePage n) Evt.CE_HANG

/-- An island reset of an engine: its requests leave it, and START runs its tests (Table 18.6). The slot store is kept
(R431). -/
def Dev.ceReset (d : Dev) (n : Nat) : Dev :=
  let mine := d.wk.items.filter (fun i => engineOf i.desc == 6 && i.inst == some n && i.recorded != .completed)
  let d := { d with keys := { d.keys with pend := d.keys.pend.filter (fun p => mine.all (fun i => !(i.ring == p.ring && i.seq == p.seq))) } }
  let d := d.setCe n { CeUnit.reset with scrubbed := (d.ce n).scrubbed }
  d.setMode n 1

/-! ## Commands -/

/-- GCM_ENC (R438). -/
def execGcmEnc (ring : RingNo) (seq : Nat) (cmp : CmpOutcome) (s : State) : Host.Outcome State Fault Refusal :=
  s.on (·.cipherItem ring.val seq 0 cmp)
/-- GCM_DEC (R441, R442). -/
def execGcmDec (ring : RingNo) (seq : Nat) (cmp : CmpOutcome) (s : State) : Host.Outcome State Fault Refusal :=
  s.on (·.cipherItem ring.val seq 1 cmp)
/-- CTR_ENC (R438). -/
def execCtrEnc (ring : RingNo) (seq : Nat) (cmp : CmpOutcome) (s : State) : Host.Outcome State Fault Refusal :=
  s.on (·.cipherItem ring.val seq 2 cmp)
/-- CTR_XFORM (R436). -/
def execCtrXform (ring : RingNo) (seq : Nat) (cmp : CmpOutcome) (s : State) : Host.Outcome State Fault Refusal :=
  s.on (·.cipherItem ring.val seq 3 cmp)
/-- XTS_ENC (R436). -/
def execXtsEnc (ring : RingNo) (seq : Nat) (cmp : CmpOutcome) (s : State) : Host.Outcome State Fault Refusal :=
  s.on (·.cipherItem ring.val seq 4 cmp)
/-- XTS_DEC (R436). -/
def execXtsDec (ring : RingNo) (seq : Nat) (cmp : CmpOutcome) (s : State) : Host.Outcome State Fault Refusal :=
  s.on (·.cipherItem ring.val seq 5 cmp)
/-- UNWRAP (R434). -/
def execUnwrap (ring : RingNo) (seq : Nat) (s : State) : Host.Outcome State Fault Refusal :=
  s.on (·.cipherItem ring.val seq 0x10 .equal)
/-- INLINE_REQUEST (R440, R444). -/
def execInlineRequest (r : InlineReq) (s : State) : Host.Outcome State Fault Refusal := s.on (·.inlineRequest r)
/-- KEY_ERASE (R435). -/
def execKeyErase (slot : Fin 256) (ce : CipherEngine) (s : State) : Host.Outcome State Fault Refusal :=
  s.on (fun d => if (d.hdr (cePage ce.val)).state = .off then d else d.keyErase slot.val)
/-- LOCK_SERVICE (R448). -/
def execLockService (ce : CipherEngine) (s : State) : Host.Outcome State Fault Refusal := s.on (·.lockWrite ce.val 0)
/-- LOCK_TEST (R448). -/
def execLockTest (ce : CipherEngine) (s : State) : Host.Outcome State Fault Refusal := s.on (·.lockWrite ce.val 2)
/-- LOCK_RECOVERY (R448). -/
def execLockRecovery (ce : CipherEngine) (s : State) : Host.Outcome State Fault Refusal := s.on (·.lockWrite ce.val 3)
/-- SELFTEST_DONE (R448). -/
def execSelftestDone (ce : CipherEngine) (pass : Bool) (durationUs : Nat) (s : State) : Host.Outcome State Fault Refusal :=
  s.on (·.selftestDone ce.val pass durationUs)
/-- CE_HANG (R449). -/
def execCeHang (ce : CipherEngine) (s : State) : Host.Outcome State Fault Refusal := s.on (·.ceHang ce.val)

end Sys2Proof.Machine
end

