-- ==== Sys2Proof/Machine/Pool.lean ====
section
/-! DEFINITION. The cell pool and its queues (chapter 13): cells, reserves, admission, reading and flush. -/

namespace Sys2Proof.Machine

/-- Cells of the pool and ingress sources (R292, R294). -/
abbrev poolCells : Nat := 196608
abbrev ingressSources : Nat := 21

/-! ## What is held -/

/-- The body of a number. -/
def Dev.body? (d : Dev) (b : Nat) : Option Body := SMap.get (fun _ => none) d.qm.bodies b
/-- Store or forget a body. -/
def Dev.setBody (d : Dev) (b : Nat) (x : Option Body) : Dev :=
  { d with qm := { d.qm with bodies := SMap.set (fun _ => none) d.qm.bodies b x } }
/-- The packets of a queue, head first. -/
def Dev.queue (d : Dev) (q : Nat) : List Pkt := SMap.get (fun _ => []) d.qm.queues q
/-- Replace the packets of a queue. -/
def Dev.setQueue (d : Dev) (q : Nat) (l : List Pkt) : Dev :=
  { d with qm := { d.qm with queues := SMap.set (fun _ => []) d.qm.queues q l } }
/-- The body an ingress source is writing. -/
def Dev.rxBody (d : Dev) (src : Nat) : Option Nat := SMap.get (fun _ => none) d.qm.rx src
/-- Note the body an ingress source is writing. -/
def Dev.setRx (d : Dev) (src : Nat) (b : Option Nat) : Dev :=
  { d with qm := { d.qm with rx := SMap.set (fun _ => none) d.qm.rx src b } }

/-- All packets that queues hold or consumers read. -/
def Dev.allPkts (d : Dev) : List Pkt := d.qm.queues.flatMap (·.2) ++ d.qm.reading.map (·.pkt)

/-- Cells of a packet, its payload's and its header cell (R295). -/
def Dev.pktCells (d : Dev) (p : Pkt) : Nat :=
  (match d.body? p.body with | some b => b.cells.length | none => 0) + (if p.header.isSome then 1 else 0)

/-- A queue's occupancy c (R295). -/
def Dev.occupancy (d : Dev) (q : Nat) : Nat := (d.queue q).foldl (fun a p => a + d.pktCells p) 0

/-- Cells in use: of every body and every header cell. -/
def Dev.usedCells (d : Dev) : List Nat :=
  d.qm.bodies.flatMap (fun x => match x.2 with | some b => b.cells | none => []) ++ d.allPkts.filterMap (·.header) ++ d.qm.outOfUse

/-- Cells held by queues and readers: reserve cells apart. -/
def Dev.poolUsed (d : Dev) : Nat :=
  d.qm.bodies.foldl (fun a x => a + (match x.2 with | some b => if b.inReserve then 0 else b.cells.length | none => 0)) 0 +
    (d.allPkts.filter (fun p => p.header.isSome)).length

/-- Reserve cells of a source that hold a frame. -/
def Dev.reserveUsed (d : Dev) (src : Nat) : Nat :=
  d.qm.bodies.foldl (fun a x => a + (match x.2 with
    | some b => if b.inReserve && b.source == src then b.cells.length else 0
    | none => 0)) 0

/-! ## Queue settings (Table 13.4) -/

def Dev.qMin (d : Dev) (q : Nat) : Nat := d.tf Pg.qm (q * 4) 0 17 0
def Dev.qMax (d : Dev) (q : Nat) : Nat := d.tf Pg.qm (q * 4) 1 17 0
/-- 0 TM, 1 PX media input, 2 host. -/
def Dev.qConsumer (d : Dev) (q : Nat) : Nat := d.tf Pg.qm (q * 4) 2 6 5
/-- ALPHA_SHIFT in force of a queue (R303). -/
def Dev.qAlpha (d : Dev) (q : Nat) : Int :=
  signed 4 (if d.tb Pg.qm (q * 4) 2 4 then d.tf Pg.qm (q * 4) 2 3 0 else d.rf Pg.qm Reg.QM_ALPHA_DEFAULT 3 0)

/-- The queues whose settings list a minimum. -/
def Dev.minQueues (d : Dev) : List Nat :=
  d.pages.tbl.filterMap (fun x =>
    if x.1 / 4 / 2 ^ 24 = Pg.qm.val && x.1 / 4 % 2 ^ 24 < 0x40000 && x.1 / 4 % 4 = 0 && x.1 % 4 = 0 then some (x.1 / 4 % 2 ^ 24 / 4)
    else none)

/-- Sum of all minimums, and U, the cells still owed to them (R295). -/
def Dev.minTotal (d : Dev) : Nat := d.minQueues.foldl (fun a q => a + d.qMin q) 0
def Dev.minUnmet (d : Dev) : Nat := d.minQueues.foldl (fun a q => a + (d.qMin q - d.occupancy q)) 0

/-- F, the dynamic pool (R295). -/
def Dev.poolF (d : Dev) : Nat :=
  poolCells - d.qm.outOfUse.length - ingressSources * d.rf Pg.qm Reg.QM_CFG 7 0 - d.poolUsed - d.minUnmet

/-! ## Admission -/

/-- What admission decides. -/
inductive AdmitQ where
  | accept | share | max | pool
deriving DecidableEq, Repr

/-- The decision of R295 for n cells in queue q. -/
def Dev.admitQ (d : Dev) (q n : Nat) : AdmitQ :=
  let c := d.occupancy q
  let above := c + n - d.qMin q
  let new := above - (c - d.qMin q)
  let f := d.poolF
  let a := d.qAlpha q
  if d.qMax q ≠ 0 && d.qMax q < c + n then .max
  else if c + n ≤ d.qMin q then .accept
  else if f < new then .pool
  else if f * 2 ^ a.toNat < above * 2 ^ (-a).toNat then .share
  else .accept

/-- The `k` lowest cells from `n` on that are not listed; the first argument bounds the search. -/
def freeFrom (used : List Nat) : Nat → Nat → Nat → List Nat
  | 0, _, _ => []
  | _, _, 0 => []
  | fuel + 1, n, k + 1 => if hasNat used n then freeFrom used fuel (n + 1) (k + 1) else n :: freeFrom used fuel (n + 1) k

/-- The `k` lowest free cells (assumption log 19). -/
def Dev.freeCells (d : Dev) (k : Nat) : List Nat := freeFrom d.usedCells (d.usedCells.length + k) 0 k

/-- POOL_EMPTY is detected when F reaches 0 (Table 13.5). -/
def Dev.noteEmpty (d : Dev) : Dev :=
  let e := decide (d.poolF = 0)
  let d1 := { d with qm := { d.qm with empty := e } }
  if e && !d.qm.empty then d1.detect Pg.qm Evt.QM_POOL_EMPTY else d1

/-- A refused packet is counted and latched (R296). -/
def Dev.refusePkt (d : Dev) (q n : Nat) (why : AdmitQ) : Dev :=
  let r := match why with | .share => 1 | .max => 2 | _ => 3
  let d := ((d.bumpT Pg.qm (q * 4 + 2) 1 31 0).bumpT Pg.qm (q * 4 + 2) 2 31 0 n).bump Pg.qm Reg.QM_REFUSED_PKTS 31 0
  let d := (d.bump Pg.qm Reg.QM_REFUSED_CELLS 31 0 n).setReg Pg.qm Reg.QM_REFUSE_LAST (word (q + r * 2 ^ 16 + 2 ^ 31))
  d.detect Pg.qm Evt.QM_REFUSED

/-- Link an admitted packet at its queue's tail and send the notice (R299). -/
def Dev.link (d : Dev) (q : Nat) (p : Pkt) : Dev :=
  let d := d.setQueue q (d.queue q ++ [{ p with admitted := d.nowNs }])
  let d := (d.bumpT Pg.qm (q * 4 + 2) 0 31 0).bump Pg.qm Reg.QM_ENQ_PKTS 31 0
  let d := (d.peak Pg.qm Reg.QM_PEAK_USED 17 0 d.poolUsed).peak Pg.qm Reg.QM_NOTICE_STAT 31 16
    (min (d.qm.queues.foldl (fun a x => a + x.2.length) 0) 65535)
  d.noteEmpty

/-- Cells charged for LENGTH bytes. -/
def cellsFor (len : Nat) : Nat := ceilDiv len 256

/-- A new body with its number. -/
def Dev.newBody (d : Dev) (b : Body) : Dev × Nat :=
  ({ d.setBody d.qm.nextBody (some b) with qm := { (d.setBody d.qm.nextBody (some b)).qm with nextBody := d.qm.nextBody + 1 } },
    d.qm.nextBody)

/-- Forget a body that nothing needs: its end mark is written and nobody still reads or copies it. -/
def Dev.reap (d : Dev) (b : Nat) : Dev :=
  match d.body? b with
  | some x => if x.done && x.refs = 0 && !x.walking && (x.classified || x.dropped) then d.setBody b none else d
  | none => d

/-- Change a body. -/
def Dev.modBody (d : Dev) (b : Nat) (f : Body → Body) : Dev :=
  match d.body? b with
  | some x => d.setBody b (some (f x))
  | none => d

/-- A frame is dropped: never admitted, its cells stay in the reserve until its end mark (R296). -/
def Dev.dropBody (d : Dev) (b : Nat) : Dev :=
  (d.modBody b (fun x => { x with classified := true, dropped := true, inReserve := true })).reap b

/-- Move an admitted frame's cells from the reserve to the pool: the n cells it is charged are its own (R295). -/
def Dev.takeCells (d : Dev) (b n : Nat) : Dev :=
  match d.body? b with
  | none => d
  | some x =>
    let more := if x.done then [] else d.freeCells (n - x.cells.length)
    d.setBody b (some { x with cells := x.cells ++ more, inReserve := false, classified := true })

/-- Admit a whole packet with its body into a queue, or refuse it (R295, R296). The result says whether it was admitted. -/
def Dev.admitPkt (d : Dev) (q : Nat) (p : Pkt) : Dev × Bool :=
  let n := cellsFor p.len
  match d.admitQ q n with
  | .accept => (((d.takeCells p.body n).modBody p.body (fun x => { x with refs := x.refs + 1 })).link q p, true)
  | why => ((d.refusePkt q n why).dropBody p.body, false)

/-- Admit a copy: n counts the shared payload cells and the header cell, only the header cell is drawn (R295). -/
def Dev.admitCopy (d : Dev) (q : Nat) (p : Pkt) : Dev × Bool :=
  let n := cellsFor p.len + 1
  match d.admitQ q n with
  | .accept =>
    let h := (d.freeCells 1).head?
    ((d.modBody p.body (fun x => { x with refs := x.refs + 1 })).link q { p with header := h }, true)
  | why => (d.refusePkt q n why, false)

/-! ## Reading -/

/-- A reader leaves a body. -/
def Dev.unref (d : Dev) (b : Nat) : Dev := (d.modBody b (fun x => { x with refs := x.refs - 1 })).reap b

/-- The receive header that precedes a frame in a host queue (R354). -/
def rxHeader (p : Pkt) : List Byte := bytesLE 4 (p.stamp / 256) ++ bytesLE 1 (p.stamp % 256) ++ bytesLE 1 p.source ++ [0, 0]

/-- The last cell of a packet has been read: the frame leaves its port, or reaches PX or the host (R293). Ports 0–19 are
those of R305, 32 is PX's media input and 33 the host. -/
def Dev.readDone (d : Dev) (r : Reading) : Dev :=
  match d.body? r.pkt.body with
  | none => d
  | some b =>
    let d := match r.pkt.leg with
      | some l => d.setTf Pg.px (0x10000 + l * 4) 3 15 0 (d.tf Pg.px (0x10000 + l * 4) 3 15 0 - 1)
      | none => d
    let d :=
      if r.port < 20 then d.emit (.frame r.port r.pkt.hdr b.data b.err)
      else if r.port = 33 && !b.err then d.emit (.hostQueue r.queue (rxHeader r.pkt) r.pkt.hdr b.data)
      else d
    d.unref r.pkt.body

/-- A cell read of a packet fails its check: the packet ends with ERR; the cell leaves use when its retry fails too
(Table 13.5). -/
def Dev.cellRead (d : Dev) (p : Pkt) (c : CellRead) : Dev :=
  match c with
  | .ok => d
  | .bad i again =>
    let cell := match d.body? p.body with | some b => b.cells[i]? | none => none
    let d := (d.modBody p.body (fun x => { x with err := true })).bump Pg.qm Reg.QM_ERR_PKTS 31 0
    let d := if again then { d with qm := { d.qm with outOfUse := d.qm.outOfUse ++ cell.toList } } else d
    d.detect Pg.qm Evt.QM_CELL_ERR

/-- A consumer begins to read the head packet of a queue: it leaves the queue (R300). -/
def Dev.beginRead (d : Dev) (port q : Nat) (p : Pkt) (c : CellRead) : Dev :=
  let d := (d.setQueue q ((d.queue q).drop 1)).bump Pg.qm Reg.QM_DEQ_PKTS 31 0
  let d := d.cellRead p c
  let r : Reading := { port := port, queue := q, pkt := p }
  match d.body? p.body with
  | some b => if b.done then d.readDone r else { d with qm := { d.qm with reading := d.qm.reading ++ [r] } }
  | none => d

/-- The end mark of a body is written: readers that waited for it finish. -/
def Dev.bodyDone (d : Dev) (b : Nat) : Dev :=
  let (mine, rest) := d.qm.reading.partition (fun r => r.pkt.body == b)
  let d := { d with qm := { d.qm with reading := rest } }
  (mine.foldl (fun d r => d.readDone r) d).reap b

/-! ## Arrival -/

/-- MAX_FRAME of a source less the FCS: the most bytes a frame stores (R310). -/
def Dev.maxStored (d : Dev) (src : Nat) : Nat :=
  if src < 16 then d.rf (Pg.ep (Fin.ofNat 4 (src / 4))) Reg.EP_PORT_MODE 29 16 - 4
  else if src = 16 then d.rf Pg.mg Reg.MG_MODE 29 16 - 4
  else 9596

/-- Page of an Ethernet source; none for radios and the host. -/
def portPage (src : Nat) : Option Page :=
  if src < 16 then some (Pg.ep (Fin.ofNat 4 (src / 4))) else if src = 16 then some Pg.mg else none

/-- A whole frame is dropped at its port's input (R18). -/
def Dev.ingressOverrun (d : Dev) (src : Nat) : Dev :=
  if src < 16 then d.bump (Pg.ep (Fin.ofNat 4 (src / 4))) Reg.EP_RX_OVERRUN 15 0 1 (src % 4) else d

/-- Write the end mark of a body, with ERR or without. -/
def Dev.endBody (d : Dev) (b : Nat) (err : Bool) : Dev :=
  match d.body? b with
  | none => d
  | some x =>
    let d := if err && !x.err then d.bump Pg.qm Reg.QM_ERR_PKTS 31 0 else d
    (d.setBody b (some { x with done := true, err := x.err || err, cells := x.cells.take (max (cellsFor x.data.length) 1) })).bodyDone b

/-- A frame turns out longer than MAX_FRAME: cut, ended with ERR, counted (R310). -/
def Dev.oversize (d : Dev) (src b : Nat) : Dev :=
  let d := if src < 16 then d.bump (Pg.ep (Fin.ofNat 4 (src / 4))) Reg.EP_RX_ERR 31 16 1 (src % 4) else d
  let d := match portPage src with
    | some p => d.detect p Evt.EP_RX_OVERSIZE
    | none => d
  d.endBody b true

/-- More bytes of a body's frame arrive (R294, R297). -/
def Dev.storeCells (d : Dev) (src b : Nat) (bytes : List Byte) : Dev :=
  match d.body? b with
  | none => d
  | some x =>
    if x.done then d
    else
      let lim := d.maxStored src
      let long := lim < x.data.length + bytes.length
      let x := { x with data := (x.data ++ bytes).take lim }
      let need := cellsFor x.data.length
      let d :=
        if need ≤ x.cells.length then d.setBody b (some x)
        else if x.inReserve && !x.classified then
          if d.rf Pg.qm Reg.QM_CFG 7 0 < d.reserveUsed src + (need - x.cells.length) then
            (d.setBody b (some { x with dropped := true, classified := true, cells := [] })).ingressOverrun src
          else d.setBody b (some { x with cells := x.cells ++ d.freeCells (need - x.cells.length) })
        else if x.inReserve then d.setBody b (some { x with data := [] })
        else if need - x.cells.length ≤ d.poolF then
          (d.setBody b (some { x with cells := x.cells ++ d.freeCells (need - x.cells.length) })).noteEmpty
        else
          (((d.setBody b (some { x with data := x.data.take (256 * x.cells.length) })).bump Pg.qm Reg.QM_TRUNC_PKTS 31 0).detect
            Pg.qm Evt.QM_TRUNCATED).endBody b true
      if long then d.oversize src b else d

/-- Count a frame's bad FCS. -/
def Dev.countFcs (d : Dev) (src : Nat) : Dev :=
  if src < 16 then d.bump (Pg.ep (Fin.ofNat 4 (src / 4))) Reg.EP_RX_ERR 15 0 1 (src % 4)
  else if src = 16 then d.bump Pg.mg Reg.MG_STAT 31 16
  else d

/-- A frame begins at a source. -/
def Dev.startBody (d : Dev) (src : Nat) : Dev × Nat :=
  let (d, b) := d.newBody { source := src, cells := [], data := [], done := false, err := false, refs := 0, walking := false,
                            inReserve := true, dropped := false, classified := false }
  let d := if src < 16 then d.bump (Pg.ep (Fin.ofNat 4 (src / 4))) Reg.EP_RX_FRAMES 31 0 1 (src % 4) else d
  (d.setRx src (some b), b)

/-- CELL_ARRIVE: a cell of a source's frame is written to the pool, with the frame's end mark or without (R294, R297,
R310). -/
def Dev.cellArrive (d : Dev) (src : Nat) (bytes : List Byte) (eop badFcs : Bool) : Dev :=
  let (d, b) := match d.rxBody src with
    | some b => (d, b)
    | none => d.startBody src
  let d := d.storeCells src b (bytes.take 256)
  if eop then
    let d := if badFcs then d.countFcs src else d
    let done := match d.body? b with | some x => x.done | none => true
    let cl := match d.body? b with | some x => x.classified | none => true
    let d := if done then d.reap b else d.endBody b badFcs
    -- a frame PX has not yet classified stays with its source until PX_INGRESS
    if cl then d.setRx src none else d
  else d

/-! ## Consumers and flush -/

/-- PACKET_DEQUEUE: PX's media input or the host begins reading the head packet of a queue (R300). -/
def Dev.packetDequeue (d : Dev) (q : Nat) (c : CellRead) : Dev :=
  if d.qConsumer q = 0 then d
  else match d.queue q with
    | [] => d
    | p :: _ => d.beginRead (if d.qConsumer q = 1 then 32 else 33) q p c

/-- Free a linked packet that is flushed or discarded. -/
def Dev.freePkt (d : Dev) (p : Pkt) : Dev :=
  let d := match p.leg with
    | some l => d.setTf Pg.px (0x10000 + l * 4) 3 15 0 (d.tf Pg.px (0x10000 + l * 4) 3 15 0 - 1)
    | none => d
  d.unref p.body

/-- QM_FLUSH: the flush moment. Every packet linked then is freed, at once or at its end mark, but assured ones
(R301, Table 13.3). -/
def Dev.flushStart (d : Dev) (q : Nat) : Dev :=
  if d.qm.flushing.isSome then d
  else
    let (keep, gone) := (d.queue q).partition (fun p => p.assured.isSome)
    let d := ({ d with qm := { d.qm with flushing := some q } }.setRf Pg.qm Reg.QM_FLUSH 15 0 q).setQueue q keep
    let d := gone.foldl (fun d p => d.freePkt p) d
    (d.bump Pg.qm Reg.QM_FLUSH_COUNT 15 0 gone.length).bumpT Pg.qm (q * 4 + 2) 3 31 0 gone.length

/-- FLUSH_DONE: the walk ends (R301). -/
def Dev.flushEnd (d : Dev) : Dev :=
  if d.qm.flushing.isNone then d
  else ({ d with qm := { d.qm with flushing := none } }.bump Pg.qm Reg.QM_FLUSH_COUNT 31 16).detect Pg.qm Evt.QM_FLUSH_DONE

/-- An island reset of QM, and a warm reset: cell memory and queued packets are lost (Table 21.4). -/
def Dev.qmReset (d : Dev) : Dev :=
  let gone := d.allPkts
  let d := gone.foldl (fun d p => match p.leg with
    | some l => d.setTf Pg.px (0x10000 + l * 4) 3 15 0 (d.tf Pg.px (0x10000 + l * 4) 3 15 0 - 1)
    | none => d) d
  { d with qm := { Qm.reset with nextBody := d.qm.nextBody } }

/-- CELL_ARRIVE (R297). -/
def execCellArrive (source : Fin 21) (bytes : List Byte) (eop badFcs : Bool) (s : State) : Host.Outcome State Fault Refusal :=
  s.on (·.cellArrive source.val bytes eop badFcs)
/-- PACKET_DEQUEUE (R300). -/
def execPacketDequeue (queue : Fin 65536) (cell : CellRead) (s : State) : Host.Outcome State Fault Refusal :=
  s.on (·.packetDequeue queue.val cell)
/-- QM_FLUSH (R301). -/
def execQmFlush (queue : Fin 65536) (s : State) : Host.Outcome State Fault Refusal := s.on (·.flushStart queue.val)
/-- FLUSH_DONE (R301). -/
def execFlushDone (s : State) : Host.Outcome State Fault Refusal := s.on (·.flushEnd)

end Sys2Proof.Machine
end

