-- ==== Sys2Proof/Machine/TimeOps.lean ====
section
/-! DEFINITION. Frame timestamps and the transmit timestamp queues (R353 to R357). -/

namespace Sys2Proof.Machine

/-- The correction entry of a port in its mode (Table 15.5). -/
def Dev.corrEntry (d : Dev) (port : Nat) : Nat :=
  if port < 16 then
    let p := Pg.ep (Fin.ofNat 4 (port / 4))
    let k := if d.rf p Reg.EP_PORT_MODE 2 0 = 3 then min (d.rf p Reg.EP_PORT_MODE 5 4) 2 + 1 else 0
    0x100 + port / 4 * 4 + k
  else 0x110 + d.rf Pg.mg Reg.MG_MODE 0 0

/-- Correction of a port in 1/256 ns: word 0 receive, word 1 transmit. -/
def Dev.correction (d : Dev) (port i : Nat) : Int := signed 32 (d.tw Pg.tu (d.corrEntry port) i).toNat * 256 / 1000

/-- Period of a tick generator, 2^-32 ns (Table 15.4). -/
def Dev.tickPeriod (d : Dev) (g : Nat) : Nat := d.tf Pg.tu (2 * g) 1 29 0 * 2 ^ 32 + (d.tw Pg.tu (2 * g) 2).toNat

/-- Presented time in 1/256 ns. -/
def Dev.now256 (d : Dev) : Int := d.tu.presented / (2 ^ 24 : Nat)

/-- A received frame's stamp as its notice carries it: STAMP32 × 256 + SUBNS (R353, R354). Ports above MG have none. -/
def Dev.rxStamp (d : Dev) (src raw256 : Nat) : Nat :=
  if src < 17 then unsigned 40 ((raw256 : Int) - d.correction src 0) else unsigned 40 d.now256

/-- The transmit timestamp queue of a port: EP0–EP3, then MG (R357). -/
def txQueue (port : Nat) : Nat := if port < 16 then port / 4 else 4

/-- The entries of a transmit timestamp queue. -/
def Dev.txts (d : Dev) (q : Nat) : List TxStamp := SMap.get (fun _ => []) d.tu.txts q
/-- Replace a transmit timestamp queue. -/
def Dev.setTxts (d : Dev) (q : Nat) (l : List TxStamp) : Dev :=
  { d with tu := { d.tu with txts := SMap.set (fun _ => []) d.tu.txts q l } }

/-- A frame's transmit stamp enters its queue, or is lost to overflow (R357). -/
def Dev.txStamp (d : Dev) (port id : Nat) (oneStep : Bool) : Dev :=
  let q := txQueue port
  let st := unsigned 40 (d.now256 + d.correction port 1)
  if (d.txts q).length < 64 then
    let e : TxStamp := { id := id % 65536, subport := if port < 16 then port % 4 else 0, oneStep := oneStep, stamp := st / 256,
                         subns := st % 256, lost := false }
    d.setTxts q (d.txts q ++ [e])
  else
    { d with tu := { d.tu with txtsLost := d.tu.txtsLost ||| BitVec.ofNat 5 (2 ^ q) } }.detect Pg.tu Evt.TU_TXTS_OVERFLOW

end Sys2Proof.Machine
end

