-- ==== Sys2Proof/Machine/Traffic.lean ====
section
/-! DEFINITION. Ethernet ports, route versions, the traffic manager and wire transmit items (chapter 14; R98). -/

namespace Sys2Proof.Machine

/-! ## Ports (R305, R308 to R311) -/

/-- Page of an Ethernet port's EP, for ports 0–15. -/
def epPage (port : Nat) : Page := Pg.ep (Fin.ofNat 4 (port / 4))
/-- Port mode (Table 14.3). -/
def Dev.portMode (d : Dev) (port : Nat) : Nat := d.rf (epPage port) Reg.EP_PORT_MODE 2 0

/-- Physical lane of a logical lane (R311). -/
def Dev.physLane (d : Dev) (port l : Nat) : Nat := d.rf (epPage port) Reg.EP_LANE_MAP (2 * l + 1) (2 * l)

/-- A retired lane takes the port down: in modes 0–2 any lane, in mode 3 the subport's own (R311). -/
def Dev.laneDown (d : Dev) (port : Nat) : Bool :=
  if d.portMode port ≤ 2 then (List.range 4).any (fun l => d.unitOut (epPage port) l)
  else d.unitOut (epPage port) (d.physLane port (port % 4))

/-- The port exists in its EP's mode. -/
def Dev.portExists (d : Dev) (port : Nat) : Bool :=
  if d.portMode port ≤ 2 then port % 4 == 0 else d.portMode port == 3

/-- An egress is up (R316): link up and no retired lane, or an air link not LOST on a radio in service. -/
def Dev.portUp (d : Dev) (port link : Nat) : Bool :=
  if port < 16 then d.portExists port && d.rb (epPage port) Reg.EP_LINK_STAT (port % 4) && !d.laneDown port
  else if port = 16 then d.rb Pg.mg Reg.MG_STAT 0
  else port < 20 && (d.hdr (pg (0x35 + (port - 17)))).state.serves && !hasNat d.px.lostLinks link

/-- MAC address of an egress port (R309, R317). -/
def Dev.portMac (d : Dev) (port : Nat) : Nat :=
  if port < 16 then
    ((d.reg (epPage port) Reg.EP_MAC_LO).toNat + d.rf (epPage port) Reg.EP_MAC_HI 15 0 * 2 ^ 32 + port % 4) % 2 ^ 48
  else (d.reg Pg.mg Reg.MG_MAC_LO).toNat + d.rf Pg.mg Reg.MG_MAC_HI 15 0 * 2 ^ 32

/-- OVERHEAD of an egress port (R324). -/
def Dev.egressOverhead (d : Dev) (port : Nat) : Int := signed 7 (d.tf Pg.tm (0x30000 + port) 0 6 0)

/-- Time of a byte at a port's line rate, ps. -/
def Dev.psPerByte (d : Dev) (port : Nat) : Nat := if d.portMode port ≤ 2 then 80 else 320

/-! ## Route versions (R319, R320) -/

/-- Does a table key lie in the versioned ranges, route slots and next hops? -/
def versioned (k : Nat) : Bool := k / 4 / 2 ^ 24 == Pg.px.val && 0x400000 ≤ k / 4 % 2 ^ 24 && k / 4 % 2 ^ 24 < 0x488000

/-- A word of a live version. -/
def Dev.verWord (d : Dev) (v a i : Nat) : Word :=
  match d.px.vers.find? (fun x => x.num == v) with
  | some x => SMap.get tblReset x.words (tblKey Pg.px a i)
  | none => 0

/-- Packets that carry a version. -/
def Dev.verPackets (d : Dev) (v : Nat) : Nat := (d.allPkts.filter (fun p => p.ver == some v)).length

/-- The next version becomes current at one instant; the new next version starts as its copy (R319). -/
def Dev.swapNow (d : Dev) : Dev :=
  let n := (d.px.cur + 1) % 16
  let v : RtVer := { num := n, words := d.pages.tbl.filter (fun x => versioned x.1) }
  { d with px := { d.px with cur := n, vers := d.px.vers ++ [v], swapWait := false, swapRun := true, changes := 0 } }

/-- SWAP: at most four versions live at once; a SWAP beyond that waits (R320). -/
def Dev.swap (d : Dev) : Dev :=
  if d.px.swapWait || d.px.swapRun then d
  else if 4 ≤ d.px.vers.length then { d with px := { d.px with swapWait := true } }
  else d.swapNow

/-- SWAP_DONE. -/
def Dev.swapDone (d : Dev) : Dev :=
  if d.px.swapRun then { d with px := { d.px with swapRun := false } }.detect Pg.px Evt.PX_SWAP_DONE else d

/-- VERSION_FREE: a version that is not current and that no packet carries is freed; a waiting SWAP goes on (R320). -/
def Dev.versionFree (d : Dev) (v : Nat) : Dev :=
  if v = d.px.cur || d.verPackets v ≠ 0 || d.px.vers.all (fun x => x.num != v) then d
  else
    let d := { d with px := { d.px with vers := d.px.vers.filter (fun x => x.num != v) } }
    if d.px.swapWait then d.swapNow else d

/-! ## Gate control lists (R325 to R328) -/

/-- Segments of a cycle: start, end, GATES and entry; the last entry holds to the cycle's end, what passes it is cut. -/
def Dev.gateSegs (d : Dev) (port : Nat) (c : GateCfg) : List (Nat × Nat × Nat × Nat) :=
  let e (i : Nat) : Nat := 0x40000 + port * 2048 + c.bank * 1024 + i
  (((List.range c.len).foldl (fun (x : Nat × List (Nat × Nat × Nat × Nat)) i =>
    let stop := if i + 1 = c.len then c.cycle else min (x.1 + d.tf Pg.tm (e i) 1 29 0) c.cycle
    (stop, x.2 ++ [(x.1, stop, d.tf Pg.tm (e i) 0 7 0, i)])) (0, [])).2).filter (fun s => s.1 < s.2.1)

/-- Gate state of a port. -/
def Dev.gate (d : Dev) (port : Nat) : Gate := SMap.get (fun _ => Gate.reset) d.tm.gates port
/-- Replace the gate state of a port. -/
def Dev.setGate (d : Dev) (port : Nat) (g : Gate) : Dev :=
  { d with tm := { d.tm with gates := SMap.set (fun _ => Gate.reset) d.tm.gates port g } }

/-- Gate lists apply to a port. -/
def Dev.gated (d : Dev) (port : Nat) : Bool := port < 16 && (d.gate port).oper.en && d.rb Pg.tm Reg.TM_CFG 0

/-- Position in the operational cycle, ns. -/
def Gate.position (g : Gate) (now : Int) : Nat := ((now - g.start) % (max g.oper.cycle 1 : Nat)).toNat

/-- The segment at a position. -/
def segAt (segs : List (Nat × Nat × Nat × Nat)) (pos : Nat) : Option (Nat × Nat × Nat × Nat) :=
  segs.find? (fun s => s.1 ≤ pos && pos < s.2.1)

/-- ns from a position to the first moment at which gate `cls` is closed, going round the cycle once. -/
def closeAfter (segs : List (Nat × Nat × Nat × Nat)) (cycle cls pos : Nat) : Option Nat :=
  match segs.find? (fun s => pos < s.2.1 && !s.2.2.1.testBit cls) with
  | some s => some (s.1 - pos)
  | none => match segs.find? (fun s => !s.2.2.1.testBit cls) with
    | some s => some (cycle - pos + s.1)
    | none => none

/-- What the gate allows a frame. -/
inductive GateSays where
  | closed | waits | allowed
deriving DecidableEq, Repr

/-- gate_allows of R326, times in ps. -/
def Dev.gateSays (d : Dev) (port cls size : Nat) : GateSays :=
  if !d.gated port then .allowed
  else
    let g := d.gate port
    let now := d.timeNs
    let segs := d.gateSegs port g.oper
    let pos := g.position now
    match segAt segs pos with
    | none => .closed
    | some s =>
      if !s.2.2.1.testBit cls then .closed
      else
        let close := closeAfter segs g.oper.cycle cls pos
        let close := match g.pend with
          | none => close
          | some (c, st) =>
            let t := ((st : Int) - now).toNat
            if (match close with | some x => decide (x ≤ t) | none => false) then close
            else if !c.en then none
            else match closeAfter (d.gateSegs port c) c.cycle cls 0 with
              | some x => some (t + x)
              | none => none
        match close with
        | none => .allowed
        | some x =>
          let frac := d.tu.presented * 1000 / (2 ^ 32 : Nat) - now * 1000
          if (size * d.psPerByte port : Int) + frac ≤ (x * 1000 : Nat) then .allowed else .waits

/-- Longest run of a gate's open time in the operational list, ns; none when it never closes. -/
def Dev.longestOpen (d : Dev) (port cls : Nat) : Option Nat :=
  let segs := d.gateSegs port (d.gate port).oper
  if segs.all (fun s => s.2.2.1.testBit cls) then none
  else some ((segs ++ segs).foldl (fun (x : Nat × Nat) s =>
    let run := if s.2.2.1.testBit cls then x.1 + (s.2.1 - s.1) else 0
    (run, max x.2 run)) (0, 0)).2

/-- The list entry running now. -/
def Dev.gateIndex (d : Dev) (port : Nat) (g : Gate) : Nat :=
  match segAt (d.gateSegs port g.oper) (g.position d.timeNs) with
  | some s => s.2.2.2
  | none => 0

/-- A pending list starts (R327). -/
def Dev.startPending (d : Dev) (port : Nat) : Dev :=
  let g := d.gate port
  match g.pend with
  | some (c, st) =>
    if (st : Int) ≤ d.timeNs then d.setGate port { oper := c, start := st, index := 0, pend := none } else d
  | none => d

/-- GATE_CHANGE: the next gates take effect. -/
def Dev.gateChange (d : Dev) (port : Nat) : Dev :=
  if (d.gate port).oper.en then d.setGate port { d.gate port with index := d.gateIndex port (d.gate port) } else d

/-- After a step of presented time each list's position is found anew, and a pending start that the step passed takes
effect (R328). -/
def Dev.gatesStepped (d : Dev) : Dev := (List.range 16).foldl (fun d port => (d.startPending port).gateChange port) d

/-- A port's gate configuration from its words. -/
def gateCfg (w0 w1 w2 w3 : Word) : GateCfg :=
  { en := bit 0 w0, bank := fld 1 1 w0, len := fld 26 16 w0, cycle := fld 29 0 w1, base := w2.toNat + w3.toNat * 2 ^ 32 }
def Dev.gateWords (d : Dev) (port : Nat) : GateCfg :=
  let a := 0x30100 + port
  gateCfg (d.tw Pg.tm a 0) (d.tw Pg.tm a 1) (d.tw Pg.tm a 2) (d.tw Pg.tm a 3)
def Dev.gateShadow (d : Dev) (port : Nat) : GateCfg :=
  let a := 0x30100 + port
  gateCfg (d.tsw Pg.tm a 0) (d.tsw Pg.tm a 1) (d.tsw Pg.tm a 2) (d.tsw Pg.tm a 3)

/-- The validator of TM: port and cause of the first refused configuration (R327, Table 14.8; assumption log 20). -/
def Dev.tmValidate (d : Dev) : Option (Nat × Nat) :=
  (List.range 20).findSome? (fun p =>
    let c := d.gateShadow p
    if !c.en then none
    else if 15 < p then some (p, 3)
    else if c.len = 0 || 1024 < c.len then some (p, 1)
    else if c.cycle < 1000 || 1000000000 < c.cycle then some (p, 2)
    else none)

/-- A bow changes a port's configuration (R327). -/
def Dev.gateBow (d : Dev) (port : Nat) (c : GateCfg) : Dev :=
  let g := d.gate port
  if !c.en then d.setGate port { g with oper := c, pend := none, index := 0 }
  else
    let earliest := d.timeNs + 1000
    let n := if earliest ≤ (c.base : Int) then 0 else ((earliest - c.base + (c.cycle : Int) - 1) / (c.cycle : Int)).toNat
    let d := d.setGate port { g with pend := some (c, c.base + n * c.cycle) }
    if 0 < n then
      (d.setReg Pg.tm Reg.TM_BASE_PAST (word (port + n % 2 ^ 23 * 2 ^ 8 + 2 ^ 31))).detect Pg.tm Evt.TM_GATE_BASE_PAST
    else d

/-- A bow of TM: every port whose configuration it changes (R327). `old` gives the configurations before the bow. -/
def Dev.tmBow (d : Dev) (old : Nat → GateCfg) : Dev :=
  (List.range 16).foldl (fun d p => if d.gateWords p = old p then d else d.gateBow p (d.gateWords p)) d

/-! ## Queues of TM (R321) -/

def Dev.qEgress (d : Dev) (q : Nat) : Nat := d.tf Pg.tm (q * 2) 0 4 0
def Dev.qLevel (d : Dev) (q : Nat) : Nat := d.tf Pg.tm (q * 2) 0 7 5
def Dev.qGtc (d : Dev) (q : Nat) : Nat := d.tf Pg.tm (q * 2) 0 10 8
def Dev.qEn (d : Dev) (q : Nat) : Bool := d.tb Pg.tm (q * 2) 0 11
def Dev.qWeight (d : Dev) (q : Nat) : Nat := d.tf Pg.tm (q * 2) 1 12 0
def Dev.qShaper (d : Dev) (q : Nat) : Nat := d.tf Pg.tm (q * 2) 2 13 0
def Dev.qLink (d : Dev) (q : Nat) : Nat := d.tf Pg.tm (q * 2) 3 9 0

/-- The enabled queues of a port, in index order; on a radio port those of one link (R321, R322). -/
def Dev.portQueues (d : Dev) (port link : Nat) : List Nat :=
  d.pages.tbl.filterMap (fun x =>
    let a := x.1 / 4 % 2 ^ 24
    let q := a / 2
    if x.1 / 4 / 2 ^ 24 = Pg.tm.val && a < 0x20000 && a % 2 = 0 && x.1 % 4 = 0 && d.qEn q && d.qEgress q = port &&
        d.qConsumer q = 0 && (port < 17 || d.qLink q = link) then some q else none)

/-- Tokens of a shaper (R323). -/
def Dev.tokens (d : Dev) (s : Nat) : Int :=
  (SMap.get (fun _ => none) d.tm.tokens s).getD ((d.tf Pg.tm (0x20000 + s) 1 23 0 * 8000 : Nat) : Int)
def Dev.setTokens (d : Dev) (s : Nat) (t : Int) : Dev :=
  { d with tm := { d.tm with tokens := SMap.set (fun _ => none) d.tm.tokens s (some t) } }

/-- A shaper is named by a queue or a port: the first time it starts with BURST × 8,000 (R323). -/
def Dev.nameShaper (d : Dev) (s : Nat) : Dev := if s = 0 then d else d.setTokens s (d.tokens s)

/-- A shaper is open. -/
def Dev.shaperOpen (d : Dev) (s : Nat) : Bool := s == 0 || decide (0 ≤ d.tokens s)

/-- Debit a shaper by a frame's size. -/
def Dev.debit (d : Dev) (s size : Nat) : Dev := if s = 0 then d else d.setTokens s (d.tokens s - (size * 8000 : Nat))

/-- SHAPER_REFILL: every named shaper (R323). -/
def Dev.shaperRefill (d : Dev) : Dev :=
  (d.tm.tokens.map Prod.fst).foldl (fun d s =>
    let cap : Int := (d.tf Pg.tm (0x20000 + s) 1 23 0 * 8000 : Nat)
    d.setTokens s (min (d.tokens s + (d.tf Pg.tm (0x20000 + s) 0 26 0 : Nat)) cap)) d

/-- Size of a frame at a port: LENGTH + OVERHEAD, at least 1 (R322). -/
def Dev.frameSize (d : Dev) (port : Nat) (p : Pkt) : Nat := (max ((p.len : Int) + d.egressOverhead port) 1).toNat

/-- An assured packet can be taken: its item is STARTED and waits for nothing (R94). -/
def Dev.assuredReady (d : Dev) (p : Pkt) : Bool :=
  match p.assured with
  | none => true
  | some (r, s) => match d.item? r s with
    | some i => i.recorded == .started && i.pend.isNone && i.phase == .running
    | none => false

/-- eligible(q) of R322 but for the gate. -/
def Dev.eligibleOpen (d : Dev) (q : Nat) : Bool :=
  match d.queue q with
  | [] => false
  | p :: _ => d.qEn q && d.shaperOpen (d.qShaper q) && d.assuredReady p

/-- eligible(q) of R322. -/
def Dev.eligible (d : Dev) (port q : Nat) : Bool :=
  match d.queue q with
  | [] => false
  | p :: _ => d.eligibleOpen q && d.gateSays port (d.qGtc q) (d.frameSize port p) == .allowed

/-! ## Choosing (R322) -/

/-- The round-robin turn of a port and link. -/
def Dev.turn (d : Dev) (port link : Nat) : Turn := SMap.get (fun _ => Turn.reset) d.tm.turns (port * 1024 + link)
def Dev.setTurn (d : Dev) (port link : Nat) (t : Turn) : Dev :=
  { d with tm := { d.tm with turns := SMap.set (fun _ => Turn.reset) d.tm.turns (port * 1024 + link) t } }

/-- DEF of a queue. -/
def Dev.deficit (d : Dev) (q : Nat) : Nat := (d.tw Pg.tm (q * 2 + 1) 2).toNat
def Dev.setDeficit (d : Dev) (q n : Nat) : Dev := d.setTw Pg.tm (q * 2 + 1) 2 (word n)

/-- The weighted queue after `last` in index order. -/
def nextAfter (ws : List Nat) (last : Option Nat) : Option Nat :=
  match last with
  | none => ws.head?
  | some l => match ws.find? (fun q => l < q) with
    | some q => some q
    | none => ws.head?

/-- dwrr(port): the first argument counts the visits that are left. -/
def Dev.dwrr (d : Dev) (port link : Nat) (ws : List Nat) : Nat → Dev × Option Nat
  | 0 => (d, none)
  | n + 1 =>
    let t := d.turn port link
    let visit (d : Dev) (q : Nat) : Dev × Option Nat × Bool :=
      let size := match d.queue q with | p :: _ => d.frameSize port p | [] => 0
      if d.eligible port q && size ≤ d.deficit q then
        ((d.setDeficit q (d.deficit q - size)).setTurn port link { d.turn port link with cur := some q }, some q, true)
      else
        let d := if (d.queue q).isEmpty then d.setDeficit q 0 else d
        (d.setTurn port link { cur := none, last := some q }, none, false)
    match t.cur with
    | some q =>
      match visit d q with
      | (d, r, true) => (d, r)
      | (d, _, false) => d.dwrr port link ws n
    | none =>
      match nextAfter ws t.last with
      | none => (d, none)
      | some q =>
        if !d.eligible port q then (d.setTurn port link { cur := none, last := some q }).dwrr port link ws n
        else
          match visit (d.setDeficit q (d.deficit q + d.qWeight q * 64)) q with
          | (d, r, true) => (d, r)
          | (d, _, false) => d.dwrr port link ws n

/-- choose(port) of R322. -/
def Dev.choose (d : Dev) (port link : Nat) : Dev × Option Nat :=
  if !d.shaperOpen (d.tf Pg.tm (0x30000 + port) 1 13 0) then (d, none)
  else
    let qs := d.portQueues port link
    match (List.range 4).findSome? (fun l => qs.find? (fun q => d.qLevel q == l && d.eligible port q)) with
    | some q => (d, some q)
    | none =>
      let ws := qs.filter (fun q => d.qLevel q == 4)
      d.dwrr port link ws (ws.length + 1)

/-! ## Sending -/

/-- Rewrite a routed frame's headers from its next hop, in the version it carries (R317, R320). -/
def Dev.egressHdr (d : Dev) (port : Nat) (p : Pkt) : FrameHdr :=
  let dei := p.hdr.dei || (p.yellow && d.rb Pg.tm Reg.TM_CFG 1)
  match p.ver with
  | none => { p.hdr with dei := dei }
  | some v =>
    let e := 0x480000 + p.nh * 2
    let w2 := d.verWord v e 2
    { p.hdr with dstMac := some ((d.verWord v (e + 1) 0).toNat + fld 15 0 (d.verWord v (e + 1) 1) * 2 ^ 32),
                 srcMac := some (d.portMac port), tagged := bit 12 w2, vid := fld 11 0 w2, dei := dei }

/-- Counters of a frame that starts on a port. -/
def Dev.countSent (d : Dev) (port : Nat) (q : Option Nat) (len : Nat) : Dev :=
  let d := d.bump Pg.tm Reg.TM_PORT_TX 31 0 1 port
  let d := if port < 16 then d.bump (epPage port) Reg.EP_TX_FRAMES 31 0 1 (port % 4) else d
  let log := SMap.get (fun _ => []) d.tm.sent port
  let d := { d with tm := { d.tm with sent := SMap.set (fun _ => []) d.tm.sent port ((d.nowNs, len) :: log.filter (fun x => d.nowNs < x.1 + 1000000)) } }
  match q with
  | none => d
  | some q =>
    let d := d.bumpT Pg.tm (q * 2 + 1) 0 31 0
    { d with tm := { d.tm with qBytes := SMap.set (fun _ => 0) d.tm.qBytes q (SMap.get (fun _ => 0) d.tm.qBytes q + len) } }

/-- A chosen frame starts: shapers are debited, its headers rewritten, and it leaves its queue; an assured one enters the
transmit elastic buffer whole and EMITTED is written (R98, R300, R322). -/
def Dev.startFrame (d : Dev) (port q : Nat) (cell : CellRead) : Dev :=
  match d.queue q with
  | [] => d
  | p :: rest =>
    let size := d.frameSize port p
    let d := (d.debit (d.qShaper q) size).debit (d.tf Pg.tm (0x30000 + port) 1 13 0) size
    let p := { p with hdr := d.egressHdr port p }
    match p.assured with
    | none => (d.countSent port (some q) p.len).beginRead port q p cell
    | some (r, s) =>
      let d := (d.setQueue q rest).bump Pg.qm Reg.QM_DEQ_PKTS 31 0
      let d := d.cellRead p cell
      let data := match d.body? p.body with | some b => b.data | none => []
      let w : WireTx := { ring := r, seq := s, port := port, hdr := p.hdr, data := data }
      let d := { d with tm := { d.tm with wire := d.tm.wire ++ [w] } }
      (((d.bumpT Pg.tm (q * 2 + 1) 0 31 0).unref p.body).modItem r s (fun i => { i with phase := .emitted })).transition r s .emitted

/-- Fail an assured packet's item. -/
def Dev.failAssured (d : Dev) (p : Pkt) (cause : Nat) : Dev :=
  match p.assured with
  | some (r, s) => d.finishPlain r s .failed cause
  | none => d

/-- Discard head frames that no open interval of their class can ever carry (R326). -/
def Dev.gateOversize (d : Dev) (port : Nat) (qs : List Nat) : Dev :=
  if !d.gated port then d
  else qs.foldl (fun d q => match d.queue q with
    | [] => d
    | p :: rest =>
      match d.longestOpen port (d.qGtc q) with
      | none => d
      | some ns =>
        if ns * 1000 < d.frameSize port p * d.psPerByte port then
          let d := ((d.setQueue q rest).freePkt p).failAssured p Cause.FRAME_SIZE
          (d.bump Pg.tm Reg.TM_GATE_OVERSIZE 31 0).detect Pg.tm Evt.TM_GATE_OVERSIZE
        else d) d

/-- Count the frames that the fit check holds, each once (R326). -/
def Dev.gateWaits (d : Dev) (port : Nat) (qs : List Nat) : Dev :=
  qs.foldl (fun d q => match d.queue q with
    | [] => d
    | p :: rest =>
      if !p.held && d.eligibleOpen q && d.gateSays port (d.qGtc q) (d.frameSize port p) == .waits then
        ((d.setQueue q ({ p with held := true } :: rest)).bump Pg.tm Reg.TM_GATE_WAITS 31 0 1 port).bumpT Pg.tm (q * 2 + 1) 3 31 0
      else d) d

/-- Discard ordinary packets at the heads of a down port's queues (R316); the first argument bounds the packets. -/
def Dev.dropHeads (d : Dev) (q : Nat) : Nat → Dev
  | 0 => d
  | n + 1 => match d.queue q with
    | [] => d
    | p :: rest =>
      if p.assured.isSome then d
      else (((d.setQueue q rest).freePkt p).bump Pg.tm Reg.TM_DOWN_DISCARDS 31 0 1 (d.qEgress q)).dropHeads q n

/-- The same for every queue of a port that is down. -/
def Dev.dropDown (d : Dev) (port link : Nat) : Dev :=
  if d.portUp port link then d
  else (d.portQueues port link).foldl (fun d q => d.dropHeads q (d.queue q).length) d

/-- Does a mapped packet's item still wait to be sent: being accepted, or accepted and not finished? -/
def Dev.assuredLives (d : Dev) (p : Pkt) : Bool :=
  match p.assured with
  | none => true
  | some (r, s) => match d.item? r s with
    | some i => i.phase == .ready || i.phase == .waiting || i.phase == .bound || i.phase == .running
    | none =>
      let x := d.ring r
      (s : Int) == x.acceptSeq + 1 && (match x.head with | .entryWrite _ _ _ => true | .headerWrite _ _ _ => true | _ => false)

/-- Mapped packets whose item was never accepted, or ended without being sent, are discarded. -/
def Dev.dropUnaccepted (d : Dev) (qs : List Nat) : Dev :=
  qs.foldl (fun d q =>
    let (keep, gone) := (d.queue q).partition d.assuredLives
    if gone.isEmpty then d else gone.foldl (fun d p => d.freePkt p) (d.setQueue q keep)) d

/-- PORT_READY: a port can start a frame (R322). -/
def Dev.portReady (d : Dev) (port link : Nat) (cell : CellRead) : Dev :=
  if !(d.hdr Pg.tm).state.serves || d.en.tripped then d
  else if !d.portUp port link then d.dropDown port link
  else
    let qs := d.portQueues port link
    let d := d.dropUnaccepted qs
    let d := (d.gateOversize port qs).gateWaits port qs
    match d.choose port link with
    | (d, some q) => d.startFrame port q cell
    | (d, none) => d

/-! ## Wire transmit items (R98, Table 4.6) -/

/-- PX's requester number, under which the bytes of a wire item are read (assumption log 21). -/
abbrev whoWire : Nat := 285

/-- A wire item is STARTED. -/
def Dev.startWire (d : Dev) (ring seq : Nat) : Dev :=
  (d.modItem ring seq (fun x => { x with phase := .running })).transition ring seq .started

/-- A kept frame comes back: on the wire into the transmit buffer, for a radio into its queue. -/
def Dev.restoreFrame (d : Dev) (ring seq : Nat) : Dev :=
  match d.tm.kept.find? (fun k => k.w.ring == ring && k.w.seq == seq) with
  | none => d
  | some k =>
    let d := { d with tm := { d.tm with kept := d.tm.kept.filter (fun x => !(x.w.ring == ring && x.w.seq == seq)) } }
    if k.w.port < 17 then { d with tm := { d.tm with wire := d.tm.wire ++ [k.w] } }
    else
      let (d, b) := d.newBody { source := 16, cells := d.freeCells (cellsFor k.w.data.length), data := k.w.data, done := true,
                                err := false, refs := 1, walking := false, inReserve := false, dropped := false, classified := true }
      d.link k.queue { body := b, header := none, len := k.w.data.length, hdr := k.w.hdr, yellow := false, ver := none, nh := 0,
                       assured := some (ring, seq), leg := none, link := k.link, source := 16, stamp := 0, admitted := 0, held := false }

/-- WIRE_TRANSMIT: bound, the frame is read and STARTED written; started, it enters the transmit buffer whole and EMITTED
is written; emitted, it is sent and completes (R98, R357). -/
def Dev.wireTransmit (d : Dev) (ring seq : Nat) : Dev :=
  match d.item? ring seq with
  | none => d
  | some i =>
    let port := ctxOf i.desc
    if engineOf i.desc ≠ 7 || i.pend.isSome || i.inst.isNone then d
    else if i.phase = .bound then
      if port < 17 && 4096 < lengthOf i.desc then d.finishPlain ring seq .failed Cause.FRAME_SIZE
      else if d.allPkts.any (fun p => p.assured == some (ring, seq)) then d.startWire ring seq
      else if d.tm.kept.any (fun k => k.w.ring == ring && k.w.seq == seq) then (d.restoreFrame ring seq).startWire ring seq
      else if 16 < port then d.finishPlain ring seq .failed Cause.BAD_DESC
      else
        match d.virtRead whoWire (d.ringAsid ring) (srcOf i.desc) (lengthOf i.desc) with
        | (d, .ok, bs) =>
          let h : FrameHdr := { tagged := false, vid := 0, pcp := 0, dei := false, dstMac := none, srcMac := none, ip := 0, ttl := 0,
                                rtp := none }
          let w : WireTx := { ring := ring, seq := seq, port := port, hdr := h, data := bs }
          let d := { d with tm := { d.tm with wire := d.tm.wire ++ [w] } }
          d.startWire ring seq
        | (d, .fail c, _) => d.finishPlain ring seq .failed c
        | (d, .stop, _) => d
    else match d.tm.wire.find? (fun w => w.ring == ring && w.seq == seq) with
      | none => d
      | some w =>
        if i.phase = .running then
          if !d.portUp port 0 || d.tm.wire.any (fun x => x.ring == ring && x.port == port && x.seq < seq) then d
          else (d.modItem ring seq (fun x => { x with phase := .emitted })).transition ring seq .emitted
        else if i.phase = .emitted then
          let d := { d with tm := { d.tm with wire := d.tm.wire.filter (fun x => !(x.ring == ring && x.seq == seq)) } }
          let d := (d.countSent port none w.data.length).emit (.frame port w.hdr w.data false)
          let d := if descF i.desc 50 0 0 = 1 then d.txStamp port (descF i.desc 48 15 0) (descF i.desc 50 1 1 == 1) else d
          d.finish ring seq { i.plain i.doneStatus 0 with result0 := BitVec.ofNat 64 w.data.length }
        else d

/-! ## Monitors (R329) -/

/-- A monitor. -/
def Dev.mon (d : Dev) (m : Nat) : Mon := SMap.get (fun _ => Mon.reset) d.tm.mons m
def Dev.setMon (d : Dev) (m : Nat) (x : Mon) : Dev := { d with tm := { d.tm with mons := SMap.set (fun _ => Mon.reset) d.tm.mons m x } }

/-- MONITOR_SAMPLE: one sample of an enabled monitor that is not frozen. -/
def Dev.monitorSample (d : Dev) (m : Nat) : Dev :=
  let a := 0x50000 + m
  let x := d.mon m
  if !d.tb Pg.tm a 0 16 || x.frozen || !(d.hdr Pg.tm).state.serves then d
  else
    let q := d.tf Pg.tm a 0 15 0
    let occ := d.occupancy q
    let age := match d.queue q with
      | [] => 0
      | p :: _ => min (d.nowNs - p.admitted) (2 ^ 32 - 1)
    let v := occ % 2 ^ 18 + min (d.queue q).length 16383 * 2 ^ 18 + age * 2 ^ 32
    let base := d.tf Pg.tm a 2 31 13 * 8192 + d.tf Pg.tm a 3 7 0 * 2 ^ 32
    let (d, _) := d.physWrite (base + x.wr * 8) (bytesLE 8 v)
    let d := d.peak Pg.tm Reg.TM_MON_MAX 17 0 occ m
    let trig := d.tb Pg.tm a 0 17 && d.tf Pg.tm a 1 17 0 ≤ occ
    let y : Mon := { x with wr := (x.wr + 1) % 1024 }
    match x.left with
    | none => d.setMon m { y with left := if trig then some 512 else none }
    | some n =>
      if n ≤ 1 then (d.setMon m { y with left := none, frozen := true }).detect Pg.tm Evt.TM_SAMPLE_FROZEN
      else d.setMon m { y with left := some (n - 1) }

/-! ## Link state -/

/-- Some port of the page has link. -/
def Dev.epActive (d : Dev) (p : Page) : Dev := d.setContinuous p (d.rf p Reg.EP_LINK_STAT 3 0 != 0)

/-- A port loses link (R316, R330). -/
def Dev.linkDown (d : Dev) (port : Nat) : Dev :=
  if port < 16 then
    let p := epPage port
    let s := port % 4
    if !d.rb p Reg.EP_LINK_STAT s then d
    else
      let d := ((d.setRb p Reg.EP_LINK_STAT s false).setRb p Reg.EP_LINK_STAT (4 + s) false).setRb p Reg.EP_LINK_STAT (8 + s) false
      let d := if d.portMode port ≤ 2 then d.setRf p Reg.EP_LINK_STAT 15 12 0 else d.setRb p Reg.EP_LINK_STAT (12 + s) false
      ((d.epActive p).detect p Evt.EP_LINK_DOWN).dropDown port 0
  else if !d.rb Pg.mg Reg.MG_STAT 0 then d
  else (((d.setRb Pg.mg Reg.MG_STAT 0 false).setContinuous Pg.mg false).detect Pg.mg Evt.EP_LINK_DOWN).dropDown 16 0

/-- A port gains link, for MG at a speed (R330). A retired lane or a mode without the port keeps it down (R311). -/
def Dev.linkUp (d : Dev) (port speed : Nat) : Dev :=
  if port < 16 then
    let p := epPage port
    let s := port % 4
    if d.rb p Reg.EP_LINK_STAT s || !d.portExists port || d.laneDown port || !(d.hdr p).state.serves then d
    else
      let d := d.setRb p Reg.EP_LINK_STAT s true
      let d := d.setRb p Reg.EP_LINK_STAT (4 + s) (d.portMode port ≤ 2 || d.rf p Reg.EP_PORT_MODE 5 4 != 0)
      let d := d.setRb p Reg.EP_LINK_STAT (8 + s) (d.rb p Reg.EP_PORT_MODE 6 && d.portMode port != 2)
      let d := if d.portMode port ≤ 2 then d.setRf p Reg.EP_LINK_STAT 15 12 15 else d.setRb p Reg.EP_LINK_STAT (12 + s) true
      (d.epActive p).detect p Evt.EP_LINK_UP
  else if d.rb Pg.mg Reg.MG_STAT 0 || !(d.hdr Pg.mg).state.serves then d
  else (((d.setRb Pg.mg Reg.MG_STAT 0 true).setRf Pg.mg Reg.MG_STAT 2 1 speed).setContinuous Pg.mg true).detect Pg.mg Evt.EP_LINK_UP

/-- Lanes have left or re-entered service: ports that a retired lane takes down lose link (R311). -/
def Dev.lanesChanged (d : Dev) (ep : Nat) : Dev :=
  (List.range 4).foldl (fun d s => if d.laneDown (4 * ep + s) then d.linkDown (4 * ep + s) else d) d

/-- EP_LANE_FAULT: signal or block lock lost on an active lane (Table 14.5). -/
def Dev.laneFault (d : Dev) (ep lane : Nat) : Dev :=
  let p := epPage (4 * ep)
  if 4 ≤ d.portMode (4 * ep) || d.unitOut p lane then d
  else (d.detectUnit p Evt.EP_LANE_FAULT lane).lanesChanged ep

/-- A port's transmit MAC runs dry: the frame in progress ends with an invalid FCS (R17). -/
def Dev.portUnderrun (d : Dev) (port : Nat) : Dev :=
  match d.qm.reading.find? (fun r => r.port == port) with
  | none => d
  | some r =>
    let d := { d with qm := { d.qm with reading := d.qm.reading.filter (fun x => x.port != port) } }
    let data := match d.body? r.pkt.body with | some b => b.data | none => []
    let d := (d.emit (.frame port r.pkt.hdr data true)).freePkt r.pkt
    if port < 16 then (d.bump (epPage port) Reg.EP_TX_UNDERRUN 15 0 1 (port % 4)).detect (epPage port) Evt.EP_TX_UNDERRUN
    else d.detect Pg.mg Evt.EP_TX_UNDERRUN

/-- TM_HANG: a port has an eligible queue and none is served (Table 14.5). -/
def Dev.tmHang (d : Dev) : Dev :=
  if (List.range 20).any (fun port => d.qm.queues.any (fun x => d.qEgress x.1 == port && d.qConsumer x.1 == 0 && d.eligible port x.1)) then
    d.detect Pg.tm Evt.TM_HANG
  else d

/-- The assured frames that queues hold are kept before their cells are lost; their items are bound again (Table 21.4). -/
def Dev.keepQueued (d : Dev) : Dev :=
  let ks : List KeptFrame := d.qm.queues.flatMap (fun x => x.2.filterMap (fun p => p.assured.map (fun (i : Nat × Nat) =>
    { w := { ring := i.1, seq := i.2, port := d.qEgress x.1, hdr := d.egressHdr (d.qEgress x.1) p,
             data := match d.body? p.body with | some b => b.data | none => [] },
      queue := x.1, link := p.link })))
  ks.foldl (fun d k => d.modItem k.w.ring k.w.seq (fun i => if i.phase = .running then { i with phase := .bound } else i))
    { d with tm := { d.tm with kept := d.tm.kept ++ ks } }

/-- An island reset of TM, and a warm reset: schedules start anew; frames in the transmit buffers are kept for the items
that are sent again. -/
def Dev.tmReset (d : Dev) : Dev :=
  let d := { d with qm := { d.qm with reading := d.qm.reading.filter (fun r => 20 ≤ r.port) } }
  { d with tm := { d.tm with turns := [], wire := [], kept := d.tm.kept ++ d.tm.wire.map (fun w => { w := w, queue := 0, link := 0 }) } }

/-! ## Commands -/

/-- PORT_READY (R322). -/
def execPortReady (port : Fin 20) (link : Fin 1024) (cell : CellRead) (s : State) : Host.Outcome State Fault Refusal :=
  s.on (·.portReady port.val (if port.val < 17 then 0 else link.val) cell)
/-- SHAPER_REFILL (R323). -/
def execShaperRefill (s : State) : Host.Outcome State Fault Refusal := s.on (·.shaperRefill)
/-- GATE_CHANGE (R325). -/
def execGateChange (port : Fin 16) (s : State) : Host.Outcome State Fault Refusal := s.on (·.gateChange port.val)
/-- GCL_PENDING_START (R327). -/
def execGclPendingStart (port : Fin 16) (s : State) : Host.Outcome State Fault Refusal := s.on (·.startPending port.val)
/-- SWAP (R319). -/
def execSwap (s : State) : Host.Outcome State Fault Refusal := s.on (·.swap)
/-- SWAP_DONE (R319). -/
def execSwapDone (s : State) : Host.Outcome State Fault Refusal := s.on (·.swapDone)
/-- VERSION_FREE (R320). -/
def execVersionFree (ver : Fin 16) (s : State) : Host.Outcome State Fault Refusal := s.on (·.versionFree ver.val)
/-- MONITOR_SAMPLE (R329). -/
def execMonitorSample (m : Fin 64) (s : State) : Host.Outcome State Fault Refusal := s.on (·.monitorSample m.val)
/-- EP_LINK_DOWN (R330). -/
def execEpLinkDown (port : Fin 17) (s : State) : Host.Outcome State Fault Refusal := s.on (·.linkDown port.val)
/-- EP_LINK_UP (R330). -/
def execEpLinkUp (port : Fin 17) (speed : Fin 3) (s : State) : Host.Outcome State Fault Refusal := s.on (·.linkUp port.val speed.val)
/-- EP_LANE_FAULT (R311). -/
def execEpLaneFault (ep lane : Fin 4) (s : State) : Host.Outcome State Fault Refusal := s.on (·.laneFault ep.val lane.val)
/-- TM_HANG (R330). -/
def execTmHang (s : State) : Host.Outcome State Fault Refusal := s.on (·.tmHang)
/-- WIRE_TRANSMIT (R98). -/
def execWireTransmit (ring : RingNo) (seq : Nat) (s : State) : Host.Outcome State Fault Refusal :=
  s.on (·.wireTransmit ring.val seq)

end Sys2Proof.Machine
end

