-- ==== Sys2Proof/Machine/MediaOps.lean ====
section
/-! DEFINITION. Forwarding by layers (chapter 7): replication walks, copies, switch points, the leg adapter and key
requests. -/

namespace Sys2Proof.Machine

/-! ## Table fields (Table 7.6) -/

def legAddr (l k : Nat) : Nat := 0x10000 + l * 4 + k
def Dev.legEn (d : Dev) (l : Nat) : Bool := d.tb Pg.px (legAddr l 0) 0 0
def Dev.legClosing (d : Dev) (l : Nat) : Bool := d.tb Pg.px (legAddr l 0) 0 1
def Dev.legLost (d : Dev) (l : Nat) : Bool := d.tb Pg.px (legAddr l 0) 0 2
/-- 0 Ethernet, 1 air, 2 host. -/
def Dev.legEdge (d : Dev) (l : Nat) : Nat := d.tf Pg.px (legAddr l 0) 0 4 3
def Dev.legMix (d : Dev) (l : Nat) : Bool := d.tb Pg.px (legAddr l 0) 0 5
def Dev.legPublish (d : Dev) (l : Nat) : Bool := d.tb Pg.px (legAddr l 0) 0 6
def Dev.legDecode (d : Dev) (l : Nat) : Bool := d.tb Pg.px (legAddr l 0) 0 7
def Dev.legConf (d : Dev) (l : Nat) : Nat := d.tf Pg.px (legAddr l 0) 0 17 8
def Dev.legCtx (d : Dev) (l : Nat) : Nat := d.tf Pg.px (legAddr l 0) 1 28 16
def Dev.legEgress (d : Dev) (l : Nat) : Nat := d.tf Pg.px (legAddr l 0) 2 15 0
def Dev.legSource (d : Dev) (l : Nat) : Nat := d.tf Pg.px (legAddr l 0) 2 27 16
def Dev.legInflight (d : Dev) (l : Nat) : Nat := d.tf Pg.px (legAddr l 0) 3 15 0
def Dev.legHostCeil (d : Dev) (l : Nat) : Nat := d.tf Pg.px (legAddr l 1) 0 7 0
def Dev.legAdapt (d : Dev) (l : Nat) : Bool := d.tb Pg.px (legAddr l 1) 0 8
def Dev.legHeadroom (d : Dev) (l : Nat) : Nat := d.tf Pg.px (legAddr l 1) 0 15 9
def Dev.legUpHold (d : Dev) (l : Nat) : Nat := d.tf Pg.px (legAddr l 1) 0 23 16
def Dev.legMaxKbps (d : Dev) (l : Nat) : Nat := d.tf Pg.px (legAddr l 1) 1 19 0
def Dev.legEstimate (d : Dev) (l : Nat) : Nat := d.tf Pg.px (legAddr l 1) 2 19 0
/-- Set ESTIMATE, capped at MAX_KBPS (R170). -/
def Dev.setEstimate (d : Dev) (l v : Nat) : Dev := d.setTf Pg.px (legAddr l 1) 2 19 0 (min v (d.legMaxKbps l))

/-- Encoding number x = source × 4 + s. -/
def encAddr (x : Nat) : Nat := 0x20000 + x
def Dev.pxSsrc (d : Dev) (x : Nat) : Word := d.tw Pg.px (encAddr x) 0
def Dev.pxValid (d : Dev) (x : Nat) : Bool := d.tb Pg.px (encAddr x) 1 0
def Dev.pxHevc (d : Dev) (x : Nat) : Bool := d.tb Pg.px (encAddr x) 1 1
def Dev.pxGdr (d : Dev) (x : Nat) : Bool := d.tb Pg.px (encAddr x) 1 2
def Dev.pxLocal (d : Dev) (x : Nat) : Bool := d.tb Pg.px (encAddr x) 1 3
def Dev.pxNode (d : Dev) (x : Nat) : Nat := d.tf Pg.px (encAddr x) 1 17 4
/-- A source has an encoding with a flag set. -/
def Dev.srcGdr (d : Dev) (s : Nat) : Bool := (List.range 4).any (fun i => d.pxValid (s * 4 + i) && d.pxGdr (s * 4 + i))
def Dev.srcLocal (d : Dev) (s : Nat) : Bool := (List.range 4).any (fun i => d.pxValid (s * 4 + i) && d.pxLocal (s * 4 + i))

def nodeAddr (n : Nat) : Nat := 0x40000 + n
def Dev.nodeNext (d : Dev) (n : Nat) : Option Nat :=
  if d.tb Pg.px (nodeAddr n) 0 14 then some (d.tf Pg.px (nodeAddr n) 0 13 0) else none

/-- Copy entry number e = node × 64 + slot. -/
def copyAddr (e : Nat) : Nat := 0x100000 + e
def copyState (e : Nat) : Nat := 0x200000 + e
def Dev.copyLeg (d : Dev) (e : Nat) : Nat := d.tf Pg.px (copyAddr e) 0 12 0
def Dev.copyValid (d : Dev) (e : Nat) : Bool := d.tb Pg.px (copyAddr e) 0 13
def Dev.copyPrio (d : Dev) (e : Nat) : Nat := d.tf Pg.px (copyAddr e) 0 15 14
def Dev.copyCur (d : Dev) (e : Nat) : Nat := d.tf Pg.px (copyState e) 0 7 0
def Dev.copyTarget (d : Dev) (e : Nat) : Nat := d.tf Pg.px (copyState e) 0 15 8
def Dev.copyPending (d : Dev) (e : Nat) : Bool := d.tb Pg.px (copyState e) 0 16

def Dev.legX (d : Dev) (l : Nat) : LegX := SMap.get (fun _ => LegX.reset) d.px.legs l
def Dev.setLegX (d : Dev) (l : Nat) (x : LegX) : Dev := { d with px := { d.px with legs := SMap.set (fun _ => LegX.reset) d.px.legs l x } }
def Dev.encX (d : Dev) (x : Nat) : EncX := SMap.get (fun _ => EncX.reset) d.px.encs x
def Dev.setEncX (d : Dev) (x : Nat) (v : EncX) : Dev := { d with px := { d.px with encs := SMap.set (fun _ => EncX.reset) d.px.encs x v } }
def Dev.copyX (d : Dev) (e : Nat) : CopyX := SMap.get (fun _ => CopyX.reset) d.px.copies e
def Dev.setCopyX (d : Dev) (e : Nat) (v : CopyX) : Dev := { d with px := { d.px with copies := SMap.set (fun _ => CopyX.reset) d.px.copies e v } }

/-- A table address of PX whose first word is listed, with that word. -/
def Dev.pxListed (d : Dev) (lo hi : Nat) : List (Nat × Word) :=
  d.pages.tbl.filterMap (fun x =>
    let a := x.1 / 4 % 2 ^ 24
    if x.1 / 4 / 2 ^ 24 = Pg.px.val && x.1 % 4 = 0 && lo ≤ a && a ≤ hi then some (a, x.2) else none)

/-- Valid copy entries, in node and slot order. -/
def Dev.validCopies (d : Dev) : List Nat :=
  ((d.pxListed 0x100000 0x1FFFFF).filter (fun x => bit 13 x.2)).map (fun x => x.1 - 0x100000)
/-- Valid copy entries of a leg. -/
def Dev.legCopies (d : Dev) (l : Nat) : List Nat := d.validCopies.filter (fun e => d.copyLeg e == l)

/-- The nodes of a list: at most `fuel`. -/
def Dev.chain (d : Dev) : Nat → Nat → List Nat
  | 0, _ => []
  | f + 1, n => n :: (match d.nodeNext n with | some m => d.chain f m | none => [])

/-- The listed encodings that are valid. -/
def Dev.validEncs (d : Dev) : List Nat :=
  (d.pages.tbl.filterMap (fun x =>
    let a := x.1 / 4 % 2 ^ 24
    if x.1 / 4 / 2 ^ 24 = Pg.px.val && x.1 % 4 = 1 && 0x20000 ≤ a && a ≤ 0x23FFF && bit 0 x.2 then some (a - 0x20000) else none))

/-- The source whose replication list holds a node (R158). -/
def Dev.nodeSource (d : Dev) (n : Nat) : Option Nat :=
  (d.validEncs.find? (fun x => hasNat (d.chain 64 (d.pxNode x)) n)).map (· / 4)

/-! ## Layers -/

/-- The byte of no layer. -/
abbrev noLayer : Nat := 0xFF
/-- Order of layers: no layer lies below every layer (assumption log 23). -/
def layerRank (l : Nat) : Nat := if l = noLayer then 0 else l + 1
/-- The lower s and, separately, the lower t (R169). -/
def minLayer (a b : Nat) : Nat := min (a / 16) (b / 16) * 16 + min (a % 16) (b % 16)
/-- HOST_CEIL and PX_ENERGY_CEIL of a leg (R169). -/
def Dev.ceiling (d : Dev) (l : Nat) : Nat := minLayer (d.legHostCeil l) (d.rf Pg.px Reg.PX_ENERGY_CEIL 7 0)

/-- The layers of a source within a ceiling, lowest first. -/
def Dev.layersWithin (d : Dev) (src ceil : Nat) : List Nat :=
  (List.range 4).flatMap (fun s =>
    if d.pxValid (src * 4 + s) && s ≤ ceil / 16 then ((List.range 4).filter (· ≤ ceil % 16)).map (s * 16 + ·) else [])

/-- kb/s of TemporalIds up to t of an encoding over the last second (R171). -/
def Dev.layerRate (d : Dev) (src l : Nat) : Nat :=
  let x := d.encX (src * 4 + l / 16)
  (x.log.filter (fun e => d.nowNs < e.1 + 1000000000 && e.2 % 4 ≤ l % 16)).foldl (fun a e => a + e.2 / 4) 0 * 8 / 1000

/-- Give a copy entry a target: a new one replaces a pending one, and one equal to CUR withdraws it (R166). -/
def Dev.setTarget (d : Dev) (e l : Nat) : Dev :=
  let cur := d.copyCur e
  let moves := l ≠ noLayer && (cur = noLayer || cur / 16 ≠ l / 16)
  let x := d.copyX e
  let d1 := d.setTf Pg.px (copyState e) 0 15 8 l
  let d1 := d1.setTf Pg.px (copyState e) 0 16 16 (l != cur).toNat
  d1.setCopyX e { x with since := if moves then some (x.since.getD d.nowNs) else none }

/-! ## Key requests (R172, R203) -/

/-- A key request to a source's publisher, under KEYREQ_MIN; `leg` is the one that caused it. -/
def Dev.keyReq (d : Dev) (src : Nat) (leg : Option Nat) : Dev :=
  if d.srcGdr src then d
  else
    let last := SMap.get (fun _ => none) d.px.keyAt src
    let early := match last with
      | some t => decide (d.nowNs < t + d.rf Pg.px Reg.PX_MEDIA_CFG 23 16 * 10000000)
      | none => false
    if early then d.bump Pg.px Reg.PX_KEYREQ 31 16
    else
      let d := { d with px := { d.px with keyAt := SMap.set (fun _ => none) d.px.keyAt src (some d.nowNs) } }
      let d := (d.bump Pg.px Reg.PX_KEYREQ 15 0).emit (.keyRequest src)
      match leg with
      | some l => d.bumpT Pg.px (legAddr l 3) 3 31 0
      | none => d

/-- A picture-loss indication for a decode context: to the publisher of its LEG, at most one per leg in 200 ms and under
R172's limit; none where the decoded encoding has GDR = 1 (R203). -/
def Dev.sendPli (d : Dev) (h : Nat) : Dev :=
  let p := pg (0x10 + h / 512)
  let a := h % 512 * 4 + 3
  if !d.tb p a 0 13 || !d.fwRuns then d
  else
    let l := d.tf p a 0 12 0
    let x := d.legX l
    let src := d.legSource l
    let early := match x.pliAt with
      | some t => decide (d.nowNs < t + 200000000)
      | none => false
    if d.pxGdr (src * 4 + d.tf p a 0 17 16) || early then d
    else (d.setLegX l { x with pliAt := some d.nowNs }).keyReq src (some l)

/-! ## Switch points (Table 7.2) -/

/-- Is the picture a switch point for a move to its encoding? -/
def Dev.moveSwitch (d : Dev) (w : PxWalk) : Bool :=
  w.ptype == 1 || (w.ptype == 4 && d.pxGdr w.enc) || (d.pxLocal w.enc && w.marked)

/-- Is the picture a switch point for raising t from a to a + 1 on its encoding? -/
def Dev.raiseSwitch (d : Dev) (w : PxWalk) (a : Nat) : Bool :=
  w.ptype == 1 || (d.pxHevc w.enc && w.tid == a + 1 && (w.ptype == 2 || w.ptype == 3)) || (d.pxLocal w.enc && w.marked)

/-- Take a new CUR and count the change. -/
def Dev.setCur (d : Dev) (e l : Nat) : Dev :=
  let old := d.copyCur e
  if old = l then d
  else
    let d := d.setTf Pg.px (copyState e) 0 7 0 l
    let d := if layerRank old < layerRank l then d.bump Pg.px Reg.PX_SWITCHES 15 0 else d.bump Pg.px Reg.PX_SWITCHES 31 16
    let d := d.bumpT Pg.px (legAddr (d.copyLeg e) 3) 2 31 0
    d.setTarget e (d.copyTarget e)

/-- The deltas at the first packet forwarded from a new encoding (R161). An entry that has forwarded nothing has no last
packet: both deltas are free then (assumption log 24). -/
def Dev.moveDeltas (d : Dev) (e : Nat) (w : PxWalk) : Dev :=
  let x := d.copyX e
  let a := copyState e
  if x.started then
    let lastSeq := d.tf Pg.px a 1 31 16
    let gap : Int := d.timeNs - x.lastAt
    let ticks := (gap * 90000 + 500000000) / 1000000000
    let d := d.setTf Pg.px a 1 15 0 ((lastSeq + 1 + 65536 - w.rtp.seq % 65536) % 65536)
    d.setTw Pg.px a 2 (word (unsigned 32 ((x.lastTs : Int) + ticks - (w.rtp.ts : Int))))
  else
    let v := Config.freeNat d.fresh
    ((d.drawn).setTf Pg.px a 1 15 0 (v % 65536)).setTw Pg.px a 2 (word (v / 65536))

/-- The first packet of a picture: layer changes that it allows a valid entry (R165 to R168). -/
def Dev.switchAt (d : Dev) (e : Nat) (w : PxWalk) : Dev :=
  if !d.copyPending e then d
  else
    let cur := d.copyCur e
    let t := d.copyTarget e
    let s := w.enc % 4
    if t = noLayer then if cur / 16 = s then d.setCur e noLayer else d
    else if cur = noLayer || cur / 16 ≠ t / 16 then
      if s = t / 16 && d.moveSwitch w then
        let d := (d.setCur e t).moveDeltas e w
        d.setTf Pg.px (copyState e) 0 17 17 (w.ptype == 4 && d.pxGdr w.enc).toNat
      else if cur ≠ noLayer && t / 16 < cur / 16 && s = cur / 16 then d.setCur e (cur / 16 * 16)
      else d
    else if s ≠ cur / 16 then d
    else if t % 16 < cur % 16 then d.setCur e t
    else if d.raiseSwitch w (cur % 16) then d.setCur e (cur + 1)
    else d

/-! ## Copies -/

/-- The TM queue of an egress: the lowest-numbered enabled one of the port, and link on a radio port (assumption log
25). -/
def Dev.mediaQueue (d : Dev) (l : Nat) : Option Nat :=
  if d.legEdge l = 2 then some (d.legEgress l)
  else if d.legEdge l = 1 then
    let k := d.legEgress l % 1024
    (d.portQueues (17 + d.tf Pg.ac (k * 4) 0 6 5) k).head?
  else (d.portQueues (d.legEgress l) 0).head?

/-- A copy is dropped (R162). -/
def Dev.dropCopy (d : Dev) (l : Nat) : Dev := (d.bump Pg.px Reg.PX_COPY_DROPS 31 0).bumpT Pg.px (legAddr l 3) 1 31 0

/-- Output sequence number and timestamp of a packet for an entry (R159). -/
def Dev.outSeq (d : Dev) (e : Nat) (w : PxWalk) : Nat := (w.rtp.seq + d.tf Pg.px (copyState e) 1 15 0) % 65536
def Dev.outTs (d : Dev) (e : Nat) (w : PxWalk) : Nat := (w.rtp.ts + (d.tw Pg.px (copyState e) 2).toNat) % 2 ^ 32

/-- An entry forwards a packet: its last output sequence number, ROC where that wraps, and its last packet (R159). -/
def Dev.noteOut (d : Dev) (e : Nat) (w : PxWalk) : Dev :=
  let a := copyState e
  let out := d.outSeq e w
  let x := d.copyX e
  let last := d.tf Pg.px a 1 31 16
  let ahead := (out + 65536 - last) % 65536
  let newer := !x.started || (ahead ≠ 0 && ahead < 32768)
  let ts := d.outTs e w
  let d1 := if x.started && newer && out < last then d.bumpT Pg.px a 3 31 0 else d
  let d1 := if newer then d1.setTf Pg.px a 1 31 16 out else d1
  d1.setCopyX e { x with started := true, inPic := true, lastAt := d.timeNs, lastTs := ts }

/-- A copy is encrypted under its leg's KEY_OUT slot, with index ROC × 2^16 + output sequence number (R159). -/
def Dev.sealCopy (d : Dev) (e out : Nat) (w : PxWalk) : Dev × Bool :=
  let l := d.copyLeg e
  d.inline (d.keyOut l)
    { leg := Fin.ofNat 8192 l, encrypt := true, rtcp := false, ssrc := d.tw Pg.px (copyAddr e) 1,
      index := (d.tw Pg.px (copyState e) 3).toNat * 65536 + out, authOk := true, bytes := w.len, cmp := .equal }

/-- Air link of a leg, 0 on other edges. -/
def Dev.legLink (d : Dev) (l : Nat) : Nat := if d.legEdge l = 1 then d.legEgress l % 1024 else 0

/-- The copy's packet. -/
def Dev.copyPkt (d : Dev) (e out ts : Nat) (w : PxWalk) : Pkt :=
  { body := w.body, header := none, len := w.len,
    hdr := { tagged := false, vid := 0, pcp := 0, dei := false, dstMac := none, srcMac := none, ip := 0, ttl := 0,
             rtp := some { ssrc := d.tw Pg.px (copyAddr e) 1, pt := d.tf Pg.px (copyAddr e) 2 6 0, seq := out, ts := ts } },
    yellow := false, ver := none, nh := 0, assured := none, leg := some (d.copyLeg e), link := d.legLink (d.copyLeg e),
    source := w.source, stamp := w.stamp, admitted := d.nowNs, held := false }

/-- Packets that wait at an egress that is down are discarded (R316). -/
def Dev.sweepEgress (d : Dev) (l : Nat) : Dev :=
  match d.legEdge l with
  | 0 => d.dropDown (d.legEgress l) 0
  | 1 => d.dropDown (17 + d.tf Pg.ac (d.legLink l * 4) 0 6 5) (d.legLink l)
  | _ => d

/-- A copy has been admitted: the payload's cells pass to the pool with the first one, counters and INFLIGHT rise. -/
def Dev.copyQueued (d : Dev) (l : Nat) (w : PxWalk) : Dev :=
  let d := match d.body? w.body with
    | some b => if b.inReserve then d.takeCells w.body (cellsFor w.len) else d
    | none => d
  let d := d.setTf Pg.px (legAddr l 0) 3 15 0 (min (d.legInflight l + 1) 65535)
  ((d.bump Pg.px Reg.PX_COPIES 31 0).bumpT Pg.px (legAddr l 3) 0 31 0).sweepEgress l

/-- Queue an encrypted copy, or drop it where it is refused (R162). -/
def Dev.queueCopy (d : Dev) (p : Pkt) (l : Nat) (w : PxWalk) : Dev :=
  match d.mediaQueue l with
  | none => d.dropCopy l
  | some q =>
    let r := d.admitCopy q p
    if r.2 then r.1.copyQueued l w else r.1.dropCopy l

/-- Rewrite, encrypt and queue one copy (R159 to R162). -/
def Dev.makeCopy (d : Dev) (e : Nat) (w : PxWalk) : Dev :=
  let out := d.outSeq e w
  let ts := d.outTs e w
  let r := (d.noteOut e w).sealCopy e out w
  if r.2 then r.1.queueCopy (r.1.copyPkt e out ts w) (d.copyLeg e) w else r.1.dropCopy (d.copyLeg e)

/-- One copy entry meets one packet (R158 to R168). -/
def Dev.copyStep (d : Dev) (e : Nat) (w : PxWalk) : Dev :=
  let l := d.copyLeg e
  let s := w.enc % 4
  -- the refresh period of the entry's encoding has ended (R167)
  let d := if w.newPic && d.copyCur e / 16 = s && (w.ptype = 1 || w.ptype = 4) then d.setTf Pg.px (copyState e) 0 17 17 0 else d
  -- an entry whose VALID fell stops at the next picture of its encoding (R168)
  let d := if w.newPic && d.copyCur e / 16 = s && !d.copyValid e then d.setCopyX e { d.copyX e with inPic := false } else d
  if !d.copyValid e && !(d.copyX e).inPic then d
  else if !d.legEn l || d.legLost l then d
  else
    let d := if w.newPic && d.copyValid e then d.switchAt e w else d
    let cur := d.copyCur e
    if cur = noLayer || cur / 16 ≠ s then d
    else
      let d := if w.late then d else d.setCopyX e { d.copyX e with dec := false }
      if cur % 16 < w.tid then
        if w.next then
          (d.setTf Pg.px (copyState e) 1 15 0 ((d.tf Pg.px (copyState e) 1 15 0 + 65535) % 65536)).setCopyX e { d.copyX e with dec := true }
        else d
      else if w.late && (d.copyX e).dec then d.bump Pg.px Reg.PX_SEQ_GAPS 31 0
      else d.makeCopy e w

/-- The listed copy entries of a node, in slot order. -/
def Dev.nodeCopies (d : Dev) (n : Nat) : List Nat :=
  ((d.pxListed (copyAddr (n * 64)) (copyAddr (n * 64 + 63))).map (fun x => x.1 - 0x100000)).filter (fun e =>
    d.copyValid e || (d.copyX e).inPic)

/-- One node of a walk; the walk goes on, or ends (R158, R163). -/
def Dev.walkNode (d : Dev) (w : PxWalk) : Dev :=
  let d := (d.nodeCopies w.node).foldl (fun d e => d.copyStep e w) d
  let ends (d : Dev) : Dev :=
    match d.body? w.body with
    | some b => if b.inReserve then (d.setBody w.body (some { b with walking := false })).dropBody w.body
                else (d.setBody w.body (some { b with walking := false })).reap w.body
    | none => d
  match d.nodeNext w.node with
  | none => ends d
  | some n =>
    if 64 ≤ w.done + 1 then ends (d.detect Pg.px Evt.PX_REPL_TRUNC)
    else { d with px := { d.px with walks := { w with node := n, done := w.done + 1 } :: d.px.walks } }

/-- REPL_NODE_NEXT: the next node of the walk under way begins (R163). -/
def Dev.replNext (d : Dev) : Dev :=
  match d.px.walks with
  | [] => d
  | w :: ws => { d with px := { d.px with walks := ws } }.walkNode w

/-- A walk begins at once where none is under way; else it waits its turn, so that every entry sees packets in order. -/
def Dev.startWalk (d : Dev) (w : PxWalk) : Dev :=
  if d.px.walks.isEmpty then d.walkNode w else { d with px := { d.px with walks := d.px.walks ++ [w] } }

/-- A packet of an encoding: its place among the encoding's packets, its rate count, and its walk (R157 to R160). Without
SFU_EN nothing is forwarded. -/
def Dev.forward (d : Dev) (body source x : Nat) (rtp : Rtp) (len tid ptype : Nat) (marked : Bool) (stamp : Nat) : Dev :=
  let v := d.encX x
  let diff := match v.high with
    | some h => (rtp.seq + 65536 - h) % 65536
    | none => 2
  let newer := 0 < diff && diff < 32768
  let late := 32768 ≤ diff
  let tsDiff (t : Nat) : Nat := (rtp.ts + 2 ^ 32 - t) % 2 ^ 32
  let newPic := match v.ts with
    | none => true
    | some t => 0 < tsDiff t && tsDiff t < 2 ^ 31
  let stale := match v.prevTs with
    | some t => decide (2 ^ 31 ≤ tsDiff t)
    | none => false
  let v1 := { v with high := if newer then some rtp.seq else v.high, ts := if newPic then some rtp.ts else v.ts,
                     prevTs := if newPic then v.ts else v.prevTs,
                     log := logAdd' v.log d.nowNs (len * 4 + tid % 4),
                     period := if newPic && ptype = 4 then true else if newPic && ptype = 1 then false else v.period }
  let d := d.setEncX x v1
  if !d.rb Pg.px Reg.PX_MEDIA_CFG 0 || stale then d.dropBody body
  else
    let w : PxWalk :=
      { body := body, source := source, enc := x, rtp := rtp, len := len, tid := tid, ptype := ptype, marked := marked,
        newPic := newPic, next := diff = 1, late := late, node := d.pxNode x, done := 0, stamp := stamp }
    (d.modBody body (fun b => { b with walking := true, classified := true })).startWalk w
where
  /-- Drop counts older than a second and add one. -/
  logAdd' (l : List (Nat × Nat)) (now v : Nat) : List (Nat × Nat) := (now, v) :: l.filter (fun x => now < x.1 + 1000000000)

/-! ## Local encodings (R219) -/

/-- A slice or picture of a local encoding as an engine hands it to PX: payload sizes of its packets in order. -/
structure Hand where
  source : Nat
  enc : Nat
  stamp : Nat
  tid : Nat
  ptype : Nat
  switchPt : Bool
  first : Bool
  last : Bool
  packets : List Nat
deriving DecidableEq, Repr

/-- Ingress number under which PX's own packets stand. -/
abbrev localSource : Nat := 21

/-- One packet of a slice: its payload takes cells of the pool; without them it is lost (R162). -/
def Dev.handPacket (d : Dev) (h : Hand) (size : Nat) : Dev :=
  let x := h.source * 4 + h.enc
  let n := cellsFor size
  if d.poolF < n then d.bump Pg.px Reg.PX_COPY_DROPS 31 0
  else
    let data := (List.range size).map (Config.codedByte d.fresh)
    let (d, b) := d.drawn.newBody { source := localSource, cells := d.freeCells n, data := data, done := true, err := false, refs := 0,
                                    walking := true, inReserve := false, dropped := false, classified := true }
    let v := d.encX x
    let d := d.setEncX x { v with outSeq := (v.outSeq + 1) % 65536 }
    d.forward b localSource x { ssrc := d.pxSsrc x, pt := 0, seq := v.outSeq, ts := h.stamp } size h.tid h.ptype h.switchPt 0

/-- A slice or picture handed to PX: discarded unless its encoding is valid and local (R219). -/
def Dev.handOver (d : Dev) (h : Hand) : Dev :=
  let x := h.source * 4 + h.enc
  if !d.pxValid x || !d.pxLocal x || !(d.hdr Pg.px).state.serves then d
  else h.packets.foldl (fun d n => d.handPacket h n) d

/-! ## The leg adapter (R169 to R173) -/

/-- A copy entry in the adapter's hands: entry, source, wanted layer. -/
abbrev Want := Nat × Nat × Nat

/-- Entries of a leg by PRIO descending, then node and slot. -/
def Dev.byPrio (d : Dev) (es : List Nat) : List Nat := [3, 2, 1, 0].flatMap (fun p => es.filter (fun e => d.copyPrio e == p))

/-- The layer of next higher rate within a ceiling. -/
def Dev.nextLayer (d : Dev) (src ceil l : Nat) : Option Nat :=
  (d.layersWithin src ceil).foldl (fun (a : Option Nat) m =>
    if d.layerRate src m ≤ d.layerRate src l then a
    else match a with
      | none => some m
      | some b => if d.layerRate src m < d.layerRate src b then some m else a) none

/-- One pass of the raising loop: wants, budget left, and whether one was raised. -/
def Dev.raisePass (d : Dev) (ceil : Nat) (ws : List Want) (budget : Int) : List Want × Int × Bool :=
  ws.foldl (fun (x : List Want × Int × Bool) w =>
    let keep := (x.1 ++ [w], x.2.1, x.2.2)
    if w.2.2 = noLayer then keep
    else match d.nextLayer w.2.1 ceil w.2.2 with
      | none => keep
      | some m =>
        let more : Int := (d.layerRate w.2.1 m : Int) - (d.layerRate w.2.1 w.2.2 : Int)
        if more ≤ x.2.1 then (x.1 ++ [(w.1, w.2.1, m)], x.2.1 - more, true) else keep) ([], budget, false)

/-- Raise until nothing can be raised; the first argument bounds the passes. -/
def Dev.raiseAll (d : Dev) (ceil : Nat) : Nat → List Want → Int → List Want
  | 0, ws, _ => ws
  | n + 1, ws, b => match d.raisePass ceil ws b with
    | (ws, b, true) => d.raiseAll ceil n ws b
    | (ws, _, false) => ws

/-- The layers a leg's entries want within its budget (R171); without ADAPT_EN the highest the ceiling allows (R169). -/
def Dev.legWants (d : Dev) (l : Nat) : List Want :=
  let ceil := d.ceiling l
  let es := (d.byPrio (d.legCopies l)).filterMap (fun e => (d.nodeSource (e / 64)).map (fun s => (e, s)))
  if !d.legAdapt l then es.map (fun x => (x.1, x.2, ((d.layersWithin x.2 ceil).getLast?).getD noLayer))
  else
    let budget : Int := (d.legEstimate l * d.legHeadroom l / 100 : Nat) - (if d.legMix l then 64 else 0)
    let first := es.foldl (fun (x : List Want × Int) e =>
      match (d.layersWithin e.2 ceil).head? with
      | some m =>
        if (d.layerRate e.2 m : Int) ≤ x.2 then (x.1 ++ [(e.1, e.2, m)], x.2 - (d.layerRate e.2 m : Int)) else (x.1 ++ [(e.1, e.2, noLayer)], x.2)
      | none => (x.1 ++ [(e.1, e.2, noLayer)], x.2)) ([], budget)
    d.raiseAll ceil 257 first.1 first.2

/-- Turn a want into a target: down at once, up after UP_HOLD periods (R171). -/
def Dev.applyWant (d : Dev) (adapt : Bool) (hold : Nat) (w : Want) : Dev :=
  let cur := d.copyCur w.1
  let x := d.copyX w.1
  if !adapt then if d.copyTarget w.1 = w.2.2 then d else d.setTarget w.1 w.2.2
  else if layerRank w.2.2 < layerRank cur then (d.setCopyX w.1 { x with up := 0 }).setTarget w.1 w.2.2
  else if layerRank cur < layerRank w.2.2 then
    let d := d.setCopyX w.1 { x with up := x.up + 1 }
    if hold ≤ x.up + 1 then d.setTarget w.1 w.2.2 else d
  else d.setCopyX w.1 { x with up := 0 }

/-- The legs with EN = 1. -/
def Dev.enabledLegs (d : Dev) : List Nat :=
  ((d.pxListed 0x10000 0x17FFC).filter (fun x => x.1 % 4 == 0 && bit 0 x.2)).map (fun x => (x.1 - 0x10000) / 4)

/-- The median of a list of rates, the lower of two middle ones and the higher averaged (R173). -/
def median (l : List Nat) : Option Nat :=
  let s := l.insertionSort (· ≤ ·)
  if s.isEmpty then none
  else if s.length % 2 = 1 then s[s.length / 2]?
  else match s[s.length / 2 - 1]?, s[s.length / 2]? with
    | some a, some b => some ((a + b) / 2)
    | _, _ => none

/-- The encode context that feeds an encoding: handle (R219). -/
def Dev.feederOf (d : Dev) (x : Nat) : Option Nat :=
  (d.pages.tbl.filterMap (fun y =>
    let p := y.1 / 4 / 2 ^ 24
    let a := y.1 / 4 % 2 ^ 24
    if 0x10 ≤ p && p < 0x20 && a < 0x800 && a % 4 = 0 && y.1 % 4 = 0 && bit 0 y.2 && bit 1 y.2 then some ((p - 0x10) * 512 + a / 4) else none)).find?
    (fun h => d.tb (pg (0x10 + h / 512)) (h % 512 * 4 + 3) 0 14 &&
      d.tf (pg (0x10 + h / 512)) (h % 512 * 4 + 3) 0 11 0 * 4 + d.tf (pg (0x10 + h / 512)) (h % 512 * 4 + 3) 0 13 12 == x)

/-- Firmware sets the target bitrate of a local encoding: the median of the want rates of the entries that hold or target
it, at most 10 % up and 30 % down a period and never below 32 kb/s (R173, R216). -/
def Dev.localTarget (d : Dev) (ws : List Want) (x : Nat) : Dev :=
  match d.feederOf x, median ((ws.filter (fun w => w.2.1 == x / 4 && w.2.2 != noLayer &&
      (d.copyCur w.1 / 16 == x % 4 || d.copyTarget w.1 / 16 == x % 4))).map (fun w => d.layerRate w.2.1 w.2.2)) with
  | some h, some m =>
    let p := pg (0x10 + h / 512)
    let a := h % 512 * 4 + 1
    let cur := d.tf p a 0 19 0
    d.setTf p a 0 19 0 (max 32 (min (max m (ceilDiv (cur * 7) 10)) (cur * 11 / 10)) % 2 ^ 20)
  | _, _ => d

/-- ADAPT_PERIOD: every leg's adapter, then firmware's targets of the local encodings (R171, R173). -/
def Dev.adaptPeriod (d : Dev) : Dev :=
  if !(d.hdr Pg.px).state.serves then d
  else
    let (d, all) := d.enabledLegs.foldl (fun (x : Dev × List Want) l =>
      let ws := x.1.legWants l
      (ws.foldl (fun d w => d.applyWant (d.legAdapt l) (d.legUpHold l) w) x.1, x.2 ++ ws)) (d, [])
    if d.fwRuns then (d.validEncs.filter d.pxLocal).foldl (fun d x => d.localTarget all x) d else d

/-- A ceiling has changed: targets above it are lowered at once; without ADAPT_EN the ceiling is the target (R169). -/
def Dev.ceilingChanged (d : Dev) (l : Nat) : Dev :=
  (d.legWants l).foldl (fun d w =>
    if !d.legAdapt l then d.applyWant false 0 w
    else
      let t := d.copyTarget w.1
      let c := if t = noLayer then noLayer else minLayer t (d.ceiling l)
      if c = t then d else d.setTarget w.1 (((d.layersWithin w.2.1 c).getLast?).getD noLayer)) d

/-- A copy entry has been made valid: CUR = 0xFF, TARGET the adapter's first choice, and a key request at once on a remote
source without GDR (R168, R172). -/
def Dev.startCopy (d : Dev) (e : Nat) : Dev :=
  let l := d.copyLeg e
  let want := match (d.legWants l).find? (fun w => w.1 == e) with
    | some w => w.2.2
    | none => noLayer
  let d := d.setTw Pg.px (copyState e) 0 (word (noLayer + want * 2 ^ 8 + 2 ^ 16))
  let d := (d.setTw Pg.px (copyState e) 1 0).setTw Pg.px (copyState e) 2 0 |>.setTw Pg.px (copyState e) 3 0
  let d := d.setCopyX e { CopyX.reset with lastAt := d.timeNs, since := some d.nowNs }
  match d.nodeSource (e / 64) with
  | some s => if d.srcLocal s || !d.fwRuns then d else d.keyReq s (some l)
  | none => d

/-- SWITCH_TIMEOUT: a pending move to another encoding of a remote source without GDR has found no switch point (R172). -/
def Dev.switchTimeout (d : Dev) (node slot : Nat) : Dev :=
  let e := node * 64 + slot
  let t := d.copyTarget e
  match d.nodeSource node with
  | none => d
  | some s =>
    if !d.copyValid e || !d.copyPending e || t = noLayer || d.copyCur e / 16 = t / 16 || d.srcLocal s || d.pxGdr (s * 4 + t / 16) then d
    else
      let d := if d.fwRuns then d.keyReq s (some (d.copyLeg e)) else d
      d.detect Pg.px Evt.PX_SWITCH_TIMEOUT

/-- RTCP_RECEIVER_REPORT (R170). -/
def Dev.rtcpReport (d : Dev) (l : Nat) (r : RtcpReport) : Dev :=
  if !d.legEn l || d.legEdge l = 1 || !d.fwRuns then d
  else match r with
    | .tmmbr k => d.setEstimate l k
    | .receiver loss =>
      let e := d.legEstimate l
      if 10 < loss then d.setEstimate l (e * 85 / 100)
      else if loss < 2 then d.setEstimate l (e * 105 / 100)
      else d

/-- LEG_CLOSED (R177). -/
def Dev.legClosed (d : Dev) (l : Nat) : Dev :=
  if d.legClosing l && d.legInflight l = 0 then d.setTf Pg.px (legAddr l 0) 0 1 1 0 else d

/-! ## Air links (R174) -/

/-- AC reports a link LOST: its legs get no more copies. -/
def Dev.pxLinkLost (d : Dev) (k : Nat) : Dev :=
  if hasNat d.px.lostLinks k then d
  else
    let d := { d with px := { d.px with lostLinks := d.px.lostLinks ++ [k] } }
    let d := (d.enabledLegs.filter (fun l => d.legEdge l == 1 && d.legEgress l == k)).foldl (fun d l =>
      (d.setTf Pg.px (legAddr l 0) 0 2 2 1).detect Pg.px Evt.PX_LEG_LINK_LOST) d
    d.dropDown (17 + d.tf Pg.ac (k * 4) 0 6 5) k

/-- The link is found again: its legs' entries start anew with their TARGET kept. -/
def Dev.pxLinkFound (d : Dev) (k : Nat) : Dev :=
  let d := { d with px := { d.px with lostLinks := d.px.lostLinks.filter (· != k) } }
  (d.enabledLegs.filter (fun l => d.legEdge l == 1 && d.legEgress l == k)).foldl (fun d l =>
    let d := d.setTf Pg.px (legAddr l 0) 0 2 2 0
    (d.legCopies l).foldl (fun d e =>
      let d := (d.setTf Pg.px (copyState e) 0 7 0 noLayer).setTf Pg.px (copyState e) 0 16 16 1
      d.setCopyX e { d.copyX e with since := some d.nowNs }) d) d

/-! ## Commands -/

/-- REPL_NODE_NEXT (R163). -/
def execReplNodeNext (s : State) : Host.Outcome State Fault Refusal := s.on (·.replNext)
/-- ADAPT_PERIOD (R171, R173). -/
def execAdaptPeriod (s : State) : Host.Outcome State Fault Refusal := s.on (·.adaptPeriod)
/-- SWITCH_TIMEOUT (R172). -/
def execSwitchTimeout (node : Fin 16384) (slot : Fin 64) (s : State) : Host.Outcome State Fault Refusal :=
  s.on (·.switchTimeout node.val slot.val)
/-- RTCP_RECEIVER_REPORT (R170). -/
def execRtcpReceiverReport (leg : Fin 8192) (r : RtcpReport) (s : State) : Host.Outcome State Fault Refusal :=
  s.on (·.rtcpReport leg.val r)
/-- LEG_CLOSED (R177). -/
def execLegClosed (leg : Fin 8192) (s : State) : Host.Outcome State Fault Refusal := s.on (·.legClosed leg.val)

end Sys2Proof.Machine
end

