-- ==== Sys2Proof/Machine/AirOps.lean ====
section
/-! DEFINITION. What the radios and the air controller share: their records, the channel plan, burst timing, and how a
burst's contents go back where they came from (chapters 16 and 17). -/

namespace Sys2Proof.Machine

/-! ## Records -/

/-- A radio. -/
def Dev.radio (d : Dev) (r : Nat) : RadioX := SMap.get (fun _ => RadioX.reset) d.air.radios r
/-- Change a radio. -/
def Dev.modRadio (d : Dev) (r : Nat) (f : RadioX → RadioX) : Dev :=
  { d with air := { d.air with radios := SMap.set (fun _ => RadioX.reset) d.air.radios r (f (d.radio r)) } }
/-- A link's record. -/
def Dev.airLink (d : Dev) (k : Nat) : AirLink := SMap.get (fun _ => AirLink.reset) d.air.links k
/-- Change a link's record. -/
def Dev.modLink (d : Dev) (k : Nat) (f : AirLink → AirLink) : Dev :=
  { d with air := { d.air with links := SMap.set (fun _ => AirLink.reset) d.air.links k (f (d.airLink k)) } }
/-- A sensor's record. -/
def Dev.sensorX (d : Dev) (s : Nat) : SensorX := SMap.get (fun _ => SensorX.reset) d.air.sensors s
/-- Change a sensor's record. -/
def Dev.modSensor (d : Dev) (s : Nat) (f : SensorX → SensorX) : Dev :=
  { d with air := { d.air with sensors := SMap.set (fun _ => SensorX.reset) d.air.sensors s (f (d.sensorX s)) } }
/-- A partner's record. -/
def Dev.partnerX (d : Dev) (p : Nat) : PartnerX := SMap.get (fun _ => PartnerX.reset) d.air.partners p
/-- Change a partner's record. -/
def Dev.modPartner (d : Dev) (p : Nat) (f : PartnerX → PartnerX) : Dev :=
  { d with air := { d.air with partners := SMap.set (fun _ => PartnerX.reset) d.air.partners p (f (d.partnerX p)) } }

/-- The page of a radio's baseband. -/
def rbPage (r : Nat) : Page := pg (0x35 + r)

/-! Table entries (Table 17.11). -/
def linkA (k i : Nat) : Nat := k * 4 + i
def sensorA (s i : Nat) : Nat := 0x1000 + s * 4 + i
def cardA (r i : Nat) : Nat := 0x3000 + r * 0x100 + i
def partnerA (p : Nat) : Nat := 0x3400 + p

def Dev.linkValid (d : Dev) (k : Nat) : Bool := k < 1022 && d.tb Pg.ac (linkA k 0) 0 0
def Dev.linkPartner (d : Dev) (k : Nat) : Bool := d.tb Pg.ac (linkA k 0) 0 1
def Dev.linkOn (d : Dev) (k r : Nat) : Bool := (d.tf Pg.ac (linkA k 0) 0 4 2).testBit r
def Dev.linkHome (d : Dev) (k : Nat) : Nat := d.tf Pg.ac (linkA k 0) 0 6 5
def Dev.linkLost (d : Dev) (k : Nat) : Bool := d.tb Pg.ac (linkA k 1) 0 0
def Dev.sensorValid (d : Dev) (s : Nat) : Bool := d.tb Pg.ac (sensorA s 0) 0 0
def Dev.sensorStep (d : Dev) (s : Nat) : Nat := d.tf Pg.ac (sensorA s 1) 0 1 0
/-- An active partner link. -/
def Dev.activePartnerLink (d : Dev) (k : Nat) : Bool := d.linkValid k && d.linkPartner k && !d.linkLost k

/-- The link numbers with VALID set, in order. -/
def Dev.validLinks (d : Dev) : List Nat :=
  d.pages.tbl.filterMap (fun x =>
    let a := x.1 / 4 % 2 ^ 24
    if x.1 / 4 / 2 ^ 24 = Pg.ac.val && a < 0xFF8 && a % 4 = 0 && x.1 % 4 = 0 && bit 0 x.2 then some (a / 4) else none)

/-- The sensors with VALID set, in order. -/
def Dev.validSensors (d : Dev) : List Nat :=
  d.pages.tbl.filterMap (fun x =>
    let a := x.1 / 4 % 2 ^ 24
    if x.1 / 4 / 2 ^ 24 = Pg.ac.val && 0x1000 ≤ a && a < 0x3000 && a % 4 = 0 && x.1 % 4 = 0 && bit 0 x.2 then some ((a - 0x1000) / 4)
    else none)

/-- A card entry (Table 17.4). -/
structure CardEntry where
  link : Nat
  start : Nat
  slots : Nat
  up : Bool
  valid : Bool
deriving DecidableEq, Repr

/-- The fields of a card word. -/
def cardEntry (w : Word) : CardEntry :=
  { link := fld 9 0 w, start := fld 19 10 w, slots := fld 27 20 w, up := bit 28 w, valid := bit 31 w }

/-- The valid entries of a radio's active card. -/
def Dev.card (d : Dev) (r : Nat) : List CardEntry :=
  ((List.range 256).map (fun i => cardEntry (d.tw Pg.ac (cardA r i) 0))).filter (·.valid)

/-! ## The quadrille (R392, R393) -/

def Dev.quadMs (d : Dev) : Nat := d.rf Pg.ac Reg.AC_QUAD_CFG 6 0
/-- L in ns. -/
def Dev.quadNs (d : Dev) : Nat := d.quadMs * 1000000
/-- n, whole slots of a quadrille. -/
def Dev.slotsIn (d : Dev) : Nat := d.quadNs / 64000
/-- C, slots of the caller figure. -/
def Dev.callerSlots (d : Dev) : Nat := (d.rf Pg.ac Reg.AC_CALLER_CFG 5 4 + 1) * d.rf Pg.ac Reg.AC_CALLER_CFG 3 0
def Dev.schedEnd (d : Dev) (r : Nat) : Nat := d.rf Pg.ac (Reg.AC_LAYOUT_A + 4 * r) 9 0
def Dev.openEnd (d : Dev) (r : Nat) : Nat := d.rf Pg.ac (Reg.AC_LAYOUT_A + 4 * r) 25 16
def Dev.slotGuardNs (d : Dev) : Nat := d.rf Pg.ac Reg.AC_TIMING_CFG 23 16 * 1000
/-- Presented ns of slot s of quadrille k. -/
def Dev.slotAt (d : Dev) (k : Int) (s : Nat) : Int := k * d.quadNs + s * 64000
def Dev.nodeId (d : Dev) : Nat := (d.reg Pg.ac Reg.AC_NODE_ID_LO).toNat + d.rf Pg.ac Reg.AC_NODE_ID_HI 15 0 * 2 ^ 32
def Dev.radioEn (d : Dev) (r : Nat) : Bool := d.rb Pg.ac Reg.AC_RADIO_EN r
def Dev.sensorRadio (d : Dev) : Nat := d.rf Pg.ac Reg.AC_CFG 5 4

/-! ## Channels (R411, R412) -/

/-- The plan's entry of a channel of a radio. -/
def Dev.planChan (d : Dev) (r i : Nat) : Option (Nat × Nat × Nat × Bool × Nat) :=
  Config.planChan (d.rf Pg.ac Reg.AC_COUNTRY 15 0) (d.rf Pg.ac Reg.AC_PLAN_VER 15 0) r i
/-- The country has a plan. -/
def Dev.planKnown (d : Dev) : Bool := Config.planKnown (d.rf Pg.ac Reg.AC_COUNTRY 15 0) (d.rf Pg.ac Reg.AC_PLAN_VER 15 0)
/-- The mask allows a channel. -/
def Dev.chanAllowed (d : Dev) (r i : Nat) : Bool := d.rb Pg.ac (Reg.AC_CHAN_MASK_A + 4 * r) i
/-- Plan channels that carry the hopping flag. -/
def Dev.hopFlags (d : Dev) (r : Nat) : List Nat :=
  (List.range 32).filter (fun i => match d.planChan r i with | some (_, _, _, h, _) => h | none => false)
/-- The radio hops. -/
def Dev.hops (d : Dev) (r : Nat) : Bool := !(d.hopFlags r).isEmpty
/-- The plan index of a radio's channel in quadrille k. -/
def Dev.chanOf (d : Dev) (r : Nat) (k : Int) : Nat :=
  let l := (d.hopFlags r).filter (d.chanAllowed r)
  if d.hops r && !l.isEmpty then
    l.getD ((k + (d.nodeId % l.length : Nat)) % (l.length : Nat)).toNat 0
  else d.rf Pg.ac (Reg.AC_CHAN_A + 4 * r) 4 0
/-- Air mode of the operating channel. -/
def Dev.airMode (d : Dev) (r : Nat) (k : Int) : Nat :=
  match d.planChan r (d.chanOf r k) with
  | some (_, m, _, _, _) => m
  | none => (d.radio r).mode

/-- May this radio be used: enabled, planned, in service and not taken off air? -/
def Dev.radioServes (d : Dev) (r : Nat) : Bool :=
  !d.en.tripped && d.radioEn r && d.planKnown && (d.hdr Pg.ac).state.serves && (d.hdr (rbPage r)).state.serves &&
    (d.hdr Pg.cv).state.serves && !(d.radio r).offAir

/-! ## Burst length (R375, R376) -/

/-- Active chains of a radio, those in service (R385). -/
def Dev.activeChains (d : Dev) (r : Nat) : List Nat := (List.range 4).filter (fun c => !d.unitOut (rbPage r) c)
def Dev.chainMask (d : Dev) (r : Nat) : BitVec 4 := (d.activeChains r).foldl (fun m c => m ||| BitVec.ofNat 4 (2 ^ c)) 0

/-- Bits per symbol and information bits of a codeword by MCS (Table 16.6). -/
def mcsBits (m : Nat) : Nat := [1, 2, 2, 4, 4, 6, 6, 8, 8, 10, 10, 12].getD m 1
def mcsK (m : Nat) : Nat := [1200, 1200, 1800, 1200, 1800, 1600, 2000, 1800, 2000, 1800, 2000, 2000].getD m 1200

/-- Data blocks of a burst of LENGTH bytes. -/
def burstBlocks (mcs streams len : Nat) : Nat := ceilDiv (ceilDiv (8 * len) (mcsK mcs) * 2400) (1000 * mcsBits mcs * streams)
def burstSymbols (blocks : Nat) : Nat := 512 + 256 + 1024 * blocks
/-- Duration of symbols in a mode, ps: 62.5 ns / 2^mode each (Table 16.3). -/
def symbolsPs (mode n : Nat) : Nat := n * 62500 / 2 ^ mode
/-- Duration of a burst, ns, rounded up. -/
def burstNs (mode mcs streams len : Nat) : Nat := ceilDiv (symbolsPs mode (burstSymbols (burstBlocks mcs streams len))) 1000
/-- Payload bits that a burst of at most `ns` carries. -/
def capacityBits (mode mcs streams ns : Nat) : Nat :=
  let symbols := ns * 1000 * 2 ^ mode / 62500
  ((symbols - 768) / 1024 * (1000 * mcsBits mcs * streams)) / 2400 * mcsK mcs

/-- Bytes of a link frame with its header, CRC and padding (Table 17.3, R404). -/
def linkFrameBytes (body : Nat) : Nat := ceilDiv (8 + body + 4) 4 * 4
/-- Bytes of a block acknowledgement frame: START_SEQ, bitmap, SNR and a reserved byte. -/
abbrev ackFrameBytes : Nat := 24
/-- The acknowledgement window: 16 µs, the acknowledgement and 2 µs (R407). -/
def ackWindowNs (mode : Nat) : Nat := 18000 + burstNs mode 0 1 ackFrameBytes

/-! ## Rates (R408) -/

/-- MCS of a link: the highest whose threshold the reported SNR less the margin meets. -/
def Dev.linkMcs (d : Dev) (k : Nat) : Nat :=
  if k = 1023 then d.rf Pg.ac Reg.AC_CALLER_CFG 10 8
  else
    let top := min (d.tf Pg.ac (linkA k 0) 3 3 0) 11
    if !d.rb Pg.ac Reg.AC_CFG 1 then top
    else
      let snr := d.tf Pg.ac (linkA k 1) 0 23 16 - d.rf Pg.ac Reg.AC_CFG 15 8
      (List.range (top + 1)).foldl (fun m i => if d.tf Pg.ac (0x3500 + i) 0 7 0 ≤ snr then i else m) 0

/-- Streams of a link. -/
def Dev.linkStreams (d : Dev) (k r : Nat) : Nat :=
  if k = 1023 then 1
  else
    let n := min (d.tf Pg.ac (linkA k 0) 3 5 4 + 1) (max (d.activeChains r).length 1)
    match (d.airLink k).peerStreams with
    | some p => min n p
    | none => n

/-- ESTIMATE of a link in kb/s (R408). -/
def Dev.airEstimate (d : Dev) (k : Nat) : Nat :=
  let bits := (List.range 3).foldl (fun a r =>
    if !d.linkOn k r then a
    else
      let mode := min (d.airMode r d.air.quad) 3
      (d.card r).foldl (fun a e =>
        if e.link = k && !e.up then
          a + capacityBits mode (d.linkMcs k) (d.linkStreams k r) (e.slots * 64000 - d.slotGuardNs - ackWindowNs mode)
        else a) a) 0
  let rep := (d.airLink k).ratio.filter (fun x => d.air.quad < x.1 + 16)
  let good := (rep.filter (·.2)).length
  if rep.isEmpty then bits / d.quadMs else bits * good / (rep.length * d.quadMs)

/-- EIRP of a burst, 0.5 dBm (R413). -/
def Dev.eirpOf (d : Dev) (r chan : Nat) (link : Option Nat) : Nat :=
  let a := d.rf Pg.ac (Reg.AC_TXP_LIMIT_A + 4 * r) 7 0
  let b := match d.planChan r chan with | some (_, _, e, _, _) => min e a | none => a
  match link with
  | some k => min b (d.tf Pg.ac (linkA k 0) 3 15 8)
  | none => b

/-! ## Dwell (R414) -/

/-- Transmit airtime of a channel in the last 20 s, ns. -/
def Dev.dwellUsed (d : Dev) (r chan : Nat) : Nat :=
  d.air.dwell.foldl (fun a x => if x.1 = r && x.2.1 = chan && d.nowNs < x.2.2.1 + 20000000000 then a + x.2.2.2 else a) 0
/-- The limit of a channel, ns. -/
def Dev.dwellLimit (d : Dev) (r chan : Nat) : Nat :=
  let a := d.rf Pg.ac Reg.AC_DWELL_LIMIT 15 0
  (match d.planChan r chan with | some (_, _, _, _, l) => min a l | none => a) * 1000000
/-- Airtime is spent. -/
def Dev.dwellSpend (d : Dev) (r chan ns : Nat) : Dev :=
  if d.hops r then
    { d with air := { d.air with dwell := (r, chan, d.nowNs, ns) :: d.air.dwell.filter (fun x => d.nowNs < x.2.2.1 + 20000000000) } }
  else d
/-- DWELL_HOLD. -/
def Dev.dwellHold (d : Dev) : Dev := (d.bump Pg.ac Reg.AC_DWELL_HOLDS 31 0).detect Pg.ac Evt.AC_DWELL_HOLD

/-! ## Transitions (AC_LOST_POP) -/

/-- Post a lost or found transition: 16 are held, a further one is discarded and marks the newest held as LOST. -/
def Dev.acPost (d : Dev) (kind index : Nat) (found : Bool) : Dev :=
  let l := d.air.pops
  let e : LostEntry := { index := index, kind := kind, found := found, lost := false }
  { d with air := { d.air with pops :=
      if l.length < 16 then l ++ [e]
      else match l.reverse with
        | x :: xs => (({ x with lost := true } :: xs).reverse)
        | [] => [e] } }

/-! ## Delivery to PX (R406) -/

/-- The first waiting frame of a radio enters the pool as ingress, unless PX still has one of it (R305). -/
def Dev.nextAir (d : Dev) (src : Nat) : Dev :=
  if (d.rxBody src).isSome then d
  else match d.air.toPx.find? (fun x => x.1 == src) with
    | none => d
    | some x =>
      let d := { d with air := { d.air with toPx := d.air.toPx.erase x } }
      let (d, b) := d.startBody src
      (d.storeCells src b x.2).endBody b false

/-- A delivered frame goes to PX in order. -/
def Dev.airDeliver (d : Dev) (src : Nat) (bytes : List Byte) : Dev :=
  { d with air := { d.air with toPx := d.air.toPx ++ [(src, bytes)] } }.nextAir src

/-! ## Items -/

/-- Insert an item by ring and sequence number. -/
def insertItem (i : Item) : List Item → List Item
  | [] => [i]
  | x :: xs => if i.ring < x.ring || (i.ring == x.ring && i.seq < x.seq) then i :: x :: xs else x :: insertItem i xs

/-- The items bound to AC for a destination, in ring order. -/
def Dev.airItems (d : Dev) (dest : Nat) : List Item :=
  ((d.wk.items.filter (fun i => engineOf i.desc == 8 && i.inst.isSome && ctxOf i.desc % 4096 == dest && i.pend.isNone &&
    (i.phase == .bound || i.phase == .running))).foldl (fun l i => insertItem i l) [])

/-- The item is in a burst already. -/
def Dev.inBurst (d : Dev) (ring seq : Nat) : Bool :=
  (List.range 3).any (fun r =>
    ((d.radio r).ready ++ (d.radio r).onAir.toList).any (fun b => b.frames.any (fun f => f.item == some (ring, seq)))) ||
  d.air.sensors.any (fun x => x.2.item == some (ring, seq))

/-- A burst that is not emitted: its packets go back to the heads of their queues; its items stay as they are (R22, R99). -/
def Dev.returnBurst (d : Dev) (b : Burst) : Dev :=
  let d := b.frames.reverse.foldl (fun d f => match f.pkt with
    | some (q, p) => d.setQueue q (p :: d.queue q)
    | none => d) d
  match b.kind with
  | .exchange | .run => d.modSensor b.to_ (fun s => { s with item := none })
  | _ => d

/-- Insert an assembled burst by its boundary. -/
def insertBurst (b : Burst) : List Burst → List Burst
  | [] => [b]
  | x :: xs => if b.start < x.start then b :: x :: xs else x :: insertBurst b xs

/-- A burst is ready for its boundary. -/
def Dev.addBurst (d : Dev) (r : Nat) (b : Burst) : Dev := d.modRadio r (fun x => { x with ready := insertBurst b x.ready })

/-- The burst on air is over without emission. -/
def Dev.dropOnAir (d : Dev) (r : Nat) : Dev :=
  match (d.radio r).onAir with
  | none => d
  | some b =>
    let d := d.returnBurst b
    d.modRadio r (fun x => { x with onAir := none, tr := 0, lnaByp := 0, bias := [0, 0, 0, 0] })

/-- Release every PAEN of a radio. -/
def Dev.paenOff (d : Dev) (r : Nat) : Dev :=
  { d with sys := { d.sys with paen := d.sys.paen &&& ~~~ (BitVec.ofNat 12 (15 * 16 ^ r)) } }

/-- The burst on air is cut: counted, BURST_CUT; every chain ramps down; AC records it as not emitted (R385). -/
def Dev.cutBurst (d : Dev) (r : Nat) : Dev :=
  if (d.radio r).onAir.isNone then d
  else (((d.dropOnAir r).paenOff r).bump (rbPage r) Reg.RB_CUT_BURSTS 31 0).detect (rbPage r) Evt.RB_BURST_CUT

/-- Every burst assembled for a radio goes back. -/
def Dev.dropReady (d : Dev) (r : Nat) : Dev :=
  ((d.radio r).ready.reverse.foldl (fun d b => d.returnBurst b) d).modRadio r (fun x => { x with ready := [] })

end Sys2Proof.Machine
end

