-- ==== Sys2Proof/Machine/Radio.lean ====
section
/-! DEFINITION. Radios: retunes, calibration, bursts on air, chain faults, the modems and their failures (chapter 16). -/

namespace Sys2Proof.Machine

/-! ## Tuning (R365) -/

/-- Band of a radio in 250 kHz steps (Table 16.1). -/
def bandOf (r : Nat) : Nat × Nat := if r = 0 then (9600, 9934) else if r = 1 then (20600, 23580) else (23700, 28500)

/-- Width of a mode's channel in 250 kHz steps (Table 16.3, R379). -/
def Dev.modeWidth (d : Dev) (mode : Nat) : Nat :=
  if mode < 4 then 80 * 2 ^ mode else if d.rb Pg.ac Reg.AC_CFG 6 then 4 else 8

/-- A retune: on the raster, the whole channel inside the band; it settles within 40 µs. -/
def Dev.retune (d : Dev) (r mode carrier : Nat) : Dev :=
  let w := d.modeWidth mode
  let b := bandOf r
  if !bandHas r mode || 2 * carrier < 2 * b.1 + w || 2 * b.2 < 2 * carrier + w || (d.radio r).onAir.isSome then d
  else
    let d := d.modRadio r (fun x => { x with mode := mode, carrier := carrier, settled := d.nowNs + 40000 })
    let d := (d.bump (rbPage r) Reg.RB_RETUNES 31 0).setRf (rbPage r) Reg.RB_STAT 31 16 carrier
    (d.setRf (rbPage r) Reg.RB_STAT 2 0 mode).setRf Pg.cv Reg.CV_LO_STAT 31 16 carrier r

/-! ## Calibration (R373, R386) -/

/-- A write of CV_CAL_CTRL: CHAINS and AUTO are stored; GO asks for a calibration of CHAINS. -/
def Dev.calGo (d : Dev) (v : Word) : Dev :=
  let r := d.rf Pg.cv Reg.CV_RADIO_SEL 1 0
  let d := (d.setRf Pg.cv Reg.CV_CAL_CTRL 3 0 (fld 3 0 v) r).setRb Pg.cv Reg.CV_CAL_CTRL 5 (bit 5 v) r
  if bit 4 v then
    let m := BitVec.ofNat 4 (fld 3 0 v)
    (d.modRadio r (fun x => { x with calReq := x.calReq ||| m })).setRb Pg.cv Reg.CV_CAL_CTRL 31 (m != 0) r
  else d

/-- AUTO asks for a calibration: the junction has moved 10 °C since the last one, or an hour has passed. -/
def Dev.calAuto (d : Dev) (r : Nat) (tj : Int) : Bool :=
  let x := d.radio r
  d.rb Pg.cv Reg.CV_CAL_CTRL 5 r && (decide (x.calAt + 3600000000000 ≤ d.nowNs) ||
    (match x.calTj with | some t => decide (10 ≤ (tj - t).natAbs) | none => true))

/-- Is a calibration of a chain due: asked for, under re-qualification, or AUTO? -/
def Dev.calDue (d : Dev) (r c : Nat) (tj : Int) : Bool :=
  (d.radio r).calReq.getLsbD c || (d.hdr (rbPage r)).requal.getLsbD c || (!d.unitOut (rbPage r) c && d.calAuto r tj)

/-- The calibration of a chain ends: stamps and status; a failure counts as a chain fault; a re-qualified chain returns
with its record cleared (R373, R386). -/
def Dev.calibrate (d : Dev) (r c : Nat) (pass : Bool) (imageDb : Nat) (tj : Int) : Dev :=
  let x := d.radio r
  let t := unsigned 8 tj
  let off := Reg.CV_CAL_STAMP0 + 4 * r
  let d := (((d.bump Pg.cv off 15 0).setRf Pg.cv off 23 16 t).setRf Pg.cv off 31 24 imageDb).setRb Pg.cv Reg.CV_CAL_STAT c pass r
  let d := (d.setRf Pg.cv Reg.CV_CAL_STAT 15 8 imageDb r).setRf Pg.cv Reg.CV_CAL_STAT 23 16 t r
  let want := if x.calReq.getLsbD c || (d.hdr (rbPage r)).requal.getLsbD c then x.calReq else x.calReq ||| d.chainMask r
  let req := want &&& ~~~ BitVec.ofNat 4 (2 ^ c)
  let d := d.modRadio r (fun x => { x with calReq := req, calTj := some tj, calAt := d.nowNs })
  let d := d.setRb Pg.cv Reg.CV_CAL_CTRL 31 (req != 0) r
  let again := (d.hdr (rbPage r)).requal.getLsbD c
  let d := d.modHdr (rbPage r) (fun h => { h with requal := h.requal &&& ~~~ BitVec.ofNat 32 (2 ^ c) })
  if pass then
    if again then d.queueRecord (rbPage r) (putFld c c 0 (d.reg (rbPage r) Reg.RB_CHAIN_RETIRE)) else d
  else (d.detect Pg.cv Evt.CV_CAL_FAIL).detectUnit (rbPage r) Evt.RB_CHAIN_FAULT c

/-- CALIBRATION: in a free gap; one that meets a granted slot is abandoned and run again later. -/
def Dev.calibration (d : Dev) (r c : Nat) (pass granted : Bool) (imageDb : Nat) (tj : Int) : Dev :=
  if !(d.hdr Pg.cv).state.serves || !d.calDue r c tj || granted || (d.radio r).onAir.isSome then d
  else d.calibrate r c pass imageDb tj

/-- A write of 0 to a set record bit asks for re-qualification (R386, R484). -/
def Dev.chainRequal (d : Dev) (r c : Nat) : Dev :=
  if (d.records (rbPage r)).testBit c then
    d.modHdr (rbPage r) (fun h => { h with requal := h.requal ||| BitVec.ofNat 32 (2 ^ c) })
  else d

/-! ## Bursts on air (R22, R367) -/

/-- Code of a bias DAC at the top of its ramp: entry × BIAS_MAX / 1,023, rounded half up (R382). -/
def Dev.biasTop (d : Dev) (r c : Nat) : Nat :=
  let p := d.rf (rbPage r) Reg.RB_PA_RAMP_SEL (4 * c + 2) (4 * c)
  let e := d.tf (rbPage r) (p * 32 + 16) 3 9 0
  (2 * e * d.rf (rbPage r) Reg.RB_ANT_CFG 9 0 + 1023) / 2046

/-- Write EMITTED for the items of the burst on air: its last block enters the transmit buffer (Table 4.6). -/
def Dev.emitBurst (d : Dev) (b : Burst) : Dev :=
  b.frames.foldl (fun d f => match f.item with
    | some (r, s) => (d.modItem r s (fun i => { i with phase := .emitted })).transition r s .emitted
    | none => d) d

/-- Every item of the burst has STARTED recorded in both copies (R94). -/
def Dev.burstRecorded (d : Dev) (b : Burst) : Bool :=
  b.frames.all (fun f => match f.item with
    | some (r, s) => (match d.item? r s with
      | some i => i.pend.isNone && i.recorded == .started && i.phase == .running
      | none => false)
    | none => true)

/-- AC_TAG KIND of a burst; 4 and above for the sensor tier. -/
def BurstKind.num : BurstKind → Nat
  | .grant => 0 | .caller => 1 | .exchange => 4 | .run => 5 | .discovery => 6 | .answer => 7

/-- A burst goes on air: control lines, counters of its frames, dwell (R367, Table 16.2). -/
def Dev.burstOn (d : Dev) (r : Nat) (b : Burst) : Dev :=
  let m := d.chainMask r
  let b := { b with chains := m }
  let d := d.modRadio r (fun x => { x with
    onAir := some b, tr := m, lnaByp := m, bias := (List.range 4).map (fun c => if m.getLsbD c then d.biasTop r c else 0) })
  let d := { d with sys := { d.sys with paen := d.sys.paen ||| BitVec.ofNat 12 (m.toNat * 16 ^ r) } }
  let d := if b.kind = .caller then { d with air := { d.air with called := d.air.called ||| BitVec.ofNat 3 (2 ^ r) } } else d
  let d := d.dwellSpend r b.chan b.durNs
  let d := b.frames.foldl (fun d f =>
    let d := match f.pkt with
      | some (q, p) => (d.countSent (17 + r) (some q) p.len).bump Pg.qm Reg.QM_DEQ_PKTS 31 0
      | none => d
    let d := if f.ftype = 1 then d.bump Pg.ac Reg.AC_FLOOD_FWD 31 0 else d
    if b.kind = .grant && f.ftype ≤ 1 then d.bumpT Pg.ac (linkA b.to_ 2) 0 31 0 else d) d
  let d := d.emit (.air r b.kind.num b.to_ b.mcs b.streams b.payload (b.frames.map (fun f => (f.ftype, f.seq, f.hdr, f.body))))
  if b.kind = .grant && b.blocks ≤ 1 then d.emitBurst b else d

/-- Hold of a burst by the dwell limit (R414): none; the burst as it may go on air otherwise. -/
def Dev.dwellBurst (d : Dev) (r : Nat) (b : Burst) : Option Burst :=
  if !d.hops r || d.dwellUsed r b.chan + b.durNs ≤ d.dwellLimit r b.chan then some b
  else if b.kind = .run && d.dwellUsed r b.chan < d.dwellLimit r b.chan then
    some { b with durNs := d.dwellLimit r b.chan - d.dwellUsed r b.chan }
  else none

/-- TX_BURST_START: the boundary of the first assembled burst (R22, R367). A burst that is not ready is not sent; its
contents stay queued. -/
def Dev.txStart (d : Dev) (r : Nat) (filled : Bool) : Dev :=
  match (d.radio r).ready, (d.radio r).onAir with
  | b :: rest, none =>
    let d := d.modRadio r (fun x => { x with ready := rest })
    let held := (d.radio r).settled > d.nowNs || !filled || !d.radioServes r || !d.burstRecorded b || (d.chainMask r == 0) ||
      (match d.air.cutTill with | some t => decide (b.start < t) | none => false)
    if held then d.returnBurst b
    else match d.dwellBurst r b with
      | some x => (if x.durNs = b.durNs then d else d.dwellHold).burstOn r x
      | none => (d.returnBurst b).dwellHold
  | _, _ => d

/-- BLOCK_END: the loopback power of each chain is checked; a retired chain cuts the burst at this block boundary; before
the last block EMITTED is written (R384, R385). -/
def Dev.blockEnd (d : Dev) (r : Nat) (short : BitVec 4) : Dev :=
  match (d.radio r).onAir with
  | none => d
  | some b =>
    let d := (List.range 4).foldl (fun d c =>
      if short.getLsbD c && b.chains.getLsbD c && !d.unitOut (rbPage r) c then d.detectUnit (rbPage r) Evt.RB_CHAIN_FAULT c else d) d
    if (List.range 4).any (fun c => b.chains.getLsbD c && d.unitOut (rbPage r) c) then d.cutBurst r
    else
      let b := { b with block := b.block + 1 }
      let d := d.modRadio r (fun x => { x with onAir := some b })
      if b.kind = .grant && !b.dead && b.block + 1 = b.blocks then d.emitBurst b else d

/-- An acknowledgement frame's START_SEQ, bitmap and SNR (Table 17.3). -/
def ackStart (f : LinkFrame) : Nat := fieldLE f.body 0 2
def ackMap (f : LinkFrame) : Nat := fieldLE f.body 2 8
def ackSnr (f : LinkFrame) : Nat := fieldLE f.body 10 1
/-- Does an acknowledgement cover a SEQ, and acknowledge it? -/
def ackCovers (f : LinkFrame) (seq : Nat) : Bool := (seq + 65536 - ackStart f) % 65536 < 64
def ackHas (f : LinkFrame) (seq : Nat) : Bool := ackCovers f seq && (ackMap f).testBit ((seq + 65536 - ackStart f) % 65536)

/-- A block acknowledgement of a link: the reported SNR and the delivery ratio (R407, R408). -/
def Dev.linkAck (d : Dev) (k : Nat) (f : LinkFrame) : Dev :=
  let l := d.airLink k
  let told := l.sent.filter (ackCovers f)
  let d := d.setTf Pg.ac (linkA k 1) 0 23 16 (ackSnr f)
  d.modLink k (fun l => { l with
    sent := l.sent.filter (fun s => !ackCovers f s),
    ratio := (told.map (fun s => (d.air.quad, ackHas f s))) ++ l.ratio.filter (fun x => d.air.quad < x.1 + 16) })

/-- Completion of an air item (Table 17.5). -/
def airResult (i : Item) (r : Nat) (b : Burst) (f : AirFrame) (acked : Bool) : Result :=
  let gfsk := b.kind != .grant
  let e48 := f.seq + (r + (if gfsk then 15 else b.mcs) * 16) * 2 ^ 16 + (if gfsk then 1 else b.streams) * 2 ^ 24 +
    unsigned 64 b.start * 2 ^ 64
  { i.plain i.doneStatus 0 with
    flags := word ((f.ackReq && !gfsk).toNat + acked.toNat * 2 + f.again.toNat * 4),
    eres := BitVec.ofNat 128 e48 }

/-- Complete the emitted items of a burst. -/
def Dev.finishBurst (d : Dev) (r : Nat) (b : Burst) (acked : AirFrame → Bool) : Dev :=
  b.frames.foldl (fun d f => match f.item with
    | some (g, s) => (match d.item? g s with
      | some i => if i.recorded = .emitted && i.pend.isNone then d.finish g s (airResult i r b f (acked f)) else d
      | none => d)
    | none => d) d

/-- Packets of a sent burst leave the pool. -/
def Dev.burstSent (d : Dev) (r : Nat) (b : Burst) : Dev :=
  b.frames.foldl (fun d f => match f.pkt with
    | some (q, p) => d.readDone { port := 17 + r, queue := q, pkt := p }
    | none => d) d

/-- The chains ramp down: bias at 0, PAEN released, T/R to receive (Table 16.2). -/
def Dev.rampDown (d : Dev) (r : Nat) : Dev :=
  (d.modRadio r (fun x => { x with onAir := none, tr := 0, lnaByp := 0, bias := [0, 0, 0, 0] })).paenOff r

/-- Every EMITTED of the burst's items has been acknowledged. -/
def Dev.emittedAll (d : Dev) (b : Burst) : Bool :=
  b.frames.all (fun f => match f.item with
    | some (g, s) => (match d.item? g s with | some i => i.recorded == .emitted && i.pend.isNone | none => true)
    | none => true)

/-- BURST_END: the last sample has left, and with it the acknowledgement window where one was asked (R367, R407). An
underrun burst ends without emission. -/
def Dev.burstEnd (d : Dev) (r : Nat) (ack : Option LinkFrame) : Dev :=
  match (d.radio r).onAir with
  | none => d
  | some b =>
    if b.dead then (d.dropOnAir r).paenOff r
    else if b.kind = .grant then
      if b.block + 1 < b.blocks || !d.emittedAll b then d
      else
        let d := (d.rampDown r).bump (rbPage r) Reg.RB_TX_BURSTS 31 0
        let seqs := (b.frames.filter (fun f => f.ftype == 0)).map (·.seq)
        let d := (d.burstSent r b).modLink b.to_ (fun l => { l with sent := (seqs ++ l.sent).take 1024 })
        let asked := b.frames.any (·.ackReq)
        let d := match asked, ack with
          | true, some a => d.linkAck b.to_ a
          | _, _ => d
        d.finishBurst r b (fun f => match ack with | some a => f.ackReq && ackHas a f.seq | none => false)
    else
      let d := (d.rampDown r).bump (rbPage r) Reg.RB_TX_BURSTS 31 0
      d.emitBurst b

/-! ## Underrun and overrun in CV (R17, R18) -/

/-- A transmit chain finds its buffer empty: zero samples for the rest, the amplifier ramps down, the burst is not emitted. -/
def Dev.chainUnderrun (d : Dev) (r : Nat) : Dev :=
  match (d.radio r).onAir with
  | none => d
  | some b =>
    if b.dead || (b.kind == .grant && decide (b.blocks ≤ b.block + 1)) then d
    else
      let d := d.modRadio r (fun x => { x with onAir := some { b with dead := true }, bias := [0, 0, 0, 0] })
      (d.bump Pg.cv Reg.CV_UNDERRUN 31 0 1 r).detect Pg.cv Evt.CV_TX_UNDERRUN

/-- A receive block is dropped. -/
def Dev.chainOverrun (d : Dev) (r : Nat) : Dev := (d.bump Pg.cv Reg.CV_OVERRUN 31 0 1 r).detect Pg.cv Evt.CV_RX_OVERRUN

/-! ## Failures (R388) -/

/-- A detection of a page's source has escalated: its severity is PERMANENT, or its count is past the limit. -/
def Dev.escalated (d : Dev) (p : Page) (src : Nat) : Bool :=
  let h := d.hdr p
  h.sev src == .permanent || (h.sev src == .transient && h.limit < h.countOf (countUnit (kindOf p) src 0))

/-- LO_UNLOCK: the burst is cut, relock is tried; escalation takes the radio off air. -/
def Dev.loUnlock (d : Dev) (r : Nat) (relocks : Bool) : Dev :=
  let d := (d.setRb Pg.cv Reg.CV_LO_STAT 1 true r).setRb Pg.cv Reg.CV_LO_STAT 0 relocks r
  let d := d.cutBurst r
  let d := d.detect Pg.cv Evt.CV_LO_UNLOCK
  if d.escalated Pg.cv Evt.CV_LO_UNLOCK then d.modRadio r (fun x => { x with offAir := true })
  else d.modRadio r (fun x => { x with settled := d.nowNs + 40000 })

/-- MODEM_HANG: no progress while a burst is due; bursts in progress are not emitted. -/
def Dev.modemHang (d : Dev) (r : Nat) : Dev :=
  if (d.radio r).ready.isEmpty && (d.radio r).onAir.isNone then d
  else (((d.dropOnAir r).paenOff r).dropReady r).detect (rbPage r) Evt.RB_MODEM_HANG

/-! ## The receivers' reports (R377 to R380) -/

/-- Counters and last values of a received burst; the result says whether its header held. -/
def Dev.modemReport (d : Dev) (b : RxBurst) : Dev × Bool :=
  let p := rbPage b.radio.val
  let d := d.bump p Reg.RB_RX_BURSTS 31 0
  if !b.headerOk then ((d.bump p Reg.RB_RX_HDR_FAIL 31 0).detect p Evt.RB_HDR_FAIL, false)
  else
    let d := b.codewords.foldl (fun d c => match c with
      | .clean => d
      | .corrected => d.bumpSat p Reg.RB_LDPC_STAT 15 0
      | .failed => (d.bumpSat p Reg.RB_LDPC_STAT 31 16).detect p Evt.RB_LDPC_FAIL) d
    let d := (List.range 4).foldl (fun d i => d.setRf p Reg.RB_SNR_LAST (8 * i + 7) (8 * i) (b.snr.getD i 0)) d
    let d := (d.setRf p Reg.RB_CFO_LAST 15 0 (unsigned 16 b.cfo)).setRf p Reg.RB_TIMING_LAST 15 0 (unsigned 16 b.timing)
    let d := (d.setRf p Reg.RB_AGC_LAST 5 0 b.gain).setRb p Reg.RB_AGC_LAST 8 b.bypass
    (d.setRf p Reg.RB_EVM_LAST 7 0 b.evm, true)

/-- Counters of a sensor frame; the result says whether its CRC held. -/
def Dev.gfskReport (d : Dev) (r : Nat) (f : SensorFrame) : Dev × Bool :=
  let p := rbPage r
  if f.crcOk then
    let d := d.bump p Reg.RB_GFSK_STAT 15 0
    ((d.setRf p Reg.RB_CFO_LAST 15 0 (unsigned 16 f.cfo)).setRf p Reg.RB_TIMING_LAST 15 0 (unsigned 16 f.timing), true)
  else ((d.bump p Reg.RB_GFSK_STAT 31 16).detect p Evt.RB_GFSK_CRC_FAIL, false)

/-! ## Commands -/

/-- RETUNE (R365). -/
def execRetune (r : Radio) (mode : Fin 5) (carrier : Nat) (s : State) : Host.Outcome State Fault Refusal :=
  s.on (·.retune r.val mode.val carrier)
/-- CAL_GO (R373). -/
def execCalGo (v : Word) (s : State) : Host.Outcome State Fault Refusal := s.on (·.calGo v)
/-- CALIBRATION (R373). -/
def execCalibration (r : Radio) (c : Chain) (pass granted : Bool) (imageDb : Nat) (tj : Int) (s : State) :
    Host.Outcome State Fault Refusal := s.on (·.calibration r.val c.val pass granted imageDb tj)
/-- TX_BURST_START (R367). -/
def execTxBurstStart (r : Radio) (filled : Bool) (s : State) : Host.Outcome State Fault Refusal := s.on (·.txStart r.val filled)
/-- BURST_END (R367). -/
def execBurstEnd (r : Radio) (ack : Option LinkFrame) (s : State) : Host.Outcome State Fault Refusal := s.on (·.burstEnd r.val ack)
/-- BLOCK_END (R384). -/
def execBlockEnd (r : Radio) (short : BitVec 4) (s : State) : Host.Outcome State Fault Refusal := s.on (·.blockEnd r.val short)
/-- RB_CHAIN_RETIRE_WRITE (R386). -/
def execRbChainRetireWrite (r : Radio) (c : Chain) (s : State) : Host.Outcome State Fault Refusal := s.on (·.chainRequal r.val c.val)
/-- LO_UNLOCK (R388). -/
def execLoUnlock (r : Radio) (relocks : Bool) (s : State) : Host.Outcome State Fault Refusal := s.on (·.loUnlock r.val relocks)
/-- MODEM_HANG (R388). -/
def execModemHang (r : Radio) (s : State) : Host.Outcome State Fault Refusal := s.on (·.modemHang r.val)

end Sys2Proof.Machine
end

