-- ==== Sys2Proof/Machine/Air.lean ====
section
/-! DEFINITION. The air controller's sending side: quadrilles, callers, dance cards, grants, links and air transmit items
(chapter 17). -/

namespace Sys2Proof.Machine

/-! ## Links lost and found (R409) -/

/-- Items for a destination that have not been emitted fail with PEER_LOST (R410, R424). -/
def Dev.failItems (d : Dev) (dest : Nat) : Dev :=
  (d.wk.items.filter (fun i => engineOf i.desc == 8 && ctxOf i.desc % 4096 == dest && i.pend.isNone &&
    (i.phase == .bound || i.phase == .running) && !d.inBurst i.ring i.seq)).foldl
    (fun d i => d.finishPlain i.ring i.seq .failed Cause.PEER_LOST) d

/-- A link becomes LOST. -/
def Dev.markLinkLost (d : Dev) (k : Nat) : Dev :=
  if !d.linkValid k || d.linkLost k then d
  else (((d.setTf Pg.ac (linkA k 1) 0 0 0 1).detect Pg.ac Evt.AC_LINK_LOST).acPost 0 k false).pxLinkLost k

/-- A burst from a link returns it to active. -/
def Dev.markLinkFound (d : Dev) (k : Nat) : Dev :=
  if !d.linkValid k || !d.linkLost k then d
  else (((d.setTf Pg.ac (linkA k 1) 0 0 0 0).detect Pg.ac Evt.AC_LINK_FOUND).acPost 0 k true).pxLinkFound k

/-- LINK_LOST: LINK_LOSS_QUADS consecutive quadrilles with an UP grant and no decoded burst. -/
def Dev.linkLostDue (d : Dev) (k : Nat) : Dev :=
  if d.rf Pg.ac Reg.AC_TIMING_CFG 31 24 ≤ (d.airLink k).missed && (d.airLink k).missed ≠ 0 then d.markLinkLost k else d

/-! ## Partners lost (R423, R424) -/

def Dev.partnerLink (d : Dev) (p : Nat) : Option Nat :=
  if d.tb Pg.ac (partnerA p) 3 10 then some (d.tf Pg.ac (partnerA p) 3 9 0) else none
def Dev.partnerState (d : Dev) (p : Nat) : Nat := d.tf Pg.ac (partnerA p) 1 21 20
def Dev.partnerRadio (d : Dev) (p : Nat) : Nat := d.tf Pg.ac (partnerA p) 1 17 16

/-- The third consecutive miss: the partner is lost, its links are LOST, a scan starts. -/
def Dev.partnerLost (d : Dev) (p : Nat) : Dev :=
  let r := d.partnerRadio p
  let d := ((d.setTf Pg.ac (partnerA p) 1 21 20 2).detect Pg.ac Evt.AC_PARTNER_LOST).acPost 2 p false
  let d := d.modRadio r (fun x => { x with scan := d.rf Pg.ac Reg.AC_SCAN_CFG 7 0 })
  match d.partnerLink p with
  | some k => (d.markLinkLost k).failItems k
  | none => d

/-- CALLER_MISS: a partner's caller not decoded in its search window. Announced holds and moments at which the radio itself
transmitted are not counted (R423). -/
def Dev.callerMiss (d : Dev) (p : Nat) : Dev :=
  if !(d.partnerX p).known || d.partnerState p ≠ 0 || d.air.quad ≤ ((d.partnerX p).holdTill : Int) ||
      (d.radio (d.partnerRadio p)).onAir.isSome || d.air.cutTill.isSome then d
  else
    let d := (d.bump Pg.ac Reg.AC_CALLER_MISS 31 0).detect Pg.ac Evt.AC_CALLER_MISS
    let d := d.bumpTSat Pg.ac (partnerA p) 1 25 22
    if 3 ≤ d.tf Pg.ac (partnerA p) 1 25 22 then d.partnerLost p else d

/-- Card entries for a lost partner's links are cleared, active and shadow alike, and CARD_VER counts it (R424). -/
def Dev.clearLostCards (d : Dev) : Dev :=
  (List.range 3).foldl (fun d r =>
    let gone (w : Word) : Bool := (cardEntry w).valid && (cardEntry w).link < 1022 && d.linkPartner (cardEntry w).link && d.linkLost (cardEntry w).link
    let hits := (List.range 256).filter (fun i => gone (d.tw Pg.ac (cardA r i) 0))
    let d := (List.range 256).foldl (fun d i =>
      let d := if gone (d.tw Pg.ac (cardA r i) 0) then d.setTf Pg.ac (cardA r i) 0 31 31 0 else d
      if gone (d.tsw Pg.ac (cardA r i) 0) then d.setTsw Pg.ac (cardA r i) 0 (putBit 31 false (d.tsw Pg.ac (cardA r i) 0)) else d) d
    if hits.isEmpty then d else d.modRadio r (fun x => { x with cardVer := (x.cardVer + 1) % 65536 })) d

/-! ## The validator (R429, Table 17.12) -/

/-- Length of the discovery call, its gap and the window (R420, R421), ns. -/
def sleepyNs (slow : Bool) (winPos : Nat) : Nat :=
  (if slow then 928000 else 232000) + 200000 + winPos * (if slow then 16 else 4) * 64000

/-- Do they fit the sleepy figure and tail of a layout? -/
def Dev.sleepyFits (d : Dev) (slow : Bool) (winPos openEnd : Nat) : Bool :=
  sleepyNs slow winPos + openEnd * 64000 ≤ d.quadNs

/-- The first check of Table 17.12 that the shadows of a radio fail: cause and entry. -/
def Dev.acCheck (d : Dev) (r : Nat) : Option (Nat × Nat) :=
  let lay := d.shadow Pg.ac (Reg.AC_LAYOUT_A + 4 * r)
  let span := d.shadow Pg.ac (Reg.AC_SPAN_A + 4 * r)
  let chan := fld 4 0 (d.shadow Pg.ac (Reg.AC_CHAN_A + 4 * r))
  let (se, oe, n, c) := (fld 9 0 lay, fld 25 16 lay, d.slotsIn, d.callerSlots)
  let es := ((List.range 256).map (fun i => (i, cardEntry (d.tsw Pg.ac (cardA r i) 0)))).filter (fun x => x.2.valid)
  let outside (e : CardEntry) : Bool :=
    e.slots == 0 || decide (e.start < c) || decide (se < e.start + e.slots) || decide (e.start < fld 9 0 span) ||
      decide (fld 25 16 span < e.start + e.slots)
  let badLink (e : CardEntry) : Bool :=
    if e.link = 1023 then e.up else e.link = 1022 || !d.linkValid e.link || !d.linkOn e.link r
  let mode := match d.planChan r chan with | some (_, m, _, _, _) => min m 3 | none => 0
  let slow := d.rb Pg.ac Reg.AC_CFG 6
  if !(c ≤ se && se ≤ oe && oe ≤ n) || (oe = n && d.hops r) then some (1, 0)
  else match es.find? (fun x => outside x.2) with
  | some x => some (2, x.1)
  | none => match es.find? (fun x => es.any (fun y => y.1 < x.1 && overlaps x.2.start x.2.slots y.2.start y.2.slots)) with
  | some x => some (3, x.1)
  | none => match es.find? (fun x => badLink x.2) with
  | some x => some (4, x.1)
  | none =>
    if d.rf Pg.ac Reg.AC_CALLER_CFG 3 0 * 64000 <
        burstNs mode (d.rf Pg.ac Reg.AC_CALLER_CFG 10 8) 1 (38 + 4 * es.length) + d.slotGuardNs then some (5, 0)
    else if d.radioEn r && ((d.planChan r chan).isNone || !d.chanAllowed r chan) then some (6, 0)
    else if r = d.sensorRadio && d.validSensors.any (fun s => decide (n ≤ oe + d.tf Pg.ac (sensorA s 0) 1 23 16)) then some (7, 0)
    else if r = d.sensorRadio && !d.sleepyFits slow (d.rf Pg.ac Reg.AC_SLEEPY_CFG 5 0) oe then some (8, 0)
    else none

/-- The validator of AC: cause, radio and entry of the first refusal, radios A, B and C in turn. -/
def Dev.acValidate (d : Dev) : Option (Nat × Nat × Nat) :=
  (List.range 3).findSome? (fun r => (d.acCheck r).map (fun x => (x.1, r, x.2)))

/-! ## Callers (R397, R401) -/

/-- Payload of a caller without its CRC (Table 17.2). -/
def Dev.callerHead (d : Dev) (r : Nat) (k : Int) (hold : Nat) : List Byte :=
  let es := d.card r
  bytesLE 6 d.nodeId ++
  bytesLE 1 (r + d.rf Pg.ac Reg.AC_CALLER_CFG 7 6 * 4 + 1 * 16) ++
  bytesLE 1 (d.tu.sync.val + (d.air.stepped.getLsbD r).toNat * 4 + (d.rb Pg.ac Reg.AC_SCAN_CFG 8).toNat * 8 + (d.hops r).toNat * 16) ++
  bytesLE 2 (d.rf Pg.ac Reg.AC_MESH_CFG 31 16) ++ bytesLE 2 (d.rf Pg.ac Reg.AC_COUNTRY 15 0) ++
  bytesLE 4 (unsigned 32 k) ++ bytesLE 1 d.quadMs ++
  bytesLE 1 (d.rf Pg.ac Reg.AC_CALLER_CFG 3 0 + d.rf Pg.ac Reg.AC_CALLER_CFG 5 4 * 16) ++
  bytesLE 2 (d.schedEnd r) ++ bytesLE 2 (d.openEnd r) ++
  bytesLE 2 (d.rf Pg.ac (Reg.AC_SPAN_A + 4 * r) 9 0) ++ bytesLE 2 (d.rf Pg.ac (Reg.AC_SPAN_A + 4 * r) 25 16) ++
  bytesLE 2 hold ++ bytesLE 1 (d.chanOf r (k + 1)) ++ bytesLE 1 (Config.clockClass d.tu.sync.val) ++
  bytesLE 2 (d.radio r).cardVer ++ bytesLE 2 es.length ++
  es.flatMap (fun e => bytesLE 4 (e.link + e.start * 2 ^ 10 + e.slots * 2 ^ 20 + e.up.toNat * 2 ^ 28))

/-- The payload of a caller with its CRC-32C. -/
def Dev.callerBytes (d : Dev) (r : Nat) (k : Int) (hold : Nat) : List Byte :=
  d.callerHead r k hold ++ bytesLE 4 (Config.crc32c (d.callerHead r k hold))

/-! ## Sensor timing (R415, R417) -/

/-- W in ns. -/
def Dev.wakeNs (d : Dev) (s : Nat) : Nat := d.tf Pg.ac (sensorA s 0) 0 14 1 * d.quadNs
/-- ρ in 0.01 ppm. -/
def Dev.sensorRho (d : Dev) (s : Nat) : Int := signed 32 (d.tw Pg.ac (sensorA s 1) 2).toNat
/-- Presented ns of the nominal wake of the quadrille that is or follows quadrille k (R415). -/
def Dev.nominalWake (d : Dev) (s : Nat) (k : Int) : Int :=
  let q : Int := (max (d.tf Pg.ac (sensorA s 0) 0 14 1) 1 : Nat)
  let ph : Int := (d.tf Pg.ac (sensorA s 0) 1 13 0 : Nat)
  let ahead := (ph - k) % q
  d.slotAt (k + ahead) (d.openEnd d.sensorRadio + d.tf Pg.ac (sensorA s 0) 1 23 16)
/-- ns after a whole number of wake intervals at rate error ρ. -/
def Dev.afterWakes (d : Dev) (s n : Nat) : Int := (n * d.wakeNs s : Nat) + (n * d.wakeNs s : Nat) * d.sensorRho s / 100000000
/-- The next predicted wake at or after presented time t. -/
def Dev.nextWake (d : Dev) (s : Nat) (t : Int) : Int :=
  match (d.sensorX s).wake with
  | none => d.nominalWake s (t / (max d.quadNs 1 : Nat))
  | some w =>
    let step := max (d.afterWakes s 1) 1
    let n := max ((t - w + step - 1) / step).toNat 1
    w + d.afterWakes s n + (d.sensorX s).shift
/-- Time a GFSK bit takes, ns. -/
def Dev.bitNs (d : Dev) : Nat := if d.rb Pg.ac Reg.AC_CFG 6 then 4000 else 1000
/-- Guard G of an exchange whose wake is expected at `t`, ns (R417; without a measured wake, over one interval). -/
def Dev.sensorGuard (d : Dev) (s : Nat) (t : Int) : Nat :=
  let since := match (d.sensorX s).wake with | some w => (t - w).toNat | none => d.wakeNs s
  max 32000 (2 * d.tf Pg.ac (sensorA s 0) 3 24 16 * since / 1000000)
/-- Bits of a sensor frame with a body: sync word, length, header of seven bytes, body and CRC. -/
def sensorFrameBits (body : Nat) : Nat := 32 + 8 + 8 * (7 + body) + 16
/-- Bits of a preamble of at least `ns`. -/
def Dev.preambleBits (d : Dev) (ns : Nat) : Nat := ceilDiv ns d.bitNs
/-- SHIFT in µs for the sensor's next wake: brings it back when it would lie more than 1 ms off (R417). -/
def Dev.sensorShift (d : Dev) (s : Nat) (t : Int) : Int :=
  match (d.sensorX s).wake with
  | none => 0
  | some _ =>
    let nxt := d.nextWake s (t + 1)
    let nom := d.nominalWake s ((nxt - d.quadNs / 2 - d.slotAt 0 (d.openEnd d.sensorRadio)) / (max d.quadNs 1 : Nat))
    if 1000000 < (nxt - nom).natAbs then (nom - nxt) / 1000 else 0

/-- Payload of a downlink frame: its header (Table 17.6) and body. -/
def sensorPayload (s kind seq : Nat) (word_ : Int) (body : List Byte) : List Byte :=
  bytesLE 2 (s + kind * 2 ^ 11) ++ bytesLE 1 seq ++ bytesLE 4 (unsigned 32 word_) ++ body

/-! ## Air transmit items (R410) -/

/-- What makes an air item fail before its burst is assembled. -/
def Dev.sendCheck (d : Dev) (i : Item) : Option Nat :=
  let dest := ctxOf i.desc % 4096
  if opOf i.desc ≠ 0 then some Cause.BAD_DESC
  else if dest < 1022 then
    (if 9596 < lengthOf i.desc then some Cause.FRAME_SIZE else if d.linkLost dest then some Cause.PEER_LOST else none)
  else if 1024 ≤ dest && dest < 3072 then
    (if 248 < lengthOf i.desc then some Cause.FRAME_SIZE else if d.sensorStep (dest - 1024) = 3 then some Cause.PEER_LOST else none)
  else some Cause.BAD_DESC

/-- SEND: a bound air item is checked; a sound one waits for its burst (R410). -/
def Dev.sendItem (d : Dev) (ring seq : Nat) : Dev :=
  match d.item? ring seq with
  | none => d
  | some i =>
    if engineOf i.desc ≠ 8 || i.pend.isSome || i.inst.isNone || i.phase ≠ .bound then d
    else match d.sendCheck i with
      | some c => d.finishPlain ring seq .failed c
      | none => d

/-- Next SEQ of a link, which moves on (R404). -/
def Dev.takeSeq (d : Dev) (k : Nat) : Dev × Nat :=
  (d.setTf Pg.ac (linkA k 1) 2 15 0 ((d.tf Pg.ac (linkA k 1) 2 15 0 + 1) % 65536), d.tf Pg.ac (linkA k 1) 2 15 0)

/-- A data frame on its way into a burst. -/
def AirFrame.data (seq : Nat) (hdr : FrameHdr) (body : List Byte) : AirFrame :=
  { ftype := 0, ackReq := false, seq := seq, hdr := hdr, body := body, item := none, again := false, pkt := none }

/-- Headers of a frame whose bytes are all in its body. -/
def rawHdr : FrameHdr :=
  { tagged := false, vid := 0, pcp := 0, dei := false, dstMac := none, srcMac := none, ip := 0, ttl := 0, rtp := none }

/-- Next SEQ of a sensor's downlink, which moves on. -/
def Dev.takeSensorSeq (d : Dev) (s : Nat) : Dev × Nat :=
  (d.modSensor s (fun x => { x with seqDown := (x.seqDown + 1) % 256 }), (d.sensorX s).seqDown)

/-- Take an air item into a burst: its bytes are read, its SEQ is assigned at STARTED and kept in ENGINE_STATE (R404). -/
def Dev.takeItem (d : Dev) (alloc : Dev → Dev × Nat) (i : Item) : Dev × Option AirFrame :=
  match d.sendCheck i with
  | some c => (d.finishPlain i.ring i.seq .failed c, none)
  | none =>
    match d.virtRead whoAc (d.ringAsid i.ring) (srcOf i.desc) (lengthOf i.desc) with
    | (d, .fail c, _) => (d.finishPlain i.ring i.seq .failed c, none)
    | (d, .stop, _) => (d, none)
    | (d, .ok, bs) =>
      let r := if i.engineState = 0 then alloc d else (d, i.engineState.toNat % 65536)
      let again := decide (i.recorded = .started)
      let es := BitVec.ofNat 64 (r.2 + 65536)
      let d := r.1.modItem i.ring i.seq (fun x => { x with phase := .running, engineState := es })
      let d := if again && i.phase = .running then d else d.transition i.ring i.seq .started
      (d, some { AirFrame.data r.2 rawHdr bs with ackReq := descF i.desc 48 0 0 == 1, item := some (i.ring, i.seq), again := again })

/-! ## Filling a grant (R402) -/

/-- What a grant being filled holds. -/
structure Fill where
  frames : List AirFrame
  bytes : Nat
  ack : Bool
  full : Bool
deriving DecidableEq, Repr

/-- Does one more frame of `len` body bytes fit? -/
def fillFits (mode mcs streams ns : Nat) (f : Fill) (len : Nat) (ack : Bool) : Bool :=
  burstNs mode mcs streams (f.bytes + linkFrameBytes len) + (if f.ack || ack then ackWindowNs mode else 0) ≤ ns

def Fill.add (f : Fill) (x : AirFrame) (len : Nat) : Fill :=
  { frames := f.frames ++ [x], bytes := f.bytes + linkFrameBytes len, ack := f.ack || x.ackReq, full := false }

/-- Take assured items of a link in ring order until one does not fit. -/
def Dev.fillItems (d : Dev) (k mode mcs streams ns : Nat) : List Item → Fill → Dev × Fill
  | [], f => (d, f)
  | i :: is, f =>
    if f.full || d.inBurst i.ring i.seq then d.fillItems k mode mcs streams ns is f
    else if !fillFits mode mcs streams ns f (lengthOf i.desc) (descF i.desc 48 0 0 == 1) && (d.sendCheck i).isNone then
      (d, { f with full := true })
    else match d.takeItem (fun d => d.takeSeq k) i with
      | (d, some x) => d.fillItems k mode mcs streams ns is (f.add x x.body.length)
      | (d, none) => d.fillItems k mode mcs streams ns is f

/-- Take flood copies that wait for a link. -/
def Dev.fillFloods (d : Dev) (k mode mcs streams ns : Nat) : List (List Byte) → Fill → Dev × Fill
  | [], f => (d, f)
  | b :: bs, f =>
    if f.full || !fillFits mode mcs streams ns f b.length false then (d, f)
    else
      let r := d.takeSeq k
      let d := r.1.modLink k (fun l => { l with floods := l.floods.drop 1 })
      d.fillFloods k mode mcs streams ns bs (f.add { AirFrame.data r.2 rawHdr b with ftype := 1 } b.length)

/-- Take frames that TM chooses from the link's queues until the grant is full; the first argument bounds their number. -/
def Dev.fillQueues (d : Dev) (k mode mcs streams ns port : Nat) : Nat → Fill → Dev × Fill
  | 0, f => (d, f)
  | n + 1, f =>
    if f.full then (d, f)
    else match d.choose port k with
      | (_, none) => (d, f)
      | (d1, some q) =>
        match d1.queue q with
        | [] => (d, f)
        | p :: rest =>
          match d1.body? p.body with
          | none => (d, f)
          | some b =>
            let len := b.data.length
            if !b.done || !fillFits mode mcs streams ns f len false then (d, { f with full := true })
            else
              let size := d1.frameSize port p
              let d := (d1.debit (d1.qShaper q) size).debit (d1.tf Pg.tm (0x30000 + port) 1 13 0) size
              let p := { p with hdr := d.egressHdr port p }
              let kept := match p.assured with
                | some (g, n) => (match d.item? g n with | some i => i.engineState.toNat | none => 0)
                | none => 0
              let s := if kept = 0 then d.takeSeq k else (d, kept % 65536)
              let s1 := match p.assured with
                | some (g, n) => s.1.modItem g n (fun i => { i with engineState := BitVec.ofNat 64 (s.2 + 65536) })
                | none => s.1
              let x := { AirFrame.data s.2 p.hdr b.data with pkt := some (q, p), item := p.assured, again := decide (kept ≠ 0) }
              (s1.setQueue q rest).fillQueues k mode mcs streams ns port n (f.add x len)

/-- Frames on queues with LINK 1022 of a radio port become floods: one copy for every active partner link (R425). -/
def Dev.startFloods (d : Dev) (port : Nat) : Nat → Dev
  | 0 => d
  | n + 1 =>
    match d.choose port 1022 with
    | (_, none) => d
    | (d1, some q) =>
      match d1.queue q with
      | [] => d
      | p :: rest =>
        match d1.body? p.body with
        | none => d
        | some b =>
          let ttl := max (d1.rf Pg.ac Reg.AC_MESH_CFG 4 1) 1
          let body := bytesLE 6 d1.nodeId ++ bytesLE 4 d1.air.fseq ++ bytesLE 1 ttl ++ [0] ++ b.data
          let d := { d1 with air := { d1.air with fseq := (d1.air.fseq + 1) % 2 ^ 32 } }
          let d := (d.validLinks.filter d.activePartnerLink).foldl (fun d k => d.modLink k (fun l => { l with floods := l.floods ++ [body] })) d
          (((d.setQueue q rest).countSent port (some q) p.len).bump Pg.qm Reg.QM_DEQ_PKTS 31 0 |>.freePkt p).startFloods port n

/-- The block acknowledgement owed to a link: START_SEQ is the oldest owed (R407). -/
def Dev.ackBody (d : Dev) (k : Nat) : List Byte :=
  let l := d.airLink k
  match l.owed.getLast? with
  | none => []
  | some st =>
    let m := (List.range 64).foldl (fun m i => if hasNat l.delivered ((st + i) % 65536) || hasNat l.owed ((st + i) % 65536) then m + 2 ^ i else m) 0
    bytesLE 2 st ++ bytesLE 8 m ++ bytesLE 1 l.rxSnr ++ [0]

/-- Frames of the grant in the order of R402, the acknowledgement first (R407). -/
def Dev.fillGrant (d : Dev) (r k ns : Nat) : Dev × Fill :=
  let mode := min (d.airMode r d.air.quad) 3
  let mcs := d.linkMcs k
  let st := d.linkStreams k r
  let empty : Fill := { frames := [], bytes := 0, ack := false, full := false }
  let a := d.ackBody k
  let f := if a.isEmpty then empty else empty.add { AirFrame.data 0 rawHdr a with ftype := 2 } a.length
  let d := if a.isEmpty then d else d.modLink k (fun l => { l with owed := [] })
  let x := d.fillItems k mode mcs st ns (d.airItems k) f
  let y := x.1.fillFloods k mode mcs st ns (x.1.airLink k).floods x.2
  let port := 17 + (if k = 1023 then r else y.1.linkHome k)
  if k < 1022 && !y.1.portUp port k then (y.1.dropDown port k, y.2)
  else if !(y.1.hdr Pg.tm).state.serves then y
  else y.1.fillQueues k mode mcs st ns port 1024 y.2

/-- GRANT_ASSEMBLY: 40 µs ahead of a DOWN grant its burst is assembled; a grant with nothing to send stays idle (R402,
R423). -/
def Dev.assemble (d : Dev) (r k : Nat) (start : Int) (slots : Nat) : Dev :=
  if !d.radioServes r || d.air.quad < ((d.radio r).holdTill : Int) && d.air.running.isSome && r = d.sensorRadio ||
      (match d.air.cutTill with | some t => decide (start < t) | none => false) then d
  else
    let d := d.startFloods (17 + r) 64
    let x := d.fillGrant r k (slots * 64000 - d.slotGuardNs)
    let d := x.1
    if x.2.frames.isEmpty then d
    else
      let mode := min (d.airMode r d.air.quad) 3
      let mcs := d.linkMcs k
      let st := d.linkStreams k r
      let chan := d.chanOf r d.air.quad
      d.addBurst r { kind := .grant, to_ := k, start := start, durNs := burstNs mode mcs st x.2.bytes, mcs := mcs, streams := st,
                     chan := chan, eirp := d.eirpOf r chan (if k < 1022 then some k else none), frames := x.2.frames, payload := [],
                     blocks := burstBlocks mcs st x.2.bytes, block := 0, chains := 0, dead := false }

/-- GRANT_ASSEMBLY for an entry of our card, or for a partner's grant at its boundary plus ε. -/
def Dev.grantAssembly (d : Dev) (r : Nat) (g : GrantRef) : Dev :=
  match g with
  | .own i =>
    let e := cardEntry (d.tw Pg.ac (cardA r i.val) 0)
    if !e.valid || e.up then d else d.assemble r e.link (d.slotAt d.air.quad e.start) e.slots
  | .partner p start slots =>
    match d.partnerLink p.val with
    | none => d
    | some k =>
      if !(d.partnerX p.val).known || d.partnerState p.val ≠ 0 || (d.partnerX p.val).clash || d.partnerRadio p.val ≠ r then d
      else d.assemble r k (start + signed 32 (d.tw Pg.ac (partnerA p.val) 2).toNat) slots.val

/-! ## Quadrilles -/

/-- A bow of AC takes the shadows at a caller assembly; a changed card counts in CARD_VER (R401). -/
def Dev.acBow (d : Dev) : Dev :=
  let changed (r : Nat) : Bool := (List.range 256).any (fun i => decide (d.tw Pg.ac (cardA r i) 0 ≠ d.tsw Pg.ac (cardA r i) 0))
  let rs := (List.range 3).filter changed
  let d := (d.takeShadows Pg.ac).modHdr Pg.ac (fun h => { h with commitPending := false })
  let d := d.bump Pg.ac Reg.AC_COMMIT_STAT 31 16
  rs.foldl (fun d r => d.modRadio r (fun x => { x with cardVer := (x.cardVer + 1) % 65536 })) d

/-- COMMIT_TIME of AC. -/
def Dev.acCommitTime (d : Dev) : Nat := (d.reg Pg.ac Reg.AC_COMMIT_TIME_LO).toNat + (d.reg Pg.ac Reg.AC_COMMIT_TIME_HI).toNat * 2 ^ 32

/-- Link accounting at the end of a quadrille (R409, Table 17.11). -/
def Dev.closeQuad (d : Dev) : Dev :=
  d.validLinks.foldl (fun d k =>
    let l := d.airLink k
    let up := (List.range 3).any (fun r => (d.card r).any (fun e => e.up && e.link == k))
    let d := d.setTw Pg.ac (linkA k 1) 3 (if l.heard then 0 else word (min ((d.tw Pg.ac (linkA k 1) 3).toNat + 1) (2 ^ 32 - 1)))
    d.modLink k (fun x => { x with missed := if x.heard then 0 else if up then x.missed + 1 else x.missed, heard := false })) d

/-- A run of Table 17.7 starts in the quadrille being assembled: duration of preamble or repeats, and HOLD_QUADS (R418,
R419). -/
def Dev.runNs (d : Dev) (s : Nat) : Nat := d.wakeNs s + (d.tw Pg.ac (sensorA s 1) 1).toNat * 1000
def Dev.runHold (d : Dev) (s : Nat) (k : Int) : Nat :=
  let start := d.slotAt k d.callerSlots
  let finish := start + ((d.runNs s + sensorFrameBits 0 * d.bitNs + 200000 + 32 * d.bitNs + 32000 +
    (if d.rb Pg.ac Reg.AC_CFG 6 then 8512000 else 2128000) : Nat) : Int)
  (finish / (max d.quadNs 1 : Nat) - k).toNat

/-- The payload and frames of a sensor burst: the next ring item for the sensor, or an empty body (R410, R417). -/
def Dev.sensorLoad (d : Dev) (s kind : Nat) (word_ : Int) : Dev × List Byte × List AirFrame :=
  let item := (d.airItems (1024 + s)).find? (fun i => !d.inBurst i.ring i.seq)
  let x : Dev × Option AirFrame := match item with
    | some i => d.takeItem (fun d => d.takeSensorSeq s) i
    | none => (d, none)
  match x.2 with
  | some f => (x.1.modSensor s (fun y => { y with item := f.item }), sensorPayload s kind f.seq word_ f.body,
      [{ f with ackReq := false }])
  | none =>
    let y := x.1.takeSensorSeq s
    (y.1.modSensor s (fun z => { z with item := none }), sensorPayload s kind y.2 word_ [], [])

/-- The run of the sensor that has waited longest is assembled. -/
def Dev.startRun (d : Dev) (k : Int) : Dev × Nat :=
  let r := d.sensorRadio
  match d.air.runq, d.air.running with
  | s :: rest, none =>
    if !d.radioServes r || !d.rb Pg.ac Reg.AC_CFG 2 then (d, 0)
    else
      let hold := d.runHold s k
      let start := d.slotAt k d.callerSlots
      let rep : Bool := d.sensorStep s == 2
      let x := d.sensorLoad s (if rep then 3 else 0) (if rep then 200 else d.sensorShift s start)
      let d := x.1
      let dur := d.runNs s + (32 + 8 + 8 * x.2.1.length + 16) * d.bitNs
      let chan := d.chanOf r k
      let b : Burst := { kind := .run, to_ := s, start := start, durNs := dur, mcs := 15, streams := 1, chan := chan,
                         eirp := d.eirpOf r chan none, frames := x.2.2, payload := x.2.1, blocks := 0, block := 0, chains := 0,
                         dead := false }
      let d := { d with air := { d.air with runq := rest, running := some s } }
      let d := d.modSensor s (fun y => { y with awaits := some start })
      let d := d.modRadio r (fun y => { y with holdTill := (k + (hold : Int)).toNat })
      (d.addBurst r b, hold)
  | _, _ => (d, 0)

/-- The caller of a radio is assembled for quadrille k (R397). A held radio sends none (R419). -/
def Dev.assembleCaller (d : Dev) (r : Nat) (k : Int) (hold : Nat) : Dev :=
  let start := d.slotAt k (d.rf Pg.ac Reg.AC_CALLER_CFG 7 6 * d.rf Pg.ac Reg.AC_CALLER_CFG 3 0)
  if !d.radioServes r || (hold = 0 && d.air.running.isSome && r = d.sensorRadio && k ≤ ((d.radio r).holdTill : Int)) ||
      (match d.air.cutTill with | some t => decide (d.slotAt k 0 < t) | none => false) then d
  else
    let mode := min (d.airMode r k) 3
    let bytes := d.callerBytes r k hold
    let mcs := d.rf Pg.ac Reg.AC_CALLER_CFG 10 8
    let chan := d.chanOf r k
    let b : Burst := { kind := .caller, to_ := 1023, start := start, durNs := burstNs mode mcs 1 bytes.length, mcs := mcs, streams := 1,
                       chan := chan, eirp := d.eirpOf r chan none, frames := [], payload := bytes, blocks := 0, block := 0,
                       chains := 0, dead := false }
    d.addBurst r b

/-- CALLER_ASSEMBLY: 40 µs before a quadrille any bow is taken, each radio's caller is assembled, estimates are published
and the quadrille before it is closed (R401, R408, R409, R424). -/
def Dev.callerAssembly (d : Dev) : Dev :=
  if !(d.hdr Pg.ac).state.serves then d
  else
    let k := (d.timeNs + 40000) / (max d.quadNs 1 : Nat)
    let at_ := d.slotAt k 0
    let h := d.hdr Pg.ac
    let d := if h.commitPending && (h.bowAt != 2 || decide ((d.acCommitTime : Int) ≤ at_)) then d.acBow else d
    let d := (d.closeQuad).clearLostCards
    let d := { d with air := { d.air with quad := k } }
    let d := d.setReg Pg.ac Reg.AC_QUAD_NUM (word (unsigned 32 k))
    let d := d.validLinks.foldl (fun d l => d.setTf Pg.ac (linkA l 1) 1 19 0 (min (d.airEstimate l) (2 ^ 20 - 1))) d
    let d := d.validLinks.foldl (fun d l => (d.setTf Pg.ac (linkA l 1) 0 7 4 (d.linkMcs l)).setTf Pg.ac (linkA l 1) 0 9 8 (d.linkStreams l (d.linkHome l) - 1)) d
    let d := (List.range 3).foldl (fun d r =>
      let n := (d.radio r).scan
      let d := d.modRadio r (fun x => { x with scan := x.scan - 1 })
      if n = 1 then (List.range 32).foldl (fun d p =>
        if (d.partnerX p).known && d.partnerRadio p = r && d.partnerState p = 2 then d.setTf Pg.ac (partnerA p) 1 21 20 1 else d) d
      else d) d
    let cut := match d.air.cutTill with | some t => decide (at_ < t) | none => false
    if cut then d
    else
      let x := d.startRun k
      let d := (List.range 3).foldl (fun d r => d.assembleCaller r k (if r = d.sensorRadio then x.2 else 0)) x.1
      { d with air := { d.air with cutTill := none, stepped := 0 } }

/-- A step of presented time ends the quadrille in progress (R396). -/
def Dev.quadCut (d : Dev) : Dev :=
  if !(d.hdr Pg.ac).state.serves || !(List.range 3).any d.radioEn then d
  else
    let d := (List.range 3).foldl (fun d r => d.dropReady r) d
    let d := { d with air := { d.air with cutTill := some (d.timeNs + 1000000), stepped := 7,
                                          quad := d.timeNs / (max d.quadNs 1 : Nat) } }
    d.detect Pg.ac Evt.AC_QUAD_CUT

/-- MAC_HANG: no slot boundary served for HANG_MS while a radio is enabled. -/
def Dev.macHang (d : Dev) : Dev :=
  if (List.range 3).any d.radioEn then d.detect Pg.ac Evt.AC_MAC_HANG else d

/-- A read of AC_LOST_POP. -/
def Dev.lostPop (d : Dev) : Dev :=
  match d.air.pops with
  | [] => d.answer 0
  | e :: es =>
    { d with air := { d.air with pops := es } }.answer
      (word (e.index + e.kind * 2 ^ 11 + e.found.toNat * 2 ^ 13 + e.lost.toNat * 2 ^ 30 + 2 ^ 31))

/-- An island reset of AC, and a warm reset: bursts assembled go back; STARTED items are sent again under R99; what AC
learnt of links, sensors and partners is measured afresh. -/
def Dev.acReset (d : Dev) : Dev :=
  let d := (List.range 3).foldl (fun d r => (d.dropReady r).dropOnAir r |>.paenOff r) d
  { d with air := { Air.reset with radios := d.air.radios, pops := d.air.pops, quad := d.air.quad } }

/-! ## Commands -/

/-- SEND (R410). -/
def execSend (ring : RingNo) (seq : Nat) (s : State) : Host.Outcome State Fault Refusal := s.on (·.sendItem ring.val seq)
/-- CALLER_ASSEMBLY (R401). -/
def execCallerAssembly (s : State) : Host.Outcome State Fault Refusal := s.on (·.callerAssembly)
/-- GRANT_ASSEMBLY (R402). -/
def execGrantAssembly (r : Radio) (g : GrantRef) (s : State) : Host.Outcome State Fault Refusal := s.on (·.grantAssembly r.val g)
/-- LINK_LOST (R409). -/
def execLinkLost (link : Fin 1024) (s : State) : Host.Outcome State Fault Refusal := s.on (·.linkLostDue link.val)
/-- CALLER_MISS (R423). -/
def execCallerMiss (p : Fin 32) (s : State) : Host.Outcome State Fault Refusal := s.on (·.callerMiss p.val)
/-- MAC_HANG (R426). -/
def execMacHang (s : State) : Host.Outcome State Fault Refusal := s.on (·.macHang)
/-- AC_LOST_POP (R427). -/
def execAcLostPop (s : State) : Host.Outcome State Fault Refusal := s.on (·.lostPop)

end Sys2Proof.Machine
end

