-- ==== Sys2Proof/Machine/AirRx.lean ====
section
/-! DEFINITION. The air controller's receiving side: reordering, acknowledgements, floods, partners, and the sensor tier
(chapter 17). -/

namespace Sys2Proof.Machine

/-! ## Reordering (R406) -/

/-- NEXT of a link. -/
def Dev.rxNext (d : Dev) (k : Nat) : Nat := d.tf Pg.ac (linkA k 1) 2 31 16
def Dev.setRxNext (d : Dev) (k n : Nat) : Dev := d.setTf Pg.ac (linkA k 1) 2 31 16 (n % 65536)

/-- Look a flood up in the seen cache and enter it: the result says whether it was there (R425). -/
def Dev.floodSeen (d : Dev) (origin fseq : Nat) : Dev × Bool :=
  let live := d.air.seen.filter (fun x => d.nowNs < x.2.2 + 8000000000)
  let d := { d with air := { d.air with seen := live } }
  if live.any (fun x => x.1 == origin && x.2.1 == fseq) then (d, true)
  else
    let full := decide (4096 ≤ live.length)
    let d := { d with air := { d.air with seen := (origin, fseq, d.nowNs) :: live.take 4095 } }
    (if full then d.detect Pg.ac Evt.AC_FLOOD_CACHE_FULL else d, false)

/-- A flood frame is delivered and passed on, or discarded as a duplicate (R425). -/
def Dev.floodRx (d : Dev) (k src : Nat) (body : List Byte) : Dev :=
  let origin := fieldLE body 0 6
  let fseq := fieldLE body 6 4
  let ttl := fieldLE body 10 1 % 16
  let r := d.floodSeen origin fseq
  if r.2 then r.1.bump Pg.ac Reg.AC_FLOOD_STAT 31 16
  else
    let d := r.1.airDeliver src (body.drop 12)
    if 1 < ttl then
      let copy := body.take 10 ++ bytesLE 1 (ttl - 1) ++ (body.drop 11)
      ((d.validLinks.filter (fun l => d.activePartnerLink l && l != k))).foldl
        (fun d l => d.modLink l (fun x => { x with floods := x.floods ++ [copy] })) d
    else d

/-- A frame of a link is delivered: the record of the last 1,024 SEQs, the counter, and the frame by its type. -/
def Dev.deliverFrame (d : Dev) (k seq ftype src : Nat) (body : List Byte) : Dev :=
  let d := (d.modLink k (fun l => { l with delivered := (seq :: l.delivered).take 1024 })).bumpT Pg.ac (linkA k 2) 1 31 0
  if ftype = 1 then d.floodRx k src body else d.airDeliver src body

/-- Deliver the held frames that follow NEXT; the first argument bounds their number. -/
def Dev.drainHeld (d : Dev) (k : Nat) : Nat → Dev
  | 0 => d
  | n + 1 =>
    match (d.airLink k).held.find? (fun h => h.seq == d.rxNext k) with
    | none => d
    | some h =>
      let d := d.modLink k (fun l => { l with held := l.held.filter (fun x => x.seq != h.seq) })
      ((d.deliverFrame k h.seq h.ftype h.src h.frame).setRxNext k (h.seq + 1)).drainHeld k n

/-- NEXT jumps to the oldest held frame and delivery resumes; held frames it passes are delivered at once as late (R406). -/
def Dev.reorderSkip (d : Dev) (k : Nat) : Dev :=
  match (d.airLink k).held with
  | [] => d
  | h :: _ =>
    let d := (d.bump Pg.ac Reg.AC_REORDER_SKIPS 31 0).detect Pg.ac Evt.AC_REORDER_SKIP
    let behind (x : HeldFrame) : Bool := 32768 ≤ (x.seq + 65536 - h.seq) % 65536
    let late := (d.airLink k).held.filter behind
    let d := d.modLink k (fun l => { l with held := l.held.filter (fun x => !behind x) })
    let d := late.foldl (fun d x => (d.deliverFrame k x.seq x.ftype x.src x.frame).bumpT Pg.ac (linkA k 2) 3 31 0) d
    (d.setRxNext k h.seq).drainHeld k 257

/-- Bytes held in the reorder store, 4 MiB in stage SRAM. -/
def Dev.heldBytes (d : Dev) : Nat :=
  d.air.links.foldl (fun a x => x.2.held.foldl (fun a h => a + h.frame.length) a) 0

/-- A data or flood frame arrives on a link (R406). -/
def Dev.rxFrame (d : Dev) (k src ftype seq : Nat) (body : List Byte) : Dev :=
  let l := d.airLink k
  let ahead := (seq + 65536 - d.rxNext k) % 65536
  if hasNat l.delivered seq || l.held.any (fun h => h.seq == seq) then d.bumpT Pg.ac (linkA k 2) 2 31 0
  else if ahead = 0 then ((d.deliverFrame k seq ftype src body).setRxNext k (seq + 1)).drainHeld k 257
  else if ahead ≤ 32767 then
    let d := if 256 ≤ l.held.length || 4194304 < d.heldBytes + body.length then d.reorderSkip k else d
    let ahead := (seq + 65536 - d.rxNext k) % 65536
    if ahead = 0 then ((d.deliverFrame k seq ftype src body).setRxNext k (seq + 1)).drainHeld k 257
    else if ahead ≤ 32767 then
      d.modLink k (fun l => { l with held := l.held ++ [{ seq := seq, ftype := ftype, at_ := d.nowNs, src := src, frame := body }] })
    else (d.deliverFrame k seq ftype src body).bumpT Pg.ac (linkA k 2) 3 31 0
  else (d.deliverFrame k seq ftype src body).bumpT Pg.ac (linkA k 2) 3 31 0

/-- REORDER_TIMEOUT: REORDER after the oldest held frame arrived. -/
def Dev.reorderTimeout (d : Dev) (k : Nat) : Dev :=
  match (d.airLink k).held with
  | [] => d
  | h :: _ => if h.at_ + d.rf Pg.ac Reg.AC_REORDER_CFG 11 0 * 10000 ≤ d.nowNs then d.reorderSkip k else d

/-! ## Control frames (R394) -/

/-- A control frame goes to firmware, which answers the join requests of nodes with a valid link entry and passes every
other one to the host exception queue. -/
def Dev.controlRx (d : Dev) (src : Nat) (f : LinkFrame) : Dev :=
  let known := match f.join with
    | some id => d.validLinks.any (fun k =>
        (d.tw Pg.ac (linkA k 0) 1).toNat + d.tf Pg.ac (linkA k 0) 2 15 0 * 2 ^ 32 == id.toNat)
    | none => false
  if known then d
  else
    let b := d.newBody { source := src, cells := d.freeCells (cellsFor f.body.length), data := f.body, done := true, err := false, refs := 0, walking := false,
                         inReserve := false, dropped := false, classified := true }
    let p : Pkt := { body := b.2, header := none, len := f.body.length, hdr := rawHdr, yellow := false, ver := none, nh := 0,
                     assured := none, leg := none, link := 0, source := src, stamp := b.1.rxStamp src 0, admitted := 0, held := false }
    (b.1.admitPkt (b.1.rf Pg.px Reg.PX_RT_EXC_QUEUE 15 0) p).1

/-! ## Partners (R422, R423) -/

/-- Firmware makes a partner link: the lowest link number that is free, unless 32 partner links are valid. -/
def Dev.makePartnerLink (d : Dev) (p r id : Nat) : Dev :=
  if 32 ≤ (d.validLinks.filter d.linkPartner).length then d
  else match (List.range 1022).find? (fun k => !d.linkValid k) with
    | none => d
    | some k =>
      let d := d.setTw Pg.ac (linkA k 0) 0 (word (1 + 2 + 2 ^ (2 + r) + r * 2 ^ 5))
      let d := (d.setTw Pg.ac (linkA k 0) 1 (word id)).setTw Pg.ac (linkA k 0) 2 (word (id / 2 ^ 32 % 65536))
      d.setTw Pg.ac (partnerA p) 3 (word (k + 2 ^ 10))

/-- The known partner of a node on a radio. -/
def Dev.partnerOf (d : Dev) (r id : Nat) : Option Nat :=
  (List.range 32).find? (fun p => (d.partnerX p).known && d.partnerRadio p == r &&
    (d.tw Pg.ac (partnerA p) 0).toNat + d.tf Pg.ac (partnerA p) 1 15 0 * 2 ^ 32 == id)

/-- Does a partner's caller clash with this unit (R422)? -/
def Dev.clashes (d : Dev) (r : Nat) (c : PartnerCaller) : Bool :=
  c.channel.val == d.chanOf r d.air.quad &&
    (c.quadLen != d.quadMs || c.position.val == d.rf Pg.ac Reg.AC_CALLER_CFG 7 6 ||
      overlaps c.spanStart (c.spanEnd - c.spanStart) (d.rf Pg.ac (Reg.AC_SPAN_A + 4 * r) 9 0)
        (d.rf Pg.ac (Reg.AC_SPAN_A + 4 * r) 25 16 - d.rf Pg.ac (Reg.AC_SPAN_A + 4 * r) 9 0))

/-- ε of a partner becomes what its caller shows; past PARTNER_GUARD_US PARTNER_DRIFT is raised once an excursion. -/
def Dev.setEpsilon (d : Dev) (p : Nat) (e : Int) : Dev :=
  let d := (d.setTw Pg.ac (partnerA p) 2 (word (unsigned 32 e))).setTf Pg.ac (partnerA p) 1 25 22 0
  let far := decide (d.rf Pg.ac Reg.AC_TIMING_CFG 15 8 * 1000 < e.natAbs)
  let was := (d.partnerX p).drift
  let d := d.modPartner p (fun x => { x with drift := far })
  if far && !was then d.detect Pg.ac Evt.AC_PARTNER_DRIFT else d

/-- Clash and hold of a decoded partner caller. -/
def Dev.partnerHeard (d : Dev) (p r : Nat) (c : PartnerCaller) : Dev :=
  let clash := d.clashes r c
  let was := (d.partnerX p).clash
  let d := d.modPartner p (fun x => { x with clash := clash, holdTill := (d.air.quad + (c.holdQuads : Int)).toNat * min c.holdQuads 1 })
  if clash && !was then d.detect Pg.ac Evt.AC_SPAN_CLASH else d

/-- A caller of a partner is decoded: a new partner is recorded, a lost one restored, a known one followed. -/
def Dev.callerRx (d : Dev) (r : Nat) (c : PartnerCaller) : Dev :=
  let id := c.nodeId.toNat
  if !d.rb Pg.ac Reg.AC_MESH_CFG 0 || c.meshId.toNat ≠ d.rf Pg.ac Reg.AC_MESH_CFG 31 16 then d
  else match d.partnerOf r id with
    | some p =>
      if d.partnerState p ≠ 0 then
        let d := ((d.setTf Pg.ac (partnerA p) 1 21 20 0).detect Pg.ac Evt.AC_PARTNER_FOUND).acPost 2 p true
        let d := (d.setEpsilon p c.offsetNs).partnerHeard p r c
        match d.partnerLink p with
        | some k => d.markLinkFound k
        | none => d
      else
        let e := signed 32 (d.tw Pg.ac (partnerA p) 2).toNat
        if d.rf Pg.ac Reg.AC_TIMING_CFG 7 0 * 4000 < (c.offsetNs - e).natAbs then d
        else (d.setEpsilon p c.offsetNs).partnerHeard p r c
    | none =>
      match c.partnerOpen, (List.range 32).find? (fun p => !(d.partnerX p).known) with
      | true, some p =>
        let d := d.modPartner p (fun x => { x with known := true })
        let d := d.setTw Pg.ac (partnerA p) 0 (word id)
        let d := d.setTw Pg.ac (partnerA p) 1 (word (id / 2 ^ 32 % 65536 + r * 2 ^ 16 + c.position.val * 2 ^ 18))
        let d := (d.detect Pg.ac Evt.AC_PARTNER_FOUND).makePartnerLink p r id
        (d.setEpsilon p c.offsetNs).partnerHeard p r c
      | _, _ => d

/-! ## Bursts (R395, R406, R407) -/

/-- One link frame of a burst. -/
def Dev.linkFrame (d : Dev) (r k : Nat) (f : LinkFrame) : Dev :=
  let src := 17 + r
  if f.ftype = 2 then d.linkAck k f
  else if f.ftype = 3 then d.controlRx src f
  else
    let d := d.rxFrame k src f.ftype.val f.seq.toNat f.body
    if f.ftype = 0 then d.modLink k (fun l => { l with owed := (f.seq.toNat :: l.owed).take 256 }) else d

/-- The immediate block acknowledgement: MCS 0, one stream, KIND 3, 16 µs after the burst (R407). -/
def Dev.ackNow (d : Dev) (r k : Nat) : Dev :=
  let a := d.ackBody k
  if a.isEmpty || !d.radioServes r then d
  else
    let mode := min (d.airMode r d.air.quad) 3
    let d := (d.modLink k (fun l => { l with owed := [] })).dwellSpend r (d.chanOf r d.air.quad) (burstNs mode 0 1 ackFrameBytes)
    d.emit (.air r 3 k 0 1 [] [(2, 0, rawHdr, a)])

/-- A burst of a valid link: the link is heard; each of its frames; the acknowledgement asked for. -/
def Dev.linkBurst (d : Dev) (b : RxBurst) (k : Nat) (fs : List LinkFrame) : Dev :=
  let r := b.radio.val
  let d := d.markLinkFound k
  let d := d.modLink k (fun l => { l with heard := true, missed := 0, peerStreams := some (b.streams.val + 1), rxSnr := b.snr.headD 0 })
  let d := if b.kind = 0 && 4000 < b.startOffset.natAbs then d.bumpT Pg.ac (linkA k 2) 3 31 0 else d
  let d := fs.foldl (fun d f => d.linkFrame r k f) d
  if fs.any (·.ackReq) && b.kind != 3 then d.ackNow r k else d

/-- RX_BURST (R377, R378): the modem's counters, then AC by LINK and KIND. -/
def Dev.rxBurst (d : Dev) (b : RxBurst) : Dev :=
  let r := b.radio.val
  if !d.radioServes r || (d.radio r).onAir.isSome then d
  else
    let x := d.modemReport b
    let d := x.1
    if !x.2 then d
    else match b.payload with
      | .caller c => d.callerRx r c
      | .frames fs =>
        let k := b.link.val
        if d.linkValid k then d.linkBurst b k fs
        else (fs.filter (fun f => f.ftype == 3)).foldl (fun d f => d.controlRx (17 + r) f) d

/-! ## Sensors (R415 to R420) -/

/-- The sensor's item, once EMITTED, completes: with an uplink or without (R410). -/
def Dev.sensorItemDone (d : Dev) (s : Nat) (acked : Bool) : Dev :=
  match (d.sensorX s).item with
  | none => d
  | some (g, n) =>
    let d := d.modSensor s (fun x => { x with item := none })
    match d.item? g n with
    | none => d
    | some i =>
      if i.recorded = .emitted && i.pend.isNone then
        let b : Burst := { kind := .exchange, to_ := s, start := (d.sensorX s).awaits.getD 0, durNs := 0, mcs := 15, streams := 1, chan := 0,
                           eirp := 0, frames := [], payload := [], blocks := 0, block := 0, chains := 0, dead := false }
        let f := { AirFrame.data (i.engineState.toNat % 65536) rawHdr [] with again := i.encored }
        d.finish g n (airResult i d.sensorRadio b f acked)
      else d

/-- SENSOR_EXCHANGE: preamble of 2G + 128 µs from T_exp − G, then the downlink frame (R417). A wake that a run, an
overlapping exchange or a discovery occupies is skipped. -/
def Dev.sensorExchange (d : Dev) (s : Nat) : Dev :=
  let r := d.sensorRadio
  if !d.sensorValid s || !d.rb Pg.ac Reg.AC_CFG 2 || d.sensorStep s ≠ 0 || d.air.running.isSome || !d.radioServes r ||
      (match d.air.cutTill with | some _ => true | none => false) then d
  else
    let t := d.nextWake s d.timeNs
    let g := d.sensorGuard s t
    let pre := d.preambleBits (2 * g + 128000) * d.bitNs
    let start := t - g
    let room := pre + sensorFrameBits 248 * d.bitNs + 300000
    if ((d.radio r).ready ++ (d.radio r).onAir.toList).any (fun b => b.start < start + room && start < b.start + b.durNs) then d
    else
      let x := d.sensorLoad s 0 (d.sensorShift s t)
      let d := x.1
      let dur := pre + (32 + 8 + 8 * x.2.1.length + 16) * d.bitNs
      let chan := d.chanOf r d.air.quad
      let b : Burst := { kind := .exchange, to_ := s, start := start, durNs := dur, mcs := 15, streams := 1, chan := chan,
                         eirp := d.eirpOf r chan none, frames := x.2.2, payload := x.2.1, blocks := 0, block := 0, chains := 0,
                         dead := false }
      let d := d.setTw Pg.ac (sensorA s 1) 1 (word (g / 1000))
      let sh := d.sensorShift s t * 1000
      (d.modSensor s (fun y => { y with awaits := some start, lastEx := d.nowNs, shift := sh })).addBurst r b

/-- The sensor leaves whatever step it is at. -/
def Dev.sensorNormal (d : Dev) (s : Nat) : Dev :=
  let d := (d.setTf Pg.ac (sensorA s 1) 0 1 0 0).modSensor s (fun x => { x with awaits := none })
  { d with air := { d.air with runq := d.air.runq.filter (· != s), running := if d.air.running = some s then none else d.air.running } }

/-- A run that has ended no longer holds its radio. -/
def Dev.endRun (d : Dev) (s : Nat) : Dev :=
  if d.air.running = some s then
    ({ d with air := { d.air with running := none } }).modRadio d.sensorRadio (fun x => { x with holdTill := min x.holdTill d.air.quad.toNat })
  else d

/-- A valid uplink: the exchange has succeeded; the wake and ρ are measured anew (R415, R417). -/
def Dev.sensorUp (d : Dev) (s : Nat) (f : SensorFrame) : Dev :=
  let x := d.sensorX s
  let w := f.syncEnd - (f.wakeLag * 1000 : Nat)
  let wi := d.wakeNs s
  let rho : Int := match x.wake with
    | none => 0
    | some p =>
      let n := ((w - p + (wi / 2 : Nat)) / (max wi 1 : Nat))
      if n ≤ 0 then d.sensorRho s
      else max (-50000) (min 50000 ((w - p - x.shift - n * (wi : Int)) * 100000000 / (n * (max wi 1 : Nat))))
  let d := (d.sensorItemDone s true).endRun s
  let d := d.setTw Pg.ac (sensorA s 1) 2 (word (unsigned 32 rho))
  let d := d.sensorNormal s
  let d := d.modSensor s (fun x => { x with prev := x.wake, wake := some w, lastEx := d.nowNs, shift := 0 })
  if f.kind = 16 then
    let r := d.sensorRadio
    let q := SMap.get (fun _ => []) d.air.rxq r
    { d with air := { d.air with rxq := SMap.set (fun _ => []) d.air.rxq r (q ++ [bytesLE 2 s ++ bytesLE 8 f.time ++ f.body]) } }
  else d

/-- GFSK_FRAME: a sensor frame is decoded (R380); an awaited uplink ends its exchange; a wake response enters the open
window (R420). -/
def Dev.gfskFrame (d : Dev) (r : Nat) (f : SensorFrame) : Dev :=
  if !d.radioServes r || (d.radio r).onAir.isSome then d
  else
    let x := d.gfskReport r f
    let d := x.1
    let s := f.sensor.val
    if !x.2 || r ≠ d.sensorRadio then d
    else if f.kind = 17 then
      match d.air.window with
      | some l =>
        if hasNat l f.hwid.toNat || d.rf Pg.ac Reg.AC_SLEEPY_CFG 5 0 ≤ l.length then d
        else { d with air := { d.air with window := some (l ++ [f.hwid.toNat]) } }
      | none => d
    else if f.kind = 16 && d.sensorValid s && (d.sensorX s).awaits.isSome && d.sensorStep s ≠ 3 then d.sensorUp s f
    else d

/-- SENSOR_RETRY: an exchange or a run of Table 17.7 has ended without a valid uplink (R418, R420). -/
def Dev.sensorRetry (d : Dev) (s : Nat) : Dev :=
  let st := d.sensorStep s
  if !d.sensorValid s || st = 3 || (d.sensorX s).awaits.isNone || hasNat d.air.runq s then d
  else
    let d := (d.sensorItemDone s false).endRun s
    let d := (d.bumpTSat Pg.ac (sensorA s 1) 0 31 16).modSensor s (fun x => { x with awaits := none })
    let d := d.setTf Pg.ac (sensorA s 1) 0 1 0 (st + 1)
    if st < 2 then
      ({ d with air := { d.air with runq := d.air.runq ++ [s] } }).detect Pg.ac Evt.AC_SENSOR_RETRY
    else ((d.detect Pg.ac Evt.AC_SENSOR_LOST).acPost 1 s false).failItems (1024 + s)

/-- DISCOVERY_CALL: at the start of the sleepy figure; its body carries NODE_ID, QUAD_NUM and WIN_POS, and it opens the
sleepy window (R420). -/
def Dev.discoveryCall (d : Dev) : Dev :=
  let r := d.sensorRadio
  if !d.rb Pg.ac Reg.AC_CFG 2 || !d.radioServes r || d.air.running.isSome || d.air.cutTill.isSome then d
  else
    let wp := d.rf Pg.ac Reg.AC_SLEEPY_CFG 5 0
    let body := bytesLE 6 d.nodeId ++ bytesLE 4 (unsigned 32 d.air.quad) ++ bytesLE 1 wp
    let chan := d.chanOf r d.air.quad
    let b : Burst := { kind := .discovery, to_ := 0x7FF, start := d.slotAt d.air.quad (d.openEnd r), durNs := 232 * d.bitNs, mcs := 15,
                       streams := 1, chan := chan, eirp := d.eirpOf r chan none, frames := [], payload := sensorPayload 0x7FF 1 0 0 body,
                       blocks := 0, block := 0, chains := 0, dead := false }
    { d.addBurst r b with air := { (d.addBurst r b).air with window := some [] } }

/-- The sensor of a hardware identifier. -/
def Dev.sensorOf (d : Dev) (hw : Nat) : Option Nat :=
  d.validSensors.find? (fun s => (d.tw Pg.ac (sensorA s 0) 2).toNat + d.tf Pg.ac (sensorA s 0) 3 15 0 * 2 ^ 32 == hw)

/-- An entry of a window answer: for an admitted sensor its identifier, index, QUADS, PHASE and OFFSET; for a deferred one
the QUAD_NUM of a later call, ADMIT per call. How the fields are packed is left open; here each takes whole bytes
(assumption log 33). -/
def Dev.answerEntry (d : Dev) (hw s : Nat) (later : Option Nat) : List Byte :=
  match later with
  | none => bytesLE 6 hw ++ bytesLE 2 s ++ bytesLE 2 (d.tf Pg.ac (sensorA s 0) 0 14 1) ++ bytesLE 2 (d.tf Pg.ac (sensorA s 0) 1 13 0) ++
      bytesLE 1 (d.tf Pg.ac (sensorA s 0) 1 23 16)
  | some q => bytesLE 6 hw ++ bytesLE 4 q

/-- WINDOW_ANSWER: sensors in the table are admitted in arrival order up to ADMIT, the others deferred; identifiers not in
the table are reported to the host (R420). -/
def Dev.windowAnswer (d : Dev) : Dev :=
  match d.air.window with
  | none => d
  | some l =>
    let r := d.sensorRadio
    let admitN := d.rf Pg.ac Reg.AC_SLEEPY_CFG 13 8
    let every := d.rf Pg.ac Reg.AC_SLEEPY_CFG 23 16
    let known := l.filterMap (fun h => (d.sensorOf h).map (fun s => (h, s)))
    let d := { d with air := { d.air with window := none } }
    let d := (l.filter (fun h => (d.sensorOf h).isNone)).foldl (fun d h => d.emit (.hostQueue r (bytesLE 6 h) rawHdr [])) d
    let ins := known.take admitN
    let outs := known.drop admitN
    let d := ins.foldl (fun d x =>
      if d.sensorStep x.2 = 3 then
        (((d.sensorNormal x.2).modSensor x.2 (fun y => { y with wake := none, prev := none, shift := 0 })).detect Pg.ac Evt.AC_SENSOR_FOUND).acPost
          1 x.2 true
      else d) d
    let d := if outs.isEmpty then d else d.detect Pg.ac Evt.AC_WINDOW_FULL
    let body := ins.flatMap (fun x => d.answerEntry x.1 x.2 none) ++
      ((List.range outs.length).flatMap (fun j => match outs[j]? with
        | some x => d.answerEntry x.1 x.2 (some (unsigned 32 (d.air.quad + (every * (1 + j / max admitN 1) : Nat))))
        | none => []))
    if known.isEmpty || !d.radioServes r then d
    else
      let chan := d.chanOf r d.air.quad
      let pay := sensorPayload 0x7FF 2 0 0 body
      d.addBurst r { kind := .answer, to_ := 0x7FF, start := d.slotAt d.air.quad (d.openEnd r),
                     durNs := (32 + 32 + 8 + 8 * pay.length + 16) * d.bitNs, mcs := 15, streams := 1, chan := chan,
                     eirp := d.eirpOf r chan none, frames := [], payload := pay, blocks := 0, block := 0, chains := 0, dead := false }

/-! ## Commands -/

/-- RX_BURST (R377). -/
def execRxBurst (b : RxBurst) (s : State) : Host.Outcome State Fault Refusal := s.on (·.rxBurst b)
/-- REORDER_TIMEOUT (R406). -/
def execReorderTimeout (link : Fin 1024) (s : State) : Host.Outcome State Fault Refusal := s.on (·.reorderTimeout link.val)
/-- GFSK_FRAME (R380). -/
def execGfskFrame (r : Radio) (f : SensorFrame) (s : State) : Host.Outcome State Fault Refusal := s.on (·.gfskFrame r.val f)
/-- SENSOR_EXCHANGE (R417). -/
def execSensorExchange (i : Fin 2048) (s : State) : Host.Outcome State Fault Refusal := s.on (·.sensorExchange i.val)
/-- SENSOR_RETRY (R418). -/
def execSensorRetry (i : Fin 2048) (s : State) : Host.Outcome State Fault Refusal := s.on (·.sensorRetry i.val)
/-- DISCOVERY_CALL (R420). -/
def execDiscoveryCall (s : State) : Host.Outcome State Fault Refusal := s.on (·.discoveryCall)
/-- WINDOW_ANSWER (R420). -/
def execWindowAnswer (s : State) : Host.Outcome State Fault Refusal := s.on (·.windowAnswer)

end Sys2Proof.Machine
end

