-- ==== Sys2Proof/Machine/Dsp.lean ====
section
/-! DEFINITION. DSP clusters: kernels, jobs and their frames (R279 to R291); the lanes' instructions are in Lanes. -/

namespace Sys2Proof.Machine

/-! ## State of a cluster -/

def Dev.ds (d : Dev) (c : Nat) : DsUnit := SMap.get (fun _ => DsUnit.reset) d.dss c
def Dev.setDs (d : Dev) (c : Nat) (u : DsUnit) : Dev := { d with dss := SMap.set (fun _ => DsUnit.reset) d.dss c u }
def Dev.modDs (d : Dev) (c : Nat) (f : DsUnit → DsUnit) : Dev := d.setDs c (f (d.ds c))
def dsPage (c : Nat) : Page := pg (0x20 + c)
def Dev.lane (d : Dev) (c l : Nat) : Option Lane := SMap.get (fun _ => none) (d.ds c).lanes l
def Dev.setLane (d : Dev) (c l : Nat) (x : Option Lane) : Dev :=
  d.modDs c (fun u => { u with lanes := SMap.set (fun _ => none) u.lanes l x })
def Dev.kernel (d : Dev) (c e : Nat) : Option DsKernel := SMap.get (fun _ => none) (d.ds c).kernels e
def Dev.lmem (d : Dev) (c a : Nat) : Byte := SMap.get (fun _ => 0) (d.ds c).lmem a
def DsUnit.put (u : DsUnit) (a : Nat) (b : Byte) : DsUnit := { u with lmem := SMap.set (fun _ => 0) u.lmem a b }
/-- Write bytes into local memory. -/
def DsUnit.putAll (u : DsUnit) (a : Nat) : List Byte → DsUnit
  | [] => u
  | b :: bs => (u.put a b).putAll (a + 1) bs
/-- Bytes of local memory. -/
def Dev.lbytes (d : Dev) (c a n : Nat) : List Byte := (List.range n).map (fun i => d.lmem c (a + i))
/-- The running lanes of a cluster. -/
def DsUnit.running (u : DsUnit) : List Lane := u.lanes.filterMap (·.2)
/-- End of the code region, start of the frame pool (R272). -/
def Dev.codeEnd (d : Dev) (c : Nat) : Nat := d.rf (dsPage c) Reg.DS_LMEM_CFG 8 0 * 1024

/-- The lowest start from `lo` at which `size` bytes fit below `hi` between busy spans (start, size). -/
def firstFit (lo hi size : Nat) (busy : List (Nat × Nat)) : Option Nat :=
  ((lo :: (busy.map (fun b => b.1 + b.2)).insertionSort (· ≤ ·)).filter (fun s => lo ≤ s)).find? (fun s =>
    s + size ≤ hi && busy.all (fun b => !overlaps s size b.1 b.2))

/-! ## Kernels (R280, R281) -/

/-- Show a kernel entry in the table window (Table 12.9). -/
def Dev.showKernel (d : Dev) (c e : Nat) : Dev :=
  let p := dsPage c
  match d.kernel c e with
  | none => (List.range 4).foldl (fun d i => d.setTw p (e * 2 + 1) i 0) ((d.setTw p (e * 2) 2 0).setTw p (e * 2) 3 0)
  | some k =>
    let d := (d.setTw p (e * 2) 2 (word (k.base + 2 ^ 31))).setTw p (e * 2) 3 (word (k.codeBytes + k.constBytes))
    let d := (d.setTw p (e * 2 + 1) 0 (word k.cls)).setTw p (e * 2 + 1) 1 (word k.inMax)
    (d.setTw p (e * 2 + 1) 2 (word k.outMax)).setTw p (e * 2 + 1) 3 (word k.maxK)

/-- Store or forget a kernel. -/
def Dev.setKernel (d : Dev) (c e : Nat) (k : Option DsKernel) : Dev :=
  (d.modDs c (fun u => { u with kernels := SMap.set (fun _ => none) u.kernels e k })).showKernel c e

/-- A kernel of a header and its body, or the status of the refusal (R281, Table 12.3). -/
def kernelOf (h body : List Byte) : Sum Nat DsKernel :=
  let f (o n : Nat) := fieldLE h o n
  if f 0 4 ≠ 0x5053444B then .inl 1
  else if f 4 2 ≠ 1 || f 8 4 % 8 ≠ 0 || f 12 4 % 8 ≠ 0 || f 8 4 ≤ f 36 4 * 8 then .inl 4
  else if Config.crc32c (h.take 60 ++ body) ≠ f 60 4 then .inl 1
  else .inr { base := 0, codeBytes := f 8 4, constBytes := f 12 4, cls := f 6 1 + f 7 1 % 2 * 256, inMax := f 16 4, outMax := f 20 4,
              stateBytes := f 24 4, scratch := f 28 4, maxK := f 32 4, entry := f 36 4 }

/-- The end of a kernel command: STATUS, and the event where a load fails. -/
def Dev.kernelStatus (d : Dev) (c st : Nat) : Dev :=
  let d := d.setRf (dsPage c) Reg.DS_KERNEL_CMD 27 24 st
  if st = 0 || st = 3 then d else d.detect (dsPage c) Evt.DS_KERNEL_LOAD_ERR

/-- Read, check and place a kernel image (R281). -/
def Dev.loadKernel (d : Dev) (c e : Nat) : Dev :=
  let p := dsPage c
  if (d.kernel c e).isSome then d.kernelStatus c 3
  else
    let a := (d.tw p (e * 2) 0).toNat + d.tf p (e * 2) 1 15 0 * 2 ^ 32
    if targetOf a ≠ .dram && targetOf a ≠ .sram then d.kernelStatus c 4
    else
      let (d, _, h) := d.physRead a 64 (some (272 + c))
      let (d, _, body) := d.physRead (a + 64) (min (fieldLE h 8 4 + fieldLE h 12 4) 262144) (some (272 + c))
      match kernelOf h body with
      | .inl st => d.kernelStatus c st
      | .inr k =>
        let busy := (d.ds c).kernels.filterMap (fun x => x.2.map (fun k => (k.base, k.codeBytes + k.constBytes)))
        match firstFit 0 (d.codeEnd c) (k.codeBytes + k.constBytes) busy with
        | none => d.kernelStatus c 2
        | some b => ((d.modDs c (fun u => u.putAll b body)).setKernel c e (some { k with base := b })).kernelStatus c 0

/-- A job of the entry is queued or running: firmware's, a lane's or a bound ring item's. -/
def Dev.kernelBusy (d : Dev) (c e : Nat) : Bool :=
  (d.ds c).queue.any (fun j => j.entry == e) || (d.ds c).running.any (fun l => l.kernel == e) ||
    d.wk.items.any (fun i => decide (i.page? = some (dsPage c)) && engineOf i.desc == 4 && opOf i.desc == e &&
      (i.phase == .bound || i.phase == .running))

/-- KERNEL_LOAD: DSn_KERNEL_CMD with OP 1 and GO. -/
def Dev.kernelLoad (d : Dev) (c : Nat) : Dev := d.loadKernel c (d.rf (dsPage c) Reg.DS_KERNEL_CMD 5 0)

/-- KERNEL_UNLOAD: OP 2 and GO. -/
def Dev.kernelUnload (d : Dev) (c : Nat) : Dev :=
  let e := d.rf (dsPage c) Reg.DS_KERNEL_CMD 5 0
  if d.kernelBusy c e then d.kernelStatus c 3 else (d.setKernel c e none).kernelStatus c 0

/-! ## Jobs -/

def stateVaOf (x : BitVec 512) : Nat := (x.toNat >>> 384) % 2 ^ 48

/-- The DSP job of a ring item. -/
def Dev.dsJob (d : Dev) (i : Item) : DsJob :=
  { item := some (i.ring, i.seq), audio := none, entry := opOf i.desc, src := srcOf i.desc, len := lengthOf i.desc, dst := dstOf i.desc,
    stateVa := stateVaOf i.desc, arg0 := word (descF i.desc 56 31 0), arg1 := word (descF i.desc 60 31 0), ctx := word (ctxOf i.desc),
    asid := d.ringAsid i.ring, deadline := none, gen := i.engineState.toNat, parked := false, uj := 0 }

/-- A stream state block is in use by a running job of the cluster. -/
def Dev.stateBusy (d : Dev) (c va : Nat) : Bool :=
  va != 0 && (d.ds c).running.any (fun l => l.job.stateVa == va && (match d.kernel c l.kernel with | some k => k.stateBytes != 0 | none => false))

/-- A ring item waits for an earlier one of its cluster that names the same state block (R285). -/
def Dev.stateWaits (d : Dev) (c : Nat) (i : Item) : Bool :=
  d.stateBusy c (stateVaOf i.desc) ||
    (d.wk.items.takeWhile (fun j => !(j.ring == i.ring && j.seq == i.seq))).any (fun j =>
      decide (j.page? = some (dsPage c)) && engineOf j.desc == 4 && stateVaOf j.desc == stateVaOf i.desc && j.phase != .completed &&
        stateVaOf i.desc != 0)

/-- An item of the cluster parks or waits for a translation. -/
def Dev.dsParked (d : Dev) (c : Nat) (i : Item) : Dev :=
  d.modDs c (fun u => { u with parked := if u.parked.any (fun x => x == (i.ring, i.seq)) then u.parked else u.parked ++ [(i.ring, i.seq)] })

/-- DSP_KERNEL: a bound item is checked, reads its stream's generation and is recorded STARTED (R284, R285, Table 4.6). -/
def Dev.dspKernel (d : Dev) (ring seq : Nat) : Dev :=
  match d.item? ring seq with
  | none => d
  | some i =>
    if engineOf i.desc ≠ 4 || i.phase ≠ .bound || i.pend.isSome then d
    else match i.inst with
      | none => d
      | some c =>
        if 64 ≤ opOf i.desc then d.finishPlain ring seq .failed Cause.BAD_DESC
        else match d.kernel c (opOf i.desc) with
          | none => d.finishPlain ring seq .failed 0x70
          | some k =>
            if k.inMax < lengthOf i.desc then d.finishPlain ring seq .failed 0x73
            else if d.stateWaits c i then d
            else if i.recorded = .started then d.modItem ring seq (fun x => { x with phase := .running })
            else if k.stateBytes = 0 then
              (d.modItem ring seq (fun x => { x with phase := .running, engineState := 0 })).transition ring seq .started
            else match d.virtRead (whoDs c) (d.ringAsid ring) (stateVaOf i.desc) 8 with
              | (d, .ok, bs) =>
                (d.modItem ring seq (fun x => { x with phase := .running, engineState := BitVec.ofNat 64 (numLE bs) })).transition ring seq
                  .started
              | (d, .stop, _) => d.dsParked c i
              | (d, .fail cause, _) => d.finishPlain ring seq .failed cause

/-- Queue a firmware job on a cluster; it counts in INFLIGHT. -/
def Dev.queueAudio (d : Dev) (c : Nat) (j : DsJob) : Dev :=
  (d.modDs c (fun u => { u with queue := u.queue ++ [j] })).addInflight (dsPage c)

/-- A firmware job leaves its cluster: its reservation goes back. -/
def Dev.audioLeaves (d : Dev) (c : Nat) (j : DsJob) : Dev := (d.release j.uj).subInflight (dsPage c)

/-- Frame parts of a kernel: IN, OUT, STATE and SCRATCH offsets, and the size in all (R282). -/
def DsKernel.outOff (k : DsKernel) : Nat := ceilDiv k.inMax 64 * 64
def DsKernel.stateOff (k : DsKernel) : Nat := k.outOff + ceilDiv k.outMax 64 * 64
def DsKernel.scratchOff (k : DsKernel) : Nat := k.stateOff + ceilDiv k.stateBytes 64 * 64
def DsKernel.frameSize (k : DsKernel) : Nat := k.scratchOff + ceilDiv k.scratch 64 * 64
/-- Address of state copy g mod 2 (R285). -/
def DsKernel.copyAt (k : DsKernel) (va g : Nat) : Nat := va + 64 + g % 2 * (ceilDiv k.stateBytes 64 * 64)

/-- A lane as a job starts on it (R266, R282). -/
def Lane.start (j : DsJob) (k : DsKernel) (base : Nat) : Lane :=
  let a : Vector (BitVec 18) 16 := Vector.replicate 16 0
  let a := (((a.set 0 (BitVec.ofNat 18 base)).set 1 (BitVec.ofNat 18 (base + k.outOff))).set 2 (BitVec.ofNat 18 (base + k.stateOff))).set 3
    (BitVec.ofNat 18 (base + k.scratchOff))
  let r : Vector Word 16 := Vector.replicate 16 0
  let r := (((r.set 0 (word j.len)).set 1 j.arg0).set 2 j.arg1).set 3 j.ctx
  { job := j, kernel := j.entry, base := base, size := k.frameSize, d := r, ac := Vector.replicate 4 0, held := Vector.replicate 4 none, a := a,
    ofs := Vector.replicate 16 0, cbBase := Vector.replicate 8 0, cbLen := Vector.replicate 8 0, bexp := 0, ovf := 0, sat := false,
    bxEn := false, reps := [], pc := k.entry, count := 0 }

/-- What staging reads: the input, and for a stateful kernel the generation and the state copy. -/
def Dev.stageReads (d : Dev) (c : Nat) (j : DsJob) (k : DsKernel) : Dev × VRes × List Byte × Nat × List Byte :=
  match d.virtRead (whoDs c) j.asid j.src j.len with
  | (d, .ok, inp) =>
    if k.stateBytes = 0 then (d, .ok, inp, j.gen, [])
    else
      let g : Dev × VRes × Nat :=
        if j.item.isSome then (d, .ok, j.gen)
        else match d.virtRead (whoDs c) j.asid j.stateVa 8 with | (d, r, bs) => (d, r, numLE bs)
      match g with
      | (d, .ok, n) =>
        match d.virtRead (whoDs c) j.asid (k.copyAt j.stateVa n) k.stateBytes with
        | (d, r, st) => (d, r, inp, n, st)
      | (d, r, _) => (d, r, [], 0, [])
  | (d, r, _) => (d, r, [], 0, [])

/-- Stage a job into a frame and start a free lane (R282). `none`: no span of the pool fits its frame yet. -/
def Dev.stageJob (d : Dev) (c l : Nat) (j : DsJob) (k : DsKernel) : Dev × Option VRes :=
  let busy := (d.ds c).running.map (fun l => (l.base, l.size))
  match firstFit (d.codeEnd c) 262144 k.frameSize busy with
  | none => (d, none)
  | some base =>
    match d.stageReads c j k with
    | (d, .ok, inp, g, st) =>
      let d := d.modDs c (fun u => (u.putAll base inp).putAll (base + k.stateOff) st)
      (d.setLane c l (some (Lane.start { j with gen := g } k base)), some .ok)
    | (d, r, _) => (d, some r)

/-- The first waiting firmware job by deadline whose stream is free. -/
def Dev.firstDeadline (d : Dev) (c : Nat) : Option DsJob :=
  ((d.ds c).queue.filter (fun j => !d.stateBusy c j.stateVa)).foldl (fun (a : Option DsJob) j => match a with
    | none => some j
    | some b => if (j.deadline.getD 0) < (b.deadline.getD 0) then some j else a) none

/-- The first started ring item that is not on a lane. -/
def Dev.firstRingJob (d : Dev) (c : Nat) : Option Item :=
  d.wk.items.find? (fun i => decide (i.page? = some (dsPage c)) && engineOf i.desc == 4 && i.phase == .running && i.recorded == .started &&
    i.pend.isNone && (d.ds c).running.all (fun l => l.job.item != some (i.ring, i.seq)))

/-- Take a firmware job out of the queue. -/
def DsUnit.drop (u : DsUnit) (j : DsJob) : DsUnit := { u with queue := u.queue.erase j }

/-- JOB_STAGE: a free lane takes the firmware job of earliest deadline, or else the next ring item while fewer than
RING_LANES lanes run ring items (R282, R286). -/
def Dev.jobStage (d : Dev) (c : Nat) : Dev :=
  let u := d.ds c
  if (d.hdr (dsPage c)).rst then d
  else match (List.range 32).find? (fun l => (d.lane c l).isNone) with
    | none => d
    | some l =>
      match d.firstDeadline c with
      | some j =>
        (match d.kernel c j.entry with
        | none => (d.modDs c (fun u => u.drop j)).audioLeaves c j
        | some k =>
          match d.stageJob c l j k with
          | (d, none) => d
          | (d, some .ok) => d.modDs c (fun u => u.drop j)
          | (d, some .stop) => d
          | (d, some (.fail _)) => (d.modDs c (fun u => u.drop j)).audioLeaves c j)
      | none =>
        if d.rf (dsPage c) Reg.DS_CFG 5 0 ≤ (u.running.filter (fun x => x.job.item.isSome)).length then d
        else match d.firstRingJob c with
          | none => d
          | some i =>
            match d.kernel c (opOf i.desc) with
            | none => d.finishPlain i.ring i.seq .failed 0x70
            | some k =>
              match d.stageJob c l { d.dsJob i with parked := u.parked.any (fun x => x == (i.ring, i.seq)) } k with
              | (d, none) => d
              | (d, some .ok) => d.modDs c (fun u => { u with parked := u.parked.filter (fun x => x != (i.ring, i.seq)) })
              | (d, some .stop) => d.dsParked c i
              | (d, some (.fail cause)) => d.finishPlain i.ring i.seq .failed cause

/-- DEADLINE_MISS: a firmware job not bound to a lane by its deadline is discarded (R286). -/
def Dev.deadlineMiss (d : Dev) (c : Nat) : Dev :=
  match (d.ds c).queue.find? (fun j => match j.deadline with | some t => decide (t ≤ d.timeNs) | none => false) with
  | none => d
  | some j =>
    (((d.modDs c (fun u => u.drop j)).audioLeaves c j).bump (dsPage c) Reg.DS_LATE 15 0).detect (dsPage c) Evt.DS_DEADLINE_MISS

/-- LANE_HANG: a lane made no progress for HANG_MS (Table 12.7). -/
def Dev.laneHang (d : Dev) (c l : Nat) : Dev :=
  if (d.lane c l).isSome then d.detect (dsPage c) Evt.DS_LANE_HANG else d

/-- An item's COMPLETED is recorded: its stream's generation becomes g + 1 (R285). -/
def Dev.dsRecorded (d : Dev) (i : Item) : Dev :=
  match i.inst with
  | some c =>
    if engineOf i.desc = 4 && bit 3 i.result.flags then
      (d.virtWrite (whoDs c) (d.ringAsid i.ring) (stateVaOf i.desc) (bytesLE 8 (i.engineState.toNat + 1))).1
    else d
  | none => d

/-- An island reset of a cluster ends: every entry is unloaded, lanes and firmware's jobs are lost, and firmware reloads
entries 0–8 (R281). -/
def Dev.dsReset (d : Dev) (c : Nat) : Dev :=
  let own := (d.ds c).queue ++ ((d.ds c).running.map (·.job)).filter (·.item.isNone)
  let d := own.foldl (fun d j => d.audioLeaves c j) d
  let d := (List.range 64).foldl (fun d e => d.setKernel c e none) (d.setDs c DsUnit.reset)
  if d.fwRuns then (List.range 9).foldl (fun d e =>
    if d.tw (dsPage c) (e * 2) 0 = 0 && d.tf (dsPage c) (e * 2) 1 15 0 = 0 then d else d.loadKernel c e) d
  else d

/-! ## Audio packets that a leg's encode sends (Table 7.3) -/

def Dev.amLeg (d : Dev) (l : Nat) : AmLeg := SMap.get (fun _ => AmLeg.reset) d.am.legs l
def Dev.setAmLeg (d : Dev) (l : Nat) (x : AmLeg) : Dev := { d with am := { d.am with legs := SMap.set (fun _ => AmLeg.reset) d.am.legs l x } }
def Dev.amMix (d : Dev) (m : Nat) : AmMix := SMap.get (fun _ => AmMix.reset) d.am.mixes m
def Dev.setAmMix (d : Dev) (m : Nat) (x : AmMix) : Dev :=
  { d with am := { d.am with mixes := SMap.set (fun _ => AmMix.reset) d.am.mixes m x } }
/-- Frame length of a mix in 2.5 ms. -/
def Dev.mixQuarters (d : Dev) (m : Nat) : Nat := 2 ^ d.tf Pg.am m 0 2 1

/-- The packet of an encoded frame: encrypted under KEY_OUT and queued to the leg's egress (Table 7.3). Its SSRC is
signalling's, a free value (assumption log 26). -/
def Dev.audioSend (d : Dev) (l : Nat) (bytes : List Byte) : Dev :=
  let x := d.amLeg l
  if !d.legEn l || d.legLost l then d
  else
    let n := bytes.length
    let ssrc := word (Config.audioSsrc l)
    let next := (x.outSeq + 1) % 65536
    let d := d.setAmLeg l { x with outSeq := next, outTs := (x.outTs + d.mixQuarters x.mix * 120) % 2 ^ 32,
                                   roc := if next = 0 then x.roc + 1 else x.roc }
    if d.poolF < cellsFor n then d.dropCopy l
    else
      let r := d.inline (d.keyOut l)
        { leg := Fin.ofNat 8192 l, encrypt := true, rtcp := false, ssrc := ssrc, index := x.roc * 65536 + x.outSeq, authOk := true,
          bytes := n, cmp := .equal }
      if !r.2 then r.1.dropCopy l
      else
        let d := r.1
        let b := d.newBody { source := localSource, cells := d.freeCells (cellsFor n), data := bytes, done := true, err := false, refs := 0,
                             walking := false, inReserve := false, dropped := false, classified := true }
        let p : Pkt :=
          { body := b.2, header := none, len := n,
            hdr := { tagged := false, vid := 0, pcp := 0, dei := false, dstMac := none, srcMac := none, ip := 0, ttl := 0,
                     rtp := some { ssrc := ssrc, pt := 0, seq := x.outSeq, ts := x.outTs } },
            yellow := false, ver := none, nh := 0, assured := none, leg := some l, link := d.legLink l, source := localSource, stamp := 0,
            admitted := d.nowNs, held := false }
        match d.mediaQueue l with
        | none => (b.1.dropBody b.2).dropCopy l
        | some q =>
          let a := b.1.admitPkt q p
          if a.2 then (a.1.setTf Pg.px (legAddr l 0) 3 15 0 (min (a.1.legInflight l + 1) 65535)).sweepEgress l else a.1.dropCopy l

/-! ## Commands -/

/-- KERNEL_LOAD (R281). -/
def execKernelLoad (c : Cluster) (s : State) : Host.Outcome State Fault Refusal := s.on (·.kernelLoad c.val)
/-- KERNEL_UNLOAD (R281). -/
def execKernelUnload (c : Cluster) (s : State) : Host.Outcome State Fault Refusal := s.on (·.kernelUnload c.val)
/-- JOB_STAGE (R282). -/
def execJobStage (c : Cluster) (s : State) : Host.Outcome State Fault Refusal := s.on (·.jobStage c.val)
/-- DEADLINE_MISS (R286). -/
def execDeadlineMiss (c : Cluster) (s : State) : Host.Outcome State Fault Refusal := s.on (·.deadlineMiss c.val)
/-- LANE_HANG (R289). -/
def execLaneHang (l : LaneId) (s : State) : Host.Outcome State Fault Refusal := s.on (·.laneHang l.cluster.val l.lane.val)
/-- DSP_KERNEL (R284). -/
def execDspKernel (ring : RingNo) (seq : Nat) (s : State) : Host.Outcome State Fault Refusal := s.on (·.dspKernel ring.val seq)

end Sys2Proof.Machine
end

