-- ==== Sys2Proof/Machine/Lanes.lean ====
section
/-! DEFINITION. The lanes of a DSP cluster: their instructions, arithmetic, addressing and block repeats (R266 to R278,
R283, R287). -/

namespace Sys2Proof.Machine

/-! ## Encoding (R278) -/

/-- OP of an instruction word. -/
def opField (w : Nat) : Nat := w >>> 58 % 64

/-- Field [hi:lo] of an instruction word. -/
def wordBits (hi lo w : Nat) : Nat := (w >>> lo) % 2 ^ (hi - lo + 1)

/-- The operand fields of an instruction word. -/
def laneFields (w : Nat) : LaneFields :=
  { dd := Fin.ofNat 16 (wordBits 57 54 w), da := Fin.ofNat 16 (wordBits 53 50 w), db := Fin.ofNat 16 (wordBits 49 46 w),
    ac := Fin.ofNat 4 (wordBits 45 44 w), ha := wordBits 43 43 w == 1, hb := wordBits 42 42 w == 1, neg := wordBits 41 41 w == 1,
    an := Fin.ofNat 16 (wordBits 40 37 w), ofm := Fin.ofNat 16 (wordBits 36 33 w), pm := Fin.ofNat 4 (wordBits 32 31 w),
    ls := wordBits 30 30 w == 1, lsdir := wordBits 29 29 w == 1, lsw := wordBits 28 28 w == 1, lsd := Fin.ofNat 16 (wordBits 27 24 w),
    imm := BitVec.ofNat 24 w }

/-- The OP values of Table 12.2. -/
def laneOps : List Nat :=
  [0x00, 0x01, 0x02, 0x04, 0x05, 0x06, 0x07, 0x08, 0x09, 0x0A, 0x0B, 0x0C, 0x0D, 0x10, 0x11, 0x12, 0x13, 0x14, 0x15, 0x16, 0x17, 0x18,
   0x19, 0x1A, 0x1B, 0x1C, 0x1D, 0x1E, 0x20, 0x21, 0x22, 0x23, 0x28, 0x29, 0x2A, 0x2B, 0x2C, 0x2D, 0x30, 0x31, 0x32]

/-- Instructions without a slot. -/
def noSlot (op : Nat) : Bool := hasNat [0x01, 0x20, 0x21, 0x22, 0x23, 0x28, 0x29, 0x2A, 0x2B, 0x2C, 0x2D] op

/-! Fault subcauses (Table 12.6). -/
namespace Sub
abbrev ILLEGAL := 1
abbrev ACCESS := 2
abbrev ALIGN := 3
abbrev DEPTH := 4
abbrev PC := 5
end Sub

/-! ## Reading and arithmetic -/

def Lane.r (l : Lane) (n : Fin 16) : Word := l.d[n.val]
def Lane.setR (l : Lane) (n : Fin 16) (v : Word) : Lane := { l with d := l.d.set n.val v n.isLt }
def Lane.acc (l : Lane) (n : Fin 4) : BitVec 40 := l.ac[n.val]
/-- A half of a register as a signed 16-bit number. -/
def halfOf (w : Word) (hi : Bool) : Int := signed 16 (if hi then w.toNat / 65536 else w.toNat)
/-- IMM as a signed number. -/
def simm (f : LaneFields) : Int := f.imm.toInt
/-- Field [hi:lo] of IMM. -/
def immF (f : LaneFields) (hi lo : Nat) : Nat := wordBits hi lo f.imm.toNat

/-- Round half up and shift right (R270). -/
def narrow (v : Int) (s : Nat) : Int := if s = 0 then v else (v + 2 ^ (s - 1)) / 2 ^ s
/-- Saturate to a signed width; true where it saturates. -/
def satTo (n : Nat) (v : Int) : Int × Bool :=
  if v < -2 ^ (n - 1) then (-2 ^ (n - 1), true) else if 2 ^ (n - 1) - 1 < v then (2 ^ (n - 1) - 1, true) else (v, false)

/-- Headroom over a store width (R277). -/
def leadFrom (w : Nat) (s : Bool) : Nat → Nat
  | 0 => 0
  | n + 1 => if w.testBit n = s then 1 + leadFrom w s n else 0
def signRoom (n w : Nat) : Nat := leadFrom w (w.testBit (n - 1)) (n - 1)

/-- Write an accumulator explicitly: the value is stored and a hold ends (R269). -/
def Lane.load (l : Lane) (n : Fin 4) (v : Int) : Lane :=
  { l with ac := l.ac.set n.val (BitVec.ofInt 40 v) n.isLt, held := l.held.set n.val none n.isLt }

/-- Add into an accumulator (R269): unchanged while held; a guard overflow saturates, sets OVF and holds it while a block
repeat is active. -/
def Lane.accAdd (l : Lane) (n : Fin 4) (v : Int) : Lane :=
  if l.held[n.val].isSome then l
  else
    let s := satTo 40 ((l.acc n).toInt + v)
    let l := { l with ac := l.ac.set n.val (BitVec.ofInt 40 s.1) n.isLt }
    if s.2 then
      { l with ovf := l.ovf ||| BitVec.ofNat 4 (2 ^ n.val),
               held := if l.reps.isEmpty then l.held else l.held.set n.val (some l.reps.length) n.isLt }
    else l

/-- Note a saturation. -/
def Lane.markSat (l : Lane) (b : Bool) : Lane := { l with sat := l.sat || b }

/-- Products (R268). -/
def Lane.mul16 (l : Lane) (f : LaneFields) : Int := (if f.neg then -1 else 1) * (halfOf (l.r f.da) f.ha * halfOf (l.r f.db) f.hb)
def Lane.mul32 (l : Lane) (f : LaneFields) : Int := (if f.neg then -1 else 1) * narrow ((l.r f.da).toInt * halfOf (l.r f.db) f.hb) 15

/-- Second operand of ADD and SUB: DB, or IMM when HB = 1. -/
def Lane.addend (l : Lane) (f : LaneFields) : Int := if f.hb then simm f else (l.r f.db).toInt

/-- Store a saturating result. -/
def Lane.setSat (l : Lane) (n : Fin 16) (v : Int) : Lane := (l.setR n (BitVec.ofInt 32 (satTo 32 v).1)).markSat (satTo 32 v).2

/-! ## What an instruction does -/

/-- The outcome of an operation. -/
inductive LaneRes where
  /-- go on with the next instruction -/
  | next (l : Lane)
  /-- go to an instruction -/
  | jump (l : Lane) (target : Int)
  /-- go on behind a skipped repeat body, whose last instruction is `last` -/
  | skip (l : Lane) (last : Nat)
  | halt
  | fault (sub : Nat)
deriving DecidableEq, Repr

/-- A register result. -/
def Lane.put (l : Lane) (f : LaneFields) (v : Word) : LaneRes := .next (l.setR f.dd v)

def opNop (l : Lane) (_ : LaneFields) : LaneRes := .next l
def opHalt (_ : Lane) (_ : LaneFields) : LaneRes := .halt
def opMac16 (l : Lane) (f : LaneFields) : LaneRes := .next (l.accAdd f.ac (l.mul16 f))
def opMac32 (l : Lane) (f : LaneFields) : LaneRes := .next (l.accAdd f.ac (l.mul32 f))
def opMul16 (l : Lane) (f : LaneFields) : LaneRes := .next (l.load f.ac (l.mul16 f))
def opMul32 (l : Lane) (f : LaneFields) : LaneRes := .next (l.load f.ac (l.mul32 f))
/-- ACLD; `free` is what a shift above 8, which the spec does not state, leaves (assumption log 27). -/
def opAcld (free : Nat) (l : Lane) (f : LaneFields) : LaneRes :=
  .next (l.load f.ac (if immF f 3 0 ≤ 8 then (l.r f.da).toInt * 2 ^ (immF f 3 0) else (free : Int)))
def opAcclr (l : Lane) (f : LaneFields) : LaneRes := .next (l.load f.ac 0)
def opAcadd (l : Lane) (f : LaneFields) : LaneRes :=
  .next (l.accAdd f.ac ((if f.neg then -1 else 1) * (l.acc (Fin.ofNat 4 (immF f 1 0))).toInt))
def opAcgrd (l : Lane) (f : LaneFields) : LaneRes := l.put f (BitVec.ofInt 32 (signed 8 ((l.acc f.ac).toNat / 2 ^ 32)))
def opNarrow32 (l : Lane) (f : LaneFields) : LaneRes := .next (l.setSat f.dd (narrow (l.acc f.ac).toInt (immF f 4 0)))
/-- NARROW16 into a half; `free` stands for shifts above 39, which the spec does not state (assumption log 27). -/
def opNarrow16 (free : Nat) (l : Lane) (f : LaneFields) : LaneRes :=
  let s := satTo 16 (narrow (l.acc f.ac).toInt (immF f 5 0))
  let v := if immF f 5 0 ≤ 39 then unsigned 16 s.1 else free % 65536
  let w := if f.ha then putFld 31 16 v (l.r f.dd) else putFld 15 0 v (l.r f.dd)
  .next ((l.setR f.dd w).markSat (decide (immF f 5 0 ≤ 39) && s.2))
def opAdd (l : Lane) (f : LaneFields) : LaneRes := l.put f (BitVec.ofInt 32 ((l.r f.da).toInt + l.addend f))
def opAdds (l : Lane) (f : LaneFields) : LaneRes := .next (l.setSat f.dd ((l.r f.da).toInt + l.addend f))
def opSub (l : Lane) (f : LaneFields) : LaneRes := l.put f (BitVec.ofInt 32 ((l.r f.da).toInt - l.addend f))
def opSubs (l : Lane) (f : LaneFields) : LaneRes := .next (l.setSat f.dd ((l.r f.da).toInt - l.addend f))
def opAnd (l : Lane) (f : LaneFields) : LaneRes := l.put f (l.r f.da &&& l.r f.db)
def opOr (l : Lane) (f : LaneFields) : LaneRes := l.put f (l.r f.da ||| l.r f.db)
def opXor (l : Lane) (f : LaneFields) : LaneRes := l.put f (l.r f.da ^^^ l.r f.db)
def opAsr (l : Lane) (f : LaneFields) : LaneRes := l.put f ((l.r f.da).sshiftRight (immF f 4 0))
def opLsl (l : Lane) (f : LaneFields) : LaneRes := l.put f (l.r f.da <<< (immF f 4 0))
def opMin (l : Lane) (f : LaneFields) : LaneRes := l.put f (if (l.r f.da).toInt ≤ (l.r f.db).toInt then l.r f.da else l.r f.db)
def opMax (l : Lane) (f : LaneFields) : LaneRes := l.put f (if (l.r f.da).toInt ≤ (l.r f.db).toInt then l.r f.db else l.r f.da)
def opAbs (l : Lane) (f : LaneFields) : LaneRes :=
  .next (l.setSat f.dd (if (l.r f.da).toInt < 0 then -(l.r f.da).toInt else (l.r f.da).toInt))
def opMovi (l : Lane) (f : LaneFields) : LaneRes := l.put f (BitVec.ofInt 32 (simm f))
def opMovhi (l : Lane) (f : LaneFields) : LaneRes := l.put f (putFld 31 16 (immF f 15 0) (l.r f.dd))
def opNorm (l : Lane) (f : LaneFields) : LaneRes := l.put f (word (signRoom 32 (l.r f.da).toNat))
def opSeta (l : Lane) (f : LaneFields) : LaneRes := .next { l with a := l.a.set f.an.val (BitVec.ofNat 18 f.imm.toNat) f.an.isLt }
def opMova (l : Lane) (f : LaneFields) : LaneRes := .next { l with a := l.a.set f.an.val (BitVec.ofNat 18 (l.r f.da).toNat) f.an.isLt }
def opSetof (l : Lane) (f : LaneFields) : LaneRes := .next { l with ofs := l.ofs.set f.ofm.val (BitVec.ofNat 18 f.imm.toNat) f.ofm.isLt }
/-- SETCB; an AN below 8, for which the spec names no outcome, faults with ILLEGAL (assumption log 28). -/
def opSetcb (l : Lane) (f : LaneFields) : LaneRes :=
  if f.an.val < 8 then .fault Sub.ILLEGAL
  else if 2 ^ 18 ≤ f.imm.toNat then .fault Sub.ACCESS
  else
    let n := Fin.ofNat 8 f.an.val
    let v := BitVec.ofNat 18 f.imm.toNat
    .next (if f.ha then { l with cbLen := l.cbLen.set n.val v n.isLt } else { l with cbBase := l.cbBase.set n.val v n.isLt })
/-- REP (R275). -/
def opRep (l : Lane) (f : LaneFields) : LaneRes :=
  if 4 ≤ l.reps.length then .fault Sub.DEPTH
  else
    let body := immF f 11 0
    let n := if f.ha then (l.r f.da).toNat % 65536 else immF f 23 12
    if n = 0 || body = 0 then .skip l (l.pc + body)
    else .next { l with reps := { first := l.pc + 1, last := l.pc + body, left := n } :: l.reps }
def opBranch (taken : Word → Bool) (l : Lane) (f : LaneFields) : LaneRes :=
  if taken (l.r f.da) then .jump l ((l.pc : Int) + simm f) else .next l
def opBxclr (l : Lane) (_ : LaneFields) : LaneRes := .next { l with bexp := 31 }
def opBxrd (l : Lane) (f : LaneFields) : LaneRes := l.put f (word l.bexp)
def opBxen (l : Lane) (f : LaneFields) : LaneRes := .next { l with bxEn := immF f 0 0 == 1 }

/-! ## The load or store slot (R272 to R274, R277) -/

/-- Bytes of the slot's access. -/
def lsSize (f : LaneFields) : Nat := if f.lsw then 4 else 2

/-- Post-modification of An (R273); none: the access leaves its circular buffer. -/
def Lane.postMod (l : Lane) (f : LaneFields) : Option (BitVec 18) :=
  let a := (l.a[f.an.val]).toNat
  let inc : Int := match f.pm.val with
    | 0 => 0
    | 1 => (l.ofs[f.ofm.val]).toInt
    | 2 => lsSize f
    | _ => -(lsSize f : Int)
  let n := Fin.ofNat 8 f.an.val
  let base := (l.cbBase[n.val]).toNat
  let len := (l.cbLen[n.val]).toNat
  if 8 ≤ f.an.val && len ≠ 0 then
    if base ≤ a && a + lsSize f ≤ base + len then some (BitVec.ofInt 18 ((base : Int) + ((a : Int) - base + inc) % (len : Int)))
    else none
  else some (BitVec.ofInt 18 ((a : Int) + inc))

/-- May the lane access these bytes: its frame, or to read the code region (R272)? -/
def Dev.laneMay (d : Dev) (c : Nat) (l : Lane) (a n : Nat) (store : Bool) : Bool :=
  (l.base ≤ a && a + n ≤ l.base + l.size) || (!store && a + n ≤ d.codeEnd c)

/-- The slot after the operation: `old` is the lane before it, whose LSD a store writes (R278). -/
def Dev.slotAct (d : Dev) (c : Nat) (old l : Lane) (f : LaneFields) : Dev × Sum Nat Lane :=
  let a := (l.a[f.an.val]).toNat
  if a % lsSize f ≠ 0 then (d, .inl Sub.ALIGN)
  else match l.postMod f with
    | none => (d, .inl Sub.ALIGN)
    | some next =>
      if !d.laneMay c l a (lsSize f) f.lsdir then (d, .inl Sub.ACCESS)
      else
        let l := { l with a := l.a.set f.an.val next f.an.isLt }
        if f.lsdir then
          let v := (old.r f.lsd).toNat
          let w := 8 * lsSize f
          let l := if l.bxEn then { l with bexp := min l.bexp (signRoom w v) } else l
          (d.modDs c (fun u => u.putAll a (bytesLE (lsSize f) v)), .inr l)
        else
          let v := numLE (d.lbytes c a (lsSize f))
          (d, .inr (l.setR f.lsd (if f.lsw then word v else BitVec.ofInt 32 (signed 16 v))))

/-! ## Where the lane goes next (R275) -/

/-- Repeats left behind end, and holds that began under them (R269). -/
def Lane.dropReps (l : Lane) (rs : List Rep) : Lane :=
  { l with reps := rs, held := l.held.map (fun h => match h with
      | some n => if rs.length < n then none else some n
      | none => none) }

/-- After the instruction `last` of the innermost bodies: a body with passes left starts again, others end, the inner one
tested first. -/
def Lane.afterLast (l : Lane) (last : Nat) : List Rep → Lane × Nat
  | [] => (l.dropReps [], last + 1)
  | r :: rs =>
    if r.last = last then
      if 1 < r.left then (l.dropReps ({ r with left := r.left - 1 } :: rs), r.first) else l.afterLast last rs
    else (l.dropReps (r :: rs), last + 1)

/-- The repeats that a branch to `t` leaves in force: those around an outermost body that excludes it. -/
def keepReps (t : Int) (rs : List Rep) : List Rep :=
  ((rs.reverse).takeWhile (fun r => decide ((r.first : Int) ≤ t) && decide (t ≤ r.last))).reverse

/-! ## Ends of a job (R283, R287) -/

/-- A lane's job completes with a result, and the lane is free. -/
def Dev.laneEnds (d : Dev) (c l : Nat) (x : Lane) (st : Status) (cause flags r0 : Nat) (sub pc : Nat) (d1 : Word) : Dev :=
  let p := dsPage c
  let d := (d.setLane c l none).bump p Reg.DS_JOBS 31 0
  match x.job.item with
  | none => d.audioLeaves c x.job
  | some (r, s) =>
    match d.item? r s with
    | none => d
    | some i =>
      d.finish r s { i.plain st cause with
        flags := word flags, result0 := BitVec.ofNat 64 r0, result1 := BitVec.ofNat 64 x.count,
        eres := eresOf' [(0, d1.toNat), (4, (x.job.gen + 1) % 2 ^ 32), (8, pc), (12, sub)] }
where
  /-- ERES bytes from (byte, value) parts. -/
  eresOf' (parts : List (Nat × Nat)) : BitVec 128 := BitVec.ofNat 128 (parts.foldl (fun a x => a + x.2 * 2 ^ (8 * x.1)) 0)

/-- A lane fault or a job above its instruction limit: FAILED, no output, no state (R287). -/
def Dev.laneFault' (d : Dev) (c l : Nat) (x : Lane) (sub pc : Nat) (limit : Bool) : Dev :=
  let p := dsPage c
  let d := d.laneEnds c l x .failed (if limit then 0x72 else 0x71) (x.job.parked.toNat * 4) 0 sub (if limit then 0xFFFFFFFF else pc) 0
  let d := d.setReg p Reg.DS_FAULT_LAST (word (x.kernel + l * 2 ^ 6 + sub * 2 ^ 11 + limit.toNat * 2 ^ 15 + 2 ^ 31))
  (d.setRf p Reg.DS_FAULT_PC 15 0 (pc % 65536)).detect p (if limit then Evt.DS_RUN_LIMIT else Evt.DS_LANE_FAULT)

/-- 16-bit samples of a byte string. -/
def samplesOf : List Byte → List Int
  | a :: b :: bs => signed 16 (a.toNat + 256 * b.toNat) :: samplesOf bs
  | _ => []

/-- The output of a firmware job: a decoded frame for AM, or an encoded one to send (Table 7.3). A decode that ends after its
frame was mixed is discarded (R248). -/
def Dev.audioDone (d : Dev) (t : AudioTag) (out : List Byte) : Dev :=
  if t.enc then d.audioSend t.leg out
  else
    let x := d.amLeg t.leg
    if x.due && (d.amMix x.mix).openTick = some t.tick then d.setAmLeg t.leg { x with pcm := some (samplesOf out) } else d

/-- The writes at HALT: output, state, and for a firmware job the new generation (R283, R285). -/
def Dev.haltWrites (d : Dev) (c : Nat) (x : Lane) (k : DsKernel) (out : List Byte) : Dev × VRes :=
  match d.virtWrite (whoDs c) x.job.asid x.job.dst out with
  | (d, .ok) =>
    if k.stateBytes = 0 then (d, .ok)
    else match d.virtWrite (whoDs c) x.job.asid (k.copyAt x.job.stateVa (x.job.gen + 1)) (d.lbytes c (x.base + k.stateOff) k.stateBytes) with
      | (d, .ok) => if x.job.item.isSome then (d, .ok) else d.virtWrite (whoDs c) x.job.asid x.job.stateVa (bytesLE 8 (x.job.gen + 1))
      | r => r
  | r => r

/-- HALT (R283). A write that parks keeps the lane at its HALT until the command is taken up again. -/
def Dev.laneHalt (d : Dev) (c l : Nat) (x : Lane) : Dev :=
  match d.kernel c x.kernel with
  | none => d
  | some k =>
    let n := (x.r 0).toNat
    let x' := { x with count := x.count + 1 }
    if k.outMax < n then d.laneEnds c l x' .failed 0x74 (x.job.parked.toNat * 4) 0 0 0xFFFFFFFF (x.r 1)
    else
      let out := d.lbytes c (x.base + k.outOff) n
      match d.haltWrites c x k out with
      | (d, .stop) => d.setLane c l (some { x with job := { x.job with parked := true } })
      | (d, .fail cause) => d.laneEnds c l x' .failed cause (x.job.parked.toNat * 4) 0 0 0xFFFFFFFF (x.r 1)
      | (d, .ok) =>
        let ovf := x.ovf != 0
        let st := match x.job.item with
          | some (r, s) => (match d.item? r s with | some i => i.doneStatus | none => .done)
          | none => .done
        let flags := ovf.toNat + x.sat.toNat * 2 + x.job.parked.toNat * 4 + (if k.stateBytes = 0 then 0 else 8)
        let d := d.laneEnds c l x' st 0 flags n 0 0xFFFFFFFF (x.r 1)
        let p := dsPage c
        let d := if ovf then d.bump p Reg.DS_OVF_COUNT 15 0 else d
        let d := if x.sat then d.bump p Reg.DS_OVF_COUNT 31 16 else d
        let d := if ovf || x.sat then d.detect p Evt.DS_ACC_OVF else d
        match x.job.audio with
        | some t => d.audioDone t out
        | none => d

/-! ## Issue -/

/-- The instruction word at a lane's index. -/
def Dev.laneWord (d : Dev) (c : Nat) (x : Lane) : Nat :=
  match d.kernel c x.kernel with
  | some k => numLE (d.lbytes c (k.base + x.pc * 8) 8)
  | none => 0

/-- Instructions of the kernel a lane runs. -/
def Dev.laneLimit (d : Dev) (c : Nat) (x : Lane) : Nat := match d.kernel c x.kernel with | some k => k.codeBytes / 8 | none => 0

/-- The lane goes on at an instruction, or faults where its kernel's code ends (R278). -/
def Dev.laneAt (d : Dev) (c l : Nat) (x : Lane) (pc : Int) : Dev :=
  let x := { x with count := x.count + 1 }
  if 0 ≤ pc && pc < (d.laneLimit c x : Int) then d.setLane c l (some { x with pc := pc.toNat })
  else d.laneFault' c l x Sub.PC (unsigned 16 pc) false

/-- The load or store slot, where the instruction has one, and then what `k` does with the lane. -/
def Dev.withSlot (d : Dev) (c l : Nat) (old x : Lane) (f : LaneFields) (k : Dev → Lane → Dev) : Dev :=
  if !f.ls then k d x
  else match d.slotAct c old x f with
    | (d, .inl sub) => d.laneFault' c l old sub old.pc false
    | (d, .inr y) => k d y

/-- One instruction of a lane. The command names the instruction the lane has fetched; where the word at its index is
another one, or the lane runs no job, nothing happens. -/
def Dev.laneStep (d : Dev) (id : LaneId) (op : Nat) (f : LaneFields) (act : Lane → LaneFields → LaneRes) : Dev :=
  let c := id.cluster.val
  let l := id.lane.val
  match d.lane c l with
  | none => d
  | some x =>
    let w := d.laneWord c x
    if opField w ≠ op || laneFields w ≠ f then d
    else match d.kernel c x.kernel with
      | none => d
      | some k =>
        if k.maxK * 1000 ≤ x.count then d.laneFault' c l x 0 x.pc true
        else if noSlot op && f.ls then d.laneFault' c l x Sub.ILLEGAL x.pc false
        else match act x f with
          | .halt => d.laneHalt c l x
          | .fault sub => d.laneFault' c l x sub x.pc false
          | .jump y t => d.laneAt c l (y.dropReps (keepReps t y.reps)) t
          | .skip y last => let r := y.afterLast last y.reps; d.laneAt c l r.1 r.2
          | .next y =>
            d.withSlot c l x y f (fun d y =>
              -- a repeat that starts here has its body ahead
              if x.reps.length < y.reps.length then d.laneAt c l y (x.pc + 1 : Nat)
              else let r := y.afterLast x.pc y.reps; d.laneAt c l r.1 r.2)

/-- ILLEGAL_OP: the fetched word's OP is not in Table 12.2. -/
def Dev.illegalOp (d : Dev) (id : LaneId) (op : Nat) : Dev :=
  let c := id.cluster.val
  match d.lane c id.lane.val with
  | none => d
  | some x =>
    if opField (d.laneWord c x) ≠ op || hasNat laneOps op then d
    else match d.kernel c x.kernel with
      | none => d
      | some k =>
        if k.maxK * 1000 ≤ x.count then d.laneFault' c id.lane.val x 0 x.pc true
        else d.laneFault' c id.lane.val x Sub.ILLEGAL x.pc false

/-! ## Commands -/

/-- NOP (R278). -/
def execNopInstr (l : LaneId) (f : LaneFields) (s : State) : Host.Outcome State Fault Refusal :=
  s.on (·.laneStep l 0x00 f opNop)
/-- HALT (R278). -/
def execHalt (l : LaneId) (f : LaneFields) (s : State) : Host.Outcome State Fault Refusal :=
  s.on (·.laneStep l 0x01 f opHalt)
/-- LDST (R278). -/
def execLdst (l : LaneId) (f : LaneFields) (s : State) : Host.Outcome State Fault Refusal :=
  s.on (·.laneStep l 0x02 f opNop)
/-- MAC16 (R278). -/
def execMac16 (l : LaneId) (f : LaneFields) (s : State) : Host.Outcome State Fault Refusal :=
  s.on (·.laneStep l 0x04 f opMac16)
/-- MAC32 (R278). -/
def execMac32 (l : LaneId) (f : LaneFields) (s : State) : Host.Outcome State Fault Refusal :=
  s.on (·.laneStep l 0x05 f opMac32)
/-- MUL16 (R278). -/
def execMul16 (l : LaneId) (f : LaneFields) (s : State) : Host.Outcome State Fault Refusal :=
  s.on (·.laneStep l 0x06 f opMul16)
/-- MUL32 (R278). -/
def execMul32 (l : LaneId) (f : LaneFields) (s : State) : Host.Outcome State Fault Refusal :=
  s.on (·.laneStep l 0x07 f opMul32)
/-- ACLD (R278). -/
def execAcld (l : LaneId) (f : LaneFields) (s : State) : Host.Outcome State Fault Refusal :=
  s.on (fun d => d.drawn.laneStep l 0x08 f (opAcld (Config.freeNat d.fresh)))
/-- ACCLR (R278). -/
def execAcclr (l : LaneId) (f : LaneFields) (s : State) : Host.Outcome State Fault Refusal :=
  s.on (·.laneStep l 0x09 f opAcclr)
/-- ACADD (R278). -/
def execAcadd (l : LaneId) (f : LaneFields) (s : State) : Host.Outcome State Fault Refusal :=
  s.on (·.laneStep l 0x0A f opAcadd)
/-- ACGRD (R278). -/
def execAcgrd (l : LaneId) (f : LaneFields) (s : State) : Host.Outcome State Fault Refusal :=
  s.on (·.laneStep l 0x0B f opAcgrd)
/-- NARROW32 (R278). -/
def execNarrow32 (l : LaneId) (f : LaneFields) (s : State) : Host.Outcome State Fault Refusal :=
  s.on (·.laneStep l 0x0C f opNarrow32)
/-- NARROW16 (R278). -/
def execNarrow16 (l : LaneId) (f : LaneFields) (s : State) : Host.Outcome State Fault Refusal :=
  s.on (fun d => d.drawn.laneStep l 0x0D f (opNarrow16 (Config.freeNat d.fresh)))
/-- ADD (R278). -/
def execAdd (l : LaneId) (f : LaneFields) (s : State) : Host.Outcome State Fault Refusal :=
  s.on (·.laneStep l 0x10 f opAdd)
/-- ADDS (R278). -/
def execAdds (l : LaneId) (f : LaneFields) (s : State) : Host.Outcome State Fault Refusal :=
  s.on (·.laneStep l 0x11 f opAdds)
/-- SUB (R278). -/
def execSub (l : LaneId) (f : LaneFields) (s : State) : Host.Outcome State Fault Refusal :=
  s.on (·.laneStep l 0x12 f opSub)
/-- SUBS (R278). -/
def execSubs (l : LaneId) (f : LaneFields) (s : State) : Host.Outcome State Fault Refusal :=
  s.on (·.laneStep l 0x13 f opSubs)
/-- AND (R278). -/
def execLandI (l : LaneId) (f : LaneFields) (s : State) : Host.Outcome State Fault Refusal :=
  s.on (·.laneStep l 0x14 f opAnd)
/-- OR (R278). -/
def execLorI (l : LaneId) (f : LaneFields) (s : State) : Host.Outcome State Fault Refusal :=
  s.on (·.laneStep l 0x15 f opOr)
/-- XOR (R278). -/
def execLxorI (l : LaneId) (f : LaneFields) (s : State) : Host.Outcome State Fault Refusal :=
  s.on (·.laneStep l 0x16 f opXor)
/-- ASR (R278). -/
def execAsr (l : LaneId) (f : LaneFields) (s : State) : Host.Outcome State Fault Refusal :=
  s.on (·.laneStep l 0x17 f opAsr)
/-- LSL (R278). -/
def execLsl (l : LaneId) (f : LaneFields) (s : State) : Host.Outcome State Fault Refusal :=
  s.on (·.laneStep l 0x18 f opLsl)
/-- MIN (R278). -/
def execMinI (l : LaneId) (f : LaneFields) (s : State) : Host.Outcome State Fault Refusal :=
  s.on (·.laneStep l 0x19 f opMin)
/-- MAX (R278). -/
def execMaxI (l : LaneId) (f : LaneFields) (s : State) : Host.Outcome State Fault Refusal :=
  s.on (·.laneStep l 0x1A f opMax)
/-- ABS (R278). -/
def execAbs (l : LaneId) (f : LaneFields) (s : State) : Host.Outcome State Fault Refusal :=
  s.on (·.laneStep l 0x1B f opAbs)
/-- MOVI (R278). -/
def execMovi (l : LaneId) (f : LaneFields) (s : State) : Host.Outcome State Fault Refusal :=
  s.on (·.laneStep l 0x1C f opMovi)
/-- MOVHI (R278). -/
def execMovhi (l : LaneId) (f : LaneFields) (s : State) : Host.Outcome State Fault Refusal :=
  s.on (·.laneStep l 0x1D f opMovhi)
/-- NORM (R278). -/
def execNorm (l : LaneId) (f : LaneFields) (s : State) : Host.Outcome State Fault Refusal :=
  s.on (·.laneStep l 0x1E f opNorm)
/-- SETA (R278). -/
def execSeta (l : LaneId) (f : LaneFields) (s : State) : Host.Outcome State Fault Refusal :=
  s.on (·.laneStep l 0x20 f opSeta)
/-- MOVA (R278). -/
def execMova (l : LaneId) (f : LaneFields) (s : State) : Host.Outcome State Fault Refusal :=
  s.on (·.laneStep l 0x21 f opMova)
/-- SETOF (R278). -/
def execSetof (l : LaneId) (f : LaneFields) (s : State) : Host.Outcome State Fault Refusal :=
  s.on (·.laneStep l 0x22 f opSetof)
/-- SETCB (R278). -/
def execSetcb (l : LaneId) (f : LaneFields) (s : State) : Host.Outcome State Fault Refusal :=
  s.on (·.laneStep l 0x23 f opSetcb)
/-- REP (R278). -/
def execRep (l : LaneId) (f : LaneFields) (s : State) : Host.Outcome State Fault Refusal :=
  s.on (·.laneStep l 0x28 f opRep)
/-- BRA (R278). -/
def execBra (l : LaneId) (f : LaneFields) (s : State) : Host.Outcome State Fault Refusal :=
  s.on (·.laneStep l 0x29 f (opBranch (fun _ => true)))
/-- BZ (R278). -/
def execBz (l : LaneId) (f : LaneFields) (s : State) : Host.Outcome State Fault Refusal :=
  s.on (·.laneStep l 0x2A f (opBranch (fun v => v == 0)))
/-- BNZ (R278). -/
def execBnz (l : LaneId) (f : LaneFields) (s : State) : Host.Outcome State Fault Refusal :=
  s.on (·.laneStep l 0x2B f (opBranch (fun v => v != 0)))
/-- BLT (R278). -/
def execBlt (l : LaneId) (f : LaneFields) (s : State) : Host.Outcome State Fault Refusal :=
  s.on (·.laneStep l 0x2C f (opBranch (fun v => v.msb)))
/-- BGE (R278). -/
def execBge (l : LaneId) (f : LaneFields) (s : State) : Host.Outcome State Fault Refusal :=
  s.on (·.laneStep l 0x2D f (opBranch (fun v => !v.msb)))
/-- BXCLR (R278). -/
def execBxclr (l : LaneId) (f : LaneFields) (s : State) : Host.Outcome State Fault Refusal :=
  s.on (·.laneStep l 0x30 f opBxclr)
/-- BXRD (R278). -/
def execBxrd (l : LaneId) (f : LaneFields) (s : State) : Host.Outcome State Fault Refusal :=
  s.on (·.laneStep l 0x31 f opBxrd)
/-- BXEN (R278). -/
def execBxen (l : LaneId) (f : LaneFields) (s : State) : Host.Outcome State Fault Refusal :=
  s.on (·.laneStep l 0x32 f opBxen)
/-- ILLEGAL_OP (R278). -/
def execIllegalOp (l : LaneId) (op : BitVec 8) (s : State) : Host.Outcome State Fault Refusal := s.on (·.illegalOp l op.toNat)

end Sys2Proof.Machine
end

