-- ==== Sys2Proof/Machine/Audio.lean ====
section
/-! DEFINITION. The audio mixer AM (chapter 11): ticks and frames, who is heard, gains and ramps, silence, route
crossfades and recording taps. Gains and levels are in thousandths of a dB. -/

namespace Sys2Proof.Machine

/-! ## Table fields (Table 11.5) -/

def amLegAddr (l : Nat) : Nat := 0x1000 + l * 2
def Dev.mixEn (d : Dev) (m : Nat) : Bool := d.tb Pg.am m 0 0
def Dev.mixN (d : Dev) (m : Nat) : Nat := d.tf Pg.am m 0 6 3
def Dev.mixPhase (d : Dev) (m : Nat) : Nat := d.tf Pg.am m 0 12 8
def Dev.amEn (d : Dev) (l : Nat) : Bool := d.tb Pg.am (amLegAddr l) 0 0
def Dev.amSpeak (d : Dev) (l : Nat) : Bool := d.tb Pg.am (amLegAddr l) 0 1
def Dev.amHear (d : Dev) (l : Nat) : Bool := d.tb Pg.am (amLegAddr l) 0 2
def Dev.amPin (d : Dev) (l : Nat) : Bool := d.tb Pg.am (amLegAddr l) 0 3
def Dev.amSkip (d : Dev) (l : Nat) : Bool := d.tb Pg.am (amLegAddr l) 0 4
def Dev.amMute (d : Dev) (l : Nat) : Bool := d.tb Pg.am (amLegAddr l) 0 5
def Dev.inGain (d : Dev) (l : Nat) : Int := signed 11 (d.tf Pg.am (amLegAddr l) 1 10 0) * 100
def Dev.outGain (d : Dev) (l : Nat) : Int := signed 11 (d.tf Pg.am (amLegAddr l) 1 26 16) * 100
/-- RAMP_MS in samples of 48 kHz. -/
def Dev.rampLen (d : Dev) (l : Nat) : Nat := d.tf Pg.am (amLegAddr l) 2 6 0 * 48

/-! ## Gain factors (R252) -/

/-- The largest k below 2^n, built bit by bit from `acc`, with k^e × b ≤ a. -/
def rootBits (e a b : Nat) : Nat → Nat → Nat
  | 0, acc => acc
  | n + 1, acc => if (acc + 2 ^ n) ^ e * b ≤ a then rootBits e a b n (acc + 2 ^ n) else rootBits e a b n acc

/-- round(10^(g / (100 e)) × 2^22), g thousandths of a dB over e = 200, or any thousandth over 20,000. -/
def gainFactor (g : Int) : Nat :=
  let e := if g % 100 = 0 then 200 else 20000
  let x := if g % 100 = 0 then g / 100 else g
  (rootBits e (2 ^ (23 * e) * 10 ^ x.toNat) (10 ^ (-x).toNat) 27 0 + 1) / 2

/-- The factor of a gain; mute has 0. -/
def factorOf : Option Int → Nat
  | none => 0
  | some g => gainFactor g

/-- Value on the straight line of a ramp: from mute it starts at −60 dB, to mute it ends there (R255). -/
def rampLine (from_ to_ : Option Int) (pos total : Nat) : Int :=
  from_.getD (-60000) + (to_.getD (-60000) - from_.getD (-60000)) * (pos : Int) / (max total 1 : Nat)

/-- Value of a gain now. -/
def AmGain.now (g : AmGain) : Option Int :=
  match g.move with
  | .ramp f done total => if total ≤ done then g.target else some (rampLine f g.target done total)
  | _ => g.cur

/-- Factor of a gain at sample i of the frame that begins now. A ramp lies within 0.01 dB of its line; where, is free
(assumption log 29). -/
def AmGain.at (g : AmGain) (draw i : Nat) : Nat :=
  match g.move with
  | .ramp f done total =>
    if total ≤ done + i then factorOf g.target
    else gainFactor (rampLine f g.target (done + i) total + max (-10) (min 10 (Config.rampSlack draw i)))
  | .step n => if i < n then factorOf g.cur else factorOf g.target
  | _ => factorOf g.cur

/-- Factors over a frame of n samples. -/
def AmGain.track (g : AmGain) (draw n : Nat) : List Nat :=
  match g.move with
  | .still | .wait _ => List.replicate n (factorOf g.cur)
  | _ => (List.range n).map (g.at draw)

/-- The frame has passed: a ramp has gone on by n samples, a step has been taken. -/
def AmGain.after (g : AmGain) (n : Nat) : AmGain :=
  match g.move with
  | .ramp f done total => { g with move := .ramp f (min (done + n) total) total }
  | .step _ => { g with cur := g.target, move := .still }
  | _ => g

def AmGain.ramps (g : AmGain) : Bool := match g.move with | .ramp _ _ _ => true | _ => false

/-! ## Ramp generators (R255, R256) -/

/-- Generators in use. -/
def Dev.gensBusy (d : Dev) : Nat :=
  d.am.legs.foldl (fun a x => a + x.2.con.ramps.toNat + x.2.out.ramps.toNat + x.2.xfade.isSome.toNat) 0

def AmLeg.gain (x : AmLeg) (out : Bool) : AmGain := if out then x.out else x.con
def AmLeg.setGain (x : AmLeg) (out : Bool) (g : AmGain) : AmLeg := if out then { x with out := g } else { x with con := g }
def Dev.modGain (d : Dev) (l : Nat) (out : Bool) (f : AmGain → AmGain) : Dev :=
  d.setAmLeg l ((d.amLeg l).setGain out (f ((d.amLeg l).gain out)))

/-- Note the most generators in use. -/
def Dev.notePeak (d : Dev) : Dev := d.peak Pg.am Reg.AM_RAMP_PEAK 10 0 d.gensBusy

/-- Forget a wait. -/
def Dev.unwait (d : Dev) (l : Nat) (out : Bool) : Dev :=
  { d with am := { d.am with waitq := d.am.waitq.filter (fun w => !(w.1 == l && w.2 == out)) } }

/-- A gain waits for a generator or a zero crossing, at most 20 ms. -/
def Dev.waitGain (d : Dev) (l : Nat) (out : Bool) (target : Option Int) : Dev :=
  let d := d.modGain l out (fun g => { cur := g.now, target := target, move := .wait (d.timeNs + 20000000) })
  { d with am := { d.am with waitq := d.am.waitq ++ [(l, out)] } }

/-- A gain change (R255, R256). -/
def Dev.changeGain (d : Dev) (l : Nat) (out : Bool) (target : Option Int) : Dev :=
  let g := (d.amLeg l).gain out
  if g.target = target then d
  else match g.move with
    | .ramp _ _ _ => d.modGain l out (fun g => { g with target := target, move := .ramp g.now 0 (d.rampLen l) })
    | .wait _ => d.modGain l out (fun g => { g with target := target })
    | m =>
      let cur := match m with | .step _ => g.target | _ => g.cur
      if d.gensBusy < 1024 then (d.modGain l out (fun _ => { cur := cur, target := target, move := .ramp cur 0 (d.rampLen l) })).notePeak
      else ((d.modGain l out (fun g => { g with cur := cur, move := .still })).waitGain l out target).detect Pg.am Evt.AM_RAMP_EXHAUSTED

/-- A generator is free: the first waiting gain takes it. -/
def Dev.genFreed (d : Dev) : Dev :=
  match d.am.waitq with
  | [] => d
  | (l, out) :: ws =>
    if d.gensBusy < 1024 then
      (({ d with am := { d.am with waitq := ws } }.modGain l out (fun g => { g with move := .ramp g.cur 0 (d.rampLen l) }))).notePeak
    else d

/-- A leg whose EN fell has faded out: it leaves its mix (R261). -/
def Dev.leaveIfFaded (d : Dev) (l : Nat) : Dev :=
  let x := d.amLeg l
  if x.leaving && x.con.cur.isNone && x.con.move == .still && x.out.cur.isNone && x.out.move == .still then
    d.setAmLeg l { AmLeg.reset with outSeq := x.outSeq, outTs := x.outTs, roc := x.roc }
  else d

/-- RAMP_END: a ramp has reached its target; its generator is freed. -/
def Dev.rampEnd (d : Dev) (l : Nat) (out : Bool) : Dev :=
  match ((d.amLeg l).gain out).move with
  | .ramp _ done total =>
    if done < total then d
    else ((d.modGain l out (fun g => { g with cur := g.target, move := .still })).genFreed).leaveIfFaded l
  | _ => d

/-- ZERO_CROSSING: a waiting gain steps to its target at a sample of the open frame. -/
def Dev.zeroCrossing (d : Dev) (l : Nat) (out : Bool) (at_ : Nat) : Dev :=
  match ((d.amLeg l).gain out).move with
  | .wait _ => ((d.modGain l out (fun g => { g with move := .step at_ })).unwait l out).bump Pg.am Reg.AM_ZC_COUNT 15 0
  | _ => d

/-- ZC_TIMEOUT: 20 ms have passed. -/
def Dev.zcTimeout (d : Dev) (l : Nat) (out : Bool) : Dev :=
  match ((d.amLeg l).gain out).move with
  | .wait _ =>
    let d := (d.modGain l out (fun g => { g with cur := g.target, move := .still })).unwait l out
    ((d.bump Pg.am Reg.AM_ZC_COUNT 31 16).detect Pg.am Evt.AM_ZC_TIMEOUT).leaveIfFaded l
  | _ => d

/-! ## Route crossfades (R260) -/

/-- The gain ramp with the least time left: leg, output gain?, samples left. -/
def Dev.shortestRamp (d : Dev) : Option (Nat × Bool × Nat) :=
  let left (g : AmGain) : Option Nat := match g.move with | .ramp _ done total => some (total - done) | _ => none
  d.am.legs.foldl (fun a x =>
    [false, true].foldl (fun (a : Option (Nat × Bool × Nat)) o => match left (x.2.gain o), a with
      | some n, some (_, _, k) => if n < k then some (x.1, o, n) else a
      | some n, none => some (x.1, o, n)
      | none, _ => a) a) none

/-- A crossfade begins. With no generator free it takes that of the ramp with the least time left. -/
def Dev.startXfade (d : Dev) (l m : Nat) : Dev :=
  let d :=
    if d.gensBusy < 1024 then d
    else match d.shortestRamp with
      | some (k, o, _) => d.waitGain k o ((d.amLeg k).gain o).target
      | none => d
  let x := d.amLeg l
  let d := d.setAmLeg l { x with mix := m, xfade := some { old := x.mix, con := x.con.now, done := 0, total := d.rampLen l },
                                 con := AmGain.mute, nextMix := none }
  let o := d.amMix x.mix
  (((d.setAmMix x.mix { o with sel := o.sel.filter (· != l) }).unwait l false).bump Pg.am Reg.AM_XFADE_COUNT 31 0).notePeak

/-- CROSSFADE_END: the leg is on its new route; the last MIX write kept meanwhile takes effect. -/
def Dev.crossfadeEnd (d : Dev) (l : Nat) : Dev :=
  let x := d.amLeg l
  match x.xfade with
  | none => d
  | some f =>
    if f.done < f.total then d
    else
      let d := (d.setAmLeg l { x with xfade := none, nextMix := none }).genFreed
      match x.nextMix with
      | some m => if m = x.mix then d else d.startXfade l m
      | none => d

/-! ## Ticks (R246, R254, R265) -/

/-- The gain a selected leg contributes with. -/
def Dev.conTarget (d : Dev) (l : Nat) : Option Int := if d.amMute l then none else some (d.inGain l)

/-- A leg's control entry takes the words written (R254, R260, R261). -/
def Dev.legWrite (d : Dev) (l : Nat) (ws : List Word) : Dev :=
  let was := d.amEn l
  let a := amLegAddr l
  let d := (List.range 3).foldl (fun d i => d.setTw Pg.am a i (ws.getD i 0)) d
  let x := d.amLeg l
  let m := d.tf Pg.am a 0 25 16
  if !was && d.amEn l then
    let d := d.setAmLeg l (if x.active then { x with leaving := false } else { x with active := true, leaving := false, mix := m })
    d.changeGain l true (some (d.outGain l))
  else if was && !d.amEn l then
    let d := d.setAmLeg l { x with leaving := true }
    ((d.changeGain l false none).changeGain l true none).leaveIfFaded l
  else if !was then d
  else
    let d :=
      if x.xfade.isSome then d.setAmLeg l { x with nextMix := some m }
      else if m = x.mix then d else d.startXfade l m
    let d := d.changeGain l true (some (d.outGain l))
    if hasNat (d.amMix (d.amLeg l).mix).sel l then d.changeGain l false (d.conTarget l) else d

/-- The window writes take effect, each whole, at the tick (R265). -/
def Dev.applyWrites (d : Dev) : Dev :=
  let ws := d.am.writes
  ws.foldl (fun d w =>
    if w.1 < 0x400 then d.setTw Pg.am w.1 0 (w.2.getD 0 0) else d.legWrite ((w.1 - 0x1000) / 2) w.2) { d with am := { d.am with writes := [] } }

/-- The legs of a mix. -/
def Dev.mixLegs (d : Dev) (m : Nat) : List Nat := (d.am.legs.filter (fun x => x.2.active && x.2.mix == m)).map Prod.fst

/-- The legs fading from a mix. -/
def Dev.mixLeavers (d : Dev) (m : Nat) : List Nat :=
  (d.am.legs.filter (fun x => match x.2.xfade with | some f => f.old == m | none => false)).map Prod.fst

/-- The enabled mixes. -/
def Dev.mixesOn (d : Dev) : List Nat :=
  d.pages.tbl.filterMap (fun x =>
    let a := x.1 / 4 % 2 ^ 24
    if x.1 / 4 / 2 ^ 24 = Pg.am.val && x.1 % 4 = 0 && a < 0x400 && bit 0 x.2 then some a else none)

/-- Tick number of AM's generator (R246). -/
def Dev.amTickNo (d : Dev) : Nat := SMap.get (fun _ => 0) d.tu.nextK (d.rf Pg.am Reg.AM_CFG 4 0) - 1

/-- THRESH of silence, thousandths of a dB below full scale. -/
def Dev.silThresh (d : Dev) : Int := -(d.rf Pg.am Reg.AM_SIL_CFG 6 0 * 1000 : Nat)

/-- Milliseconds of a mix's frame, in 1/1,024 unit of class 3, 4 or 5. -/
def Dev.frameUnits (d : Dev) (m : Nat) : Nat := d.mixQuarters m * 2560

/-- A job that firmware queues for a leg's frame asks for admission and joins its cluster's queue, or is held (R176, R247). -/
def Dev.askAudio (d : Dev) (w : AudioWork) (enc : Bool) (len : Nat) (deadline : Int) (tick : Int) (units : Nat) : Dev :=
  let c := w.cluster.val
  match d.kernel c w.kernel.val with
  | none => d
  | some k =>
    let j : DsJob :=
      { item := none, audio := some { leg := w.leg.val, enc := enc, tick := tick }, entry := w.kernel.val, src := w.src.toNat, len := len,
        dst := w.dst.toNat, stateVa := w.stateVa.toNat, arg0 := w.arg0, arg1 := w.arg1, ctx := 0, asid := 0, deadline := some deadline,
        gen := 0, parked := false, uj := 0 }
    match d.admitJob { cls := k.cls % 64, units := units, fb := none, page := dsPage c, what := .audio c j } with
    | (d, some (_, e)) => d.queueAudio c { j with uj := e }
    | (d, none) => d

/-- The payload of a leg that is due by a tick: the oldest in its jitter store (R175). -/
def Dev.takePayload (d : Dev) (l : Nat) (tick : Int) : Dev × List Byte × Option Nat :=
  let x := d.legX l
  match x.store.find? (fun e => e.1 ≤ tick) with
  | none => (d, [], none)
  | some e =>
    (d.setLegX l { x with store := x.store.filter (fun y => e.1 < y.1), levels := x.levels.filter (fun y => e.1 < y.1) }, e.2,
      (x.levels.find? (fun y => y.1 == e.1)).map Prod.snd)

/-- The decode of one leg at its frame's tick: skipped for silence, or queued (R246, R258). -/
def Dev.legDecodeJob (d : Dev) (w : AudioWork) (tick : Int) : Dev :=
  let l := w.leg.val
  let x := d.amLeg l
  match d.takePayload l tick with
  | (d, bytes, level) =>
    let skip := d.rb Pg.am Reg.AM_CFG 8 && d.amSkip l && x.silent &&
      (match level with | some v => decide (-(v * 1000 : Int) ≤ d.silThresh) | none => false)
    if skip then
      (d.setAmLeg l { x with lastTick := tick, due := false }).bump Pg.am Reg.AM_SKIPPED 31 0 |>.bumpT Pg.am (amLegAddr l + 1) 3 31 0
    else
      let d := (d.physWrite w.src.toNat bytes (some 284)).1
      let d := d.setAmLeg l { x with lastTick := tick, due := true, pcm := none }
      d.askAudio w false bytes.length (tick + (d.rf Pg.am Reg.AM_DEADLINE 7 0 * 100000 : Nat)) tick (d.frameUnits x.mix)

/-- The mix job of one leg (R249, R259): silent legs that are not selected are charged none. -/
def Dev.legMixJob (d : Dev) (m l : Nat) : Dev :=
  let x := d.amLeg l
  if x.silent && !hasNat (d.amMix m).sel l then d
  else match d.admitJob { cls := 4, units := d.frameUnits m, fb := none, page := Pg.am, what := .mix l } with
    | (d, some (_, e)) => d.setAmLeg l { d.amLeg l with uj := e }
    | (d, none) => d

/-- D of a mixed leg follows its jitter by at most 2.5 ms a second, while the leg is silent (R175). -/
def Dev.adaptJitter (d : Dev) (l q : Nat) : Dev :=
  let a := legAddr l 2
  let x := d.legX l
  let now := d.tf Pg.px a 1 6 0
  let jmin := d.tf Pg.px a 0 6 0
  if !d.tb Pg.px a 0 16 then (if now = jmin then d else d.setTf Pg.px a 1 6 0 jmin)
  else if !(d.amLeg l).silent || d.nowNs < x.dAt + 1000000000 then d
  else
    let want := max jmin (min ((2 * x.jitter / 16 + q * 2500000) / 2500000) (d.tf Pg.px a 0 14 8))
    if want = now then d
    else (d.setLegX l { x with dAt := d.nowNs }).setTf Pg.px a 1 6 0 (if now < want then now + 1 else now - 1)

/-- A mix opens a frame at a tick. -/
def Dev.openMix (d : Dev) (m : Nat) (tick : Int) (jobs : List AudioWork) : Dev :=
  let ls := d.mixLegs m
  let d := d.setAmMix m { d.amMix m with openTick := some tick }
  let d := ls.foldl (fun d l => (d.adaptJitter l (d.mixQuarters m)).legMixJob m l) d
  (jobs.filter (fun w => hasNat ls w.leg.val)).foldl (fun d w => d.legDecodeJob w tick) d

/-- AM_TICK: window writes take effect, and the mixes due open a frame (R246, R265). -/
def Dev.amTick (d : Dev) (jobs : List AudioWork) : Dev :=
  if !(d.hdr Pg.am).state.serves then d
  else
    let tick := d.timeNs
    let d := { d with am := { d.am with tick := tick } }.applyWrites
    let k := d.amTickNo
    (d.mixesOn.filter (fun m => ((k : Int) - d.mixPhase m) % (d.mixQuarters m : Nat) == 0)).foldl (fun d m => d.openMix m tick jobs) d

/-! ## A frame (R248 to R253, R257) -/

/-- A list of exactly n samples. -/
def fitTo (n : Nat) (xs : List Int) : List Int := xs.take n ++ List.replicate (n - xs.length) 0

/-- A leg's input and the factors of its contribution over the frame: late frames fade the frame before (R248). -/
structure LegIn where
  leg : Nat
  x : List Int
  g : List Nat
deriving DecidableEq, Repr

/-- Factors of the fade from a gain to −60 dB across a frame. -/
def fadeTrack (from_ : Option Int) (n : Nat) : List Nat :=
  match from_ with
  | none => List.replicate n 0
  | some g => (List.range n).map (fun i => gainFactor (rampLine (some g) (some (-60000)) i n))

/-- A leg's frame arrives in time, late, or is not due. -/
def Dev.legInput (d : Dev) (n l : Nat) : Dev × LegIn :=
  let x := d.amLeg l
  match x.due, x.pcm with
  | true, none =>
    let g := fadeTrack x.con.now n
    let d := (d.setAmLeg l { x with con := AmGain.mute, faded := true }).unwait l false
    let d := (d.bump Pg.am Reg.AM_LATE_DEC 31 0).bumpT Pg.am (amLegAddr l + 1) 2 31 0
    (((d.detect Pg.am Evt.AM_DECODE_LATE).genFreed), { leg := l, x := fitTo n x.prev, g := g })
  | _, p =>
    let xs := fitTo n (p.getD [])
    let d :=
      if x.faded then
        let d := d.setAmLeg l { x with faded := false }
        if hasNat (d.amMix x.mix).sel l && !x.leaving then d.changeGain l false (d.conTarget l) else d
      else d
    (d, { leg := l, x := xs, g := ((d.amLeg l).con).track (d.fresh + l) n })

/-- Level and silence of a leg after a frame (R250, R257). -/
def Dev.measure (d : Dev) (q : Nat) (i : LegIn) : Dev :=
  let x := d.amLeg i.leg
  let lv := Config.rmsLevel i.x + d.inGain i.leg
  let decay : Int := (d.rf Pg.am Reg.AM_SEL_CFG 14 8 * q * 5 / 2 : Nat)
  let below := if lv < d.silThresh then x.below + q * 25 else 0
  let silent := decide (lv < d.silThresh) && (x.silent || decide (d.rf Pg.am Reg.AM_SIL_CFG 16 8 * 100 ≤ below))
  d.setAmLeg i.leg { x with level := some (match x.level with | some l => max lv (l - decay) | none => lv), below := below, silent := silent }

/-- Candidates of a mix (R250). -/
def Dev.candidate (d : Dev) (l : Nat) : Bool := d.amEn l && d.amSpeak l && !d.amMute l && !(d.amLeg l).silent

def Dev.levelOf (d : Dev) (l : Nat) : Int := (d.amLeg l).level.getD (-1000000)

/-- Legs by level descending, then index ascending. -/
def Dev.byLevel (d : Dev) (ls : List Nat) : List Nat :=
  ls.insertionSort (fun a b => d.levelOf b < d.levelOf a || (d.levelOf a = d.levelOf b && a ≤ b))

/-- The unpinned leg of lowest level; of equals the highest index. -/
def Dev.weakest (d : Dev) (sel : List Nat) : Option Nat :=
  (sel.filter (fun l => !d.amPin l)).foldl (fun (a : Option Nat) l => match a with
    | none => some l
    | some b => if d.levelOf l < d.levelOf b || (d.levelOf l = d.levelOf b && b < l) then some l else a) none

/-- loudest-N (R250). -/
def Dev.select (d : Dev) (m : Nat) : List Nat :=
  let cands := (d.mixLegs m).filter d.candidate
  let n := d.mixN m
  let hyst : Int := (d.rf Pg.am Reg.AM_SEL_CFG 3 0 * 1000 : Nat)
  let sel := (d.amMix m).sel.filter (fun l => hasNat cands l)
  let sel := (cands.filter d.amPin).foldl (fun (sel : List Nat) p => if !hasNat sel p && sel.length < n then sel ++ [p] else sel) sel
  (d.byLevel (cands.filter (fun c => !hasNat sel c))).foldl (fun (sel : List Nat) c =>
    if sel.length < n then sel ++ [c]
    else match d.weakest sel with
      | some w => if d.levelOf w + hyst ≤ d.levelOf c then sel.filter (· != w) ++ [c] else sel
      | none => sel) sel

/-- The new selection: legs entering and leaving change their gain (R251). -/
def Dev.reselect (d : Dev) (m : Nat) : Dev :=
  let old := (d.amMix m).sel
  let new := d.select m
  let ins := new.filter (fun l => !hasNat old l)
  let outs := old.filter (fun l => !hasNat new l)
  let n := ins.length + outs.length
  let d := (d.setAmMix m { d.amMix m with sel := new }).bump Pg.am Reg.AM_SEL_CHANGES 31 0 n |>.bumpT Pg.am m 3 31 0 n
  let d := ins.foldl (fun d l => if (d.amLeg l).faded then d else d.changeGain l false (d.conTarget l)) d
  outs.foldl (fun d l => d.changeGain l false none) d

/-- Contribution samples (R252). -/
def contrib (x : List Int) (g : List Nat) : List Int := List.zipWith (fun x (g : Nat) => (x * g + 8192) / 16384) x g

/-- A sample times a weight num/den; whether it rounds up is free (R260; assumption log 30). -/
def weigh (draw i num den : Nat) (v : Int) : Int :=
  v * (num : Int) / (max den 1 : Nat) + (if v * (num : Int) % (max den 1 : Nat) ≠ 0 && Config.fadeRound draw i then 1 else 0)

/-- The contributions to a mix over a frame: its legs' and those of legs fading from it. -/
def Dev.contribs (d : Dev) (m n : Nat) (ins : List LegIn) : List (Nat × List Int) :=
  (ins.filter (fun i => hasNat (d.mixLegs m) i.leg)).map (fun i => (i.leg, contrib i.x i.g)) ++
    (d.mixLeavers m).filterMap (fun l => match (d.amLeg l).xfade, ins.find? (fun i => i.leg == l) with
      | some f, some i => some (l, ((contrib (fitTo n i.x) (List.replicate n (factorOf f.con))).zipIdx).map (fun (y : Int × Nat) =>
          weigh d.fresh y.2 (f.total - min (f.done + y.2) f.total) f.total y.1))
      | _, _ => none)

/-- Sample-wise sum of contributions. -/
def sumOf (n : Nat) (cs : List (Nat × List Int)) : List Int :=
  cs.foldl (fun a c => List.zipWith (· + ·) a (fitTo n c.2)) (List.replicate n 0)

/-- One output value before saturation (R252). -/
def outValue (y : Int) (h : Nat) : Int := ((y * h + 2 ^ 21) / 2 ^ 22 + 128) / 256

/-- What a leg hears of a mix, before saturation: the sum less its own contribution. -/
def hears (s : List Int) (own : Option (List Int)) (h : List Nat) : List Int :=
  let y := match own with | some c => List.zipWith (· - ·) s c | none => s
  List.zipWith outValue y h

/-- A mix whose frame is being formed: number, samples, sum, contributions. -/
abbrev Formed := Nat × Nat × List Int × List (Nat × List Int)

/-- A leg's output over the frame: its mix-minus, a crossfade of two, or the faded last output while its mix job is held
(R249, R252, R260). -/
def Dev.legOutput (d : Dev) (fs : List Formed) (l : Nat) (f : Formed) (held : Bool) : List Int :=
  let x := d.amLeg l
  let n := f.2.1
  let h := x.out.track (d.fresh + 8192 + l) n
  let of_ (f : Formed) : List Int := fitTo n (hears f.2.2.1 ((f.2.2.2.find? (fun c => c.1 == l)).map Prod.snd) h)
  if held then contribFade (fitTo n x.prevOut) n
  else match x.xfade with
    | none => of_ f
    | some c =>
      let old := match fs.find? (fun g => g.1 == c.old) with | some g => of_ g | none => List.replicate n 0
      ((List.zip old (of_ f)).zipIdx).map (fun (y : (Int × Int) × Nat) =>
        let w := min (c.done + y.2) c.total
        weigh d.fresh (2 * y.2) (c.total - w) c.total y.1.1 + weigh d.fresh (2 * y.2 + 1) w c.total y.1.2)
where
  /-- The fade of R248 on an output frame. -/
  contribFade (xs : List Int) (n : Nat) : List Int :=
    List.zipWith (fun x (g : Nat) => (x * g + 2 ^ 21) / 2 ^ 22) xs (fadeTrack (some 0) n)

/-- Count the samples that saturate (R253). -/
def Dev.noteSat (d : Dev) (l n : Nat) : Dev :=
  if n = 0 then d
  else
    let d := ((d.bump Pg.am Reg.AM_SAT_COUNT 31 0 n).bumpT Pg.am (amLegAddr l + 1) 1 31 0 n).setReg Pg.am Reg.AM_SAT_LAST (word (l + 2 ^ 31))
    d.detect Pg.am Evt.AM_SATURATED

/-- 16-bit little-endian samples. -/
def pcmBytes (xs : List Int) : List Byte := xs.flatMap (fun x => bytesLE 2 (unsigned 16 x))

/-- One leg hears the frame: its output goes to its encode job (R247). -/
def Dev.legHears (d : Dev) (fs : List Formed) (f : Formed) (tick : Int) (jobs : List AudioWork) (l : Nat) : Dev :=
  let x := d.amLeg l
  let held := d.held.any (fun j => decide (j.what = .mix l))
  let v := d.legOutput fs l f held
  let out := v.map (fun y => (satTo 16 y).1)
  let sat := if held then 0 else (v.filter (fun y => (satTo 16 y).2)).length
  let n := f.2.1
  let d := (d.noteSat l sat).release x.uj
  let d := d.setAmLeg l { x with prevOut := out, uj := 0, con := x.con.after n, out := x.out.after n, due := false, pcm := none,
                                 xfade := x.xfade.map (fun c => { c with done := min (c.done + n) c.total }) }
  if !d.amHear l && !x.leaving then d
  else (jobs.filter (fun w => w.leg.val == l)).foldl (fun d w =>
    let d := (d.physWrite w.src.toNat (pcmBytes out) (some 284)).1
    d.askAudio w true (2 * n) (tick + (d.rf Pg.am Reg.AM_DEADLINE 23 16 * 100000 : Nat)) tick (d.frameUnits x.mix)) d

/-! ## Recording taps (R262) -/

def Dev.tap (d : Dev) (t : Nat) : List Byte := SMap.get (fun _ => []) d.am.taps t
/-- Set a tap's buffer; its request line is asserted while 256 bytes are there. -/
def Dev.setTap (d : Dev) (t : Nat) (bs : List Byte) : Dev :=
  let on := decide (256 ≤ bs.length)
  let d := { d with am := { d.am with taps := SMap.set (fun _ => []) d.am.taps t bs },
                    dx := { d.dx with lines := putBit (6 + t) on d.dx.lines } }
  d.setRb Pg.am Reg.AM_TAP_STAT t on

/-- A frame for a tap: stored whole, or dropped whole. -/
def Dev.tapFrame (d : Dev) (t : Nat) (xs : List Int) : Dev :=
  let bs := pcmBytes xs
  if 16384 < (d.tap t).length + bs.length then (d.setRb Pg.am Reg.AM_TAP_STAT (16 + t) true).detect Pg.am Evt.AM_TAP_OVERRUN
  else d.setTap t (d.tap t ++ bs)

/-- The taps of a formed mix. -/
def Dev.tapMix (d : Dev) (f : Formed) : Dev :=
  (List.range 4).foldl (fun d t =>
    let w := d.reg Pg.am (Reg.AM_TAP0_CFG + 4 * t)
    let src := fld 15 3 w
    if !bit 0 w then d
    else if !bit 1 w then if src = f.1 then d.tapFrame t (f.2.2.1.map (fun s => (satTo 16 (outValue s 4194304)).1)) else d
    else match f.2.2.2.find? (fun c => c.1 == src) with
      | some c => if (d.amLeg src).mix = f.1 then d.tapFrame t (c.2.map (fun s => (satTo 16 (outValue s 4194304)).1)) else d
      | none => d) d

/-! ## Forming -/

/-- Inputs, levels and selection of a mix's frame. -/
def Dev.gather (d : Dev) (m : Nat) : Dev × List LegIn :=
  let n := d.mixQuarters m * 120
  let d := d.drawn
  -- the selection runs on the levels of this frame, then each leg contributes under its gain
  let ls := d.mixLegs m
  let d := ls.foldl (fun d l =>
    let x := d.amLeg l
    if x.due && x.pcm.isNone then d else d.measure (d.mixQuarters m) { leg := l, x := fitTo n (x.pcm.getD []), g := [] }) d
  let d := d.reselect m
  ls.foldl (fun (a : Dev × List LegIn) l =>
    let r := a.1.legInput n l
    (r.1.setAmLeg l { r.1.amLeg l with prev := r.2.x }, a.2 ++ [r.2])) (d, [])

/-- MIX_FORM: every mix with an open frame is formed (R247 to R253). -/
def Dev.mixForm (d : Dev) (jobs : List AudioWork) : Dev :=
  if !(d.hdr Pg.am).state.serves then d
  else
    let open_ := (d.am.mixes.filter (fun x => x.2.openTick.isSome)).map (fun x => (x.1, x.2.openTick.getD 0))
    let g := open_.foldl (fun (a : Dev × List LegIn) m => let r := a.1.gather m.1; (r.1, a.2 ++ r.2)) (d, [])
    let d := g.1
    let fs : List Formed := open_.map (fun m =>
      let n := d.mixQuarters m.1 * 120
      let cs := d.contribs m.1 n g.2
      (m.1, n, sumOf n cs, cs))
    open_.foldl (fun d m => match fs.find? (fun f => f.1 == m.1) with
      | none => d
      | some f =>
        let d := (d.mixLegs m.1).foldl (fun d l => d.legHears fs f m.2 jobs l) d
        let d := d.tapMix f
        ((d.setAmMix m.1 { d.amMix m.1 with openTick := none }).bump Pg.am Reg.AM_FRAMES 31 0).bumpT Pg.am m.1 2 31 0) d

/-- MIX_LATE: a frame not formed by MIX_DL (R249). -/
def Dev.mixLate (d : Dev) (m : Nat) : Dev :=
  if (d.amMix m).openTick.isNone then d else (d.bump Pg.am Reg.AM_LATE_MIX 31 0).detect Pg.am Evt.AM_MIX_LATE

/-- MIX_HANG (Table 11.3). -/
def Dev.mixHang (d : Dev) : Dev := if d.am.mixes.any (fun x => x.2.openTick.isSome) then d.detect Pg.am Evt.AM_MIX_HANG else d

/-- An island reset of AM: every gain steps to its target, crossfades end on the new route, open frames are faded as late
(Table 11.3). -/
def Dev.amReset (d : Dev) : Dev :=
  let settle (g : AmGain) : AmGain := { cur := g.target, target := g.target, move := .still }
  let legs := d.am.legs.map (fun x => (x.1, { x.2 with con := settle x.2.con, out := settle x.2.out, xfade := none, nextMix := none, pcm := none }))
  let d := { d with am := { d.am with legs := legs, waitq := [] } }
  (legs.map Prod.fst).foldl (fun d l => d.leaveIfFaded l) d

/-! ## Window writes (R246, R254, R261, R265) -/

/-- A mix entry's write is refused: FRAME and PHASE under EN = 1, EN to 0 while a leg names it, N or PHASE reserved. -/
def Dev.mixRefused (d : Dev) (m : Nat) (w : Word) : Bool :=
  let old := d.tw Pg.am m 0
  let moved := fld 2 1 w != fld 2 1 old || fld 12 8 w != fld 12 8 old
  fld 6 3 w = 0 || 8 < fld 6 3 w || 7 < fld 12 8 w || (bit 0 old && moved) ||
    (bit 0 old && !bit 0 w && d.am.legs.any (fun x => x.2.active && x.2.mix == m))

/-- A leg entry's write is refused: a gain outside −60.0 to +12.0 dB, RAMP_MS outside 1–100. -/
def legRefused (w1 w2 : Word) : Bool :=
  let bad (v : Nat) : Bool := signed 11 v < -600 || 120 < signed 11 v
  bad (fld 10 0 w1) || bad (fld 26 16 w1) || fld 6 0 w2 = 0 || 100 < fld 6 0 w2

/-- A write through AM's window: refused, or applied at the next tick. -/
def Dev.amWindowWrite (d : Dev) (a : Nat) (ws : List Word) : Dev :=
  let refuse := d.detect Pg.am Evt.AM_TABLE_REFUSED
  let keep := { d with am := { d.am with writes := d.am.writes ++ [(a, ws)] } }
  if a < 0x400 then if d.mixRefused a (ws.getD 0 0) then refuse else keep
  else if 0x1000 ≤ a && a % 2 = 0 then if legRefused (ws.getD 1 0) (ws.getD 2 0) then refuse else keep
  else d

/-! ## Commands -/

/-- AM_TICK (R246). -/
def execAmTick (jobs : List AudioWork) (s : State) : Host.Outcome State Fault Refusal := s.on (·.amTick jobs)
/-- MIX_FORM (R248). -/
def execMixForm (jobs : List AudioWork) (s : State) : Host.Outcome State Fault Refusal := s.on (·.mixForm jobs)
/-- MIX_LATE (R249). -/
def execMixLate (mix : Fin 1024) (s : State) : Host.Outcome State Fault Refusal := s.on (·.mixLate mix.val)
/-- RAMP_END (R255). -/
def execRampEnd (leg : Fin 8192) (out : Bool) (s : State) : Host.Outcome State Fault Refusal := s.on (·.rampEnd leg.val out)
/-- ZERO_CROSSING (R256). -/
def execZeroCrossing (leg : Fin 8192) (out : Bool) (at_ : Nat) (s : State) : Host.Outcome State Fault Refusal :=
  s.on (·.zeroCrossing leg.val out at_)
/-- ZC_TIMEOUT (R256). -/
def execZcTimeout (leg : Fin 8192) (out : Bool) (s : State) : Host.Outcome State Fault Refusal := s.on (·.zcTimeout leg.val out)
/-- CROSSFADE_END (R260). -/
def execCrossfadeEnd (leg : Fin 8192) (s : State) : Host.Outcome State Fault Refusal := s.on (·.crossfadeEnd leg.val)
/-- MIX_HANG (R263). -/
def execMixHang (s : State) : Host.Outcome State Fault Refusal := s.on (·.mixHang)

end Sys2Proof.Machine
end

