-- ==== Sys2Proof/Machine/Phase.lean ====
section
/-! DEFINITION. How far the boot has come: the stages of Table 21.3 and CC_BOOT_STAT (R492, R493). -/

namespace Sys2Proof.Machine

/-- A unit for which the boot waits no longer: up, sitting out, or handled as FAULTED (R493). -/
def PState.settled (s : PState) : Bool := s.serves || s == .sitOut || s == .faulted

/-- The pages of a stage. -/
def stagePages (n : Nat) : List Page := ((List.range 61).map pg).filter (fun p => kindOf p != .dir && stageOf (kindOf p) == n)

/-- Every unit of a stage has settled. -/
def Dev.stageDone (d : Dev) (n : Nat) : Bool := (stagePages n).all (fun p => (d.hdr p).state.settled)

/-- The phase that the boot has reached: 0 SK, 1 TRAINING, 2 FIRMWARE, 3 DOMAINS, 4 ENCORE, 5 NET_READY (Table 21.6). -/
def Dev.phaseNow (d : Dev) : Nat :=
  if !d.sys.ccReleased then (if d.sys.stage ≤ 1 then 0 else 1)
  else if d.sys.stage ≤ 3 then 2
  else if d.sys.stage < 6 || !d.stageDone 6 then 3
  else if d.sys.encoreRunning then 4
  else 5

/-- PHASE only rises during a boot; BOOT_MS is taken when it reaches NET_READY. -/
def Dev.notePhase (d : Dev) : Dev :=
  let old := d.rf Pg.cc Reg.CC_BOOT_STAT 2 0
  let d1 := d.peak Pg.cc Reg.CC_BOOT_STAT 2 0 d.phaseNow
  if old < 5 && d.phaseNow = 5 then d1.setRf Pg.cc Reg.CC_BOOT_STAT 31 16 (min 65535 ((d.nowNs - d.sys.bootAt) / 1000000)) else d1

end Sys2Proof.Machine
end

