-- ==== Sys2Proof/Machine/VideoOps.lean ====
section
/-! DEFINITION. Operations on video engines and stream contexts that decode and encode share (chapters 8 and 9). -/

namespace Sys2Proof.Machine

/-- A video engine. -/
def Dev.veng (d : Dev) (e : Nat) : VEng := SMap.get (fun _ => VEng.reset) d.ves e
/-- Replace a video engine. -/
def Dev.setVeng (d : Dev) (e : Nat) (v : VEng) : Dev := { d with ves := SMap.set (fun _ => VEng.reset) d.ves e v }
/-- A stream context by handle, engine × 512 + context (R182). -/
def Dev.vctxOf (d : Dev) (h : Nat) : VCtx := SMap.get (fun _ => VCtx.reset) d.vctx h
/-- Replace a stream context. -/
def Dev.setVctx (d : Dev) (h : Nat) (c : VCtx) : Dev := { d with vctx := SMap.set (fun _ => VCtx.reset) d.vctx h c }

/-- Page of a handle's engine. -/
def vePage (h : Nat) : Page := pg (0x10 + h / 512)
/-- Table address of entry k of a handle's context. -/
def ctxAddr (h k : Nat) : Nat := h % 512 * 4 + k

def Dev.ctxValid (d : Dev) (h : Nat) : Bool := d.tb (vePage h) (ctxAddr h 0) 0 0
def Dev.ctxEncode (d : Dev) (h : Nat) : Bool := d.tb (vePage h) (ctxAddr h 0) 0 1
def Dev.ctxHevc (d : Dev) (h : Nat) : Bool := d.tb (vePage h) (ctxAddr h 0) 0 2
def Dev.ctxFmt (d : Dev) (h : Nat) : Nat := d.tf (vePage h) (ctxAddr h 0) 0 5 4
def Dev.poolBase (d : Dev) (h : Nat) : Nat :=
  d.tf (vePage h) (ctxAddr h 0) 1 31 12 * 4096 + d.tf (vePage h) (ctxAddr h 0) 2 4 0 * 2 ^ 32
def Dev.poolSlots (d : Dev) (h : Nat) : Nat := d.tf (vePage h) (ctxAddr h 0) 2 20 16
/-- MAX_W or WIDTH, MAX_H or HEIGHT. -/
def Dev.ctxW (d : Dev) (h : Nat) : Nat := d.tf (vePage h) (ctxAddr h 0) 3 12 0
def Dev.ctxH (d : Dev) (h : Nat) : Nat := d.tf (vePage h) (ctxAddr h 0) 3 28 16

/-- Round up to a multiple. -/
def roundUp (a b : Nat) : Nat := ceilDiv a b * b

/-- Bytes per sample in a context's pool (R183, R207). -/
def Dev.ctxB (d : Dev) (h : Nat) : Nat :=
  if d.ctxEncode h then (if d.ctxFmt h = 0 then 1 else 2) else (if d.ctxFmt h = 0 || d.ctxFmt h = 2 then 1 else 2)
/-- Pitch of a pool slot (R183). -/
def Dev.slotPitch (d : Dev) (h : Nat) : Nat := roundUp (d.ctxW h * d.ctxB h) 256
/-- Size of a pool slot (R183). -/
def Dev.slotSize (d : Dev) (h : Nat) : Nat :=
  roundUp (d.slotPitch h * d.ctxH h * 3 / 2 + d.ctxW h * d.ctxH h / 16) 4096
/-- Address of a pool slot. -/
def Dev.slotAddr (d : Dev) (h s : Nat) : Nat := d.poolBase h + s * d.slotSize h

/-- A compositor's hidden state. -/
def Dev.cpUnit (d : Dev) (c : Nat) : CpUnit := SMap.get (fun _ => CpUnit.reset) d.cps c
def Dev.setCpUnit (d : Dev) (c : Nat) (u : CpUnit) : Dev := { d with cps := SMap.set (fun _ => CpUnit.reset) d.cps c u }

/-- Slots that frames being composed hold of a context's pool (R183). -/
def Dev.latchedSlots (d : Dev) (h : Nat) : List Nat :=
  (List.range 4).flatMap (fun c => (d.cpUnit c).frames.flatMap (fun f => f.layers.filterMap (fun l => match l with
    | .video h' s _ _ _ _ _ _ _ _ => if h' = h then some s else none
    | _ => none)))

/-- Slots a generation keeps in use. -/
def VGen.slots (g : VGen) : List Nat := g.dpb.filterMap (·.slot) ++ g.outSlot.toList

/-- Slots of a context in use (R183, R186). -/
def Dev.slotsInUse (d : Dev) (h : Nat) : List Nat :=
  let c := d.vctxOf h
  c.cur.slots ++ c.pend.flatMap (fun x => x.2.slots) ++
    ((d.veng (h / 512)).bound.filter (fun p => p.job.ctx == h % 512)).flatMap (fun p => p.gen.slots ++ p.slot.toList) ++
    d.latchedSlots h

/-- The lowest free slot. -/
def Dev.freeSlot (d : Dev) (h : Nat) : Option Nat :=
  (List.range (d.poolSlots h)).find? (fun s => !hasNat (d.slotsInUse h) s)

/-- The generation the next job of a context is bound against: that of its last bound or unrecorded job (R186). -/
def Dev.workGen (d : Dev) (h : Nat) : VGen :=
  let c := d.vctxOf h
  match ((d.veng (h / 512)).bound.filter (fun p => p.job.ctx == h % 512)).getLast? with
  | some p => p.gen
  | none => match c.pend.getLast? with
    | some x => x.2
    | none => c.cur

/-- Show the current generation in the read-only words of the context entry (Tables 8.8 and 9.8). -/
def Dev.showCtx (d : Dev) (h : Nat) : Dev :=
  let g := (d.vctxOf h).cur
  let p := vePage h
  if d.ctxEncode h then
    let d := d.setTw p (ctxAddr h 2) 1 (word (unsigned 32 g.lastPoc))
    let d := d.setTw p (ctxAddr h 2) 2 (word g.debt)
    d.setTw p (ctxAddr h 2) 3 (word (min g.run 15 + g.meanQp % 64 * 2 ^ 8 + (g.band.getD 0) % 128 * 2 ^ 16 +
      g.resync.toNat * 2 ^ 24 + g.refreshPend.toNat * 2 ^ 25))
  else
    let d := d.setTw p (ctxAddr h 1) 1 (word (unsigned 32 g.lastPoc))
    d.setTw p (ctxAddr h 1) 2 (word (g.dpb.length % 32 + (g.dpb.any (·.conc)).toNat * 2 ^ 8 +
      (d.slotsInUse h).dedup.length % 512 * 2 ^ 16))

/-- A generation becomes current (R186). -/
def Dev.makeCurrent (d : Dev) (h : Nat) (g : VGen) : Dev :=
  let d := d.setVctx h { d.vctxOf h with cur := g }
  let p := vePage h
  let k := if d.ctxEncode h then 2 else 1
  (d.bumpT p (ctxAddr h k) 0 15 0).showCtx h

/-- The picture of a recorded item goes to PX whole (R219). -/
def Dev.emitRecorded (d : Dev) (h jobId : Nat) : Dev :=
  let c := d.vctxOf h
  match c.emits.find? (fun x => x.job == jobId) with
  | none => d
  | some x =>
    (d.setVctx h { c with emits := c.emits.filter (fun y => y.job != jobId) }).handOver
      { source := x.source, enc := x.enc, stamp := x.stamp, tid := x.tid, ptype := x.ptype, switchPt := x.switchPt, first := true,
        last := true, packets := [x.size] }

/-- A ring item's COMPLETED has been recorded: the generation its job made becomes current, and those before it with
it (R97, R186). -/
def Dev.videoRecorded (d : Dev) (h jobId : Nat) : Dev :=
  let d := d.emitRecorded h jobId
  let c := d.vctxOf h
  match c.pend.find? (fun x => x.1 == jobId) with
  | none => d
  | some x => (d.setVctx h { c with pend := (c.pend.dropWhile (fun y => y.1 != jobId)).drop 1 }).makeCurrent h x.2

/-- Put a job at the end of an engine's queue. A job without a ring counts in INFLIGHT here; a ring item does from its
dispatch. -/
def Dev.queueVideo (d : Dev) (h : Nat) (j : VJob) : Dev :=
  let v := d.veng (h / 512)
  let d := d.setVeng (h / 512) { v with queue := v.queue ++ [{ j with id := v.nextId, ctx := h % 512 }], nextId := v.nextId + 1 }
  if j.item.isNone then d.addInflight (vePage h) else d

/-- A context has a job queued or bound. -/
def Dev.ctxBusy (d : Dev) (h : Nat) : Bool :=
  let v := d.veng (h / 512)
  v.queue.any (fun j => j.ctx == h % 512) || v.bound.any (fun p => p.job.ctx == h % 512)

/-- Replace the front bound picture. -/
def Dev.setFront (d : Dev) (e : Nat) (p : VPic) : Dev :=
  let v := d.veng e
  d.setVeng e { v with bound := p :: v.bound.drop 1 }

/-- Drop the front bound picture; its job leaves the engine. -/
def Dev.dropFront (d : Dev) (e : Nat) : Dev :=
  let v := d.veng e
  let d1 := d.setVeng e { v with bound := v.bound.drop 1 }
  match v.bound with
  | p :: _ => if p.job.item.isNone then (d1.release p.job.uj).subInflight (pg (0x10 + e)) else d1
  | [] => d1

/-- Pixels a picture is charged (R188). -/
def chargedPixels (w h : Nat) : Nat := max (w * h) 230400

/-- Drop log entries older than a window and add one. -/
def logAdd (l : List (Nat × Nat)) (now window v : Nat) : List (Nat × Nat) :=
  (now, v) :: l.filter (fun x => now < x.1 + window)

/-- Sum of a log over its window. -/
def logSum (l : List (Nat × Nat)) (now window : Nat) : Nat :=
  (l.filter (fun x => now < x.1 + window)).foldl (fun a x => a + x.2) 0

/-- Is the ring item of a job ready for the engine to act: the transition is recorded, none is awaited (R94)? -/
def Dev.itemActs (d : Dev) (it : Option (Nat × Nat)) (st : LState) : Bool :=
  match it with
  | none => true
  | some (r, s) => match d.item? r s with
    | some i => i.recorded == st && i.pend == none
    | none => false

/-- Bytes a codec produces. -/
def Dev.codedBytes (d : Dev) (n : Nat) : Dev × List Byte :=
  (d.drawn, (List.range n).map (Config.codedByte d.fresh))

/-- A ring item whose handle does not name a usable context of this engine (R182). -/
def Dev.ctxInvalid (d : Dev) (i : Item) (encode : Bool) : Bool :=
  let h := ctxOf i.desc
  8192 ≤ h || (instanceOf i.desc ≠ 0xFF && instanceOf i.desc ≠ h / 512) || !d.ctxValid h || d.ctxEncode h != encode

/-- Fail a ring item with an engine cause. -/
def Dev.failItem (d : Dev) (it : Option (Nat × Nat)) (cause : Nat) : Dev :=
  match it with
  | some (r, s) => d.finishPlain r s .failed cause
  | none => d

/-- A VE result of 16 ERES bytes from (byte, value) parts. -/
def eresOf (parts : List (Nat × Nat)) : BitVec 128 :=
  BitVec.ofNat 128 (parts.foldl (fun a x => a + x.2 * 2 ^ (8 * x.1)) 0)

end Sys2Proof.Machine
end

