-- ==== Sys2Proof/Machine/VideoDecode.lean ====
section
/-! DEFINITION. Video decoding (chapter 8). -/

namespace Sys2Proof.Machine

namespace Cause
abbrev UNSUPPORTED := 0x50
abbrev CTX_INVALID := 0x51
abbrev SYNTAX := 0x52
abbrev POOL_FULL := 0x53
end Cause

/-! ## Ring items -/

/-- An item of an engine is at it: bound to the instance and not yet started. -/
def Dev.itemAt (d : Dev) (ring seq engine : Nat) : Option Item :=
  match d.item? ring seq with
  | some i => if i.phase = .bound && engineOf i.desc = engine && i.inst.isSome && i.pend.isNone then some i else none
  | none => none

/-- The decode job of a ring item (Tables 8.2 and 8.3). -/
def decodeJob (i : Item) (asid : Nat) : VJob :=
  { id := 0, item := some (i.ring, i.seq), ctx := 0, encode := false, skip := i.form == .fallback, lowEffort := false, ceil := none,
    gap := (descF i.desc 54 0 0) == 1, src := srcOf i.desc, len := lengthOf i.desc, pitch := 0, dst := dstOf i.desc,
    dstPitch := descF i.desc 52 15 0, dstSize := 0, asid := asid, stamp := descF i.desc 48 31 0, forceIrap := false,
    forceRefresh := false, noEmit := false }

/-- DECODE: the item joins its context's engine queue (R182, R187, R194). -/
def Dev.decodeItem (d : Dev) (ring seq : Nat) : Dev :=
  match d.itemAt ring seq 2 with
  | none => d
  | some i =>
    let h := ctxOf i.desc
    if opOf i.desc > 2 then d.finishPlain ring seq .failed Cause.BAD_DESC
    else if opOf i.desc ≠ 0 then d
    else if d.ctxInvalid i false then
      (d.detect (pg (0x10 + i.inst.getD 0)) Evt.VE_CTX_INVALID).finishPlain ring seq .failed Cause.CTX_INVALID
    else if (d.veng (h / 512)).queue.any (fun j => j.item == some (ring, seq)) ||
        (d.veng (h / 512)).bound.any (fun p => p.job.item == some (ring, seq)) then d
    else d.queueVideo h (decodeJob i (d.ringAsid ring))

/-- Bytes of a picture plane area at DST: rows of `w` bytes at a pitch. -/
def pictureRows (dst pitch w h : Nat) : List (Nat × Nat) :=
  (List.range h).map (fun y => (dst + y * pitch, w)) ++ (List.range (h / 2)).map (fun y => (dst + (h + y) * pitch, w))

/-- The bytes of a row of an uncropped slot, from its crop offset. -/
def Dev.slotRow (d : Dev) (h slot plane y x w : Nat) : List Byte :=
  let base := d.slotAddr h slot + (if plane = 0 then 0 else d.slotPitch h * d.ctxH h)
  (List.range w).map (fun i => (d.physByte (base + y * d.slotPitch h + x + i)).getD 0)

/-- Copy the cropped picture of a slot to DST row by row (R193, R194). -/
def Dev.copyPicture (d : Dev) (who asid h slot dst pitch x y w hh : Nat) : List (Nat × Nat) → Dev × VRes
  | [] => (d, .ok)
  | (plane, r) :: rs =>
    let b := d.ctxB h
    let row := d.slotRow h slot plane ((if plane = 0 then y else y / 2) + r) (x * b) (w * b)
    match d.virtWrite who asid (dst + ((if plane = 0 then 0 else hh) + r) * pitch) row with
    | (d, .ok) => d.copyPicture who asid h slot dst pitch x y w hh rs
    | (d, r) => (d, r)

/-- Rows of both planes of a picture of height h. -/
def planeRows (h : Nat) : List (Nat × Nat) := (List.range h).map (fun r => (0, r)) ++ (List.range (h / 2)).map (fun r => (1, r))

/-- The next picture waiting for output, lowest POC first. -/
def VGen.nextOut (g : VGen) : Option DpbPic :=
  (g.dpb.filter (·.waiting)).foldl (fun a p => match a with
    | none => some p
    | some q => if p.poc < q.poc then some p else some q) none

/-- Mark a picture as output. -/
def VGen.output (g : VGen) (poc : Int) : VGen :=
  match g.dpb.find? (fun p => p.poc == poc && p.waiting) with
  | none => g
  | some p => { g with dpb := g.dpb.map (fun q => if q.poc == poc then { q with waiting := false } else q),
                       outSlot := p.slot, outSerial := g.outSerial + 1 }

/-- OUTPUT_NEXT: the next picture waiting in the DPB goes to DST (Table 8.2). It runs after every earlier job of its
context. -/
def Dev.outputNext (d : Dev) (ring seq : Nat) : Dev :=
  match d.itemAt ring seq 2 with
  | none => d
  | some i =>
    let h := ctxOf i.desc
    if opOf i.desc ≠ 1 then d
    else if d.ctxInvalid i false then
      (d.detect (pg (0x10 + i.inst.getD 0)) Evt.VE_CTX_INVALID).finishPlain ring seq .failed Cause.CTX_INVALID
    else if d.ctxBusy h || !(d.vctxOf h).pend.isEmpty then d
    else
      let g := (d.vctxOf h).cur
      let r0 := { i.plain i.doneStatus 0 with
        eres := eresOf [(0, unsigned 32 g.lastPoc), (5, 0xFF), (6, 0xFF), (12, 0x80000000)] }
      match g.nextOut with
      | none => d.finish ring seq r0
      | some p =>
        let (x, y, w, hh) := g.crop
        let dst := dstOf i.desc
        let (d, res) := match p.slot with
          | some s => if dst = 0 then (d, VRes.ok) else
              d.copyPicture (whoVe (h / 512)) (d.ringAsid ring) h s dst (descF i.desc 52 15 0) x y w hh (planeRows hh)
          | none => (d, VRes.ok)
        match res with
        | .stop => d
        | .fail c => d.finishPlain ring seq .failed c
        | .ok =>
          let j := (d.veng (h / 512)).nextId
          let d := d.setVeng (h / 512) { d.veng (h / 512) with nextId := j + 1 }
          let c := d.vctxOf h
          let d := d.setVctx h { c with pend := c.pend ++ [(j, g.output p.poc)] }
          let n := if dst = 0 || p.slot.isNone then 0 else w * d.ctxB h * hh * 3 / 2
          (d.modItem ring seq (fun x => { x with engineState := BitVec.ofNat 64 (j + 1) })).finish ring seq
            { r0 with flags := word (if n = 0 then 0 else 2 ^ 5), result1 := BitVec.ofNat 64 n,
                      eres := eresOf [(0, unsigned 32 p.poc), (4, p.tid % 16), (5, 0xFF), (6, (p.slot.getD 0xFF) % 256),
                        (12, 0x80000000)] }

/-- CLEAR: empty the DPB and concealment state, keep the parameter sets (Table 8.2). -/
def Dev.clearItem (d : Dev) (ring seq : Nat) : Dev :=
  match d.itemAt ring seq 2 with
  | none => d
  | some i =>
    let h := ctxOf i.desc
    if opOf i.desc ≠ 2 then d
    else if d.ctxInvalid i false then
      (d.detect (pg (0x10 + i.inst.getD 0)) Evt.VE_CTX_INVALID).finishPlain ring seq .failed Cause.CTX_INVALID
    else if d.ctxBusy h || !(d.vctxOf h).pend.isEmpty then d
    else
      let c := d.vctxOf h
      let j := (d.veng (h / 512)).nextId
      let d := d.setVeng (h / 512) { d.veng (h / 512) with nextId := j + 1 }
      let d := d.setVctx h { c with pend := c.pend ++ [(j, { c.cur with dpb := [], outSlot := none })] }
      (d.modItem ring seq (fun x => { x with engineState := BitVec.ofNat 64 (j + 1) })).finishPlain ring seq i.doneStatus 0

/-! ## Binding -/

/-- An empty bound picture of a job. -/
def VPic.start (j : VJob) (g : VGen) : VPic :=
  { job := j, gen := g, slot := none, out := none, fail := 0, flags := j.gap.toNat * 8, poc := g.lastPoc, tid := 0, ptype := 0,
    consumed := 0, concUnits := 0, missing := none, ownLoss := false, outW := 0, outH := 0, outX := 0, outY := 0, rows := 0,
    row := 0, spent := 0, qp := 0, qpSum := 0, coded := 0, base := 0, budget := 0, cap := 0, starved := none, rowBits := [],
    sliceBits := 0, slices := 0, cut := false, irap := false, refresh := false, switchPt := false, bandAt := none }

/-- Push a missing reference; sixteen are held, a further one overwrites the oldest (Table 8.7). -/
def Dev.pushMiss (d : Dev) (e ctx : Nat) (poc : Int) : Dev :=
  let v := d.veng e
  let m : RefMiss := { ctx := ctx, poc := poc, lost := false }
  let l := if v.miss.length < 16 then v.miss ++ [m]
    else match v.miss with
      | _ :: x :: xs => { x with lost := true } :: xs ++ [m]
      | _ => [m]
  d.setVeng e { v with miss := l }

/-- The picture with the highest POC below a bound and a TemporalId not above another (R199, R201). -/
def VGen.below (g : VGen) (poc : Int) (tid : Nat) : Option DpbPic :=
  (g.dpb.filter (fun p => p.poc < poc && p.tid ≤ tid)).foldl (fun a p => match a with
    | none => some p
    | some q => if q.poc < p.poc then some p else some q) none

/-- A missing reference: a substitute takes its place and it is reported once (R201 to R203). -/
def Dev.refMissing (d : Dev) (h tid : Nat) (g : VGen) (poc : Int) : Dev × VGen :=
  if g.dpb.any (fun p => p.poc == poc) then (d, g)
  else
    let sub : DpbPic := match g.below poc tid with
      | some q => { poc := poc, slot := q.slot, tid := q.tid, conc := q.conc, subst := true, waiting := false }
      | none => { poc := poc, slot := none, tid := tid, conc := false, subst := true, waiting := false }
    let d := (d.bumpT (vePage h) (ctxAddr h 2) 2 31 0).pushMiss (h / 512) (h % 512) poc
    ((d.detect (vePage h) Evt.VE_REF_MISSING).sendPli h, { g with dpb := g.dpb ++ [sub] })

/-- Syntax errors of an access unit: one event and one resync each (R197). -/
def Dev.syntaxErrors (d : Dev) (h : Nat) : Nat → Dev
  | 0 => d
  | n + 1 =>
    let p := vePage h
    (((d.bumpT p (ctxAddr h 2) 3 31 0).bump p Reg.VE_DEC_CONCEAL 31 16).detect p Evt.VE_SYNTAX_ERR).syntaxErrors h n

/-- The picture is outside Table 8.1 or does not fit its context (R184, R192). -/
def Dev.pictureUnsupported (d : Dev) (h : Nat) (r : ParseResult) : Bool :=
  r.unsupported || d.ctxW h < r.codedW || d.ctxH h < r.codedH || 9437184 < r.codedW * r.codedH

/-- The bound picture that parsing an access unit gives (R192 to R201). -/
def Dev.parsePicture (d : Dev) (h : Nat) (j : VJob) (r : ParseResult) : Dev × VPic :=
  let p := vePage h
  let g := d.workGen h
  let v := { VPic.start j g with consumed := r.consumed, poc := r.poc, tid := r.tid.val, ptype := r.ptype.val }
  let d := d.syntaxErrors h r.syntaxErrors
  if j.skip then (d, v)
  else if d.pictureUnsupported h r then
    (d.detect p Evt.VE_UNSUPPORTED, { v with fail := Cause.UNSUPPORTED })
  else if d.rb p Reg.VE_DEC_CFG 4 && r.syntaxErrors ≠ 0 then (d, { v with fail := Cause.SYNTAX })
  else
    let d := d.setTw p (ctxAddr h 2) 0 (word (r.profile.toNat + r.level.toNat * 2 ^ 8 + r.spsId.val * 2 ^ 16))
    let d := d.setTw p (ctxAddr h 2) 1 (word (r.codedW % 2 ^ 13 + r.codedH % 2 ^ 13 * 2 ^ 16))
    let (d, g1) := r.missing.foldl (fun (x : Dev × VGen) m => x.1.refMissing h r.tid.val x.2 m) (d, g)
    match d.freeSlot h with
    | none => (d.detect p Evt.VE_POOL_FULL, { v with fail := Cause.POOL_FULL })
    | some s =>
      let used := g1.dpb.filter (fun q => r.refs.contains q.poc || r.missing.contains q.poc)
      let own := r.concealedUnits ≠ 0
      let conc := own || (r.ptype ≠ 1 && !r.recovered && used.any (fun q => q.conc || q.subst))
      let pic : DpbPic := { poc := r.poc, slot := some s, tid := r.tid.val, conc := conc, subst := false, waiting := true }
      let g2 := { g1 with dpb := g1.dpb ++ [pic], lastPoc := r.poc, crop := (r.cropX, r.cropY, r.cropW, r.cropH) }
      let g3 := match r.output with
        | some o => g2.output o
        | none => g2
      let g4 := { g3 with dpb := g3.dpb.filter (fun q => q.waiting || !(r.dropped.contains q.poc || (q.poc == r.poc && !r.isRef))) }
      let outSlot := match r.output with
        | some o => (g2.dpb.find? (fun q => q.poc == o && q.waiting)).bind (·.slot)
        | none => none
      let flags := conc.toNat + (used.any (·.subst)).toNat * 2 + (r.syntaxErrors != 0).toNat * 4 + j.gap.toNat * 8
      (d, { v with gen := g4, slot := some s, out := outSlot, flags := flags, concUnits := r.concealedUnits,
                   missing := r.missing.head?, ownLoss := own && r.isRef, outX := r.cropX, outY := r.cropY, outW := r.cropW,
                   outH := r.cropH })

/-- May the entropy engine or encoder of an engine take its next job (R187, R190, R191)? -/
def Dev.canBind (d : Dev) (e : Nat) (encode : Bool) : Option VJob :=
  let p := pg (0x10 + e)
  let v := d.veng e
  if (d.hdr p).state.serves && !(d.hdr p).rst && v.bound.length ≤ d.rf p Reg.VE_DEC_CFG 1 0 && !d.isParked (whoVe e) then
    match v.queue with
    | j :: _ => if j.encode = encode && (match j.item with
        | some (r, s) => (d.item? r s).any (fun i => i.phase == .bound && i.pend == none)
        | none => true) then some j else none
    | [] => none
  else none

/-- Take the front job out of the queue and bind its picture; a ring item writes STARTED (R187, Table 4.6). -/
def Dev.bindPicture (d : Dev) (e : Nat) (p : VPic) : Dev :=
  let v := d.veng e
  let d := d.setVeng e { v with queue := v.queue.drop 1, bound := v.bound ++ [p] }
  match p.job.item with
  | some (r, s) => (d.modItem r s (fun i => { i with phase := .running })).transition r s .started
  | none => d

/-- DECODE_BIND: the entropy engine binds the front decode job and parses its access unit. -/
def Dev.decodeBind (d : Dev) (e : Nat) (r : ParseResult) : Dev :=
  match d.canBind e false with
  | none => d
  | some j =>
    let (d, p) := d.parsePicture (e * 512 + j.ctx) j r
    d.bindPicture e p

/-! ## The end of a picture -/

/-- Write a decoded or reconstructed picture into its slot; its samples are the standard's. -/
def Dev.writeSlot (d : Dev) (h s : Nat) : Dev :=
  let (d, bs) := d.codedBytes (d.slotPitch h * d.ctxH h * 3 / 2)
  (d.physWrite (d.slotAddr h s) bs (some (256 + h / 512))).1

/-- ERES of a decode completion (Table 8.4). -/
def VPic.decodeEres (p : VPic) : BitVec 128 :=
  eresOf [(0, unsigned 32 p.poc), (4, p.tid % 16 + p.ptype % 16 * 16), (5, (p.slot.getD 0xFF) % 256),
    (6, (p.out.getD 0xFF) % 256), (8, p.concUnits % 2 ^ 32),
    (12, match p.missing with | some m => unsigned 32 m | none => 0x80000000)]

/-- The front decode picture is finished: slot, DST, counters, completion and generation (R186, R193 to R195, R203). -/
def Dev.decodeEnd (d : Dev) (e : Nat) (p : VPic) : Dev :=
  let h := e * 512 + p.job.ctx
  let page := pg (0x10 + e)
  if p.fail ≠ 0 then (d.dropFront e).failItem p.job.item p.fail
  else if p.job.skip then
    let d := d.dropFront e
    match p.job.item with
    | some (r, s) => match d.item? r s with
      | some i => d.finish r s { i.plain .doneDegraded 0 with result0 := BitVec.ofNat 64 p.consumed, eres := p.decodeEres }
      | none => d
    | none => d
  else
    let d := match p.slot with
      | some s => d.writeSlot h s
      | none => d
    let copies := p.job.dst ≠ 0 && p.out.isSome
    let (d, res) := match p.out with
      | some s => if copies then
          d.copyPicture (whoVe e) p.job.asid h s p.job.dst p.job.dstPitch p.outX p.outY p.outW p.outH (planeRows p.outH)
        else (d, VRes.ok)
      | none => (d, VRes.ok)
    match res with
    | .stop => d.setFront e { p with flags := p.flags ||| 16 }
    | .fail c => (d.dropFront e).failItem p.job.item c
    | .ok =>
      let d := d.dropFront e
      let d := d.bump page Reg.VE_DEC_PICS 31 0
      let conc := p.flags % 2 = 1
      let d := if conc then (d.bump page Reg.VE_DEC_CONCEAL 15 0).bumpT page (ctxAddr h 1) 3 31 0 else d
      let v := d.veng e
      let px := chargedPixels (d.tf page (ctxAddr h 2) 1 12 0) (d.tf page (ctxAddr h 2) 1 28 16)
      let d := d.setVeng e { v with pixDec := logAdd v.pixDec d.nowNs 1000000000 px }
      let d := if p.ownLoss then d.sendPli h else d
      match p.job.item with
      | none => d.makeCurrent h p.gen
      | some (r, s) =>
        let c := d.vctxOf h
        let d := d.setVctx h { c with pend := c.pend ++ [(p.job.id, p.gen)] }
        let n := if copies then p.outW * d.ctxB h * p.outH * 3 / 2 else 0
        match d.item? r s with
        | none => d
        | some i =>
          (d.modItem r s (fun x => { x with engineState := BitVec.ofNat 64 (p.job.id + 1) })).finish r s
            { i.plain i.doneStatus 0 with
              flags := word (p.flags + (if copies then 32 else 0)), result0 := BitVec.ofNat 64 p.consumed,
              result1 := BitVec.ofNat 64 n, eres := p.decodeEres }

/-- VE_REF_MISS_POP: the oldest entry is popped and its POC latched (Table 8.7). -/
def Dev.refMissPop (d : Dev) (e : Nat) : Dev :=
  let v := d.veng e
  match v.miss with
  | [] => d.answer 0
  | m :: ms =>
    ((d.setVeng e { v with miss := ms }).setReg (pg (0x10 + e)) Reg.VE_REF_MISS_POC (word (unsigned 32 m.poc))).answer
      (word (m.ctx % 512 + m.lost.toNat * 2 ^ 30 + 2 ^ 31))

/-- PIXEL_HANG: no progress for HANG_MS while not parked (Table 8.6). -/
def Dev.pixelHang (d : Dev) (e : Nat) : Dev :=
  if (d.veng e).bound.isEmpty || d.isParked (whoVe e) then d else d.detect (pg (0x10 + e)) Evt.VE_PIXEL_HANG

/-- PLI_REPEAT: while the context's pictures stay concealed a further indication goes out (R203). -/
def Dev.pliRepeat (d : Dev) (h : Nat) : Dev :=
  if !d.ctxValid h || d.ctxEncode h || !(d.vctxOf h).cur.dpb.any (·.conc) then d else d.sendPli h

/-! ## Commands -/

/-- DECODE (R194). -/
def execDecode (ring : RingNo) (seq : Nat) (s : State) : Host.Outcome State Fault Refusal := s.on (·.decodeItem ring.val seq)
/-- OUTPUT_NEXT (R194). -/
def execOutputNext (ring : RingNo) (seq : Nat) (s : State) : Host.Outcome State Fault Refusal := s.on (·.outputNext ring.val seq)
/-- CLEAR (R194). -/
def execClearCtx (ring : RingNo) (seq : Nat) (s : State) : Host.Outcome State Fault Refusal := s.on (·.clearItem ring.val seq)
/-- DECODE_BIND (R187). -/
def execDecodeBind (e : Engine) (r : ParseResult) (s : State) : Host.Outcome State Fault Refusal := s.on (·.decodeBind e.val r)
/-- PIXEL_HANG (R204). -/
def execPixelHang (e : Engine) (s : State) : Host.Outcome State Fault Refusal := s.on (·.pixelHang e.val)
/-- VE_REF_MISS_POP (R205). -/
def execVeRefMissPop (e : Engine) (s : State) : Host.Outcome State Fault Refusal := s.on (·.refMissPop e.val)
/-- PLI_REPEAT (R203). -/
def execPliRepeat (e : Engine) (ctx : Fin 512) (s : State) : Host.Outcome State Fault Refusal :=
  s.on (·.pliRepeat (e.val * 512 + ctx.val))

end Sys2Proof.Machine
end

