-- ==== Sys2Proof/Machine/VideoEncode.lean ====
section
/-! DEFINITION. Video encoding and rate control (chapter 9), and the frame boundary that both kinds of job end at. -/

namespace Sys2Proof.Machine

namespace Cause
abbrev DST_FULL := 0x54
abbrev SRC_FORMAT := 0x55
end Cause

/-! ## Encode context entries (Table 9.8) -/

def Dev.encKbps (d : Dev) (h : Nat) : Nat := d.tf (vePage h) (ctxAddr h 1) 0 19 0
def Dev.encFps (d : Dev) (h : Nat) : Nat := d.tf (vePage h) (ctxAddr h 1) 1 6 0
def Dev.encQpMin (d : Dev) (h : Nat) : Nat := d.tf (vePage h) (ctxAddr h 1) 1 13 8
def Dev.encQpMax (d : Dev) (h : Nat) : Nat := d.tf (vePage h) (ctxAddr h 1) 1 21 16
def Dev.encLayers (d : Dev) (h : Nat) : Nat := d.tf (vePage h) (ctxAddr h 1) 2 1 0 + 1
def Dev.encGdr (d : Dev) (h : Nat) : Bool := d.tb (vePage h) (ctxAddr h 1) 2 3
def Dev.encOnDemand (d : Dev) (h : Nat) : Bool := d.tb (vePage h) (ctxAddr h 1) 2 4
def Dev.encPeriod (d : Dev) (h : Nat) : Nat := d.tf (vePage h) (ctxAddr h 1) 2 11 5
def Dev.encPhase (d : Dev) (h : Nat) : Nat := d.tf (vePage h) (ctxAddr h 1) 2 18 12
def Dev.encSliceEmit (d : Dev) (h : Nat) : Bool := d.tb (vePage h) (ctxAddr h 1) 2 19
def Dev.encSliceRows (d : Dev) (h : Nat) : Nat := d.tf (vePage h) (ctxAddr h 1) 2 23 20
def Dev.encIdr (d : Dev) (h : Nat) : Nat := d.tf (vePage h) (ctxAddr h 1) 3 15 0
def Dev.encSource (d : Dev) (h : Nat) : Nat := d.tf (vePage h) (ctxAddr h 3) 0 11 0
def Dev.encEnc (d : Dev) (h : Nat) : Nat := d.tf (vePage h) (ctxAddr h 3) 0 13 12
def Dev.encEmitValid (d : Dev) (h : Nat) : Bool := d.tb (vePage h) (ctxAddr h 3) 0 14

/-! ## Ring items -/

/-- The encode job of a ring item (Tables 9.2 and 9.3). -/
def encodeJob (i : Item) (asid : Nat) : VJob :=
  let f := if i.form == .fallback then descF i.desc 8 25 22 else 0
  { id := 0, item := some (i.ring, i.seq), ctx := 0, encode := true, skip := f == 3,
    lowEffort := f == 5, ceil := if f = 1 then some (descF i.desc 12 7 0) else none, gap := false, src := srcOf i.desc, len := lengthOf i.desc,
    pitch := descF i.desc 52 15 0, dst := dstOf i.desc, dstPitch := 0, dstSize := descF i.desc 56 31 0, asid := asid,
    stamp := descF i.desc 48 31 0, forceIrap := descF i.desc 54 0 0 == 1, forceRefresh := descF i.desc 54 1 1 == 1,
    noEmit := descF i.desc 54 2 2 == 1 }

/-- ENCODE: the item joins its context's engine queue (R182, R187, R209). -/
def Dev.encodeItem (d : Dev) (ring seq : Nat) : Dev :=
  match d.itemAt ring seq 3 with
  | none => d
  | some i =>
    let h := ctxOf i.desc
    let page := pg (0x10 + i.inst.getD 0)
    if opOf i.desc > 1 then d.finishPlain ring seq .failed Cause.BAD_DESC
    else if opOf i.desc ≠ 0 then d
    else if d.ctxInvalid i true then (d.detect page Evt.VE_CTX_INVALID).finishPlain ring seq .failed Cause.CTX_INVALID
    else if lengthOf i.desc < descF i.desc 52 15 0 * d.ctxH h * 3 / 2 then
      (d.detect page Evt.VE_SRC_FORMAT).finishPlain ring seq .failed Cause.SRC_FORMAT
    else if (d.veng (h / 512)).queue.any (fun j => j.item == some (ring, seq)) ||
        (d.veng (h / 512)).bound.any (fun p => p.job.item == some (ring, seq)) then d
    else d.queueVideo h (encodeJob i (d.ringAsid ring))

/-- RC_RESET: DEBT to 0 and the QP history cleared (Table 9.2). It runs after every earlier job of its context. -/
def Dev.rcResetItem (d : Dev) (ring seq : Nat) : Dev :=
  match d.itemAt ring seq 3 with
  | none => d
  | some i =>
    let h := ctxOf i.desc
    if opOf i.desc ≠ 1 then d
    else if d.ctxInvalid i true then
      (d.detect (pg (0x10 + i.inst.getD 0)) Evt.VE_CTX_INVALID).finishPlain ring seq .failed Cause.CTX_INVALID
    else if d.ctxBusy h || !(d.vctxOf h).pend.isEmpty then d
    else
      let c := d.vctxOf h
      let j := (d.veng (h / 512)).nextId
      let d := d.setVeng (h / 512) { d.veng (h / 512) with nextId := j + 1 }
      let d := d.setVctx h { c with pend := c.pend ++ [(j, { c.cur with debt := 0, histI := none, histP := none })] }
      (d.modItem ring seq (fun x => { x with engineState := BitVec.ofNat 64 (j + 1) })).finishPlain ring seq i.doneStatus 0

/-! ## Picture structure (R212, R217) -/

/-- Trailing zero bits of a number, at most `n`. -/
def trailingZeros : Nat → Nat → Nat
  | 0, _ => 0
  | n + 1, x => if x % 2 = 1 then 0 else 1 + trailingZeros n (x / 2)

/-- TemporalId of picture index i with T sublayers (R212). -/
def temporalId (t i : Nat) : Nat :=
  let k := i % 2 ^ (t - 1)
  if k = 0 then 0 else t - 1 - trailingZeros t k

/-- The structure of a context's next picture: IRAP, TemporalId, band position, refresh start, and the generation
counts after it. -/
structure EncPlan where
  irap : Bool
  tid : Nat
  band : Option Nat
  start : Bool
  resync : Bool
  gen : VGen
deriving DecidableEq, Repr

/-- Plan the next picture of a context (R211, R212, R217, R218, R221). -/
def Dev.planPicture (d : Dev) (h : Nat) (j : VJob) (g : VGen) : EncPlan :=
  let gdr := d.encGdr h
  let due := j.forceIrap || (d.encIdr h ≠ 0 && d.encIdr h ≤ g.idx.getD 0) || (!gdr && (g.keyPend || g.resync))
  let irap := g.idx.isNone || (due && !j.skip)
  let restart := gdr && g.resync && !j.skip
  let i := if irap || restart then 0 else g.idx.getD 0
  let tid := temporalId (d.encLayers h) i
  let k := if irap then 0 else g.tl0
  let n := max (d.encPeriod h) 1
  let demand := d.encOnDemand h
  let want := g.refreshPend || (demand && j.forceRefresh)
  let band : Option Nat :=
    if !gdr || tid ≠ 0 then none
    else if restart then some 0
    else match (if irap then none else g.band) with
      | some b => some b
      | none =>
        if j.skip && !(g.gdrRuns && !demand) then none
        else if demand then (if want then some 0 else none)
        else if (g.gdrRuns && !irap) || d.encPhase h % n ≤ k then some 0 else none
  let next : Option Nat := match band with
    | some b => if b + 1 < n then some (b + 1) else none
    | none => if tid = 0 then none else (if irap then none else g.band)
  let start := band = some 0
  { irap := irap, tid := tid, band := band, start := start, resync := g.resync && (irap || restart),
    gen := { g with idx := some (i + 1), tl0 := if tid = 0 then k + 1 else k, band := next,
                    gdrRuns := (g.gdrRuns && !irap) || band.isSome, keyPend := g.keyPend && !irap,
                    refreshPend := (want && !start) || (g.refreshPend && !start) } }

/-- For admission: is the picture of the n-th unbound item of a context IRAP or a refresh start (R211)? -/
def Dev.keyPicture (d : Dev) (h : Nat) : List VJob → VGen → VJob → Bool
  | [], g, j => let p := d.planPicture h j g; p.irap || p.start
  | q :: qs, g, j => d.keyPicture h qs (d.planPicture h q g).gen j

/-! ## Rate control (R215) -/

/-- round(6 log2 (a / b)) within ±192: the k with 2^(2k−1) ≤ (a/b)^12 < 2^(2k+1). -/
def log6Search (a b : Nat) : Nat → Int → Int
  | 0, k => k
  | n + 1, k =>
    -- (a/b)^12 < 2^(2k+1)?
    let lhs := a ^ 12 * (if 2 * k + 1 < 0 then 2 ^ (-(2 * k + 1)).toNat else 1)
    let rhs := b ^ 12 * (if 0 ≤ 2 * k + 1 then 2 ^ (2 * k + 1).toNat else 1)
    if lhs < rhs then k else log6Search a b n (k + 1)

/-- round(6 log2 (a / b)); a ratio without a value is free (assumption log 13). -/
def Dev.log6 (d : Dev) (a b : Nat) : Int :=
  if a = 0 || b = 0 then (Config.freeNat d.fresh : Int) - 64 else log6Search a b 384 (-192)

/-- A value held within bounds. -/
def clampInt (x lo hi : Int) : Int := if x < lo then lo else if hi < x then hi else x

/-- Rows of 64 luma lines of a picture. -/
def encRows (h : Nat) : Nat := ceilDiv h 64

/-- Columns floor(jC/N) to floor((j+1)C/N) − 1 of band j: how many (R217). -/
def bandColumns (c n j : Nat) : Nat := (j + 1) * c / n - j * c / n

/-- Bits kept for row r (R215): per CTU 24, or 160 in a refresh band; per macroblock 6 or 40. -/
def Dev.rowReserve (d : Dev) (h : Nat) (band : Option Nat) (r : Nat) : Nat :=
  let c := ceilDiv (d.ctxW h) 64
  let b := match band with
    | some j => bandColumns c (max (d.encPeriod h) 1) j
    | none => 0
  if d.ctxHevc h then (c - b) * 24 + b * 160
  else
    let mbw := ceilDiv (d.ctxW h) 16
    let mbr := min 4 (ceilDiv (d.ctxH h) 16 - 4 * r)
    let bm := min (b * 4) mbw
    mbr * ((mbw - bm) * 6 + bm * 40)

/-- Bits kept for every row after r. -/
def Dev.reserveAfter (d : Dev) (h : Nat) (band : Option Nat) (rows r : Nat) : Nat :=
  ((List.range rows).filter (fun k => r < k)).foldl (fun a k => a + d.rowReserve h band k) 0

/-- ENCODE_BIND: plan, budget, cap and first QP; the least bitstream is checked against DST_SIZE (R210 to R215). -/
def Dev.encodeBind (d : Dev) (e headerBits least : Nat) : Dev :=
  match d.canBind e true with
  | none => d
  | some j =>
    let h := e * 512 + j.ctx
    let page := pg (0x10 + e)
    let g := d.workGen h
    let v := VPic.start j g
    if j.dstSize < least then
      (d.detect page Evt.VE_DST_FULL).bindPicture e { v with fail := Cause.DST_FULL }
    else
      match d.freeSlot h with
      | none => d.bindPicture e { v with fail := Cause.DST_FULL }
      | some s =>
        let d := if j.forceRefresh && d.encGdr h && !d.encOnDemand h then
            (d.bumpT page (ctxAddr h 3) 1 31 0).detect page Evt.VE_KEY_ABSORBED else d
        let pl := d.planPicture h j g
        let base := d.encKbps h * 1000 / max (d.encFps h) 1
        let w := if pl.irap then 4 else 1
        let minPct := d.rf page Reg.VE_ENC_RC_CFG 14 8
        let budget := max (base * w - g.debt) (base * minPct / 100)
        let cap := min (budget * d.rf page Reg.VE_ENC_RC_CFG 7 0 / 100) (j.dstSize * 8)
        let qp : Int := match (if pl.irap then g.histI else g.histP) with
          | none => 32
          | some x => (x.qp : Int) + d.log6 x.bits x.budget
        let qp := (clampInt qp (d.encQpMin h) (d.encQpMax h)).toNat
        let d := if pl.resync then d.detect page Evt.VE_RESYNC_FORCED else d
        let above := match j.ceil with
          | some c => c % 16 < pl.tid || c / 16 < d.encEnc h
          | none => false
        let sw := pl.tid ≠ 0 || pl.irap || pl.start
        let flags := pl.irap.toNat * 2 + pl.start.toNat * 4 + sw.toNat * 8 + pl.resync.toNat * 128
        let poc : Int := if pl.irap then 0 else g.lastPoc + 1
        let ptype := if pl.irap then 1 else if pl.start then 4 else if pl.tid ≠ 0 && d.ctxHevc h then 2 else 0
        let p : VPic := { v with gen := pl.gen, slot := some s, flags := flags, poc := poc, tid := pl.tid, ptype := ptype,
                                 rows := encRows (d.ctxH h), spent := headerBits, sliceBits := headerBits, qp := qp,
                                 base := base, budget := budget, cap := cap, irap := pl.irap, refresh := pl.start,
                                 switchPt := sw, bandAt := pl.band, job := { j with skip := j.skip || above },
                                 starved := if j.skip || above then some 0 else none }
        d.bindPicture e p

/-- The plan for rows 0 to r: the budget by the rows' shares of the last picture of the type; spent / plan as a ratio. -/
def planRatio (hist : Option RcHist) (rows r spent budget : Nat) : Nat × Nat :=
  match hist with
  | some x => (spent * x.rowBits.foldl (· + ·) 0, budget * (x.rowBits.take (r + 1)).foldl (· + ·) 0)
  | none => (spent * rows, budget * (r + 1))

/-- A finished slice goes to PX, or cuts the picture's hand-off when the 256 KiB queue has no room (R219, R220). -/
def Dev.sliceOut (d : Dev) (e : Nat) (p : VPic) (backlog : Nat) (packets : List Nat) (last : Bool) : Dev × VPic :=
  let h := e * 512 + p.job.ctx
  let page := pg (0x10 + e)
  if p.cut then (d, { p with sliceBits := 0 })
  else if 262144 < backlog + ceilDiv p.sliceBits 8 then
    (d.detect page Evt.VE_EMIT_BACKLOG, { p with cut := true, sliceBits := 0, flags := p.flags ||| 64 })
  else
    let d := d.handOver { source := d.encSource h, enc := d.encEnc h, stamp := p.job.stamp, tid := p.tid, ptype := p.ptype,
                          switchPt := p.switchPt, first := p.slices == 0, last := last, packets := packets }
    let d := d.bump page Reg.VE_ENC_SLICES 31 0
    let d := match p.job.item with
      | some (r, s) => if p.slices = 0 then d.transition r s .emitted else d
      | none => d
    (d, { p with slices := p.slices + 1, sliceBits := 0, flags := p.flags ||| 32 })

/-- ROW_END: the row is checked against DST before it is written and against CAP after it, QP follows the plan, and a
finished slice is handed over (R215, R219). `bits` is what the row takes coded, `starvedBits` what it takes starved. -/
def Dev.rowEnd (d : Dev) (e bits starvedBits backlog : Nat) (packets : List Nat) : Dev :=
  match (d.veng e).bound with
  | [] => d
  | p :: _ =>
    let h := e * 512 + p.job.ctx
    let page := pg (0x10 + e)
    if !p.job.encode || p.fail ≠ 0 || p.rows ≤ p.row || d.isParked (whoVe e) ||
        !(d.itemActs p.job.item .started || d.itemActs p.job.item .emitted) then d
    else
      let r := p.row
      let after := d.reserveAfter h p.bandAt p.rows r
      let full := p.starved.isNone && p.job.dstSize * 8 < p.spent + bits + after
      let p := if full then { p with starved := some r } else p
      let n := if p.starved.isSome then starvedBits else bits
      let p := { p with spent := p.spent + n, sliceBits := p.sliceBits + n, rowBits := p.rowBits ++ [n], row := r + 1 }
      let p := if p.starved.isSome then p else { p with qpSum := p.qpSum + p.qp, coded := p.coded + 1 }
      let p :=
        if p.starved.isSome || p.row = p.rows then p
        else if p.cap ≤ p.spent + after then { p with starved := some (r + 1) }
        else
          let step : Int := d.rf page Reg.VE_ENC_RC_CFG 18 16
          let (a, b) := planRatio (if p.irap then p.gen.histI else p.gen.histP) p.rows r p.spent p.budget
          let q := clampInt ((p.qp : Int) + clampInt (d.log6 a b) (-step) step) (d.encQpMin h) (d.encQpMax h)
          { p with qp := q.toNat }
      let ends := p.row = p.rows || p.row % max (d.encSliceRows h) 1 = 0
      let (d, p) := if d.encEmitValid h && d.encSliceEmit h && !p.job.noEmit && ends then
          d.sliceOut e p backlog packets (p.row == p.rows) else (d, p)
      let d := (d.setRf page Reg.VE_ENC_STAT 21 16 (min p.row 63)).setRf page Reg.VE_ENC_STAT 29 24 p.qp
      d.setFront e p

/-- ERES of an encode completion (Table 9.4). -/
def VPic.encodeEres (p : VPic) (refBytes meanQp : Nat) (starved : Option Nat) : BitVec 128 :=
  eresOf [(0, unsigned 32 p.poc), (4, p.tid % 16 + p.ptype % 16 * 16), (5, (starved.getD 0xFF) % 256), (6, meanQp % 256),
    (7, p.slices % 256), (8, refBytes % 2 ^ 32)]

/-- The front encode picture is finished: DEBT, starved run, bitstream, completion and generation (R210, R215, R219,
R221). -/
def Dev.encodeEnd (d : Dev) (e : Nat) (p : VPic) (refBytes : Nat) : Dev :=
  let h := e * 512 + p.job.ctx
  let page := pg (0x10 + e)
  if p.fail ≠ 0 then (d.dropFront e).failItem p.job.item p.fail
  else if p.row < p.rows then d
  else
    let (d, bytes) := d.codedBytes (min (ceilDiv p.spent 8) p.job.dstSize)
    let (d, res) := if p.job.item.isNone then (d, VRes.ok) else d.virtWrite (whoVe e) p.job.asid p.job.dst bytes
    match res with
    | .stop => d.setFront e { p with flags := p.flags ||| 16 }
    | .fail c =>
      let d := (d.dropFront e).failItem p.job.item c
      if p.slices = 0 then d
      else
        let x := d.vctxOf h
        (d.setVctx h { x with cur := { x.cur with resync := true } }).showCtx h
    | .ok =>
      let d := match p.slot with
        | some s => d.writeSlot h s
        | none => d
      let d := d.dropFront e
      let starved := p.starved.isSome
      let g0 := p.gen
      let run := if starved then g0.run + 1 else 0
      let meanQp := if p.coded = 0 then p.qp else (p.qpSum + p.coded / 2) / p.coded
      let hist : RcHist := { bits := p.spent, budget := p.budget, qp := meanQp, rowBits := p.rowBits }
      let pic : DpbPic := { poc := p.poc, slot := p.slot, tid := p.tid, conc := false, subst := false, waiting := false }
      let keep := if p.irap then [] else g0.dpb
      let refs := d.tf page (ctxAddr h 1) 2 2 2 + d.encLayers h
      let g : VGen := { g0 with dpb := (keep ++ [pic]).drop ((keep.length + 1) - refs), lastPoc := p.poc, outSlot := p.slot,
                                outSerial := g0.outSerial + 1, debt := g0.debt + p.spent - p.base, run := run, meanQp := meanQp,
                                histI := if p.irap then some hist else g0.histI,
                                histP := if p.irap then g0.histP else some hist,
                                resync := g0.resync && p.flags / 128 % 2 = 0 }
      let d := d.bump page Reg.VE_ENC_PICS 31 0
      let d := if starved && !p.job.skip then
          let d := ((d.bump page Reg.VE_ENC_STARVED 15 0).bumpT page (ctxAddr h 3) 2 31 0).detect page Evt.VE_STARVED
          let d := if run = 4 then d.bump page Reg.VE_ENC_STARVED 31 16 else d
          if 4 ≤ run then d.detect page Evt.VE_RC_STARVE_RUN else d
        else d
      let v := d.veng e
      let d := d.setVeng e { v with pixEnc := logAdd v.pixEnc d.nowNs 1000000000 (chargedPixels (d.ctxW h) (d.ctxH h)),
                                    refBytes := logAdd v.refBytes d.nowNs 1000000 refBytes }
      match p.job.item with
      | none =>
        let d := d.makeCurrent h g
        if d.encEmitValid h && !d.encSliceEmit h && !p.job.noEmit then
          d.handOver { source := d.encSource h, enc := d.encEnc h, stamp := p.job.stamp, tid := p.tid, ptype := p.ptype,
                       switchPt := p.switchPt, first := true, last := true, packets := [ceilDiv p.spent 8] }
        else d
      | some (r, s) =>
        let c := d.vctxOf h
        let out : List Emission := if d.encEmitValid h && !d.encSliceEmit h && !p.job.noEmit then
            [{ job := p.job.id, source := d.encSource h, enc := d.encEnc h, stamp := p.job.stamp, tid := p.tid, ptype := p.ptype,
               switchPt := p.switchPt, size := ceilDiv p.spent 8 }] else []
        let d := d.setVctx h { c with pend := c.pend ++ [(p.job.id, g)], emits := c.emits ++ out }
        match d.item? r s with
        | none => d
        | some i =>
          let flags := p.flags + (if starved && !p.job.skip then 1 else 0)
          (d.modItem r s (fun x => { x with engineState := BitVec.ofNat 64 (p.job.id + 1) })).finish r s
            { i.plain i.doneStatus 0 with
              flags := word flags, result0 := BitVec.ofNat 64 bytes.length,
              result1 := BitVec.ofNat 64 (p.budget % 2 ^ 32 + g.debt % 2 ^ 32 * 2 ^ 32),
              eres := p.encodeEres refBytes meanQp (if p.job.skip then none else p.starved) }

/-- FRAME_BOUNDARY: the picture in the pixel engine or the encoder is finished (R187). -/
def Dev.frameBoundary (d : Dev) (e refBytes : Nat) : Dev :=
  match (d.veng e).bound with
  | [] => d
  | p :: _ =>
    let gone := match p.job.item with
      | some (r, s) => (d.item? r s).isNone
      | none => false
    if gone then d.dropFront e
    else if !(d.itemActs p.job.item .started || d.itemActs p.job.item .emitted) || d.isParked (whoVe e) then d
    else if p.job.encode then d.encodeEnd e p refBytes
    else d.decodeEnd e p

/-- KEY_REQUEST: a picture-loss indication or full intra request reaches an encode context (R211, R218). -/
def Dev.keyRequestAt (d : Dev) (h : Nat) : Dev :=
  if !d.ctxValid h || !d.ctxEncode h then d
  else
    let c := d.vctxOf h
    if !d.encGdr h then d.setVctx h { c with cur := { c.cur with keyPend := true }, pend := c.pend.map (fun x => (x.1, { x.2 with keyPend := true })) }
    else if d.encOnDemand h then
      (d.setVctx h { c with cur := { c.cur with refreshPend := true },
                            pend := c.pend.map (fun x => (x.1, { x.2 with refreshPend := true })) }).showCtx h
    else (d.bumpT (vePage h) (ctxAddr h 3) 1 31 0).detect (vePage h) Evt.VE_KEY_ABSORBED

/-- A firmware encode job joins its context: at most two wait, the older is discarded for a third (R222). -/
def Dev.queueEncode (d : Dev) (h : Nat) (j : VJob) : Dev :=
  let v := d.veng (h / 512)
  let mine := v.queue.filter (fun q => q.ctx == h % 512 && q.item.isNone)
  if mine.length < 2 then d.queueVideo h j
  else
    match mine with
    | old :: _ => (((d.setVeng (h / 512) { v with queue := v.queue.filter (fun q => q.id != old.id) }).release old.uj).subInflight (vePage h)).queueVideo h j
    | [] => d.queueVideo h j

/-! ## Commands -/

/-- ENCODE (R209). -/
def execEncode (ring : RingNo) (seq : Nat) (s : State) : Host.Outcome State Fault Refusal := s.on (·.encodeItem ring.val seq)
/-- RC_RESET (R209). -/
def execRcReset (ring : RingNo) (seq : Nat) (s : State) : Host.Outcome State Fault Refusal := s.on (·.rcResetItem ring.val seq)
/-- ENCODE_BIND (R210, R212, R215). -/
def execEncodeBind (e : Engine) (headerBits least : Nat) (s : State) : Host.Outcome State Fault Refusal :=
  s.on (·.encodeBind e.val headerBits least)
/-- ROW_END (R215). -/
def execRowEnd (e : Engine) (bits starvedBits backlog : Nat) (packets : List Nat) (s : State) : Host.Outcome State Fault Refusal :=
  s.on (·.rowEnd e.val bits starvedBits backlog packets)
/-- FRAME_BOUNDARY (R187). -/
def execFrameBoundary (e : Engine) (refBytes : Nat) (s : State) : Host.Outcome State Fault Refusal := s.on (·.frameBoundary e.val refBytes)
/-- KEY_REQUEST (R218). -/
def execKeyRequest (e : Engine) (ctx : Fin 512) (s : State) : Host.Outcome State Fault Refusal :=
  s.on (·.keyRequestAt (e.val * 512 + ctx.val))

end Sys2Proof.Machine
end

