-- ==== Sys2Proof/Machine/Place.lean ====
section
/-! DEFINITION. Placement of firmware's stream contexts on video engines (R178, R189). -/

namespace Sys2Proof.Machine

/-- Word i of four packed in 128 bits. -/
def wordAt (x : BitVec 128) (i : Nat) : Word := BitVec.ofNat 32 (x.toNat >>> (32 * i))

/-- Pixel rate charged to an engine by firmware's contexts (R178). -/
def Dev.engineCharge (d : Dev) (e : Nat) : Nat :=
  (List.range 512).foldl (fun a c => a + (d.vctxOf (e * 512 + c)).charge) 0

/-- The lowest context of an engine that is not in use. -/
def Dev.freeContext (d : Dev) (e : Nat) : Option Nat := (List.range 512).find? (fun c => !d.ctxValid (e * 512 + c))

/-- The engine in service with the most unused rate that has room for a charge and a free context; among equals the
lowest (R178). -/
def Dev.placeEngine (d : Dev) (charge : Nat) : Option Nat :=
  ((List.range 16).filter (fun e => (d.hdr (pg (0x10 + e))).state.serves && d.engineCharge e + charge ≤ 1200000000 &&
      (d.freeContext e).isSome)).foldl (fun a e => match a with
    | none => some e
    | some b => if d.engineCharge e < d.engineCharge b then some e else some b) none

/-- May an encode context with these words be made valid (R207)? -/
def encodeOk (k0 k1 : BitVec 128) : Bool :=
  let w := fld 12 0 (wordAt k0 3)
  let h := fld 28 16 (wordAt k0 3)
  let slots := fld 20 16 (wordAt k0 2)
  let layers := fld 1 0 (wordAt k1 2) + 1
  let refs := fld 2 2 (wordAt k1 2) + 1
  let fps := fld 6 0 (wordAt k1 1)
  let hevc := bit 2 (wordAt k0 0)
  let prof := fld 7 6 (wordAt k0 0)
  refs + layers ≤ slots && w % 2 = 0 && h % 2 = 0 && 64 ≤ w && w ≤ 4096 && 64 ≤ h && h ≤ 2304 &&
    w * h * fps ≤ 534773760 && (if hevc then prof ≤ 1 else prof ≤ 2)

/-- Write a context entry and start it empty. -/
def Dev.startContext (d : Dev) (h : Nat) (enc : Bool) (charge : Nat) (k0 k1 k3 : BitVec 128) (resync : Bool) : Dev :=
  let p := vePage h
  let put (d : Dev) (k : Nat) (x : BitVec 128) : Dev :=
    (List.range 4).foldl (fun d i => d.setTw p (ctxAddr h k) i (wordAt x i)) d
  let d := put (put (put (put d 0 k0) 1 (if enc then k1 else 0)) 2 0) 3 k3
  let d := d.setTf p (ctxAddr h 0) 0 1 0 (1 + enc.toNat * 2)
  let d := d.setVctx h { VCtx.reset with charge := charge, fw := true, cur := { VGen.empty with resync := resync } }
  d.showCtx h

/-- CONTEXT_PLACE: firmware places a decode context of a leg or an encode context of a local source, or refuses it with
PX event TABLE_REFUSED (R178). For an encode context `leg` is the handle of the compositor output that feeds it (R229). -/
def Dev.contextPlace (d : Dev) (enc : Bool) (leg fps : Nat) (k0 k1 k3 : BitVec 128) : Dev :=
  if enc && !encodeOk k0 k1 then d
  else
    let w := fld 12 0 (wordAt k0 3)
    let h := fld 28 16 (wordAt k0 3)
    let charge := chargedPixels w h * fps
    match d.placeEngine charge with
    | none => d.detect Pg.px Evt.PX_TABLE_REFUSED
    | some e =>
      match d.freeContext e with
      | none => d
      | some c =>
        let d := d.startContext (e * 512 + c) enc charge k0 k1 k3 false
        if enc then d.setVctx (e * 512 + c) { d.vctxOf (e * 512 + c) with feed := some (leg % 512) }
        else d.setTf Pg.px (0x10000 + leg * 4) 1 28 16 (e * 512 + c)

/-- The words of a context entry packed. -/
def Dev.ctxWords (d : Dev) (h k : Nat) : BitVec 128 :=
  BitVec.ofNat 128 ((List.range 4).foldl (fun a i => a + (d.tw (vePage h) (ctxAddr h k) i).toNat * 2 ^ (32 * i)) 0)

/-- Move one of firmware's contexts off a retired engine (R189). -/
def Dev.moveContext (d : Dev) (h : Nat) : Dev :=
  let c := d.vctxOf h
  if !c.fw || !d.ctxValid h then d
  else
    let enc := d.ctxEncode h
    let (k0, k1, k3) := (d.ctxWords h 0, d.ctxWords h 1, d.ctxWords h 3)
    let d := (d.setTf (vePage h) (ctxAddr h 0) 0 0 0 0).setVctx h VCtx.reset
    match d.placeEngine c.charge with
    | none => d.detect Pg.px Evt.PX_TABLE_REFUSED
    | some e =>
      match d.freeContext e with
      | none => d
      | some x =>
        let n := e * 512 + x
        let d := d.startContext n enc c.charge k0 k1 k3 enc
        let d := d.setVctx n { d.vctxOf n with feed := c.feed }
        if enc then d
        else
          let leg := fld 12 0 (wordAt k3 0)
          let d := if bit 13 (wordAt k3 0) then d.setTf Pg.px (0x10000 + leg * 4) 1 28 16 n else d
          d.sendPli n

/-- Firmware empties a retired video engine: its own jobs are discarded and its contexts move, in ascending handle order
(R189). -/
def Dev.moveContexts (d : Dev) (e : Nat) : Dev :=
  let own := ((d.veng e).queue ++ (d.veng e).bound.map (·.job)).filter (·.item.isNone)
  let d := own.foldl (fun d j => (d.release j.uj).subInflight (pg (0x10 + e))) d
  let d := d.setVeng e { VEng.reset with nextId := (d.veng e).nextId }
  (List.range 512).foldl (fun d c => d.moveContext (e * 512 + c)) d

/-- CONTEXT_PLACE (R178). -/
def execContextPlace (enc : Bool) (leg : Fin 8192) (fps : Fin 128) (k0 k1 k3 : BitVec 128) (s : State) :
    Host.Outcome State Fault Refusal :=
  s.on (·.contextPlace enc leg.val fps.val k0 k1 k3)

end Sys2Proof.Machine
end

