-- ==== Sys2Proof/Machine/Compose.lean ====
section
/-! DEFINITION. How a compositor forms the samples of a frame: widening, scaling, conversion, blending, output (R231 to
R234). The functions read memory through `rd` and the scaler coefficients through `co`, so that a frame is a function of
what was latched and of memory. -/

namespace Sys2Proof.Machine

/-- A number held within 0 and a bound. -/
def clampTo (x : Int) (hi : Nat) : Nat := if x < 0 then 0 else if (hi : Int) < x then hi else x.toNat

/-- One direction of the scaler (R234): taps, crop start and size, destination size, output position, source samples,
coefficients of a phase, largest value. -/
def scale1 (taps start size dst x : Nat) (src : Nat → Nat) (coef : Nat → Nat → Int) (hi : Nat) : Nat :=
  if size = dst then src (start + x)
  else
    let step : Int := (size * 65536 / max dst 1 : Nat)
    let pos : Int := (start * 65536 : Nat) + (step - 65536) / 2 + (x : Int) * step
    let phase := ((pos / 1024) % 64).toNat
    let base : Int := pos / 65536
    let sum : Int := (List.range taps).foldl (fun (a : Int) (j : Nat) =>
      let k : Int := base + (j : Int) - (((taps - 1) / 2 : Nat) : Int)
      let k := if k < start then start else if (start + size - 1 : Nat) < k then start + size - 1 else k.toNat
      a + coef phase j * (src k : Int)) 0
    clampTo ((sum + 128) / 256) hi

/-- Both directions, horizontal first (assumption log 14). -/
def scale2 (ht vt cx cy cw ch dw dh x y : Nat) (src : Nat → Nat → Nat) (co : Nat → Nat → Nat → Int) (hi : Nat) : Nat :=
  scale1 vt cy ch dh y (fun yy => scale1 ht cx cw dw x (fun xx => src xx yy) (co 0) hi) (co 1) hi

/-- What a layer gives at a position of the output. -/
structure Sample where
  y : Nat
  cb : Nat
  cr : Nat
  pa : Nat
deriving DecidableEq, Repr

/-- ARGB to 10-bit YCbCr, limited range (Table 10.1). -/
def argbToYcc (m709 : Bool) (r g b : Int) : Nat × Nat × Nat :=
  let f (o cr cg cb : Int) : Nat := clampTo (o + (cr * r + cg * g + cb * b + 512) / 1024) 1023
  if m709 then (f 64 748 2516 254, f 512 (-412) (-1387) 1799, f 512 1799 (-1634) (-165))
  else (f 64 1052 2065 401, f 512 (-607) (-1192) 1799, f 512 1799 (-1506) (-293))

/-- A 10-bit sample of a plane: 8-bit samples shifted left by two, P010 samples by their upper ten bits (R232). -/
def planeSample (rd : Nat → Nat) (bps addr : Nat) : Nat :=
  if bps = 1 then rd addr * 4 else (rd addr + rd (addr + 1) * 256) / 64

/-- The parameters of a layer's scaler and place. -/
structure LayerGeo where
  ht : Nat
  vt : Nat
  ga : Nat
  cx : Nat
  cy : Nat
  cw : Nat
  ch : Nat
  dx : Nat
  dy : Nat
  dw : Nat
  dh : Nat
deriving DecidableEq, Repr

/-- A YCbCr picture at `base` with luma pitch and height, sampled at (x, y) of the destination rectangle; chroma is
scaled at its own resolution and replicated (assumption log 14). -/
def yccSample (rd : Nat → Nat) (co : Nat → Nat → Nat → Int) (g : LayerGeo) (base pitch height bps x y : Nat) : Sample :=
  let luma (xx yy : Nat) := planeSample rd bps (base + yy * pitch + xx * bps)
  let chroma (o xx yy : Nat) := planeSample rd bps (base + pitch * height + yy * pitch + (2 * xx + o) * bps)
  let c (o : Nat) := scale2 g.ht g.vt (g.cx / 2) (g.cy / 2) (g.cw / 2) (g.ch / 2) (g.dw / 2) (g.dh / 2) (x / 2) (y / 2)
    (chroma o) co 1023
  { y := scale2 g.ht g.vt g.cx g.cy g.cw g.ch g.dw g.dh x y luma co 1023, cb := c 0, cr := c 1, pa := 255 }

/-- An ARGB8888 picture: bytes B, G, R, A of each pixel (assumption log 15). -/
def argbSample (rd : Nat → Nat) (co : Nat → Nat → Nat → Int) (m709 : Bool) (g : LayerGeo) (base pitch x y : Nat) : Sample :=
  let ch (o : Nat) := scale2 g.ht g.vt g.cx g.cy g.cw g.ch g.dw g.dh x y (fun xx yy => rd (base + yy * pitch + xx * 4 + o)) co 255
  let (yy, cb, cr) := argbToYcc m709 (ch 2) (ch 1) (ch 0)
  { y := yy, cb := cb, cr := cr, pa := ch 3 }

/-- The sample of a latched layer. -/
def layerSample (rd : Nat → Nat) (co : Nat → Nat → Nat → Int) (m709 : Bool) (g : LayerGeo) (l : LayerPic) (x y : Nat) :
    Option Sample :=
  match l with
  | .none => none
  | .solid yy cb cr => some { y := yy, cb := cb, cr := cr, pa := 255 }
  | .video _ _ base bps w h vx vy vw vh =>
    let g := if g.cw = 0 then { g with cx := vx, cy := vy, cw := vw, ch := vh } else g
    some (yccSample rd co g base (ceilDiv (w * bps) 256 * 256) h bps x y)
  | .buffer base pitch fmt w h =>
    let g := if g.cw = 0 then { g with cx := 0, cy := 0, cw := w, ch := h } else g
    if fmt = 2 then some (argbSample rd co m709 g base pitch x y)
    else some (yccSample rd co g base pitch h (if fmt = 0 then 1 else 2) x y)

/-- Blend one component (R232): a of 65,025 parts of S over D. -/
def blend1 (s dd a : Nat) : Nat := (s * a + dd * (65025 - a) + 32512) / 65025

/-- Blend a sample over another with a global alpha. -/
def blend (s dd : Sample) (ga : Nat) : Sample :=
  let a := ga * s.pa
  { y := blend1 s.y dd.y a, cb := blend1 s.cb dd.cb a, cr := blend1 s.cr dd.cr a, pa := 255 }

/-! ## A frame's latched configuration -/

/-- Word i of entry a of a latched output. -/
def CpFrame.w (f : CpFrame) (a i : Nat) : Word := f.cfg.getD (a * 4 + i) 0
def CpFrame.width (f : CpFrame) : Nat := fld 12 0 (f.w 0 1)
def CpFrame.height (f : CpFrame) : Nat := fld 28 16 (f.w 0 1)
def CpFrame.bps (f : CpFrame) : Nat := if bit 2 (f.w 0 0) then 2 else 1
def CpFrame.m709 (f : CpFrame) : Bool := bit 3 (f.w 0 0)
def CpFrame.pitch (f : CpFrame) : Nat := roundUp (f.width * f.bps) 256
def CpFrame.poolBase (f : CpFrame) : Nat := fld 31 12 (f.w 1 0) * 4096 + fld 4 0 (f.w 1 1) * 2 ^ 32
def CpFrame.slotSize (f : CpFrame) : Nat := roundUp (f.pitch * f.height * 3 / 2) 4096

/-- HTAPS as a number of taps. -/
def htaps (n : Nat) : Nat := if n = 0 then 2 else if n = 1 then 4 else 8

/-- Geometry of layer L. -/
def CpFrame.geo (f : CpFrame) (l : Nat) : LayerGeo :=
  let s := f.w (4 + 2 * l) 0
  { ht := htaps (fld 22 21 s), vt := fld 7 5 s, ga := fld 15 8 s, cx := fld 12 0 (f.w (5 + 2 * l) 0),
    cy := fld 28 16 (f.w (5 + 2 * l) 0), cw := fld 13 0 (f.w (5 + 2 * l) 1), ch := fld 28 16 (f.w (5 + 2 * l) 1),
    dx := fld 12 0 (f.w (5 + 2 * l) 2), dy := fld 28 16 (f.w (5 + 2 * l) 2), dw := fld 12 0 (f.w (5 + 2 * l) 3),
    dh := fld 28 16 (f.w (5 + 2 * l) 3) }

/-- The 4:4:4 sample of the output at (x, y): background, layers in ascending index, cursor (R232, R233). -/
def CpFrame.pixel (f : CpFrame) (rd : Nat → Nat) (co : Nat → Nat → Nat → Nat → Int) (cursor : Bool) (x y : Nat) : Sample :=
  let bg := f.w 0 2
  let s0 : Sample := { y := fld 9 0 bg, cb := fld 19 10 bg, cr := fld 29 20 bg, pa := 255 }
  let s := (List.range 16).foldl (fun s l =>
    let g := f.geo l
    if bit l (f.w 0 3) && g.dx ≤ x && x < g.dx + g.dw && g.dy ≤ y && y < g.dy + g.dh then
      match layerSample rd (co (fld 23 23 (f.w (4 + 2 * l) 0))) f.m709 g (f.layers.getD l .none) (x - g.dx) (y - g.dy) with
      | some p => blend p s g.ga
      | none => s
    else s) s0
  let cx := signed 14 (fld 13 0 (f.w 2 2))
  let cy := signed 14 (fld 29 16 (f.w 2 2))
  let px := (x : Int) - cx
  let py := (y : Int) - cy
  if cursor && bit 16 (f.w 0 3) && 0 ≤ px && px < 64 && 0 ≤ py && py < 64 then
    let base := fld 31 12 (f.w 2 0) * 4096 + fld 7 0 (f.w 2 1) * 2 ^ 32
    let g : LayerGeo := { ht := 2, vt := 2, ga := 255, cx := 0, cy := 0, cw := 64, ch := 64, dx := 0, dy := 0, dw := 64, dh := 64 }
    blend (argbSample rd (fun _ _ _ => 0) f.m709 g base 256 px.toNat py.toNat) s 255
  else s

/-- A 10-bit value in the output format: NV12 narrowed and saturated, P010 in the upper bits (R232). -/
def outBytes (bps v : Nat) : List Byte :=
  if bps = 1 then [BitVec.ofNat 8 (min ((v + 2) / 4) 255)] else bytesLE 2 (v % 1024 * 64)

/-- Bytes of a luma row from column x0, n samples. -/
def CpFrame.lumaRow (f : CpFrame) (rd : Nat → Nat) (co : Nat → Nat → Nat → Nat → Int) (cur : Bool) (y x0 n : Nat) : List Byte :=
  (List.range n).flatMap (fun i => outBytes f.bps (f.pixel rd co cur (x0 + i) y).y)

/-- Bytes of an interleaved chroma row: each value the rounded mean of its 2 × 2 block. -/
def CpFrame.chromaRow (f : CpFrame) (rd : Nat → Nat) (co : Nat → Nat → Nat → Nat → Int) (cur : Bool) (y x0 n : Nat) : List Byte :=
  (List.range n).flatMap (fun i =>
    let x := x0 + 2 * i
    let q (k : Nat) := f.pixel rd co cur (x + k % 2) (2 * y + k / 2)
    let m (g : Sample → Nat) := ((List.range 4).foldl (fun a k => a + g (q k)) 0 + 2) / 4
    outBytes f.bps (m (·.cb)) ++ outBytes f.bps (m (·.cr)))

/-- The rows of the slot: byte offset and bytes (R226). -/
def CpFrame.rows (f : CpFrame) (rd : Nat → Nat) (co : Nat → Nat → Nat → Nat → Int) : List (Nat × List Byte) :=
  (List.range f.height).map (fun y => (y * f.pitch, f.lumaRow rd co true y 0 f.width)) ++
  (List.range (f.height / 2)).map (fun y => ((f.height + y) * f.pitch, f.chromaRow rd co true y 0 (f.width / 2)))

/-- CRC-32 of region i, the cursor left out (R239). -/
def CpFrame.regionCrc (f : CpFrame) (rd : Nat → Nat) (co : Nat → Nat → Nat → Nat → Int) (i : Nat) : Nat :=
  let (x, y) := (fld 12 0 (f.w (36 + i) 1), fld 28 16 (f.w (36 + i) 1))
  let (w, h) := (fld 12 0 (f.w (36 + i) 2), fld 28 16 (f.w (36 + i) 2))
  Config.crc32 ((List.range h).flatMap (fun r => f.lumaRow rd co false (y + r) x w) ++
    (List.range (h / 2)).flatMap (fun r => f.chromaRow rd co false (y / 2 + r) x (w / 2)))

end Sys2Proof.Machine
end

