-- ==== Sys2Proof/Machine/Composition.lean ====
section
/-! DEFINITION. Compositors: openings, late layers, written frames, signature regions and the validator (chapter 10). -/

namespace Sys2Proof.Machine

namespace Cause
abbrev OUT_MODE := 0x60
abbrev OUT_INVALID := 0x61
abbrev ACCESS := 0x62
end Cause

/-- Page of compositor c. -/
def cpPage (c : Nat) : Page := pg (0x28 + c)

/-- An output of a compositor. -/
def Dev.cpOut (d : Dev) (c o : Nat) : CpOut := SMap.get (fun _ => CpOut.reset) (d.cpUnit c).outs o
/-- Replace an output. -/
def Dev.setCpOut (d : Dev) (c o : Nat) (x : CpOut) : Dev :=
  d.setCpUnit c { d.cpUnit c with outs := SMap.set (fun _ => CpOut.reset) (d.cpUnit c).outs o x }

/-- A scaler coefficient: bank, direction, phase, index (Table 10.7). -/
def Dev.coef (d : Dev) (c bank dir phase j : Nat) : Int :=
  let w := d.tw (cpPage c) (0x2000 + bank * 0x80 + dir * 0x40 + phase) (j / 2)
  signed 10 (if j % 2 = 0 then fld 9 0 w else fld 25 16 w)

/-- The 256 active words of an output. -/
def Dev.outputWords (d : Dev) (c o : Nat) : List Word :=
  (List.range 256).map (fun i => d.tw (cpPage c) (o * 64 + i / 4) (i % 4))

/-- The frame that an opening would latch, before its layers. -/
def Dev.frameOf (d : Dev) (c o : Nat) (item : Option (Nat × Nat)) (slot : Nat) : CpFrame :=
  { out := o, item := item, cfg := d.outputWords c o, layers := [], slot := slot, lateMask := 0, staleMask := 0,
    openedNs := d.time64 }

/-- A slot of an output's pool is named as SRC by an encode job queued or bound (R228). -/
def Dev.slotRead (d : Dev) (a size : Nat) : Bool :=
  (List.range 16).any (fun e => (d.veng e).queue.any (fun j => j.encode && a ≤ j.src && j.src < a + size) ||
    (d.veng e).bound.any (fun p => p.job.encode && a ≤ p.job.src && p.job.src < a + size))

/-- The lowest free slot of an output (R228). -/
def Dev.cpFreeSlot (d : Dev) (c o : Nat) : Option Nat :=
  let f := d.frameOf c o none 0
  let x := d.cpOut c o
  (List.range (fld 11 8 (f.w 1 1))).find? (fun s =>
    let a := f.poolBase + s * f.slotSize
    !(x.published.any (fun p => overlaps a f.slotSize (x.pubBase + p * x.pubSize) x.pubSize)) && !d.slotRead a f.slotSize &&
      !(d.cpUnit c).frames.any (fun g => g.out == o && g.slot == s))

/-- Enter a transition of a 16-entry pop queue; a further one overwrites the oldest and marks the next LOST. -/
def pushStale (l : List (Nat × Nat × Bool)) (o k : Nat) : List (Nat × Nat × Bool) :=
  if l.length < 16 then l ++ [(o, k, false)]
  else match l with
    | _ :: (a, b, _) :: xs => (a, b, true) :: xs ++ [(o, k, false)]
    | _ => [(o, k, false)]

/-- The same for mismatches with their CRC. -/
def pushSig (l : List (Nat × Nat × Bool × Nat)) (o k crc : Nat) : List (Nat × Nat × Bool × Nat) :=
  if l.length < 16 then l ++ [(o, k, false, crc)]
  else match l with
    | _ :: (a, b, _, v) :: xs => (a, b, true, v) :: xs ++ [(o, k, false, crc)]
    | _ => [(o, k, false, crc)]

/-- What layer L of an output shows when nothing new is expected: its buffer or colour, or the latest output picture of a
decode context, with the serial that tells a new picture (R231, R238). -/
def Dev.layerSource (d : Dev) (f : CpFrame) (l : Nat) : LayerPic × Option Nat :=
  let s := f.w (4 + 2 * l) 0
  let v := f.w (4 + 2 * l) 1
  match fld 1 0 s with
  | 0 =>
    let h := fld 12 0 v
    if !d.ctxValid h || d.ctxEncode h then (.none, none)
    else
      let g := (d.vctxOf h).cur
      match g.outSlot with
      | some k =>
        let (x, y, w, hh) := g.crop
        (.video h k (d.slotAddr h k) (d.ctxB h) (d.ctxW h) (d.ctxH h) x y w hh, some (h * 2 ^ 40 + g.outSerial))
      | none => (.none, none)
  | 1 => (.buffer (fld 31 8 v * 256 + fld 7 0 (f.w (4 + 2 * l) 2) * 2 ^ 32) (fld 31 16 (f.w (4 + 2 * l) 2)) (fld 3 2 s)
      (fld 13 0 (f.w (4 + 2 * l) 3)) (fld 28 16 (f.w (4 + 2 * l) 3)), none)
  | 2 => (.solid (fld 9 0 v) (fld 19 10 v) (fld 29 20 v), none)
  | _ => (.none, none)

/-- Judge layer L at an opening and latch its source (R238). -/
def Dev.judgeLayer (d : Dev) (c : Nat) (f : CpFrame) (l : Nat) : Dev × CpFrame :=
  let add (x : LayerPic) (f : CpFrame) : CpFrame := { f with layers := f.layers ++ [x] }
  if !bit l (f.w 0 3) then (d, add .none f)
  else
    let p := cpPage c
    let x := d.cpOut c f.out
    let lay := SMap.get (fun _ => CpLayer.reset) x.layers l
    let put (d : Dev) (y : CpLayer) : Dev :=
      let x := d.cpOut c f.out
      d.setCpOut c f.out { x with layers := SMap.set (fun _ => CpLayer.reset) x.layers l y }
    let (src, serial) := d.layerSource f l
    let expect := fld 20 16 (f.w (4 + 2 * l) 0)
    let kind := fld 1 0 (f.w (4 + 2 * l) 0)
    let st := 0x4000 + f.out * 32 + l
    let fresh := serial.isSome && serial != lay.serial
    let since := lay.since + 1
    if fresh || (expect = 0 && kind ≠ 0) then
      let d := put d { lay with shown := src, serial := serial, since := 0, lates := 0, staleRun := false }
      let d := (d.setTf p st 0 9 0 0).setTw p st 2 (match src with | .video _ k _ _ _ _ _ _ _ _ => word k | _ => 0)
      (d, add src f)
    else if expect = 0 || since < expect then (put d { lay with since := since }, add lay.shown f)
    else
      let n := lay.lates + 1
      let d := ((d.bump p Reg.CP_LATE_CNT 15 0).bumpT p st 1 31 0).detect p Evt.CP_LAYER_LATE
      let f := { f with lateMask := f.lateMask + 2 ^ l }
      let stale := decide (d.rf p Reg.CP_CFG 3 0 < n)
      let d := d.setTf p st 0 9 0 (min n 255 + 256 + stale.toNat * 512)
      if !stale then (put d { lay with since := since, lates := n }, add lay.shown f)
      else
        let d := put d { lay with since := since, lates := n, staleRun := true }
        let f := add .none { f with staleMask := f.staleMask + 2 ^ l }
        if lay.staleRun then (d, f)
        else
          let u := d.cpUnit c
          let d := d.setCpUnit c { u with stale := pushStale u.stale f.out l }
          ((d.bump p Reg.CP_LATE_CNT 31 16).detect p Evt.CP_LAYER_STALE, f)

/-- Luma samples of an output and of its layers for one frame, in 1/1,024 of 10^6 (R229, R241). -/
def Dev.cpUnits (d : Dev) (c o : Nat) : Nat :=
  let f := d.frameOf c o none 0
  let ins := (List.range 16).foldl (fun a l => if bit l (f.w 0 3) then
    let g := f.geo l
    let w := if g.cw = 0 then fld 13 0 (f.w (4 + 2 * l) 3) else g.cw
    let h := if g.cw = 0 then fld 28 16 (f.w (4 + 2 * l) 3) else g.ch
    a + w * h else a) 0
  (f.width * f.height + ins) * 1024 / 1000000

/-- Open a frame of an output in a slot, for an item or for an admitted job with its reservation (R227, R228). -/
def Dev.openFrame (d : Dev) (c o : Nat) (item : Option (Nat × Nat)) (s uj : Nat) : Dev :=
  let p := cpPage c
  let (d, f) := (List.range 16).foldl (fun (y : Dev × CpFrame) l => y.1.judgeLayer c y.2 l) (d, { d.frameOf c o item s with uj := uj })
  let u := d.cpUnit c
  let d := d.setCpUnit c { u with frames := u.frames ++ [f] }
  let d := (d.setRf p Reg.CP_STAT 6 0 o).setRb p Reg.CP_STAT 7 true
  match item with
  | some (r, q) => (d.modItem r q (fun i => { i with phase := .running })).transition r q .started
  | none => d.addInflight p

/-- An admitted composition job of an output starts, unless the output cannot open a frame now. -/
def Dev.composeJob (d : Dev) (c o e : Nat) : Dev :=
  if !(d.hdr (cpPage c)).state.serves || !bit 0 (d.tw (cpPage c) (o * 64) 0) || (d.cpUnit c).frames.any (fun f => f.out == o) then d.release e
  else match d.cpFreeSlot c o with
    | none => d.release e
    | some s => d.openFrame c o none s e

/-- FRAME_OPEN: a tick of an output (R227 to R229). A composition that is not ring work passes admission (R176). -/
def Dev.frameOpen (d : Dev) (c o : Nat) : Dev :=
  let p := cpPage c
  let e0 := d.tw p (o * 64) 0
  let x := d.cpOut c o
  let d := { d with held := d.held.filter (fun j => j.what != .compose c o) }
  if !(d.hdr p).state.serves || (d.hdr p).rst || !bit 0 e0 || (bit 1 e0 && x.reqs.isEmpty) then d
  else if (d.cpUnit c).frames.any (fun f => f.out == o) then
    (d.bump p Reg.CP_SKIP_CNT 15 0).detect p Evt.CP_FRAME_LATE
  else
    match d.cpFreeSlot c o with
    | none => (d.bump p Reg.CP_SKIP_CNT 31 16).detect p Evt.CP_OUT_BUSY
    | some s =>
      if bit 1 e0 then
        (d.setCpOut c o { d.cpOut c o with reqs := x.reqs.drop 1 }).openFrame c o x.reqs.head? s 0
      else
        match d.admitJob { cls := 11, units := d.cpUnits c o, fb := none, page := p, what := .compose c o } with
        | (d, some (_, e)) => d.openFrame c o none s e
        | (d, none) => d

/-- Does every source range of a frame read without error (R230)? -/
def Dev.sourcesRead (d : Dev) (f : CpFrame) : Bool :=
  f.layers.all (fun l => match l with
    | .video _ _ base bps w h _ _ _ _ => d.physCheck base (roundUp (w * bps) 256 * h * 3 / 2) false == .ok
    | .buffer base pitch fmt _ h => d.physCheck base (if fmt = 2 then pitch * h else pitch * h * 3 / 2) false == .ok
    | _ => true)

/-- Check region i of a finished frame: a mismatch is reported (R240). The result says mismatch and hold. -/
def Dev.checkRegion (d : Dev) (c : Nat) (f : CpFrame) (rd : Nat → Nat) (co : Nat → Nat → Nat → Nat → Int) (i : Nat) : Dev × Bool :=
  if !bit 0 (f.w (36 + i) 0) then (d, false)
  else
    let crc := f.regionCrc rd co i
    if crc = (f.w (36 + i) 3).toNat then (d, false)
    else
      let u := d.cpUnit c
      ((d.setCpUnit c { u with sig := pushSig u.sig f.out i crc }).detect (cpPage c) Evt.CP_SIG_MISMATCH, true)

/-- Firmware queues the encodes fed by an output against its newly published slot (R229). -/
def Dev.feedEncodes (d : Dev) (c o addr pitch size : Nat) : Dev :=
  (d.vctx.map Prod.fst).foldl (fun d h =>
    let x := d.vctxOf h
    if x.feed = some (c * 128 + o) && d.ctxValid h && d.ctxEncode h then
      let j : VJob := { id := 0, item := none, ctx := 0, encode := true, skip := false, lowEffort := false, ceil := none,
                        gap := false, src := addr, len := size, pitch := pitch, dst := 0, dstPitch := 0,
                        dstSize := 2 ^ 32 - 1, asid := 0, stamp := d.time64 * 9 / 100000 % 2 ^ 32, forceIrap := false,
                        forceRefresh := false, noEmit := false }
      let units := d.ctxW h * d.ctxH h * 1024 / 1000000
      let mine := (d.veng (h / 512)).queue.filter (fun q => q.ctx == h % 512)
      let fb := if d.keyPicture h mine (d.workGen h) j then none else some (10, units)
      match d.admitJob { cls := videoClass true (d.ctxHevc h), units := units, fb := fb, page := vePage h, what := .encode h j } with
      | (d, some (f, e)) => d.queueEncode h { j with skip := f == .fallback, uj := e }
      | (d, none) => d
    else d) d

/-- FRAME_WRITTEN: the frame in progress is written, checked and published (R228, R230, R239 to R241). -/
def Dev.frameWritten (d : Dev) (c : Nat) (readErr writeErr : Bool) : Dev :=
  let p := cpPage c
  match (d.cpUnit c).frames with
  | [] => d
  | f :: fs =>
    if !d.itemActs f.item .started then d
    else
      let rd (a : Nat) : Nat := ((d.physByte a).getD 0).toNat
      let co (b dir ph j : Nat) : Int := d.coef c b dir ph j
      let d0 := d.setCpUnit c { d.cpUnit c with frames := fs }
      let rerr := readErr || !d.sourcesRead f
      let d1 := if rerr then d0.detect p Evt.CP_ACCESS_ERR else d0
      let base := f.poolBase + f.slot * f.slotSize
      let (d2, werr) := (f.rows rd co).foldl (fun (y : Dev × Bool) r =>
        let (d, m) := y.1.physWrite (base + r.1) r.2 (some (280 + c))
        (d, y.2 || m != .ok)) (d1, writeErr)
      let d3 := if werr then d2.detect p Evt.CP_ACCESS_ERR else d2
      let (d4, mask) := (List.range 8).foldl (fun (y : Dev × Nat) i =>
        let (d, bad) := y.1.checkRegion c f rd co i
        (d, if bad then y.2 + 2 ^ i else y.2)) (d3, 0)
      let held := (List.range 8).any (fun i => mask.testBit i && bit 1 (f.w (36 + i) 0))
      let d5 := if mask ≠ 0 then d4.bump p Reg.CP_SIG_CNT 15 0 else d4
      let d6 := if held then d5.bump p Reg.CP_SIG_CNT 31 16 else d5
      let u := d6.cpUnit c
      let now := d6.nowNs
      let inPix := f.layers.foldl (fun a l => match l with
        | .video _ _ _ _ _ _ _ _ cw ch => a + cw * ch
        | .buffer _ _ _ w h => a + w * h
        | _ => a) 0
      let d7 := d6.setCpUnit c { u with pixOut := logAdd u.pixOut now 1000000000 (f.width * f.height),
                                        pixIn := logAdd u.pixIn now 1000000000 inPix,
                                        rdBytes := logAdd u.rdBytes now 1000000 (inPix * 3 / 2),
                                        wrBytes := logAdd u.wrBytes now 1000000 (f.pitch * f.height * 3 / 2) }
      let publish := !held && !werr
      let d8 :=
        if publish then
          let x := d7.cpOut c f.out
          let d := d7.setCpOut c f.out { x with published := some f.slot, pubBase := f.poolBase, pubSize := f.slotSize }
          let d := (d.setTw p (f.out * 64 + 1) 2 (word f.slot)).bump p Reg.CP_FRAMES 31 0
          if f.item.isNone then d.feedEncodes c f.out base f.pitch f.slotSize else d
        else d7
      let d9 := if fs.isEmpty then d8.setRb p Reg.CP_STAT 7 false else d8
      match f.item with
      | none => (d9.release f.uj).subInflight p
      | some (r, s) =>
        match d9.item? r s with
        | none => d9
        | some i =>
          if werr then d9.finishPlain r s .failed Cause.ACCESS
          else
            let flags := (f.lateMask != 0).toNat + (f.staleMask != 0).toNat * 2 + (mask != 0).toNat * 4 + held.toNat * 8 + rerr.toNat * 16
            d9.finish r s { i.plain i.doneStatus 0 with
              flags := word flags,
              result0 := BitVec.ofNat 64 (((d9.cpOut c f.out).published.getD 0xFF) % 256),
              result1 := BitVec.ofNat 64 (f.lateMask + f.staleMask * 2 ^ 16),
              eres := eresOf [(0, descF i.desc 48 31 0), (4, mask), (8, f.openedNs)] }

/-- COMPOSE: the item waits for its output's next tick (R241). -/
def Dev.composeItem (d : Dev) (ring seq : Nat) : Dev :=
  match d.itemAt ring seq 5 with
  | none => d
  | some i =>
    let h := ctxOf i.desc % 512
    let c := h / 128
    let o := h % 128
    if opOf i.desc ≠ 0 then d.finishPlain ring seq .failed Cause.BAD_DESC
    else if instanceOf i.desc ≠ 0xFF && instanceOf i.desc ≠ c then d.finishPlain ring seq .failed Cause.OUT_INVALID
    else if !d.tb (cpPage c) (o * 64) 0 0 || !d.tb (cpPage c) (o * 64) 0 1 then d.finishPlain ring seq .failed Cause.OUT_MODE
    else
      let x := d.cpOut c o
      if x.reqs.any (fun q => q == (ring, seq)) then d else d.setCpOut c o { x with reqs := x.reqs ++ [(ring, seq)] }

/-- BLEND_HANG: no progress for HANG_MS (Table 10.5). -/
def Dev.blendHang (d : Dev) (c : Nat) : Dev :=
  if (d.cpUnit c).frames.isEmpty then d else d.detect (cpPage c) Evt.CP_BLEND_HANG

/-- CPn_STALE_POP (Table 10.6). -/
def Dev.stalePop (d : Dev) (c : Nat) : Dev :=
  let u := d.cpUnit c
  match u.stale with
  | [] => d.answer 0
  | (o, l, lost) :: xs => (d.setCpUnit c { u with stale := xs }).answer (word (o + l * 2 ^ 7 + lost.toNat * 2 ^ 30 + 2 ^ 31))

/-- CPn_SIG_POP: the found CRC is latched (Table 10.6). -/
def Dev.sigPop (d : Dev) (c : Nat) : Dev :=
  let u := d.cpUnit c
  match u.sig with
  | [] => d.answer 0
  | (o, k, lost, crc) :: xs =>
    ((d.setCpUnit c { u with sig := xs }).setReg (cpPage c) Reg.CP_SIG_FOUND (word crc)).answer
      (word (o + k * 2 ^ 7 + lost.toNat * 2 ^ 30 + 2 ^ 31))

/-! ## The validator (R235, R237) -/

/-- A word of an output's shadow. -/
def Dev.shw (d : Dev) (c o a i : Nat) : Word := d.tsw (cpPage c) (o * 64 + a) i


/-- A size times a tick rate, per second. -/
def Dev.perSecond (d : Dev) (g n : Nat) : Nat :=
  if d.tickPeriod g = 0 then 0 else n * 1000000000 * 2 ^ 32 / d.tickPeriod g

/-- Line-buffer width, height of the source part, and whether the layer is YCbCr, from shadow words. -/
def Dev.shCrop (d : Dev) (c o l : Nat) : Nat × Nat :=
  let s := d.shw c o (4 + 2 * l) 0
  let cw := fld 13 0 (d.shw c o (5 + 2 * l) 1)
  let ch := fld 28 16 (d.shw c o (5 + 2 * l) 1)
  if cw ≠ 0 then (cw, ch)
  else if fld 1 0 s = 0 then
    let h := fld 12 0 (d.shw c o (4 + 2 * l) 1)
    (d.ctxW h, d.ctxH h)
  else if fld 1 0 s = 1 then (fld 13 0 (d.shw c o (4 + 2 * l) 3), fld 28 16 (d.shw c o (4 + 2 * l) 3))
  else (fld 12 0 (d.shw c o (5 + 2 * l) 3), fld 28 16 (d.shw c o (5 + 2 * l) 3))

/-- Cause of a refused layer, 0 none (Table 10.2). -/
def Dev.layerCause (d : Dev) (c o l : Nat) : Nat :=
  let s := d.shw c o (4 + 2 * l) 0
  let kind := fld 1 0 s
  let fmt := fld 3 2 s
  let vt := fld 7 5 s
  let (cw, ch) := d.shCrop c o l
  let (cx, cy) := (fld 12 0 (d.shw c o (5 + 2 * l) 0), fld 28 16 (d.shw c o (5 + 2 * l) 0))
  let (dx, dy) := (fld 12 0 (d.shw c o (5 + 2 * l) 2), fld 28 16 (d.shw c o (5 + 2 * l) 2))
  let (dw, dh) := (fld 12 0 (d.shw c o (5 + 2 * l) 3), fld 28 16 (d.shw c o (5 + 2 * l) 3))
  let (ow, oh) := (fld 12 0 (d.shw c o 0 1), fld 28 16 (d.shw c o 0 1))
  let (sw, sh) := (fld 13 0 (d.shw c o (4 + 2 * l) 3), fld 28 16 (d.shw c o (4 + 2 * l) 3))
  let pitch := fld 31 16 (d.shw c o (4 + 2 * l) 2)
  let argb := kind = 1 && fmt = 2
  let lines := if ch ≠ dh then vt else 1
  let whole := fld 13 0 (d.shw c o (5 + 2 * l) 1) = 0
  if kind ≠ 2 && !((lines ≤ 6 && cw ≤ 4096) || (lines ≤ 3 && cw ≤ 8192)) then 1
  else if kind ≠ 2 && (dw * 8 < cw || cw * 8 < dw || dh * 8 < ch || ch * 8 < dh) then 2
  else if (kind = 1 && !whole && (sw < cx + cw || sh < cy + ch)) || ow < dx + dw || oh < dy + dh ||
      (!argb && (dx % 2 + dy % 2 + dw % 2 + dh % 2 + (if whole || kind = 2 then 0 else cx % 2 + cy % 2 + cw % 2 + ch % 2) ≠ 0)) then 3
  else if kind = 3 || (kind = 1 && fmt = 3) || fld 22 21 s = 3 || vt < 2 || 6 < vt ||
      (kind = 1 && (pitch % 64 ≠ 0 || pitch < sw * (if fmt = 2 then 4 else if fmt = 1 then 2 else 1))) then 4
  else if kind = 0 then
    let h := fld 12 0 (d.shw c o (4 + 2 * l) 1)
    if !d.ctxValid h || d.ctxEncode h then 5 else 0
  else if kind = 1 then
    let base := fld 31 8 (d.shw c o (4 + 2 * l) 1) * 256 + fld 7 0 (d.shw c o (4 + 2 * l) 2) * 2 ^ 32
    if targetOf base = .dram || targetOf base = .sram then 0 else 5
  else 0

/-- Cause of a refused output entry, 0 none. -/
def Dev.outputCause (d : Dev) (c o : Nat) : Nat :=
  let (w, h) := (fld 12 0 (d.shw c o 0 1), fld 28 16 (d.shw c o 0 1))
  let slots := fld 11 8 (d.shw c o 1 1)
  let base := fld 31 12 (d.shw c o 1 0) * 4096 + fld 4 0 (d.shw c o 1 1) * 2 ^ 32
  let bps := if bit 2 (d.shw c o 0 0) then 2 else 1
  let size := roundUp (roundUp (w * bps) 256 * h * 3 / 2) 4096
  if w < 64 || 4096 < w || h < 64 || 2304 < h || w % 2 ≠ 0 || h % 2 ≠ 0 || slots < 3 || 8 < slots ||
      0x2000000000 < base + slots * size then 6 else 0

/-- Cause of a refused region, 0 none. -/
def Dev.regionCause (d : Dev) (c o i : Nat) : Nat :=
  if !bit 0 (d.shw c o (36 + i) 0) then 0
  else
    let (x, y) := (fld 12 0 (d.shw c o (36 + i) 1), fld 28 16 (d.shw c o (36 + i) 1))
    let (w, h) := (fld 12 0 (d.shw c o (36 + i) 2), fld 28 16 (d.shw c o (36 + i) 2))
    if w = 0 || h = 0 || x % 2 + y % 2 + w % 2 + h % 2 ≠ 0 || fld 12 0 (d.shw c o 0 1) < x + w || fld 28 16 (d.shw c o 0 1) < y + h
    then 8 else 0

/-- Pixels per second an output writes and reads (R237, cause RATE). -/
def Dev.outputRate (d : Dev) (c o : Nat) : Nat × Nat :=
  let g := fld 12 8 (d.shw c o 0 0)
  let ins := (List.range 16).foldl (fun a l => if bit l (d.shw c o 0 3) then
    let (w, h) := d.shCrop c o l
    a + w * h else a) 0
  let cur := if bit 16 (d.shw c o 0 3) then 4096 else 0
  (d.perSecond g (fld 12 0 (d.shw c o 0 1) * fld 28 16 (d.shw c o 0 1)), d.perSecond g (ins + cur))

/-- The first failure of the validator over the shadow state: cause, output, element (R237). -/
def Dev.cpValidate (d : Dev) (c : Nat) : Option (Nat × Nat × Nat) :=
  let outs := (List.range 128).filter (fun o => bit 0 (d.shw c o 0 0))
  let step (acc : Option (Nat × Nat × Nat) × Nat × Nat) (o : Nat) : Option (Nat × Nat × Nat) × Nat × Nat :=
    match acc with
    | (some x, a, b) => (some x, a, b)
    | (none, a, b) =>
      let (ro, ri) := d.outputRate c o
      let oc := d.outputCause c o
      let layer := (List.range 16).find? (fun l => bit l (d.shw c o 0 3) && d.layerCause c o l != 0)
      let region := (List.range 8).find? (fun i => d.regionCause c o i != 0)
      if oc ≠ 0 then (some (oc, o, 31), a, b)
      else if 2400000000 < a + ro || 2400000000 < b + ri then (some (7, o, 31), a, b)
      else match layer, region with
        | some l, _ => (some (d.layerCause c o l, o, l), a, b)
        | none, some i => (some (8, o, 20 + i), a, b)
        | none, none => (none, a + ro, b + ri)
  (outs.foldl step (none, 0, 0)).1

/-- The active plan after a bow: PLAN_RATE and LINEBUF_MAX (Table 10.6). -/
def Dev.cpPlanned (d : Dev) (c : Nat) : Dev :=
  let outs := (List.range 128).filter (fun o => bit 0 (d.shw c o 0 0))
  let (a, b) := outs.foldl (fun (x : Nat × Nat) o => let (p, q) := d.outputRate c o; (x.1 + p, x.2 + q)) (0, 0)
  let lb := outs.foldl (fun m o => (List.range 16).foldl (fun m l => if bit l (d.shw c o 0 3) then
    let (w, h) := d.shCrop c o l
    let dh := fld 28 16 (d.shw c o (5 + 2 * l) 3)
    max m (w * (if h ≠ dh then fld 7 5 (d.shw c o (4 + 2 * l) 0) else 1)) else m) m) 0
  let p := cpPage c
  let d := d.setReg p Reg.CP_PLAN_RATE (word (min (a / 1000000) 65535 + min (b / 1000000) 65535 * 2 ^ 16))
  let d := d.setReg p Reg.CP_LINEBUF_MAX (word (min lb 32767))
  d.setReg p Reg.CP_OUTPUTS (word (outs.length % 256 +
    (outs.filter (fun o => bit 1 (d.shw c o 0 0))).length % 256 * 2 ^ 8))

/-! ## Retirement (R478) -/

/-- Copy an output's entries to another compositor, shadow and active. -/
def Dev.copyOutput (d : Dev) (c o c' o' : Nat) : Dev :=
  (List.range 256).foldl (fun d i =>
    let w := d.tw (cpPage c) (o * 64 + i / 4) (i % 4)
    (d.setTw (cpPage c') (o' * 64 + i / 4) (i % 4) w).setTsw (cpPage c') (o' * 64 + i / 4) (i % 4) w) d

/-- Firmware moves the enabled outputs of a retired compositor (R478). -/
def Dev.rehomeOutputs (d : Dev) (c : Nat) : Dev :=
  (List.range 128).foldl (fun d o =>
    if !d.tb (cpPage c) (o * 64) 0 0 then d
    else
      let rate (x : Nat) : Nat := d.rf (cpPage x) Reg.CP_PLAN_RATE 15 0
      let cands := (List.range 4).filter (fun x => x != c && (d.hdr (cpPage x)).state.serves)
      match cands.foldl (fun a x => match a with
          | none => some x
          | some y => if rate x < rate y then some x else some y) (none : Option Nat) with
      | none => d.setTf (cpPage c) (o * 64) 0 0 0 0
      | some x =>
        match (List.range 128).find? (fun k => !d.tb (cpPage x) (k * 64) 0 0) with
        | none => d.setTf (cpPage c) (o * 64) 0 0 0 0
        | some k =>
          let d' := d.copyOutput c o x k
          let d0 := d.setTf (cpPage c) (o * 64) 0 0 0 0
          if (d'.cpValidate x).isSome then d0
          else
            let d1 := (d'.setTf (cpPage c) (o * 64) 0 0 0 0).cpPlanned x
            (d1.vctx.map Prod.fst).foldl (fun d h =>
              let v := d.vctxOf h
              if v.feed = some (c * 128 + o) then d.setVctx h { v with feed := some (x * 128 + k) } else d) d1)
    (d.setCpUnit c CpUnit.reset)

/-! ## Commands -/

/-- COMPOSE (R241). -/
def execCompose (ring : RingNo) (seq : Nat) (s : State) : Host.Outcome State Fault Refusal := s.on (·.composeItem ring.val seq)
/-- FRAME_OPEN (R227). -/
def execFrameOpen (c : Compositor) (output : Fin 128) (s : State) : Host.Outcome State Fault Refusal :=
  s.on (·.frameOpen c.val output.val)
/-- FRAME_WRITTEN (R228). -/
def execFrameWritten (c : Compositor) (readErr writeErr : Bool) (s : State) : Host.Outcome State Fault Refusal :=
  s.on (·.frameWritten c.val readErr writeErr)
/-- BLEND_HANG (R242). -/
def execBlendHang (c : Compositor) (s : State) : Host.Outcome State Fault Refusal := s.on (·.blendHang c.val)
/-- CP_STALE_POP (R243). -/
def execCpStalePop (c : Compositor) (s : State) : Host.Outcome State Fault Refusal := s.on (·.stalePop c.val)
/-- CP_SIG_POP (R243). -/
def execCpSigPop (c : Compositor) (s : State) : Host.Outcome State Fault Refusal := s.on (·.sigPop c.val)

end Sys2Proof.Machine
end

