-- ==== Sys2Proof/Machine/Jobs.lean ====
section
/-! DEFINITION. Jobs that admission held, started once it lets them in (R72, R176), and what a completed item teaches the
cost table (R68). -/

namespace Sys2Proof.Machine

/-- A job that admission has let in starts, in the form and with the reservation admission gave it (R176). -/
def Dev.jobStart (d : Dev) (what : JobWhat) (form : Form) (e : Nat) : Dev :=
  match what with
  | .decode h j => d.queueVideo h { j with uj := e }
  | .encode h j => d.queueEncode h { j with skip := form == .fallback, uj := e }
  | .compose c o => d.composeJob c o e
  | .audio c j => d.queueAudio c { j with uj := e }
  | .mix l =>
    if (d.amMix (d.amLeg l).mix).openTick.isSome then d.setAmLeg l { d.amLeg l with uj := e } else d.release e

/-- Test one held job again; it is not counted a second time as held (R72). -/
def Dev.retestJob (d : Dev) (j : HeldJob) : Dev :=
  match d.admission j.page j.cls j.units j.fb with
  | some (f, e) => ((d.reserve e).countAdmitted j.cls j.fb f).jobStart j.what f e
  | none => { d with held := d.held ++ [j] }

/-- Every held job is tested again: at a short bucket boundary, a release of reserved energy or a change of an effective
budget (R72). -/
def Dev.retestJobs (d : Dev) : Dev := d.held.foldl Dev.retestJob { d with held := [] }

/-- A class is pinned (R70). -/
def Dev.classPinned (d : Dev) (c : Nat) : Bool :=
  if c < 32 then bit c (d.reg Pg.cc Reg.CC_COST_PIN_LO) else bit (c - 32) (d.reg Pg.cc Reg.CC_COST_PIN_HI)

/-- LEARN_SHIFT as it acts, 1 to 8. -/
def Dev.learnShift (d : Dev) : Nat := d.rf Pg.cc Reg.CC_LEDGER_CFG 3 0

/-- One cost sample of a class at a voltage point enters the table (R68). -/
def Dev.learnSample (d : Dev) (c vp sample : Nat) : Dev :=
  let a := c * 8 + vp
  let mean := d.tf Pg.cc a 0 23 0
  let fresh := d.tf Pg.cc a 1 15 0 == 0 && !d.tb Pg.cc a 1 16
  let next : Int := if fresh then sample else mean + ((sample : Int) - mean) / (2 ^ d.learnShift : Nat)
  (d.setTf Pg.cc a 0 23 0 (min next.toNat (2 ^ 24 - 1))).bumpTSat Pg.cc a 1 15 0

/-- A completed item's sample, where it is eligible and its class learns (R68). -/
def Dev.learn (d : Dev) (i : Item) : Dev :=
  let c := classOf i.desc i.form
  match i.page? with
  | none => d
  | some p =>
    let u := d.roundUnits c (unitsOf i.desc i.form)
    let failed := i.result.status = .failed || i.result.status = .returned
    if !d.rb Pg.cc Reg.CC_FW_CFG 1 || d.classPinned c || !i.eligible || failed || u = 0 then d
    else d.learnSample c (d.hdr p).grantedVp.val (i.energy * 16 * 1024 / u)

end Sys2Proof.Machine
end

