-- ==== Sys2Proof/Machine/TimeUnit.lean ====
section
/-! DEFINITION. The time unit: raw and presented time, adjustments, tick generators, the servo's states, PPS and the loss
of the reference (chapter 15; R482). -/

namespace Sys2Proof.Machine

/-! ## Raw and presented time (R337 to R343) -/

/-- What a REF_IN edge does to a pending increment, the raw counter, a pending rate and a running slew, the step apart. -/
def Time.advance (t : Time) (ppm : Nat) : Time :=
  let inc := t.pendInc.getD t.inc
  let raw := t.raw + inc
  let t := { t with inc := inc, pendInc := none, raw := raw, slewPpm := ppm }
  let t := match t.pendRate with
    | some r => { t with offset := t.offset + (((raw : Int) - t.anchor) * t.rate) / (2 ^ 48 : Nat), anchor := raw, rate := r,
                         pendRate := none }
    | none => t
  let most : Int := (inc * ppm / 1000000 : Nat)
  let part := max (-most) (min most t.rem)
  { t with offset := t.offset + part, rem := t.rem - part }

/-- PPS_OUT may pulse (R358). -/
def Dev.ppsMay (d : Dev) : Bool :=
  d.rb Pg.tu Reg.TU_PPS_CFG 0 && (d.tu.sync != 0 || d.rb Pg.tu Reg.TU_PPS_CFG 3)

/-- PPS_OUT at an edge that carried P from `a` to `b` ns without a step. -/
def Dev.ppsEdge (d : Dev) (a b : Int) : Dev :=
  let s : Int := 1000000000
  let d := if d.tu.ppsOut && decide (d.tu.ppsOutUntil ≤ b) then
      ({ d with tu := { d.tu with ppsOut := false } }).emit (.pps false) else d
  if d.ppsMay && decide (a / s < b / s) then
    ({ d with tu := { d.tu with ppsOut := true, ppsOutUntil := b / s * s + (d.rf Pg.tu Reg.TU_PPS_CFG 15 8 * 1000000 : Nat) } }).emit
      (.pps true)
  else d

/-- A step is applied at an edge: the units that depend on P respond (R343, R345). -/
def Dev.applyStep (d : Dev) : Dev :=
  match d.tu.pendStep with
  | none => d
  | some s =>
    let d := { d with tu := { d.tu with offset := d.tu.offset + s * (2 ^ 32 : Nat), pendStep := none } }
    d.gatesStepped.quadCut

/-- REF_IN_EDGE. -/
def Dev.refEdge (d : Dev) : Dev :=
  if !d.tu.refPresent then d
  else
    let a := d.timeNs
    let d := { d with tu := d.tu.advance (d.rf Pg.tu Reg.TU_STEP_CTRL 14 8) }
    (d.ppsEdge a d.timeNs).applyStep

/-- A write of TU_INC_HI (R338). -/
def Dev.tuIncWrite (d : Dev) (v : Word) : Dev :=
  let x := fld 7 0 v * 2 ^ 32 + (d.reg Pg.tu Reg.TU_INC_LO).toNat
  let n := d.tu.nominal
  if (if x < n then n - x else x - n) * 1000 ≤ n then
    let d := d.setReg Pg.tu Reg.TU_INC_HI (v &&& 0xFF)
    { d with tu := { d.tu with pendInc := some x } }
  else d.detect Pg.tu Evt.TU_RATE_REFUSED

/-- SOURCE of TU_REF_SEL. -/
def Dev.tuSource (d : Dev) : Nat := d.rf Pg.tu Reg.TU_REF_SEL 5 4

/-- A rate is submitted (R341). -/
def Dev.setRate (d : Dev) (r : Int) : Dev :=
  if r.natAbs ≤ 140737488355 then
    let u := unsigned 40 r
    let d := (d.setReg Pg.tu Reg.TU_RATE_LO (word u)).setReg Pg.tu Reg.TU_RATE_HI (word (u / 2 ^ 32))
    { d with tu := { d.tu with pendRate := some r } }
  else d.detect Pg.tu Evt.TU_RATE_REFUSED

/-- A write of TU_RATE_HI, if Table 15.2 allows the writer. -/
def Dev.tuRateWrite (d : Dev) (host : Bool) (v : Word) : Dev :=
  if (d.tuSource == 0 || d.tuSource == 3) == host then
    d.setRate (signed 40 (fld 7 0 v * 2 ^ 32 + (d.reg Pg.tu Reg.TU_RATE_LO).toNat))
  else d

/-- An adjustment by `delta` ns is submitted (R343). -/
def Dev.adjust (d : Dev) (delta : Int) : Dev :=
  let t := d.tu
  let sum := t.rem + delta * (2 ^ 32 : Nat)
  if t.armed then
    { d with tu := { t with pendStep := some (t.pendStep.getD 0 + delta), rem := 0, armed := false, last := 1 } }.detect Pg.tu Evt.TU_STEPPED
  else if sum.natAbs ≤ d.rf Pg.tu Reg.TU_JUMP_LIMIT 23 0 * 2 ^ 32 then
    { d with tu := { t with rem := sum, last := 2 } }
  else
    { d with tu := { t with last := 3, refusals := (t.refusals + 1) % 65536 } }.detect Pg.tu Evt.TU_JUMP_REFUSED

/-- Would an adjustment be refused? -/
def Dev.adjustRefused (d : Dev) (delta : Int) : Bool :=
  !d.tu.armed && decide (d.rf Pg.tu Reg.TU_JUMP_LIMIT 23 0 * 2 ^ 32 < (d.tu.rem + delta * (2 ^ 32 : Nat)).natAbs)

/-- A write of TU_ADJ_HI, if Table 15.2 allows the writer. -/
def Dev.tuAdjWrite (d : Dev) (host : Bool) (v : Word) : Dev :=
  let ok := if host then d.tuSource == 0 || d.tuSource == 3 || (d.tuSource == 2 && d.tu.armed) else d.tuSource == 1 || d.tuSource == 2
  if ok then
    (d.setReg Pg.tu Reg.TU_ADJ_HI v).adjust (signed 64 (v.toNat * 2 ^ 32 + (d.reg Pg.tu Reg.TU_ADJ_LO).toNat))
  else d

/-- ARM and DISARM (R344). -/
def Dev.setArmed (d : Dev) (b : Bool) : Dev := { d with tu := { d.tu with armed := b } }

/-! ## Tick generators (R347, R348) -/

/-- START and PERIOD of a generator, PERIOD in 2^-32 ns. -/
def Dev.tickStart (d : Dev) (g : Nat) : Nat := (d.tw Pg.tu (2 * g + 1) 0).toNat + (d.tw Pg.tu (2 * g + 1) 1).toNat * 2 ^ 32
/-- Nominal time of tick k, ns. -/
def Dev.tickNominal (d : Dev) (g k : Nat) : Nat := d.tickStart g + k * d.tickPeriod g / 2 ^ 32
/-- k of the next tick. -/
def Dev.tickNext (d : Dev) (g : Nat) : Nat := SMap.get (fun _ => 0) d.tu.nextK g
def Dev.setTickNext (d : Dev) (g k : Nat) : Dev := { d with tu := { d.tu with nextK := SMap.set (fun _ => 0) d.tu.nextK g k } }

/-- Lowest k whose nominal time is at or past t. -/
def Dev.tickFrom (d : Dev) (g : Nat) (t : Int) : Nat :=
  let ahead := (t - (d.tickStart g : Int)).toNat
  let p := max (d.tickPeriod g) 1
  let k := ceilDiv (ahead * 2 ^ 32) p
  if (d.tickNominal g k : Int) < t then k + 1 else k

/-- EN of a generator is written 1: its first tick lies at least 1 µs later (R347). -/
def Dev.tickEnable (d : Dev) (g : Nat) : Dev := d.setTickNext g (d.tickFrom g (d.timeNs + 1000))

/-- TICK: the tick with the highest k whose nominal time has come is issued; those before it are skipped (R347, R348). -/
def Dev.tick (d : Dev) (g : Nat) : Dev :=
  let k := d.tickNext g
  if !d.tb Pg.tu (2 * g) 0 0 || d.timeNs < (d.tickNominal g k : Int) then d
  else
    let top := d.tickFrom g (d.timeNs + 1) - 1
    let n := max top k
    let nom := d.tickNominal g n
    let d := d.setTickNext g (n + 1)
    let d := d.bumpT Pg.tu (2 * g) 3 31 0
    let d := (d.setTw Pg.tu (2 * g + 1) 2 (loHalf nom)).setTw Pg.tu (2 * g + 1) 3 (hiHalf nom)
    let d := d.emit (.tick g n nom)
    if k < n then (d.bumpT Pg.tu (2 * g) 0 31 16 (n - k)).detect Pg.tu Evt.TU_TICK_SKIP else d

/-! ## Synchronisation states (R349 to R352, Table 15.3) -/

/-- Enter a state; HOLDOVER_MIN counts from now. -/
def Dev.setSync (d : Dev) (st : Fin 4) : Dev :=
  { d with tu := { d.tu with sync := st, enteredAt := d.timeNs, fromHoldover := d.tu.sync == 2 && st == 0 } }

/-- SOURCE has been written: to 0 or 3, to 1 or 2. -/
def Dev.sourceWritten (d : Dev) (src : Nat) : Dev :=
  if src = 0 || src = 3 then
    let d := d.setSync 0
    { d with tu := { d.tu with fromHoldover := false, good := 0, refusedOffsets := [] } }
  else if d.tu.sync = 0 then
    let d := d.setSync 3
    { d with tu := { d.tu with good := 0, refusedOffsets := [] } }
  else d

/-- LOCKED is left for HOLDOVER. -/
def Dev.holdover (d : Dev) : Dev :=
  if d.tu.sync = 1 then
    let d := d.setSync 2
    { d with tu := { d.tu with good := 0 } }.detect Pg.tu Evt.TU_HOLDOVER_ENTER
  else d

/-- HOLDOVER_EXPIRED. -/
def Dev.holdoverExpired (d : Dev) : Dev :=
  if d.tu.sync = 2 && decide (((d.rf Pg.tu Reg.TU_HOLDOVER_LIMIT 15 0 * 60000000000 : Nat) : Int) ≤ d.timeNs - d.tu.enteredAt) then
    (d.setSync 0).detect Pg.tu Evt.TU_HOLDOVER_EXPIRED
  else d

/-- Insertion into a sorted list. -/
def insertInt (x : Int) : List Int → List Int
  | [] => [x]
  | y :: ys => if x ≤ y then x :: y :: ys else y :: insertInt x ys

/-- Every number of a list lies within a bound of the list's median. -/
def nearMedian (l : List Int) (bound : Nat) : Bool :=
  let s := l.foldl (fun a x => insertInt x a) []
  let m := s.getD (s.length / 2) 0
  l.all (fun x => (x - m).natAbs ≤ bound)

/-- Firmware re-arms when a steady source has been refused for REARM_MIN minutes (R344). -/
def Dev.rearm (d : Dev) : Dev :=
  let m := d.rf Pg.tu Reg.TU_JUMP_LIMIT 31 24 * 60
  let l := d.tu.refusedOffsets.take m
  if m ≠ 0 && m ≤ l.length && nearMedian l (d.rf Pg.tu Reg.TU_JUMP_LIMIT 23 0) then d.setArmed true else d

/-- A signed value saturated to 32 bits. -/
def sat32 (x : Int) : Int := max (-2147483648) (min 2147483647 x)

/-- SERVO_UPDATE: once per second firmware computes an offset, submits it as an adjustment and steers the rate; without an
offset it sets the rate alone (R349, R350). -/
def Dev.servo (d : Dev) (offset : Option Int) (rate : Int) : Dev :=
  if d.tuSource = 0 || d.tuSource = 3 then d
  else match offset with
    | none => d.setRate rate
    | some o =>
      let refused := d.adjustRefused o
      let stepped := d.tu.armed
      let d := (d.setReg Pg.tu Reg.TU_SERVO_OFFSET (word (unsigned 32 (sat32 o)))).adjust o
      let d := d.setRate rate
      if refused then
        let d := { d with tu := { d.tu with good := 0, refusedOffsets := (o :: d.tu.refusedOffsets).take 15300 } }
        d.holdover.rearm
      else
        let good := if !stepped && decide (o.natAbs ≤ 100) then d.tu.good + 1 else 0
        let d := { d with tu := { d.tu with good := good, refusedOffsets := [] } }
        if 16 ≤ good && d.tu.sync ≠ 1 then (d.setSync 1).detect Pg.tu Evt.TU_LOCKED else d

/-- OSC_MODEL_STORE: every 15 min while LOCKED (R352). -/
def Dev.oscStore (d : Dev) (tj rate : Int) (valid : Bool) (age : Nat) : Dev :=
  if d.tu.sync ≠ 1 then d
  else
    let d := { d with ps := { d.ps with oscRate := rate, oscValid := valid, oscAge := age } }
    let d := (d.bump Pg.tu Reg.TU_OSC_STAMP 15 0).setRf Pg.tu Reg.TU_OSC_STAMP 23 16 (unsigned 8 tj)
    d.setRf Pg.tu Reg.TU_OSC_STAMP 31 24 (if valid then min age 255 else 0)

/-! ## PPS_IN (R359) -/

/-- PPS_IN_EDGE. -/
def Dev.ppsInEdge (d : Dev) (falling : Bool) : Dev :=
  let near := match d.tu.ppsLast with
    | some p => decide ((d.timeNs - p).natAbs < 500000000)
    | none => false
  if !d.rb Pg.tu Reg.TU_PPS_CFG 1 || d.rb Pg.tu Reg.TU_PPS_CFG 2 != falling || near then d
  else
    let st := unsigned 32 (d.timeNs - (d.rf Pg.tu Reg.TU_CABLE_DELAY 19 0 : Int))
    { d.setReg Pg.tu Reg.TU_PPS_IN_STAMP (word st) with tu := { d.tu with ppsLast := some d.timeNs, ppsSilent := false } }

/-- PPS_IN_MISSING: 2.5 s without an accepted edge, once for a silence. -/
def Dev.ppsMissing (d : Dev) : Dev :=
  let long := match d.tu.ppsLast with
    | some p => decide (2500000000 ≤ d.timeNs - p)
    | none => true
  if !d.rb Pg.tu Reg.TU_PPS_CFG 1 || d.tu.ppsSilent || !long then d
  else
    let d := ({ d with tu := { d.tu with ppsSilent := true } }).detect Pg.tu Evt.TU_PPS_IN_MISSING
    if d.tuSource = 2 then d.holdover else d

/-! ## Transmit stamps (R357, R362) -/

/-- A read of TU_TXTS_POP. -/
def Dev.txtsPop (d : Dev) : Dev :=
  let q := d.rf Pg.tu Reg.TU_TXTS_SEL 2 0
  match d.txts q with
  | [] => d.answer 0
  | e :: es =>
    let lost := d.tu.txtsLost.getLsbD q
    let d := { d with tu := { d.tu with txtsLost := d.tu.txtsLost &&& ~~~ BitVec.ofNat 5 (2 ^ q) } }
    let d := (d.setTxts q es).setReg Pg.tu Reg.TU_TXTS_STAMP (word e.stamp)
    d.answer (word (e.id + e.subport * 2 ^ 16 + e.oneStep.toNat * 2 ^ 18 + e.subns * 2 ^ 20 + lost.toNat * 2 ^ 30 + 2 ^ 31))

/-! ## Reference loss (R360, R482) -/

/-- Active members of a group go to self-refresh and its requests are held. -/
def Grp.coast (x : Grp) : Grp :=
  { (List.range 9).foldl (fun y m => if (y.m m).state = .active then y.modM m (fun z => { z with state := .selfRefresh }) else y) x with
    unlocked := true }

/-- REF_LOST: raw time goes on from the internal oscillator; DRAM rests in self-refresh; the clocked domains stop. -/
def Dev.refLost (d : Dev) : Dev :=
  if !d.tu.refPresent then d
  else
    let d := { d with tu := { d.tu with refPresent := false } }
    let d := ((d.setPersists Pg.tu Evt.TU_REF_LOST true).detect Pg.tu Evt.TU_REF_LOST).holdover
    let d := (List.range 4).foldl (fun d g => d.modGrp g Grp.coast) d
    let d := (List.range 17).foldl (fun d p => (d.portUnderrun p).linkDown p) d
    let d := (List.range 3).foldl (fun d r => ((d.dropOnAir r).paenOff r).dropReady r) d
    let d := [Pg.cv, Pg.mg].foldl (fun d p => d.modHdr p (fun h => { h with refPresent := false, pllLock := false, unlockSeen := true })) d
    (List.range 4).foldl (fun d i =>
      (d.modHdr (pg (0x30 + i)) (fun h => { h with refPresent := false, pllLock := false, unlockSeen := true })).modHdr (pg (0x0C + i))
        (fun h => { h with refPresent := false, pllLock := false, unlockSeen := true })) d

/-- REF_RETURN: the condition of REF_LOST ends; firmware island-resets DP0–DP3, then CV, EP0–EP3 and MG (Table 20.5).
`elapsed` is what the internal oscillator added to raw time, in 2^-32 ns. -/
def Dev.refReturn (d : Dev) (elapsed : Nat) : Dev :=
  if d.tu.refPresent || d.sys.refHold then d
  else
    let d := { d with tu := { d.tu with refPresent := true, raw := d.tu.raw + elapsed } }
    let d := d.setPersists Pg.tu Evt.TU_REF_LOST false
    let pages := (List.range 4).map (fun g => pg (0x0C + g)) ++ [Pg.cv] ++ (List.range 4).map (fun n => pg (0x30 + n)) ++ [Pg.mg]
    let d := pages.foldl (fun d p => d.modHdr p (fun h => { h with refPresent := true })) d
    if d.fwRuns then pages.foldl (fun d p => if (d.hdr p).state.serves then d.startReset p else d) d else d

/-! ## Commands -/

/-- REF_IN_EDGE (R337). -/
def execRefInEdge (s : State) : Host.Outcome State Fault Refusal := s.on (·.refEdge)
/-- TU_INC_WRITE (R338). -/
def execTuIncWrite (v : Word) (s : State) : Host.Outcome State Fault Refusal := s.on (·.tuIncWrite v)
/-- TU_RATE_WRITE (R341). -/
def execTuRateWrite (host : Bool) (v : Word) (s : State) : Host.Outcome State Fault Refusal := s.on (·.tuRateWrite host v)
/-- TU_ADJ_WRITE (R343). -/
def execTuAdjWrite (host : Bool) (v : Word) (s : State) : Host.Outcome State Fault Refusal := s.on (·.tuAdjWrite host v)
/-- ARM (R344). -/
def execArm (s : State) : Host.Outcome State Fault Refusal := s.on (·.setArmed true)
/-- DISARM (R344). -/
def execDisarm (s : State) : Host.Outcome State Fault Refusal := s.on (·.setArmed false)
/-- TICK (R347). -/
def execTick (g : Fin 32) (s : State) : Host.Outcome State Fault Refusal := s.on (·.tick g.val)
/-- SERVO_UPDATE (R349). -/
def execServoUpdate (offset : Option Int) (rate : Int) (s : State) : Host.Outcome State Fault Refusal := s.on (·.servo offset rate)
/-- HOLDOVER_ENTER (R350). -/
def execHoldoverEnter (s : State) : Host.Outcome State Fault Refusal := s.on (·.holdover)
/-- HOLDOVER_EXPIRED (R350). -/
def execHoldoverExpired (s : State) : Host.Outcome State Fault Refusal := s.on (·.holdoverExpired)
/-- OSC_MODEL_STORE (R352). -/
def execOscModelStore (tj rate : Int) (valid : Bool) (ageDays : Nat) (s : State) : Host.Outcome State Fault Refusal :=
  s.on (·.oscStore tj rate valid ageDays)
/-- PPS_IN_EDGE (R359). -/
def execPpsInEdge (falling : Bool) (s : State) : Host.Outcome State Fault Refusal := s.on (·.ppsInEdge falling)
/-- PPS_IN_MISSING (R359). -/
def execPpsInMissing (s : State) : Host.Outcome State Fault Refusal := s.on (·.ppsMissing)
/-- TXTS_POP (R362). -/
def execTxtsPop (s : State) : Host.Outcome State Fault Refusal := s.on (·.txtsPop)
/-- REF_LOST (R482). -/
def execRefLost (s : State) : Host.Outcome State Fault Refusal := s.on (·.refLost)
/-- REF_RETURN (R482). -/
def execRefReturn (elapsed : Nat) (s : State) : Host.Outcome State Fault Refusal := s.on (·.refReturn elapsed)

end Sys2Proof.Machine
end

