-- ==== Sys2Proof/Machine/Energy.lean ====
section
/-! DEFINITION. Voltage points, pace floors and lifts, re-planning, the energy ledger with its budgets, and degradation
(chapter 3). -/

namespace Sys2Proof.Machine

/-! ## Voltage points (R49, R50) -/

/-- Lift of an island (Table 3.10). -/
def Dev.lift (d : Dev) (p : Page) : Nat := d.tf Pg.cc (0x400 + p.val) 1 2 0
/-- FLOOR of an island. -/
def Dev.floor (d : Dev) (p : Page) : Nat := d.tf Pg.cc (0x400 + p.val) 0 15 0
/-- The voltage point the island moves to: REQ_VP plus lift, capped at VP7 (R54). -/
def Dev.aimVp (d : Dev) (p : Page) : Nat := if d.en.tripped then 0 else min 7 ((d.hdr p).reqVp.val + d.lift p)

/-- REQ_VP of a self-timed island is written; a lift stays as it is (R50, R56). -/
def Dev.setReqVp (d : Dev) (p : Page) (vp : Fin 8) : Dev :=
  if (kindOf p).selfTimed then d.modHdr p (fun h => { h with reqVp := vp }) else d

/-- VP_SETTLED: the island's supply has reached its point; a sample of work that ran across the change is not eligible
(R50, R68). -/
def Dev.vpSettled (d : Dev) (p : Page) : Dev :=
  let aim : Fin 8 := Fin.ofNat 8 (d.aimVp p)
  if !(kindOf p).selfTimed || (d.hdr p).grantedVp = aim then d
  else
    let d := d.modHdr p (fun h => { h with grantedVp := aim })
    let d := if aim = 7 then { d with en := { d.en with shortRun := SMap.set (fun _ => 0) d.en.shortRun p.val 0 } } else d
    let mark (i : Item) : Item := if i.page? = some p then { i with eligible := false } else i
    { d with wk := { d.wk with items := d.wk.items.map mark } }

/-! ## Floors and lifts (R52 to R56) -/

/-- The islands of Table 3.4. -/
def PageKind.hasFloor : PageKind → Bool
  | .rb | .ac | .ds | .am | .ve | .cp | .qm | .px | .tm | .ce => true
  | _ => false

/-- Does a count meet the floor with margin: floor × (100 + MARGIN_PCT) / 100 (R56)? -/
def Dev.holds (d : Dev) (p : Page) (count : Nat) : Bool := decide (d.floor p * (100 + d.rf Pg.cc Reg.CC_PACE_MARGIN 5 0) ≤ count * 100)

/-- A count below the floor: the second in a row lifts the island by one point, or breaches at VP7 (R54, R55). -/
def Dev.shortInterval (d : Dev) (p : Page) : Dev :=
  let run := SMap.get (fun _ => 0) d.en.shortRun p.val + 1
  let d := { d with en := { d.en with shortRun := SMap.set (fun _ => 0) d.en.shortRun p.val run } }
  if run < 2 then d
  else if d.aimVp p < 7 then
    let d := d.setTf Pg.cc (0x400 + p.val) 1 2 0 (d.lift p + 1)
    let d := { d with en := { d.en with liftedSince := SMap.set (fun _ => false) d.en.liftedSince p.val true } }
    d.detect p Evt.PACE_LIFT
  else if (d.hdr p).grantedVp = 7 && !SMap.get (fun _ => false) d.en.breach p.val then
    let d := { d with en := { d.en with breach := SMap.set (fun _ => false) d.en.breach p.val true } }
    ((d.setPersists p Evt.PACE_FLOOR_BREACH true).bumpTSat Pg.cc (0x400 + p.val) 1 31 16).detect p Evt.PACE_FLOOR_BREACH
  else d

/-- A count that is not short ends a run and a breach. -/
def Dev.fullInterval (d : Dev) (p : Page) : Dev :=
  { d with en := { d.en with shortRun := SMap.set (fun _ => 0) d.en.shortRun p.val 0,
                             breach := SMap.set (fun _ => false) d.en.breach p.val false } }.setPersists p Evt.PACE_FLOOR_BREACH false

/-- PACE_INTERVAL: the floor detector at the end of a 1 µs interval (R52, R54, R55). -/
def Dev.paceInterval (d : Dev) (p : Page) (count : Nat) : Dev :=
  if !(kindOf p).hasFloor || d.floor p = 0 then d
  else
    let since : Option Nat := if !d.holds p count then none else match SMap.get (fun _ => none) d.en.heldSince p.val with
      | some t => some t
      | none => some d.nowNs
    let d := { d with en := { d.en with heldSince := SMap.set (fun _ => none) d.en.heldSince p.val since } }
    if count < d.floor p then d.shortInterval p else d.fullInterval p

/-- PACE_METER_UPDATE (R52). -/
def Dev.paceMeter (d : Dev) (p : Page) (pace : Nat) : Dev :=
  if (kindOf p).selfTimed then d.modHdr p (fun h => { h with pace := min pace 65535 }) else d

/-- LIFT_RELEASE: one point, once the pace has held for 100 ms; an island lifted again since its last release waits until
1 s after that release (R56; assumption log 36). -/
def Dev.liftRelease (d : Dev) (p : Page) : Dev :=
  let last := SMap.get (fun _ => 0) d.en.lastRelease p.val
  let again := SMap.get (fun _ => false) d.en.liftedSince p.val
  match SMap.get (fun _ => none) d.en.heldSince p.val with
  | none => d
  | some t =>
    if d.lift p = 0 || d.nowNs < t + 100000000 || (again && last ≠ 0 && d.nowNs < last + 1000000000) then d
    else
      let d := d.setTf Pg.cc (0x400 + p.val) 1 2 0 (d.lift p - 1)
      { d with en := { d.en with lastRelease := SMap.set (fun _ => 0) d.en.lastRelease p.val d.nowNs,
                                 liftedSince := SMap.set (fun _ => false) d.en.liftedSince p.val false,
                                 heldSince := SMap.set (fun _ => none) d.en.heldSince p.val (some d.nowNs) } }

/-! ## Re-planning (R57 to R60, R532) -/

/-- Table 3.2: pace of factor 1.00 at −40, +25 and +110 °C. -/
def paceRow (vp : Nat) : Nat × Nat × Nat :=
  [(310, 420, 520), (520, 640, 730), (760, 870, 930), (1010, 1080, 1100), (1270, 1280, 1240), (1540, 1470, 1370),
   (1800, 1660, 1490), (2050, 1840, 1600)].getD vp (0, 0, 0)

/-- Tabled pace at a temperature: a column, the nearest column outside the range (R532), and a free value between. -/
def tabledPace (p : Page) (vp : Nat) (t : Int) : Nat :=
  if t ≤ -40 then (paceRow vp).1 else if t = 25 then (paceRow vp).2.1 else if 110 ≤ t then (paceRow vp).2.2
  else Config.paceAt p.val vp t

/-- Predicted pace at a voltage point: the tabled pace scaled by measured over tabled at the present point (R58). -/
def Dev.predicted (d : Dev) (p : Page) (vp : Nat) (t : Int) : Nat :=
  let h := d.hdr p
  if vp = h.grantedVp.val then h.pace else tabledPace p vp t * h.pace / tabledPace p h.grantedVp.val t

/-- The lowest point whose pace meets the floor with margin at both the hottest and the coldest junction; VP7 where none
does. -/
def Dev.planVp (d : Dev) (p : Page) : Nat :=
  ((List.range 8).find? (fun v => d.holds p (d.predicted p v d.en.hot) && d.holds p (d.predicted p v d.en.cold))).getD 7

/-- Floor of a mode before margin (Table 16.7). -/
def modeFloor (mode : Nat) : Nat := [160, 310, 600, 1150, 40].getD mode 40

/-- Firmware's floor of a radio (R383). -/
def Dev.rbFloor (d : Dev) (r : Nat) : Nat :=
  let mode := (d.radio r).mode
  let it := d.rf (rbPage r) Reg.RB_MODEM_CFG 21 16
  let base := if mode < 4 && 16 < it then modeFloor mode * it / 16 else modeFloor mode
  max 40 (base * (d.activeChains r).length / 4)

/-- Firmware's floor of an island: computed, with margin; the spec gives the computation of RB alone (R52, R53). -/
def Dev.planFloor (d : Dev) (p : Page) : Dev :=
  if !(kindOf p).hasFloor || d.tb Pg.cc (0x400 + p.val) 0 16 then d
  else
    let base := if kindOf p = .rb then d.rbFloor (instOf p) else Config.floorOf p.val d.fresh
    let d := if kindOf p = .rb then d else d.drawn
    d.setTf Pg.cc (0x400 + p.val) 0 15 0 (min (base * (100 + d.rf Pg.cc Reg.CC_PACE_MARGIN 5 0) / 100) 65535)

/-- The self-timed islands. -/
def islands : List Page := ((List.range 61).map pg).filter (fun p => (kindOf p).selfTimed)

/-- REQ_VP of one island by the plan; above +110 °C none is lowered (R57, R60). -/
def Dev.planIsland (d : Dev) (p : Page) : Dev :=
  let v := d.planVp p
  let v := if d.en.hotForce then max v (d.hdr p).reqVp.val else v
  d.setReqVp p (Fin.ofNat 8 v)

/-- REPLAN (R53, R57, R58). -/
def Dev.replan (d : Dev) : Dev :=
  if !d.fwRuns then d
  else
    let d := islands.foldl Dev.planFloor d
    if d.rb Pg.cc Reg.CC_FW_CFG 0 then islands.foldl Dev.planIsland d else d

/-- Set or clear FORCE_FB of a class. -/
def Dev.setForce (d : Dev) (c : Nat) (b : Bool) : Dev := d.setTf Pg.cc (0x200 + c) 0 5 5 b.toNat

/-- The classes of a level that are not forced yet. -/
def Dev.unforced (d : Dev) (cs : List Nat) (level : Nat) : List Nat :=
  cs.filter (fun c => d.classLevel c == level && !d.classForced c)

/-- Force classes. -/
def Dev.forceAll (d : Dev) (cs : List Nat) : Dev := cs.foldl (fun d c => d.setForce c true) d

/-- Above +110 °C firmware forces fallbacks on levels 2 and 3, until the hottest sensor is below +105 °C (R60). -/
def Dev.heatPolicy (d : Dev) : Dev :=
  if !d.fwRuns then d
  else if !d.en.hotForce && 110 < d.en.hot then
    let cs := d.unforced (List.range 64) 2 ++ d.unforced (List.range 64) 3
    { d.forceAll cs with en := { (d.forceAll cs).en with hotForce := true, heatForced := cs } }
  else if d.en.hotForce && d.en.hot < 105 then
    let d := d.en.heatForced.foldl (fun d c => d.setForce c false) d
    { d with en := { d.en with hotForce := false, heatForced := [] } }
  else d

/-- The edges of R58. -/
def tempEdges : List Int := [-20, 0, 25, 60, 90]

/-- The edges a junction counts as above, with 3 °C of hysteresis (assumption log 37). -/
def edgesAbove (old : BitVec 5) (t : Int) : BitVec 5 :=
  (List.range 5).foldl (fun m i =>
    let e := tempEdges.getD i 0
    if e ≤ t || (old.getLsbD i && e - 3 ≤ t) then m ||| BitVec.ofNat 5 (2 ^ i) else m) 0

/-- The sensors are read: hottest, coldest and where, with the extremes ever seen (Table 3.9). -/
def Dev.setTemps (d : Dev) (hot cold : Int) (sensor : Nat) : Dev :=
  let d := { d with en := { d.en with hot := hot, cold := cold } }
  let d := d.setReg Pg.cc Reg.CC_TJ_NOW (word (unsigned 8 hot + unsigned 8 cold * 2 ^ 8 + sensor * 2 ^ 16))
  let d := if signed 8 (d.rf Pg.cc Reg.CC_TJ_MAX 7 0) < hot then d.setRf Pg.cc Reg.CC_TJ_MAX 7 0 (unsigned 8 hot) else d
  if cold < signed 8 (d.rf Pg.cc Reg.CC_TJ_MIN 7 0) then d.setRf Pg.cc Reg.CC_TJ_MIN 7 0 (unsigned 8 cold) else d

/-- TEMP_EDGE: a crossing re-plans where TEMP_REPLAN = 1 (R58, R60). -/
def Dev.tempEdge (d : Dev) (hot cold : Int) (sensor : Nat) : Dev :=
  let h := edgesAbove d.en.edgeHot hot
  let c := edgesAbove d.en.edgeCold cold
  let crossed := h != d.en.edgeHot || c != d.en.edgeCold
  let d := (d.setTemps hot cold sensor).heatPolicy
  let d := { d with en := { d.en with edgeHot := h, edgeCold := c } }
  if crossed && d.rb Pg.cc Reg.CC_FW_CFG 2 then d.replan else d

/-! ## Budgets (R64) -/

/-- The on-battery input is asserted. -/
def Dev.onBattery (d : Dev) : Bool :=
  d.rb Pg.cc Reg.CC_BATT_POLICY 4 && (d.en.gpio.getLsbD (d.rf Pg.cc Reg.CC_BATT_POLICY 3 0) != d.rb Pg.cc Reg.CC_BATT_POLICY 5)

/-- Scale in percent, times 100. -/
def Dev.scale (d : Dev) : Nat :=
  let s := d.rf Pg.cc Reg.CC_BUDGET_SCALE 7 0
  if d.en.onBatt then s * d.rf Pg.cc Reg.CC_BATT_POLICY 15 8 / 100 else s

/-- target_S and target_L. -/
def Dev.targetS (d : Dev) : Nat :=
  max ((d.reg Pg.cc Reg.CC_BUDGET_FLOOR).toNat / 100) ((d.reg Pg.cc Reg.CC_BUDGET_SHORT).toNat * d.scale / 100)
def Dev.targetL (d : Dev) : Nat :=
  max (d.reg Pg.cc Reg.CC_BUDGET_FLOOR).toNat ((d.reg Pg.cc Reg.CC_BUDGET_LONG).toNat * d.scale / 100)

/-- Where a budget goes when its target changes: at once on a rise or with DESCEND_EN = 0, else a new descent from the
value in force. -/
def newBudget (descend : Bool) (now target : Nat) : Nat × Option (Nat × Nat) :=
  if now ≤ target || !descend then (target, none) else (now, some (now, 0))

/-- DESCENDING (Table 3.9). -/
def Dev.showDescent (d : Dev) : Dev := d.setRb Pg.cc Reg.CC_BUDGET_SCALE 8 (d.en.descS.isSome || d.en.descL.isSome)

/-- The budgets follow their targets after a change of what they are computed from; held jobs are tested again (R64,
R72). `s` and `l` are the targets before the change. -/
def Dev.rebudget (d : Dev) (s l : Nat) : Dev :=
  let down := d.rb Pg.cc Reg.CC_LEDGER_CFG 19
  let ns := newBudget down d.en.bShort d.targetS
  let nl := newBudget down d.en.bLong d.targetL
  let d1 := if d.targetS = s then d else { d with en := { d.en with bShort := ns.1, descS := ns.2 } }
  let d2 := if d.targetL = l then d1 else { d1 with en := { d1.en with bLong := nl.1, descL := nl.2 } }
  d2.showDescent.retestJobs

/-- One 10 µs step of a descent of `n` steps from `start` to `target`. -/
def descend (n target now : Nat) (x : Option (Nat × Nat)) : Nat × Option (Nat × Nat) :=
  match x with
  | none => (now, none)
  | some (start, k) => if n ≤ k + 1 then (target, none) else (start - (start - target) * (k + 1) / n, some (start, k + 1))

/-- Both descents move on by one update: 10 ms and 1 s in all (R64). -/
def Dev.descendStep (d : Dev) : Dev :=
  let s := descend 1000 d.targetS d.en.bShort d.en.descS
  let l := descend 100000 d.targetL d.en.bLong d.en.descL
  { d with en := { d.en with bShort := s.1, descS := s.2, bLong := l.1, descL := l.2 } }.showDescent

/-- BATT_GPIO_CHANGE (R64, R65). -/
def Dev.battGpio (d : Dev) (levels : BitVec 16) : Dev :=
  let s := d.targetS
  let l := d.targetL
  let d := { d with en := { d.en with gpio := levels } }.setRf Pg.cc Reg.CC_GPIO_IN 15 0 levels.toNat
  { d with en := { d.en with onBatt := d.onBattery } }.rebudget s l

/-- BUDGET_SCALE_WRITE (R64, Table 3.9). -/
def Dev.budgetScale (d : Dev) (v : Word) : Dev :=
  let s := d.targetS
  let l := d.targetL
  let pct := fld 7 0 v
  if pct = 0 || 100 < pct then d else (d.setRf Pg.cc Reg.CC_BUDGET_SCALE 7 0 pct).rebudget s l

/-- A persistent budget word has been written: the budgets follow (R64, R65). -/
def Dev.budgetWord (d : Dev) (s l : Nat) : Dev := { d with en := { d.en with onBatt := d.onBattery } }.rebudget s l

/-! ## The ledger (R61 to R63, R66) -/

/-- Add to the current bucket. -/
def addHead (w : List Nat) (n : Nat) : List Nat := match w with
  | [] => [n]
  | x :: xs => (x + n) :: xs

/-- A meter's ten 1 ms buckets. -/
def Dev.meterW (d : Dev) (m : Nat) : List Nat := SMap.get (fun _ => List.replicate 10 0) d.en.meterW m

/-- A meter counts. -/
def Dev.meterAdd (d : Dev) (m uj : Nat) : Dev :=
  let d := { d with en := { d.en with
    meters := SMap.set (fun _ => 0) d.en.meters m (SMap.get (fun _ => 0) d.en.meters m + uj),
    meterW := SMap.set (fun _ => List.replicate 10 0) d.en.meterW m (addHead (d.meterW m) uj),
    shortW := addHead d.en.shortW uj, longW := addHead d.en.longW uj } }
  d.bumpPair Pg.cc Reg.CC_ENERGY_TOTAL_LO Reg.CC_ENERGY_TOTAL_HI uj

/-- Energy that a meter counted in this interval. -/
def deltaOf (ms : List MeterDelta) (m : Nat) : Nat := ((ms.filter (fun x => x.meter.val == m)).map (·.uj)).foldl (· + ·) 0

/-- Energy of a parity group in this interval: its stack, its controller and its PHY (R68). -/
def groupEnergy (ms : List MeterDelta) (g : Nat) : Nat := deltaOf ms (60 + g) + deltaOf ms (7 + g) + deltaOf ms (11 + g)

/-- The DRAM share of an item: by the bytes it moved in each group (R68). -/
def dramShare (ms : List MeterDelta) (moved bytes : List Nat) : Nat :=
  ((List.range 4).map (fun g => if moved.getD g 0 = 0 then 0 else groupEnergy ms g * bytes.getD g 0 / moved.getD g 0)).foldl (· + ·) 0

/-- Energy attributed to an item: its reservation shrinks by what its island's meter attributes (R63, R68). -/
def Dev.attribute (d : Dev) (ms : List MeterDelta) (moved : List Nat) (e : ItemEnergy) : Dev :=
  match d.item? e.ring.val e.seq with
  | none => d
  | some i =>
    let fall := min e.islandUj i.reserved
    (d.release fall).modItem e.ring.val e.seq (fun j =>
      { j with energy := j.energy + e.islandUj + dramShare ms moved e.bytes, reserved := j.reserved - fall })

/-- BUDGET_OVER at each entry into excess (R66). -/
def Dev.checkOver (d : Dev) : Dev :=
  let excess := decide (d.en.bShort < d.sShort) || decide (d.en.bLong < d.sLong)
  let was := d.en.overrun
  let d := { d with en := { d.en with overrun := excess } }
  if excess && !was then d.detect Pg.cc Evt.CC_BUDGET_OVER else d

/-- LEDGER_UPDATE (R63, R66, R68). -/
def Dev.ledgerUpdate (d : Dev) (ms : List MeterDelta) (items : List ItemEnergy) (moved : List Nat) : Dev :=
  let d := ms.foldl (fun d x => d.meterAdd x.meter.val x.uj) d
  let d := items.foldl (fun d e => d.attribute ms moved e) d
  let changed := d.en.descS.isSome || d.en.descL.isSome
  let d := d.descendStep.checkOver
  if changed then d.retestJobs else d

/-- BUCKET_BOUNDARY: the oldest bucket leaves; held jobs are tested again at a short boundary (R63, R72). -/
def Dev.bucketBoundary (d : Dev) (long : Bool) : Dev :=
  let shift (w : List Nat) : List Nat := 0 :: w.take 9
  if long then { d with en := { d.en with longW := shift d.en.longW } }
  else
    { d with en := { d.en with
      shortW := shift d.en.shortW,
      meterW := (d.en.meterW.map Prod.fst).foldl (fun m k => SMap.set (fun _ => List.replicate 10 0) m k (shift (d.meterW k))) d.en.meterW } }.retestJobs

/-! ## Degradation (R76, R77) -/

/-- The classes run by an island's type. -/
def classesOf : PageKind → List Nat
  | .ve => [6, 7, 8, 9, 10]
  | .cp => [11]
  | .ds => [14]
  | .ce => [2]
  | _ => []

/-- The marker of a lowered layer ceiling among firmware's steps. -/
abbrev ceilingStep : Nat := 64

/-- PX_ENERGY_CEIL goes to a value, and every leg's targets follow (R165, R169). -/
def Dev.setCeil (d : Dev) (c : Nat) : Dev :=
  let d := d.setRf Pg.px Reg.PX_ENERGY_CEIL 7 0 c
  d.enabledLegs.foldl Dev.ceilingChanged d

/-- A layer ceiling one step down: the temporal layer first, then the spatial one (assumption log 38). -/
def ceilDown (c : Nat) : Nat := if c % 16 ≠ 0 then c - 1 else if 16 ≤ c then c - 13 else 0
/-- The step back up. -/
def ceilUp (c : Nat) : Nat := if c % 16 < 3 then c + 1 else if c < 0x30 then c + 13 else c

/-- Firmware's plan grants fewer slots on a radio's next card, by an amount the spec leaves open (R77, R401). -/
def Dev.fewerSlots (d : Dev) (r : Nat) : Dev :=
  let d := (List.range 256).foldl (fun d i =>
    let e := cardEntry (d.tsw Pg.ac (cardA r i) 0)
    if !e.valid then d
    else (d.setTsw Pg.ac (cardA r i) 0 (putFld 27 20 (min e.slots (Config.freeNat d.fresh % 256)) (d.tsw Pg.ac (cardA r i) 0))).drawn) d
  d.modHdr Pg.ac (fun h => { h with commitPending := true, bowAt := 0 })

/-- Force the next level of the island's classes, level 3 first. -/
def Dev.forceNext (d : Dev) (k : PageKind) : Dev :=
  let cs := classesOf k
  match [3, 2, 1].find? (fun l => !(d.unforced cs l).isEmpty) with
  | none => d
  | some l =>
    let new := d.unforced cs l
    { d.forceAll new with en := { (d.forceAll new).en with forced := new :: (d.forceAll new).en.forced } }

/-- DEGRADE_STEP: one further step while the island's breach lasts (R77). -/
def Dev.degrade (d : Dev) (p : Page) : Dev :=
  let k := kindOf p
  if !d.fwRuns || !SMap.get (fun _ => false) d.en.breach p.val then d
  else if (k == .qm || k == .px || k == .tm || k == .ce) && !d.en.forced.any (fun s => s == [ceilingStep]) then
    let d := d.setCeil (ceilDown (d.rf Pg.px Reg.PX_ENERGY_CEIL 7 0))
    { d with en := { d.en with forced := [ceilingStep] :: d.en.forced } }
  else if k == .rb || k == .ac then
    if d.rb Pg.ac Reg.AC_CFG 0 then (if k == .rb then d.fewerSlots (instOf p) else [0, 1, 2].foldl Dev.fewerSlots d) else d
  else d.forceNext k

/-- Bits of FORCE_FB that the host wrote, by the level cleared next: 1, then 2, then 3. -/
def Dev.hostForced (d : Dev) : List Nat :=
  match [1, 2, 3].find? (fun l => (List.range 64).any (fun c => d.classLevel c == l && d.classForced c)) with
  | none => []
  | some l => (List.range 64).filter (fun c => d.classLevel c == l && d.classForced c)

/-- RESTORE_STEP: the latest step is taken back; bits that the host wrote only with PACE_PLAN = 1 (R77). -/
def Dev.restore (d : Dev) : Dev :=
  if !d.fwRuns || d.en.breach.any (fun x => x.2) || d.en.hotForce then d
  else match d.en.forced with
    | s :: rest =>
      let d := { d with en := { d.en with forced := rest } }
      if s = [ceilingStep] then d.setCeil (ceilUp (d.rf Pg.px Reg.PX_ENERGY_CEIL 7 0)) else s.foldl (fun d c => d.setForce c false) d
    | [] => if d.rb Pg.cc Reg.CC_FW_CFG 0 then d.hostForced.foldl (fun d c => d.setForce c false) d else d

/-! ## Commands -/

/-- REQ_VP_WRITE (R50). -/
def execReqVpWrite (p : Page) (vp : Fin 8) (s : State) : Host.Outcome State Fault Refusal := s.on (·.setReqVp p vp)
/-- VP_SETTLED (R50). -/
def execVpSettled (p : Page) (s : State) : Host.Outcome State Fault Refusal := s.on (·.vpSettled p)
/-- PACE_INTERVAL (R54). -/
def execPaceInterval (p : Page) (count : Nat) (s : State) : Host.Outcome State Fault Refusal := s.on (·.paceInterval p count)
/-- PACE_METER_UPDATE (R52). -/
def execPaceMeterUpdate (p : Page) (pace : Nat) (s : State) : Host.Outcome State Fault Refusal := s.on (·.paceMeter p pace)
/-- LIFT_RELEASE (R56). -/
def execLiftRelease (p : Page) (s : State) : Host.Outcome State Fault Refusal := s.on (·.liftRelease p)
/-- REPLAN (R58). -/
def execReplan (s : State) : Host.Outcome State Fault Refusal := s.on (·.replan)
/-- TEMP_EDGE (R58). -/
def execTempEdge (hot cold : Int) (sensor : Fin 24) (s : State) : Host.Outcome State Fault Refusal :=
  s.on (·.tempEdge hot cold sensor.val)
/-- LEDGER_UPDATE (R63). -/
def execLedgerUpdate (meters : List MeterDelta) (items : List ItemEnergy) (moved : List Nat) (s : State) :
    Host.Outcome State Fault Refusal := s.on (·.ledgerUpdate meters items moved)
/-- BUCKET_BOUNDARY (R63). -/
def execBucketBoundary (long : Bool) (s : State) : Host.Outcome State Fault Refusal := s.on (·.bucketBoundary long)
/-- BATT_GPIO_CHANGE (R64). -/
def execBattGpioChange (levels : BitVec 16) (s : State) : Host.Outcome State Fault Refusal := s.on (·.battGpio levels)
/-- BUDGET_SCALE_WRITE (R64). -/
def execBudgetScaleWrite (v : Word) (s : State) : Host.Outcome State Fault Refusal := s.on (·.budgetScale v)
/-- DEGRADE_STEP (R77). -/
def execDegradeStep (p : Page) (s : State) : Host.Outcome State Fault Refusal := s.on (·.degrade p)
/-- RESTORE_STEP (R77). -/
def execRestoreStep (s : State) : Host.Outcome State Fault Refusal := s.on (·.restore)

end Sys2Proof.Machine
end

