-- ==== Sys2Proof/Machine/Rings.lean ====
section
/-! DEFINITION. Rings: doorbells, the head test, acceptance, ledger acknowledgements, completion entries and the ring and
ledger configuration (chapter 4). -/

namespace Sys2Proof.Machine

/-! ## Descriptors (R86, R88) -/

/-- How many instances INSTANCE may name (Table 4.2). -/
def instanceOk (x : BitVec 512) : Bool :=
  engineOf x == 0 || instanceOf x == 0xFF || instanceOf x < engineCount (engineOf x)

/-- The DST range of a descriptor in bytes, where the item has both a source and a destination (R88, R146; assumption
log 40). -/
def dstLength (x : BitVec 512) : Nat :=
  if engineOf x = 1 then (if opOf x = 0 then lengthOf x + (if descF x 56 4 4 = 1 && descF x 56 3 2 ≠ 0 then 4 else 0) else 0)
  else if engineOf x = 3 then descF x 56 31 0
  else if engineOf x = 2 || engineOf x = 4 || engineOf x = 6 then lengthOf x
  else 0

/-- What is wrong with a descriptor of the expected sequence number: a cause, or nothing (R88). -/
def descFault (x : BitVec 512) : Option Nat :=
  if 8 < engineOf x || descF x 12 31 19 ≠ 0 || descF x 28 31 16 ≠ 0 || descF x 36 31 16 ≠ 0 || !instanceOk x then some Cause.BAD_DESC
  else if overlaps (srcOf x) (lengthOf x) (dstOf x) (dstLength x) then some Cause.OVERLAP
  else none

/-- A page does its work and is in no island reset. -/
def Dev.up (d : Dev) (p : Page) : Bool := (d.hdr p).state.serves && !(d.hdr p).rst

/-- A page is coming back: ENABLE = 1 in STARTING, in FAULTED or in an island reset (R106). -/
def Dev.comingBack (d : Dev) (p : Page) : Bool :=
  (d.hdr p).enable && ((d.hdr p).state == .starting || (d.hdr p).state == .faulted || (d.hdr p).rst)

/-- The instance an item names, by INSTANCE or by a handle that fixes it (R182, R207, R241). -/
def namedInst (x : BitVec 512) : Option Nat :=
  if instanceOf x ≠ 0xFF then some (instanceOf x)
  else if engineOf x = 2 || engineOf x = 3 then some (ctxOf x / 512 % 16)
  else if engineOf x = 5 then some (ctxOf x / 128 % 4)
  else if engineOf x = 4 || engineOf x = 6 then none
  else some 0

/-- An instance takes an item now. -/
def Dev.takes (d : Dev) (x : BitVec 512) (n : Nat) : Bool :=
  match enginePage (engineOf x) n with
  | some p => d.up p && (engineOf x != 6 || d.ceTakes n x)
  | none => false

/-- Of the instances that take an item, the one with the fewest items in flight, of equals the lowest (assumption
log 41). -/
def Dev.freest (d : Dev) (x : BitVec 512) : Option Nat :=
  (List.range (engineCount (engineOf x))).foldl (fun a n =>
    if !d.takes x n then a else match a with
      | none => some n
      | some b => if (d.hdr ((enginePage (engineOf x) n).getD 0)).inflight < (d.hdr ((enginePage (engineOf x) b).getD 0)).inflight
          then some n else a) none

/-- The instance an item would run on now. -/
def Dev.target (d : Dev) (x : BitVec 512) : Option Nat :=
  match namedInst x with
  | some n => if d.takes x n then some n else none
  | none => d.freest x

/-- The island whose voltage point prices an item (R67): its instance's, TM for a wire item, CC for a NOP. -/
def Dev.islandOf (d : Dev) (x : BitVec 512) : Page :=
  if engineOf x = 0 then Pg.cc
  else (enginePage (engineOf x) ((d.target x).getD ((namedInst x).getD 0))).getD Pg.cc

/-- FB_CLASS and UNITS_FB where the descriptor's fallback is usable (R75, Table 3.6). -/
def Dev.fallbackOf (d : Dev) (x : BitVec 512) : Option (Nat × Nat) :=
  let a := descF x 8 25 22
  let fb := (descF x 8 31 26, descF x 20 31 0)
  if a = 4 then (if engineOf x = 2 && opOf x = 0 && descF x 12 18 18 = 1 then some fb else none)
  else if engineOf x ≠ 3 || opOf x ≠ 0 then none
  else if a = 1 || a = 5 then some fb
  else if a = 3 then
    let h := ctxOf x % 8192
    let j : VJob := { id := 0, item := none, ctx := h % 512, encode := true, skip := false, lowEffort := false, ceil := none,
                      gap := false, src := 0, len := 0, pitch := 0, dst := 0, dstPitch := 0, dstSize := 0, asid := 0, stamp := 0,
                      forceIrap := descF x 54 0 0 == 1, forceRefresh := descF x 54 1 1 == 1, noEmit := false }
    if d.keyPicture h ((d.veng (h / 512)).queue.filter (fun q => q.ctx == h % 512)) (d.workGen h) j then none else some fb
  else none

/-! ## Doorbells (R84) -/

/-- SQ_DOORBELL: a value extended to a tail beyond ACCEPT_SEQ (R84). -/
def Dev.sqDoorbell (d : Dev) (n : Nat) (v : Word) : Dev :=
  let r := d.ring n
  let k := unsigned 32 ((v.toNat : Int) - r.acceptSeq)
  if k = 0 || 2 ^ d.sqLog2 n < k then d.detect Pg.dx Evt.DX_DOORBELL_RANGE
  else if r.acceptSeq + k ≤ r.sqTail then d
  else d.setRing n { r with sqTail := r.acceptSeq + k }

/-- CQ_DOORBELL: a value extended to a tail at or below POSTED_SEQ (R84). -/
def Dev.cqDoorbell (d : Dev) (n : Nat) (v : Word) : Dev :=
  let r := d.ring n
  let k := unsigned 32 (r.postedSeq - v.toNat)
  if 65536 ≤ k then d.detect Pg.dx Evt.DX_DOORBELL_RANGE
  else if r.postedSeq - k ≤ r.cqTail then d
  else d.setRing n { r with cqTail := r.postedSeq - k }

/-! ## The head test (R87) -/

/-- Condition 5 of R87. -/
def Dev.engineReady (d : Dev) (x : BitVec 512) : Bool :=
  let ready (n : Nat) : Bool := match enginePage (engineOf x) n with
    | some p => (d.hdr p).state.serves
    | none => false
  engineOf x == 0 || (if instanceOf x = 0xFF then (List.range (engineCount (engineOf x))).any ready else ready (instanceOf x))

/-- Condition 7 of R87: DX serves, the ledger is in use, and no encore is due. -/
def Dev.ledgerReady (d : Dev) : Bool := d.up Pg.dx && d.rb Pg.dx Reg.DX_LEDGER_STAT 0 && !d.sys.encoreRunning

/-- The lowest-numbered condition of R87 besides the sixth that fails, 0 for none. -/
def Dev.holdReason (d : Dev) (n : Nat) (x : BitVec 512) : Nat :=
  let r := d.ring n
  if r.halted then 1
  else if (2 ^ d.ledgerLog2 n : Nat) ≤ r.acceptSeq - r.postedSeq then 3
  else if 65536 ≤ r.acceptSeq - r.cqTail then 4
  else if (descFault x).isNone && !d.engineReady x then 5
  else if !d.ledgerReady then 7
  else 0

/-- The head item is held: the reason shows, and it is counted once (R72, R87). -/
def Dev.holdHead (d : Dev) (n reason : Nat) : Dev :=
  let r := d.ring n
  let s := r.acceptSeq + 1
  let d := if r.heldSeq = some s then d else d.bumpT Pg.dx (ringEntry n 3) 0 31 0
  d.setRing n { r with hold := reason, heldSeq := some s }

/-- Admission holds the head item: counted once for its class too (R72). -/
def Dev.holdAdmission (d : Dev) (n c : Nat) : Dev :=
  let r := d.ring n
  let d := if r.admHeldSeq = some (r.acceptSeq + 1) then d else d.countHeld c
  (d.setRing n { r with admHeldSeq := some (r.acceptSeq + 1) }).holdHead n 6

/-- Test a descriptor at the head (R71, R87, R88): it is held, halts its ring, or its ACCEPTED entry is written. -/
def Dev.testHead (d : Dev) (n : Nat) (x : BitVec 512) : Dev :=
  let r := d.ring n
  if r.halted then d.holdHead n 1
  else if x.toNat % 2 ^ 64 ≠ unsigned 64 (r.acceptSeq + 1) then (d.haltRing n 1).detect Pg.dx Evt.DX_SEQ_BREAK
  else if d.holdReason n x ≠ 0 then d.holdHead n (d.holdReason n x)
  else if (descFault x).isSome then d.setRing n { r with head := .entryWrite x .primary 0, hold := 0 }
  else match d.admission (d.islandOf x) (classOf x .primary) (unitsOf x .primary) (d.fallbackOf x) with
    | some (f, e) => (d.reserve e).setRing n { r with head := .entryWrite x f e, hold := 0 }
    | none => d.holdAdmission n (classOf x .primary)

/-- HEAD_TEST: the head descriptor is read when one is due, and tested once it is here (R87). -/
def Dev.headTest (d : Dev) (n : Nat) : Dev :=
  let r := d.ring n
  if !r.enabled then d
  else match r.head with
    | .here x => d.testHead n x
    | .none =>
      if r.sqTail ≤ r.acceptSeq then d
      else if r.halted then d.holdHead n 1
      else if !d.up Pg.dx then d.holdHead n 7
      else d.setRing n { r with head := .reading }
    | _ => d

/-- DESC_READ_RESPONSE: the head descriptor arrives, or its ring halts for DESC_READ (R134, R536). The read goes through the
ring's ASID; a host-mode fault parks, and the response comes again later. -/
def Dev.descRead (d : Dev) (n : Nat) (res : DescRead) : Dev :=
  let r := d.ring n
  let halt (x : Dev) : Dev := (x.haltRing n 3).detect Pg.dx Evt.DX_RING_HALT
  if r.head ≠ .reading then d
  else match res with
    | .data =>
      match d.virtRead n (d.ringAsid n) (d.sqBase n + unsigned 64 (r.acceptSeq + 1) % 2 ^ d.sqLog2 n * 64) 64 with
      | (d, .ok, bs) => d.modRing n (fun r => { r with head := .here (BitVec.ofNat 512 (numLE bs)) })
      | (d, .stop, _) => d
      | (d, .fail _, _) => halt d
    | _ => halt d

/-! ## Ledger acknowledgements (R89, R94, R536) -/

/-- Both copies answered a ledger write. A copy that fails is left; failing in every copy it must reach halts every ring.
The result says whether the write is recorded. -/
def Dev.ackCopies (d : Dev) (okA okB : Bool) : Dev × Bool :=
  let a := d.wk.okA && okA
  let b := d.wk.okB && okB
  let changed := a != d.wk.okA || b != d.wk.okB
  let d := { d with wk := { d.wk with okA := a, okB := b } }
  if a || b then
    (if changed then (d.setRb Pg.dx Reg.DX_LEDGER_STAT 2 true).detect Pg.dx Evt.DX_LEDGER_ONE_COPY else d, true)
  else (d.haltAll.detect Pg.dx Evt.DX_LEDGER_LOST, false)

/-- ACCEPTED_WRITE_ACK: the ACCEPTED entries are in the copies and the header write follows (R89). -/
def Dev.acceptedAck (d : Dev) (n : Nat) (okA okB : Bool) : Dev :=
  match (d.ring n).head with
  | .entryWrite x f e =>
    match d.ackCopies okA okB with
    | (d, false) => d
    | (d, true) =>
      let s := ((d.ring n).acceptSeq + 1).toNat
      let entry : LEntry := { valid := true, desc := x, state := .accepted, form := f, encored := false, inst := 0xFF,
                              epoch := d.wk.epoch, reservedUj := e, engineState := 0, result := Result.none }
      (d.putEntry n s entry).modRing n (fun r => { r with head := .headerWrite x f e })
  | _ => d

/-- A NOP item completes (Table 4.6). -/
def Dev.nopItem (d : Dev) (n s : Nat) : Dev :=
  match d.item? n s with
  | none => d
  | some i => if engineOf i.desc = 0 && i.pend.isNone && (i.phase = .ready || i.phase = .waiting)
      then d.finishPlain n s i.doneStatus 0 else d

/-- An accepted item. -/
def Item.fresh (n s : Nat) (x : BitVec 512) (f : Form) (e : Nat) : Item :=
  { ring := n, seq := s, desc := x, form := f, phase := .ready, pend := none, recorded := .accepted, encored := false, inst := none,
    reserved := e, reservedUj := e, energy := 0, eligible := true, result := Result.none, engineState := 0, noEnergy := false }

/-- ACCEPTANCE: the second header write is acknowledged and ACCEPT_SEQ moves (R89). A descriptor that R88 faults completes
FAILED at once; a NOP completes (Table 4.6). -/
def Dev.accept (d : Dev) (n : Nat) : Dev :=
  let r := d.ring n
  match r.head with
  | .headerWrite x f e =>
    let s := (r.acceptSeq + 1).toNat
    let d := d.putHeader n (r.acceptSeq + 1) r.postedSeq
    let d := d.setRing n { r with head := .none, acceptSeq := r.acceptSeq + 1, hold := 0 }
    let d := { d with wk := { d.wk with items := d.wk.items ++ [Item.fresh n s x f e] } }
    let d := d.bumpT Pg.dx (ringEntry n 3) 1 31 0
    match descFault x with
    | some c => d.finishPlain n s .failed c
    | none => (d.countAdmitted (classOf x .primary) (d.fallbackOf x |>.orElse fun _ => some (descF x 8 31 26, descF x 20 31 0)) f).nopItem n s
  | _ => d

/-- LEDGER_WRITE_ACK: a transition is in the copies; the engine may act on it (R94, R536). -/
def Dev.ledgerAck (d : Dev) (n s : Nat) (okA okB : Bool) : Dev :=
  match d.item? n s with
  | none => d
  | some i =>
    match i.pend with
    | none => d
    | some .completed => d
    | some st =>
      let d := (d.ackCopies okA okB).1
      (d.putEntry n s (i.entry d.wk.epoch st)).modItem n s (fun j => { j with pend := none, recorded := st })

/-- What the engines do once COMPLETED is recorded (R97, R186, R219, R285, R434). -/
def Dev.recordedHooks (d : Dev) (i : Item) : Dev :=
  let e := engineOf i.desc
  if e = 2 || e = 3 then
    let h := ctxOf i.desc % 8192
    if i.engineState.toNat ≠ 0 then d.videoRecorded h (i.engineState.toNat - 1) else d
  else if e = 4 then d.dsRecorded i
  else if e = 6 then d.keyRecorded i.ring i.seq
  else d

/-- COMPLETED_RECORDED: the item's new context becomes current, its reservation and its place in its engine are given up, a
cost sample is taken, and held jobs are tested again (R63, R68, R72, R97). -/
def Dev.completedRecorded (d : Dev) (n s : Nat) (okA okB : Bool) : Dev :=
  match d.item? n s with
  | none => d
  | some i =>
    if i.pend ≠ some .completed then d
    else
      let d := (d.ackCopies okA okB).1
      let d := (d.putEntry n s (i.entry d.wk.epoch .completed)).modItem n s
        (fun j => { j with pend := none, recorded := .completed, phase := .completed, reserved := 0 })
      let d := match i.page? with
        | some p => d.subInflight p
        | none => d
      (((d.recordedHooks i).learn i).release i.reserved).retestJobs

/-! ## Completion entries (R91, R92) -/

/-- The code of a status (Table 4.3). -/
def Status.code : Status → Nat
  | .done => 0 | .doneDegraded => 1 | .returned => 2 | .failed => 3 | .tagFail => 4

/-- PHASE of a completion: 1 on the ring's first pass since START_SEQ (Table 4.3; assumption log 42). -/
def Dev.phaseBit (d : Dev) (n s : Nat) : Nat := if (s / 65536 + d.startSeq n / 65536) % 2 = 0 then 1 else 0

/-- A completion entry (Table 4.3). -/
def Dev.completionBytes (d : Dev) (i : Item) : List Byte :=
  let r := i.result
  let cause := if r.status = .failed || r.status = .returned then r.cause else 0
  bytesLE 8 i.seq ++
  bytesLE 1 (r.status.code + d.phaseBit i.ring i.seq * 8 + i.encored.toNat * 16 + (if i.form = .fallback then 32 else 0)) ++
  bytesLE 1 cause ++ bytesLE 1 r.engine ++ bytesLE 1 r.instance_ ++ bytesLE 4 r.flags.toNat ++ bytesLE 8 r.result0.toNat ++
  bytesLE 8 r.result1.toNat ++ bytesLE 8 d.time64 ++ bytesLE 4 (if i.noEnergy then 0 else min i.energy (2 ^ 32 - 1)) ++ bytesLE 4 0 ++
  bytesLE 16 r.eres.toNat

/-- COMPLETION_WRITE: the next entry in sequence order is written (R91, R134, R536). -/
def Dev.completionWrite (d : Dev) (n : Nat) : Dev :=
  let r := d.ring n
  if r.posting || (r.halted && r.haltCause = 4) || !d.up Pg.dx then d
  else match d.item? n (r.postedSeq + 1).toNat with
    | none => d
    | some i =>
      if i.phase ≠ .completed then d
      else match d.virtWrite n (d.ringAsid n) (d.cqBase n + i.seq % 65536 * 64) (d.completionBytes i) with
        | (d, .ok) => d.modRing n (fun r => { r with posting := true })
        | (d, .stop) => d
        | (d, .fail _) => (d.haltRing n 4).detect Pg.dx Evt.DX_RING_HALT

/-- The completion-ring vector when a count, a flagged descriptor or an expired delay asks for it (R92). -/
def Dev.ringSignal (d : Dev) (n : Nat) (flagged : Bool) : Dev :=
  let r := d.ring n
  let count := r.sinceIrq + 1
  if d.irqEn n && (flagged || (d.irqEvery n ≠ 0 && d.irqEvery n ≤ count)) then
    (d.setRing n { r with sinceIrq := 0, delayArmed := false }).ringVector n
  else d.setRing n { r with sinceIrq := count, delayArmed := r.delayArmed || d.irqDelay n ≠ 0 }

/-- A completed item's entry is acknowledged: POSTED_SEQ and its header move on and the item leaves (R91, Table 4.9). -/
def Dev.posted (d : Dev) (n : Nat) (i : Item) : Dev :=
  let r := d.ring n
  let d := d.setRing n { r with posting := false, postedSeq := r.postedSeq + 1 }
  let d := d.putHeader n r.acceptSeq (r.postedSeq + 1)
  let d := { d with wk := { d.wk with items := d.wk.items.filter (fun j => !(j.ring == i.ring && j.seq == i.seq)) },
                    tm := { d.tm with kept := d.tm.kept.filter (fun k => !(k.w.ring == i.ring && k.w.seq == i.seq)) } }
  let d := if i.result.status = .returned then d.bumpT Pg.dx (ringEntry n 3) 2 31 0 else d
  let d := if i.result.status = .failed then d.bumpT Pg.dx (ringEntry n 3) 3 31 0 else d
  d.ringSignal n (descF i.desc 12 16 16 = 1)

/-- COMPLETION_WRITE_ACK (R91, R92, R536). -/
def Dev.completionAck (d : Dev) (n : Nat) (ok : Bool) : Dev :=
  let r := d.ring n
  if !r.posting then d
  else if !ok then ((d.setRing n { r with posting := false }).haltRing n 4).detect Pg.dx Evt.DX_RING_HALT
  else match d.item? n (r.postedSeq + 1).toNat with
    | none => d.setRing n { r with posting := false }
    | some i => d.posted n i

/-- IRQ_DELAY_EXPIRE (R92). -/
def Dev.irqDelayExpire (d : Dev) (n : Nat) : Dev :=
  let r := d.ring n
  if !r.delayArmed then d
  else
    let d := d.setRing n { r with sinceIrq := 0, delayArmed := false }
    if d.irqEn n then d.ringVector n else d

/-! ## Configuration (R95, R108, R109) -/

/-- A checkpoint record: configuration, ring contexts, channel and ASID entries, the epoch and every ring's numbers
(R95). -/
def Dev.checkpoint (d : Dev) : Dev :=
  let mine (k : Nat) : Bool := k / 4 / 2 ^ 24 == Pg.dx.val && !(k / 4 % 2 ^ 24 < 0x400 && k / 4 % 4 == 3)
  { d with
    wk := { d.wk with
      ckSeq := (d.wk.rings.map Prod.fst).foldl (fun m n => SMap.set (fun _ => (0, 0)) m n ((d.ring n).acceptSeq, (d.ring n).postedSeq)) [],
      ckTbl := d.pages.tbl.filter (fun e => mine e.1),
      ckCfg := [Reg.DX_LEDGER_A_LO, Reg.DX_LEDGER_A_HI, Reg.DX_LEDGER_B_LO, Reg.DX_LEDGER_B_HI, Reg.DX_LEDGER_CFG].map (fun o => d.reg Pg.dx o),
      ckSlot := (d.wk.ckSlot + 1) % 16 },
    ps := { d.ps with epoch := d.wk.epoch } }

/-- LEDGER_CFG: a configuration write that is not stored. -/
def Dev.ledgerCfgEvent (d : Dev) : Dev := d.detect Pg.dx Evt.DX_LEDGER_CFG

/-- Store a context entry's written bits. -/
def Dev.storeEntry (d : Dev) (n k : Nat) (ws : List Word) (masks : List Nat) : Dev :=
  (List.range 4).foldl (fun d i =>
    let m : Word := word (masks.getD i 0)
    d.setTw Pg.dx (ringEntry n k) i ((d.tw Pg.dx (ringEntry n k) i &&& ~~~ m) ||| (ws.getD i 0 &&& m))) d

/-- The writable bits of a ring context entry, while its ring is active or not (R109, Table 4.9). -/
def entryMasks (k : Nat) (active : Bool) : List Nat :=
  if k = 0 then (if active then [0, 0, 0x300, 0] else [0xFFFFFFC0, 0xFFFF, 0x31F, 0xF])
  else if k = 1 then (if active then [0, 0, 0x3FFFF, 0] else [0xFFFFF000, 0xFFFF, 0x3FFFF, all32])
  else if k = 2 then (if active then [0, 0, 0, 0] else [all32, all32, 0, 0])
  else [0, 0, 0, 0]

/-- A write of k = 0 is refused whole: LEDGER_LOG2 above 14 or SQ_LOG2 outside 6–16 (R109). -/
def ctxRefused (d2 d3 : Word) : Bool := 8 < fld 3 0 d3 || fld 4 0 d2 < 6 || 16 < fld 4 0 d2

/-- The ring's slice lies in the copies: 2^LEDGER_LOG2 entries of 128 bytes within SIZE_MIB (R109). -/
def Dev.sliceFits (d : Dev) (n log2 : Nat) : Bool :=
  decide (d.ledgerOffset n * 1024 + 2 ^ log2 * 128 ≤ d.rf Pg.dx Reg.DX_LEDGER_CFG 10 1 * 2 ^ 20)

/-- A ring starts afresh at START_SEQ − 1 (R109). -/
def Dev.startRing (d : Dev) (n : Nat) : Dev :=
  let s : Int := (d.startSeq n : Int) - 1
  (d.modRing n (fun r => { Ring.reset with enabled := true, acceptSeq := s, postedSeq := s, sqTail := s, cqTail := s,
                                           priorAccept := r.priorAccept, priorPosted := r.priorPosted })).putHeader n s s

/-- RING_EN_WRITE: a window write of k = 0 with RING_EN = 1 (R109, R536). -/
def Dev.ringEnable (d : Dev) (n : Nat) (w0 w1 w2 w3 : Word) : Dev :=
  let w2 := putBit 8 true w2
  let active := d.ringActive n
  let log2 := if active then d.ledgerLog2 n else fld 3 0 w3 + 6
  if ctxRefused w2 w3 then d.ledgerCfgEvent
  else if !d.rb Pg.dx Reg.DX_LEDGER_CFG 0 || !d.sliceFits n log2 then d.ledgerCfgEvent
  else
    let r := d.ring n
    let d := d.storeEntry n 0 [w0, w1, w2, w3] (entryMasks 0 active)
    let d :=
      if r.halted then d.setRing n { r with enabled := true, halted := false, haltCause := 0, hold := 0 }
      else if active then d.setRing n { r with enabled := true }
      else d.startRing n
    d.checkpoint

/-- RING_DISABLE: a window write of k = 0 with RING_EN = 0 stops acceptance at once (R73, R109). -/
def Dev.ringDisable (d : Dev) (n : Nat) (w0 w1 w2 w3 : Word) : Dev :=
  let w2 := putBit 8 false w2
  if ctxRefused w2 w3 then d.ledgerCfgEvent
  else
    let d := d.storeEntry n 0 [w0, w1, w2, w3] (entryMasks 0 (d.ringActive n))
    ((d.dropHead n).modRing n (fun r => { r with enabled := false, hold := 0 })).checkpoint

/-- A window write of context entry k = 1 or 2 (R109). -/
def Dev.ringEntryWrite (d : Dev) (n k : Nat) (ws : List Word) : Dev :=
  if k = 1 && (ws.getD 3 0).toNat < 1024 then d.ledgerCfgEvent
  else (d.storeEntry n k ws (entryMasks k (d.ringActive n))).checkpoint

/-- Base of a ledger copy. -/
def Dev.ledgerBase (d : Dev) (b : Bool) : Nat :=
  if b then d.rf Pg.dx Reg.DX_LEDGER_B_LO 31 12 * 4096 + d.rf Pg.dx Reg.DX_LEDGER_B_HI 4 0 * 2 ^ 32
  else d.rf Pg.dx Reg.DX_LEDGER_A_LO 31 12 * 4096 + d.rf Pg.dx Reg.DX_LEDGER_A_HI 4 0 * 2 ^ 32

/-- EN is refused: a copy outside DRAM, or both with bytes in one parity group (Table 4.8). -/
def Dev.ledgerMisplaced (d : Dev) (size : Nat) : Bool :=
  let a := d.ledgerBase false
  let b := d.ledgerBase true
  let n := size * 2 ^ 20
  decide (0x2000000000 < a + n) || decide (0x2000000000 < b + n) ||
    !(decide (dramGroup (a + n - 1) < dramGroup b) || decide (dramGroup (b + n - 1) < dramGroup a))

/-- A ledger placed anew holds nothing. -/
def Dev.ledgerEmpty (d : Dev) : Dev := { d with wk := { d.wk with copyA := ⟨[], []⟩, copyB := ⟨[], []⟩, okA := true, okB := true } }

/-- The value SIZE_MIB takes: 2 to 1,023; what a write of 0 or 1 stores is left open (Table 4.8; assumption log 4). -/
def ledgerSize (v : Word) : Nat :=
  if 2 ≤ fld 10 1 v then fld 10 1 v else Config.outOfRange (regKey Pg.dx Reg.DX_LEDGER_CFG 0) 1 (fld 10 1 v) % 1024

/-- LEDGER_CFG_WRITE: a ledger register is stored only while no ring is active (R108, Table 4.8). -/
def Dev.ledgerCfgWrite (d : Dev) (which : Nat) (v : Word) : Dev :=
  if d.anyRingActive then d.ledgerCfgEvent
  else if which < 4 then
    let m : Word := if which % 2 = 0 then 0xFFFFF000 else 0x1F
    (d.setReg Pg.dx (Reg.DX_LEDGER_A_LO + 4 * which) (v &&& m)).ledgerEmpty.checkpoint
  else
    let size := ledgerSize v
    let bad := bit 0 v && d.ledgerMisplaced size
    let en := bit 0 v && !bad
    let d := d.setReg Pg.dx Reg.DX_LEDGER_CFG (word (en.toNat + size * 2))
    let d := (d.setRb Pg.dx Reg.DX_LEDGER_STAT 0 en).setRb Pg.dx Reg.DX_LEDGER_STAT 2 false
    let d := if en then { d with wk := { d.wk with okA := true, okB := true } } else d
    let d := d.checkpoint
    if bad then d.ledgerCfgEvent else d

/-! ## Commands -/

/-- SQ_DOORBELL (R84). -/
def execSqDoorbell (ring : RingNo) (v : Word) (s : State) : Host.Outcome State Fault Refusal := s.on (·.sqDoorbell ring.val v)
/-- CQ_DOORBELL (R84). -/
def execCqDoorbell (ring : RingNo) (v : Word) (s : State) : Host.Outcome State Fault Refusal := s.on (·.cqDoorbell ring.val v)
/-- HEAD_TEST (R87). -/
def execHeadTest (ring : RingNo) (s : State) : Host.Outcome State Fault Refusal := s.on (·.headTest ring.val)
/-- DESC_READ_RESPONSE (R536). -/
def execDescReadResponse (ring : RingNo) (r : DescRead) (s : State) : Host.Outcome State Fault Refusal := s.on (·.descRead ring.val r)
/-- ACCEPTED_WRITE_ACK (R89). -/
def execAcceptedWriteAck (ring : RingNo) (okA okB : Bool) (s : State) : Host.Outcome State Fault Refusal :=
  s.on (·.acceptedAck ring.val okA okB)
/-- ACCEPTANCE (R89). -/
def execAcceptance (ring : RingNo) (s : State) : Host.Outcome State Fault Refusal := s.on (·.accept ring.val)
/-- LEDGER_WRITE_ACK (R94). -/
def execLedgerWriteAck (ring : RingNo) (seq : Nat) (okA okB : Bool) (s : State) : Host.Outcome State Fault Refusal :=
  s.on (·.ledgerAck ring.val seq okA okB)
/-- COMPLETED_RECORDED (R97). -/
def execCompletedRecorded (ring : RingNo) (seq : Nat) (okA okB : Bool) (s : State) : Host.Outcome State Fault Refusal :=
  s.on (·.completedRecorded ring.val seq okA okB)
/-- COMPLETION_WRITE_ACK (R91). -/
def execCompletionWriteAck (ring : RingNo) (ok : Bool) (s : State) : Host.Outcome State Fault Refusal := s.on (·.completionAck ring.val ok)
/-- IRQ_DELAY_EXPIRE (R92). -/
def execIrqDelayExpire (ring : RingNo) (s : State) : Host.Outcome State Fault Refusal := s.on (·.irqDelayExpire ring.val)
/-- CHECKPOINT_RECORD (R95). -/
def execCheckpointRecord (s : State) : Host.Outcome State Fault Refusal := s.on (·.checkpoint)
/-- RING_EN_WRITE (R109). -/
def execRingEnWrite (ring : RingNo) (d0 d1 d2 d3 : Word) (s : State) : Host.Outcome State Fault Refusal :=
  s.on (·.ringEnable ring.val d0 d1 d2 d3)
/-- RING_DISABLE (R109). -/
def execRingDisable (ring : RingNo) (d0 d1 d2 d3 : Word) (s : State) : Host.Outcome State Fault Refusal :=
  s.on (·.ringDisable ring.val d0 d1 d2 d3)
/-- LEDGER_CFG_WRITE (R108). -/
def execLedgerCfgWrite (which : Fin 5) (v : Word) (s : State) : Host.Outcome State Fault Refusal := s.on (·.ledgerCfgWrite which.val v)
/-- NOP (R97). -/
def execNop (ring : RingNo) (seq : Nat) (s : State) : Host.Outcome State Fault Refusal := s.on (·.nopItem ring.val seq)

end Sys2Proof.Machine
end

