-- ==== Sys2Proof/Machine/Encore.lean ====
section
/-! DEFINITION. Dispatch of accepted items (R106) and encore, the replay that runs after a reset (R101). -/

namespace Sys2Proof.Machine

/-! ## Dispatch (R106, R134) -/

/-- FENCE holds an item back: an earlier item of its ring is not COMPLETED (Table 4.2). -/
def Dev.fenced (d : Dev) (i : Item) : Bool :=
  descF i.desc 12 17 17 == 1 && d.wk.items.any (fun j => j.ring == i.ring && decide (j.seq < i.seq) && j.recorded != .completed)

/-- Bind an item to an instance; it counts in the unit's INFLIGHT. -/
def Dev.bind (d : Dev) (i : Item) (n : Nat) : Dev :=
  match enginePage (engineOf i.desc) n with
  | none => d
  | some p => (d.modItem i.ring i.seq (fun j => { j with inst := some n, phase := .bound })).addInflight p

/-- An instance of the item's engine is coming back, or is up and takes no such item now. -/
def Dev.mayCome (d : Dev) (x : BitVec 512) (n : Nat) : Bool :=
  match enginePage (engineOf x) n with
  | some p => d.comingBack p || d.up p
  | none => false

/-- DISPATCH: the item is bound, waits, or is returned (R106). -/
def Dev.dispatch (d : Dev) (n s : Nat) : Dev :=
  match d.item? n s with
  | none => d
  | some i =>
    let x := i.desc
    if i.pend.isSome || !(i.phase == .ready || i.phase == .waiting) || d.fenced i || !d.up Pg.dx || d.sys.encoreRunning then d
    else if engineOf x = 0 then d.nopItem n s
    else if !d.identity (d.ringAsid n) && !d.asidValid (d.ringAsid n) then d.finishPlain n s .failed Cause.XLATE_REFUSED
    else match d.target x with
      | some k => d.bind i k
      | none =>
        let wait := match namedInst x with
          | some k => d.mayCome x k
          | none => (List.range (engineCount (engineOf x))).any (d.mayCome x)
        if wait then d.modItem n s (fun j => { j with phase := .waiting })
        else d.finishPlain n s .returned Cause.DRAINED

/-! ## What the engines hold of ring work -/

/-- The items whose COMPLETED is not recorded leave their units' INFLIGHT. -/
def Dev.leaveUnits (d : Dev) : Dev :=
  d.wk.items.foldl (fun d i => match i.page? with
    | some p => if i.recorded = .completed then d else d.subInflight p
    | none => d) d

/-- A video engine without its ring jobs. -/
def VEng.forget (v : VEng) : VEng :=
  { v with queue := v.queue.filter (·.item.isNone), bound := v.bound.filter (·.job.item.isNone) }

/-- A compositor without its ring jobs. -/
def CpUnit.forget (u : CpUnit) : CpUnit :=
  { u with frames := u.frames.filter (·.item.isNone), outs := u.outs.map (fun o => (o.1, { o.2 with reqs := [] })) }

/-- A cluster without its ring jobs. -/
def DsUnit.forget (u : DsUnit) : DsUnit :=
  { u with parked := [], lanes := u.lanes.filter (fun l => match l.2 with | some x => x.job.item.isNone | none => true) }

/-- A burst without its ring items. -/
def Burst.forget (b : Burst) : Burst := { b with frames := b.frames.filter (·.item.isNone) }

/-- A radio whose bursts carry no ring item. -/
def RadioX.forget (x : RadioX) : RadioX := { x with ready := x.ready.map Burst.forget, onAir := x.onAir.map Burst.forget }

/-- Every engine gives up what it holds of ring work: encore replays it from the ledger (R101). -/
def Dev.forgetRingWork (d : Dev) : Dev :=
  let d := d.leaveUnits
  let jobs : List (Nat × Nat) := d.wk.items.filterMap (fun i =>
    if (engineOf i.desc == 2 || engineOf i.desc == 3) && i.engineState != 0 && i.recorded != .completed
      then some (ctxOf i.desc % 8192, i.engineState.toNat - 1) else none)
  { d with
    ves := d.ves.map (fun x => (x.1, x.2.forget)),
    vctx := d.vctx.map (fun x => (x.1, { x.2 with pend := x.2.pend.filter (fun g => jobs.all (fun j => j != (x.1, g.1))), emits := [] })),
    cps := d.cps.map (fun x => (x.1, x.2.forget)),
    dss := d.dss.map (fun x => (x.1, x.2.forget)),
    ces := d.ces.map (fun x => (x.1, { x.2 with runs := [] })),
    keys := { d.keys with pend := [] },
    tm := { d.tm with wire := [], kept := d.tm.kept ++ d.tm.wire.map (fun w => { w := w, queue := 0, link := 0 }) },
    dx := { d.dx with chans := [], port := none },
    air := { d.air with radios := d.air.radios.map (fun x => (x.1, x.2.forget)),
                        sensors := d.air.sensors.map (fun x => (x.1, { x.2 with item := none })) } }

/-! ## Encore (R101) -/

/-- Order of the ledger states. -/
def LState.rank : LState → Nat
  | .accepted => 1 | .started => 2 | .emitted => 3 | .completed => 4

/-- A valid entry of a copy. -/
def Dev.entryIn (d : Dev) (ok : Bool) (c : LCopy) (n s : Nat) : Option LEntry :=
  let e := SMap.get (fun _ => LEntry.invalid) c.entries (d.slotKey n s)
  if ok && e.valid && e.epoch = d.wk.epoch then some e else none

/-- A valid header of a copy. -/
def Dev.headerIn (d : Dev) (ok : Bool) (c : LCopy) (n : Nat) : Option LHeader :=
  let h := SMap.get (fun _ => LHeader.invalid) c.headers n
  if ok && h.valid && h.epoch = d.wk.epoch then some h else none

/-- ACCEPT_SEQ and POSTED_SEQ that the valid header copies show: the lower of each. -/
def Dev.headerOf (d : Dev) (n : Nat) : Option (Int × Int) :=
  match d.headerIn d.wk.okA d.wk.copyA n, d.headerIn d.wk.okB d.wk.copyB n with
  | some a, some b => some (min a.acceptSeq b.acceptSeq, min a.postedSeq b.postedSeq)
  | some a, none => some (a.acceptSeq, a.postedSeq)
  | none, some b => some (b.acceptSeq, b.postedSeq)
  | none, none => none

/-- The entry that encore goes by: the lower state of the valid copies. -/
def Dev.lowerEntry (d : Dev) (n s : Nat) : Option LEntry :=
  match d.entryIn d.wk.okA d.wk.copyA n s, d.entryIn d.wk.okB d.wk.copyB n s with
  | some a, some b => if b.state.rank < a.state.rank then some b else some a
  | some a, none => some a
  | none, y => y

/-- The item that an entry stands for after encore, with `left` of its reservation. -/
def LEntry.item (e : LEntry) (n s left energy : Nat) : Item :=
  let base : Item := { ring := n, seq := s, desc := e.desc, form := e.form, phase := .ready, pend := none, recorded := e.state,
                       encored := true, inst := none, reserved := left, reservedUj := e.reservedUj, energy := energy, eligible := false,
                       result := e.result, engineState := e.engineState, noEnergy := false }
  match e.state with
  | .completed => { base with phase := .completed, reserved := 0, noEnergy := true }
  | .emitted =>
    { base with phase := .completed, recorded := .completed, reserved := 0,
                result := { Result.none with status := .done, instance_ := e.inst, engine := engineOf e.desc } }
  | _ => base

/-- The completion of an item whose entry is lost in both copies: FAILED, LEDGER_LOST, no engine. -/
def lostItem (n s : Nat) : Item :=
  { Item.fresh n s (BitVec.ofNat 512 s) .primary 0 with
    phase := .completed, recorded := .completed, encored := true,
    result := { Result.none with status := .failed, cause := Cause.LEDGER_LOST } }

/-- Counts of an encore: items dispatched, completions posted, rings with either. -/
structure EncoreCount where
  dispatched : Nat
  posted : Nat
  rings : Nat
deriving DecidableEq, Repr

/-- Encore of one item. `old` is what the device held of it: its reservation in R stands as it is; an item it held nothing
of adds its whole reservation back (R63, R74). -/
def Dev.encoreItem (d : Dev) (old : List Item) (n s : Nat) (c : EncoreCount) : Dev × EncoreCount :=
  let push (d : Dev) (i : Item) : Dev := { d with wk := { d.wk with items := d.wk.items ++ [i] } }
  let prev := old.find? (fun i => i.ring == n && i.seq == s)
  match d.lowerEntry n s with
  | none =>
    ((push (d.release ((prev.map (·.reserved)).getD 0)) (lostItem n s)).detect Pg.dx Evt.DX_LEDGER_LOST, { c with posted := c.posted + 1 })
  | some e =>
    let d := d.putEntry n s { e with encored := true }
    let energy := (prev.map (·.energy)).getD 0
    if e.state.rank < 3 then
      match prev with
      | some p => (push d ({ e with encored := true }.item n s p.reserved energy), { c with dispatched := c.dispatched + 1 })
      | none => (push (d.reserve e.reservedUj) (e.item n s e.reservedUj 0), { c with dispatched := c.dispatched + 1 })
    else (push (d.release ((prev.map (·.reserved)).getD 0)) (e.item n s 0 energy), { c with posted := c.posted + 1 })

/-- Encore of one ring. -/
def Dev.encoreRing (d : Dev) (old : List Item) (n : Nat) (c : EncoreCount) : Dev × EncoreCount :=
  let r := d.ring n
  match d.headerOf n with
  | none =>
    if !r.enabled then (d, c)
    else
      let k := SMap.get (fun _ => (0, 0)) d.wk.ckSeq n
      let d := d.setRing n { r with acceptSeq := k.1, postedSeq := k.2, posting := false }
      ((d.detect Pg.dx Evt.DX_LEDGER_LOST).haltRing n 2, c)
  | some (acc, pst) =>
    if !r.enabled && acc ≤ pst then (d, c)
    else
      let d := d.setRing n { r with acceptSeq := acc, postedSeq := pst, posting := false }
      let out := (List.range (acc - pst).toNat).foldl (fun (x : Dev × EncoreCount) k => x.1.encoreItem old n (pst + 1 + k).toNat x.2) (d, c)
      (out.1, if pst < acc then { out.2 with rings := out.2.rings + 1 } else out.2)

/-- ENCORE (R101, R102): runs when a reset of DX has made it due. -/
def Dev.encore (d : Dev) : Dev :=
  if !d.sys.encoreRunning || !d.up Pg.dx then d
  else
    let old := d.wk.items
    let d := d.forgetRingWork
    let d := { d with wk := { d.wk with items := [] } }
    let out := (List.range 256).foldl (fun (x : Dev × EncoreCount) n => x.1.encoreRing old n x.2) (d, ⟨0, 0, 0⟩)
    let c := out.2
    let d := { out.1 with sys := { out.1.sys with encoreRunning := false } }
    let d := d.setRf Pg.dx Reg.DX_LEDGER_STAT 15 8 (min c.rings 255)
    let d := d.setReg Pg.dx Reg.DX_ENCORE_COUNT (word (min c.dispatched 65535 + min c.posted 65535 * 2 ^ 16))
    (d.detect Pg.dx Evt.DX_ENCORE_DONE).notePhase

/-! ## Commands -/

/-- DISPATCH (R106). -/
def execDispatch (ring : RingNo) (seq : Nat) (s : State) : Host.Outcome State Fault Refusal := s.on (·.dispatch ring.val seq)
/-- ENCORE (R101). -/
def execEncore (s : State) : Host.Outcome State Fault Refusal := s.on (·.encore)

end Sys2Proof.Machine
end

