-- ==== Sys2Proof/Machine/Memory.lean ====
section
/-! DEFINITION. Memory controllers and PHYs: fabric reads and writes, channel faults, rebuild, scrub, refresh, self-refresh,
frequency points and training (chapter 5). -/

namespace Sys2Proof.Machine

/-- The MC and DP pages of a group. -/
def mcPage (g : Nat) : Page := pg (8 + g)
def dpPage (g : Nat) : Page := pg (0xC + g)

/-- A member of the group is retired. -/
def Grp.degraded (x : Grp) : Bool := (List.range 9).any (fun m => (x.m m).state == .retired || (x.m m).state == .rebuilding)

/-- The group serves fabric requests (R118, R126). -/
def Dev.grpServes (d : Dev) (g : Nat) : Bool :=
  let x := d.grp g
  (d.hdr (mcPage g)).state.serves && x.retiring.isNone && x.change.isNone && !x.unlocked

/-- A channel fault of a member is detected and counted (R117); a retired or lost member is not detected again. -/
def Dev.chanFault (d : Dev) (g m : Nat) : Dev :=
  let x := d.grp g
  if (x.m m).state = .retired || (x.m m).lost || x.retiring = some m then d
  else (d.bumpSat (mcPage g) Reg.MC_CHAN_FAULT_COUNT 15 0).detectUnit (mcPage g) Evt.MC_CHAN_FAULT m

/-! ## Fabric requests -/

/-- A request finds its member in self-refresh and waits for its exit (R125). -/
def Dev.wake (d : Dev) (g m : Nat) : Dev :=
  d.modGrp g (fun x => if (x.m m).state = .selfRefresh then x.modM m (fun y => { y with state := .active }) else x)

/-- At an activate a channel draws, and with probability 2^−K a neighbour refresh follows (R124). -/
def Dev.activate (d : Dev) (g m : Nat) : Dev :=
  let p := mcPage g
  let k := d.rf p Reg.MC_NBR_K 4 0
  let hit := d.rb p Reg.MC_NBR_K 8 && Config.refreshDraw (9 * g + m) d.fresh % 2 ^ k == 0
  if hit then d.drawn.bump p Reg.MC_CH_NBR_CNT 31 0 1 m else d.drawn

/-- The 64 bytes of a DRAM unit, or none where both ways to one of them are shut (R114, R116). -/
def Dev.dramUnitBytes (d : Dev) (a : Nat) : Option (List Byte) := (List.range 64).mapM (fun i => d.dramByte (a + i))

/-- The bytes of a unit as the other eight members give them (R114). -/
def Dev.rebuilt (d : Dev) (a : Nat) : Option (List Byte) :=
  let g := dramGroup a
  let m := memberOf (dramRow a) (dramUnit a)
  if (d.grp g).othersUp m then some ((List.range 64).map (fun i => d.xorOthers g m (chanOff a + i))) else none

/-- Answer a read. -/
def Dev.dramAnswer (d : Dev) (who : Requester) (bs : Option (List Byte)) : Dev :=
  match bs with
  | some b => d.emit (.memData who b)
  | none => d.emit (.memError who)

/-- Serve a read of the unit at `a`: from its member, with what the link check shows, or by reconstruction
(R114, R116, R117). -/
def Dev.serveRead (d : Dev) (who : Requester) (a : Nat) (ecc : EccOutcome) : Dev :=
  let g := dramGroup a
  let p := mcPage g
  let m := memberOf (dramRow a) (dramUnit a)
  if !(d.grp g).up m then (d.noteReads a 64).dramAnswer who (d.dramUnitBytes a)
  else
    let d := (d.wake g m).activate g m
    match ecc with
    | .clean => d.dramAnswer who (d.dramUnitBytes a)
    | .corrected => (d.bumpSat p Reg.MC_CH_ECC_CNT 15 0 1 m).dramAnswer who (d.dramUnitBytes a)
    | .uncorrectable =>
      let bs := d.rebuilt a
      let d := ((d.bumpSat p Reg.MC_CH_ECC_CNT 31 16 1 m).chanFault g m)
      let d := if bs.isSome then d.bump p Reg.MC_DEGRADED_RD 31 0 else d
      d.dramAnswer who bs

/-- Serve a write (R113, R115). -/
def Dev.serveWrite (d : Dev) (a : Nat) (bs : List Byte) : Dev :=
  let g := dramGroup a
  let m := memberOf (dramRow a) (dramUnit a)
  let d := (d.wake g m).wake g (parityOf (dramRow a))
  ((d.activate g m).putBytes a bs).noteRows a bs.length

/-- Serve a request of a group. -/
def Dev.serveReq (d : Dev) (q : DramReq) : Dev :=
  match q.bytes with
  | none => d.serveRead q.who q.addr q.ecc
  | some bs => d.serveWrite q.addr bs

/-- A group that serves again takes up the requests it held, in their order. -/
def Dev.serveHeld (d : Dev) (g : Nat) : Dev :=
  if !d.grpServes g then d
  else (d.grp g).held.foldl Dev.serveReq (d.modGrp g (fun x => { x with held := [] }))

/-- A fabric request arrives: it is served, held, or answered with an address error outside DRAM (R14). -/
def Dev.dramRequest (d : Dev) (q : DramReq) : Dev :=
  let g := dramGroup q.addr
  if 0x2000000000 ≤ q.addr then (d.hole q.addr (requesterNumber q.who)).emit (.addressError q.who)
  else if d.grpServes g then d.serveReq q
  else d.modGrp g (fun x => { x with held := x.held ++ [q] })

/-- DRAM_READ: a read of the 64-byte unit of an address. -/
def Dev.dramRead (d : Dev) (who : Requester) (a : Nat) (ecc : EccOutcome) : Dev :=
  d.dramRequest { who := who, addr := a / 64 * 64, ecc := ecc, bytes := none }

/-- DRAM_WRITE. -/
def Dev.dramWrite (d : Dev) (who : Requester) (a : Nat) (bs : List Byte) : Dev :=
  d.dramRequest { who := who, addr := a, ecc := .clean, bytes := some bs }

/-- READ_TIMEOUT (R117). -/
def Dev.readTimeout (d : Dev) (g m : Nat) : Dev :=
  if !(d.grp g).up m then d else (d.bumpSat (mcPage g) Reg.MC_CH_TIMEOUTS 15 0 1 m).chanFault g m

/-- CHAN_RETRY: an exit, synchronisation or verification is tried again (R117, R126). -/
def Dev.chanRetry (d : Dev) (g m : Nat) (pass : Bool) : Dev :=
  if !(d.grp g).up m then d
  else if pass then d.modGrp g (fun x => x.modM m (fun y => { y with state := .active }))
  else d.chanFault g m

/-- ROW_COMBINE_EXPIRE: the partial row is written by read-modify-write (R113). -/
def Dev.combineExpire (d : Dev) (g row : Nat) : Dev :=
  if (d.grp g).merges.any (fun e => e.row == row) then
    (d.modGrp g (fun x => { x with merges := x.merges.filter (fun e => e.row != row) })).bump (mcPage g) Reg.MC_RMW_CNT 31 0
  else d

/-! ## Rebuild (R121) -/

/-- REBUILD_STAT. -/
def Dev.showRebuild (d : Dev) (g : Nat) (active : Bool) : Dev := d.setReg (mcPage g) Reg.MC_REBUILD_STAT (word (active.toNat * 2 ^ 16))

/-- MC_RETIRE_REC_WRITE: a write of 0 to a set bit starts a rebuild, unless one runs or a second member is lost. -/
def Dev.rebuildAsk (d : Dev) (g m : Nat) : Dev :=
  let x := d.grp g
  if !d.rb (mcPage g) Reg.MC_RETIRE_REC m || x.lost || x.rebuild.isSome || !(d.hdr (mcPage g)).state.serves then d
  else (d.setGrp g ({ x with rebuild := some (m, false) }.modM m (fun y => { y with state := .rebuilding }))).showRebuild g true

/-- A rebuild stops and its member stays retired. -/
def Dev.rebuildStop (d : Dev) (g m : Nat) : Dev :=
  (d.modGrp g (fun x => { x with rebuild := none }.modM m (fun y => { y with state := .retired }))).showRebuild g false

/-- The rebuild fails: the bit stays set and CHAN_FAULT is detected. -/
def Dev.rebuildFail (d : Dev) (g m : Nat) : Dev :=
  ((d.rebuildStop g m).bumpSat (mcPage g) Reg.MC_CHAN_FAULT_COUNT 15 0).detectUnit (mcPage g) Evt.MC_CHAN_FAULT m

/-- REBUILD_TRAIN_DONE. -/
def Dev.rebuildTrained (d : Dev) (g : Nat) (pass : Bool) : Dev :=
  match (d.grp g).rebuild with
  | some (m, false) =>
    if pass then d.modGrp g (fun x => { x with rebuild := some (m, true) }.modM m (fun y => { y with trained := true }))
    else d.rebuildFail g m
  | _ => d

/-- Offsets of a group's channels that hold anything. -/
def Dev.groupOffsets (d : Dev) (g : Nat) : List Nat :=
  (d.ram.dram.filter (fun e => e.1 / 2 ^ 32 / 9 == g)).map (fun e => e.1 % 2 ^ 32)

/-- Every unit of a member is recomputed from the other eight. -/
def Dev.recompute (d : Dev) (g m : Nat) : Dev := (d.groupOffsets g).foldl (fun d o => d.setCell g m o (d.xorOthers g m o)) d

/-- REBUILD_DONE: CH_MASK is stored with the bit cleared and the member returns to service. -/
def Dev.rebuildDone (d : Dev) (g : Nat) (pass : Bool) : Dev :=
  match (d.grp g).rebuild with
  | some (m, true) =>
    if !pass then d.rebuildFail g m
    else
      let d := (d.recompute g m).modGrp g (fun x => { x with rebuild := none }.modM m (fun y => { y with state := .active }))
      let d := (d.commitWord ((mcPage g).val * 0x1000 + Reg.MC_RETIRE_REC) (putFld m m 0 (d.reg (mcPage g) Reg.MC_RETIRE_REC)) .equal).1
      (d.showRebuild g false).detect (mcPage g) Evt.MC_REBUILD_DONE
  | _ => d

/-! ## Scrub and refresh (R122, R123) -/

/-- The nine cells at an offset agree in parity. -/
def Dev.parityOk (d : Dev) (g off : Nat) : Bool := (List.range 9).foldl (fun (b : Byte) m => b ^^^ d.cell g m off) 0 == 0

/-- SCRUB_ROW. -/
def Dev.scrubRow (d : Dev) (g row : Nat) : Dev :=
  let p := mcPage g
  let row := row % 2 ^ 26
  if !d.rb p Reg.MC_SCRUB_CFG 16 || !d.grpServes g || (d.grp g).degraded || (d.grp g).lost then d
  else
    let d := d.setRf p Reg.MC_SCRUB_STAT 15 0 (row / 1024)
    if (List.range 64).all (fun i => d.parityOk g (row * 64 + i)) then d
    else
      let d := (List.range 64).foldl (fun d i => d.setCell g (parityOf row) (row * 64 + i) (d.xorOthers g (parityOf row) (row * 64 + i))) d
      (d.bumpSat p Reg.MC_SCRUB_STAT 31 16).detect p Evt.MC_PARITY_MISMATCH

/-- REFRESH: postponed behind traffic up to the limit, then late and taken first; an idle member pays back. -/
def Dev.refresh (d : Dev) (g m : Nat) (busy : Bool) : Dev :=
  let x := d.grp g
  if (x.m m).state ≠ .active || x.retiring = some m || (x.m m).lost then d
  else if !busy then d.setGrp g (x.modM m (fun y => { y with postponed := 0 }))
  else if (x.m m).postponed < min 8 (d.rf (mcPage g) Reg.MC_REFRESH_CFG 4 1) then
    d.setGrp g (x.modM m (fun y => { y with postponed := y.postponed + 1 }))
  else d.detect (mcPage g) Evt.MC_REFRESH_LATE

/-- MR4_POLL: every active member answers with its refresh rate, or is detected. -/
def Dev.mr4Poll (d : Dev) (g : Nat) (codes : List (Option (Fin 8))) : Dev :=
  (List.range 9).foldl (fun d m =>
    if ((d.grp g).m m).state ≠ .active || ((d.grp g).m m).lost || (d.grp g).retiring = some m then d
    else match codes.getD m none with
      | some c => d.modGrp g (fun x => x.modM m (fun y => { y with rate := c.val }))
      | none => d.chanFault g m) d

/-- SR_ENTRY: a member idle for IDLE enters self-refresh, or every member does in a frequency change (R125, R126). -/
def Dev.srEntry (d : Dev) (g m : Nat) : Dev :=
  let p := mcPage g
  let x := d.grp g
  let idle := d.rb p Reg.MC_SR_IDLE 16 && d.rf p Reg.MC_SR_IDLE 11 0 != 0
  if (x.m m).state = .active && !(x.m m).lost && x.retiring ≠ some m && (idle || x.change.isSome) then
    d.setGrp g (x.modM m (fun y => { y with state := .selfRefresh }))
  else d

/-! ## Frequency points (R126, R127) -/

/-- Data rate of a point, MT/s (Table 5.1). -/
def pointRate (p : Nat) : Nat := if p = 0 then 8533 else if p = 1 then 6400 else 3200
/-- Usable bandwidth of a group, bytes per second: eight data channels of 16 bits. -/
def usable (p : Nat) : Nat := pointRate p * 16000000

/-- BUSY of FREQ_CTRL follows the change. -/
def Dev.showBusy (d : Dev) (g : Nat) : Dev :=
  d.setRb (mcPage g) Reg.MC_FREQ_CTRL 16 ((d.grp g).change.isSome || (d.grp g).waiting.isSome)

/-- The inactive timing set is loaded with a point's parameters; what they are the spec leaves to the stacks. -/
def Dev.loadSet (d : Dev) (g t : Nat) : Dev :=
  let a := 0x100 + (if (d.grp g).setB then 0 else 1)
  let p := dpPage g
  let d := if d.tf p a 0 1 0 = t && d.tb p a 0 8 then d
    else [1, 2, 3].foldl (fun d i => (d.setTw p a i (word (Config.freeNat d.fresh))).drawn) d
  (d.setTf p a 0 1 0 t).setTf p a 0 8 8 1

/-- A change begins, or waits for the group that changes now. -/
def Dev.startChange (d : Dev) (g t : Nat) : Dev :=
  if (List.range 4).any (fun k => (d.grp k).change.isSome) then (d.modGrp g (fun x => { x with waiting := some t })).showBusy g
  else ((d.loadSet g t).modGrp g (fun x => { x with change := some t, waiting := none })).showBusy g

/-- FREQ_GO: discarded while BUSY. -/
def Dev.freqGo (d : Dev) (g : Nat) : Dev :=
  let x := d.grp g
  if x.change.isSome || x.waiting.isSome || !(d.hdr (mcPage g)).state.serves then d
  else d.startChange g (d.rf (mcPage g) Reg.MC_FREQ_CTRL 1 0)

/-- The next group that waits begins its change. -/
def Dev.nextChange (d : Dev) : Dev :=
  match (List.range 4).find? (fun k => (d.grp k).waiting.isSome) with
  | some k => d.startChange k ((d.grp k).waiting.getD 0)
  | none => d

/-- A verified change ends at its target: the sets swap, the group resumes, FREQ_DONE. -/
def Dev.endChange (d : Dev) (g t : Nat) : Dev :=
  let p := mcPage g
  let x := d.grp g
  let members := (List.range 9).foldl (fun (y : Grp) m =>
    if (y.m m).state = .selfRefresh then y.modM m (fun z => { z with state := .active }) else y) x
  let d := (d.setGrp g { members with change := none, point := t, setB := !x.setB }).showBusy g
  let d := (d.setRf p Reg.MC_FREQ_STAT 15 0 (Config.freeNat d.fresh % 65536)).drawn.bump p Reg.MC_FREQ_STAT 31 16
  ((d.detect p Evt.MC_FREQ_DONE).serveHeld g).nextChange

/-- FREQ_DONE: verification of every active member; one that fails is detected and the group stays held until it passes or is
retired (R117, R126). -/
def Dev.freqDone (d : Dev) (g : Nat) (passed : BitVec 9) : Dev :=
  match (d.grp g).change with
  | none => d
  | some t =>
    let failing := (List.range 9).filter (fun m => (d.grp g).up m && !passed.getLsbD m)
    let d := failing.foldl (fun d m => d.chanFault g m) d
    if (d.grp g).change.isSome && failing.all (fun m => !(d.grp g).up m) then d.endChange g t else d

/-- FREQ_AUTO: firmware moves a group by one point, at most once per second (R127). -/
def Dev.freqAuto (d : Dev) (g bytes1s bytes10ms : Nat) : Dev :=
  let x := d.grp g
  if !d.fwRuns || !d.rb (mcPage g) Reg.MC_FREQ_CTRL 8 || (x.lastAuto ≠ 0 && d.nowNs < x.lastAuto + 1000000000) then d
  else
    let move (t : Nat) : Dev :=
      ((d.modGrp g (fun y => { y with lastAuto := d.nowNs })).setRf (mcPage g) Reg.MC_FREQ_CTRL 1 0 t).freqGo g
    if 0 < x.point && usable x.point * 70 < bytes10ms * 100 * 100 then move (x.point - 1)
    else if x.point < 2 && bytes1s * 100 < usable (x.point + 1) * 40 then move (x.point + 1)
    else d

/-! ## Training and tracking (R128, R129) -/

/-- TRAIN_GO. -/
def Dev.trainGo (d : Dev) (g : Nat) : Dev :=
  let p := dpPage g
  if (d.grp g).train.isSome || !(d.hdr p).state.serves then d
  else
    (d.modGrp g (fun x => { x with train := some (d.rf p Reg.DP_TRAIN_CTRL 12 4, d.rb p Reg.DP_TRAIN_CTRL 1) })).setReg p Reg.DP_TRAIN_STAT
      (word (2 ^ 31))

/-- The points a run trains: one, or all (Table 5.6). -/
def pointsOf (p : Nat) : List Nat := if p = 3 then [0, 1, 2] else [p]

/-- A member's trained values are stored at a point; what they are the spec leaves to the part. -/
def Dev.storeTraining (d : Dev) (g point m : Nat) : Dev :=
  (List.range 4).foldl (fun d i => (d.setTw (dpPage g) (point * 0x10 + m) i (word (Config.freeNat d.fresh))).drawn) d

/-- A full run's results go to the persistent store (R128). -/
def Dev.storeRun (d : Dev) (g : Nat) (pass : List Nat) (points : List Nat) (tj : Int) : Dev :=
  let p := dpPage g
  let d := points.foldl (fun d pt => pass.foldl (fun d m => d.storeTraining g pt m) d) d
  let mask := points.foldl (fun m pt => m ||| 2 ^ pt) 0
  let d := { d with ps := { d.ps with trainStored := SMap.set (fun _ => 0) d.ps.trainStored g (SMap.get (fun _ => 0) d.ps.trainStored g ||| mask) } }
  let d := (d.setRf p Reg.DP_TRAIN_STAMP 7 0 (unsigned 8 tj)).setRf p Reg.DP_TRAIN_STAMP 10 8 (d.rf p Reg.DP_TRAIN_STAMP 10 8 ||| mask)
  d.bump p Reg.DP_TRAIN_STAMP 31 16

/-- TRAIN_DONE: members that pass are trained; one that fails is detected as a channel fault, unless it is retired. -/
def Dev.trainDone (d : Dev) (g : Nat) (passed : BitVec 9) (tj : Int) : Dev :=
  let p := dpPage g
  match (d.grp g).train with
  | none => d
  | some (mask, full) =>
    let run := (List.range 9).filter (fun m => mask.testBit m)
    let pass := run.filter (fun m => passed.getLsbD m)
    let fail := run.filter (fun m => !passed.getLsbD m)
    let d := d.modGrp g (fun x => { x with train := none })
    let d := d.setReg p Reg.DP_TRAIN_STAT (word (passed.toNat &&& mask))
    let points := if (d.hdr p).state = .starting then [0, 1, 2] else pointsOf (d.rf p Reg.DP_TRAIN_CTRL 17 16)
    let d := if full then d.storeRun g pass points tj else d
    let d := pass.foldl (fun d m => d.modGrp g (fun x => x.modM m (fun y =>
      if y.state = .untrained then { y with state := .active, trained := true } else { y with trained := true }))) d
    if (d.hdr p).state = .starting && !full && !fail.isEmpty then
      -- at a boot a member that fails its verification is trained in full (R128)
      (fail.foldl (fun d _ => d.detect p Evt.DP_TRAIN_FAIL) d).modGrp g (fun x =>
        { x with train := some (fail.foldl (fun k m => k ||| 2 ^ m) 0, true) })
    else fail.foldl (fun d m => (d.detect p Evt.DP_TRAIN_FAIL).chanFault g m) d

/-- WCK_TRACK. -/
def Dev.wckTrack (d : Dev) (g stepPs : Nat) : Dev :=
  (d.bump (dpPage g) Reg.DP_TRACK_STAT 15 0).peak (dpPage g) Reg.DP_TRACK_STAT 31 16 (min stepPs 65535)

/-- An island reset of a memory controller: a rebuild and a change are abandoned, merge windows close (R121, R126). -/
def Dev.mcReset (d : Dev) (g : Nat) : Dev :=
  let d := match (d.grp g).rebuild with
    | some (m, _) => d.rebuildStop g m
    | none => d
  let changed := (d.grp g).change.isSome
  let d := (d.modGrp g (fun x => { x with change := none, waiting := none, merges := [] })).showBusy g
  if changed then d.nextChange else d

/-! ## Commands -/

/-- DRAM_READ (R114). -/
def execDramRead (who : Requester) (addr : BitVec 48) (ecc : EccOutcome) (s : State) : Host.Outcome State Fault Refusal :=
  s.on (·.dramRead who addr.toNat ecc)
/-- DRAM_WRITE (R113). -/
def execDramWrite (who : Requester) (addr : BitVec 48) (bytes : List Byte) (s : State) : Host.Outcome State Fault Refusal :=
  s.on (·.dramWrite who addr.toNat bytes)
/-- READ_TIMEOUT (R117). -/
def execReadTimeout (g : Group) (m : Member) (s : State) : Host.Outcome State Fault Refusal := s.on (·.readTimeout g.val m.val)
/-- CHAN_RETRY (R117). -/
def execChanRetry (g : Group) (m : Member) (pass : Bool) (s : State) : Host.Outcome State Fault Refusal := s.on (·.chanRetry g.val m.val pass)
/-- ROW_COMBINE_EXPIRE (R113). -/
def execRowCombineExpire (g : Group) (row : Nat) (s : State) : Host.Outcome State Fault Refusal := s.on (·.combineExpire g.val row)
/-- MC_RETIRE_REC_WRITE (R121). -/
def execMcRetireRecWrite (g : Group) (m : Member) (s : State) : Host.Outcome State Fault Refusal := s.on (·.rebuildAsk g.val m.val)
/-- REBUILD_TRAIN_DONE (R121). -/
def execRebuildTrainDone (g : Group) (pass : Bool) (s : State) : Host.Outcome State Fault Refusal := s.on (·.rebuildTrained g.val pass)
/-- REBUILD_DONE (R121). -/
def execRebuildDone (g : Group) (pass : Bool) (s : State) : Host.Outcome State Fault Refusal := s.on (·.rebuildDone g.val pass)
/-- SCRUB_ROW (R122). -/
def execScrubRow (g : Group) (row : Nat) (s : State) : Host.Outcome State Fault Refusal := s.on (·.scrubRow g.val row)
/-- REFRESH (R123). -/
def execRefresh (g : Group) (m : Member) (busy : Bool) (s : State) : Host.Outcome State Fault Refusal := s.on (·.refresh g.val m.val busy)
/-- MR4_POLL (R123). -/
def execMr4Poll (g : Group) (codes : List (Option (Fin 8))) (s : State) : Host.Outcome State Fault Refusal := s.on (·.mr4Poll g.val codes)
/-- SR_ENTRY (R125). -/
def execSrEntry (g : Group) (m : Member) (s : State) : Host.Outcome State Fault Refusal := s.on (·.srEntry g.val m.val)
/-- FREQ_GO (R126). -/
def execFreqGo (g : Group) (s : State) : Host.Outcome State Fault Refusal := s.on (·.freqGo g.val)
/-- FREQ_DONE (R126). -/
def execFreqDone (g : Group) (passed : BitVec 9) (s : State) : Host.Outcome State Fault Refusal := s.on (·.freqDone g.val passed)
/-- FREQ_AUTO (R127). -/
def execFreqAuto (g : Group) (bytes1s bytes10ms : Nat) (s : State) : Host.Outcome State Fault Refusal :=
  s.on (·.freqAuto g.val bytes1s bytes10ms)
/-- TRAIN_GO (R128). -/
def execTrainGo (g : Group) (s : State) : Host.Outcome State Fault Refusal := s.on (·.trainGo g.val)
/-- TRAIN_DONE (R128). -/
def execTrainDone (g : Group) (passed : BitVec 9) (tj : Int) (s : State) : Host.Outcome State Fault Refusal :=
  s.on (·.trainDone g.val passed tj)
/-- WCK_TRACK (R129). -/
def execWckTrack (g : Group) (stepPs : Nat) (s : State) : Host.Outcome State Fault Refusal := s.on (·.wckTrack g.val stepPs)

end Sys2Proof.Machine
end

