-- ==== Sys2Proof/Machine/Iommu.lean ====
section
/-! DEFINITION. The commands of the IOMMU: ends of walks and ATS translations, page requests and their answers,
invalidations, and what the host enables (R135 to R142). -/

namespace Sys2Proof.Machine

/-! ## Ends of translations (R135, R136) -/

/-- The translation under way for a requester. -/
def Dev.walkOf (d : Dev) (who : Nat) : Option (Nat × Nat × Nat × Bool × Bool) := d.dx.walks.find? (fun w => w.1 == who)

/-- A translation under way ends. -/
def Dev.endWalk (d : Dev) (who : Nat) : Dev := { d with dx := { d.dx with walks := d.dx.walks.filter (fun w => w.1 != who) } }

/-- Leave an end other than success for the requester's next access. -/
def Dev.leaveEnd (d : Dev) (who asid va : Nat) (wr : Bool) (r : XRes) : Dev :=
  let mark (n : Nat) : Dev :=
    d.setPark { who := who, asid := asid, va := va, rd := !wr, wr := wr, host := false, stage := n, successes := 0 }
  match r with
  | .refused => mark 4
  | .walkErr => mark 5
  | _ => d

/-- WALK_DONE: the walk of a requester ends with a translation, a fault or a walk error (R135). -/
def Dev.walkDone (d : Dev) (who : Nat) (readError : Bool) : Dev :=
  match d.walkOf who with
  | none => d
  | some (_, asid, va, _, wr) =>
    if d.asidHost asid then d
    else
      let d := d.endWalk who
      if readError then
        ((((d.bump Pg.dx Reg.DX_WALK_STAT 15 0).bump Pg.dx Reg.DX_WALK_STAT 31 16).detect Pg.dx Evt.DX_WALK_ERROR).leaveEnd
          who asid va wr .walkErr)
      else
        let (d, r) := d.walked who asid va wr
        d.leaveEnd who asid va wr r

/-- ATS_COMPLETION: the host answers a Translation Request; without the permission needed it is a fault (R136). -/
def Dev.atsCompletion (d : Dev) (who : Nat) (a : AtsReply) : Dev :=
  match d.walkOf who with
  | none => d
  | some (_, asid, va, _, wr) =>
    if !d.asidHost asid || a.page.toNat / 4096 * 4096 ≠ va then d
    else
      let d := d.endWalk who
      if if wr then a.wr else a.rd then
        (d.fillCache { asid := asid, va := va, size := 12, pa := 0x10000000000 + a.target.toNat / 4096 * 4096, rd := a.rd,
                       wr := a.wr, pr := true }).passed who va
      else d.xfaultLater who asid va wr true

/-! ## Page requests (R140, R141) -/

/-- DX_PR_POP: the oldest device-mode request for the host, its address latched (Table 6.10). -/
def Dev.prPop (d : Dev) : Dev :=
  match d.dx.parks.find? (fun p => p.stage == 2) with
  | none => d.answer 0
  | some p =>
    let d := { d with dx := { d.dx with parks := d.dx.parks.map (fun (q : Park) => if q.who == p.who then { q with stage := 1 } else q) } }
    let d := (d.setReg Pg.dx Reg.DX_PR_VA_LO (word (p.va % 2 ^ 32))).setReg Pg.dx Reg.DX_PR_VA_HI (word (p.va / 2 ^ 32 % 2 ^ 16))
    d.answer (word (p.who % 512 + p.asid % 64 * 2 ^ 9 + p.rd.toNat * 2 ^ 29 + p.wr.toNat * 2 ^ 30 + 2 ^ 31))

/-- A parked requester's request succeeds: the faulting beat is translated again (R141). -/
def Dev.parkSuccess (d : Dev) (p : Park) : Dev :=
  { d with dx := { d.dx with parks := d.dx.parks.map (fun (q : Park) => if q.who == p.who then { q with stage := 3, successes := q.successes + 1 } else q) } }

/-- A parked requester's request is refused: PAGE_REFUSED; its item fails when it takes the access up (R141). -/
def Dev.parkRefused (d : Dev) (p : Park) : Dev := (d.refuse p.who).setPark { p with stage := 4 }

/-- Answer a requester that is parked; an answer for one that is not is discarded (R141, R142). -/
def Dev.resolve (d : Dev) (who : Nat) (ok : Bool) (want : Park → Bool) : Dev :=
  match d.park? who with
  | some p => if 2 < p.stage || !want p then d else if ok then d.parkSuccess p else d.parkRefused p
  | none => d

/-- PRG_RESPONSE: a Response Failure also ends the Page Request Interface (R141). -/
def Dev.prgResponse (d : Dev) (who : Nat) (c : PrgCode) : Dev :=
  let d := d.resolve who (c == .success) (·.host)
  if c = .responseFailure then { d with dx := { d.dx with pri := false } } else d

/-! ## Invalidation (R138) -/

/-- Remove cached translations; beats in flight through one are marked, and an invalidation waits for them. -/
def Dev.dropCached (d : Dev) (gone : XEntry → Bool) : Dev :=
  let old := d.dx.cache.filter gone
  let through (n : Nat) (b : DmaBeat) : Bool :=
    old.any (fun e => e.asid == d.ringAsid n && e.va == b.va / 2 ^ e.size * 2 ^ e.size)
  { d with dx := { d.dx with
      cache := d.dx.cache.filter (fun e => !gone e),
      chans := d.dx.chans.map (fun (n, c) => (n, { c with out := c.out.map (fun b => if through n b then { b with stale := true } else b) })) } }

/-- Some request translated through a removed entry has no response yet. -/
def Dev.staleBeats (d : Dev) : Bool := d.dx.chans.any (fun c => c.2.out.any (·.stale))

/-- Is a cached page within a range of 4 KiB pages? -/
def XEntry.inRange (e : XEntry) (base pages : Nat) : Bool := overlaps e.va (2 ^ e.size) base (pages * 4096)

/-- What GO removes: everything, an ASID's entries, or those of a range; reserved scope 3 names none (Table 6.10). -/
def Dev.invScope (d : Dev) (v : Word) (e : XEntry) : Bool :=
  let base := d.rf Pg.dx Reg.DX_INV_VA_LO 31 12 * 4096 + d.rf Pg.dx Reg.DX_INV_VA_HI 15 0 * 2 ^ 32
  match fld 9 8 v with
  | 0 => true
  | 1 => e.asid == fld 5 0 v
  | 2 => e.asid == fld 5 0 v && e.inRange base (d.reg Pg.dx Reg.DX_INV_PAGES).toNat
  | _ => false

/-- INVALIDATE: a write of DX_INV_CTRL; a GO while BUSY is discarded (R138). -/
def Dev.invalidate (d : Dev) (v : Word) : Dev :=
  let d := (d.setRf Pg.dx Reg.DX_INV_CTRL 5 0 (fld 5 0 v)).setRf Pg.dx Reg.DX_INV_CTRL 9 8 (fld 9 8 v)
  if !bit 16 v || d.dx.invBusy then d
  else
    let d := d.dropCached (d.invScope v)
    if d.staleBeats then { d.setRb Pg.dx Reg.DX_INV_CTRL 31 true with dx := { d.dx with invBusy := true } } else d

/-- ATS_INVALIDATE: the host removes host-mode translations of a PASID and range; its completion follows (R138). -/
def Dev.atsInvalidate (d : Dev) (pasid va pages : Nat) : Dev :=
  let d := d.dropCached (fun e => d.asidHost e.asid && (d.asidPasid e.asid).getD pasid == pasid && e.inRange (va / 4096 * 4096) pages)
  if d.staleBeats then { d with dx := { d.dx with atsInvDue := true } } else d.emit .atsInvalidated

/-- INVALIDATE_DONE: every request translated through a removed entry has its response (R138). -/
def Dev.invalidateDone (d : Dev) : Dev :=
  if d.staleBeats then d
  else
    let due := d.dx.atsInvDue
    let d := { d.setRb Pg.dx Reg.DX_INV_CTRL 31 false with dx := { d.dx with invBusy := false, atsInvDue := false } }
    if due then d.emit .atsInvalidated else d

/-! ## Commands -/

/-- WALK_DONE (R135). -/
def execWalkDone (who : Fin 512) (readError : Bool) (s : State) : Host.Outcome State Fault Refusal := s.on (·.walkDone who.val readError)
/-- ATS_COMPLETION (R136). -/
def execAtsCompletion (who : Fin 512) (a : AtsReply) (s : State) : Host.Outcome State Fault Refusal := s.on (·.atsCompletion who.val a)
/-- DX_PR_POP (R140): the popped word is the read's data. -/
def execDxPrPop (s : State) : Host.Outcome State Fault Refusal := s.on (·.prPop)
/-- DX_PR_RESP (R141). -/
def execDxPrResp (v : Word) (s : State) : Host.Outcome State Fault Refusal :=
  s.on (·.resolve (fld 8 0 v) (bit 16 v) (fun _ => true))
/-- PRG_RESPONSE (R141). -/
def execPrgResponse (who : Fin 512) (c : PrgCode) (s : State) : Host.Outcome State Fault Refusal := s.on (·.prgResponse who.val c)
/-- PARK_TIMEOUT (R141). -/
def execParkTimeout (who : Fin 512) (s : State) : Host.Outcome State Fault Refusal := s.on (·.resolve who.val false (fun _ => true))
/-- INVALIDATE (R138). -/
def execInvalidate (v : Word) (s : State) : Host.Outcome State Fault Refusal := s.on (·.invalidate v)
/-- ATS_INVALIDATE (R138). -/
def execAtsInvalidate (pasid : Nat) (va : BitVec 48) (pages : Nat) (s : State) : Host.Outcome State Fault Refusal :=
  s.on (·.atsInvalidate pasid va.toNat pages)
/-- INVALIDATE_DONE (R138). -/
def execInvalidateDone (s : State) : Host.Outcome State Fault Refusal := s.on (·.invalidateDone)
/-- CONFIG_WRITE (R141, Table 6.10): what the host enables in the function's capabilities. -/
def execConfigWrite (ats pri : Bool) (s : State) : Host.Outcome State Fault Refusal :=
  s.on (fun d => { d with dx := { d.dx with ats := ats, pri := pri } })

end Sys2Proof.Machine
end

