-- ==== Sys2Proof/Machine/Dma.lean ====
section
/-! DEFINITION. The 256 DMA channels: beats, staging, arbitration, request lines, notices, checksums and completions (R143
to R151). -/

namespace Sys2Proof.Machine

/-! ## Descriptors (Tables 6.3 and 6.4) -/

def noticeVa (x : BitVec 512) : Nat := (x.toNat >>> 384) % 2 ^ 48
def halfIrq (x : BitVec 512) : Bool := descF x 56 0 0 == 1
def fullIrq (x : BitVec 512) : Bool := descF x 56 1 1 == 1
def csumKind (x : BitVec 512) : Nat := descF x 56 3 2
/-- The checksum is stored: CSUM_STORE with a checksum chosen, and a destination in memory. -/
def csumStore (x : BitVec 512) : Bool := descF x 56 4 4 == 1 && csumKind x != 0 && opOf x != 3
/-- Beats per burst. -/
def burstBeats (x : BitVec 512) : Nat := 2 ^ descF x 56 6 5
def reqLine (x : BitVec 512) : Nat := descF x 56 12 8
/-- The item moves bursts of a request line. -/
def isPeriph (x : BitVec 512) : Bool := opOf x == 2 || opOf x == 3

/-- A descriptor that DMA refuses with BAD_DESC: an opcode, field or value that Tables 6.3 and 6.4 reserve. -/
def dmaBad (x : BitVec 512) : Bool :=
  3 < opOf x || descF x 52 31 16 ≠ 0 || csumKind x == 3 || descF x 56 6 5 == 3 || descF x 56 7 7 == 1 || descF x 56 31 13 ≠ 0 ||
    (opOf x ≠ 1 && descF x 60 31 0 ≠ 0) || ((halfIrq x || fullIrq x) && noticeVa x % 16 ≠ 0)

/-- Beats of a side: the 64-byte blocks that its range touches (R147). -/
def beatCount (addr len : Nat) : Nat := if len = 0 then 0 else (addr % 64 + len + 63) / 64
/-- Source and destination beats of an item. -/
def srcBeats (x : BitVec 512) : Nat := if opOf x = 0 || opOf x = 3 then beatCount (srcOf x) (lengthOf x) else 0
def dstBeats (x : BitVec 512) : Nat := if opOf x = 3 then 0 else beatCount (dstOf x) (lengthOf x)

/-- Where beat `i` of a range starts and ends, counted in bytes of the transfer. -/
def beatLo (addr i : Nat) : Nat := if i = 0 then 0 else i * 64 - addr % 64
def beatHi (addr len i : Nat) : Nat := min len ((i + 1) * 64 - addr % 64)

/-! ## Channels -/

/-- A channel. -/
def Dev.chan (d : Dev) (n : Nat) : Chan := SMap.get (fun _ => Chan.reset) d.dx.chans n
/-- Replace a channel. -/
def Dev.setChan (d : Dev) (n : Nat) (c : Chan) : Dev :=
  { d with dx := { d.dx with chans := SMap.set (fun _ => Chan.reset) d.dx.chans n c } }
/-- Change a channel. -/
def Dev.modChan (d : Dev) (n : Nat) (f : Chan → Chan) : Dev := d.setChan n (f (d.chan n))

/-- The item a channel runs, once STARTED is recorded. -/
def Dev.chanItem (d : Dev) (n : Nat) : Option Item :=
  match (d.chan n).seq with
  | some s => match d.item? n s with
    | some i => if i.recorded = .started && i.pend.isNone then some i else none
    | none => none
  | none => none

/-- Rings with DMA items that channels have to see to. -/
def Dev.dmaRings (d : Dev) : List Nat :=
  ((d.wk.items.filter (fun i => engineOf i.desc == 1 && (i.phase == .bound || i.phase == .running))).map (·.ring)).dedup

/-- The next DMA item of a ring: the earliest whose COMPLETED is not recorded (R143). -/
def Dev.nextDma (d : Dev) (n : Nat) : Option Item :=
  d.wk.items.find? (fun i => i.ring == n && engineOf i.desc == 1 && i.recorded != .completed)

/-- Number of a failing beat that does not exist (Table 6.6). -/
abbrev noBeat : Nat := 0xFFFFFFFF

/-- The completion of an item that fails before STARTED. -/
def Item.dmaRefused (i : Item) (cause : Nat) : Result := { i.plain .failed cause with eres := BitVec.ofNat 128 noBeat }

/-- A channel takes its ring's next item: what it checks before STARTED is recorded (R146, R148). -/
def Dev.dmaTake (d : Dev) (n : Nat) : Dev :=
  if (d.chan n).seq.isSome then d
  else match d.nextDma n with
    | none => d
    | some i =>
      let x := i.desc
      if i.phase ≠ .bound || i.pend.isSome then d
      else if dmaBad x then d.finish n i.seq (i.dmaRefused Cause.BAD_DESC)
      else if isPeriph x && !d.rb Pg.dx Reg.DX_REQ_LINE_EN (reqLine x) then d.finish n i.seq (i.dmaRefused Cause.LINE_OFF)
      else
        let c : Chan := { Chan.reset with seq := some i.seq, withdrawn := isPeriph x && 12 ≤ reqLine x }
        let d := d.setChan n c
        if i.recorded = .started then d.modItem n i.seq (fun j => { j with phase := .running })
        else (d.modItem n i.seq (fun j => { j with phase := .running })).transition n i.seq .started

/-! ## What a channel issues next (R145, R147, R148) -/

/-- Bytes of the transfer from `lo` to `hi` in the staged source beats. -/
def staged (src : Nat) (got : List (Nat × List Byte)) (lo hi : Nat) : Option (List Byte) :=
  (List.range ((src % 64 + hi - 1) / 64 - (src % 64 + lo) / 64 + 1)).foldl (fun acc k =>
    let b := (src % 64 + lo) / 64 + k
    match acc, got.find? (fun g => g.1 == b) with
    | some bs, some g =>
      let start := beatLo src b
      some (bs ++ (g.2.take (hi - start)).drop (lo - start))
    | _, _ => none) (some [])

/-- The next beat of a channel's side as the channel stands: destination side, index, virtual address, length, and a
write's bytes. -/
structure NextBeat where
  dst : Bool
  idx : Nat
  va : Nat
  len : Nat
  bytes : List Byte
deriving DecidableEq, Repr

/-- The pattern bytes of FILL from byte `lo` of the destination (Table 6.3). -/
def fillBytes (x : BitVec 512) (lo len : Nat) : List Byte :=
  (List.range len).map (fun k => BitVec.ofNat 8 (descF x 60 31 0 >>> (8 * ((lo + k) % 4))))

/-- The destination beat a channel would issue. -/
def wantDst (x : BitVec 512) (c : Chan) : Option NextBeat :=
  let k := c.dstNext
  let lo := beatLo (dstOf x) k
  let hi := beatHi (dstOf x) (lengthOf x) k
  let w (bs : List Byte) : NextBeat := { dst := true, idx := k, va := dstOf x + lo, len := hi - lo, bytes := bs }
  if dstBeats x ≤ k then none
  else if opOf x = 0 then (staged (srcOf x) c.got lo hi).map w
  else if opOf x = 1 then some (w (fillBytes x lo (hi - lo)))
  else if c.burst = 0 then none
  else
    let bs : List Byte := if c.withdrawn then [] else (((c.got.find? (fun g => g.1 == k)).map (·.2)).getD [])
    some (w (bs ++ List.replicate (hi - lo - bs.length) (0 : Byte)))

/-- The source beat a channel would issue: at most 4 KiB ahead of its writes (R145). -/
def wantSrc (x : BitVec 512) (c : Chan) : Option NextBeat :=
  let k := c.srcNext
  let lo := beatLo (srcOf x) k
  let hi := beatHi (srcOf x) (lengthOf x) k
  let written := if c.dstNext = 0 then 0 else beatHi (dstOf x) (lengthOf x) (c.dstNext - 1)
  let w : NextBeat := { dst := false, idx := k, va := srcOf x + lo, len := hi - lo, bytes := [] }
  if srcBeats x ≤ k then none
  else if opOf x = 0 then (if hi - written ≤ 4096 then some w else none)
  else if c.burst = 0 then none
  else some w

/-- The beat a channel would issue, if any: none once a beat has failed (R147). -/
def want (x : BitVec 512) (c : Chan) : Option NextBeat :=
  if c.fail.isSome then none else (wantDst x c).orElse (fun _ => wantSrc x c)

/-- Every beat of the item has been issued, or its peripheral has ended the transfer after a burst. -/
def allIssued (x : BitVec 512) (c : Chan) : Bool :=
  (srcBeats x ≤ c.srcNext && dstBeats x ≤ c.dstNext) || (c.withdrawn && c.burst == 0)

/-- The data phase is over (R147). -/
def dataOver (x : BitVec 512) (c : Chan) : Bool := c.out.isEmpty && (c.fail.isSome || allIssued x c)

/-! ## Request lines (R148) -/

/-- A line serves an item's direction (Table 6.5). -/
def lineServes (line op : Nat) : Bool :=
  (op == 2 && (line < 3 || (6 ≤ line && line ≤ 11))) || (op == 3 && ((3 ≤ line && line ≤ 5) || line == 10 || line == 11))

/-- Bytes a peripheral of the block has to give on a line; `other` for one outside it. -/
def Dev.lineHas (d : Dev) (line : Nat) : List Byte :=
  if line < 3 then (SMap.get (fun _ => []) d.air.rxq line).flatten
  else if 6 ≤ line && line ≤ 9 then d.tap (line - 6)
  else if line = 11 then d.sys.smb.buf
  else SMap.get (fun _ => []) d.dx.lineData line

/-- What a peripheral has left after giving `n` bytes. -/
def Dev.lineTake (d : Dev) (line n : Nat) : Dev :=
  let rest := (d.lineHas line).drop n
  if line < 3 then { d with air := { d.air with rxq := SMap.set (fun _ => []) d.air.rxq line (if rest = [] then [] else [rest]) } }
  else if 6 ≤ line && line ≤ 9 then d.setTap (line - 6) rest
  else if line = 11 then { d with sys := { d.sys with smb := { d.sys.smb with buf := rest } } }
  else { d with dx := { d.dx with lineData := SMap.set (fun _ => []) d.dx.lineData line rest } }

/-- Set the level of a line. -/
def Dev.setLine (d : Dev) (line : Nat) (b : Bool) : Dev := { d with dx := { d.dx with lines := putBit line b d.dx.lines } }

/-- Cut a burst's bytes into its beats. -/
def burstData (x : BitVec 512) : Nat → Nat → List Byte → List (Nat × List Byte)
  | 0, _, _ => []
  | f + 1, k, bs =>
    let n := beatHi (dstOf x) (lengthOf x) k - beatLo (dstOf x) k
    (k, bs.take n) :: burstData x f (k + 1) (bs.drop n)

/-- A burst starts on a channel with `n` beats: an input burst takes the peripheral's bytes; a peripheral with too few
supplies zeros and then withdraws. -/
def Dev.startBurst (d : Dev) (n : Nat) (x : BitVec 512) : Dev :=
  let c := d.chan n
  let beats := min (burstBeats x) (srcBeats x + dstBeats x - (c.srcNext + c.dstNext))
  if opOf x = 2 then
    let bytes := beatHi (dstOf x) (lengthOf x) (c.dstNext + beats - 1) - beatLo (dstOf x) c.dstNext
    let data := d.lineHas (reqLine x)
    let short := decide (data.length < bytes)
    ((d.setLine (reqLine x) false).lineTake (reqLine x) bytes).setChan n
      { c with burst := beats, lastBurst := short, got := burstData x beats c.dstNext (data.take bytes) }
  else (d.setLine (reqLine x) false).setChan n { c with burst := beats }

/-- A channel waits on its line: no burst runs and the data phase goes on. -/
def waitsLine (x : BitVec 512) (c : Chan) : Bool :=
  isPeriph x && c.burst == 0 && !c.withdrawn && c.fail.isNone && !allIssued x c

/-- A channel that waits on an asserted line starts a burst. -/
def Dev.seeLine (d : Dev) (n : Nat) : Dev :=
  match d.chanItem n with
  | none => d
  | some i =>
    if waitsLine i.desc (d.chan n) && bit (reqLine i.desc) d.dx.lines && lineServes (reqLine i.desc) (opOf i.desc) &&
        d.rb Pg.dx Reg.DX_REQ_LINE_EN (reqLine i.desc) then d.startBurst n i.desc
    else d

/-- A line is withdrawn: the items on it end after the burst in progress, whose later beats are overrun beats. -/
def Dev.withdraw (d : Dev) (line : Nat) : Dev :=
  let d := { d.setLine line false with dx := { (d.setLine line false).dx with lineData := SMap.set (fun _ => []) d.dx.lineData line [] } }
  d.dmaRings.foldl (fun d n =>
    match (d.chan n).seq.bind (d.item? n) with
    | some i =>
      if isPeriph i.desc && reqLine i.desc = line && !(d.chan n).withdrawn && !allIssued i.desc (d.chan n) then
        d.modChan n (fun c => { c with withdrawn := true, overrun := c.overrun + c.burst })
      else d
    | none => d) d

/-- What a peripheral takes on a line: it leaves the block, and the SMBus target keeps it in its buffer. -/
def Dev.lineGive (d : Dev) (line : Nat) (bs : List Byte) : Dev :=
  let d := d.emit (.periph line bs)
  if line = 11 then
    { d with sys := { d.sys with smb := { d.sys.smb with buf := (d.sys.smb.buf ++ bs).take 4096, bufReady := true } } }
  else d

/-! ## Failures, acknowledgements and checksums (R147, R150) -/

/-- Order of failing beats: by index, the source side first; a notice or store after every beat. -/
def failsBefore (a b : Option Nat × Bool) : Bool :=
  match a.1, b.1 with
  | some i, some j => i < j || (i == j && !a.2 && b.2)
  | some _, none => true
  | none, _ => false

/-- A beat fails; the lowest-numbered one is kept. -/
def Chan.failed (c : Chan) (idx : Option Nat) (dst : Bool) (cause va : Nat) : Chan :=
  match c.fail with
  | some (i, s, _, _) => if failsBefore (idx, dst) (i, s) then { c with fail := some (idx, dst, cause, va) } else c
  | none => { c with fail := some (idx, dst, cause, va) }

/-- Add a byte at offset `p` of the transfer to the checksums. -/
def Chan.sumByte (c : Chan) (p : Nat) (b : Byte) : Chan :=
  { c with crc := Config.crcSteps 0x82F63B78 8 (c.crc ^^^ b.toNat), sum := c.sum + (if p % 2 = 0 then b.toNat * 256 else b.toNat) }

/-- Add a run of contiguous bytes. -/
def Chan.sumBytes (c : Chan) : List Byte → Chan
  | [] => c
  | b :: bs => ({ c.sumByte c.contig b with contig := c.contig + 1 }).sumBytes bs

/-- Fold acknowledged beats into the contiguous count, in order; overrun beats are not counted. -/
def Dev.foldAcks (d : Dev) (n : Nat) (x : BitVec 512) : Nat → Dev
  | 0 => d
  | f + 1 =>
    let c := d.chan n
    match c.acked.find? (fun a => a.1 == c.folded) with
    | none => d
    | some a =>
      let d := d.setChan n { c.sumBytes a.2 with folded := c.folded + 1, acked := c.acked.filter (fun b => b.1 != c.folded) }
      let d := if opOf x = 3 then d.lineGive (reqLine x) a.2 else d
      d.foldAcks n x f

/-- The checksum's value (R150). -/
def Chan.checksum (c : Chan) (x : BitVec 512) : Nat :=
  match csumKind x with
  | 1 => c.crc ^^^ 0xFFFFFFFF
  | 2 => if c.sum = 0 then 0 else (c.sum - 1) % 65535 + 1
  | _ => 0

/-- Its bytes as stored. -/
def Chan.checksumBytes (c : Chan) (x : BitVec 512) : List Byte :=
  if csumKind x = 1 then bytesLE 4 (c.checksum x) else bytesBE 2 (c.checksum x)

/-- A beat's response is good: its bytes are staged, delivered or counted. -/
def Dev.beatOk (d : Dev) (n : Nat) (x : BitVec 512) (b : DmaBeat) (bs : List Byte) : Dev :=
  let c := d.chan n
  let counted := if b.overrun then c else { c with acked := c.acked ++ [(b.idx, bs)] }
  if b.dst then (d.setChan n counted).foldAcks n x counted.acked.length
  else if opOf x = 0 then d.setChan n { c with got := c.got ++ [(b.idx, bs)] }
  else (d.setChan n counted).foldAcks n x counted.acked.length

/-! ## Notices and the end of an item (R149 to R151) -/

/-- A notice's bytes: SEQ, KIND and ENCORE, bytes counted. -/
def noticeBytes (i : Item) (kind count : Nat) : List Byte :=
  bytesLE 8 i.seq ++ bytesLE 4 (kind + i.encored.toNat * 4) ++ bytesLE 4 count

/-- Write a notice and send the ring's vector when it is acknowledged. The result says whether the channel may go on. -/
def Dev.notice (d : Dev) (n : Nat) (i : Item) (kind : Nat) : Dev × Bool :=
  match d.virtWrite n (d.ringAsid n) (noticeVa i.desc) (noticeBytes i kind (d.chan n).contig) with
  | (d, .stop) => (d, false)
  | (d, .ok) =>
    let d := d.modChan n (fun c => if kind = 1 then { c with halfDone := true, halfSent := true } else { c with fullDone := true, fullSent := true })
    (if d.irqEn n then d.ringVector n else d, true)
  | (d, .fail cause) =>
    (d.modChan n (fun c =>
      let c := if kind = 1 then { c with halfDone := true } else { c with fullDone := true }
      if cause = Cause.XLATE_REFUSED || cause = Cause.WALK_ERROR then c.failed none true cause (noticeVa i.desc) else c), true)

/-- The completion fields of Table 6.6. -/
def Chan.result (c : Chan) (i : Item) : Result :=
  let base : Result := { i.plain i.doneStatus 0 with
    flags := word (c.stored.toNat + c.halfSent.toNat * 2 + c.fullSent.toNat * 4 + c.withdrawn.toNat * 8 + (decide (0 < c.parks)).toNat * 16),
    result0 := BitVec.ofNat 64 c.contig }
  let tail (beat sum : Nat) : BitVec 128 :=
    BitVec.ofNat 128 (beat % 2 ^ 32 + c.overrun % 2 ^ 32 * 2 ^ 32 + sum % 2 ^ 32 * 2 ^ 64 + c.parks % 2 ^ 16 * 2 ^ 96 + c.preempts % 2 ^ 16 * 2 ^ 112)
  match c.fail with
  | none => { base with eres := tail noBeat (c.checksum i.desc) }
  | some (idx, dst, cause, va) =>
    { base with status := .failed, cause := cause, result1 := BitVec.ofNat 64 (va % 2 ^ 48 + dst.toNat * 2 ^ 63),
                eres := tail (idx.getD noBeat) 0 }

/-- The item ends: COMPLETED is written and the channel is idle. A parked or pre-empted item gives no cost sample (R68). -/
def Dev.dmaFinish (d : Dev) (n : Nat) (i : Item) : Dev :=
  let c := d.chan n
  ((d.setChan n Chan.reset).modItem n i.seq (fun j => { j with eligible := j.eligible && c.parks == 0 && c.preempts == 0 })).finish n i.seq
    (c.result i)

/-- Store the checksum behind the destination; the result says whether the channel may go on. -/
def Dev.storeCsum (d : Dev) (n : Nat) (i : Item) : Dev × Bool :=
  let va := dstOf i.desc + lengthOf i.desc
  match d.virtWrite n (d.ringAsid n) va ((d.chan n).checksumBytes i.desc) with
  | (d, .stop) => (d, false)
  | (d, .ok) => (d.modChan n (fun c => { c with stored := true }), true)
  | (d, .fail cause) => (d.modChan n (fun c => c.failed (some (va / 64 - dstOf i.desc / 64)) true cause va), true)

/-- The half notice, once half of LENGTH is acknowledged. -/
def Dev.halfNotice (d : Dev) (n : Nat) (i : Item) : Dev × Bool :=
  let c := d.chan n
  if halfIrq i.desc && !c.halfDone && (lengthOf i.desc + 1) / 2 ≤ c.contig then d.notice n i 1 else (d, true)

/-- The full notice and the checksum store, once the data phase is over without error. -/
def Dev.closing (d : Dev) (n : Nat) (i : Item) : Dev × Bool :=
  let a := if fullIrq i.desc && !(d.chan n).fullDone then d.notice n i 2 else (d, true)
  if !a.2 || (a.1.chan n).fail.isSome || !csumStore i.desc || (a.1.chan n).stored then a else a.1.storeCsum n i

/-- Count a park of the channel's own access. -/
def Dev.noteParked (d : Dev) (n : Nat) : Dev :=
  d.modChan n (fun c => if c.parked || !d.isParked n then c else { c with parked := true, parks := c.parks + 1 })

/-- What falls due at a channel besides its beats: notices, the checksum, the end of the item. -/
def Dev.dmaSettle (d : Dev) (n : Nat) : Dev :=
  match d.chanItem n with
  | none => d
  | some i =>
    if d.isParked n then d
    else
      let (d, ok) := d.halfNotice n i
      if !ok then d.noteParked n
      else if !dataOver i.desc (d.chan n) then d
      else if (d.chan n).fail.isSome then d.dmaFinish n i
      else
        let (d, ok) := d.closing n i
        if ok then d.dmaFinish n i else d.noteParked n

/-! ## Issue (R144) -/

/-- Issue a translated beat. -/
def Dev.issueBeat (d : Dev) (n : Nat) (x : BitVec 512) (w : NextBeat) (pa : Nat) : Dev :=
  let c := d.chan n
  let ov := isPeriph x && c.withdrawn
  let b : DmaBeat := { dst := w.dst, idx := w.idx, va := w.va, pa := pa, len := w.len, bytes := w.bytes, overrun := ov, stale := false }
  let done := beatHi (dstOf x) (lengthOf x) w.idx
  let left := if isPeriph x then c.burst - 1 else if c.burst = 0 then burstBeats x - 1 else c.burst - 1
  let c := { c with
    out := c.out ++ [b], cut := false, parked := false, burst := left,
    srcNext := if w.dst then c.srcNext else c.srcNext + 1,
    dstNext := if w.dst then c.dstNext + 1 else c.dstNext,
    withdrawn := c.withdrawn || (isPeriph x && c.lastBurst && left == 0),
    got := if w.dst && opOf x = 0 then c.got.filter (fun g => decide (done < beatHi (srcOf x) (lengthOf x) g.1))
           else if w.dst then c.got.filter (fun g => g.1 != w.idx) else c.got }
  d.setChan n c

/-- Try to issue a channel's next beat; the result says whether one was issued. -/
def Dev.tryIssue (d : Dev) (later : Bool) (n : Nat) : Dev × Bool :=
  match d.chanItem n with
  | none => (d, false)
  | some i =>
    match want i.desc (d.chan n) with
    | none => (d, false)
    | some w =>
      if d.isParked n then (d, false)
      else match d.xlateWith later n (d.ringAsid n) w.va w.dst with
        | (d, .ok pa) => (d.issueBeat n i.desc w pa, true)
        | (d, .refused) => (d.modChan n (fun c => c.failed (some w.idx) w.dst Cause.XLATE_REFUSED w.va), false)
        | (d, .walkErr) => (d.modChan n (fun c => c.failed (some w.idx) w.dst Cause.WALK_ERROR w.va), false)
        | (d, _) => (d.noteParked n, false)

/-- A channel whose group may cut in. -/
def Dev.cutsIn (d : Dev) (n : Nat) : Bool := d.rb Pg.dx Reg.DX_ARB_MODE (n / 16)

/-- Of two channels the one DX would chooseChan: higher priority; of equals the next after the last one served. -/
def Dev.better (d : Dev) (a b : Nat) : Bool :=
  d.chanPrio b < d.chanPrio a ||
    (d.chanPrio a == d.chanPrio b && (a + 255 - d.dx.lastServed) % 256 < (b + 255 - d.dx.lastServed) % 256)

/-- The best of a list of channels. -/
def Dev.best (d : Dev) (ns : List Nat) : Option Nat :=
  ns.foldl (fun a n => match a with
    | none => some n
    | some m => if d.better n m then some n else some m) none

/-- A channel has a beat to issue, its translation apart. -/
def Dev.wants (d : Dev) (n : Nat) : Bool :=
  match d.chanItem n with
  | some i => (want i.desc (d.chan n)).isSome && !d.isParked n
  | none => false

/-- The port's channel when its burst still runs. -/
def Dev.holder (d : Dev) : Option Nat :=
  match d.dx.port with
  | some h => if 0 < (d.chan h).burst && d.wants h then some h else none
  | none => none

/-- The channel that DX chooses from those given (R144). -/
def Dev.chooseChan (d : Dev) (ns : List Nat) : Option Nat :=
  match d.holder with
  | some h =>
    if !ns.contains h then d.best ns
    else match d.best (ns.filter (fun n => d.cutsIn n && decide (d.chanPrio h < d.chanPrio n))) with
      | some n => some n
      | none => some h
  | none => d.best ns

/-- A channel issued a beat: it holds the port; a burst it interrupted was cut into. -/
def Dev.tookPort (d : Dev) (h : Option Nat) (n : Nat) : Dev :=
  let d := match h with
    | some m => if m = n then d
        else (d.modChan m (fun c => { c with preempts := c.preempts + 1, cut := true })).bump Pg.dx Reg.DX_CUTIN_COUNT 31 0
    | none => d
  { d with dx := { d.dx with port := some n, lastServed := n } }

/-- Choose among the ready channels until one issues a beat; a channel that waits for a translation stops being ready. -/
def Dev.issueFrom (d : Dev) (held : Option Nat) : Nat → List Nat → Dev
  | 0, _ => d
  | f + 1, ns =>
    match d.chooseChan ns with
    | none => d
    | some n =>
      let (d, ok) := d.tryIssue true n
      if ok then d.tookPort (held.filter (fun h => ns.contains h)) n else d.issueFrom held f (ns.filter (fun m => m != n))

/-- BEAT_ISSUE: channels take items and see their lines, ends fall due, and one beat is issued (R143, R144). -/
def Dev.beatIssue (d : Dev) : Dev :=
  if !d.up Pg.dx then d
  else
    let d := d.dmaRings.foldl (fun d n => ((d.dmaTake n).seeLine n).dmaSettle n) d
    let ready := d.dmaRings.filter d.wants
    (d.issueFrom d.holder ready.length ready)

/-! ## Lines -/

/-- REQ_LINE_ASSERT: the line rises with what a peripheral outside the block gives, and the channel that waits on it starts a
burst (R148). Lines 12–31 have no peripheral. -/
def Dev.lineAssert (d : Dev) (line : Nat) (data : List Byte) : Dev :=
  if 12 ≤ line then d
  else
    let d := { d.setLine line true with dx := { (d.setLine line true).dx with
      lineData := if line = 10 then SMap.set (fun _ => []) d.dx.lineData line data else d.dx.lineData } }
    d.dmaRings.foldl (fun d n => d.seeLine n) d

/-- REQ_LINE_EN_WRITE: clearing a bit withdraws the line (R148). -/
def Dev.lineEnWrite (d : Dev) (v : Word) : Dev :=
  let gone := d.reg Pg.dx Reg.DX_REQ_LINE_EN &&& ~~~ v
  let d := (List.range 32).foldl (fun d l => if bit l gone then d.withdraw l else d) d
  d.setReg Pg.dx Reg.DX_REQ_LINE_EN v

/-! ## Commands -/

/-- REQ_LINE_ASSERT (R148). -/
def execReqLineAssert (line : Fin 32) (data : List Byte) (s : State) : Host.Outcome State Fault Refusal := s.on (·.lineAssert line.val data)
/-- REQ_LINE_WITHDRAW (R148). -/
def execReqLineWithdraw (line : Fin 32) (s : State) : Host.Outcome State Fault Refusal := s.on (·.withdraw line.val)
/-- REQ_LINE_EN_WRITE (R148). -/
def execReqLineEnWrite (v : Word) (s : State) : Host.Outcome State Fault Refusal := s.on (·.lineEnWrite v)

end Sys2Proof.Machine
end

