-- ==== Sys2Proof/Machine/Lifecycle.lean ====
section
/-! DEFINITION. The life of a page: ENABLE and DRAINING, bows, island resets, retirement records and their
re-qualification (chapters 2, 20 and 21; R106). -/

namespace Sys2Proof.Machine

/-! ## ENABLE and draining (R31, R106, R493) -/

/-- The unit may leave OFF: its stage of Table 21.3 has been reached (R493), and no thermal trip holds the islands
(R499). -/
def Dev.mayLeaveOff (d : Dev) (p : Page) : Bool := decide (stageOf (kindOf p) ≤ d.sys.stage) && !(d.en.tripped && (kindOf p).selfTimed)

/-- Writes to ENABLE are discarded: the page has no header, sits out (R31), or is an island that a thermal trip holds
(R499). -/
def Dev.enableIgnored (d : Dev) (p : Page) : Bool :=
  kindOf p == .dir || (d.hdr p).state == .sitOut || (d.en.tripped && (kindOf p).selfTimed)

/-- ENABLE written 1. -/
def Dev.enablePage (d : Dev) (p : Page) : Dev :=
  if d.enableIgnored p then d
  else
    let go := (d.hdr p).state == .off && !(d.hdr p).rst && d.mayLeaveOff p
    d.modHdr p (fun h => { h with enable := true, state := if go then .starting else h.state })

/-- An item leaves what its engine holds of it. -/
def Dev.dropJob (d : Dev) (ring seq : Nat) : Dev :=
  let other (x : Option (Nat × Nat)) : Bool := x != some (ring, seq)
  let gone := d.qm.queues.flatMap (fun q => q.2.filter (fun p => p.assured == some (ring, seq)))
  let d := { d with
    ves := d.ves.map (fun e => (e.1, { e.2 with queue := e.2.queue.filter (fun j => other j.item) })),
    cps := d.cps.map (fun u => (u.1, { u.2 with
      outs := u.2.outs.map (fun o => (o.1, { o.2 with reqs := o.2.reqs.filter (fun r => r != (ring, seq)) })) })),
    dss := d.dss.map (fun u => (u.1, { u.2 with parked := u.2.parked.filter (fun r => r != (ring, seq)) })),
    qm := { d.qm with queues := d.qm.queues.map (fun q => (q.1, q.2.filter (fun p => p.assured != some (ring, seq)))) } }
  gone.foldl (fun d p => d.freePkt p) d

/-- Items dispatched to the unit and still ACCEPTED complete RETURNED, DRAINED (R106). -/
def Dev.returnAccepted (d : Dev) (p : Page) : Dev :=
  (d.wk.items.filter (fun i => decide (i.page? = some p) && decide (i.recorded = .accepted) && i.pend.isNone && decide (i.phase = .bound))).foldl
    (fun d i => (d.dropJob i.ring i.seq).finishPlain i.ring i.seq .returned Cause.DRAINED) d

/-- ENABLE written 0, with DRAIN_MODE; DRAIN_MODE 2 and 3 leave the field unchanged (Table 2.5). -/
def Dev.disablePage (d : Dev) (p : Page) (mode : Nat) : Dev :=
  if d.enableIgnored p then d
  else
    let st := (d.hdr p).state
    let drains := st == .starting || st.serves
    let d := d.modHdr p (fun h => { h with
      enable := false, drainReturn := if mode ≤ 1 then mode == 1 else h.drainReturn, state := if drains then .draining else h.state })
    if (d.hdr p).drainReturn && (d.hdr p).state == .draining then d.returnAccepted p else d

/-- The ports of an EP or MG page lose link. -/
def Dev.portsDown (d : Dev) (p : Page) : Dev :=
  match kindOf p with
  | .ep => (List.range 4).foldl (fun d s => d.linkDown (4 * instOf p + s)) d
  | .mg => d.linkDown 16
  | _ => d

/-- DRAIN_DONE: INFLIGHT of a draining page is 0 (R31). -/
def Dev.drainEnd (d : Dev) (p : Page) : Dev :=
  let h := d.hdr p
  if h.state ≠ .draining || h.inflight ≠ 0 then d
  else
    let d := d.portsDown p
    d.modHdr p (fun h => { h with state := if h.enable && d.mayLeaveOff p then .starting else .off, continuous := false })

/-! ## Bows (R35 to R39) -/

/-- COMMIT_TIME_LO, COMMIT_TIME_HI and COMMIT_STAT of every page that has them (R36). -/
abbrev commitTimeLo : Nat := 0x100
abbrev commitTimeHi : Nat := 0x104
abbrev commitStat : Nat := 0x108

/-- COMMIT_TIME, presented ns. -/
def Dev.commitTime (d : Dev) (p : Page) : Nat := (d.reg p commitTimeLo).toNat + (d.reg p commitTimeHi).toNat * 2 ^ 32

/-- The page's frame boundary is one that never comes: TM has none (R327), and CP none while SYNC_OUT is not enabled
(R236). -/
def Dev.noBoundary (d : Dev) (p : Page) : Bool :=
  match kindOf p with
  | .tm => true
  | .cp => !d.tb p (d.rf p Reg.CP_COMMIT_CFG 6 0 * 64) 0 0
  | _ => false

/-- The page's validator refuses its shadows; its reject register takes the details (R237, R327, R429, and the deadlines
of AM_DEADLINE). -/
def Dev.validate (d : Dev) (p : Page) : Dev × Bool :=
  match kindOf p with
  | .cp =>
    (match d.cpValidate (instOf p) with
      | some (c, o, e) => (d.setReg p Reg.CP_REJECT (word (c + o * 2 ^ 4 + e * 2 ^ 11)), false)
      | none => (d, true))
  | .tm =>
    (match d.tmValidate with
      | some (port, c) => (d.setReg p Reg.TM_REJECT (word (port + c * 2 ^ 5 + 2 ^ 31)), false)
      | none => (d, true))
  | .ac =>
    (match d.acValidate with
      | some (c, r, e) => (d.setReg p Reg.AC_REJECT (word (c + r * 2 ^ 4 + e * 2 ^ 8 + 2 ^ 31)), false)
      | none => (d, true))
  | .am =>
    let w := d.shadow p Reg.AM_DEADLINE
    (d, fld 7 0 w < fld 15 8 w && fld 15 8 w < fld 23 16 w && fld 23 16 w ≤ 45)
  | _ => (d, true)

/-- A COMMIT request is refused (R38). -/
def Dev.refuseCommit (d : Dev) (p : Page) (cause : Nat) : Dev := (d.setRf p commitStat 3 0 cause).detect p Evt.COMMIT_REJECT

/-- The first check of Table 2.13 that a request fails, in the order of its causes (assumption log 51). -/
def Dev.commitCause (d : Dev) (p : Page) (at_ : Nat) : Option Nat :=
  let h := d.hdr p
  if h.commitPending then some 1
  else if at_ = 3 then some 2
  else if at_ = 1 && d.noBoundary p then some 3
  else if at_ = 2 && decide ((d.commitTime p : Int) ≤ d.timeNs) then some 4
  else if h.state = .sitOut || h.state = .faulted then some 5
  else none

/-- No commit unit of the page is in progress, so a bow with COMMIT_AT = 0 is taken at the request (R35; assumption
log 52). -/
def Dev.commitIdle (d : Dev) (p : Page) : Bool :=
  match kindOf p with
  | .ve => ((d.veng (instOf p)).bound).isEmpty
  | .cp => !(d.hdr p).state.serves || (((d.cpUnit (instOf p)).frames).isEmpty && (List.range 128).all (fun o => !d.tb p (o * 64) 0 0))
  | .tm => true
  | _ => !(d.hdr p).state.serves

/-- A bow: every shadow of the page becomes active at once (R35), and the unit takes the new values up. -/
def Dev.takeBow (d : Dev) (p : Page) : Dev :=
  if kindOf p = .ac then d.acBow
  else
    let old (port : Nat) : GateCfg := d.gateWords port
    let d := (d.takeShadows p).modHdr p (fun h => { h with commitPending := false })
    let d := d.bump p commitStat 31 16
    match kindOf p with
    | .cp => d.cpPlanned (instOf p)
    | .tm => d.tmBow old
    | _ => d

/-- COMMIT written 1 with a COMMIT_AT (R38). -/
def Dev.commitAsk (d : Dev) (p : Page) (at_ : BitVec 2) : Dev :=
  if kindOf p = .dir then d
  else
    let d := d.modHdr p (fun h => { h with commitAt := at_ })
    if !(kindOf p).hasCommit then d.detect p Evt.COMMIT_REJECT
    else match d.commitCause p at_.toNat with
      | some c => d.refuseCommit p c
      | none =>
        let (d, ok) := d.validate p
        if !ok then d.refuseCommit p 6
        else
          let d := d.modHdr p (fun h => { h with commitPending := true, bowAt := at_ })
          if at_ = 0 && d.commitIdle p then d.takeBow p else d

/-- A commit-unit boundary of the page: for VE between two pictures, for AC only at a caller assembly while it serves
(R187, R401). -/
def Dev.atBoundary (d : Dev) (p : Page) : Bool :=
  match kindOf p with
  | .ve => (match (d.veng (instOf p)).bound with | [] => true | x :: _ => decide (x.row = 0))
  | .ac => !(d.hdr p).state.serves
  | _ => true

/-- BOW: the pending bow's moment has come (R35, R36). -/
def Dev.bowMoment (d : Dev) (p : Page) : Dev :=
  let h := d.hdr p
  if !h.commitPending || !d.atBoundary p || (h.bowAt = 2 && decide (d.timeNs < (d.commitTime p : Int))) then d
  else d.takeBow p

/-! ## Island resets (R473, R475, R480, R496) -/

/-- ISLAND_RST written 1: discarded in SIT_OUT (R31); one that runs goes on. -/
def Dev.askReset (d : Dev) (p : Page) : Dev :=
  if kindOf p = .dir || (d.hdr p).state = .sitOut || (d.hdr p).rst then d else d.startReset p

/-- Take a radio off the air: what it sends, and what is ready for it. -/
def Dev.silence (d : Dev) (r : Nat) : Dev := ((d.dropOnAir r).paenOff r).dropReady r

/-- PX's internal state is cleared: walks, jitter stores and encodings end; copies start anew. What its entries say and
the packets in TM stay. -/
def Dev.pxReset (d : Dev) : Dev :=
  let d := { d with px := { d.px with walks := [], legs := [], encs := [], keyAt := [], rate := [], buckets := [] } }
  d.validCopies.foldl (fun d e => d.startCopy e) d

/-- Internal state of a video engine is lost: its pictures and its jobs that are not ring work (R496); an encoding whose
slices have left before the loss resynchronises (R222). -/
def Dev.veReset (d : Dev) (e : Nat) : Dev :=
  let v := d.veng e
  let own := (v.queue ++ v.bound.map (·.job)).filter (·.item.isNone)
  let d := own.foldl (fun d j => d.release j.uj) d
  let cutAt := (v.bound.filter (fun b => b.slices != 0)).map (fun b => e * 512 + b.job.ctx)
  let d := d.setVeng e { VEng.reset with nextId := v.nextId }
  let d := { d with vctx := d.vctx.map (fun x => if x.1 / 512 = e then (x.1, { x.2 with pend := [], emits := [] }) else x) }
  cutAt.foldl (fun d h => let x := d.vctxOf h; (d.setVctx h { x with cur := { x.cur with resync := true } }).showCtx h) d

/-- Internal state of a compositor is lost; its published pictures stay in memory. -/
def Dev.cpReset (d : Dev) (c : Nat) : Dev :=
  let own := (d.cpUnit c).frames.filter (·.item.isNone)
  let d := own.foldl (fun d f => d.release f.uj) d
  d.setCpUnit c CpUnit.reset

/-- The translation cache, walks, parks and channels are cleared, and encore is due (R101, R102). -/
def Dev.dxReset (d : Dev) : Dev :=
  { d with dx := { d.dx with cache := [], walks := [], parks := [], chans := [], port := none, invBusy := false, atsInvDue := false },
           sys := { d.sys with encoreRunning := true } }

/-- A unit's internal state is cleared by its island reset (R496, Table 21.4). -/
def Dev.resetUnit (d : Dev) (p : Page) : Dev :=
  let n := instOf p
  match kindOf p with
  | .ve => d.veReset n
  | .cp => d.cpReset n
  | .ds => d.dsReset n
  | .am => d.amReset
  | .qm => d.keepQueued.qmReset
  | .px => d.pxReset
  | .tm => d.tmReset
  | .ac => d.acReset
  | .ce => d.ceReset n
  | .mc => d.mcReset n
  | .dp => (d.modGrp n (fun x => { x with unlocked := false })).serveHeld n
  | .rb => d.silence n
  | .cv => (List.range 3).foldl (fun d r => (d.silence r).modRadio r (fun x => { x with offAir := false })) d
  | .ep | .mg => d.portsDown p
  | .ph => { d with sys := { d.sys with l0 := false } }
  | .tu => { d with tu := { d.tu with rem := 0, txts := [], txtsLost := 0, refusals := 0 } }
  | .dx => d.dxReset
  | _ => d

/-- Kinds of page whose RO words show kept state and not counts: an island reset leaves them. -/
def keepsStatus (k : PageKind) (off : Nat) : Bool :=
  k == .cc || k == .sk || k == .ps || k == .tu || (k == .dx && off == Reg.DX_LEDGER_STAT) || (k == .dp && off == Reg.DP_TRAIN_STAT) ||
    (k == .fb && off == Reg.FB_TAGS_USED)

/-- RO and RC fields of a page return to their reset values, and its latches clear (R26, R496). -/
def Dev.resetCounters (d : Dev) (p : Page) : Dev :=
  let k := kindOf p
  let mask (r : RegDesc) : Word := r.fields.foldl (fun m f => if f.acc = .ro || f.acc = .rc then m ||| fieldMask f.hi f.lo else m) 0
  let d := (blockRegs k).foldl (fun d r =>
    if mask r = 0 || keepsStatus k r.off then d
    else if r.bank.isSome then
      { d with pages := { d.pages with regs := d.pages.regs.map (fun e =>
          if e.1 % 2 ^ 26 = p.val * 0x1000 + r.off then (e.1, (e.2 &&& ~~~ mask r) ||| (r.reset &&& mask r)) else e) } }
    else d.setReg p r.off ((d.reg p r.off &&& ~~~ mask r) ||| (r.reset &&& mask r))) d
  { d with pages := { d.pages with latch := SMap.keep (fun key => key / 0x1000 != p.val) d.pages.latch } }

/-- Table words that hardware alone writes return to their reset values in the pages where they are counts. -/
def Dev.resetTable (d : Dev) (p : Page) : Dev :=
  let k := kindOf p
  if k = .ve || k = .tm || k = .ac || k = .qm || k = .cp then
    (d.pages.tbl.filter (fun e => keyOfPage p e.1)).foldl (fun d e =>
      let a := e.1 / 4 % 2 ^ 24
      let m := tblMask k a (e.1 % 4)
      d.setTw p a (e.1 % 4) ((e.2 &&& m) ||| (tblReset e.1 &&& ~~~ m))) d
  else d

/-- Re-qualifications that a reset of a page abandons: the page's own, and those of RB chains when CV runs them
(R484). -/
def Dev.abandonRequal (d : Dev) (p : Page) : Dev :=
  let d := d.modHdr p (fun h => { h with requal := 0 })
  match kindOf p with
  | .cv => (List.range 3).foldl (fun d r => d.modHdr (rbPage r) (fun h => { h with requal := 0 })) d
  | .mc =>
    (match (d.grp (instOf p)).rebuild with
      | some (m, _) => d.rebuildStop (instOf p) m
      | none => d)
  | _ => d

/-- Firmware's lift of an island ends with its reset (internal state of the pace rules). -/
def Dev.endLift (d : Dev) (p : Page) : Dev :=
  { d with en := { d.en with shortRun := SMap.set (fun _ => 0) d.en.shortRun p.val 0 } }

/-- ISLAND_RESET_DONE (R31, R480, R496): the unit's items are served from their ledger entries, its state is cleared, and
the page starts again if enabled. -/
def Dev.resetDone (d : Dev) (p : Page) : Dev :=
  if !(d.hdr p).rst then d
  else if (d.hdr p).state = .sitOut then d.modHdr p (fun h => { h with rst := false })
  else
    let d := ((d.abandonRequal p).redispatchReset p).resetUnit p
    let d := ((d.resetCounters p).resetTable p).endLift p
    let left := (d.wk.items.filter (fun i => decide (i.page? = some p) && decide (i.recorded ≠ .completed))).length
    d.modHdr p (fun h => { h with
      rst := false, inflight := left, continuous := false, state := if h.enable && d.mayLeaveOff p then .starting else .off,
      pllLock := if (kindOf p).clocked then h.refPresent || kindOf p == .ph else h.pllLock })

/-- FIRMWARE_ISLAND_RST: firmware resets a page that has entered FAULTED; never SK, nor CC by its own firmware (R480,
R535). -/
def Dev.firmwareReset (d : Dev) (p : Page) : Dev :=
  if d.fwRuns && (d.hdr p).state == .faulted && kindOf p != .sk && kindOf p != .cc then d.askReset p else d

/-! ## Retirement records (R484 to R486) -/

/-- Offset of the record of a page that has the bit. -/
def recordAt (p : Page) (bit : Nat) : Option Nat :=
  if bit < recordBits (kindOf p) then recordOff (kindOf p) else none

/-- RETIRE_REC_CLEAR: a write of 0 to a set bit starts the unit's re-qualification; one that runs absorbs it (R484). MC
records follow R121, RB records R386. -/
def Dev.recordClear (d : Dev) (p : Page) (bit : Nat) : Dev :=
  match recordAt p bit with
  | none => d
  | some _ =>
    if !(d.records p).testBit bit then d
    else match kindOf p with
      | .mc => d.rebuildAsk (instOf p) bit
      | .rb => d.chainRequal (instOf p) bit
      | _ => d.modHdr p (fun h => { h with requal := h.requal ||| BitVec.ofNat 32 (2 ^ bit) })

/-- RETIRE_REC_SET: a write of 1 to a clear bit retires the unit without an event; a second member of a parity group and
a second PS bank are not stored (R485). -/
def Dev.recordSet (d : Dev) (p : Page) (bit : Nat) : Dev :=
  match recordAt p bit with
  | none => d
  | some _ =>
    if d.unitOut p bit then d
    else
      let second : Bool := match kindOf p with
        | .mc =>
          let x := d.grp (instOf p)
          x.retiring.isSome || (List.range 9).any (fun m => (x.m m).state == .retired || (x.m m).state == .rebuilding)
        | .ps => d.records p != 0 || d.ps.queue.any (fun w => w.record && w.off == p.val * 0x1000 + Reg.PS_BANK_RETIRE)
        | _ => false
      if second then d else (d.retireUnit p bit).1

/-- The source that retires a unit of a page (Table 20.3), or BANK_FAULT and CORE_FAULT. -/
def retiringSource (k : PageKind) : Nat :=
  match k with
  | .mc => Evt.MC_CHAN_FAULT
  | .ve => Evt.VE_PIXEL_HANG
  | .ds => Evt.DS_LANE_HANG
  | .cp => Evt.CP_BLEND_HANG
  | .ce => Evt.CE_SELFTEST_FAIL
  | .cc => Evt.CC_CORE_FAULT
  | .ps => Evt.PS_BANK_FAULT
  | .ep => Evt.EP_LANE_FAULT
  | _ => Evt.RB_CHAIN_FAULT

/-- A unit's record has become set: what depends on it follows (Table 20.4). -/
def Dev.recordIsSet (d : Dev) (p : Page) (u : Nat) : Dev :=
  let n := instOf p
  match kindOf p with
  | .ve => d.moveContexts n
  | .cp => d.rehomeOutputs n
  | .ep => d.lanesChanged n
  | .ds =>
    let due := ((d.ds n).queue ++ (d.ds n).running.map (·.job)).filter (fun j => j.item.isNone &&
      (match j.deadline with | some t => decide (d.timeNs < t) | none => true))
    let other := (List.range 8).find? (fun c => c != n && (d.hdr (pg (0x20 + c))).state.serves)
    (match other with
      | none => d.setDs n { d.ds n with queue := [], lanes := [] }
      | some c =>
        let d := due.foldl (fun d _ => d.subInflight p) (d.setDs n { d.ds n with queue := [], lanes := [] })
        due.foldl (fun d j => d.queueAudio c { j with parked := false }) d)
  | .mc =>
    let d := d.modGrp n (fun x => if x.retiring = some u then { x.modM u (fun y => { y with state := .retired }) with retiring := none } else x)
    d.serveHeld n
  | _ => d

/-- A unit's record has been stored clear: its count starts anew, and it returns (R471, R484). -/
def Dev.recordIsClear (d : Dev) (p : Page) (u : Nat) : Dev :=
  let d := d.modHdr p (fun h => { h with requal := h.requal &&& ~~~ BitVec.ofNat 32 (2 ^ u) })
  let d := d.clearCount p (if (kindOf p).retiresPage then 100 else u)
  if (kindOf p).retiresPage && (d.hdr p).state = .sitOut then
    d.modHdr p (fun h => { h with state := .off, inflight := 0, rst := false })
  else d

/-- What follows a committed record word, bit by bit. -/
def Dev.recordDone (d : Dev) (p : Page) (old new_ : Word) : Dev :=
  (List.range (recordBits (kindOf p))).foldl (fun d u =>
    if bit u new_ && !bit u old then d.recordIsSet p u
    else if bit u old && !bit u new_ then d.recordIsClear p u
    else d) d

/-- Write CC_CORE_RETIRE, held in the retirement area and not in a register word (R486). -/
def Dev.coreRecord (d : Dev) (u : Nat) (b : Bool) : Dev :=
  let v := if b then d.ps.coreRetired ||| BitVec.ofNat 8 (2 ^ u) else d.ps.coreRetired &&& ~~~ BitVec.ofNat 8 (2 ^ u)
  ({ d with ps := { d.ps with coreRetired := v } }.setRb Pg.cc Reg.CC_CORE_RETIRE u b).setRb Pg.cc Reg.CC_CORE_RETIRE (8 + u) !b

/-- REQUALIFY_DONE: passed, the record is stored with the bit clear; failed, the bit stays and the retiring source is
detected at PERMANENT (R484). -/
def Dev.requalEnd (d : Dev) (p : Page) (u : Nat) (pass : Bool) : Dev :=
  if !(d.hdr p).requal.getLsbD u then d
  else if !pass then
    (d.modHdr p (fun h => { h with requal := h.requal &&& ~~~ BitVec.ofNat 32 (2 ^ u) })).detectAt p (retiringSource (kindOf p)) (some u)
      false .permanent
  else if kindOf p = .cc then (d.coreRecord u false).recordIsClear p u
  else match recordOff (kindOf p) with
    | none => d
    | some off => d.queueRecord p (putFld u u 0 (d.reg p off))

/-! ## Commands -/

/-- ENABLE (R31). -/
def execEnable (p : Page) (s : State) : Host.Outcome State Fault Refusal := s.on (·.enablePage p)
/-- DISABLE (R106). -/
def execDisable (p : Page) (mode : BitVec 2) (s : State) : Host.Outcome State Fault Refusal := s.on (·.disablePage p mode.toNat)
/-- DRAIN_DONE (R31). -/
def execDrainDone (p : Page) (s : State) : Host.Outcome State Fault Refusal := s.on (·.drainEnd p)
/-- COMMIT (R38). -/
def execCommit (p : Page) (at_ : BitVec 2) (s : State) : Host.Outcome State Fault Refusal := s.on (·.commitAsk p at_)
/-- COMMIT_CANCEL (R39). -/
def execCommitCancel (p : Page) (s : State) : Host.Outcome State Fault Refusal := s.on (·.withdrawBow p)
/-- BOW (R35). -/
def execBow (p : Page) (s : State) : Host.Outcome State Fault Refusal := s.on (·.bowMoment p)
/-- ISLAND_RST (R496). -/
def execIslandRst (p : Page) (s : State) : Host.Outcome State Fault Refusal := s.on (·.askReset p)
/-- ISLAND_RESET_DONE (R480). -/
def execIslandResetDone (p : Page) (s : State) : Host.Outcome State Fault Refusal := s.on (·.resetDone p)
/-- FIRMWARE_ISLAND_RST (R480). -/
def execFirmwareIslandRst (p : Page) (s : State) : Host.Outcome State Fault Refusal := s.on (·.firmwareReset p)
/-- RETIRE_REC_CLEAR (R484). -/
def execRetireRecClear (p : Page) (bit : Fin 9) (s : State) : Host.Outcome State Fault Refusal := s.on (·.recordClear p bit.val)
/-- RETIRE_REC_SET (R485). -/
def execRetireRecSet (p : Page) (bit : Fin 9) (s : State) : Host.Outcome State Fault Refusal := s.on (·.recordSet p bit.val)
/-- REQUALIFY_DONE (R484). -/
def execRequalifyDone (p : Page) (bit : Fin 9) (pass : Bool) (s : State) : Host.Outcome State Fault Refusal :=
  s.on (·.requalEnd p bit.val pass)

end Sys2Proof.Machine
end

