-- ==== Sys2Proof/Machine/Fabric.lean ====
section
/-! DEFINITION. The tags of the Rinpiba fabric: requests, returns, partitions and address holes (R11, R14, R530). -/

namespace Sys2Proof.Machine

/-- Tags that a set of partitions takes in all. -/
def Parts.total (p : Parts) : Nat := p.dx + 16 * p.ve + 4 * p.cp + p.shared

/-- Transactions in flight on the fabric (R11). -/
abbrev maxTags : Nat := 16384

/-- Do two requesters draw on one partition (Table 1.3)? -/
def sameShare : Requester → Requester → Bool
  | .dma _, .dma _ => true
  | .dma _, _ => false
  | _, .dma _ => false
  | .ve a, .ve b => a == b
  | .ve _, _ => false
  | _, .ve _ => false
  | .cp a, .cp b => a == b
  | .cp _, _ => false
  | _, .cp _ => false
  | _, _ => true

/-- Tags of a requester's partition. -/
def Parts.share (p : Parts) : Requester → Nat
  | .dma _ => p.dx
  | .ve _ => p.ve
  | .cp _ => p.cp
  | _ => p.shared

/-- Tags of a requester's partition that are taken. -/
def Fabric.taken (f : Fabric) (who : Requester) : Nat := (f.flight.filter (sameShare who)).length

/-- A tag is free for a requester: its partition is not empty and fewer than 16,384 transactions are in flight. -/
def Fabric.free (f : Fabric) (who : Requester) : Bool :=
  decide (f.taken who < f.parts.share who) && decide (f.flight.length < maxTags)

/-- Does FB answer the access with an address error (R14)? -/
def fabricHole (who : Requester) (a : Nat) : Bool :=
  match targetOf a with
  | .hole => true
  | .cell => who != .qm
  | .regs => (match who with | .cc | .hb | .dma _ => false | _ => true)
  | _ => false

/-- FB_TAGS_USED shows the transactions in flight and the most since it was last read. -/
def State.showTags (s : State) : State :=
  let n := s.tags.flight.length
  { s with dev := (s.dev.setRf Pg.fb Reg.FB_TAGS_USED 14 0 n).peak Pg.fb Reg.FB_TAGS_USED 30 16 n }

/-- The fabric accepts a request: it takes a tag, and an access to a hole is answered with an error. -/
def State.takeTag (s : State) (q : FabReq) : State :=
  let s := ({ s with tags := { s.tags with flight := q.who :: s.tags.flight } } : State).showTags
  if fabricHole q.who q.addr.toNat then
    { s with dev := (s.dev.hole q.addr.toNat (requesterNumber q.who)).emit (.addressError q.who) }
  else s

/-- A request takes a tag, or is held behind those of its partition. -/
def State.tryTag (s : State) (q : FabReq) : State :=
  if s.tags.free q.who && !s.tags.waiters.any (fun w => sameShare w.who q.who) then s.takeTag q
  else { s with tags := { s.tags with waiters := s.tags.waiters ++ [q] } }

/-- Held requests are tried again in their order. -/
def State.serveWaiters (s : State) : State :=
  s.tags.waiters.foldl State.tryTag { s with tags := { s.tags with waiters := [] } }

/-- TAG_RETURN: a response has reached its requester. -/
def State.tagBack (s : State) (who : Requester) : State :=
  if s.tags.flight.contains who then
    ({ s with tags := { s.tags with flight := s.tags.flight.erase who } } : State).showTags.serveWaiters
  else s

/-- A write of FB_DX_PART, FB_VE_PART or FB_CP_PART is held as a pending value (R530). -/
def Fabric.partWrite (f : Fabric) (which : Nat) (v : Word) : Fabric :=
  if which = 0 then { f with pendDx := some (fld 14 0 v) }
  else if which = 1 then { f with pendVe := some (fld 9 0 v) }
  else { f with pendCp := some (fld 10 0 v) }

/-- The four values that a write of FB_SHARED_PART checks. -/
def Fabric.proposed (f : Fabric) (v : Word) : Parts :=
  { dx := f.pendDx.getD f.parts.dx, ve := f.pendVe.getD f.parts.ve, cp := f.pendCp.getD f.parts.cp, shared := fld 14 0 v }

/-- The partition registers show their pending values, or those in force (R530). -/
def State.showParts (s : State) : State :=
  let f := s.tags
  let d := (s.dev.setReg Pg.fb Reg.FB_DX_PART (word (f.pendDx.getD f.parts.dx))).setReg Pg.fb Reg.FB_VE_PART (word (f.pendVe.getD f.parts.ve))
  { s with dev := (d.setReg Pg.fb Reg.FB_CP_PART (word (f.pendCp.getD f.parts.cp))).setReg Pg.fb Reg.FB_SHARED_PART (word f.parts.shared) }

/-- A write of a partition register but FB_SHARED_PART. -/
def State.partWrite (s : State) (which : Nat) (v : Word) : State :=
  ({ s with tags := s.tags.partWrite which v } : State).showParts

/-- A write of FB_SHARED_PART: all four values take effect if they sum to 16,384, else the pending ones are discarded and
PARTITION_REFUSED is raised (R530). -/
def State.sharedWrite (s : State) (v : Word) : State :=
  let p := s.tags.proposed v
  let f : Fabric := { s.tags with pendDx := none, pendVe := none, pendCp := none }
  if p.total = maxTags then (({ s with tags := { f with parts := p } } : State).showParts).serveWaiters
  else ({ s with tags := f, dev := s.dev.detect Pg.fb Evt.FB_PARTITION_REFUSED } : State).showParts

/-- FABRIC_REQUEST (R11, R14). -/
def execFabricRequest (who : Requester) (addr : BitVec 48) (write : Bool) (s : State) : Host.Outcome State Fault Refusal :=
  .next (s.tryTag { who := who, addr := addr, write := write })
/-- TAG_RETURN (R11). -/
def execTagReturn (who : Requester) (s : State) : Host.Outcome State Fault Refusal := .next (s.tagBack who)
/-- FB_PART_WRITE (R530). -/
def execFbPartWrite (which : Fin 3) (v : Word) (s : State) : Host.Outcome State Fault Refusal :=
  .next (s.partWrite which.val v)
/-- FB_SHARED_PART_WRITE (R530). -/
def execFbSharedPartWrite (v : Word) (s : State) : Host.Outcome State Fault Refusal := .next (s.sharedWrite v)

end Sys2Proof.Machine
end

