-- ==== Sys2Proof/Machine/Ingress.lean ====
section
/-! DEFINITION. Ingress (Table 14.1): the pipeline of PX from the parsed frame to its queue (chapters 7 and 14), with the
policers, the route lookup and the media path. -/

namespace Sys2Proof.Machine

/-- A frame on its way through the pipeline. -/
structure Ingress where
  f : RxFrame
  body : Nat
  /-- LENGTH (R295) -/
  len : Nat
  vid : Nat
  pcp : Nat
  tc : Nat
  yellow : Bool
deriving DecidableEq, Repr

/-- The frame's source number. -/
def Ingress.src (i : Ingress) : Nat := i.f.source.val

/-- Its headers as a packet carries them. -/
def Ingress.hdr (i : Ingress) : FrameHdr :=
  { tagged := i.f.tagged, vid := i.vid, pcp := i.pcp, dei := i.f.dei, dstMac := none, srcMac := none, ip := i.f.ip.val, ttl := i.f.ttl.val,
    rtp := none }

/-- The packet it becomes. -/
def Ingress.pkt (i : Ingress) (stamp : Nat) : Pkt :=
  { body := i.body, header := none, len := i.len, hdr := i.hdr, yellow := i.yellow, ver := none, nh := 0, assured := none, leg := none,
    link := 0, source := i.src, stamp := stamp, admitted := 0, held := false }

/-- The packet with its receive stamp (R353). -/
def Dev.ingressPkt (d : Dev) (i : Ingress) : Pkt := i.pkt (d.rxStamp i.src i.f.stamp256)

/-- LENGTH of a frame (R295): without an IP header the largest frame the source accepts. -/
def Dev.frameLength (d : Dev) (f : RxFrame) : Nat := if f.ip.val = 4 || f.ip.val = 6 then f.length else d.maxStored f.source.val

/-- A frame dropped at a step and counted there (R306). -/
def Dev.dropAt (d : Dev) (b off : Nat) : Dev := (d.bump Pg.px off 31 0).dropBody b

/-- A frame for the host exception queue of routing. -/
def Dev.toException (d : Dev) (i : Ingress) : Dev := (d.admitPkt (d.rf Pg.px Reg.PX_RT_EXC_QUEUE 15 0) (d.ingressPkt i)).1

/-! ## Policers (R314) -/

/-- The policer of a frame: its VLAN's, else its source class's. -/
def Dev.policerOf (d : Dev) (vid src tc : Nat) : Option Nat :=
  let v := 0x490000 + vid
  let c := 0x4B0000 + src * 16 + 8 + tc
  if d.tb Pg.px v 1 12 then some (d.tf Pg.px v 1 11 0)
  else if d.tb Pg.px c 0 12 then some (d.tf Pg.px c 0 11 0)
  else none

/-- TC_B and TP_B of a policer; one that no frame has met since it was written is full. -/
def Dev.policer (d : Dev) (p : Nat) : Nat × Nat :=
  (SMap.get (fun _ => none) d.px.buckets p).getD (d.tf Pg.px (0x4A0000 + 2 * p) 1 23 0 * 8000, d.tf Pg.px (0x4A0000 + 2 * p) 3 23 0 * 8000)

/-- Replace the buckets of a policer. -/
def Dev.setPolicer (d : Dev) (p : Nat) (x : Option (Nat × Nat)) : Dev :=
  { d with px := { d.px with buckets := SMap.set (fun _ => none) d.px.buckets p x } }

/-- POLICER_REFILL: CIR and PIR millibits more, up to full (R314). -/
def Dev.policerRefill (d : Dev) : Dev :=
  (d.px.buckets.map Prod.fst).foldl (fun d p =>
    let a := 0x4A0000 + 2 * p
    let b := d.policer p
    d.setPolicer p (some (min (b.1 + d.tf Pg.px a 0 26 0) (d.tf Pg.px a 1 23 0 * 8000),
      min (b.2 + d.tf Pg.px a 2 26 0) (d.tf Pg.px a 3 23 0 * 8000)))) d

/-- Colours of R314. -/
inductive Colour where
  | green | yellow | red
deriving DecidableEq, Repr

/-- The colour of a frame of b millibits, and the buckets after it. -/
def colourOf (aware : Bool) (x : Nat × Nat) (b : Int) : Colour × (Nat × Nat) :=
  let tc : Int := x.1
  let tp : Int := x.2
  if aware then (if tp < b then (.red, x) else (.yellow, (x.1, (tp - b).toNat)))
  else if tp < b then (.red, x)
  else if tc < b then (.yellow, (x.1, (tp - b).toNat))
  else (.green, ((tc - b).toNat, (tp - b).toNat))

/-- Police a frame: it is dropped or keeps a colour. -/
def Dev.police (d : Dev) (p src len : Nat) (dei : Bool) : Dev × Bool × Bool :=
  let a := 0x4A0000 + 2 * p + 1
  let b : Int := ((len : Int) + signed 7 (d.tf Pg.px (0x4B0000 + src * 16) 0 22 16)) * 8000
  let r := colourOf (d.tb Pg.px a 0 0 && dei) (d.policer p) b
  let d := d.setPolicer p (some r.2)
  match r.1 with
  | .green => (d.bumpT Pg.px a 1 31 0, false, false)
  | .yellow => (d.bumpT Pg.px a 2 31 0, d.tb Pg.px a 0 1, true)
  | .red => (d.bumpT Pg.px a 3 31 0, true, false)

/-! ## Route lookup (R315, R316) -/

/-- A route slot of the current version. -/
structure Route where
  len : Nat
  nh : Nat
deriving DecidableEq, Repr

/-- The prefix of a slot as a number of 128 bits, IPv4 in the high 32. -/
def Dev.prefixOf (d : Dev) (v slot : Nat) : Nat :=
  (List.range 4).foldl (fun a i => a * 2 ^ 32 + (d.verWord v (0x400000 + 2 * slot) i).toNat) 0

/-- The valid route slots of a version. -/
def Dev.routeSlots (d : Dev) (v : Nat) : List Nat :=
  match d.px.vers.find? (fun x => x.num == v) with
  | none => []
  | some x => x.words.filterMap (fun y =>
      let a := y.1 / 4 % 2 ^ 24
      if y.1 % 4 = 0 && 0x400000 ≤ a && a < 0x480000 && a % 2 = 1 && bit 9 y.2 then some ((a - 0x400000) / 2) else none)

/-- The longest matching prefix for an address of 128 bits, IPv4 in the high 32. -/
def Dev.lookup (d : Dev) (v6 : Bool) (dst : Nat) : Option Route :=
  let v := d.px.cur
  (d.routeSlots v).foldl (fun (best : Option Route) s =>
    let w := d.verWord v (0x400000 + 2 * s + 1) 0
    let len := fld 7 0 w
    let matches_ := bit 8 w == v6 && len ≤ (if v6 then 128 else 32) && dst / 2 ^ (128 - len) == d.prefixOf v s / 2 ^ (128 - len)
    let better := match best with | none => true | some b => decide (b.len < len)
    if matches_ && better then some { len := len, nh := fld 13 0 (d.verWord v (0x400000 + 2 * s + 1) 1) } else best) none

/-- Word i of next hop nh in the current version, second entry where `k` is 1. -/
def Dev.nhWord (d : Dev) (nh k i : Nat) : Word := d.verWord d.px.cur (0x480000 + 2 * nh + k) i

/-- The egress of a next hop is up. -/
def Dev.nhUp (d : Dev) (nh : Nat) : Bool := d.portUp (fld 20 16 (d.nhWord nh 0 0)) (fld 9 0 (d.nhWord nh 1 2))

/-- A next hop or its backup, one level (R316). -/
def Dev.nhChoice (d : Dev) (nh : Nat) : Option Nat :=
  let b := fld 13 0 (d.nhWord nh 0 3)
  if d.nhUp nh then some nh
  else if bit 13 (d.nhWord nh 0 2) && d.nhUp b then some b
  else none

/-! ## Queue choice and admission -/

/-- The descriptor that PX writes for a mapped packet (R90, R318): a wire transmit item of class 13, its frame in the cell
pool. -/
def mappedDesc (seq cell len egress : Nat) : BitVec 512 :=
  BitVec.ofNat 512 (seq % 2 ^ 64 + (7 + 13 * 2 ^ 16) * 2 ^ 64 + 0xFF00 * 2 ^ 96 + ceilDiv len 1024 * 1024 * 2 ^ 128 +
    cell * 256 * 2 ^ 192 + len * 2 ^ 320 + egress * 2 ^ 352)

/-- A routed packet into its queue; counters, and a down port discards it at the head (R316). -/
def Dev.queueRouted (d : Dev) (q egress : Nat) (p : Pkt) : Dev × Bool :=
  let r := (d.bump Pg.px Reg.PX_FWD_PKTS 31 0).admitPkt q p
  (if d.qConsumer q = 0 then r.1.dropDown egress p.link else r.1, r.2)

/-- A packet of a class mapped to an assured ring: the ring accepts it at once under R87, or it is an ordinary drop
(R318). -/
def Dev.mapAssured (d : Dev) (ring q egress tc : Nat) (p : Pkt) : Dev :=
  let r := d.ring ring
  let seq := r.acceptSeq + 1
  let cell := match d.body? p.body with | some b => b.cells.head?.getD 0 | none => 0
  let x := mappedDesc (unsigned 64 seq) cell p.len egress
  let free := r.enabled && r.head == .none && decide (r.sqTail ≤ r.acceptSeq) && d.holdReason ring x == 0
  match if free then d.admission (d.islandOf x) 13 (unitsOf x .primary) none else none with
  | none => d.dropAt p.body Reg.PX_ASSURED_DROPS
  | some (_, e) =>
    match d.queueRouted q egress { p with assured := some (ring, seq.toNat) } with
    | (d, false) => d
    | (d, true) =>
      let d := (d.reserve e).bumpT Pg.px (0x4C0000 + egress * 8 + tc) 1 31 0
      d.modRing ring (fun r => { r with head := .entryWrite x .primary e, hold := 0 })

/-- FORWARD (R315, R316, R318). -/
def Dev.forwardHop (d : Dev) (i : Ingress) (nh : Nat) : Dev :=
  if i.f.ttl.val ≤ 1 then
    let d := d.bump Pg.px Reg.PX_TTL_EXC 31 0
    if d.rb Pg.px Reg.PX_CFG 2 then d.toException i else d.dropBody i.body
  else match d.nhChoice nh with
    | none => (d.dropAt i.body Reg.PX_NH_DOWN).detect Pg.px Evt.PX_NH_DOWN
    | some n =>
      let e := fld 20 16 (d.nhWord n 0 0)
      let p := d.ingressPkt i
      let p := { p with hdr := { p.hdr with ttl := i.f.ttl.val - 1 }, ver := some d.px.cur, nh := n, link := fld 9 0 (d.nhWord n 1 2) }
      let q := fld 15 0 (d.nhWord n 0 1) + i.tc
      let m := 0x4C0000 + e * 8 + i.tc
      if d.tb Pg.px m 0 8 then d.mapAssured (d.tf Pg.px m 0 7 0) q e i.tc p else (d.queueRouted q e p).1

/-- The outcome a route names (R315). -/
def Dev.takeRoute (d : Dev) (i : Ingress) (nh : Nat) : Dev :=
  let a := fld 1 0 (d.nhWord nh 0 0)
  if a = 0 then d.forwardHop i nh
  else if a = 1 then d.toException i
  else if a = 2 then d.dropAt i.body Reg.PX_NO_ROUTE
  else (d.queueRouted (fld 15 0 (d.nhWord nh 0 1) + i.tc) 0 { d.ingressPkt i with ver := some d.px.cur, nh := nh }).1

/-- Step 6: the route lookup. A frame that is not IP matches no route; with ROUTE_EN = 0 no lookup matches (assumption log
53). -/
def Dev.routeFrame (d : Dev) (i : Ingress) : Dev :=
  let v6 := i.f.ip.val == 6
  if v6 && !d.rb Pg.px Reg.PX_CFG 1 then d.toException i
  else if !(v6 || i.f.ip.val == 4) || !d.rb Pg.px Reg.PX_CFG 0 then d.dropAt i.body Reg.PX_NO_ROUTE
  else
    let dst := if v6 then i.f.dst.toNat else i.f.dst.toNat % 2 ^ 32 * 2 ^ 96
    match d.lookup v6 dst with
    | none => d.dropAt i.body Reg.PX_NO_ROUTE
    | some r => d.takeRoute i r.nh

/-! ## Media (R156, R157, R175, R196) -/

/-- The encoding of the leg's published source that an SSRC names (R156). -/
def Dev.encodingOf (d : Dev) (l : Nat) (ssrc : Word) : Option Nat :=
  if !d.legPublish l then none
  else ((List.range 4).map (fun s => d.legSource l * 4 + s)).find? (fun x => d.pxValid x && !d.pxLocal x && d.pxSsrc x == ssrc)

/-- The SRTP index of a received packet: ROC × 2^16 + SEQ, the rollover count guessed from the highest index seen
(RFC 3711). -/
def guessIndex (high : Option Nat) (seq : Nat) : Nat :=
  match high with
  | none => seq
  | some h =>
    let roc := h / 65536
    let last := h % 65536
    if last < 32768 then (if 32768 < seq - last && 0 < roc then (roc - 1) * 65536 + seq else roc * 65536 + seq)
    else if seq < last - 32768 then (roc + 1) * 65536 + seq
    else roc * 65536 + seq

/-- The inline request that a media packet makes under its leg's KEY_IN slot. -/
def Dev.mediaReq (d : Dev) (l : Nat) (f : RxFrame) : InlineReq :=
  let rec_ := (d.slot (d.keyIn l)).recOf f.ssrc
  { leg := Fin.ofNat 8192 l, encrypt := false, rtcp := f.rtcp, ssrc := f.ssrc,
    index := if f.rtcp then f.srtcpIndex else guessIndex rec_.dec.high f.seq.toNat, authOk := f.srtpOk, bytes := f.payload.length, cmp := f.cmp }

/-- Interarrival jitter of RFC 3550 in 1/16 ns (R175). -/
def LegX.jitterStep (x : LegX) (now : Int) (clock ts : Nat) : LegX :=
  let transit := now - ((ts * 1000000000 / max clock 1 : Nat) : Int)
  { x with jitter := (x.jitter : Int) + (transit - x.transit).natAbs - ((x.jitter + 8) / 16 : Nat) |>.toNat, transit := transit }

/-- A new anchor is due: the first packet, a new SSRC, or a timestamp jump of more than 1 s (R175). -/
def LegX.anchorDue (x : LegX) (f : RxFrame) : Bool :=
  match x.anchor with
  | none => true
  | some (_, _, s) => s != f.ssrc || decide (f.clock < (signed 32 (f.timestamp.toNat + 2 ^ 32 - x.lastTs % 2 ^ 32)).natAbs)

/-- D of a leg in ns (R175). -/
def Dev.jitterDepth (d : Dev) (l : Nat) : Nat :=
  let a := legAddr l 2
  let jmin := d.tf Pg.px a 0 6 0
  (if d.tb Pg.px a 0 16 then max jmin (d.tf Pg.px a 1 6 0) else jmin) * 2500000

/-- An audio packet enters its leg's jitter store, or is late or early (R175). -/
def Dev.storeAudio (d : Dev) (l : Nat) (f : RxFrame) : Dev :=
  let now := d.timeNs
  let x := d.legX l
  let x := if x.anchorDue f then { x with anchor := some (now, f.timestamp.toNat, f.ssrc), jitter := 0,
                                          transit := now - ((f.timestamp.toNat * 1000000000 / max f.clock 1 : Nat) : Int) }
           else x.jitterStep now f.clock f.timestamp.toNat
  let x := { x with lastTs := f.timestamp.toNat }
  let due : Int := match x.anchor with
    | some (a, t0, _) => a + signed 32 (f.timestamp.toNat + 2 ^ 32 - t0 % 2 ^ 32) * 1000000000 / (max f.clock 1 : Nat) + (d.jitterDepth l : Nat)
    | none => now
  let d := d.setLegX l x
  if due ≤ (d.amLeg l).lastTick then d.bumpT Pg.px (legAddr l 2) 2 31 0
  else if now + (d.tf Pg.px (legAddr l 2) 0 14 8 * 2500000 + 100000000 : Nat) < due then d.bumpT Pg.px (legAddr l 2) 3 31 0
  else
    let before := x.store.filter (fun e => e.1 < due)
    let after := x.store.filter (fun e => due < e.1)
    let levels := x.levels.filter (fun e => e.1 != due) ++ (match f.level with | some v => [(due, v)] | none => [])
    d.setLegX l { x with store := before ++ (due, f.payload) :: after, levels := levels }

/-- The decode job of an assembled access unit (R176, R196). -/
def Dev.queueAu (d : Dev) (l : Nat) (u : AuState) : Dev :=
  let h := d.legCtx l
  let j : VJob := { id := 0, item := none, ctx := 0, encode := false, skip := false, lowEffort := false, ceil := none, gap := u.gap,
                    src := 0, len := u.bytes, pitch := 0, dst := 0, dstPitch := 0, dstSize := 0, asid := 0, stamp := u.ts,
                    forceIrap := false, forceRefresh := false, noEmit := false }
  if !d.ctxValid h || d.ctxEncode h then d
  else
    let units := d.ctxW h * d.ctxH h * 1024 / 1000000
    match d.admitJob { cls := videoClass false (d.ctxHevc h), units := units, fb := none, page := vePage h, what := .decode h j } with
    | (d, some (_, e)) => d.queueVideo h { j with uj := e }
    | (d, none) => d

/-- One packet of a decoded leg's encoding joins its access unit (R196). -/
def Dev.assembleAu (d : Dev) (l : Nat) (f : RxFrame) : Dev :=
  let x := d.legX l
  let seq := f.seq.toNat
  let start : AuState := { ts := f.timestamp.toNat, bytes := 0, gap := false, nonref := false, nextSeq := seq }
  let old := match x.au with
    | some u => if u.ts = f.timestamp.toNat then none else some u
    | none => none
  let u := match x.au with
    | some u => if u.ts = f.timestamp.toNat then u else start
    | none => start
  let size := u.bytes + (if f.badPacket then 0 else f.payload.length)
  let u := { u with bytes := min size (2 ^ 20), gap := u.gap || f.badPacket || seq != u.nextSeq || decide (2 ^ 20 < size),
                    nonref := u.nonref || f.nonref, nextSeq := (seq + 1) % 65536 }
  let d := match old with
    | some o => d.queueAu l o
    | none => d
  if f.marker then (d.setLegX l { d.legX l with au := none }).queueAu l u else d.setLegX l { d.legX l with au := some u }

/-- The encoding that a leg's decode context takes (Table 8.8). -/
def Dev.decodedEncoding (d : Dev) (l : Nat) : Nat :=
  let h := d.legCtx l
  d.legSource l * 4 + d.tf (vePage h) (ctxAddr h 3) 0 17 16

/-- A receiver's key request, passed to the publisher or to the local encode context (R172, R218). -/
def Dev.askKey (d : Dev) (s : Nat) : Dev :=
  if !d.srcLocal s then d.keyReq s none
  else (List.range 4).foldl (fun d i => match d.feederOf (s * 4 + i) with
    | some h => if d.pxValid (s * 4 + i) then d.keyRequestAt h else d
    | none => d) d

/-- The decrypted payload takes the place of the frame's bytes in its cells. -/
def Dev.setPayload (d : Dev) (b : Nat) (bs : List Byte) : Dev :=
  d.modBody b (fun x => { x with data := bs, done := true })

/-- A verified RTP packet of a leg goes where its SSRC says (R156 steps 3 and 4). -/
def Dev.mediaRtp (d : Dev) (i : Ingress) (l : Nat) : Dev :=
  let f := i.f
  if f.audio && d.legMix l then (d.storeAudio l f).dropBody i.body
  else match d.encodingOf l f.ssrc with
    | some x =>
      let d := if d.legDecode l && d.decodedEncoding l = x then d.assembleAu l f else d
      let rtp : Rtp := { ssrc := f.ssrc, pt := 0, seq := f.seq.toNat, ts := f.timestamp.toNat }
      (d.setPayload i.body f.payload).forward i.body i.src x rtp i.len f.tid.val f.ptype.val false (d.rxStamp i.src f.stamp256)
    | none =>
      ((d.bump Pg.px Reg.PX_CLASSIFY_MISS 31 0).admitPkt (d.rf Pg.px Reg.PX_EXC_QUEUE 15 0) (d.ingressPkt i)).1

/-- A datagram of a known leg (R156). -/
def Dev.media (d : Dev) (i : Ingress) (l : Nat) : Dev :=
  let f := i.f
  match d.inline (d.keyIn l) (d.mediaReq l f) with
  | (d, false) => ((d.bump Pg.px Reg.PX_SRTP_FAIL 31 0).detect Pg.px Evt.PX_SRTP_AUTH_FAIL).dropBody i.body
  | (d, true) =>
    if f.rtcp then
      let d := match f.wantsKey with
        | some s => if d.fwRuns then d.askKey s.val else d
        | none => d
      d.dropBody i.body
    else d.mediaRtp i l

/-! ## The pipeline (R306) -/

/-- Steps 5 to 8. -/
def Dev.classify (d : Dev) (i : Ingress) : Dev :=
  let f := i.f
  let own := f.dmac.val == 0
  if !own then
    -- broadcast and multicast; PTP frames of the source that TU follows are firmware's (R309, R349)
    if f.ptp && d.rf Pg.tu Reg.TU_REF_SEL 5 4 = 1 && d.fwRuns then d.dropBody i.body else d.toException i
  else if d.rb Pg.px Reg.PX_MGMT_VLAN 12 && d.rf Pg.px Reg.PX_MGMT_VLAN 11 0 = i.vid then d.toException i
  else match f.leg with
    | some l => if d.legEn l.val then d.media i l.val else d.routeFrame i
    | none => d.routeFrame i

/-- Steps 3 and 4: traffic class and policer. -/
def Dev.policed (d : Dev) (i : Ingress) : Dev :=
  let ip := i.f.ip.val == 4 || i.f.ip.val == 6
  let tc := if ip && d.tb Pg.px (0x4B0000 + i.src * 16) 0 15 then d.tf Pg.px (0x4D0000 + i.f.dscp.val) 0 2 0 else i.pcp
  match d.policerOf i.vid i.src tc with
  | none => d.classify { i with tc := tc }
  | some p =>
    match d.police p i.src i.len i.f.dei with
    | (d, true, _) => d.dropAt i.body Reg.PX_POLICE_RED
    | (d, false, y) => d.classify { i with tc := tc, yellow := y }

/-- Step 2: the VLAN filter (R312). -/
def Dev.vlanFilter (d : Dev) (i : Ingress) : Dev :=
  let a := 0x4B0000 + i.src * 16
  let inVid := i.f.vid.val
  let own := i.f.tagged && inVid != 0
  let vid := if own then inVid else d.tf Pg.px a 0 11 0
  let pcp := if i.f.tagged then i.f.pcp.val else d.tf Pg.px a 0 14 12
  let mgmt := d.rb Pg.px Reg.PX_MGMT_VLAN 12 && d.rf Pg.px Reg.PX_MGMT_VLAN 11 0 = vid
  if own && !bit i.src (d.tw Pg.px (0x490000 + vid) 0) then d.dropAt i.body Reg.PX_VLAN_DROPS
  else if !mgmt && !d.tb Pg.px (0x490000 + vid) 2 0 then d.dropAt i.body Reg.PX_VLAN_DROPS
  else d.policed { i with vid := vid, pcp := pcp }

/-- Step 1: a frame that does not parse, or that the port does not take (R306, R309). -/
def Dev.parsed (d : Dev) (i : Ingress) : Dev :=
  if i.f.dmac.val = 3 then
    let d := if i.src < 16 then d.bump (epPage i.src) Reg.EP_RX_OVERRUN 31 16 1 (i.src % 4) else d
    d.dropBody i.body
  else if i.f.parseError || i.f.dmac.val = 2 then d.dropAt i.body Reg.PX_PARSE_ERR
  else d.vlanFilter i

/-- The body of the frame that PX classifies: the one its source is writing, or the whole frame as it arrives now. -/
def Dev.arrived (d : Dev) (f : RxFrame) : Dev × Nat :=
  match d.rxBody f.source.val with
  | some b => (d, b)
  | none =>
    let (d, b) := d.startBody f.source.val
    let d := d.storeCells f.source.val b f.payload
    let d := if f.badFcs then d.countFcs f.source.val else d
    let done := match d.body? b with | some x => x.done | none => true
    (if done then d else d.endBody b f.badFcs, b)

/-- PX_INGRESS: one frame through the pipeline (R306). While PX does not serve, frames wait. -/
def Dev.pxIngress (d : Dev) (f : RxFrame) : Dev :=
  if !d.up Pg.px then d
  else
    let src := f.source.val
    let (d, b) := d.arrived f
    match d.body? b with
    | none => (d.setRx src none).nextAir src
    | some x =>
      let d := if x.done || x.dropped then d.setRx src none else d
      let d :=
        if x.classified || x.dropped then d.reap b
        else
          let now := d.nowNs
          let d := { d with px := { d.px with rate := (now, 1) :: d.px.rate.filter (fun e => now < e.1 + 1000000) } }
          let d := d.peak Pg.px Reg.PX_LAT_MAX 15 0 (min f.latency 65535)
          d.parsed { f := f, body := b, len := d.frameLength f, vid := 0, pcp := 0, tc := 0, yellow := false }
      d.nextAir src

/-- PX_HANG: no lookup progress while frames wait: they are dropped and counted (Table 14.5). -/
def Dev.pxHang (d : Dev) : Dev :=
  let stuck := d.qm.rx.filterMap (fun x => x.2.bind (fun b => match d.body? b with
    | some y => if y.classified then none else some (x.1, b)
    | none => none))
  if (stuck.isEmpty && d.px.walks.isEmpty) || !d.up Pg.px then d
  else
    let d := stuck.foldl (fun d x =>
      let done := match d.body? x.2 with | some y => y.done | none => true
      let d := (d.ingressOverrun x.1).dropBody x.2
      if done then d.setRx x.1 none else d) d
    d.detect Pg.px Evt.PX_HANG

/-- PX_INGRESS (R306). -/
def execPxIngress (f : RxFrame) (s : State) : Host.Outcome State Fault Refusal := s.on (·.pxIngress f)
/-- POLICER_REFILL (R314). -/
def execPolicerRefill (s : State) : Host.Outcome State Fault Refusal := s.on (·.policerRefill)
/-- PX_HANG (R330). -/
def execPxHang (s : State) : Host.Outcome State Fault Refusal := s.on (·.pxHang)

end Sys2Proof.Machine
end

