-- ==== Sys2Proof/Machine/FaultRows.lean ====
section
/-! DEFINITION. The detections of Table 20.2 that arise outside any other command: elastic buffers, hangs, PLLs, PCI Express
errors and its link, control cores and the temperature warning (R17, R18, R475). -/

namespace Sys2Proof.Machine

/-- TX_UNDERRUN: a clocked consumer runs dry after its transfer started (R17, R19). -/
def Dev.txUnderrun (d : Dev) (at_ : TxPoint) : Dev :=
  match at_ with
  | .port n => d.portUnderrun n.val
  | .chain r _ => d.chainUnderrun r.val

/-- A port drops the whole frame at its input and counts it (R18). -/
def Dev.portOverrun (d : Dev) (src : Nat) : Dev :=
  match d.rxBody src with
  | none => d.ingressOverrun src
  | some b => match d.body? b with
    | none => d.ingressOverrun src
    | some x => if x.classified then (d.ingressOverrun src).endBody b true else (d.ingressOverrun src).dropBody b

/-- RX_OVERRUN: a clocked producer finds its buffer full (R18). -/
def Dev.rxOverrun (d : Dev) (at_ : RxPoint) : Dev :=
  match at_ with
  | .port n => d.portOverrun n.val
  | .chain r _ => d.chainOverrun r.val

/-- A hang of a page that does its work: no progress for 10 ms while work is due (R475). -/
def Dev.hang (d : Dev) (p : Page) (src : Nat) : Dev := if d.up p then d.detect p src else d

/-- Show a domain's PLL as having lost lock, and as locked again or not (Table 2.12). -/
def Dev.pllLost (d : Dev) (p : Page) (relocks : Bool) : Dev := d.modHdr p (fun h => { h with unlockSeen := true, pllLock := relocks })

/-- DP_PLL_UNLOCK: the group is held as in a frequency change until the PLL has relocked (R475). -/
def Dev.dpUnlock (d : Dev) (g : Nat) (relocks : Bool) : Dev :=
  let d := (d.pllLost (dpPage g) relocks).modGrp g (fun x => { x with unlocked := !relocks })
  let d := d.detect (dpPage g) Evt.DP_PLL_UNLOCK
  if relocks then d.serveHeld g else d

/-- The PCI Express link reaches L0: pending messages are sent (R48, R513). LTSSM shows a code of the PCI Express
specification, free here (assumption log 3). -/
def Dev.phUp (d : Dev) (speed width : Nat) : Dev :=
  let code := Config.freeNat d.fresh % 64
  let d := d.drawn.setReg Pg.ph Reg.PH_LINK_STAT (word (speed + width * 2 ^ 4 + 2 ^ 8 + code * 2 ^ 16))
  let d := ({ d with sys := { d.sys with l0 := true } }.setContinuous Pg.ph true).sendPending
  d.detect Pg.ph Evt.PH_LINK_UP

/-- The link leaves L0. -/
def Dev.phLeave (d : Dev) : Dev :=
  let code := Config.freeNat d.fresh % 64
  let d := d.drawn.setReg Pg.ph Reg.PH_LINK_STAT (word (code * 2 ^ 16))
  { d with sys := { d.sys with l0 := false } }.setContinuous Pg.ph false

/-- PH_LINK_DOWN: it does not return within 10 ms; HB counts it over the part's life (R44, R475). -/
def Dev.phDown (d : Dev) : Dev :=
  if !d.sys.l0 then d else ((d.phLeave).bumpSat Pg.hb Reg.HB_LINK_DOWN_COUNT 15 0).detect Pg.ph Evt.PH_LINK_DOWN

/-- PH_PLL_UNLOCK: the link retrains through Recovery, or stays down while the PLL does not relock (R475). -/
def Dev.phUnlock (d : Dev) (relocks : Bool) : Dev :=
  let d := (d.pllLost Pg.ph relocks).bump Pg.ph Reg.PH_RECOVERY_CNT 15 0
  let d := if relocks then d else d.phLeave
  d.detect Pg.ph Evt.PH_PLL_UNLOCK

/-- PCIE_ERROR (R475). -/
def Dev.pcieErr (d : Dev) (e : PcieErr) : Dev :=
  match e with
  | .correctable => (d.bumpSat Pg.ph Reg.PH_ERR_CNT 15 0).detect Pg.ph Evt.PH_AER_CORR
  | .uncorrectable => (d.bumpSat Pg.ph Reg.PH_ERR_CNT 31 16).detect Pg.ph Evt.PH_AER_UNCORR

/-- CORE_FAULT: the core's task restarts from its last checkpoint; escalation retires the core (R475). A core out of
service compares nothing. -/
def Dev.coreBad (d : Dev) (core : Nat) : Dev :=
  if d.unitOut Pg.cc core then d
  else { d with sys := { d.sys with coreTasks := d.sys.coreTasks + 1 } }.detectUnit Pg.cc Evt.CC_CORE_FAULT core

/-- TEMP_WARN: the hottest sensor reaches CC_TEMP_WARN (R475). -/
def Dev.tempWarning (d : Dev) (hot : Int) (sensor : Nat) : Dev :=
  let d := d.setTemps hot (min d.en.cold hot) sensor
  if signed 8 (d.rf Pg.cc Reg.CC_TEMP_WARN 7 0) ≤ hot then d.detect Pg.cc Evt.CC_TEMP_WARN else d

/-- TX_UNDERRUN (R17). -/
def execTxUnderrun (at_ : TxPoint) (s : State) : Host.Outcome State Fault Refusal := s.on (·.txUnderrun at_)
/-- RX_OVERRUN (R18). -/
def execRxOverrun (at_ : RxPoint) (s : State) : Host.Outcome State Fault Refusal := s.on (·.rxOverrun at_)
/-- HB_HANG (R475). -/
def execHbHang (s : State) : Host.Outcome State Fault Refusal := s.on (·.hang Pg.hb Evt.HB_HANG)
/-- FB_HANG (R475). -/
def execFbHang (s : State) : Host.Outcome State Fault Refusal := s.on (·.hang Pg.fb Evt.FB_HANG)
/-- DX_HANG (R475). -/
def execDxHang (s : State) : Host.Outcome State Fault Refusal := s.on (·.hang Pg.dx Evt.DX_HANG)
/-- DP_PLL_UNLOCK (R475). -/
def execDpPllUnlock (g : Group) (relocks : Bool) (s : State) : Host.Outcome State Fault Refusal := s.on (·.dpUnlock g.val relocks)
/-- PH_PLL_UNLOCK (R475). -/
def execPhPllUnlock (relocks : Bool) (s : State) : Host.Outcome State Fault Refusal := s.on (·.phUnlock relocks)
/-- PCIE_ERROR (R475). -/
def execPcieError (e : PcieErr) (s : State) : Host.Outcome State Fault Refusal := s.on (·.pcieErr e)
/-- PH_LINK_DOWN (R475). -/
def execPhLinkDown (s : State) : Host.Outcome State Fault Refusal := s.on (·.phDown)
/-- PH_LINK_UP (R475). -/
def execPhLinkUp (speed : Fin 8) (width : Fin 16) (s : State) : Host.Outcome State Fault Refusal := s.on (·.phUp speed.val width.val)
/-- CORE_FAULT (R475). -/
def execCoreFault (core : Fin 8) (s : State) : Host.Outcome State Fault Refusal := s.on (·.coreBad core.val)
/-- TEMP_WARN (R475). -/
def execTempWarn (hot : Int) (sensor : Fin 24) (s : State) : Host.Outcome State Fault Refusal := s.on (·.tempWarning hot sensor.val)

end Sys2Proof.Machine
end

