-- ==== Sys2Proof/Machine/Manifest.lean ====
section
/-! DEFINITION. Firmware images: the manifest, the checks of R456 and where an image's parts lie (R455, Table 19.2). -/

namespace Sys2Proof.Machine

/-- The bytes of an ASCII string without a terminator. -/
def ascii (s : String) : List Byte := s.toList.map (fun c => BitVec.ofNat 8 c.toNat)

/-- Bytes of an image, read one by one from its first byte. -/
def imgBytes (rd : Nat → Byte) (off n : Nat) : List Byte := (List.range n).map (fun i => rd (off + i))
/-- A little-endian field of an image. -/
def imgNum (rd : Nat → Byte) (off n : Nat) : Nat := numLE (imgBytes rd off n)

/-- A component as the manifest lists it. -/
structure Component where
  kind : Nat
  off : Nat
  len : Nat
  addr : Nat
  sha : List Byte

/-- Length of a manifest: Table 19.2 ends at byte 8,010. -/
abbrev manifestLen : Nat := 8011
/-- Bytes of an image bank (R455). -/
abbrev bankBytes : Nat := 0x2000000

/-- Where component `j`'s entry begins. -/
def entryAt (j : Nat) : Nat := 24 + 96 * j

/-- Component `j`. -/
def componentOf (rd : Nat → Byte) (j : Nat) : Component :=
  let e := entryAt j
  { kind := imgNum rd e 4, off := imgNum rd (e + 4) 4, len := imgNum rd (e + 8) 4, addr := imgNum rd (e + 12) 8, sha := imgBytes rd (e + 32) 64 }

/-- The components in use. -/
def componentsOf (rd : Nat → Byte) : List Component := (List.range (min 8 (imgNum rd 6 2))).map (componentOf rd)

/-- A component's bytes within the image. -/
def Component.bytes (c : Component) (rd : Nat → Byte) : List Byte := imgBytes rd c.off c.len

/-- The component of a type. -/
def componentKind (rd : Nat → Byte) (k : Nat) : Option Component := (componentsOf rd).find? (fun c => c.kind == k)

/-- Bytes that are zero. -/
def imgZero (rd : Nat → Byte) (off n : Nat) : Bool := (imgBytes rd off n).all (fun b => b == 0)

/-- Check 1 of R456: MAGIC, VERSION, COMPONENTS, types and reserved fields. -/
def manifestFormat (rd : Nat → Byte) : Bool :=
  let n := imgNum rd 6 2
  let kinds := (componentsOf rd).map (·.kind)
  imgNum rd 0 4 == 0x4D414E46 && imgNum rd 4 2 == 1 && decide (2 ≤ n) && decide (n ≤ 8) &&
    kinds.all (fun k => decide (1 ≤ k) && decide (k ≤ 5) && kinds.count k == 1) && hasNat kinds 1 && hasNat kinds 2 &&
    imgZero rd 18 6 && (List.range 8).all (fun j => if j < n then imgZero rd (entryAt j + 20) 12 else imgZero rd (entryAt j) 96)

/-- Checks 1 to 6 of R456 in their order: the cause of the first that fails, 0 where all pass. -/
def Dev.checkImage (d : Dev) (rd : Nat → Byte) : Nat :=
  let key := imgNum rd 16 1
  let pk := imgBytes rd 792 2592
  if !manifestFormat rd then 1
  else if 3 < key || !Config.fuseMatches key (Config.sha3_512 pk) then 2
  else if d.rb Pg.sk Reg.SK_LIFECYCLE (4 + key) then 3
  else if !Config.mldsaVerify pk (imgBytes rd 0 3384) (ascii "KM-SC9640-FW") (imgBytes rd 3384 4627) then 4
  else if imgNum rd 12 2 < d.rf Pg.sk Reg.SK_ROLLBACK_FLOOR 15 0 then 5
  else if (componentsOf rd).all (fun c => Config.sha3_512 (c.bytes rd) == c.sha) then 0
  else 6

/-- A byte of a flash bank: bank A from 0, bank B from 0x0200_0000. -/
def Dev.flashAt (d : Dev) (bank off : Nat) : Byte := SMap.get (fun _ => 0) d.ram.flash (bank * bankBytes + off)

/-- The checks of R456 on a bank; a flash that answers no read fails check 7. -/
def Dev.checkBank (d : Dev) (bank : Nat) : Nat := if d.sys.flashOk then d.checkImage (d.flashAt bank) else 7

/-- Bytes that an image takes: its manifest, and up to the end of its furthest component. -/
def imageLen (rd : Nat → Byte) : Nat := (componentsOf rd).foldl (fun n c => max n (c.off + c.len)) manifestLen

/-- SHA3-512 of an image's manifest. -/
def manifestHash (rd : Nat → Byte) : List Byte := Config.sha3_512 (imgBytes rd 0 manifestLen)

/-- Store bytes at a flash offset. -/
def Dev.putFlash (d : Dev) : Nat → List Byte → Dev
  | _, [] => d
  | o, b :: bs => ({ d with ram := { d.ram with flash := SMap.set (fun _ => 0) d.ram.flash o b } }).putFlash (o + 1) bs

/-- A component's copy at LOAD_ADDR hashes to its entry (R458). -/
def Dev.residentOk (d : Dev) (c : Component) : Bool :=
  Config.sha3_512 ((List.range c.len).map (fun i => (d.physByte (c.addr + i)).getD 0)) == c.sha

/-- Copy a component from its bank to LOAD_ADDR. -/
def Dev.loadComponent (d : Dev) (bank : Nat) (c : Component) : Dev := d.putBytes c.addr (c.bytes (d.flashAt bank))

end Sys2Proof.Machine
end

