-- ==== Sys2Proof/Machine/Boot.lean ====
section
/-! DEFINITION. The cold boot: what SK checks, the stages in which units leave OFF, and what each unit does as it starts
(R452 to R457, R492, R493, R500). -/

namespace Sys2Proof.Machine

/-! ## SK at a boot -/

/-- A measurement register. -/
def Dev.mr (d : Dev) (i : Nat) : List Byte := SMap.get (fun _ => List.replicate 64 0) d.sk.mr i

/-- An extension: MRi := SHA3-512(MRi ∥ value). -/
def Dev.extendMr (d : Dev) (i : Nat) (v : List Byte) : Dev :=
  { d with sk := { d.sk with mr := SMap.set (fun _ => List.replicate 64 0) d.sk.mr i (Config.sha3_512 (d.mr i ++ v)) } }

/-- A bank's image becomes the running one and MR1 is extended with its manifest's hash (R456). -/
def Dev.takeImage (d : Dev) (bank : Nat) (trial : Bool) : Dev :=
  let rd := d.flashAt bank
  let sk := { d.sk with
    bank := bank, trial := trial, svn := imgNum rd 12 2, minSvn := imgNum rd 14 2, vendorKey := imgNum rd 16 1,
    revokeBits := imgNum rd 17 1 % 16, manifest := manifestHash rd,
    plans := (componentKind rd 5).map (fun c => Config.planVersion (c.bytes rd) % 65536),
    kernelsAt := (componentKind rd 3).map (·.addr) }
  let d := { d with sk := sk, sys := { d.sys with bootOk := true, verifyPending := false } }
  (d.setReg Pg.sk Reg.SK_FW_VERSION (word (imgNum rd 8 4))).extendMr 1 (manifestHash rd)

/-- Check a bank and latch its cause; the image runs where every check passes. -/
def Dev.tryBank (d : Dev) (bank : Nat) (trial : Bool) : Dev × Bool :=
  let c := d.checkBank bank
  let d := d.setRf Pg.sk Reg.SK_BOOT_STAT (4 * bank + 3) (4 * bank) c
  if c = 0 then (d.takeImage bank trial, true) else (d, false)

/-- No bank passes: BOOT_FAIL, and SK waits in RECOVERY (R457). -/
def Dev.recovery (d : Dev) : Dev :=
  let d := { d with sys := { d.sys with bootOk := false, verifyPending := false } }
  (d.setPersists Pg.sk Evt.SK_BOOT_FAIL true).detect Pg.sk Evt.SK_BOOT_FAIL

/-- The other bank is checked after the chosen one failed. -/
def Dev.fallBack (d : Dev) (bank : Nat) (may : Bool) : Dev :=
  let d := d.detect Pg.sk Evt.SK_BANK_FALLBACK
  if !may then d.recovery
  else
    let x := d.tryBank (1 - bank) false
    if x.2 then x.1.setRb Pg.sk Reg.SK_BOOT_STAT 8 true else x.1.recovery

/-- SK's choice of an image (R456, R457). A trial is tried once: BANK is written back to the old bank first, and the old
bank is the fallback of a trial (R459). -/
def Dev.chooseImage (d : Dev) : Dev :=
  let cfg := d.reg Pg.sk Reg.SK_BOOT_CFG
  let bank := fld 0 0 cfg
  let trial := d.sk.trialNext
  let d := if trial then (d.commitWord (Pg.sk.val * 0x1000 + Reg.SK_BOOT_CFG) (putFld 0 0 (1 - bank) cfg) .equal).1 else d
  let d := { d with sk := { d.sk with trialNext := false } }
  let d := (d.setRf Pg.sk Reg.SK_BOOT_STAT 31 16 (Config.verifyMs d.fresh % 65536)).drawn
  let x := d.tryBank bank trial
  if x.2 then x.1 else x.1.fallBack bank (bit 1 cfg || trial)

/-- SK starts at a cold boot: MR0 takes the ROM version and SK_LIFECYCLE, the hierarchy is formed unless the DUS read path
is off for good, and the banks are checked (R452, R456). -/
def Dev.skStart (d : Dev) : Dev :=
  if !d.sys.verifyPending then d
  else
    let d := d.extendMr 0 (Config.romVersion ++ bytesLE 4 (d.reg Pg.sk Reg.SK_LIFECYCLE).toNat)
    ({ d with sk := { d.sk with keys := !d.sk.dusOff } }).chooseImage

/-- The AK endorsement (R453): AK public key, epoch, SHA3-512 of the manifest, and DevID's signature over them. -/
def Dev.endorse (d : Dev) : Dev :=
  if !d.sk.keys then d
  else
    let body := (Config.mldsaPublic 1 d.wk.epoch d.sk.manifest).take 2592 ++ bytesLE 4 d.wk.epoch ++ d.sk.manifest.take 64
    { d with sk := { d.sk with endorsement := body ++ Config.mldsaSign 0 0 [] body (ascii "KM-SC9640-AK") } }

/-! ## Stage 2: memory (R120, R128) -/

/-- Members of a group whose record is set are retired and neither trained nor woken (R120). -/
def Dev.retireRecorded (d : Dev) (g : Nat) : Dev :=
  (List.range 9).foldl (fun d m =>
    if d.rb (mcPage g) Reg.MC_RETIRE_REC m then d.modGrp g (fun x => x.modM m (fun y => { y with state := .retired })) else d) d

/-- A group before its training at a boot: the boot's point, and a training run of every member in service, by stored values
where they are stored for every point and in full elsewhere (R128). -/
def Dev.bootGroup (d : Dev) (g : Nat) : Dev :=
  let d := d.retireRecorded g
  let mask := (List.range 9).foldl (fun k m => if d.rb (mcPage g) Reg.MC_RETIRE_REC m then k else k ||| 2 ^ m) 0
  let stored := d.sys.cold && SMap.get (fun _ => 0) d.ps.trainStored g % 8 == 7
  let d := if d.sys.cold then d.modGrp g (fun x => { x with point := d.rf (mcPage g) Reg.MC_FREQ_BOOT 1 0 }) else d
  (d.modGrp g (fun x => { x with train := some (mask, d.sys.cold && !stored) })).setReg (dpPage g) Reg.DP_TRAIN_STAT (word (2 ^ 31))

/-- Training used stored values in every group (TRAIN_STORED). -/
def Dev.allStored (d : Dev) : Bool := (List.range 4).all (fun g => SMap.get (fun _ => 0) d.ps.trainStored g % 8 == 7)

/-- A DP has started: a run that is still due has passed for every member that it names. -/
def Dev.dpStart (d : Dev) (g : Nat) : Dev :=
  match (d.grp g).train with
  | some (mask, _) => d.trainDone g (BitVec.ofNat 9 mask) d.en.hot
  | none => d

/-- An MC has started: members in self-refresh come back and its group serves. -/
def Dev.mcStart (d : Dev) (g : Nat) : Dev :=
  let d := d.modGrp g (fun x => (List.range 9).foldl (fun y m =>
    if (y.m m).state = .selfRefresh then y.modM m (fun z => { z with state := .active }) else y) x)
  d.modGrp g (fun x => { x with unlocked := false })

/-! ## Stage 3: CC (R456) -/

/-- GPIO levels leave: the driven level of every output. -/
def Dev.driveGpio (d : Dev) : Dev :=
  d.emit (.gpio ((d.reg Pg.cc Reg.CC_GPIO_OUT &&& d.reg Pg.cc Reg.CC_GPIO_DIR).toNat % 65536))

/-- CC is released: the image's parts are at LOAD_ADDR, GPIO outputs are driven, the watchdog restarts. -/
def Dev.releaseCc (d : Dev) : Dev :=
  let d := if d.sys.cold then
      ((componentsOf (d.flashAt d.sk.bank)).foldl (fun d c => d.loadComponent d.sk.bank c) d).setReg Pg.cc Reg.CC_GPIO_OUT
        (d.reg Pg.cc Reg.CC_GPIO_DEFAULT)
    else d
  { d with sys := { d.sys with ccReleased := true, inReset := false, fromResetN := false, hostKick := d.nowNs } }.driveGpio

/-! ## Stage 4: the ledger (R95, R96, R153) -/

/-- A ring context as a cold boot restores it: RING_EN = 0, and the checkpointed numbers as PRIOR_ACCEPT and
PRIOR_POSTED. -/
def Dev.priorRing (d : Dev) (n : Nat) : Dev :=
  let k := SMap.get (fun _ => (0, 0)) d.wk.ckSeq n
  (d.setTf Pg.dx (ringEntry n 0) 2 8 8 0).modRing n (fun r => { r with priorAccept := k.1, priorPosted := k.2 })

/-- A cold boot takes a new epoch, commits it in a checkpoint record, and restores contexts and entries. -/
def Dev.dxCold (d : Dev) : Dev :=
  let seqs := d.wk.ckSeq
  let tbl := d.wk.ckTbl
  let cfg := d.wk.ckCfg
  let e := d.ps.epoch + 1
  let d := { d with wk := { d.wk with epoch := e, ckSlot := (d.wk.ckSlot + 1) % 16 }, ps := { d.ps with epoch := e } }
  let d := tbl.foldl (fun (d : Dev) x => { d with pages := { d.pages with tbl := SMap.set tblReset d.pages.tbl x.1 x.2 } }) d
  let d := ([Reg.DX_LEDGER_A_LO, Reg.DX_LEDGER_A_HI, Reg.DX_LEDGER_B_LO, Reg.DX_LEDGER_B_HI, Reg.DX_LEDGER_CFG].zip cfg).foldl
    (fun d x => d.setReg Pg.dx x.1 x.2) d
  ((seqs.map Prod.fst).foldl Dev.priorRing d).endorse

/-! ## Stages 5 and 6 -/

/-- Vendor kernels go into the empty entries 0–8 of a cluster from the running image's component (R281). -/
def Dev.vendorKernels (d : Dev) (c : Nat) : Dev :=
  match d.sk.kernelsAt with
  | none => d
  | some at_ => (List.range 9).foldl (fun d e =>
      let p := dsPage c
      if (d.kernel c e).isSome || d.tw p (e * 2) 0 != 0 || d.tw p (e * 2) 1 != 0 then d
      else
        let a := at_ + Config.kernelOffset d.sk.manifest e
        (((d.setTw p (e * 2) 0 (word a)).setTf p (e * 2) 1 15 0 (a / 2 ^ 32 % 65536)).loadKernel c e)) d

/-- Firmware compares the image's plan version with AC_PLAN_VER and installs its plans where they differ (R500). -/
def Dev.installPlans (d : Dev) : Dev :=
  match d.sk.plans with
  | none => d
  | some v =>
    if d.rf Pg.ac Reg.AC_PLAN_VER 15 0 = v then d
    else (d.setRf Pg.ac Reg.AC_PLAN_VER 15 0 v).commitNow Pg.ac Reg.AC_PLAN_VER

/-- AC starts: a country without a plan raises NO_PLAN (R411). -/
def Dev.acStart (d : Dev) : Dev :=
  if d.rf Pg.ac Reg.AC_COUNTRY 15 0 ≠ 0 && !d.planKnown then d.detect Pg.ac Evt.AC_NO_PLAN else d

/-- CV starts: every chain in service is due for calibration (R373). -/
def Dev.cvStart (d : Dev) : Dev := (List.range 3).foldl (fun d r => d.modRadio r (fun x => { x with calReq := d.chainMask r })) d

/-! ## Stages (R493, Table 21.3) -/

/-- Enter a stage: its pages are enabled by hardware, SK or firmware. -/
def Dev.enterStage (d : Dev) (n : Nat) : Dev :=
  let d := { d with sys := { d.sys with stage := n } }
  let d := match n with
    | 2 => ((List.range 4).foldl Dev.bootGroup d).setRb Pg.cc Reg.CC_BOOT_STAT 8 (d.sys.cold && d.allStored)
    | 3 => d.releaseCc
    | 4 => if d.sys.cold then d.dxCold else d
    | 6 => d.installPlans
    | _ => d
  (stagePages n).foldl Dev.enablePage d

/-- The next stage may be entered. -/
def Dev.mayAdvance (d : Dev) : Bool :=
  d.sys.pwrgood && decide (d.sys.stage < 6) && d.stageDone d.sys.stage &&
    (match d.sys.stage with
      | 1 => !d.sys.refHold
      | 2 => d.sys.bootOk && !(d.sys.inReset && d.sys.resetLow)
      | _ => true)

/-- Enter stages as far as they can be entered. -/
def Dev.advance : Nat → Dev → Dev
  | 0, d => d
  | k + 1, d => if d.mayAdvance then Dev.advance k (d.enterStage (d.sys.stage + 1)) else d

/-- What a unit does as it finishes its initialisation. -/
def Dev.unitStart (d : Dev) (p : Page) : Dev :=
  match kindOf p with
  | .sk => d.skStart
  | .dp => d.dpStart (instOf p)
  | .mc => d.mcStart (instOf p)
  | .ds => d.vendorKernels (instOf p)
  | .ac => d.acStart
  | .cv => d.cvStart
  | _ => d

/-- A starting unit is ready; a clocked domain has its reference and its PLL, and its clock as measured is a free value. -/
def Dev.nowReady (d : Dev) (p : Page) : Dev :=
  let c := (kindOf p).clocked
  let f := Config.freeNat d.fresh % 65536
  (if c then d.drawn else d).modHdr p (fun h => Hdr.settle
    { h with state := .ready, continuous := h.continuous || kindOf p == .tu,
             pllLock := if c then true else h.pllLock, refPresent := if c then true else h.refPresent,
             clkMhz := if c then f else h.clkMhz })

/-- UNIT_INITIALISED (R31): STARTING becomes READY, and the boot goes on where it waited for this unit. A clocked domain fed
from REF_IN does not start without it (R339, R360). -/
def Dev.unitReady (d : Dev) (p : Page) : Dev :=
  let h := d.hdr p
  if h.state ≠ .starting || h.rst || ((kindOf p).clocked && kindOf p != .ph && kindOf p != .tu && !d.tu.refPresent) then d
  else
    let d := (d.unitStart p).nowReady p
    let d := if kindOf p = .mc then d.serveHeld (instOf p) else d
    (Dev.advance 6 d).notePhase

/-- STAGE_TIMEOUT: the unit is handled as FAULTED and the boot waits for it no longer (R493). -/
def Dev.stageExpired (d : Dev) (p : Page) : Dev :=
  if (d.hdr p).state ≠ .starting then d
  else (Dev.advance 6 (d.modHdr p (fun h => { h with state := .faulted }))).notePhase

/-! ## The rise of PWRGOOD (R339, R490, R492, Table 21.4) -/

/-- Persistent words take their registers again. -/
def Dev.reloadPersistent (d : Dev) : Dev :=
  persistWords.foldl (fun d o => match pageOf o with
    | some p => d.setReg p (o % 0x1000) (d.nv o)
    | none => d) d

/-- Units whose record is set sit out from the start (R120, R493), and cores likewise. -/
def Dev.recordedSitOut (d : Dev) : Dev :=
  let d := ((List.range 61).map pg).foldl (fun d p =>
    if (kindOf p).retiresPage && d.unitOut p 0 then d.modHdr p (fun h => { h with state := .sitOut }) else d) d
  (d.setRf Pg.cc Reg.CC_CORE_RETIRE 7 0 d.ps.coreRetired.toNat).setRf Pg.cc Reg.CC_CORE_RETIRE 15 8 (255 - d.ps.coreRetired.toNat)

/-- Nominal increments of Table 15.1: 10, 19.2, 20 and 25 MHz. -/
def nominalInc (i : Fin 4) : Nat :=
  if i = 0 then 100 * 2 ^ 32 else if i = 1 then 52 * 2 ^ 32 + 0x15555555 else if i = 2 then 50 * 2 ^ 32 else 40 * 2 ^ 32

/-- The reference frequency: REF_MHZ 1–4, else what was measured (R339). -/
def Dev.refChoice (d : Dev) (measured : Option (Fin 4)) : Option (Fin 4) :=
  let m := d.rf Pg.tu Reg.TU_REF_SEL 2 0
  if 1 ≤ m && m ≤ 4 then some (Fin.ofNat 4 (m - 1)) else measured

/-- TU at a cold boot: the increment of the frequency in force, or REF_LOST and a boot that holds after stage 1. -/
def Dev.timeStart (d : Dev) (measured : Option (Fin 4)) : Dev :=
  let d := match d.refChoice measured with
    | some i =>
      let n := nominalInc i
      ({ d with tu := { d.tu with inc := n, nominal := n } }.setReg Pg.tu Reg.TU_INC_LO (loHalf n)).setReg Pg.tu Reg.TU_INC_HI (hiHalf n)
    | none =>
      ({ d with tu := { d.tu with refPresent := false }, sys := { d.sys with refHold := true } }.setPersists Pg.tu Evt.TU_REF_LOST
        true).detect Pg.tu Evt.TU_REF_LOST
  d.sourceWritten (d.rf Pg.tu Reg.TU_REF_SEL 5 4)

/-- What a cold boot keeps: the persistent store, the flash, host memory, and what SK holds in it. -/
def Dev.powerUp (d : Dev) (flashOk : Bool) : Dev :=
  { Dev.reset with
    out := d.out, readData := d.readData, fresh := d.fresh, ps := { d.ps with queue := [], lastCommitMs := 0 },
    ram := { dram := [], sys := SMap.keep (fun a => decide (0x10000000000 ≤ a)) d.ram.sys, flash := d.ram.flash },
    en := { Energy.reset with gpio := d.en.gpio, hot := d.en.hot, cold := d.en.cold },
    wk := { Work.reset with ckSeq := d.wk.ckSeq, ckTbl := d.wk.ckTbl, ckCfg := d.wk.ckCfg, ckSlot := d.wk.ckSlot },
    sys := { Sys.reset with resetLow := d.sys.resetLow, flashOk := flashOk },
    sk := { Sk.reset with trialNext := d.sk.trialNext, ownerKey := d.sk.ownerKey, scramble := d.sk.scramble + 1, dusOff := d.sk.dusOff } }

/-- Budgets in force at a boot: their targets at once. -/
def Dev.budgetsInForce (d : Dev) : Dev :=
  let d := { d with en := { d.en with onBatt := d.onBattery } }
  { d with en := { d.en with bShort := d.targetS, bLong := d.targetL, descS := none, descL := none } }

/-- Health of the random source as its first tests show it (Table 19.8, R466). -/
def Dev.rngStart (d : Dev) (ok : Bool) : Dev :=
  let d := { d with sk := { d.sk with rngOk := ok } }.setRb Pg.sk Reg.SK_RNG_STAT 0 ok
  if ok then d else (d.bumpSat Pg.sk Reg.SK_RNG_STAT 15 8).detect Pg.sk Evt.SK_RNG_FAIL

/-- PWRGOOD_RISE: a cold boot begins; a PWRGOOD that is high has no rise. -/
def Dev.coldBoot (d : Dev) (refIn : Option (Fin 4)) (rngOk flashOk : Bool) : Dev :=
  if d.sys.pwrgood then d
  else
    let cause := if d.sys.tripCause then 5 else 0
    let d := (d.powerUp flashOk).reloadPersistent.recordedSitOut
    let d := (d.bumpSat Pg.cc Reg.CC_BOOT_COUNT 31 0).commitNow Pg.cc Reg.CC_BOOT_COUNT
    let d := (d.setRf Pg.cc Reg.CC_RESET_CAUSE 3 0 cause).commitNow Pg.cc Reg.CC_RESET_CAUSE
    let d := d.setRf Pg.cc Reg.CC_GPIO_IN 15 0 d.en.gpio.toNat
    (d.budgetsInForce.timeStart refIn).rngStart rngOk

/-- UNIT_INITIALISED (R31). -/
def execUnitInitialised (p : Page) (s : State) : Host.Outcome State Fault Refusal := s.on (·.unitReady p)
/-- STAGE_TIMEOUT (R493). -/
def execStageTimeout (p : Page) (s : State) : Host.Outcome State Fault Refusal := s.on (·.stageExpired p)
/-- PWRGOOD_RISE (R492): a cold boot; the tags take the partitions of Table 1.3. -/
def execPwrgoodRise (refIn : Option (Fin 4)) (rngOk flashOk : Bool) (s : State) : Host.Outcome State Fault Refusal :=
  .next { s with dev := s.dev.coldBoot refIn rngOk flashOk, tags := if s.dev.sys.pwrgood then s.tags else Fabric.reset }

end Sys2Proof.Machine
end

