-- ==== Sys2Proof/Machine/Restart.lean ====
section
/-! DEFINITION. Warm and watchdog resets, the fall of PWRGOOD and the thermal trip: what each ends and what it keeps
(R490, R491, R494 to R499, R509, Table 21.4). -/

namespace Sys2Proof.Machine

/-! ## What a warm reset keeps (R495, Table 21.4) -/

/-- A register word that a warm reset keeps: SK, PS and TU, persistent words, and the words of kept state. `ph` says whether
the PCI Express link stays. -/
def keepsReg (ph : Bool) (key : Nat) : Bool :=
  let p := pg (key % 2 ^ 26 / 0x1000)
  let off := key % 0x1000
  match kindOf p with
  | .sk | .ps | .tu => true
  | .cc => hasNat [Reg.CC_GPIO_OUT, Reg.CC_GPIO_IN, Reg.CC_TJ_NOW, Reg.CC_CORE_RETIRE] off || (wordIndex (key % 2 ^ 26)).isSome
  | .dx => (Reg.DX_LEDGER_A_LO ≤ off && off ≤ Reg.DX_LEDGER_STAT) || (wordIndex (key % 2 ^ 26)).isSome
  | .ep => off == Reg.EP_LINK_STAT || (wordIndex (key % 2 ^ 26)).isSome
  | .mg => off == Reg.MG_STAT || (wordIndex (key % 2 ^ 26)).isSome
  | .ph => (off == Reg.PH_LINK_STAT && ph) || (wordIndex (key % 2 ^ 26)).isSome
  | _ => (wordIndex (key % 2 ^ 26)).isSome

/-- A table word that a warm reset keeps: ring contexts, channel and ASID entries, time, cost and attributes, kernel entries,
trained values and stream contexts (assumption log 90). -/
def keepsTbl (key : Nat) : Bool :=
  match kindOf (pg (key / 4 / 2 ^ 24)) with
  | .tu | .sk | .ps | .dx | .ve | .ds | .dp => true
  | .cc => decide (key / 4 % 2 ^ 24 < 0x300)
  | _ => false

/-- Pages after a warm reset. A record that PS has queued keeps its access; accesses that waited are gone with their
buses. -/
def Pages.warm (x : Pages) (ph : Bool) : Pages :=
  { regs := SMap.keep (keepsReg ph) x.regs, shadow := [], tbl := SMap.keep keepsTbl x.tbl, tblSh := [],
    latch := SMap.keep (fun k => let q := kindOf (pg (k % 2 ^ 26 / 0x1000)); q == .sk || q == .ps || q == .tu) x.latch,
    hdrs := SMap.keep (fun p => p == Pg.sk.val || p == Pg.ps.val || p == Pg.tu.val) x.hdrs, waiting := [] }

/-- A group after a warm reset: members rest in self-refresh; a rebuild and a change are abandoned, what waited is gone. -/
def Grp.warm (x : Grp) : Grp :=
  let y := match x.rebuild with
    | some (m, _) => x.modM m (fun z => { z with state := .retired })
    | none => x
  let y := (List.range 9).foldl (fun y m => if (y.m m).state = .active then y.modM m (fun z => { z with state := .selfRefresh }) else y) y
  { y with rebuild := none, change := none, waiting := none, merges := [], train := none, held := [], unlocked := false }

/-- A ring after a warm reset: its context and its numbers stay; what it had fetched is fetched again. -/
def Ring.warm (r : Ring) : Ring :=
  { r with head := .none, hold := 0, heldSeq := none, admHeldSeq := none, posting := false, sinceIrq := 0, delayArmed := false }

/-- The work ledger after a warm reset: entries, headers and contexts stay; encore builds the items anew. -/
def Work.warm (w : Work) : Work :=
  { w with items := [], rings := (w.rings.map Prod.fst).foldl (fun m n =>
      SMap.set (fun _ => Ring.reset) m n (SMap.get (fun _ => Ring.reset) w.rings n).warm) [] }

/-- Meters, windows and temperatures stay; reservations are made again by encore, pace rules start anew. -/
def Energy.warm (e : Energy) : Energy :=
  { e with reserved := 0, shortRun := [], heldSince := [], lastRelease := [], liftedSince := [], breach := [] }

/-- A cluster keeps its kernels. -/
def DsUnit.warm (u : DsUnit) : DsUnit := { u with queue := [], lanes := [], parked := [] }

/-- A stream context keeps its current generation. -/
def VCtx.warm (x : VCtx) : VCtx := { x with pend := [], emits := [] }

/-- What leaves the block ends: frames under way end with an invalid FCS, radios release their chains (R498, R17). -/
def Dev.endSending (d : Dev) : Dev :=
  let d := (List.range 17).foldl (fun d p => d.portUnderrun p) d
  (List.range 3).foldl (fun d r => d.silence r) d

/-- The block in a warm reset. -/
def Dev.warmed (d : Dev) (resetN : Bool) : Dev :=
  let d := (((List.range 16).foldl (fun d e => d.veReset e) d.endSending).keepQueued.qmReset).tmReset
  { Dev.reset with
    out := d.out, readData := d.readData, fresh := d.fresh, pages := d.pages.warm !resetN, ps := d.ps, tu := d.tu,
    en := d.en.warm, wk := d.wk.warm, ram := d.ram, sk := d.sk,
    dx := { Dx.reset with ats := d.dx.ats && !resetN, pri := d.dx.pri && !resetN },
    grps := d.grps.map (fun g => (g.1, g.2.warm)),
    vctx := d.vctx.map (fun x => (x.1, x.2.warm)),
    keys := { d.keys with pend := [] },
    qm := d.qm, tm := { Tm.reset with kept := d.tm.kept },
    dss := d.dss.map (fun u => (u.1, u.2.warm)),
    sys := { Sys.reset with
      resetLow := d.sys.resetLow, inReset := true, fromResetN := resetN, verifyPending := d.sys.verifyPending, bootOk := d.sys.bootOk,
      refHold := d.sys.refHold, encoreRunning := true, bootAt := d.nowNs, hostKick := d.sys.hostKick, l0 := d.sys.l0 && !resetN,
      msix := if resetN then [] else d.sys.msix, cold := false, flashOk := d.sys.flashOk, tap := d.sys.tap } }

/-! ## SK at a warm reset (R458) -/

/-- Load the running image's components in place of what is there. -/
def Dev.loadImage (d : Dev) : Dev :=
  if !d.sys.bootOk then d
  else (componentsOf (d.flashAt d.sk.bank)).foldl (fun d c => d.loadComponent d.sk.bank c) d

/-- The running image is checked again: its signature, and each component where it lies; one that differs is reloaded from a
flash copy that passes. -/
def Dev.recheck (d : Dev) : Dev × Bool :=
  let rd := d.flashAt d.sk.bank
  if !d.sys.flashOk || !Config.mldsaVerify (imgBytes rd 792 2592) (imgBytes rd 0 3384) (ascii "KM-SC9640-FW") (imgBytes rd 3384 4627) then
    (d, false)
  else (componentsOf rd).foldl (fun (x : Dev × Bool) c =>
    if !x.2 || x.1.residentOk c then x
    else if Config.sha3_512 (c.bytes rd) == c.sha then (x.1.loadComponent d.sk.bank c, true)
    else (x.1, false)) (d, true)

/-- SK's part of a warm reset: a trial boot, the running image again, or the checks of a cold boot. In RECOVERY there is no
image to check. -/
def Dev.skWarm (d : Dev) : Dev :=
  if !d.sys.bootOk then d
  else if d.sk.trialNext then d.chooseImage.loadImage
  else
    let x := d.recheck
    if x.2 then x.1 else x.1.chooseImage.loadImage

/-! ## The reset (R494, R498) -/

/-- Commits at the entry of a reset or at a fall of PWRGOOD: ROP counters, and a checkpoint record once the ring contexts
have been restored (R44, R95). -/
def Dev.commitAll (d : Dev) : Dev :=
  let d := d.commitRop
  if d.sys.cold && decide (d.sys.stage < 4) then d else d.checkpoint

/-- A boot or a reset is under way up to the release of CC, so that a further trigger is merged into it. -/
def Dev.restarting (d : Dev) : Bool := d.sys.inReset || (!d.sys.ccReleased && (d.sys.verifyPending || d.sys.bootOk))

/-- A warm or watchdog reset with its CC_RESET_CAUSE: 1 RESET_N, 2 host, 3 WATCHDOG, 4 debug open. -/
def Dev.warmReset (d : Dev) (cause : Nat) : Dev :=
  if !d.sys.pwrgood || d.restarting then d
  else
    let d := d.setRf Pg.cc Reg.CC_RESET_CAUSE 3 0 cause
    let d := if cause = 3 then d.bumpSat Pg.cc Reg.CC_WDOG_COUNT 15 0 else d
    let d := (d.commitAll.warmed (cause == 1)).recordedSitOut.skWarm
    let d := d.budgetsInForce
    let d := d.modHdr Pg.ph (fun h => { h with continuous := d.sys.l0 })
    Dev.advance 6 d

/-- The tags after a warm reset: the fabric is reset with its partitions. -/
def State.warm (s : State) (cause : Nat) : State :=
  if !s.dev.sys.pwrgood || s.dev.restarting then s else { s with dev := s.dev.warmReset cause, tags := Fabric.reset }

/-- RESET_N goes low for 1.0 µs. -/
def State.resetN (s : State) : State :=
  ({ s with dev := { s.dev with sys := { s.dev.sys with resetLow := true } } } : State).warm 1

/-- RESET_N_RELEASE: RESET_N rises and a reset that held before its release step goes on. -/
def Dev.resetRelease (d : Dev) : Dev :=
  let d := { d with sys := { d.sys with resetLow := false } }
  if d.sys.inReset then (Dev.advance 6 d).notePhase else d

/-- A write of CC_RESET_CTRL: WARM with KEY 0x5741 in the same write, otherwise discarded. -/
def State.resetCtrl (s : State) (v : Word) : State := if bit 0 v && fld 31 16 v == 0x5741 then s.warm 2 else s

/-! ## The watchdog (R497) -/

/-- WDOG_KICK: any other value is discarded. -/
def Dev.kick (d : Dev) (v : Word) : Dev := if fld 15 0 v = 0x4B43 then { d with sys := { d.sys with hostKick := d.nowNs } } else d

/-- A kick has been missed for TIMEOUT_MS while EN = 1: the host's own, when HOST_KICK asks for it, or firmware's. The timer
stops while a reset runs. -/
def Dev.kickMissed (d : Dev) (host : Bool) : Bool :=
  d.fwRuns && d.rb Pg.cc Reg.CC_WDOG_CFG 16 &&
    (!host || (d.rb Pg.cc Reg.CC_WDOG_CFG 17 && decide (d.sys.hostKick + d.rf Pg.cc Reg.CC_WDOG_CFG 15 0 * 1000000 ≤ d.nowNs)))

/-- WATCHDOG_EXPIRE. -/
def State.watchdog (s : State) (host : Bool) : State := if s.dev.kickMissed host then s.warm 3 else s

/-! ## The fall of PWRGOOD (R490, R491, R509) -/

/-- PWRGOOD falls: PAEN is released, nothing more is sent, the commits are made, and every output takes its safe level. -/
def Dev.powerFall (d : Dev) : Dev :=
  if !d.sys.pwrgood then d
  else
    let d := d.commitAll
    let off (d : Dev) (p : Page) : Dev := d.modHdr p (fun h => { h with enable := false, state := .off, continuous := false, inflight := 0 })
    let d := ((List.range 61).map pg).foldl off d
    { d with
      sys := { d.sys with pwrgood := false, inReset := false, ccReleased := false, bootOk := false, verifyPending := false, l0 := false,
                          stage := 0, paen := 0, pend := [], tripCause := d.en.tripped },
      en := { d.en with tripped := false },
      qm := { d.qm with reading := [] },
      tm := { d.tm with wire := [] },
      air := { d.air with radios := d.air.radios.map (fun x =>
        (x.1, { x.2 with ready := [], onAir := none, tr := 0, lnaByp := 0, bias := [0, 0, 0, 0] })) } }

/-! ## Thermal trip (R499) -/

/-- THERMAL_TRIP: THERMTRIP_N latches low; chains and ports send no more, DRAM rests in self-refresh, islands stand at VP0. -/
def Dev.trip (d : Dev) (sensor : Nat) : Dev :=
  if !d.sys.pwrgood || d.en.tripped then d
  else
    let d := d.setTemps (max d.en.hot 125) d.en.cold sensor
    let d := { d with en := { d.en with tripped := true } }
    let d := (List.range 3).foldl (fun d r => ((d.modRadio r (fun x => { x with tr := 0, lnaByp := 0, bias := [0, 0, 0, 0] }))).silence r) d
    let d := (List.range 17).foldl (fun d p => d.portUnderrun p) d
    let d := (List.range 4).foldl (fun d g => d.modGrp g Grp.coast) d
    let d := islands.foldl (fun d p => d.modHdr p (fun h => { h with reqVp := 0, grantedVp := 0 })) d
    (d.bumpSat Pg.cc Reg.CC_TRIP_COUNT 15 0).commitNow Pg.cc Reg.CC_TRIP_COUNT

/-! ## Commands -/

/-- PWRGOOD_FALL (R491). -/
def execPwrgoodFall (s : State) : Host.Outcome State Fault Refusal := s.on (·.powerFall)
/-- RAIL_DIP (R509): as a fall of PWRGOOD. -/
def execRailDip (s : State) : Host.Outcome State Fault Refusal := s.on (·.powerFall)
/-- RESET_N (R494). -/
def execResetN (s : State) : Host.Outcome State Fault Refusal := .next s.resetN
/-- WARM_RESET_WRITE (R494). -/
def execWarmResetWrite (v : Word) (s : State) : Host.Outcome State Fault Refusal := .next (s.resetCtrl v)
/-- WDOG_KICK (R497). -/
def execWdogKick (v : Word) (s : State) : Host.Outcome State Fault Refusal := s.on (·.kick v)
/-- WATCHDOG_EXPIRE (R497). -/
def execWatchdogExpire (host : Bool) (s : State) : Host.Outcome State Fault Refusal := .next (s.watchdog host)
/-- THERMAL_TRIP (R499). -/
def execThermalTrip (sensor : Fin 24) (s : State) : Host.Outcome State Fault Refusal := s.on (·.trip sensor.val)
/-- RESET_N_RELEASE (R494). -/
def execResetNRelease (s : State) : Host.Outcome State Fault Refusal := s.on (·.resetRelease)

end Sys2Proof.Machine
end

