-- ==== Sys2Proof/Machine/Keeper.lean ====
section
/-! DEFINITION. The commands of the security keeper: updates, attestation, wrapping, and the debug gate (R454, R459 to
R466). -/

namespace Sys2Proof.Machine

/-! ## The command register (R465, Table 19.5) -/

/-- SK takes a command: it runs, and no operation of its own is under way (operations are atomic here, assumption log 91). -/
def Dev.skTakes (d : Dev) : Bool := (d.hdr Pg.sk).state.serves

/-- An operation ends with its STATUS; one other than 0 raises the given event, or CMD_REFUSED where there is none more
specific. -/
def Dev.skEnd (d : Dev) (op st : Nat) (ev : Nat := Evt.SK_CMD_REFUSED) : Dev :=
  let d := (d.setRf Pg.sk Reg.SK_CMD 3 0 op).setRf Pg.sk Reg.SK_CMD 11 8 st
  if st = 0 then d else d.detect Pg.sk ev

/-- SK_CMD_ADDR. -/
def Dev.skAddr (d : Dev) : Nat := (d.reg Pg.sk Reg.SK_CMD_ADDR_LO).toNat + d.rf Pg.sk Reg.SK_CMD_ADDR_HI 15 0 * 2 ^ 32

/-- The 16 bytes of a window entry. -/
def Dev.skEntry (d : Dev) (a : Nat) : List Byte := (List.range 4).flatMap (fun i => bytesLE 4 (d.tw Pg.sk a i).toNat)

/-- Bytes of consecutive window entries. -/
def Dev.skBytes (d : Dev) (a n : Nat) : List Byte := (List.range n).flatMap (fun i => d.skEntry (a + i))

/-- An image or a token as it lies in memory. -/
def Dev.memAt (d : Dev) (a off : Nat) : Byte := (d.physByte (a + off)).getD 0

/-- SK_LIFECYCLE.STATE. -/
def Dev.lifecycle (d : Dev) : Nat := d.rf Pg.sk Reg.SK_LIFECYCLE 1 0

/-! ## Updates (R459, R460) -/

/-- STATUS of a check of R456 that fails (assumption log 92). -/
def causeStatus (c : Nat) : Nat :=
  if c = 1 then 2 else if c = 3 then 5 else if c = 5 then 4 else if c = 7 then 7 else 3

/-- The bank that a STAGE programs: the one that does not run. -/
def Dev.otherBank (d : Dev) : Nat := 1 - (if d.sys.bootOk then d.sk.bank else d.rf Pg.sk Reg.SK_BOOT_CFG 0 0)

/-- An image passes its checks and is programmed; SK_BOOT_CFG names its bank and the next boot is a trial. -/
def Dev.stageInto (d : Dev) (bank : Nat) (img : List Byte) : Dev :=
  let d := d.putFlash (bank * bankBytes) img
  let d := (d.commitWord (Pg.sk.val * 0x1000 + Reg.SK_BOOT_CFG) (putFld 0 0 bank (d.reg Pg.sk Reg.SK_BOOT_CFG)) .equal).1
  { d with sk := { d.sk with trialNext := true } }

/-- In RECOVERY a STAGE that passes restarts the boot from the staged bank (R457). -/
def Dev.leaveRecovery (d : Dev) : Dev :=
  if d.sys.bootOk then d else (Dev.advance 6 ((d.setPersists Pg.sk Evt.SK_BOOT_FAIL false).chooseImage)).notePhase

/-- STAGE. `flashOk`: programming and the read-back succeed; a bank whose programming fails holds free bytes. -/
def Dev.stageImage (d : Dev) (flashOk : Bool) : Dev :=
  if !d.skTakes then d
  else
    let rd := d.memAt d.skAddr
    let n := imageLen rd
    let c := d.checkImage rd
    let fails (d : Dev) (st : Nat) : Dev := d.skEnd 1 st Evt.SK_UPDATE_FAIL
    if bankBytes < n then fails d 2
    else if c ≠ 0 then fails d (causeStatus c)
    else if !flashOk then
      fails (d.putFlash (d.otherBank * bankBytes) ((List.range n).map (Config.codedByte d.fresh))).drawn 7
    else (((d.stageInto d.otherBank (imgBytes rd 0 n)).skEnd 1 0)).leaveRecovery

/-- CONFIRM: BANK, the floor, the revocations, in this order; the running image's own key is never revoked. -/
def Dev.confirmImage (d : Dev) : Dev :=
  if !d.skTakes then d
  else if !d.sys.bootOk then d.skEnd 2 6
  else
    let d := if d.sk.trial then
        (d.commitWord (Pg.sk.val * 0x1000 + Reg.SK_BOOT_CFG) (putFld 0 0 d.sk.bank (d.reg Pg.sk Reg.SK_BOOT_CFG)) .equal).1
      else d
    let d := (d.peak Pg.sk Reg.SK_ROLLBACK_FLOOR 15 0 d.sk.minSvn).commitNow Pg.sk Reg.SK_ROLLBACK_FLOOR
    let own := 2 ^ d.sk.vendorKey
    let bits := (d.rf Pg.sk Reg.SK_LIFECYCLE 7 4 ||| d.sk.revokeBits) &&&
      (if d.rf Pg.sk Reg.SK_LIFECYCLE 7 4 &&& own = 0 then 15 - own else 15)
    let d := (d.setRf Pg.sk Reg.SK_LIFECYCLE 7 4 bits).commitNow Pg.sk Reg.SK_LIFECYCLE
    { d with sk := { d.sk with trial := false } }.skEnd 2 0

/-! ## Attestation (R461, Table 19.3) -/

/-- The first 688 bytes of a report. -/
def Dev.reportBody (d : Dev) : List Byte :=
  bytesLE 4 0x54535441 ++ bytesLE 2 1 ++ bytesLE 2 5315 ++ d.skBytes 0x3100 4 ++
    bytesLE 4 (d.reg Pg.sk Reg.SK_DEVICE_SERIAL_LO).toNat ++ bytesLE 4 (d.reg Pg.sk Reg.SK_DEVICE_SERIAL_HI).toNat ++
    bytesLE 4 (d.reg Pg.sk Reg.SK_LIFECYCLE).toNat ++ bytesLE 4 (d.reg Pg.sk Reg.SK_DEBUG_LOCK).toNat ++
    bytesLE 2 (d.rf Pg.sk Reg.SK_ROLLBACK_FLOOR 15 0) ++ bytesLE 2 d.sk.svn ++
    bytesLE 1 (d.sk.bank + d.sk.trial.toNat * 128) ++ bytesLE 3 0 ++ bytesLE 4 d.wk.epoch ++
    bytesLE 4 (d.reg Pg.sk Reg.SK_ATTEST_COUNT).toNat ++ bytesLE 8 d.time64 ++
    Config.sha3_512 (Config.mldsaPublic 1 d.wk.epoch d.sk.manifest) ++ (List.range 8).flatMap d.mr

/-- ATTEST: the report counts itself and is signed with AK. -/
def Dev.attestReport (d : Dev) : Dev :=
  if !d.skTakes then d
  else if !d.sk.keys || !d.sys.bootOk then d.skEnd 3 8
  else
    let d := d.bumpSat Pg.sk Reg.SK_ATTEST_COUNT 31 0
    let body := d.reportBody
    let sig := Config.mldsaSign 1 d.wk.epoch d.sk.manifest body (ascii "KM-SC9640-ATTEST")
    { d with sk := { d.sk with report := body ++ sig } }.skEnd 3 0

/-- EXTEND of MR4–MR7. -/
def Dev.extendHost (d : Dev) : Dev :=
  if !d.skTakes then d
  else
    let i := d.rf Pg.sk Reg.SK_CMD_ADDR_LO 2 0
    if i < 4 then d.skEnd 4 6 else (d.extendMr i (d.skBytes 0x3100 4)).skEnd 4 0

/-! ## WRAP (R454) -/

/-- The wrapped blob: bytes 0–15, WRAP_IV, bytes 28–31, the encrypted key material and its tag (Table 18.2). -/
def Dev.wrapBlob (d : Dev) (kek : List Nat) : List Nat :=
  let w := ofBytes (d.skBytes 0x3400 6)
  let ivb := beBytes 4 d.wk.epoch ++ beBytes 8 d.sk.wraps
  let aad := w.take 16 ++ ivb ++ (w.drop 16).take 4
  let ct := gcmCrypt kek (beNum ivb) ((w.drop 20).take 64)
  aad ++ ct ++ gcmTag kek (beNum ivb) aad ct

/-- The window's WRAP input is cleared. -/
def Dev.clearWrap (d : Dev) : Dev := (List.range 6).foldl (fun d a => (List.range 4).foldl (fun d i => d.setTw Pg.sk (0x3400 + a) i 0) d) d

/-- WRAP. -/
def Dev.wrapKey (d : Dev) : Dev :=
  if !d.skTakes then d
  else
    let id := (ofBytes (d.skEntry 0x3400)).getD 7 0
    if 7 < id then d.skEnd 5 6
    else match d.kekOf id with
      | none => d.skEnd 5 8
      | some k =>
        match d.physWrite d.skAddr (toBytes (d.wrapBlob k)) with
        | (d, .ok) => ({ d with sk := { d.sk with wraps := d.sk.wraps + 1 } }.clearWrap).skEnd 5 0
        | (d, _) => d.drawn.skEnd 5 (1 + Config.freeNat d.fresh % 11)

/-! ## The debug gate (R462, R463) -/

/-- Back-off and lifetime of a challenge, ns. -/
abbrev sixtySeconds : Nat := 60000000000

/-- CHALLENGE. -/
def Dev.drawChallenge (d : Dev) : Dev :=
  if !d.skTakes then d
  else if !d.sk.rngOk then d.skEnd 6 11
  else if 3 ≤ d.sk.fails && d.nowNs < d.sk.backoffUntil then d.skEnd 6 10
  else { d.drawn with sk := { d.sk with challenge := Config.random32 d.fresh, chalValid := true, chalAt := d.nowNs } }.skEnd 6 0

/-- CHALLENGE_EXPIRE: 60 s after it was drawn. -/
def Dev.expireChallenge (d : Dev) : Dev :=
  if d.sk.chalAt + sixtySeconds ≤ d.nowNs then { d with sk := { d.sk with chalValid := false } } else d

/-- The challenge is still good. -/
def Dev.challengeGood (d : Dev) : Bool := d.sk.chalValid && decide (d.nowNs < d.sk.chalAt + sixtySeconds)

/-- Length of a debug token (Table 19.4). -/
abbrev tokenLen : Nat := 7267

/-- STATUS of a token check that the spec gives no status: 1 MAGIC, 2 SERIAL, 4 PK, 5 LEVEL; never 0. -/
def tokenFail (i : Nat) : Nat := 1 + Config.tokenStatus i % 11

/-- The first check of R462 that a token fails, as its STATUS; 0 where it passes. `returns`: a token for RETURN, of LEVEL 3
and signed by Kulomund's debug authority. -/
def Dev.tokenCheck (d : Dev) (t : List Byte) (returns : Bool) : Nat :=
  let serial := bytesLE 4 (d.reg Pg.sk Reg.SK_DEVICE_SERIAL_LO).toNat ++ bytesLE 4 (d.reg Pg.sk Reg.SK_DEVICE_SERIAL_HI).toNat
  let pk := slice t 48 2592
  let h := Config.sha3_512 pk
  let level := fieldLE t 6 1
  let owner := d.rb Pg.sk Reg.SK_LIFECYCLE 8 && h == d.sk.ownerKey
  let vendor := Config.debugAuthority h
  if fieldLE t 0 4 ≠ 0x4B4F5444 then tokenFail 1
  else if slice t 8 8 ≠ serial then tokenFail 2
  else if !d.challengeGood || slice t 16 32 ≠ d.sk.challenge then 9
  else if !(if returns then vendor else owner || (vendor && d.rf Pg.sk Reg.SK_DEBUG_LOCK 1 0 == 0)) then tokenFail 4
  else if !(if returns then level == 3 else level == 1 || level == 2) then tokenFail 5
  else if !Config.mldsaVerify pk (slice t 0 2640) (ascii "KM-SC9640-DEBUG") (slice t 2640 4627) then 3
  else 0

/-- A token has failed: the count that leads to the back-off, and UNLOCK_FAIL (R463). -/
def Dev.tokenFailed (d : Dev) (op st : Nat) : Dev :=
  let n := d.sk.fails + 1
  { d with sk := { d.sk with fails := n, backoffUntil := if 3 ≤ n then d.nowNs + sixtySeconds else d.sk.backoffUntil } }.skEnd op st
    Evt.SK_UNLOCK_FAIL

/-- Rings whose ledger is lost with the epoch are restored as at a cold boot: RING_EN = 0, and their numbers as PRIOR (R96,
R462). -/
def Dev.loseRings (d : Dev) : Dev :=
  (d.wk.rings.map Prod.fst).foldl (fun d n =>
    let r := d.ring n
    (d.setTf Pg.dx (ringEntry n 0) 2 8 8 0).setRing n { Ring.reset with priorAccept := r.acceptSeq, priorPosted := r.postedSeq }) d

/-- The erasure of R462, in its order: the count, the key slots with their scrubs, the hierarchy, MR3, then DRAM under a new
scramble key with a new ledger epoch. -/
def Dev.erasure (d : Dev) (token : List Byte) : Dev :=
  let d := (d.bumpSat Pg.sk Reg.SK_UNLOCK_COUNT 15 0).commitNow Pg.sk Reg.SK_UNLOCK_COUNT
  let d := (List.range 256).foldl (fun d s => d.keyErase s) d
  let d := { d with sk := { d.sk with keys := false } }.extendMr 3 (Config.sha3_512 token)
  let d := (d.wk.items.foldl (fun d i => d.release i.reserved) d.forgetRingWork).loseRings
  { d with
    sk := { d.sk with scramble := d.sk.scramble + 1 }, ram := { d.ram with dram := [] },
    wk := { d.wk with epoch := d.wk.epoch + 1, items := [], copyA := ⟨[], []⟩, copyB := ⟨[], []⟩ } }

/-- The gate opens at a LEVEL. -/
def Dev.openGate (d : Dev) (level : Nat) : Dev :=
  ({ d with sk := { d.sk with gateOpen := true, level := level, fails := 0 } }.detect Pg.sk Evt.SK_DEBUG_OPEN).skEnd 7 0

/-- UNLOCK on the device, before the warm reset that follows an opening; the result says whether the gate has opened.
In MANUFACTURE and RETURNED it opens without a token, at a LEVEL that the spec leaves open (R464). -/
def Dev.unlockGate (d : Dev) (shifted : Option (List Byte)) : Dev × Bool :=
  if !d.skTakes then (d, false)
  else if d.lifecycle ≠ 1 then
    if !d.sk.rngOk then (d.skEnd 7 11, false) else ((d.drawn.erasure []).openGate (1 + Config.freeNat d.fresh % 2), true)
  else if d.rf Pg.sk Reg.SK_DEBUG_LOCK 1 0 = 2 then (d.skEnd 7 6, false)
  else
    let t := shifted.getD ((List.range tokenLen).map (d.memAt d.skAddr))
    let st := d.tokenCheck t false
    let d := { d with sk := { d.sk with chalValid := false } }
    if st ≠ 0 then (d.tokenFailed 7 st, false)
    else if !d.sk.rngOk then (d.skEnd 7 11, false)
    else ((d.erasure t).openGate (fieldLE t 6 1), true)

/-- UNLOCK: an opening starts a warm reset of every domain but SK, PS and TU. -/
def State.unlock (s : State) (shifted : Option (List Byte)) : State :=
  let x := s.dev.unlockGate shifted
  let s := { s with dev := x.1 }
  if x.2 then s.warm 4 else s

/-- CLOSE: closing restores nothing. -/
def Dev.closeGate (d : Dev) : Dev :=
  if !d.skTakes then d else { d with sk := { d.sk with gateOpen := false, level := 0 } }.skEnd 8 0

/-- RETURN: the DUS read path is disabled for good and the erasure done before RETURNED is committed (R464). -/
def Dev.returnPart (d : Dev) : Dev :=
  if !d.skTakes then d
  else if d.lifecycle = 2 then d.skEnd 9 6
  else
    let t := (List.range tokenLen).map (d.memAt d.skAddr)
    let st := d.tokenCheck t true
    let d := { d with sk := { d.sk with chalValid := false } }
    if st ≠ 0 then d.tokenFailed 9 st
    else if !d.sk.rngOk then d.skEnd 9 11
    else
      let d := { d with sk := { d.sk with dusOff := true } }.erasure t
      (((d.setRf Pg.sk Reg.SK_LIFECYCLE 1 0 2).commitNow Pg.sk Reg.SK_LIFECYCLE)).skEnd 9 0

/-- A write of SK_DEBUG_LOCK: stricter at any time, less strict while the gate is open; any other is not stored (R463). -/
def Dev.debugLock (d : Dev) (v : Word) : Dev :=
  let now := d.rf Pg.sk Reg.SK_DEBUG_LOCK 1 0
  let n := fld 1 0 v
  if n ≤ 2 && (now < n || (n < now && d.sk.gateOpen)) then d.psWrite Pg.sk Reg.SK_DEBUG_LOCK (word n)
  else d.detect Pg.sk Evt.SK_LOCK_REFUSED

/-- RNG_FAIL: HEALTHY reads 0 from here on. -/
def Dev.rngFails (d : Dev) : Dev :=
  (({ d with sk := { d.sk with rngOk := false } }.setRb Pg.sk Reg.SK_RNG_STAT 0 false).bumpSat Pg.sk Reg.SK_RNG_STAT 15 8).detect Pg.sk
    Evt.SK_RNG_FAIL

/-- A write of a part of the owner debug key hash, where R463 allows it; its last entry sets OWNER_KEY_SET. -/
def Dev.ownerKeyWrite (d : Dev) (i : Nat) (bs : List Byte) : Dev :=
  if d.rb Pg.sk Reg.SK_LIFECYCLE 8 && !d.sk.gateOpen && d.lifecycle ≠ 0 then d
  else
    let k := d.sk.ownerKey ++ List.replicate (64 - d.sk.ownerKey.length) 0
    let d := { d with sk := { d.sk with ownerKey := k.take (16 * i) ++ bs.take 16 ++ k.drop (16 * i + 16) } }
    if i = 3 then (d.setRb Pg.sk Reg.SK_LIFECYCLE 8 true).commitNow Pg.sk Reg.SK_LIFECYCLE else d

/-! ## Commands -/

/-- STAGE (R459). -/
def execStage (flashOk : Bool) (s : State) : Host.Outcome State Fault Refusal := s.on (·.stageImage flashOk)
/-- CONFIRM (R459). -/
def execConfirm (s : State) : Host.Outcome State Fault Refusal := s.on (·.confirmImage)
/-- ATTEST (R461). -/
def execAttest (s : State) : Host.Outcome State Fault Refusal := s.on (·.attestReport)
/-- EXTEND (R461). -/
def execExtend (s : State) : Host.Outcome State Fault Refusal := s.on (·.extendHost)
/-- WRAP (R454). -/
def execWrap (s : State) : Host.Outcome State Fault Refusal := s.on (·.wrapKey)
/-- CHALLENGE (R462). -/
def execChallenge (s : State) : Host.Outcome State Fault Refusal := s.on (·.drawChallenge)
/-- UNLOCK (R462); `shifted` is a token shifted in through JTAG. -/
def execUnlock (shifted : Option (List Byte)) (s : State) : Host.Outcome State Fault Refusal := .next (s.unlock shifted)
/-- CLOSE (R462). -/
def execGateClose (s : State) : Host.Outcome State Fault Refusal := s.on (·.closeGate)
/-- RETURN (R464). -/
def execSkReturn (s : State) : Host.Outcome State Fault Refusal := s.on (·.returnPart)
/-- CHALLENGE_EXPIRE (R462). -/
def execChallengeExpire (s : State) : Host.Outcome State Fault Refusal := s.on (·.expireChallenge)
/-- DEBUG_LOCK_WRITE (R463). -/
def execDebugLockWrite (v : Word) (s : State) : Host.Outcome State Fault Refusal := s.on (·.debugLock v)
/-- RNG_FAIL (R466). -/
def execRngFail (s : State) : Host.Outcome State Fault Refusal := s.on (·.rngFails)

end Sys2Proof.Machine
end

