-- ==== Sys2Proof/Machine/Views.lean ====
section
/-! DEFINITION. What read-only registers show that no command stores: status words formed from the state at the moment of the
read (the register tables of chapters 2 to 22). A quantity that hardware measures over time in which the model takes no part
reads as a free value (assumption log 60). -/

namespace Sys2Proof.Machine

/-- A word put together from fields: low bit, width, value. -/
def packed (l : List (Nat × Nat × Nat)) : Word := word (l.foldl (fun a f => a + f.2.2 % 2 ^ f.2.1 * 2 ^ f.1) 0)

/-- How many of the numbers below `n` a test accepts. -/
def countTo (n : Nat) (t : Nat → Bool) : Nat := ((List.range n).filter t).length

/-- The numbers below `n` that a test accepts, as bits. -/
def bitsTo (n : Nat) (t : Nat → Bool) : Nat := (List.range n).foldl (fun a i => if t i then a + 2 ^ i else a) 0

/-- A number held at the top of a field of `n` bits. -/
def satAt (n v : Nat) : Nat := min v (2 ^ n - 1)

/-! ## Registers that show a measurement (log 60) -/

/-- Registers and fields [hi:lo] whose values hardware measures outside the model: loads, bandwidths, link-layer counts. -/
def measuredFields (k : PageKind) (off : Nat) : List (Nat × Nat) :=
  match k with
  | .fb => if off = Reg.FB_BISECT then [(7, 0)] else []
  | .dx => if off = Reg.DX_BW then [(31, 0)] else []
  | .mc => if off = Reg.MC_RD_BW || off = Reg.MC_WR_BW || off = Reg.MC_CH_SR_TIME then [(31, 0)]
      else if off = Reg.MC_SCRUB_STAT || off = Reg.MC_REBUILD_STAT then [(15, 0)] else []
  | .ve => if off = Reg.VE_DEC_STAT then [(26, 16)] else []
  | .ds => if off = Reg.DS_INSTR || off = Reg.DS_BANK_STALL then [(31, 0)] else if off = Reg.DS_LOAD then [(7, 0)] else []
  | .am => if off = Reg.AM_LOAD then [(7, 0)] else []
  | .ce => if off = Reg.CE_LOAD then [(7, 0)] else []
  | .ep => if off = Reg.EP_FEC_CNT then [(31, 0)] else []
  | .rb => if off = Reg.RB_LOAD || off = Reg.RB_LDPC_ITER then [(7, 0)] else []
  | .cv => if off = Reg.CV_CLIP then [(31, 0)] else []
  | .ph => if off = Reg.PH_EQ_STAT then [(15, 0)] else if off = Reg.PH_LANE_ERR then [(15, 0)] else []
  | _ => []

/-- The word with its measured fields taken from a draw. -/
def measuredWord (k : PageKind) (off draw : Nat) (w : Word) : Word :=
  (measuredFields k off).foldl (fun w f => putFld f.1 f.2 (Config.freeNat draw / 2 ^ f.2 % 2 ^ (f.1 - f.2 + 1)) w) w

/-! ## DIR (Table 23.6) -/

/-- Is a member of a parity group in service? -/
def Dev.memberServes (d : Dev) (g m : Nat) : Bool :=
  let x := (d.grp g).m m
  x.state != .retired && x.state != .rebuilding && !x.lost && !d.unitOut (mcPage g) m

/-- Sits a page out, or is a unit of it retired (Table 23.6)? -/
def Dev.sitsOut (d : Dev) (p : Nat) : Bool := (d.hdr (pg p)).state == .sitOut || d.records (pg p) != 0

/-- DIR registers. -/
def Dev.viewDir (d : Dev) (off : Nat) (w : Word) : Word :=
  let half (t : Nat → Bool) (hi : Bool) : Word :=
    word (if hi then bitsTo 29 (fun i => t (32 + i)) else bitsTo 32 (fun i => i != 0 && t i))
  if off = Reg.DIR_FW_VERSION then d.reg Pg.sk Reg.SK_FW_VERSION
  else if off = Reg.DIR_UNITS0 then packed [(0, 5, countTo 16 (fun e => !d.unitOut (Pg.ve (Fin.ofNat 16 e)) 0)),
    (8, 4, countTo 8 (fun c => !d.unitOut (dsPage c) 0)), (12, 3, countTo 4 (fun c => !d.unitOut (cpPage c) 0)),
    (16, 2, countTo 2 (fun n => !d.unitOut (cePage n) 0))]
  else if off = Reg.DIR_UNITS1 then packed [(0, 6, countTo 36 (fun i => d.memberServes (i / 9) (i % 9))),
    (8, 4, countTo 8 (fun u => !d.unitOut Pg.cc u)), (12, 4, countTo 12 (fun i => !d.unitOut (rbPage (i / 4)) (i % 4))),
    (16, 5, countTo 16 (fun i => !d.unitOut (epPage i) (i % 4))), (24, 4, countTo 8 (fun u => !d.unitOut Pg.ps u))]
  else if off = Reg.DIR_PERM_LO || off = Reg.DIR_PERM_HI then half (fun p => (d.hdr (pg p)).holdsFault) (off == Reg.DIR_PERM_HI)
  else if off = Reg.DIR_SITOUT_LO || off = Reg.DIR_SITOUT_HI then half d.sitsOut (off == Reg.DIR_SITOUT_HI)
  else if off = Reg.DIR_FAULTED_LO || off = Reg.DIR_FAULTED_HI then
    half (fun p => (d.hdr (pg p)).state == .faulted) (off == Reg.DIR_FAULTED_HI)
  else if off = Reg.DIR_RAW_LO || off = Reg.DIR_RAW_HI then half (fun p => (d.hdr (pg p)).holdsNotice) (off == Reg.DIR_RAW_HI)
  else if off = Reg.DIR_BOOT then packed [(0, 3, d.rf Pg.cc Reg.CC_BOOT_STAT 2 0), (8, 1, d.sys.encoreRunning.toNat)]
  else if off = Reg.DIR_PINS then
    packed [(0, 1, d.faultLow.toNat), (1, 1, d.en.tripped.toNat), (2, 1, d.sys.pwrgood.toNat), (3, 1, d.sys.resetLow.toNat)]
  else w

/-! ## CC, PS, SK (Tables 3.9, 2.15, 19.8) -/

def Dev.viewCc (d : Dev) (off : Nat) (w : Word) : Word :=
  if off = Reg.CC_LEDGER_SHORT then word (satAt 32 d.sShort)
  else if off = Reg.CC_LEDGER_LONG then word (satAt 32 d.sLong)
  else if off = Reg.CC_RESERVED then word (satAt 32 d.en.reserved)
  else if off = Reg.CC_RUN_HOURS then word d.runHours
  else if off = Reg.CC_CORE_RETIRE then putBit 16 ((d.hdr Pg.cc).requal != 0) w
  else w

/-- Lowest set bit of a number of eight bits. -/
def lowBit (v : Nat) : Nat := ((List.range 8).find? (fun i => v.testBit i)).getD 0

def Dev.viewPs (d : Dev) (off : Nat) (w : Word) : Word :=
  let i := d.rf Pg.ps Reg.PS_WORD_SEL 7 0
  let x := d.psWord i
  if off = Reg.PS_STATUS then
    packed [(0, 1, (!d.ps.queue.isEmpty).toNat), (1, 1, (d.records Pg.ps != 0).toNat), (2, 3, lowBit (d.records Pg.ps)),
      (8, 1, (d.ps.words.any (fun y => y.2.worn)).toNat), (16, 9, 256 - d.ps.sparesUsed)]
  else if off = Reg.PS_WORD_WEAR then word (if i < 160 then d.wear x.slot else 0)
  else if off = Reg.PS_WORD_INFO then
    (if i < 160 then packed [(0, 9, x.slot), (16, 8, satAt 8 x.remaps), (24, 1, x.worn.toNat)] else 0)
  else if off = Reg.PS_WORD_TOTAL then word (if i < 160 then x.total else 0)
  else if off = Reg.PS_WORD_ADDR then word (persistWords.getD i 0)
  else w

def Dev.viewSk (d : Dev) (off : Nat) (w : Word) : Word :=
  if off = Reg.SK_STATUS then
    packed [(0, 2, if d.sys.bootOk then 1 else if d.sys.verifyPending then 0 else 2), (4, 1, d.sk.bank), (5, 1, d.sk.trial.toNat),
      (6, 1, d.sk.keys.toNat), (16, 16, d.sk.svn)]
  else if off = Reg.SK_DEBUG_STAT then
    packed [(0, 1, d.sk.gateOpen.toNat), (1, 2, d.sk.level), (3, 1, d.challengeGood.toNat), (8, 4, satAt 4 d.sk.fails),
      (16, 16, ceilDiv (d.sk.backoffUntil - d.nowNs) 1000000000)]
  else w

/-! ## TU (Table 15.7) -/

def Dev.viewTu (d : Dev) (off : Nat) (w : Word) : Word :=
  let ns (x : Int) : Nat := unsigned 64 (x / (2 ^ 32 : Nat))
  let t := d.tu
  if off = Reg.TU_RAW_LO then loHalf d.nowNs
  else if off = Reg.TU_RAW_HI then hiHalf d.nowNs
  else if off = Reg.TU_RAW_FRAC then word t.raw
  else if off = Reg.TU_TIME_LO then loHalf d.time64
  else if off = Reg.TU_TIME_HI then hiHalf d.time64
  else if off = Reg.TU_OFFSET_LO then loHalf (ns t.offset)
  else if off = Reg.TU_OFFSET_HI then hiHalf (ns t.offset)
  else if off = Reg.TU_ANCHOR_LO then loHalf (ns t.anchor)
  else if off = Reg.TU_ANCHOR_HI then hiHalf (ns t.anchor)
  else if off = Reg.TU_STEP_CTRL then
    packed [(2, 1, t.armed.toNat), (3, 1, (t.rem != 0).toNat), (4, 2, t.last), (8, 7, t.slewPpm), (16, 16, t.refusals)]
  else if off = Reg.TU_SYNC_STAT then
    packed [(0, 2, t.sync.val), (8, 8, Config.clockClass t.sync.val),
      (16, 16, if t.sync = 0 || t.sync = 2 then satAt 16 ((d.timeNs - t.enteredAt) / 60000000000).toNat else 0)]
  else if off = Reg.TU_TXTS_SEL then w ||| packed [(16, 7, (d.txts (d.rf Pg.tu Reg.TU_TXTS_SEL 2 0)).length)]
  else w

/-! ## DX, MC, DP (Tables 6.10, 5.6) -/

/-- Bytes a channel holds staged. -/
def Chan.stagedBytes (c : Chan) : Nat := c.got.foldl (fun a g => a + g.2.length) 0

def Dev.viewDx (d : Dev) (off : Nat) (w : Word) : Word :=
  if off = Reg.DX_CFG then w ||| packed [(1, 1, d.dx.ats.toNat), (2, 1, d.dx.pri.toNat)]
  else if off = Reg.DX_XC_STAT then word d.dx.cache.length
  else if off = Reg.DX_PARK_STAT then
    packed [(0, 10, (d.dx.parks.filter (fun p => decide (p.stage ≤ 2))).length),
      (16, 10, (d.dx.parks.filter (fun p => p.host && decide (p.stage ≤ 2))).length)]
  else if off = Reg.DX_CHAN_ACTIVE then
    (match d.dx.port with
    | some n => packed [(0, 8, n), (8, 1, 1), (12, 4, d.chanPrio n)]
    | none => 0)
  else if off = Reg.DX_REQ_LINE_STAT then d.dx.lines
  else if off = Reg.DX_STAGE_STAT then
    packed [(0, 9, (d.dx.chans.filter (fun c => !c.2.got.isEmpty)).length),
      (16, 16, ceilDiv (d.dx.chans.foldl (fun a c => a + c.2.stagedBytes) 0) 1024)]
  else if off = Reg.DX_LEDGER_STAT then w ||| packed [(1, 1, d.sys.encoreRunning.toNat)]
  else w

/-- CH_STAT.STATE (Table 5.6). -/
def MState.code : MState → Nat
  | .active => 0 | .selfRefresh => 1 | .retired => 2 | .rebuilding => 3 | .untrained => 4

def Dev.viewMc (d : Dev) (g off : Nat) (w : Word) : Word :=
  let x := d.grp g
  let sel := d.rf (mcPage g) Reg.MC_CHAN_SEL 3 0
  if off = Reg.MC_GROUP_STAT then
    packed [(0, 1, x.degraded.toNat), (1, 4, ((List.range 9).find? (fun m => (x.m m).state == .retired || (x.m m).state == .rebuilding)).getD 15),
      (5, 1, x.lost.toNat), (6, 1, x.rebuild.isSome.toNat), (8, 2, x.point), (10, 1, x.setB.toNat), (11, 1, x.change.isSome.toNat),
      (12, 9, bitsTo 9 (fun m => (x.m m).state == .selfRefresh))]
  else if off = Reg.MC_CH_STAT then
    packed [(0, 3, (x.m sel).state.code), (8, 3, (x.m sel).rate), (16, 8, satAt 8 ((d.hdr (mcPage g)).countOf sel))]
  else w

def Dev.viewDp (d : Dev) (g off : Nat) (w : Word) : Word :=
  if off = Reg.DP_RATE then word (pointRate (d.grp g).point)
  else if off = Reg.DP_WCK_STAT then word (bitsTo 9 (fun m => ((d.grp g).m m).state == .active))
  else w

/-! ## VE, DS, CP, AM (Tables 8.7, 9.7, 12.8, 10.6, 11.4) -/

/-- The picture at work on an engine, when it is of the kind asked for. -/
def Dev.frontOf (d : Dev) (e : Nat) (enc : Bool) : Option VPic := (d.veng e).bound.head?.filter (fun p => p.job.encode == enc)

def Dev.viewVe (d : Dev) (e off : Nat) (w : Word) : Word :=
  let v := d.veng e
  let busy (enc : Bool) (more : Nat) (parkAt : Nat) : Word :=
    match d.frontOf e enc with
    | some p => packed [(0, 9, p.job.ctx % 512), (9, 1, 1), (if enc then 11 else 10, 2, more), (parkAt, 1, (d.isParked (whoVe e)).toNat)]
    | none => 0
  if off = Reg.VE_DEC_STAT then busy false (v.bound.length - 1) 12
  else if off = Reg.VE_ENC_STAT then (w &&& 0xFFFF0000#32) ||| busy true 0 10
  else if off = Reg.VE_DEC_PIXRATE then word (satAt 16 (logSum v.pixDec d.nowNs 1000000000 / 1000000))
  else if off = Reg.VE_ENC_PIXRATE then word (satAt 16 (logSum v.pixEnc d.nowNs 1000000000 / 1000000))
  else if off = Reg.VE_ENC_REF_BW then word (satAt 32 (logSum v.refBytes d.nowNs 1000000 / 1024))
  else w

/-- Frame pool of a cluster not in frames. -/
def Dev.framesFree (d : Dev) (c : Nat) : Nat :=
  262144 - d.codeEnd c - (d.ds c).running.foldl (fun a l => a + l.size) 0

/-- The largest free span of the frame pool, searched from every end of a frame. -/
def Dev.largestFree (d : Dev) (c : Nat) : Nat :=
  let busy := (d.ds c).running.map (fun l => (l.base, l.size))
  let ends := d.codeEnd c :: busy.map (fun b => b.1 + b.2)
  ends.foldl (fun best s =>
    max best ((busy.foldl (fun stop b => if s ≤ b.1 then min stop b.1 else stop) 262144) - s)) 0

def Dev.viewDs (d : Dev) (c off : Nat) (w : Word) : Word :=
  if off = Reg.DS_LANE_BUSY then word (bitsTo 32 (fun l => (d.lane c l).isSome))
  else if off = Reg.DS_QUEUE then
    packed [(0, 12, satAt 12 (d.ds c).queue.length),
      (16, 12, satAt 12 (d.wk.items.filter (fun i => decide (i.page? = some (dsPage c)) && i.phase == .bound)).length)]
  else if off = Reg.DS_FRAME_FREE then packed [(0, 9, d.framesFree c / 1024), (16, 9, d.largestFree c / 1024)]
  else w

def Dev.viewCp (d : Dev) (c off : Nat) (w : Word) : Word :=
  let u := d.cpUnit c
  if off = Reg.CP_PIX_OUT then word (satAt 16 (logSum u.pixOut d.nowNs 1000000000 / 1000000))
  else if off = Reg.CP_PIX_IN then word (satAt 16 (logSum u.pixIn d.nowNs 1000000000 / 1000000))
  else if off = Reg.CP_FETCH_BW then word (satAt 32 (logSum u.rdBytes d.nowNs 1000000 / 1024))
  else if off = Reg.CP_WRITE_BW then word (satAt 32 (logSum u.wrBytes d.nowNs 1000000 / 1024))
  else w

/-- Legs with EN = 1. -/
def Dev.amLegsOn (d : Dev) : List Nat :=
  d.pages.tbl.filterMap (fun e =>
    let a := e.1 / 4 % 2 ^ 24
    if e.1 / 4 / 2 ^ 24 == Pg.am.val && e.1 % 4 == 0 && decide (0x1000 ≤ a) && a % 2 == 0 && bit 0 e.2 then some ((a - 0x1000) / 2) else none)

def Dev.viewAm (d : Dev) (off : Nat) (w : Word) : Word :=
  if off = Reg.AM_STAT then word (countTo 1024 d.mixEn)
  else if off = Reg.AM_LEGS then word d.amLegsOn.length
  else if off = Reg.AM_SILENT then word (d.amLegsOn.filter (fun l => (d.amLeg l).silent)).length
  else if off = Reg.AM_RAMP_STAT then packed [(0, 11, d.gensBusy), (16, 11, d.am.waitq.length)]
  else w

/-! ## QM, PX, TM (Tables 13.3, 7.5, 14.6, 14.8) -/

/-- Payload cells that more than one copy refers to. -/
def Dev.sharedCells (d : Dev) : Nat :=
  d.qm.bodies.foldl (fun a b => match b.2 with | some x => if 1 < x.refs then a + x.cells.length else a | none => a) 0

def Dev.viewQm (d : Dev) (off : Nat) (w : Word) : Word :=
  if off = Reg.QM_POOL_FREE then word d.poolF
  else if off = Reg.QM_POOL_USED then word d.poolUsed
  else if off = Reg.QM_MIN_TOTAL then word d.minTotal
  else if off = Reg.QM_MIN_UNMET then word d.minUnmet
  else if off = Reg.QM_FLUSH then w ||| packed [(31, 1, d.qm.flushing.isSome.toNat)]
  else if off = Reg.QM_NOTICE_STAT then w ||| packed [(0, 16, satAt 16 (d.qm.queues.foldl (fun a x => a + x.2.length) 0))]
  else if off = Reg.QM_QUEUES_ACTIVE then word (d.qm.queues.filter (fun q => !q.2.isEmpty)).length
  else if off = Reg.QM_RESERVE_STAT then word ((List.range ingressSources).foldl (fun a s => a + d.reserveUsed s) 0)
  else if off = Reg.QM_SHARED_CELLS then word d.sharedCells
  else w

/-- Legs with EN = 1 that publish a source or that a valid copy entry names (Table 7.1). -/
def Dev.videoLegs (d : Dev) : List Nat :=
  let named := (d.validCopies.map d.copyLeg).eraseDups
  d.enabledLegs.filter (fun l => d.legPublish l || hasNat named l)

def Dev.viewPx (d : Dev) (off : Nat) (w : Word) : Word :=
  let x := d.px
  if off = Reg.PX_RT_CTRL then
    packed [(4, 4, x.cur), (8, 3, x.vers.length), (16, 1, (x.swapWait || x.swapRun).toNat)]
  else if off = Reg.PX_RT_STAT then word (d.routeSlots x.cur).length
  else if off = Reg.PX_RT_CHANGES then word x.changes
  else if off = Reg.PX_VER_OLDEST then
    (match x.vers with
    | v :: _ => packed [(0, 4, v.num), (8, 24, d.verPackets v.num)]
    | [] => 0)
  else if off = Reg.PX_MPPS then word (satAt 16 (logSum x.rate d.nowNs 1000000 / 1000))
  else if off = Reg.PX_MEDIA_STAT then packed [(0, 14, d.enabledLegs.length), (16, 11, d.videoLegs.length / 4)]
  else if off = Reg.PX_NODE_FREE then word (16384 - ((d.validCopies.map (· / 64)).eraseDups).length)
  else w

def Dev.viewTm (d : Dev) (off : Nat) (w : Word) : Word :=
  let p := d.rf Pg.tm Reg.TM_PORT_SEL 4 0
  let g := d.gate p
  if off = Reg.TM_PORT_STAT then
    packed [(0, 1, (d.portUp p 0).toNat), (1, 1, (d.gated p).toNat), (2, 1, g.pend.isSome.toNat), (3, 1, g.oper.bank),
      (4, 10, if d.gated p then d.gateIndex p g else 0),
      (16, 16, satAt 16 (d.qm.queues.filter (fun q => !q.2.isEmpty && d.qConsumer q.1 == 0 && d.qEgress q.1 == p)).length)]
  else if off = Reg.TM_PORT_BW then word (satAt 32 (logSum (SMap.get (fun _ => []) d.tm.sent p) d.nowNs 1000000 / 1024))
  else if off = Reg.TM_GCL_START_LO then loHalf (match g.pend with | some (_, t) => t | none => 0)
  else if off = Reg.TM_GCL_START_HI then hiHalf (match g.pend with | some (_, t) => t | none => 0)
  else if off = Reg.TM_MON_STAT then
    (let m := d.mon (d.rf Pg.tm Reg.TM_MON_SEL 5 0)
     packed [(0, 10, m.wr), (16, 1, m.frozen.toNat),
       (17, 1, (d.tb Pg.tm (0x50000 + d.rf Pg.tm Reg.TM_MON_SEL 5 0) 0 16 && !m.frozen).toNat)])
  else w

/-! ## RB, CV, AC, CE (Tables 16.10, 16.12, 17.10, 18.9) -/

def Dev.viewRb (d : Dev) (r off : Nat) (w : Word) : Word :=
  let x := d.radio r
  let p := rbPage r
  let state (c : Nat) : Nat := if x.calReq.getLsbD c then 1 else if d.unitOut p c then 2 else 0
  if off = Reg.RB_STAT then
    w ||| packed [(4, 1, x.onAir.isSome.toNat), (8, 4, (d.chainMask r).toNat), (12, 3, (d.activeChains r).length)]
  else if off = Reg.RB_CHAIN_STAT then
    packed [(0, 2, state 0), (2, 2, state 1), (4, 2, state 2), (6, 2, state 3), (8, 8, satAt 8 (d.hdr p).counted.length)]
  else w

def Dev.viewCv (d : Dev) (off : Nat) (w : Word) : Word :=
  let r := d.rf Pg.cv Reg.CV_RADIO_SEL 1 0
  let x := d.radio r
  let m := d.tw Pg.cv (0x100 + r * 8 + x.mode) 0
  if off = Reg.CV_PATH_STAT then packed [(0, 3, x.mode), (4, 1, x.onAir.isSome.toNat), (5, 1, x.offAir.toNat)]
  else if off = Reg.CV_LO_STAT then putBit 0 (!x.offAir && x.carrier != 0 && decide (x.settled ≤ d.nowNs)) w
  else if off = Reg.CV_CAL_CTRL then putBit 31 (x.calReq != 0) w
  else if off = Reg.CV_FILT_ACTIVE then
    packed [(0, 4, fld 3 0 m), (8, 4, fld 11 8 m), (16, 3, d.tf Pg.cv (fld 3 0 m * 8) 0 2 0)]
  else w

/-- Slots that the active card grants on a radio. -/
def Dev.grantedSlots (d : Dev) (r : Nat) : Nat := (d.card r).foldl (fun a c => a + c.slots) 0

def Dev.viewAc (d : Dev) (off : Nat) (w : Word) : Word :=
  let statOf (r : Nat) : Word :=
    packed [(0, 2, if !d.radioEn r then 0 else if (d.radio r).scan ≠ 0 then 3 else if d.radioServes r then 1 else 2),
      (8, 9, (d.card r).length), (18, 10, d.grantedSlots r)]
  let used := (List.range 96).map (fun i => (d.dwellUsed (i / 32) (i % 32), i))
  let top := used.foldl (fun a b => if a.1 < b.1 then b else a) (0, 0)
  if off = Reg.AC_CHAN_A then putBit 8 (d.hops 0) w
  else if off = Reg.AC_CHAN_B then putBit 8 (d.hops 1) w
  else if off = Reg.AC_CHAN_C then putBit 8 (d.hops 2) w
  else if off = Reg.AC_STAT_A then statOf 0
  else if off = Reg.AC_STAT_B then statOf 1
  else if off = Reg.AC_STAT_C then statOf 2
  else if off = Reg.AC_LINKS then packed [(0, 10, d.validLinks.length), (16, 10, (d.validLinks.filter d.linkLost).length)]
  else if off = Reg.AC_SENSORS then
    packed [(0, 12, d.validSensors.length), (16, 12, (d.validSensors.filter (fun s => d.sensorStep s == 3)).length)]
  else if off = Reg.AC_PARTNERS then
    packed [(0, 6, countTo 32 (fun p => (d.partnerX p).known)), (8, 6, countTo 32 (fun p => (d.partnerX p).known && d.partnerState p == 1))]
  else if off = Reg.AC_FLOOD_STAT then (w &&& 0xFFFF0000#32) ||| packed [(0, 13, d.air.seen.length)]
  else if off = Reg.AC_DWELL_STAT then
    packed [(0, 16, satAt 16 (top.1 / 1000000)), (16, 5, top.2 % 32), (22, 2, top.2 / 32)]
  else w

def Dev.viewCe (d : Dev) (n off : Nat) (w : Word) : Word :=
  let u := d.ce n
  let has (st : SlotState) : Nat := (d.keys.slots.filter (fun s => s.2.state == st)).length
  if off = Reg.CE_STAT then
    packed [(0, 1, (!(d.ceInProgress n).isEmpty).toNat), (4, 5, satAt 5 (d.ceInProgress n).length)]
  else if off = Reg.CE_BW then word (satAt 32 (logSum u.bytes d.nowNs 1000000 / 1024))
  else if off = Reg.CE_SCRUB_BYTES then word (u.scrubbed / 1024)
  else if off = Reg.CE_SLOTS then packed [(0, 9, has .loaded), (16, 9, has .exhausted)]
  else if off = Reg.CE_LOADNUM then word d.keys.loads
  else if off = Reg.CE_KEY_CMD then
    putBit 31 ((d.slotItems (d.rf (cePage n) Reg.CE_KEY_CMD 7 0)).any (fun i => i.result.cause == Cause.SLOT_ERASED)) w
  else w

/-- The word a register shows, from the word stored for it. -/
def Dev.view (d : Dev) (p : Page) (off : Nat) (w : Word) : Word :=
  match kindOf p with
  | .dir => d.viewDir off w
  | .cc => d.viewCc off w
  | .ps => d.viewPs off w
  | .sk => d.viewSk off w
  | .tu => d.viewTu off w
  | .dx => d.viewDx off w
  | .mc => d.viewMc (instOf p) off w
  | .dp => d.viewDp (instOf p) off w
  | .ve => d.viewVe (instOf p) off w
  | .ds => d.viewDs (instOf p) off w
  | .cp => d.viewCp (instOf p) off w
  | .am => d.viewAm off w
  | .qm => d.viewQm off w
  | .px => d.viewPx off w
  | .tm => d.viewTm off w
  | .rb => d.viewRb (instOf p) off w
  | .cv => d.viewCv off w
  | .ac => d.viewAc off w
  | .ce => d.viewCe (instOf p) off w
  | .hb | .fb | .ep | .mg | .ph => w

/-! ## The page header (Tables 2.3 to 2.12) -/

/-- PAGE_STATE.STATE codes (Table 2.6). -/
def PState.code : PState → Nat
  | .off => 0 | .starting => 1 | .ready => 2 | .running => 3 | .draining => 4 | .sitOut => 5 | .faulted => 6

/-- What a header register other than HIST_READ reads. -/
def Dev.headerWord (d : Dev) (p : Page) (off : Nat) : Word :=
  let h := d.hdr p
  let k := kindOf p
  if off = 0x000 then packed [(0, 16, p.val), (16, 8, instOf p), (24, 8, blockType k)]
  else if off = 0x004 then 0x0000B001
  else if off = 0x008 then
    packed [(0, 1, h.enable.toNat), (1, 2, h.drainReturn.toNat), (3, 1, h.rst.toNat), (9, 2, h.commitAt.toNat)]
  else if off = 0x00C then packed [(0, 3, h.state.code), (8, 1, h.commitPending.toNat), (16, 16, satAt 16 h.inflight)]
  else if off = 0x010 then h.raw
  else if off = 0x014 then h.en
  else if off = 0x01C then h.sevLo
  else if off = 0x020 then h.sevHi
  else if off = 0x028 then packed [(0, 8, h.limit), (8, 16, h.windowMs)]
  else if off = 0x02C then
    (if k.selfTimed then packed [(0, 3, h.reqVp.val), (4, 3, h.grantedVp.val), (16, 16, satAt 16 h.pace)]
     else packed [(0, 1, h.pllLock.toNat), (1, 1, h.refPresent.toNat), (2, 1, h.unlockSeen.toNat), (16, 16, h.clkMhz)])
  else 0

end Sys2Proof.Machine
end

