-- ==== Sys2Proof/Machine/TableViews.lean ====
section
/-! DEFINITION. What a read through a table window places in DATA0–3 (the table-window tables of chapters 3 to 19): stored
words, shadows, and words formed from the state. A word that the spec leaves open is `none`, and reads as a free value. -/

namespace Sys2Proof.Machine

/-- Word i of a byte string read as little-endian words; the part beyond its end reads as 0. -/
def wordOf (bs : List Byte) (i : Nat) : Word := word (fieldLE bs (4 * i) 4)

/-- A table word as stored: the shadow where the entry is shadowed, unless the active value is asked for (R34, R236). -/
def Dev.storedWord (d : Dev) (p : Page) (a i : Nat) (active : Bool) : Word :=
  match tblRange (kindOf p) a with
  | some r =>
    let m := word (r.rw.getD i 0)
    if r.shadowed && !active then (d.tw p a i &&& ~~~ m) ||| (d.tsw p a i &&& m) else d.tw p a i
  | none => 0

/-! ## CC and SK (Tables 3.10, 19.9) -/

/-- Meter words: energy in µJ, and mean power over the short window in mW (R61). -/
def Dev.meterWord (d : Dev) (m i : Nat) : Word :=
  let e := SMap.get (fun _ => 0) d.en.meters m
  if i = 0 then loHalf e else if i = 1 then hiHalf e
  else if i = 2 then word ((d.meterW m).foldl (· + ·) 0 / 10)
  else 0

/-- Words of a cost entry. One neither learned nor seeded shows the cost in use, with ESTIMATED where it is taken from another
voltage point (R68, R69). -/
def Dev.costWord (d : Dev) (c vp i : Nat) (w : Word) : Word :=
  if i = 0 then word (satAt 24 (d.cost c vp))
  else if i = 1 then putBit 17 (!d.costKnown c vp && (d.nearestCost c vp).isSome) w
  else w

/-- An entry of SK's window (Table 19.9). -/
def Dev.skWord (d : Dev) (a i : Nat) : Word :=
  let part (bs : List Byte) (e : Nat) : Word := wordOf bs (4 * e + i)
  if a = 0x0FFF then (if i = 0 then word Config.devCertificate.length else 0)
  else if a < 0x1000 then part Config.devCertificate a
  else if a < 0x2000 then part d.sk.endorsement (a - 0x1000)
  else if a < 0x3000 then part d.sk.report (a - 0x2000)
  else if a < 0x3020 then part (d.mr ((a - 0x3000) / 4)) ((a - 0x3000) % 4)
  else if a = 0x3200 || a = 0x3201 then part d.sk.challenge (a - 0x3200)
  else if 0x3300 ≤ a && a ≤ 0x3303 then part d.sk.ownerKey (a - 0x3300)
  else if 0x3400 ≤ a && a ≤ 0x3405 then 0
  else d.tw Pg.sk a i

/-- Does SK's window hold an entry at this address? -/
def skHas (a : Nat) : Bool :=
  a < 0x3020 || (0x3100 ≤ a && a ≤ 0x3103) || a == 0x3200 || a == 0x3201 || (0x3300 ≤ a && a ≤ 0x3303) || (0x3400 ≤ a && a ≤ 0x3405)

/-! ## DX (Tables 4.9, 6.11) -/

/-- STATE of a channel (Table 6.11). -/
def Dev.chanState (d : Dev) (n : Nat) (c : Chan) (x : BitVec 512) : Nat :=
  if c.parked then 3 else if d.dx.port = some n then 1 else if c.cut then 2 else if waitsLine x c then 4 else 5

/-- Words of a channel entry. -/
def Dev.chanWord (d : Dev) (n i : Nat) (w : Word) : Word :=
  let c := d.chan n
  if i = 0 then w
  else match d.chanItem n with
    | none => 0
    | some x =>
      if i = 1 then word (d.chanState n c x.desc)
      else if i = 2 then word (match want x.desc c with | some b => b.idx | none => max c.srcNext c.dstNext)
      else packed [(0, 13, c.stagedBytes), (16, 16, c.parks)]

/-- Words of DX entries: PRIOR_POSTED, and with CMD [2] = 1 PRIOR_ACCEPT, at k = 2 of a ring. -/
def Dev.dxWord (d : Dev) (a i : Nat) (active : Bool) (w : Word) : Word :=
  if a < 0x400 then
    (if a % 4 = 2 && 2 ≤ i then
      let r := d.ring (a / 4)
      let v := unsigned 64 (if active then r.priorAccept else r.priorPosted)
      if i = 2 then loHalf v else hiHalf v
     else w)
  else if a < 0x500 then d.chanWord (a - 0x400) i w
  else w

/-! ## CP, AM, DS (Tables 10.7, 11.5, 12.9) -/

def Dev.cpWord (d : Dev) (c a i : Nat) (w : Word) : Word :=
  if a < 0x2000 && a % 64 = 1 && i = 2 then word (((d.cpOut c (a / 64)).published).getD 0) else w

/-- Two selected legs of a mix in one word. -/
def selWord (sel : List Nat) (i : Nat) : Word :=
  let part (j lo : Nat) : Nat := match sel[j]? with | some l => (l % 2 ^ 13 + 2 ^ 15) * 2 ^ lo | none => 0
  word (part (2 * i) 0 + part (2 * i + 1) 16)

/-- A gain waits for a generator or a zero crossing. -/
def AmGain.waits (g : AmGain) : Bool := match g.move with | .wait _ => true | .step _ => true | _ => false

/-- DATA0 of a leg's state entry. The level of a leg without a frame is left open. -/
def Dev.amStateWord (d : Dev) (l : Nat) : Option Word :=
  let x := d.amLeg l
  let flags := [(8, 1, x.silent.toNat), (9, 1, (hasNat (d.amMix x.mix).sel l && x.active).toNat), (10, 1, (x.con.ramps || x.out.ramps).toNat),
    (11, 1, (x.con.waits || x.out.waits).toNat), (12, 1, x.xfade.isSome.toNat)]
  match x.level with
  | some v => some (packed ((0, 8, satAt 8 ((-v + 500) / 1000).toNat) :: flags))
  | none => none

def Dev.amWord (d : Dev) (a i : Nat) (w : Word) : Option Word :=
  if a < 0x400 && i = 1 then some (word (d.mixLegs a).length)
  else if 0x800 ≤ a && a < 0xC00 then some (selWord (d.amMix (a - 0x800)).sel i)
  else if 0x1000 ≤ a && a % 2 = 1 && i = 0 then d.amStateWord ((a - 0x1000) / 2)
  else some w

/-- LST of a lane (Table 12.1). -/
def Lane.lst (x : Lane) : Word :=
  packed [(0, 4, x.ovf.toNat), (4, 1, x.sat.toNat), (5, 1, x.bxEn.toNat), (6, 3, x.reps.length)]

def Dev.dsWord (d : Dev) (c a i : Nat) (w : Word) : Word :=
  if a < 0x100 then w
  else match d.lane c (a - 0x100) with
    | none => 0
    | some x =>
      if i = 0 then packed [(0, 6, x.kernel), (7, 1, 1)]
      else if i = 1 then word x.pc else if i = 2 then word x.count else x.lst

/-! ## QM (Tables 13.1, 13.2, 13.4) -/

/-- Lead cell of a packet: a copy's header cell, else the first cell of its payload. -/
def Dev.leadCell (d : Dev) (p : Pkt) : Nat :=
  match p.header with
  | some c => c
  | none => (match d.body? p.body with | some b => b.cells.headD 0 | none => 0)

/-- The queued packet with a lead cell, and the one behind it. -/
def Dev.leadPkt (d : Dev) (c : Nat) : Option (Pkt × Option Pkt) :=
  d.qm.queues.findSome? (fun q =>
    (List.range q.2.length).findSome? (fun i => match q.2[i]? with
      | some p => if d.leadCell p = c then some (p, q.2[i + 1]?) else none
      | none => none))

/-- The body that a cell belongs to, and its place in it. -/
def Dev.cellBody (d : Dev) (c : Nat) : Option (Body × Nat) :=
  d.qm.bodies.findSome? (fun x => match x.2 with
    | some b => (b.cells.findIdx? (fun y => y == c)).map (fun i => (b, i))
    | none => none)

/-- Link word of a cell; of a cell that nothing uses it is left open. -/
def Dev.linkWord (d : Dev) (c : Nat) : Option Word :=
  match d.cellBody c with
  | some (b, i) =>
    let last := i + 1 == b.cells.length
    let eop := last && b.done
    some (packed [(0, 18, if last then 0 else b.cells.getD (i + 1) 0), (18, 8, if eop then (b.data.length + 255) % 256 else 0),
      (26, 1, (i == 0).toNat), (27, 1, eop.toNat), (28, 1, (eop && b.err).toNat)])
  | none =>
    match (d.allPkts.find? (fun p => p.header == some c)) with
    | some p => some (packed [(0, 18, match d.body? p.body with | some b => b.cells.headD 0 | none => 0), (26, 1, 1), (29, 1, 1)])
    | none => none

/-- Packet word of a cell: of a queued packet's lead cell, with REFS in the first payload cell; of others it is left open. -/
def Dev.packetWord (d : Dev) (c : Nat) (hi : Bool) : Option Word :=
  let refs := match d.cellBody c with | some (b, 0) => some b.refs | _ => none
  match d.leadPkt c with
  | some (p, next) =>
    let nx := match next with | some q => d.leadCell q | none => 0
    some (if hi then packed [(0, 13, refs.getD 0), (13, 1, p.header.isSome.toNat), (14, 1, p.assured.isSome.toNat)]
      else packed [(0, 18, nx), (18, 14, p.len)])
  | none => if hi then refs.map (fun n => packed [(0, 13, n)]) else none

def Dev.qmWord (d : Dev) (a i : Nat) (w : Word) : Option Word :=
  if 0x100000 ≤ a then
    (let c := a - 0x100000
     if i = 0 then d.linkWord c else if i = 3 then some 0 else d.packetWord c (i == 2))
  else if a % 4 = 1 then
    (let q := a / 4
     let ends (p : Option Pkt) : Option Word := p.map (fun p => word (d.leadCell p))
     if i = 0 then some (word (d.occupancy q)) else if i = 1 then some (word (d.queue q).length)
     else if i = 2 then ends (d.queue q).head? else ends (d.queue q).getLast?)
  else some w

/-! ## PX and TM (Tables 7.6, 14.7, 14.9) -/

/-- Enabled legs of a conference. -/
def Dev.confLegs (d : Dev) (c : Nat) : List Nat := d.enabledLegs.filter (fun l => d.legConf l == c)

def Dev.pxWord (d : Dev) (a i : Nat) (w : Word) : Word :=
  if a < 0x400 then
    (if i = 1 then word (d.confLegs a).length
     else if i = 2 then word (((d.confLegs a).filter d.legPublish).map d.legSource).eraseDups.length
     else w)
  else if 0x10000 ≤ a && a < 0x18000 && a % 4 = 2 && i = 1 then word (d.jitterDepth ((a - 0x10000) / 4) / 2500000)
  else if 0x20000 ≤ a && a < 0x24000 && 2 ≤ i then
    (let x := a - 0x20000
     let rate (t : Nat) : Nat := satAt 16 (d.layerRate (x / 4) (x % 4 * 16 + t))
     packed [(0, 16, rate (2 * (i - 2))), (16, 16, rate (2 * (i - 2) + 1))])
  else if 0x40000 ≤ a && a < 0x44000 && i = 1 then word (d.nodeCopies (a - 0x40000)).length
  else if 0x480000 ≤ a && a < 0x488000 && a % 2 = 0 && i = 0 then putBit 8 (d.portUp (fld 20 16 w) (d.tf Pg.px (a + 1) 2 9 0)) w
  else w

def Dev.tmWord (d : Dev) (a i : Nat) (w : Word) : Word :=
  if a < 0x20000 && a % 2 = 1 && i = 1 then word (SMap.get (fun _ => 0) d.tm.qBytes (a / 2) / 1024)
  else if 0x20000 < a && a < 0x24000 && 2 ≤ i then
    (let t := unsigned 64 (d.tokens (a - 0x20000))
     if i = 2 then loHalf t else hiHalf t)
  else w

/-! ## AC and CE (Tables 17.11, 18.10) -/

def Dev.acWord (d : Dev) (a i : Nat) (w : Word) : Word :=
  if 0x1000 ≤ a && a < 0x3000 && a % 4 = 1 && i = 3 then word (satAt 32 ((d.nowNs - (d.sensorX ((a - 0x1000) / 4)).lastEx) / 1000000)) else w

/-- STATE codes of a slot (Table 18.10). -/
def SlotState.code : SlotState → Nat
  | .empty => 0 | .loaded => 1 | .exhausted => 2 | .test => 3

def KeySlot.showWord (k : KeySlot) (i : Nat) : Word :=
  if i = 0 then packed [(0, 2, k.state.code), (4, 4, k.kind), (8, 8, k.use), (16, 8, k.kekId)]
  else if i = 1 then loHalf k.count
  else if i = 2 then packed [(0, 8, k.count / 2 ^ 32), (8, 8, k.recs.length)]
  else packed [(0, 16, k.fixed), (16, 16, k.loadNum)]

def SsrcRec.showWord (r : SsrcRec) (i : Nat) : Word :=
  if i = 0 then r.ssrc
  else if i = 1 then packed [(0, 16, r.enc.high.getD 0 / 2 ^ 32), (16, 1, 1)]
  else if i = 2 then loHalf (r.enc.high.getD 0)
  else loHalf (r.dec.high.getD 0)

def Dev.ceWord (d : Dev) (a i : Nat) : Word :=
  if a < 0x1000 then (d.slot a).showWord i
  else match (d.slot ((a - 0x1000) / 32)).recs[(a - 0x1000) % 32]? with
    | some r => r.showWord i
    | none => 0

/-! ## A window read -/

/-- Does the page's window hold an entry at an address? -/
def tableHas (p : Page) (a : Nat) : Bool := if kindOf p = .sk then skHas a else (tblRange (kindOf p) a).isSome

/-- Word i of an entry as a window read shows it; `none` where it is left open. An address that holds no entry is such a
case. -/
def Dev.tableWord (d : Dev) (p : Page) (a i : Nat) (active : Bool) : Option Word :=
  let w := d.storedWord p a i active
  if !tableHas p a then none
  else match kindOf p with
    | .cc => some (if a < 0x200 then d.costWord (a / 8) (a % 8) i w else if 0x300 ≤ a && a < 0x340 then d.meterWord (a - 0x300) i else w)
    | .sk => some (d.skWord a i)
    | .dx => some (d.dxWord a i active w)
    | .cp => some (d.cpWord (instOf p) a i w)
    | .am => d.amWord a i w
    | .ds => some (d.dsWord (instOf p) a i w)
    | .qm => d.qmWord a i w
    | .px => some (d.pxWord a i w)
    | .tm => some (d.tmWord a i w)
    | .ac => some (d.acWord a i w)
    | .ce => some (d.ceWord a i)
    | _ => some w

end Sys2Proof.Machine
end

