-- ==== Sys2Proof/Machine/TableWrites.lean ====
section
/-! DEFINITION. What a write through a table window changes: the masks and ranges of the table-window tables and the rules of
the pages that own them. -/

namespace Sys2Proof.Machine

/-! ## Storing an entry -/

/-- A field of a table write whose range the spec gives without a rule: a value outside it stores a free value (assumption log
4). The row: word, high bit, low bit, least and greatest value. -/
def rangedWord (p : Page) (a i : Nat) (w : Word) (r : Nat × Nat × Nat × Nat × Nat) : Word :=
  if r.1 ≠ i then w
  else
    let v := fld r.2.1 r.2.2.1 w
    if r.2.2.2.1 ≤ v && v ≤ r.2.2.2.2 then w
    else putFld r.2.1 r.2.2.1 (Config.outOfRange (tblKey p a i) r.2.2.1 v % 2 ^ (r.2.1 - r.2.2.1 + 1)) w

/-- The written words with such ranges applied. -/
def ranged (p : Page) (a : Nat) (rows : List (Nat × Nat × Nat × Nat × Nat)) (ws : List Word) : List Word :=
  (List.range 4).map (fun i => rows.foldl (rangedWord p a i) (ws.getD i 0))

/-- Word i of an entry as a write of `w` would leave it. -/
def Dev.merged (d : Dev) (p : Page) (a i : Nat) (m w : Word) : Word := (d.tw p a i &&& ~~~ m) ||| (w &&& m)

/-- Store the written bits of an entry under given masks. -/
def Dev.storeUnder (d : Dev) (p : Page) (a : Nat) (ms : List Nat) (ws : List Word) : Dev :=
  (List.range 4).foldl (fun d i => d.setTw p a i (d.merged p a i (word (ms.getD i 0)) (ws.getD i 0))) d

/-- The writable bits of an entry. -/
def entryRw (p : Page) (a : Nat) : List Nat := match tblRange (kindOf p) a with | some r => r.rw | none => []

/-- Store the writable bits of an entry. -/
def Dev.storeWs (d : Dev) (p : Page) (a : Nat) (ws : List Word) : Dev := d.storeUnder p a (entryRw p a) ws

/-- A write to a shadow while a bow is pending: discarded and counted (R37). -/
def Dev.shadowLocked (d : Dev) (p : Page) : Dev := (d.bumpSat p commitStat 15 8).detect p Evt.SHADOW_LOCKED

/-- A write to a shadowed entry changes only its shadow (R34, R37). -/
def Dev.storeShadow (d : Dev) (p : Page) (a : Nat) (ms : List Nat) (ws : List Word) : Dev :=
  if (d.hdr p).commitPending then d.shadowLocked p
  else (List.range 4).foldl (fun d i =>
    let m := word (ms.getD i 0)
    d.setTsw p a i ((d.tsw p a i &&& ~~~ m) ||| (ws.getD i 0 &&& m))) d

/-! ## CC, SK, DX, DP, TU (R70, R109, R132, R347, R463) -/

def Dev.ccTable (d : Dev) (a : Nat) (ws : List Word) : Dev :=
  if a < 0x200 then (d.storeWs Pg.cc a ws).setTw Pg.cc a 1 (word (2 ^ 16)) else d.storeWs Pg.cc a ws

def Dev.skTable (d : Dev) (a : Nat) (ws : List Word) : Dev :=
  if 0x3300 ≤ a && a ≤ 0x3303 then d.ownerKeyWrite (a - 0x3300) (ws.flatMap (fun w => bytesLE 4 w.toNat)) else d.storeWs Pg.sk a ws

/-- Ring contexts, channel and ASID entries; ASID 0 is discarded (R136). -/
def Dev.dxTable (d : Dev) (a : Nat) (ws : List Word) : Dev :=
  if a < 0x400 then
    (let n := a / 4
     if a % 4 = 0 then
       (if bit 8 (ws.getD 2 0) then d.ringEnable n (ws.getD 0 0) (ws.getD 1 0) (ws.getD 2 0) (ws.getD 3 0)
        else d.ringDisable n (ws.getD 0 0) (ws.getD 1 0) (ws.getD 2 0) (ws.getD 3 0))
     else if a % 4 = 3 then d
     else d.ringEntryWrite n (a % 4) ws)
  else if a = 0x800 then d
  else (d.storeWs Pg.dx a ws).checkpoint

/-- A timing set is written only while it is inactive (R132). -/
def Dev.dpTable (d : Dev) (p : Page) (a : Nat) (ws : List Word) : Dev :=
  let active := 0x100 + (d.grp (instOf p)).setB.toNat
  if a = active then d else d.storeWs p a ws

def Dev.tuRefuse (d : Dev) : Dev := d.detect Pg.tu Evt.TU_TABLE_REFUSED

/-- Tick generators and corrections. -/
def Dev.tuTable (d : Dev) (a : Nat) (ws : List Word) : Dev :=
  if 0x100 ≤ a then (d.storeWs Pg.tu a ws).setTf Pg.tu a 2 0 0 1
  else
    let on := d.tb Pg.tu (a / 2 * 2) 0 0
    let same (i : Nat) (m : Word) : Bool := d.merged Pg.tu a i m (ws.getD i 0) == d.tw Pg.tu a i
    if a % 2 = 1 then (if on && !(same 0 0xFFFFFFFF && same 1 0xFFFFFFFF) then d.tuRefuse else d.storeWs Pg.tu a ws)
    else
      let period := fld 29 0 (ws.getD 1 0)
      if on && !(same 1 0x3FFFFFFF && same 2 0xFFFFFFFF) then d.tuRefuse
      else if period < 100000 || 1000000000 < period then d.tuRefuse
      else
        let d := d.storeWs Pg.tu a ws
        if !on && bit 0 (ws.getD 0 0) then d.tickEnable (a / 2) else d

/-! ## VE (R185, R207, R225) -/

/-- Four words packed. -/
def pack4 (ws : List Word) : BitVec 128 := BitVec.ofNat 128 ((List.range 4).foldl (fun a i => a + (ws.getD i 0).toNat * 2 ^ (32 * i)) 0)

/-- Ranges of an encode context's k = 1 entry (Table 9.8). -/
def encodeRanges : List (Nat × Nat × Nat × Nat × Nat) :=
  [(1, 6, 0, 1, 120), (1, 13, 8, 0, 51), (1, 21, 16, 0, 51), (2, 11, 5, 8, 120), (2, 18, 12, 0, 119), (2, 23, 20, 1, 15)]

/-- VALID is written 1: the context starts empty (R185), unless an encode context breaks R207. -/
def Dev.ctxStart (d : Dev) (h : Nat) (ws : List Word) : Dev :=
  let p := vePage h
  let enc := bit 1 (ws.getD 0 0)
  if enc && !encodeOk (pack4 ws) (d.ctxWords h 1) then d
  else
    let d := d.storeUnder p (ctxAddr h 0) [if enc then 0xFFF7 else 0x37, 0xFFFFF000, 0x1F001F, 0x1FFF1FFF] ws
    let zero (k : Nat) (d : Dev) : Dev := (List.range 4).foldl (fun d i => d.setTw p (ctxAddr h k) i 0) d
    let d := zero 2 (if enc then d else zero 1 d)
    (d.setVctx h VCtx.reset).showCtx h

/-- Entry k = 0 of a context. -/
def Dev.ctxIdentity (d : Dev) (h : Nat) (ws : List Word) : Dev :=
  let p := vePage h
  let v := bit 0 (ws.getD 0 0)
  if d.ctxValid h then
    (if v || d.ctxBusy h then d else (d.setTf p (ctxAddr h 0) 0 0 0 0).setVctx h VCtx.reset)
  else
    let ws := ranged p (ctxAddr h 0) [(2, 20, 16, 2, 18), (3, 28, 16, 0, 2304)] ws
    if v then d.ctxStart h ws
    else d.storeUnder p (ctxAddr h 0) [if bit 1 (ws.getD 0 0) then 0xFFF7 else 0x37, 0xFFFFF000, 0x1F001F, 0x1FFF1FFF] ws

/-- Entry k = 1 of an encode context. QP_MIN above QP_MAX is not stored. -/
def Dev.ctxControl (d : Dev) (h : Nat) (ws : List Word) : Dev :=
  let p := vePage h
  let a := ctxAddr h 1
  if d.ctxValid h && !d.ctxEncode h then d
  else if fld 21 16 (ws.getD 1 0) < fld 13 8 (ws.getD 1 0) then d
  else d.storeUnder p a (if d.ctxValid h then [0xFFFFF, 0x3F3F00, 0, 0] else [0xFFFFF, 0x3F3F7F, 0xFFFFFF, 0xFFFF]) (ranged p a encodeRanges ws)

/-- The VE window. -/
def Dev.veTable (d : Dev) (e a : Nat) (ws : List Word) : Dev :=
  let h := e * 512 + a / 4
  let p := vePage h
  if a % 4 = 0 then d.ctxIdentity h ws
  else if a % 4 = 1 then d.ctxControl h ws
  else if a % 4 = 2 || d.ctxValid h then d
  else if d.ctxEncode h then d.storeUnder p a [0x7FFF, 0, 0, 0x7FF] (ranged p a [(3, 10, 0, 256, 1400)] ws)
  else d.storeUnder p a [0x33FFF, 0, 0, 0] ws

/-! ## CP (R236) -/

/-- CURSOR_X and CURSOR_Y are not shadowed: both values take them. -/
def Dev.cursorWrite (d : Dev) (p : Page) (a : Nat) (w : Word) : Dev :=
  let v := d.merged p a 2 0x3FFF3FFF w
  (d.setTw p a 2 v).setTsw p a 2 v

def Dev.cpTable (d : Dev) (p : Page) (a : Nat) (ws : List Word) : Dev :=
  if 0x2000 ≤ a then d.storeWs p a ws
  else if a % 64 = 2 then (d.cursorWrite p a (ws.getD 2 0)).storeShadow p a [0xFFFFF000, 0xFF, 0, 0] ws
  else d.storeShadow p a (entryRw p a) ws

/-! ## QM (R298) -/

def Dev.qmTable (d : Dev) (a : Nat) (ws : List Word) : Dev :=
  let old := d.qMin (a / 4)
  let new := fld 17 0 (ws.getD 0 0)
  if a % 4 = 0 && a < 0x100000 && 131072 < d.minTotal - old + new then d.detect Pg.qm Evt.QM_MIN_REFUSED
  else d.storeWs Pg.qm a ws

/-! ## PX (R155, R177, R181, R314, R315, R319) -/

def Dev.pxRefuse (d : Dev) : Dev := d.detect Pg.px Evt.PX_TABLE_REFUSED

/-- A table write within the limits of Table 7.1, else refused whole (R155). -/
def Dev.withinLimits (old new : Dev) : Dev := if 4096 < new.videoLegs.length && old.videoLegs.length < new.videoLegs.length then old.pxRefuse else new

/-- EN of a leg is written 1: ESTIMATE starts at MAX_KBPS / 4 (R170), LINK_LOST as its link stands. -/
def Dev.legStart (d : Dev) (l : Nat) : Dev :=
  let lost := d.legEdge l == 1 && hasNat d.px.lostLinks (d.legEgress l)
  ((d.setTf Pg.px (legAddr l 0) 0 0 0 1).setTf Pg.px (legAddr l 0) 0 2 2 lost.toNat).setEstimate l (d.legMaxKbps l / 4)

/-- EN of a leg is written 0: CLOSING until its INFLIGHT is 0 (R177). -/
def Dev.legStop (d : Dev) (l : Nat) : Dev :=
  (d.setTf Pg.px (legAddr l 0) 0 0 0 0).setTf Pg.px (legAddr l 0) 0 1 1 (if d.legInflight l = 0 then 0 else 1)

/-- Identity entry of a leg. -/
def Dev.legIdentity (d : Dev) (l : Nat) (ws : List Word) : Dev :=
  let en := bit 0 (ws.getD 0 0)
  let busy := d.legEn l || d.legClosing l
  let conf := if busy then d.legConf l else fld 17 8 (ws.getD 0 0)
  if busy && !en then (if d.legEn l then d.legStop l else d)
  else if busy && d.legEn l then d
  else if !d.tb Pg.px conf 0 0 then d.pxRefuse
  else
    let x := if busy then d else d.storeUnder Pg.px (legAddr l 0) [0x3FFF8, 0x1FFFFFFF, 0x0FFFFFFF, 0] ws
    if en then Dev.withinLimits d (x.legStart l) else x

/-- Adapter entry of a leg: a lower MAX_KBPS lowers ESTIMATE, and the ceiling acts at once (R169, R170). -/
def Dev.legAdapter (d : Dev) (l : Nat) (ws : List Word) : Dev :=
  let a := legAddr l 1
  let ceil := d.legHostCeil l
  let d := d.storeUnder Pg.px a [0xFFFFFF, 0xFFFFF, 0, 0] (ranged Pg.px a [(0, 15, 9, 1, 100), (0, 23, 16, 1, 255)] ws)
  let d := d.setEstimate l (d.legEstimate l)
  if d.legHostCeil l = ceil then d else d.ceilingChanged l

/-- An encoding entry: only VALID may be written while VALID = 1. -/
def Dev.encodingWrite (d : Dev) (x : Nat) (ws : List Word) : Dev :=
  let a := encAddr x
  let v := bit 0 (ws.getD 1 0)
  if d.pxValid x then (if v then d else d.setTf Pg.px a 1 0 0 0)
  else
    let d := d.storeWs Pg.px a ws
    if v then d.setEncX x EncX.reset else d

/-- The conference of a source: that of an enabled leg that publishes it. -/
def Dev.sourceConf (d : Dev) (s : Nat) : Option Nat :=
  (d.enabledLegs.find? (fun l => d.legPublish l && d.legSource l == s)).map d.legConf

/-- Does a copy entry name a leg of another conference than its source's? -/
def Dev.wrongConf (d : Dev) (e l : Nat) : Bool :=
  match d.nodeSource (e / 64) with
  | some s => (match d.sourceConf s with | some c => d.legConf l != c | none => false)
  | none => false

/-- A copy entry. -/
def Dev.copyWrite (d : Dev) (e : Nat) (ws : List Word) : Dev :=
  let a := copyAddr e
  let v := bit 13 (ws.getD 0 0)
  let l := fld 12 0 (ws.getD 0 0)
  if d.copyValid e then (if v then d else d.setTf Pg.px a 0 13 13 0)
  else if d.wrongConf e l then d.pxRefuse
  else if v && decide (16 ≤ (d.legCopies l).length) then d.pxRefuse
  else
    let x := d.storeWs Pg.px a ws
    if v then
      (let y := Dev.withinLimits d x
       if y.copyValid e then y.startCopy e else y)
    else x

/-- Prefix of a slot of the next version, as a number of 128 bits. -/
def Dev.nextPrefix (d : Dev) (slot : Nat) : Nat := (List.range 4).foldl (fun a i => a * 2 ^ 32 + (d.tw Pg.px (0x400000 + 2 * slot) i).toNat) 0

/-- The valid slots of the next version. -/
def Dev.nextSlots (d : Dev) : List Nat :=
  d.pages.tbl.filterMap (fun y =>
    let a := y.1 / 4 % 2 ^ 24
    if y.1 / 4 / 2 ^ 24 = Pg.px.val && y.1 % 4 = 0 && 0x400000 ≤ a && a < 0x480000 && a % 2 = 1 && bit 9 y.2 then some ((a - 0x400000) / 2) else none)

/-- A valid slot has the prefix and length of another valid slot (R315). -/
def Dev.duplicateRoute (d : Dev) (slot : Nat) : Bool :=
  let key (s : Nat) : Nat × Bool × Nat :=
    let w := d.tw Pg.px (0x400000 + 2 * s + 1) 0
    (fld 7 0 w, bit 8 w, d.nextPrefix s / 2 ^ (128 - fld 7 0 w))
  hasNat d.nextSlots slot && d.nextSlots.any (fun s => s != slot && key s == key slot)

/-- A write in the next version: stored and counted, unless it would double a route (R315, R319). -/
def Dev.versionWrite (d : Dev) (a : Nat) (ws : List Word) : Dev :=
  let x := d.storeWs Pg.px a ws
  if a < 0x480000 && x.duplicateRoute ((a - 0x400000) / 2) then d.pxRefuse
  else { x with px := { x.px with changes := x.px.changes + 1 } }

/-- A policer: CIR above PIR is refused; a written one starts with both buckets full (R314). -/
def Dev.policerWrite (d : Dev) (a : Nat) (ws : List Word) : Dev :=
  if a % 2 = 0 && fld 26 0 (ws.getD 2 0) < fld 26 0 (ws.getD 0 0) then d.pxRefuse
  else (d.storeWs Pg.px a ws).setPolicer ((a - 0x4A0000) / 2) none

def Dev.pxTable (d : Dev) (a : Nat) (ws : List Word) : Dev :=
  if 0x10000 ≤ a && a < 0x18000 then
    (let l := (a - 0x10000) / 4
     if a % 4 = 0 then d.legIdentity l ws
     else if a % 4 = 1 then d.legAdapter l ws
     else if a % 4 = 2 then d.storeWs Pg.px a (ranged Pg.px a [(0, 6, 0, 4, 80), (0, 14, 8, 4, 80)] ws)
     else d)
  else if 0x20000 ≤ a && a < 0x24000 then d.encodingWrite (a - 0x20000) ws
  else if 0x100000 ≤ a && a < 0x200000 then d.copyWrite (a - 0x100000) ws
  else if 0x400000 ≤ a && a < 0x488000 then
    d.versionWrite a (if 0x480000 ≤ a && a % 2 = 0 then ranged Pg.px a [(1, 15, 0, 0, 65528)] ws
      else if a % 2 = 1 && a < 0x480000 then ranged Pg.px a [(0, 7, 0, 0, if bit 8 (ws.getD 0 0) then 128 else 32)] ws else ws)
  else if 0x4A0000 ≤ a && a < 0x4A2000 then d.policerWrite a ws
  else d.storeWs Pg.px a ws

/-! ## TM (R321, R323, R327, R329) -/

def Dev.tmRefuse (d : Dev) : Dev := d.detect Pg.tm Evt.TM_TABLE_REFUSED

/-- The enabled queues of an egress port and, on a radio port, link, but one. -/
def Dev.queuesBeside (d : Dev) (q port link : Nat) : List Nat := (d.portQueues port link).filter (fun x => x != q)

/-- A queue entry is refused (R321). -/
def Dev.queueRefused (d : Dev) (q : Nat) (ws : List Word) : Bool :=
  let w := ws.getD 0 0
  let port := fld 4 0 w
  let level := fld 7 5 w
  let link := fld 9 0 (ws.getD 3 0)
  let weight := fld 12 0 (ws.getD 1 0)
  let moved := port != d.qEgress q || level != d.qLevel q || link != d.qLink q
  let others := d.queuesBeside q port link
  4 < level || 19 < port || weight = 0 || 4096 < weight || (moved && !(d.queue q).isEmpty) ||
    (bit 11 w && (if level < 4 then others.any (fun x => d.qLevel x == level) else decide (2048 ≤ (others.filter (fun x => d.qLevel x == 4)).length)))

/-- A gate entry lies in the port's operational bank, or in its pending one (R327). -/
def Dev.gateLocked (d : Dev) (a : Nat) : Bool :=
  let g := d.gate ((a - 0x40000) / 2048)
  let b := (a - 0x40000) / 1024 % 2
  (g.oper.en && g.oper.bank == b) || (match g.pend with | some (c, _) => c.bank == b | none => false)

/-- A monitor written with EN = 1 starts anew (R329). -/
def Dev.monitorWrite (d : Dev) (a : Nat) (ws : List Word) : Dev :=
  let d := d.storeWs Pg.tm a ws
  if bit 16 (ws.getD 0 0) then d.setMon (a - 0x50000) Mon.reset else d

def Dev.tmTable (d : Dev) (a : Nat) (ws : List Word) : Dev :=
  if a < 0x20000 then
    (if a % 2 = 1 then d
     else if d.queueRefused (a / 2) ws then d.tmRefuse
     else (d.storeWs Pg.tm a ws).nameShaper (fld 13 0 (ws.getD 2 0)))
  else if a < 0x30000 then d.storeWs Pg.tm a ws
  else if a < 0x30100 then
    (if signed 7 (fld 6 0 (ws.getD 0 0)) < -32 then d.tmRefuse else (d.storeWs Pg.tm a ws).nameShaper (fld 13 0 (ws.getD 1 0)))
  else if a < 0x40000 then d.storeShadow Pg.tm a (entryRw Pg.tm a) ws
  else if a < 0x50000 then (if d.gateLocked a then d else d.storeWs Pg.tm a ws)
  else d.monitorWrite a ws

/-! ## AC (R403, R415, R428) -/

def Dev.acRefuse (d : Dev) : Dev := d.detect Pg.ac Evt.AC_TABLE_REFUSED

/-- Clear the four words of a state entry. -/
def Dev.clearEntry (d : Dev) (p : Page) (a : Nat) : Dev := (List.range 4).foldl (fun d i => d.setTw p a i 0) d

/-- A link entry holds a reserved value: HOME 3, or MCS_MAX above 11. -/
def linkReserved (ws : List Word) : Bool := fld 6 5 (ws.getD 0 0) = 3 || 11 < fld 3 0 (ws.getD 3 0)

/-- At most 512 client and 32 partner links are valid at once (R403). -/
def Dev.linksFull (d : Dev) (partner : Bool) : Bool :=
  decide ((if partner then 32 else 512) ≤ (d.validLinks.filter (fun k => d.linkPartner k == partner)).length)

/-- A link entry: only VALID may be written while VALID = 1. -/
def Dev.linkWrite (d : Dev) (k : Nat) (ws : List Word) : Dev :=
  let v := bit 0 (ws.getD 0 0)
  if d.linkValid k then (if v then d else d.setTf Pg.ac (linkA k 0) 0 0 0 0)
  else if linkReserved ws || (v && d.linksFull (bit 1 (ws.getD 0 0))) then d.acRefuse
  else
    let d := d.storeWs Pg.ac (linkA k 0) ws
    if v then (d.modLink k (fun _ => AirLink.reset)).clearEntry Pg.ac (linkA k 1) else d

/-- A sensor entry is refused: W outside 50 ms to 60 s, DRIFT_PPM outside 1–500 (R415). -/
def Dev.sensorRefused (d : Dev) (ws : List Word) : Bool :=
  let wMs := fld 14 1 (ws.getD 0 0) * d.quadMs
  let drift := fld 24 16 (ws.getD 3 0)
  wMs < 50 || 60000 < wMs || drift = 0 || 500 < drift

/-- A sensor entry: only VALID may be written while VALID = 1. -/
def Dev.sensorWrite (d : Dev) (n : Nat) (ws : List Word) : Dev :=
  let v := bit 0 (ws.getD 0 0)
  if d.sensorValid n then (if v then d else d.setTf Pg.ac (sensorA n 0) 0 0 0 0)
  else if d.sensorRefused ws then d.acRefuse
  else
    let d := d.storeWs Pg.ac (sensorA n 0) ws
    if v then (d.modSensor n (fun _ => { SensorX.reset with lastEx := d.nowNs })).clearEntry Pg.ac (sensorA n 1) else d

def Dev.acTable (d : Dev) (a : Nat) (ws : List Word) : Dev :=
  if a < 0x1000 then (if a % 4 = 0 then d.linkWrite (a / 4) ws else d)
  else if a < 0x3000 then (if a % 4 = 0 then d.sensorWrite ((a - 0x1000) / 4) ws else d)
  else if a < 0x3400 then d.storeShadow Pg.ac a (entryRw Pg.ac a) ws
  else d.storeWs Pg.ac a ws

/-! ## RB and CV (R382, R391) -/

/-- A ramp profile: one that a chain selects, and a RAMP outside 50–400, are refused. -/
def Dev.rbTable (d : Dev) (p : Page) (a : Nat) (ws : List Word) : Dev :=
  let sel := d.reg p Reg.RB_PA_RAMP_SEL
  let named := (List.range 4).any (fun c => fld (4 * c + 2) (4 * c) sel == a / 32)
  let ramp := fld 8 0 (ws.getD 0 0)
  if named || (a % 32 = 0 && (ramp < 50 || 400 < ramp)) then d.detect p Evt.RB_TABLE_REFUSED else d.storeWs p a ws

/-- A map entry names a set. -/
def Dev.setNamed (d : Dev) (set : Nat) : Bool :=
  (List.range 3).any (fun r => (List.range 5).any (fun m =>
    let w := d.tw Pg.cv (0x100 + 8 * r + m) 0
    bandHas r m && (fld 3 0 w == set || fld 11 8 w == set)))

def Dev.cvTable (d : Dev) (a : Nat) (ws : List Word) : Dev :=
  let w := ws.getD 0 0
  let refuse := d.detect Pg.cv Evt.CV_TABLE_REFUSED
  if a < 0x80 then
    (let n := fld 2 0 w
     let dd := fld 14 8 w
     if d.setNamed (a / 8) || (a % 8 = 0 && (n < 3 || 5 < n || dd < 2 || 64 < dd)) then refuse else d.storeWs Pg.cv a ws)
  else
    let dOf (s : Nat) : Nat := d.tf Pg.cv (s * 8) 0 14 8
    let m := a % 8
    if !bandHas ((a - 0x100) / 8) m || dOf (fld 3 0 w) ≠ modeD m || dOf (fld 11 8 w) ≠ modeD m then refuse else d.storeWs Pg.cv a ws

/-! ## A window write -/

/-- A write of four words to an entry (R80). An address that holds no entry changes nothing. -/
def Dev.tablePut (d : Dev) (p : Page) (a : Nat) (ws : List Word) : Dev :=
  if !tableHas p a then d
  else match kindOf p with
    | .cc => d.ccTable a ws
    | .sk => d.skTable a ws
    | .dx => d.dxTable a ws
    | .dp => d.dpTable p a ws
    | .tu => d.tuTable a ws
    | .ve => d.veTable (instOf p) a ws
    | .cp => d.cpTable p a ws
    | .am => d.amWindowWrite a ((List.range 4).map (fun i => ws.getD i 0 &&& word ((entryRw p a).getD i 0)))
    | .qm => d.qmTable a ws
    | .px => d.pxTable a ws
    | .tm => d.tmTable a ws
    | .ac => d.acTable a ws
    | .rb => d.rbTable p a ws
    | .cv => d.cvTable a ws
    | _ => d.storeWs p a ws

end Sys2Proof.Machine
end

