-- ==== Sys2Proof/Machine/RegReads.lean ====
section
/-! DEFINITION. Reads of the register space: which word a BAR0 offset reads as, and what the read itself does (R24 to R28,
R33, R36). -/

namespace Sys2Proof.Machine

/-- The MSI-X table and the pending-bit array in BAR0 (R24), for 320 vectors (R47). -/
abbrev msixTable : Nat := 0x3FF0000
abbrev msixPba : Nat := 0x3FF2000
abbrev msixVectors : Nat := 320

/-- Word i of the pending-bit array. -/
def Dev.pbaWord (d : Dev) (i : Nat) : Word := word (bitsTo 32 (fun b => hasNat d.sys.pend (32 * i + b)))

/-! ## Register pairs (R26) -/

/-- The _LO registers of the pairs that the device changes (RO, ROP or RC), with what their read latches. -/
def latchPairs : PageKind → List (Nat × List Nat)
  | .dir => [(Reg.DIR_PERM_LO, [Reg.DIR_PERM_HI]), (Reg.DIR_SITOUT_LO, [Reg.DIR_SITOUT_HI]),
      (Reg.DIR_FAULTED_LO, [Reg.DIR_FAULTED_HI]), (Reg.DIR_RAW_LO, [Reg.DIR_RAW_HI])]
  | .cc => [(Reg.CC_ENERGY_TOTAL_LO, [Reg.CC_ENERGY_TOTAL_HI])]
  | .sk => [(Reg.SK_DEVICE_SERIAL_LO, [Reg.SK_DEVICE_SERIAL_HI])]
  | .fb => [(Reg.FB_HOLE_ADDR_LO, [Reg.FB_HOLE_ADDR_HI])]
  | .tu => [(Reg.TU_RAW_LO, [Reg.TU_RAW_HI, Reg.TU_RAW_FRAC]), (Reg.TU_TIME_LO, [Reg.TU_TIME_HI]),
      (Reg.TU_OFFSET_LO, [Reg.TU_OFFSET_HI]), (Reg.TU_ANCHOR_LO, [Reg.TU_ANCHOR_HI])]
  | .dx => [(Reg.DX_PR_VA_LO, [Reg.DX_PR_VA_HI])]
  | .tm => [(Reg.TM_GCL_START_LO, [Reg.TM_GCL_START_HI])]
  | _ => []

/-- What a read of this register latches. -/
def latchedBy (k : PageKind) (off : Nat) : List Nat := ((latchPairs k).find? (fun x => x.1 == off)).elim [] Prod.snd

/-- The register is read from a latch. -/
def isLatched (k : PageKind) (off : Nat) : Bool := (latchPairs k).any (fun x => hasNat x.2 off)

/-- The latch of a register. -/
def Dev.latchOf (d : Dev) (p : Page) (off : Nat) : Word := SMap.get (fun _ => (0 : Word)) d.pages.latch (regKey p off 0)

def Dev.setLatch (d : Dev) (p : Page) (off : Nat) (w : Word) : Dev :=
  { d with pages := { d.pages with latch := SMap.set (fun _ => (0 : Word)) d.pages.latch (regKey p off 0) w } }

/-! ## Block registers -/

/-- The word of a block register as it stands now: shadows for RWS fields, status formed at the read, no WO or W1S field. -/
def Dev.shown (d : Dev) (p : Page) (r : RegDesc) : Word :=
  let w := d.view p r.off (d.reg p r.off (d.bankOf p r))
  ((w &&& ~~~ rwsMask r) ||| (d.shadow p r.off &&& rwsMask r)) &&& readMask r

/-- What a pop of a queue register gives, without its appearance on the bus. -/
def Dev.popWord (d : Dev) (f : Dev → Dev) : Dev × Word :=
  let e := f d
  ({ e with out := d.out, readData := d.readData }, e.readData)

/-- The pop that a read of a register is, if any. -/
def popOf (p : Page) (off : Nat) : Option (Dev → Dev) :=
  let n := instOf p
  match kindOf p with
  | .tu => if off = Reg.TU_TXTS_POP then some Dev.txtsPop else none
  | .dx => if off = Reg.DX_PR_POP then some Dev.prPop else none
  | .ve => if off = Reg.VE_REF_MISS then some (fun d => d.refMissPop n) else none
  | .cp => if off = Reg.CP_STALE_POP then some (fun d => d.stalePop n) else if off = Reg.CP_SIG_POP then some (fun d => d.sigPop n) else none
  | .ac => if off = Reg.AC_LOST_POP then some Dev.lostPop else none
  | _ => none

/-- Latch the other parts of a pair at the moment of the read (R26). -/
def Dev.latchPair (d : Dev) (p : Page) (off : Nat) : Dev :=
  (latchedBy (kindOf p) off).foldl (fun x o => match blockReg (kindOf p) o with
    | some r => x.setLatch p o (d.shown p r)
    | none => x) d

/-- RC fields clear when they are read. -/
def Dev.clearRead (d : Dev) (p : Page) (r : RegDesc) : Dev :=
  if rcMask r = 0 then d
  else
    let i := d.bankOf p r
    d.setReg p r.off (d.reg p r.off i &&& ~~~ rcMask r) i

/-- Read of a block register. -/
def Dev.blockRead (d : Dev) (p : Page) (r : RegDesc) : Dev × Word :=
  match popOf p r.off with
  | some f => d.popWord f
  | none =>
    if isLatched (kindOf p) r.off then (d, d.latchOf p r.off)
    else
      let free := !(measuredFields (kindOf p) r.off).isEmpty
      let w := if free then measuredWord (kindOf p) r.off d.fresh (d.shown p r) else d.shown p r
      let e := (d.latchPair p r.off).clearRead p r
      (if free then e.drawn else e, w)

/-! ## Pages -/

/-- The number of a table-window register: 0 ADDR, 1–4 DATA0–3, 5 CMD (Table 23.4). -/
def windowReg (k : PageKind) (off : Nat) : Option Nat :=
  match windowBase k with
  | some b => if b ≤ off && off ≤ b + 0x14 then some ((off - b) / 4) else none
  | none => none

/-- Is this a manufacturing register (R529)? -/
def isMfg (k : PageKind) (off : Nat) : Bool :=
  match mfgRange k with
  | some (a, b) => a ≤ off && off ≤ b
  | none => false

/-- Read of a page. A window's CMD never reads BUSY, since its operations end at once; what its command bits read the spec leaves
open. -/
def Dev.pageRead (d : Dev) (p : Page) (off : Nat) : Dev × Word :=
  let k := kindOf p
  if k ≠ .dir && off < 0x30 then
    (if off = 0x024 then d.popWord (fun d => d.histPop p) else (d, d.headerWord p off))
  else if isMfg k off then
    (d, if d.lifecycle = 0 then Config.mfgRead (p.val * 0x1000 + off) (d.reg p off) else 0)
  else match windowReg k off with
    | some 5 => (d.drawn, word (Config.freeNat d.fresh % 8))
    | some _ => (d, d.reg p off)
    | none => match blockReg k off with
      | some r => d.blockRead p r
      | none => (d, 0)

/-- Read of the word that holds a BAR0 offset; an offset that holds no register reads 0 (R25, R27). -/
def Dev.regRead (d : Dev) (off : Nat) : Dev × Word :=
  let o := off / 4 * 4
  if msixTable ≤ o && o < msixTable + 16 * msixVectors then (d, SMap.get msixReset d.sys.msix (o - msixTable))
  else if msixPba ≤ o && o < msixPba + msixVectors / 8 then (d, d.pbaWord ((o - msixPba) / 4))
  else match pageOf o with
    | some p => d.pageRead p (o % 0x1000)
    | none => (d, 0)

end Sys2Proof.Machine
end

