-- ==== Sys2Proof/Machine/RegWrites.lean ====
section
/-! DEFINITION. Writes of the register space: the page header, table windows, shadowed, persistent and command registers
(R25 to R48, R109, R484, R529, and the register tables). -/

namespace Sys2Proof.Machine

/-- A register write asks for an effect on the whole block. -/
def Dev.ask (d : Dev) (a : Ask) : Dev := { d with asks := d.asks ++ [a] }

/-! ## The page header (Tables 2.5 to 2.12) -/

/-- PAGE_CTRL, in the order of R30. -/
def Dev.ctrlWrite (d : Dev) (p : Page) (v : Word) : Dev :=
  let at_ : BitVec 2 := v.extractLsb' 9 2
  let d := d.modHdr p (fun h => { h with commitAt := at_ })
  let d := if bit 0 v then (d.enablePage p).modHdr p (fun h => if d.enableIgnored p || 1 < fld 2 1 v then h else { h with drainReturn := bit 1 v })
    else d.disablePage p (fld 2 1 v)
  let d := if bit 11 v then d.withdrawBow p else d
  let d := if bit 8 v then d.commitAsk p at_ else d
  if bit 3 v then d.askReset p else d

/-- A write of a header register. PAGE_ID, PAGE_VER, PAGE_STATE and HIST_READ take none. -/
def Dev.headerWrite (d : Dev) (p : Page) (off : Nat) (v : Word) : Dev :=
  if off = 0x008 then d.ctrlWrite p v
  else if off = 0x010 then d.evtRawClear p v
  else if off = 0x014 then d.evtEnWrite p v
  else if off = 0x018 then (List.range 32).foldl (fun d n => if bit n v then d.evtForce p n else d) d
  else if off = 0x01C then d.modHdr p (fun h => { h with sevLo := v })
  else if off = 0x020 then d.modHdr p (fun h => { h with sevHi := v })
  else if off = 0x028 then d.modHdr p (fun h => { h with limit := fld 7 0 v, windowMs := max 1 (fld 23 8 v) })
  else if off = 0x02C then
    (if (kindOf p).selfTimed then d.setReqVp p (Fin.ofNat 8 (fld 2 0 v))
     else if bit 2 v then d.modHdr p (fun h => { h with unlockSeen := false }) else d)
  else d

/-! ## Table windows (R80, R531) -/

/-- A read through the window places the entry in DATA0–3. -/
def Dev.windowRead (d : Dev) (p : Page) (base a : Nat) (active : Bool) : Dev :=
  (List.range 4).foldl (fun x i => match d.tableWord p a i active with
    | some w => x.setReg p (base + 4 + 4 * i) w
    | none => x.drawn.setReg p (base + 4 + 4 * i) (word (Config.freeNat x.fresh))) d

/-- A write of a window register; CMD runs the operation. -/
def Dev.windowWrite (d : Dev) (p : Page) (base i : Nat) (v : Word) : Dev :=
  if i = 0 then d.setReg p base (word (v.toNat % 2 ^ windowAddrBits (kindOf p)))
  else if i < 5 then d.setReg p (base + 4 * i) v
  else
    let a := (d.reg p base).toNat
    if fld 1 0 v = 1 then d.windowRead p base a (bit 2 v)
    else if fld 1 0 v = 2 then d.tablePut p a ((List.range 4).map (fun j => d.reg p (base + 4 + 4 * j)))
    else d

/-! ## Registers with effects of their own -/

/-- Retirement records act bit by bit: 0 on a set bit, 1 on a clear one (R484, R485). -/
def Dev.recordWrite (d : Dev) (p : Page) (v : Word) : Dev :=
  (List.range (recordBits (kindOf p))).foldl (fun d u =>
    if (d.records p).testBit u then (if bit u v then d else d.recordClear p u)
    else if bit u v then d.recordSet p u else d) d

/-- The plain store of RW and W1C fields. -/
def Dev.store (d : Dev) (p : Page) (r : RegDesc) (v : Word) : Dev :=
  let i := d.bankOf p r
  d.setReg p r.off (storeWord r (regKey p r.off i) (fun a => a == .rw) (d.reg p r.off i) v) i

/-- GO of SK_CMD. An OP that Table 19.5 does not list ends with a STATUS that is left open. -/
def Dev.skGo (d : Dev) (op : Nat) : Dev :=
  match op with
  | 1 => d.stageImage true
  | 2 => d.confirmImage
  | 3 => d.attestReport
  | 4 => d.extendHost
  | 5 => d.wrapKey
  | 6 => d.drawChallenge
  | 7 => d.ask .unlock
  | 8 => d.closeGate
  | 9 => d.returnPart
  | _ => if d.skTakes then d.drawn.skEnd op (Config.freeNat d.fresh % 16) else d

/-- TU_STEP_CTRL. -/
def Dev.stepCtrl (d : Dev) (r : RegDesc) (v : Word) : Dev :=
  let d := d.store Pg.tu r v
  let d := { d with tu := { d.tu with slewPpm := d.rf Pg.tu Reg.TU_STEP_CTRL 14 8 } }
  let d := if bit 0 v then d.setArmed true else d
  if bit 1 v then d.setArmed false else d

/-- DSn_KERNEL_CMD: OP 1 loads, OP 2 unloads. -/
def Dev.kernelCmd (d : Dev) (c : Nat) (v : Word) : Dev :=
  if !bit 16 v then d else if fld 9 8 v = 1 then d.kernelLoad c else if fld 9 8 v = 2 then d.kernelUnload c else d

/-- AC_QUAD_CFG is stored only while the AC page is OFF (R392). -/
def Dev.acWhileOff (d : Dev) (f : Dev → Dev) : Dev := if (d.hdr Pg.ac).state = .off then f d else d.acRefuse

/-- A write of AC_SLEEPY_CFG or AC_CFG that breaks R421 under the active layout is not stored. -/
def Dev.acFits (d : Dev) (r : RegDesc) (v : Word) : Dev :=
  let e := d.store Pg.ac r v
  let lay := e.reg Pg.ac (Reg.AC_LAYOUT_A + 4 * e.sensorRadio)
  if e.sleepyFits (e.rb Pg.ac Reg.AC_CFG 6) (e.rf Pg.ac Reg.AC_SLEEPY_CFG 5 0) (fld 25 16 lay) then e else d.acRefuse

/-- Registers of CC, SK, FB and TU with effects of their own. -/
def Dev.coreEffect (d : Dev) (p : Page) (r : RegDesc) (v : Word) : Option Dev :=
  match kindOf p with
  | .cc =>
    if r.off = Reg.CC_RESET_CTRL then some (d.ask (.reset v))
    else if r.off = Reg.CC_WDOG_KICK then some (d.kick v)
    else if r.off = Reg.CC_BUDGET_SCALE then some (d.budgetScale v)
    else if r.off = Reg.CC_GPIO_OUT then some ((d.store p r v).driveGpio)
    else none
  | .sk =>
    if r.off = Reg.SK_CMD then some (let d := d.store p r v; if bit 4 v then d.skGo (fld 3 0 v) else d)
    else if r.off = Reg.SK_DEBUG_LOCK then some (d.debugLock v)
    else none
  | .fb =>
    if r.off = Reg.FB_DX_PART then some (d.ask (.part 0 v))
    else if r.off = Reg.FB_VE_PART then some (d.ask (.part 1 v))
    else if r.off = Reg.FB_CP_PART then some (d.ask (.part 2 v))
    else if r.off = Reg.FB_SHARED_PART then some (d.ask (.shared v))
    else none
  | .tu =>
    if r.off = Reg.TU_INC_HI then some (d.tuIncWrite v)
    else if r.off = Reg.TU_RATE_HI then some (d.tuRateWrite true v)
    else if r.off = Reg.TU_ADJ_HI then some (d.tuAdjWrite true v)
    else if r.off = Reg.TU_STEP_CTRL then some (d.stepCtrl r v)
    else none
  | _ => none

/-- Registers of DX, the memory controllers and PHYs, and the cipher engines with effects of their own. -/
def Dev.engineEffect (d : Dev) (p : Page) (r : RegDesc) (v : Word) : Option Dev :=
  let n := instOf p
  match kindOf p with
  | .dx =>
    if r.off = Reg.DX_INV_CTRL then some (d.invalidate v)
    else if r.off = Reg.DX_PR_RESP then some (d.resolve (fld 8 0 v) (bit 16 v) (fun _ => true))
    else if r.off = Reg.DX_REQ_LINE_EN then some (d.lineEnWrite v)
    else if Reg.DX_LEDGER_A_LO ≤ r.off && r.off ≤ Reg.DX_LEDGER_CFG then some (d.ledgerCfgWrite ((r.off - Reg.DX_LEDGER_A_LO) / 4) v)
    else none
  | .mc => if r.off = Reg.MC_FREQ_CTRL then some (let d := d.store p r v; if bit 4 v then d.freqGo n else d) else none
  | .dp => if r.off = Reg.DP_TRAIN_CTRL then some (let d := d.store p r v; if bit 0 v then d.trainGo n else d) else none
  | .ds =>
    if r.off = Reg.DS_KERNEL_CMD then some ((d.store p r v).kernelCmd n v)
    else if r.off = Reg.DS_LMEM_CFG then some (if (d.ds n).kernels.isEmpty then d.store p r v else d)
    else none
  | .ce =>
    if r.off = Reg.CE_LOCK then some (d.lockWrite n (fld 1 0 v))
    else if r.off = Reg.CE_KEY_CMD then some (let d := d.store p r v; if bit 8 v then d.keyErase (fld 7 0 v) else d)
    else none
  | _ => none

/-- Registers of the frame path and the radios with effects of their own. -/
def Dev.frameEffect (d : Dev) (p : Page) (r : RegDesc) (v : Word) : Option Dev :=
  match kindOf p with
  | .qm =>
    if r.off = Reg.QM_FLUSH then some (let d := d.store p r v; if bit 16 v then d.flushStart (fld 15 0 v) else d)
    else if r.off = Reg.QM_CFG then some (if (d.hdr p).state = .off then d.store p r v else d)
    else none
  | .px =>
    if r.off = Reg.PX_RT_CTRL then some (if bit 0 v then d.swap else d)
    else if r.off = Reg.PX_ENERGY_CEIL then
      some (let d := d.store p r v; d.enabledLegs.foldl (fun d l => d.ceilingChanged l) d)
    else none
  | .cv => if r.off = Reg.CV_CAL_CTRL then some (d.calGo v) else none
  | .ac =>
    if r.off = Reg.AC_QUAD_CFG then some (d.acWhileOff (fun d => d.store p r v))
    else if r.off = Reg.AC_SLEEPY_CFG || r.off = Reg.AC_CFG then some (d.acFits r v)
    else none
  | _ => none

/-- The effect of a register that has one of its own. -/
def Dev.ownEffect (d : Dev) (p : Page) (r : RegDesc) (v : Word) : Option Dev :=
  ((d.coreEffect p r v).orElse (fun _ => d.engineEffect p r v)).orElse (fun _ => d.frameEffect p r v)

/-! ## Block registers -/

/-- A write to an RWS register changes its shadow, or is locked out while a bow is pending (R34, R37). -/
def Dev.shadowWrite (d : Dev) (p : Page) (r : RegDesc) (v : Word) : Dev :=
  if (d.hdr p).commitPending then d.shadowLocked p
  else d.setShadow p r.off (storeWord r (regKey p r.off 0) (fun a => a == .rws) (d.shadow p r.off) v)

/-- A write to an RWP register reaches PS with its value by the field rules (R40). AC_COUNTRY may be written only while the AC
page is OFF (R411). -/
def Dev.persistWrite (d : Dev) (p : Page) (r : RegDesc) (v : Word) : Dev :=
  let w := storeWord r (regKey p r.off 0) (fun a => a == .rwp) (d.reg p r.off) v
  if p = Pg.ac && r.off = Reg.AC_COUNTRY then d.acWhileOff (fun d => d.psWrite p r.off w) else d.psWrite p r.off w

/-- A write to a block register by its access codes; RO and ROP registers discard it. -/
def Dev.blockWrite (d : Dev) (p : Page) (r : RegDesc) (v : Word) : Dev :=
  if recordOff (kindOf p) = some r.off then d.recordWrite p v
  else match d.ownEffect p r v with
    | some e => e
    | none =>
      if hasAcc r .rws then d.shadowWrite p r v
      else if hasAcc r .rwp then d.persistWrite p r v
      else d.store p r v

/-- A write that reaches no register (R27). -/
def Dev.holeWrite (d : Dev) : Dev := d.detect Pg.hb Evt.HB_REG_HOLE

/-- A write of a page. -/
def Dev.pageWrite (d : Dev) (p : Page) (off : Nat) (v : Word) : Dev :=
  let k := kindOf p
  if k ≠ .dir && off < 0x30 then d.headerWrite p off v
  else if isMfg k off then (if d.lifecycle = 0 then d.setReg p off v else d)
  else match windowReg k off with
    | some i => d.windowWrite p ((windowBase k).getD 0) i v
    | none => match blockReg k off with
      | some r => d.blockWrite p r v
      | none => d.holeWrite

/-- A write of the word at a BAR0 offset, all byte enables set. Unmasking a vector sends what is pending on it. -/
def Dev.regWrite (d : Dev) (off : Nat) (v : Word) : Dev :=
  if msixTable ≤ off && off < msixTable + 16 * msixVectors then
    { d with sys := { d.sys with msix := SMap.set msixReset d.sys.msix (off - msixTable) v } }.sendPending
  else if msixPba ≤ off && off < msixPba + msixVectors / 8 then d
  else match pageOf off with
    | some p => d.pageWrite p (off % 0x1000) v
    | none => d.holeWrite

/-- A write whose byte enables are not all set, or that is not aligned, is discarded (R25). -/
def Dev.partWrite (d : Dev) : Dev := d.detect Pg.hb Evt.HB_REG_WIDTH

end Sys2Proof.Machine
end

