-- ==== Sys2Proof/Machine/Bus.lean ====
section
/-! DEFINITION. Accesses to the register space: those that a page held by PS keeps waiting, those of DX, and what a register
write asks of the whole block (R25, R28, R40, R41, R498). -/

namespace Sys2Proof.Machine

/-! ## Holding (R40, R41) -/

/-- Does a write to this offset reach PS? -/
def reachesPs (off : Nat) : Bool :=
  match pageOf off with
  | some p =>
    (match blockReg (kindOf p) (off % 0x1000) with
      | some r => hasAcc r .rwp && recordOff (kindOf p) != some (off % 0x1000)
      | none => false)
  | none => false

def Access.off : Access → Nat
  | .write o _ => o.toNat
  | .read o _ => o.toNat

/-- An access waits for a place at PS and holds up everything behind it (R41). -/
def Dev.plugs (d : Dev) (a : Access) : Bool :=
  match a with
  | .write o _ => reachesPs o.toNat && (match pageOf o.toNat with | some p => !d.pageHeld p | none => false)
  | .read _ _ => false

/-- An access waits: its page is held or has accesses waiting, the bus is plugged, or PS has no place for it. -/
def Dev.waits (d : Dev) (a : Access) : Bool :=
  (match pageOf a.off with | some p => d.pageHeld p | none => false) ||
    d.pages.waiting.any (fun b => b.off / 0x1000 == a.off / 0x1000 || d.plugs b) ||
    (match a with | .write o _ => reachesPs o.toNat && d.psFull | .read _ _ => false)

/-- A read's data goes where it was asked for. -/
def Dev.reply (d : Dev) (via : Via) (w : Word) : Dev :=
  match via with
  | .host => d.answer w
  | .smb => d.emit (.smb (bytesLE 4 w.toNat))
  | .tap => d.emit (.jtag w.toNat)

/-- Serve an access. -/
def Dev.serve (d : Dev) (a : Access) : Dev :=
  match a with
  | .write o v => d.regWrite o.toNat v
  | .read o via => let x := d.regRead o.toNat; x.1.reply via x.2

/-- Serve an access, or keep it waiting. -/
def Dev.access (d : Dev) (a : Access) : Dev :=
  if d.waits a then { d with pages := { d.pages with waiting := d.pages.waiting ++ [a] } } else d.serve a

/-- The accesses that wait are tried again in their order. -/
def Dev.replay (d : Dev) : Dev := d.pages.waiting.foldl Dev.access { d with pages := { d.pages with waiting := [] } }

/-! ## The host's bus -/

/-- A write from the bus. During a warm or watchdog reset PH discards it (R498). -/
def Dev.busWrite (d : Dev) (off : Bar0) (be : BitVec 4) (v : Word) : Dev :=
  if !d.sys.pwrgood || d.sys.inReset then d
  else if be ≠ 0xF || off.toNat % 4 ≠ 0 then d.partWrite
  else d.access (.write off v)

/-- A read from the bus. During a warm or watchdog reset PH answers all-ones (R498). -/
def Dev.busRead (d : Dev) (off : Bar0) : Dev :=
  if !d.sys.pwrgood then d
  else if d.sys.inReset then d.answer 0xFFFFFFFF
  else d.access (.read off .host)

/-! ## Beats of DX (R28) -/

/-- First address of the register space (R13). -/
abbrev regSpace : Nat := 0x8000000000

/-- The words that a byte range touches. -/
def wordsOf (pa len : Nat) : List Nat := if len = 0 then [] else (List.range ((pa + len - 1) / 4 - pa / 4 + 1)).map (fun i => pa / 4 + i)

/-- Bytes written to register space: whole words are stored, parts of words discarded with REG_WIDTH, lowest first. -/
def Dev.regStore (d : Dev) (pa : Nat) (bs : List Byte) : Dev :=
  (wordsOf pa bs.length).foldl (fun d w =>
    if pa ≤ 4 * w && 4 * w + 4 ≤ pa + bs.length then d.regWrite (4 * w - regSpace) (word (fieldLE bs (4 * w - pa) 4)) else d.partWrite) d

/-- Bytes read from register space: each word is read once and gives the lanes asked for. -/
def Dev.regLoad (d : Dev) (pa len : Nat) : Dev × List Byte :=
  let x := (wordsOf pa len).foldl (fun (y : Dev × List Byte) w =>
    let r := y.1.regRead (4 * w - regSpace)
    (r.1, y.2 ++ bytesLE 4 r.2.toNat)) (d, [])
  (x.1, slice x.2 (pa % 4) len)

/-! ## What a register write asks of the whole block -/

/-- An effect on the tags or the whole block. -/
def State.grant (s : State) (a : Ask) : State :=
  match a with
  | .part w v => s.partWrite w v
  | .shared v => s.sharedWrite v
  | .reset v => s.resetCtrl v
  | .unlock => s.unlock none
  | .regs pa bs => { s with dev := s.dev.regStore pa bs }

/-- The effects asked for are granted in order. -/
def State.drain (s : State) : State := s.dev.asks.foldl State.grant { s with dev := { s.dev with asks := [] } }

/-- Grant what a command has asked for, and what bytes that DX writes to registers ask for in turn. -/
def State.settle (s : State) : State := s.drain.drain

/-- A meaning that changes the device and may ask for effects on the whole block. -/
def State.onBus (s : State) (f : Dev → Dev) : Host.Outcome State Fault Refusal := .next ({ s with dev := f s.dev } : State).settle

/-! ## Commands -/

/-- REGISTER_WRITE (R25, R27). -/
def execRegisterWrite (off : Bar0) (be : BitVec 4) (v : Word) (s : State) : Host.Outcome State Fault Refusal := s.onBus (·.busWrite off be v)
/-- PAIR_LO_READ (R26). -/
def execPairLoRead (off : Bar0) (s : State) : Host.Outcome State Fault Refusal := s.onBus (·.busRead off)
/-- RWS_WRITE (R34). -/
def execRwsWrite (off : Bar0) (v : Word) (s : State) : Host.Outcome State Fault Refusal := s.onBus (·.busWrite off 0xF v)
/-- HB_WIN_BASE_WRITE (R29). -/
def execHbWinBaseWrite (v : Word) (s : State) : Host.Outcome State Fault Refusal := s.onBus (·.busWrite 0x4100 0xF v)
/-- RWP_WRITE (R40). -/
def execRwpWrite (off : Bar0) (v : Word) (s : State) : Host.Outcome State Fault Refusal := s.onBus (·.busWrite off 0xF v)
/-- RC_READ (R36). -/
def execRcRead (off : Bar0) (s : State) : Host.Outcome State Fault Refusal := s.onBus (·.busRead off)

/-- The BAR0 offset of the CMD register of a page's window. -/
def windowCmd (p : Page) : Option Bar0 := (windowBase (kindOf p)).map (fun b => BitVec.ofNat 26 (p.val * 0x1000 + b + 0x14))

/-- A write of a window's CMD; a page without a window has none. -/
def Dev.windowGo (d : Dev) (p : Page) (v : Word) : Dev :=
  match windowCmd p with
  | some o => d.busWrite o 0xF v
  | none => d

/-- TABLE_READ (R80). -/
def execTableRead (p : Page) (active : Bool) (s : State) : Host.Outcome State Fault Refusal :=
  s.onBus (·.windowGo p (word (1 + 4 * active.toNat)))
/-- TABLE_WRITE (R80). -/
def execTableWrite (p : Page) (s : State) : Host.Outcome State Fault Refusal := s.onBus (·.windowGo p 2)

end Sys2Proof.Machine
end

