-- ==== Sys2Proof/Machine/DmaItems.lean ====
section
/-! DEFINITION. Whole DMA items and the responses of their beats, which may read and write registers (R28, R146 to R148). -/

namespace Sys2Proof.Machine

/-- A beat's response: what memory, or the register space, and the response say (R147, R28). -/
def Dev.beatAnswer (d : Dev) (n : Nat) (x : BitVec 512) (b : DmaBeat) (reply : BeatReply) : Dev :=
  let d := d.modChan n (fun c => { c with out := c.out.filter (fun o => !(o.dst == b.dst && o.idx == b.idx)) })
  let bad (d : Dev) (cause : Nat) : Dev := d.modChan n (fun c => c.failed (some b.idx) b.dst cause b.va)
  match reply with
  | .addressError => bad d Cause.ADDR_ERROR
  | .otherError => bad d Cause.RESP_ERROR
  | .ok =>
    if b.dst then
      if targetOf b.pa = .regs then (d.regStore b.pa b.bytes).beatOk n x b b.bytes
      else match d.physWrite b.pa b.bytes (some n) with
      | (d, .ok) => d.beatOk n x b b.bytes
      | (d, r) => bad d r.cause
    else
      if targetOf b.pa = .regs then
        (let r := d.regLoad b.pa b.len
         r.1.beatOk n x b r.2)
      else match d.physRead b.pa b.len (some n) with
      | (d, .ok, bs) => d.beatOk n x b bs
      | (d, r, _) => bad d r.cause

/-- BEAT_RESPONSE: a beat's response returns to its channel (R147). -/
def Dev.beatResponse (d : Dev) (n : Nat) (dst : Bool) (idx : Nat) (reply : BeatReply) : Dev :=
  match d.chanItem n, (d.chan n).out.find? (fun b => b.dst == dst && b.idx == idx) with
  | some i, some b => (d.beatAnswer n i.desc b reply).dmaSettle n
  | _, _ => d

/-! ## Whole items -/

/-- Issue and answer a channel's beats one after another while it has any. -/
def Dev.runBeats (d : Dev) (n : Nat) : Nat → Dev
  | 0 => d
  | f + 1 =>
    match d.chanItem n with
    | none => d
    | some i =>
      let (e, ok) := d.tryIssue false n
      if !ok then e
      else match (e.chan n).out.getLast? with
        | some b => (e.beatAnswer n i.desc b .ok).runBeats n f
        | none => e

/-- The beats a whole item has. -/
def itemBeats (x : BitVec 512) : Nat := srcBeats x + dstBeats x + 1

/-- COPY and FILL of one item: STARTED is recorded first, and then every beat moves. -/
def Dev.runItem (d : Dev) (n s op : Nat) : Dev :=
  if !d.up Pg.dx then d
  else
    let d := d.dmaTake n
    match d.chanItem n with
    | some i => if i.seq = s && opOf i.desc = op then (d.runBeats n (itemBeats i.desc)).dmaSettle n else d
    | none => d

/-- A burst of a peripheral line, whole, or with `ov` beats issued after the line was withdrawn. -/
def Dev.runBurst (d : Dev) (n : Nat) (x : BitVec 512) (data : List Byte) (ov : Option Nat) : Dev :=
  let line := reqLine x
  let d := { d with dx := { d.dx with lineData := SMap.set (fun _ => []) d.dx.lineData line (SMap.get (fun _ => []) d.dx.lineData line ++ data) } }
  if !waitsLine x (d.chan n) || !lineServes line (opOf x) || !d.rb Pg.dx Reg.DX_REQ_LINE_EN line then d
  else
    let d := d.startBurst n x
    match ov with
    | none => d.runBeats n (d.chan n).burst
    | some k => ((d.runBeats n ((d.chan n).burst - k)).withdraw line).runBeats n k

/-- The bursts of an item in order; the withdrawal falls into the last. -/
def Dev.runBursts (d : Dev) (n : Nat) (x : BitVec 512) (ov : Option Nat) : List (List Byte) → Dev
  | [] => if ov.isSome then d.withdraw (reqLine x) else d
  | [b] => d.runBurst n x b ov
  | b :: bs => (d.runBurst n x b none).runBursts n x ov bs

/-- PERIPH_IN and PERIPH_OUT of one item. -/
def Dev.runPeriph (d : Dev) (n s op : Nat) (bursts : List (List Byte)) (ov : Option Nat) : Dev :=
  if !d.up Pg.dx then d
  else
    let d := d.dmaTake n
    match d.chanItem n with
    | some i => if i.seq = s && opOf i.desc = op then (d.runBursts n i.desc ov bursts).dmaSettle n else d
    | none => d

/-! ## Commands -/

/-- COPY (R146). -/
def execCopy (ring : RingNo) (seq : Nat) (s : State) : Host.Outcome State Fault Refusal := s.onBus (·.runItem ring.val seq 0)
/-- FILL (R146). -/
def execFill (ring : RingNo) (seq : Nat) (s : State) : Host.Outcome State Fault Refusal := s.onBus (·.runItem ring.val seq 1)
/-- PERIPH_IN (R148). -/
def execPeriphIn (ring : RingNo) (seq : Nat) (bursts : List (List Byte)) (overrun : Option Nat) (s : State) :
    Host.Outcome State Fault Refusal := s.onBus (·.runPeriph ring.val seq 2 bursts overrun)
/-- PERIPH_OUT (R148). -/
def execPeriphOut (ring : RingNo) (seq : Nat) (bursts : Nat) (overrun : Option Nat) (s : State) : Host.Outcome State Fault Refusal :=
  s.onBus (·.runPeriph ring.val seq 3 (List.replicate bursts []) overrun)
/-- BEAT_RESPONSE (R147). -/
def execBeatResponse (ch : RingNo) (dst : Bool) (beat : Nat) (reply : BeatReply) (s : State) : Host.Outcome State Fault Refusal :=
  s.onBus (·.beatResponse ch.val dst beat reply)
/-- BEAT_ISSUE (R144). -/
def execBeatIssue (s : State) : Host.Outcome State Fault Refusal := s.onBus (·.beatIssue)
/-- COMPLETION_WRITE (R91). -/
def execCompletionWrite (ring : RingNo) (s : State) : Host.Outcome State Fault Refusal := s.onBus (·.completionWrite ring.val)

end Sys2Proof.Machine
end

