-- ==== Sys2Proof/Machine/Persist.lean ====
section
/-! DEFINITION. PS finishes its writes: what follows a committed word, and the timed commit of counters (R40 to R46, R119,
R477, R484). -/

namespace Sys2Proof.Machine

/-! ## What follows a new value -/

/-- The words that the budgets follow (R64, R65). -/
def budgetWords : List Nat :=
  [Reg.CC_BUDGET_SHORT, Reg.CC_BUDGET_LONG, Reg.CC_BUDGET_FLOOR, Reg.CC_LEDGER_CFG, Reg.CC_BATT_POLICY]

/-- The ports of an EP page take a new mode or lane map: those that exist no more, or whose mode changed, lose link (R308,
R311). -/
def Dev.portsRemade (d : Dev) (p : Page) (old : Dev) : Dev :=
  (List.range 4).foldl (fun d s =>
    let n := 4 * instOf p + s
    if old.portMode n ≠ d.portMode n || !d.portExists n || d.laneDown n then d.linkDown n else d) d

/-- The owning unit takes up a new value of a persistent word (R40); `old` is the block before it. -/
def Dev.takesUp (d old : Dev) (p : Page) (off : Nat) : Dev :=
  match kindOf p with
  | .cc =>
    if hasNat budgetWords off then d.budgetWord old.targetS old.targetL
    else if off = Reg.CC_GPIO_DIR then d.driveGpio else d
  | .tu => if off = Reg.TU_REF_SEL then d.sourceWritten d.tuSource else d
  | .ep => if off = Reg.EP_PORT_MODE || off = Reg.EP_LANE_MAP then d.portsRemade p old else d
  | _ => d

/-- A queued write is done. Bits of a retirement record that it set take their units out even where the word is read-only;
bits that it cleared count only once stored. -/
def Dev.finishPs (d : Dev) (w : PsWrite) (rb : ReadBack) : Dev :=
  match pageOf w.off with
  | none => d
  | some p =>
    let off := w.off % 0x1000
    let (e, changed) := d.commitWord w.off w.v rb
    if w.record then e.recordDone p (d.reg p off) (e.reg p off ||| (w.v &&& ~~~ d.reg p off))
    else if changed then e.takesUp d p off else e

/-- PERSISTENT_WRITE_DONE: the write in progress ends, its page is released, and what waited goes on. -/
def Dev.persistDone (d : Dev) (rb : ReadBack) : Dev :=
  match d.ps.queue with
  | [] => d
  | w :: ws => (({ d with ps := { d.ps with queue := ws } }).finishPs w rb).replay

/-- RETIRE_RECORD_COMMIT: the record in progress, if it sets this bit, is stored with both copies equal (R119). -/
def Dev.recordCommitted (d : Dev) (p : Page) (u : Nat) : Dev :=
  match d.ps.queue, recordAt p u with
  | w :: _, some off => if w.record && w.off == p.val * 0x1000 + off && w.v.getLsbD u then d.persistDone .equal else d
  | _, _ => d

/-- Milliseconds between two timed commits (R44). -/
abbrev commitEvery : Nat := 60000

/-- ROP_COMMIT: at most once per 60 s. -/
def Dev.timedCommit (d : Dev) : Dev :=
  let ms := d.nowNs / 1000000
  if ms < d.ps.lastCommitMs + commitEvery then d
  else { d with ps := { d.ps with lastCommitMs := ms } }.commitRop

/-! ## Commands -/

/-- PERSISTENT_WRITE_DONE (R40). -/
def execPersistentWriteDone (rb : ReadBack) (s : State) : Host.Outcome State Fault Refusal := s.onBus (·.persistDone rb)
/-- ROP_COMMIT (R44). -/
def execRopCommit (s : State) : Host.Outcome State Fault Refusal := s.on (·.timedCommit)
/-- RETIRE_RECORD_COMMIT (R119). -/
def execRetireRecordCommit (p : Page) (bit : Fin 9) (s : State) : Host.Outcome State Fault Refusal := s.onBus (·.recordCommitted p bit.val)

end Sys2Proof.Machine
end

