-- ==== Sys2Proof/Machine/Flags.lean ====
section
/-! DEFINITION. Levels and flags that the block computes from its state and shows on its balls: network ready, the
SMBus STATUS byte and SMB_ALERT_N (R492, R520). FAULT_N is Dev.faultLow of Machine/Faults.lean. -/

namespace Sys2Proof.Machine

/-! ## Network ready (R492) -/

/-- Every subport of an EP that its mode makes a port has link, and MG has link. -/
def Dev.portsLinked (d : Dev) : Bool :=
  (List.range 16).all (fun n => !d.portExists n || d.rb (epPage n) Reg.EP_LINK_STAT (n % 4)) && d.rb Pg.mg Reg.MG_STAT 0

/-- AC has sent a caller on every radio that AC_RADIO_EN enables. -/
def Dev.allCalled (d : Dev) : Bool := (List.range 3).all (fun r => !d.radioEn r || d.air.called.getLsbD r)

/-- The device is network ready. -/
def Dev.netReady (d : Dev) : Bool :=
  d.rf Pg.cc Reg.CC_BOOT_STAT 2 0 == 5 && d.portsLinked && (d.hdr Pg.px).state.serves && d.allCalled

/-! ## SMBus (R520, Table 22.13) -/

/-- The byte that STATUS reads. -/
def Dev.smbStatusByte (d : Dev) : Byte :=
  BitVec.ofNat 8 (d.faultLow.toNat + d.en.tripped.toNat * 2 + d.netReady.toNat * 4 + d.fwRuns.toNat * 8 + d.sys.smb.bufReady.toNat * 16)

/-- The level of SMB_ALERT_N: true when driven low. -/
def Dev.smbAlert (d : Dev) : Bool := d.faultLow || d.sys.smb.bufReady

end Sys2Proof.Machine
end

