-- ==== Sys2Proof/Machine/Pins.lean ====
section
/-! DEFINITION. The SMBus target and the TAP (R462, R520, R521). -/

namespace Sys2Proof.Machine

/-! ## SMBus (R520, Table 22.13) -/

/-- An answer on SMBus; no acknowledgement where there is none. -/
def Dev.smbSays (d : Dev) (bs : List Byte) : Dev := d.emit (.smb bs)

/-- A change of what the SMBus target holds. -/
def Dev.modSmb (d : Dev) (f : Smb → Smb) : Dev := { d with sys := { d.sys with smb := f d.sys.smb } }

/-- Commands other than STATUS are answered from CC release, and not during a warm or watchdog reset. -/
def Dev.smbIf (d : Dev) (f : Dev → Dev) : Dev := if d.sys.pwrgood && d.fwRuns then f d else d.smbSays []

/-- STATUS is answered from 1.0 ms after PWRGOOD rises. -/
def Dev.smbStatus (d : Dev) : Dev :=
  if !d.sys.pwrgood || (d.sys.cold && d.nowNs < d.sys.bootAt + 1000000) then d.smbSays [] else d.smbSays [d.smbStatusByte]

/-- REG_ADDR takes a BAR0 offset of three bytes. -/
def Dev.smbAddress (d : Dev) (a : BitVec 24) : Dev := d.smbIf (fun d => d.modSmb (fun m => { m with addr := a }))

/-- A block read of REG_DATA reads the register at REG_ADDR as the host would. -/
def Dev.smbRead (d : Dev) : Dev := d.smbIf (fun d => d.access (.read (d.sys.smb.addr.setWidth 26) .smb))

/-- A block write of REG_DATA writes the register at REG_ADDR as the host would. -/
def Dev.smbWrite (d : Dev) (v : Word) : Dev :=
  d.smbIf (fun d => if d.sys.smb.addr.toNat % 4 ≠ 0 then d.partWrite else d.access (.write (d.sys.smb.addr.setWidth 26) v))

/-- A block read of BUF takes the oldest bytes of the buffer; BUF_READY falls when none is left. An empty buffer, and a length
outside 1–32, are not acknowledged. -/
def Dev.smbTake (d : Dev) (n : Nat) : Dev :=
  d.smbIf (fun d =>
    let bs := d.sys.smb.buf
    if n = 0 || 32 < n || bs = [] then d.smbSays []
    else (d.modSmb (fun m => { m with buf := bs.drop n, bufReady := m.bufReady && n < bs.length })).smbSays (bs.take n))

/-- A block write of BUF adds to the buffer; what finds no room, and a length outside 1–32, are not acknowledged. The buffer
asserts request line 11. -/
def Dev.smbFill (d : Dev) (bs : List Byte) : Dev :=
  d.smbIf (fun d =>
    let n := bs.length
    if n = 0 || 32 < n || 4096 < d.sys.smb.buf.length + n then d.smbSays []
    else (d.modSmb (fun m => { m with buf := m.buf ++ bs })).setLine 11 true)

/-- The Alert Response Address returns CC_SMBUS_ADDR while SMB_ALERT_N is low. -/
def Dev.smbAra (d : Dev) : Dev :=
  d.smbIf (fun d => if d.smbAlert then d.smbSays [BitVec.ofNat 8 (d.rf Pg.cc Reg.CC_SMBUS_ADDR 6 0)] else d.smbSays [])

/-! ## The TAP (R521) -/

/-- An instruction is loaded. -/
def Dev.loadTap (d : Dev) (i : TapIr) : Dev := { d with sys := { d.sys with tap := i } }

/-- EXTEST, CLAMP and HIGHZ are loaded only while RESET_N is low; at any other time BYPASS is loaded in their place. -/
def Dev.loadTest (d : Dev) (i : TapIr) : Dev := d.loadTap (if d.sys.resetLow then i else .bypass)

/-- The IDCODE: stepping B0, 0x9640, Kulomund's manufacturer code, 1. -/
def idcode : Nat := 0x1 * 2 ^ 28 + 0x9640 * 2 ^ 12 + Config.jep106 % 2 ^ 11 * 2 + 1

/-- A register offset of SK's page. -/
def inKeeper (off : Nat) : Bool := pageOf off == some Pg.sk

/-- The LEVEL that an access needs (R462). -/
def debugLevel : DebugAccess → Nat
  | .runControl _ _ => 2
  | _ => 1

/-- SK's own state is never reachable by any instruction (R462). -/
def debugInKeeper : DebugAccess → Bool
  | .readReg off => inKeeper off.toNat
  | .writeReg off _ => inKeeper off.toNat
  | .readMem a => regSpace ≤ a.toNat && inKeeper (a.toNat - regSpace)
  | .writeMem a _ => regSpace ≤ a.toNat && inKeeper (a.toNat - regSpace)
  | .runControl _ _ => false

/-- A memory read of the TAP; register space is read through its lanes. -/
def Dev.tapLoad (d : Dev) (a : Nat) : Dev :=
  if regSpace ≤ a && a < regSpace + 2 ^ 26 then
    let x := d.regLoad a 1
    x.1.emit (.jtag (numLE x.2))
  else
    match d.physRead a 1 with
    | (d, .ok, bs) => d.emit (.jtag (numLE bs))
    | (d, _, _) => d

/-- A memory write of the TAP; a byte of register space is a part of a word (R27). -/
def Dev.tapStore (d : Dev) (a : Nat) (b : Byte) : Dev :=
  if regSpace ≤ a && a < regSpace + 2 ^ 26 then d.partWrite else (d.physWrite a [b]).1

/-- What an instruction that the gate grants does. -/
def Dev.debugDoes (d : Dev) (x : DebugAccess) : Dev :=
  match x with
  | .readReg off => d.access (.read off .tap)
  | .writeReg off v => if off.toNat % 4 ≠ 0 then d.partWrite else d.access (.write off v)
  | .readMem a => d.tapLoad a.toNat
  | .writeMem a b => d.tapStore a.toNat b
  | .runControl core halt => { d with sys := { d.sys with haltedCores := (putBit core.val halt (d.sys.haltedCores.setWidth 32)).setWidth 8 } }

/-- A non-public instruction: refused, with BYPASS in its place, while the gate is closed, above the open LEVEL, and towards
SK's own state. -/
def Dev.debugInstr (d : Dev) (x : DebugAccess) : Dev :=
  if !d.sys.pwrgood || !d.sk.gateOpen || d.sk.level < debugLevel x || debugInKeeper x then d.loadTap .bypass
  else (d.loadTap .debug).debugDoes x

/-! ## Commands -/

/-- SMB_STATUS (R520). -/
def execSmbStatus (s : State) : Host.Outcome State Fault Refusal := s.on (·.smbStatus)
/-- SMB_REG_ADDR (R520). -/
def execSmbRegAddr (a : BitVec 24) (s : State) : Host.Outcome State Fault Refusal := s.on (·.smbAddress a)
/-- SMB_REG_DATA_READ (R520). -/
def execSmbRegDataRead (s : State) : Host.Outcome State Fault Refusal := s.onBus (·.smbRead)
/-- SMB_REG_DATA_WRITE (R520). -/
def execSmbRegDataWrite (v : Word) (s : State) : Host.Outcome State Fault Refusal := s.onBus (·.smbWrite v)
/-- SMB_BUF_READ (R520). -/
def execSmbBufRead (n : Nat) (s : State) : Host.Outcome State Fault Refusal := s.on (·.smbTake n)
/-- SMB_BUF_WRITE (R520). -/
def execSmbBufWrite (bytes : List Byte) (s : State) : Host.Outcome State Fault Refusal := s.on (·.smbFill bytes)
/-- SMB_ALERT_RESPONSE (R520). -/
def execSmbAlertResponse (s : State) : Host.Outcome State Fault Refusal := s.on (·.smbAra)
/-- JTAG_BYPASS (R521). -/
def execJtagBypass (s : State) : Host.Outcome State Fault Refusal := s.on (·.loadTap .bypass)
/-- JTAG_IDCODE (R521). -/
def execJtagIdcode (s : State) : Host.Outcome State Fault Refusal := s.on (fun d => (d.loadTap .idcode).emit (.jtag idcode))
/-- JTAG_SAMPLE_PRELOAD (R521). -/
def execJtagSamplePreload (s : State) : Host.Outcome State Fault Refusal := s.on (·.loadTap .samplePreload)
/-- JTAG_EXTEST (R521). -/
def execJtagExtest (s : State) : Host.Outcome State Fault Refusal := s.on (·.loadTest .extest)
/-- JTAG_CLAMP (R521). -/
def execJtagClamp (s : State) : Host.Outcome State Fault Refusal := s.on (·.loadTest .clamp)
/-- JTAG_HIGHZ (R521). -/
def execJtagHighz (s : State) : Host.Outcome State Fault Refusal := s.on (·.loadTest .highz)
/-- JTAG_DEBUG_INSTRUCTION (R462). -/
def execJtagDebugInstruction (access : DebugAccess) (s : State) : Host.Outcome State Fault Refusal := s.onBus (·.debugInstr access)

end Sys2Proof.Machine
end

