-- ==== Sys2Proof/Machine/Dispatch.lean ====
section
/-! DEFINITION. What each command does to everything but the queue: one arm per constructor of Instr, in the order of
the opcode table. -/

namespace Sys2Proof.Machine

def exec (i : Instr) (s : State) : Host.Outcome State Fault Refusal :=
  match i with
  | .registerWrite off be v => Sys2Proof.Machine.execRegisterWrite off be v s
  | .pairLoRead off => Sys2Proof.Machine.execPairLoRead off s
  | .rwsWrite off v => Sys2Proof.Machine.execRwsWrite off v s
  | .hbWinBaseWrite v => Sys2Proof.Machine.execHbWinBaseWrite v s
  | .enable p => Sys2Proof.Machine.execEnable p s
  | .disable p mode => Sys2Proof.Machine.execDisable p mode s
  | .islandRst p => Sys2Proof.Machine.execIslandRst p s
  | .islandResetDone p => Sys2Proof.Machine.execIslandResetDone p s
  | .unitInitialised p => Sys2Proof.Machine.execUnitInitialised p s
  | .drainDone p => Sys2Proof.Machine.execDrainDone p s
  | .commit p at_ => Sys2Proof.Machine.execCommit p at_ s
  | .commitCancel p => Sys2Proof.Machine.execCommitCancel p s
  | .bow p => Sys2Proof.Machine.execBow p s
  | .evtRawClear p v => Sys2Proof.Machine.execEvtRawClear p v s
  | .evtEnWrite p v => Sys2Proof.Machine.execEvtEnWrite p v s
  | .evtForce p n => Sys2Proof.Machine.execEvtForce p n s
  | .histRead p => Sys2Proof.Machine.execHistRead p s
  | .rwpWrite off v => Sys2Proof.Machine.execRwpWrite off v s
  | .persistentWriteDone rb => Sys2Proof.Machine.execPersistentWriteDone rb s
  | .ropCommit => Sys2Proof.Machine.execRopCommit s
  | .retireRecClear p bit => Sys2Proof.Machine.execRetireRecClear p bit s
  | .retireRecSet p bit => Sys2Proof.Machine.execRetireRecSet p bit s
  | .requalifyDone p bit pass => Sys2Proof.Machine.execRequalifyDone p bit pass s
  | .fabricRequest who addr write => Sys2Proof.Machine.execFabricRequest who addr write s
  | .tagReturn who => Sys2Proof.Machine.execTagReturn who s
  | .fbPartWrite which v => Sys2Proof.Machine.execFbPartWrite which v s
  | .fbSharedPartWrite v => Sys2Proof.Machine.execFbSharedPartWrite v s
  | .txUnderrun at_ => Sys2Proof.Machine.execTxUnderrun at_ s
  | .rxOverrun at_ => Sys2Proof.Machine.execRxOverrun at_ s
  | .reqVpWrite p vp => Sys2Proof.Machine.execReqVpWrite p vp s
  | .vpSettled p => Sys2Proof.Machine.execVpSettled p s
  | .paceInterval p count => Sys2Proof.Machine.execPaceInterval p count s
  | .paceMeterUpdate p pace => Sys2Proof.Machine.execPaceMeterUpdate p pace s
  | .liftRelease p => Sys2Proof.Machine.execLiftRelease p s
  | .replan => Sys2Proof.Machine.execReplan s
  | .tempEdge hot cold sensor => Sys2Proof.Machine.execTempEdge hot cold sensor s
  | .ledgerUpdate meters items moved => Sys2Proof.Machine.execLedgerUpdate meters items moved s
  | .bucketBoundary long => Sys2Proof.Machine.execBucketBoundary long s
  | .battGpioChange levels => Sys2Proof.Machine.execBattGpioChange levels s
  | .budgetScaleWrite v => Sys2Proof.Machine.execBudgetScaleWrite v s
  | .degradeStep p => Sys2Proof.Machine.execDegradeStep p s
  | .restoreStep => Sys2Proof.Machine.execRestoreStep s
  | .tableRead p active => Sys2Proof.Machine.execTableRead p active s
  | .tableWrite p => Sys2Proof.Machine.execTableWrite p s
  | .sqDoorbell ring v => Sys2Proof.Machine.execSqDoorbell ring v s
  | .cqDoorbell ring v => Sys2Proof.Machine.execCqDoorbell ring v s
  | .headTest ring => Sys2Proof.Machine.execHeadTest ring s
  | .descReadResponse ring r => Sys2Proof.Machine.execDescReadResponse ring r s
  | .acceptedWriteAck ring okA okB => Sys2Proof.Machine.execAcceptedWriteAck ring okA okB s
  | .acceptance ring => Sys2Proof.Machine.execAcceptance ring s
  | .ledgerWriteAck ring seq okA okB => Sys2Proof.Machine.execLedgerWriteAck ring seq okA okB s
  | .completedRecorded ring seq okA okB => Sys2Proof.Machine.execCompletedRecorded ring seq okA okB s
  | .completionWrite ring => Sys2Proof.Machine.execCompletionWrite ring s
  | .completionWriteAck ring ok => Sys2Proof.Machine.execCompletionWriteAck ring ok s
  | .irqDelayExpire ring => Sys2Proof.Machine.execIrqDelayExpire ring s
  | .dispatch ring seq => Sys2Proof.Machine.execDispatch ring seq s
  | .checkpointRecord => Sys2Proof.Machine.execCheckpointRecord s
  | .encore => Sys2Proof.Machine.execEncore s
  | .ringEnWrite ring d0 d1 d2 d3 => Sys2Proof.Machine.execRingEnWrite ring d0 d1 d2 d3 s
  | .ringDisable ring d0 d1 d2 d3 => Sys2Proof.Machine.execRingDisable ring d0 d1 d2 d3 s
  | .ledgerCfgWrite which v => Sys2Proof.Machine.execLedgerCfgWrite which v s
  | .nop ring seq => Sys2Proof.Machine.execNop ring seq s
  | .copy ring seq => Sys2Proof.Machine.execCopy ring seq s
  | .fill ring seq => Sys2Proof.Machine.execFill ring seq s
  | .periphIn ring seq bursts overrun => Sys2Proof.Machine.execPeriphIn ring seq bursts overrun s
  | .periphOut ring seq bursts overrun => Sys2Proof.Machine.execPeriphOut ring seq bursts overrun s
  | .decode ring seq => Sys2Proof.Machine.execDecode ring seq s
  | .outputNext ring seq => Sys2Proof.Machine.execOutputNext ring seq s
  | .clearCtx ring seq => Sys2Proof.Machine.execClearCtx ring seq s
  | .encode ring seq => Sys2Proof.Machine.execEncode ring seq s
  | .rcReset ring seq => Sys2Proof.Machine.execRcReset ring seq s
  | .dspKernel ring seq => Sys2Proof.Machine.execDspKernel ring seq s
  | .compose ring seq => Sys2Proof.Machine.execCompose ring seq s
  | .gcmEnc ring seq cmp => Sys2Proof.Machine.execGcmEnc ring seq cmp s
  | .gcmDec ring seq cmp => Sys2Proof.Machine.execGcmDec ring seq cmp s
  | .ctrEnc ring seq cmp => Sys2Proof.Machine.execCtrEnc ring seq cmp s
  | .ctrXform ring seq cmp => Sys2Proof.Machine.execCtrXform ring seq cmp s
  | .xtsEnc ring seq cmp => Sys2Proof.Machine.execXtsEnc ring seq cmp s
  | .xtsDec ring seq cmp => Sys2Proof.Machine.execXtsDec ring seq cmp s
  | .unwrap ring seq => Sys2Proof.Machine.execUnwrap ring seq s
  | .wireTransmit ring seq => Sys2Proof.Machine.execWireTransmit ring seq s
  | .send ring seq => Sys2Proof.Machine.execSend ring seq s
  | .dramRead who addr ecc => Sys2Proof.Machine.execDramRead who addr ecc s
  | .dramWrite who addr bytes => Sys2Proof.Machine.execDramWrite who addr bytes s
  | .readTimeout g m => Sys2Proof.Machine.execReadTimeout g m s
  | .chanRetry g m pass => Sys2Proof.Machine.execChanRetry g m pass s
  | .retireRecordCommit p bit => Sys2Proof.Machine.execRetireRecordCommit p bit s
  | .rowCombineExpire g row => Sys2Proof.Machine.execRowCombineExpire g row s
  | .mcRetireRecWrite g m => Sys2Proof.Machine.execMcRetireRecWrite g m s
  | .rebuildTrainDone g pass => Sys2Proof.Machine.execRebuildTrainDone g pass s
  | .rebuildDone g pass => Sys2Proof.Machine.execRebuildDone g pass s
  | .scrubRow g row => Sys2Proof.Machine.execScrubRow g row s
  | .refresh g m busy => Sys2Proof.Machine.execRefresh g m busy s
  | .mr4Poll g codes => Sys2Proof.Machine.execMr4Poll g codes s
  | .srEntry g m => Sys2Proof.Machine.execSrEntry g m s
  | .freqGo g => Sys2Proof.Machine.execFreqGo g s
  | .freqDone g passed => Sys2Proof.Machine.execFreqDone g passed s
  | .freqAuto g bytes1s bytes10ms => Sys2Proof.Machine.execFreqAuto g bytes1s bytes10ms s
  | .trainGo g => Sys2Proof.Machine.execTrainGo g s
  | .trainDone g passed tj => Sys2Proof.Machine.execTrainDone g passed tj s
  | .wckTrack g stepPs => Sys2Proof.Machine.execWckTrack g stepPs s
  | .walkDone who readError => Sys2Proof.Machine.execWalkDone who readError s
  | .atsCompletion who reply => Sys2Proof.Machine.execAtsCompletion who reply s
  | .dxPrPop => Sys2Proof.Machine.execDxPrPop s
  | .dxPrResp v => Sys2Proof.Machine.execDxPrResp v s
  | .prgResponse who code => Sys2Proof.Machine.execPrgResponse who code s
  | .parkTimeout who => Sys2Proof.Machine.execParkTimeout who s
  | .invalidate v => Sys2Proof.Machine.execInvalidate v s
  | .atsInvalidate pasid va pages => Sys2Proof.Machine.execAtsInvalidate pasid va pages s
  | .invalidateDone => Sys2Proof.Machine.execInvalidateDone s
  | .beatIssue => Sys2Proof.Machine.execBeatIssue s
  | .beatResponse ch dst beat reply => Sys2Proof.Machine.execBeatResponse ch dst beat reply s
  | .reqLineAssert line data => Sys2Proof.Machine.execReqLineAssert line data s
  | .reqLineWithdraw line => Sys2Proof.Machine.execReqLineWithdraw line s
  | .reqLineEnWrite v => Sys2Proof.Machine.execReqLineEnWrite v s
  | .pxIngress f => Sys2Proof.Machine.execPxIngress f s
  | .replNodeNext => Sys2Proof.Machine.execReplNodeNext s
  | .adaptPeriod => Sys2Proof.Machine.execAdaptPeriod s
  | .switchTimeout node slot => Sys2Proof.Machine.execSwitchTimeout node slot s
  | .rtcpReceiverReport leg r => Sys2Proof.Machine.execRtcpReceiverReport leg r s
  | .legClosed leg => Sys2Proof.Machine.execLegClosed leg s
  | .jobTickDiscard n => Sys2Proof.Machine.execJobTickDiscard n s
  | .contextPlace enc leg fps k0 k1 k3 => Sys2Proof.Machine.execContextPlace enc leg fps k0 k1 k3 s
  | .decodeBind e r => Sys2Proof.Machine.execDecodeBind e r s
  | .frameBoundary e refBytes => Sys2Proof.Machine.execFrameBoundary e refBytes s
  | .pixelHang e => Sys2Proof.Machine.execPixelHang e s
  | .veRefMissPop e => Sys2Proof.Machine.execVeRefMissPop e s
  | .pliRepeat e ctx => Sys2Proof.Machine.execPliRepeat e ctx s
  | .encodeBind e headerBits least => Sys2Proof.Machine.execEncodeBind e headerBits least s
  | .rowEnd e bits starvedBits backlog packets => Sys2Proof.Machine.execRowEnd e bits starvedBits backlog packets s
  | .keyRequest e ctx => Sys2Proof.Machine.execKeyRequest e ctx s
  | .frameOpen c output => Sys2Proof.Machine.execFrameOpen c output s
  | .frameWritten c readErr writeErr => Sys2Proof.Machine.execFrameWritten c readErr writeErr s
  | .blendHang c => Sys2Proof.Machine.execBlendHang c s
  | .cpStalePop c => Sys2Proof.Machine.execCpStalePop c s
  | .cpSigPop c => Sys2Proof.Machine.execCpSigPop c s
  | .amTick jobs => Sys2Proof.Machine.execAmTick jobs s
  | .mixForm jobs => Sys2Proof.Machine.execMixForm jobs s
  | .mixLate mix => Sys2Proof.Machine.execMixLate mix s
  | .rampEnd leg out => Sys2Proof.Machine.execRampEnd leg out s
  | .zeroCrossing leg out at_ => Sys2Proof.Machine.execZeroCrossing leg out at_ s
  | .zcTimeout leg out => Sys2Proof.Machine.execZcTimeout leg out s
  | .crossfadeEnd leg => Sys2Proof.Machine.execCrossfadeEnd leg s
  | .mixHang => Sys2Proof.Machine.execMixHang s
  | .kernelLoad c => Sys2Proof.Machine.execKernelLoad c s
  | .kernelUnload c => Sys2Proof.Machine.execKernelUnload c s
  | .jobStage c => Sys2Proof.Machine.execJobStage c s
  | .deadlineMiss c => Sys2Proof.Machine.execDeadlineMiss c s
  | .laneHang l => Sys2Proof.Machine.execLaneHang l s
  | .nopInstr l f => Sys2Proof.Machine.execNopInstr l f s
  | .halt l f => Sys2Proof.Machine.execHalt l f s
  | .ldst l f => Sys2Proof.Machine.execLdst l f s
  | .mac16 l f => Sys2Proof.Machine.execMac16 l f s
  | .mac32 l f => Sys2Proof.Machine.execMac32 l f s
  | .mul16 l f => Sys2Proof.Machine.execMul16 l f s
  | .mul32 l f => Sys2Proof.Machine.execMul32 l f s
  | .acld l f => Sys2Proof.Machine.execAcld l f s
  | .acclr l f => Sys2Proof.Machine.execAcclr l f s
  | .acadd l f => Sys2Proof.Machine.execAcadd l f s
  | .acgrd l f => Sys2Proof.Machine.execAcgrd l f s
  | .narrow32 l f => Sys2Proof.Machine.execNarrow32 l f s
  | .narrow16 l f => Sys2Proof.Machine.execNarrow16 l f s
  | .add l f => Sys2Proof.Machine.execAdd l f s
  | .adds l f => Sys2Proof.Machine.execAdds l f s
  | .sub l f => Sys2Proof.Machine.execSub l f s
  | .subs l f => Sys2Proof.Machine.execSubs l f s
  | .landI l f => Sys2Proof.Machine.execLandI l f s
  | .lorI l f => Sys2Proof.Machine.execLorI l f s
  | .lxorI l f => Sys2Proof.Machine.execLxorI l f s
  | .asr l f => Sys2Proof.Machine.execAsr l f s
  | .lsl l f => Sys2Proof.Machine.execLsl l f s
  | .minI l f => Sys2Proof.Machine.execMinI l f s
  | .maxI l f => Sys2Proof.Machine.execMaxI l f s
  | .abs l f => Sys2Proof.Machine.execAbs l f s
  | .movi l f => Sys2Proof.Machine.execMovi l f s
  | .movhi l f => Sys2Proof.Machine.execMovhi l f s
  | .norm l f => Sys2Proof.Machine.execNorm l f s
  | .seta l f => Sys2Proof.Machine.execSeta l f s
  | .mova l f => Sys2Proof.Machine.execMova l f s
  | .setof l f => Sys2Proof.Machine.execSetof l f s
  | .setcb l f => Sys2Proof.Machine.execSetcb l f s
  | .rep l f => Sys2Proof.Machine.execRep l f s
  | .bra l f => Sys2Proof.Machine.execBra l f s
  | .bz l f => Sys2Proof.Machine.execBz l f s
  | .bnz l f => Sys2Proof.Machine.execBnz l f s
  | .blt l f => Sys2Proof.Machine.execBlt l f s
  | .bge l f => Sys2Proof.Machine.execBge l f s
  | .bxclr l f => Sys2Proof.Machine.execBxclr l f s
  | .bxrd l f => Sys2Proof.Machine.execBxrd l f s
  | .bxen l f => Sys2Proof.Machine.execBxen l f s
  | .cellArrive source bytes eop badFcs => Sys2Proof.Machine.execCellArrive source bytes eop badFcs s
  | .packetDequeue queue cell => Sys2Proof.Machine.execPacketDequeue queue cell s
  | .qmFlush queue => Sys2Proof.Machine.execQmFlush queue s
  | .flushDone => Sys2Proof.Machine.execFlushDone s
  | .policerRefill => Sys2Proof.Machine.execPolicerRefill s
  | .portReady port link cell => Sys2Proof.Machine.execPortReady port link cell s
  | .shaperRefill => Sys2Proof.Machine.execShaperRefill s
  | .gateChange port => Sys2Proof.Machine.execGateChange port s
  | .gclPendingStart port => Sys2Proof.Machine.execGclPendingStart port s
  | .swap => Sys2Proof.Machine.execSwap s
  | .swapDone => Sys2Proof.Machine.execSwapDone s
  | .versionFree ver => Sys2Proof.Machine.execVersionFree ver s
  | .monitorSample m => Sys2Proof.Machine.execMonitorSample m s
  | .epLinkDown port => Sys2Proof.Machine.execEpLinkDown port s
  | .epLinkUp port speed => Sys2Proof.Machine.execEpLinkUp port speed s
  | .epLaneFault ep lane => Sys2Proof.Machine.execEpLaneFault ep lane s
  | .pxHang => Sys2Proof.Machine.execPxHang s
  | .tmHang => Sys2Proof.Machine.execTmHang s
  | .refInEdge => Sys2Proof.Machine.execRefInEdge s
  | .tuIncWrite v => Sys2Proof.Machine.execTuIncWrite v s
  | .tuRateWrite host v => Sys2Proof.Machine.execTuRateWrite host v s
  | .tuAdjWrite host v => Sys2Proof.Machine.execTuAdjWrite host v s
  | .arm => Sys2Proof.Machine.execArm s
  | .disarm => Sys2Proof.Machine.execDisarm s
  | .tick g => Sys2Proof.Machine.execTick g s
  | .servoUpdate offset rate => Sys2Proof.Machine.execServoUpdate offset rate s
  | .holdoverEnter => Sys2Proof.Machine.execHoldoverEnter s
  | .holdoverExpired => Sys2Proof.Machine.execHoldoverExpired s
  | .oscModelStore tj rate valid ageDays => Sys2Proof.Machine.execOscModelStore tj rate valid ageDays s
  | .ppsInEdge falling => Sys2Proof.Machine.execPpsInEdge falling s
  | .ppsInMissing => Sys2Proof.Machine.execPpsInMissing s
  | .txtsPop => Sys2Proof.Machine.execTxtsPop s
  | .refLost => Sys2Proof.Machine.execRefLost s
  | .refReturn elapsed => Sys2Proof.Machine.execRefReturn elapsed s
  | .retune r mode carrier => Sys2Proof.Machine.execRetune r mode carrier s
  | .calGo v => Sys2Proof.Machine.execCalGo v s
  | .calibration r c pass granted imageDb tj => Sys2Proof.Machine.execCalibration r c pass granted imageDb tj s
  | .txBurstStart r filled => Sys2Proof.Machine.execTxBurstStart r filled s
  | .burstEnd r ack => Sys2Proof.Machine.execBurstEnd r ack s
  | .blockEnd r short => Sys2Proof.Machine.execBlockEnd r short s
  | .rbChainRetireWrite r c => Sys2Proof.Machine.execRbChainRetireWrite r c s
  | .rxBurst b => Sys2Proof.Machine.execRxBurst b s
  | .gfskFrame r f => Sys2Proof.Machine.execGfskFrame r f s
  | .loUnlock r relocks => Sys2Proof.Machine.execLoUnlock r relocks s
  | .modemHang r => Sys2Proof.Machine.execModemHang r s
  | .callerAssembly => Sys2Proof.Machine.execCallerAssembly s
  | .grantAssembly r g => Sys2Proof.Machine.execGrantAssembly r g s
  | .reorderTimeout link => Sys2Proof.Machine.execReorderTimeout link s
  | .linkLost link => Sys2Proof.Machine.execLinkLost link s
  | .callerMiss p => Sys2Proof.Machine.execCallerMiss p s
  | .sensorExchange n => Sys2Proof.Machine.execSensorExchange n s
  | .sensorRetry n => Sys2Proof.Machine.execSensorRetry n s
  | .discoveryCall => Sys2Proof.Machine.execDiscoveryCall s
  | .windowAnswer => Sys2Proof.Machine.execWindowAnswer s
  | .macHang => Sys2Proof.Machine.execMacHang s
  | .acLostPop => Sys2Proof.Machine.execAcLostPop s
  | .inlineRequest r => Sys2Proof.Machine.execInlineRequest r s
  | .keyErase slot ce => Sys2Proof.Machine.execKeyErase slot ce s
  | .lockService ce => Sys2Proof.Machine.execLockService ce s
  | .lockTest ce => Sys2Proof.Machine.execLockTest ce s
  | .lockRecovery ce => Sys2Proof.Machine.execLockRecovery ce s
  | .selftestDone ce pass durationUs => Sys2Proof.Machine.execSelftestDone ce pass durationUs s
  | .ceHang ce => Sys2Proof.Machine.execCeHang ce s
  | .stage flashOk => Sys2Proof.Machine.execStage flashOk s
  | .confirm => Sys2Proof.Machine.execConfirm s
  | .attest => Sys2Proof.Machine.execAttest s
  | .extend => Sys2Proof.Machine.execExtend s
  | .wrap => Sys2Proof.Machine.execWrap s
  | .challenge => Sys2Proof.Machine.execChallenge s
  | .unlock shifted => Sys2Proof.Machine.execUnlock shifted s
  | .gateClose => Sys2Proof.Machine.execGateClose s
  | .skReturn => Sys2Proof.Machine.execSkReturn s
  | .challengeExpire => Sys2Proof.Machine.execChallengeExpire s
  | .debugLockWrite v => Sys2Proof.Machine.execDebugLockWrite v s
  | .rngFail => Sys2Proof.Machine.execRngFail s
  | .firmwareIslandRst p => Sys2Proof.Machine.execFirmwareIslandRst p s
  | .pwrgoodRise refIn rngOk flashOk => Sys2Proof.Machine.execPwrgoodRise refIn rngOk flashOk s
  | .stageTimeout p => Sys2Proof.Machine.execStageTimeout p s
  | .pwrgoodFall => Sys2Proof.Machine.execPwrgoodFall s
  | .railDip => Sys2Proof.Machine.execRailDip s
  | .resetN => Sys2Proof.Machine.execResetN s
  | .warmResetWrite v => Sys2Proof.Machine.execWarmResetWrite v s
  | .wdogKick v => Sys2Proof.Machine.execWdogKick v s
  | .watchdogExpire host => Sys2Proof.Machine.execWatchdogExpire host s
  | .thermalTrip sensor => Sys2Proof.Machine.execThermalTrip sensor s
  | .phLinkDown => Sys2Proof.Machine.execPhLinkDown s
  | .phLinkUp speed width => Sys2Proof.Machine.execPhLinkUp speed width s
  | .smbStatus => Sys2Proof.Machine.execSmbStatus s
  | .smbRegAddr a => Sys2Proof.Machine.execSmbRegAddr a s
  | .smbRegDataRead => Sys2Proof.Machine.execSmbRegDataRead s
  | .smbRegDataWrite v => Sys2Proof.Machine.execSmbRegDataWrite v s
  | .smbBufRead n => Sys2Proof.Machine.execSmbBufRead n s
  | .smbBufWrite bytes => Sys2Proof.Machine.execSmbBufWrite bytes s
  | .smbAlertResponse => Sys2Proof.Machine.execSmbAlertResponse s
  | .jtagBypass => Sys2Proof.Machine.execJtagBypass s
  | .jtagIdcode => Sys2Proof.Machine.execJtagIdcode s
  | .jtagSamplePreload => Sys2Proof.Machine.execJtagSamplePreload s
  | .jtagExtest => Sys2Proof.Machine.execJtagExtest s
  | .jtagClamp => Sys2Proof.Machine.execJtagClamp s
  | .jtagHighz => Sys2Proof.Machine.execJtagHighz s
  | .resetNRelease => Sys2Proof.Machine.execResetNRelease s
  | .dpPllUnlock g relocks => Sys2Proof.Machine.execDpPllUnlock g relocks s
  | .phPllUnlock relocks => Sys2Proof.Machine.execPhPllUnlock relocks s
  | .pcieError e => Sys2Proof.Machine.execPcieError e s
  | .hbHang => Sys2Proof.Machine.execHbHang s
  | .fbHang => Sys2Proof.Machine.execFbHang s
  | .dxHang => Sys2Proof.Machine.execDxHang s
  | .coreFault core => Sys2Proof.Machine.execCoreFault core s
  | .tempWarn hot sensor => Sys2Proof.Machine.execTempWarn hot sensor s
  | .illegalOp l op => Sys2Proof.Machine.execIllegalOp l op s
  | .rcRead off => Sys2Proof.Machine.execRcRead off s
  | .configWrite ats pri => Sys2Proof.Machine.execConfigWrite ats pri s
  | .jtagDebugInstruction access => Sys2Proof.Machine.execJtagDebugInstruction access s

end Sys2Proof.Machine
end

