-- ==== Sys2Proof/Machine/Step.lean ====
section
/-! DEFINITION. One step of the block: the command at the front of the queue takes effect; on an empty queue the block
idles (assumption log 7). -/

namespace Sys2Proof.Machine

/-- Put a command at the front of the queue. -/
def State.push (s : State) (c : Instr) : State := { s with pending := c :: s.pending }

/-- One step: take the first waiting command and run it on the state with the rest of the queue. An empty queue idles:
the table has no row for a tick, so nothing happens (DESIGN CHOICE, assumption log 7). -/
def step (s : State) : Host.Outcome State Fault Refusal :=
  match s.pending with
  | [] => .next s
  | c :: cs => exec c { s with pending := cs }

/-- The state with the command that a word spells in front of its queue. The opcode table gives no row any bits, so no
word spells a command and the state stays as it is (assumption log 8). -/
def State.withFetchWord (s : State) (nbits w : Nat) : State :=
  match Sys2Proof.decodeTableWord nbits w with
  | some c => s.push c
  | none => s

end Sys2Proof.Machine
end

