-- ==== Sys2Proof/Safety.lean ====
section
/-! DEFINITION. What counts as a safe state and a safe run, and the words in which the statements speak of a state. -/

namespace Sys2Proof.Machine

/-! ## Invariants -/

/-- The fabric's accounts stand: the partition in force shares out exactly 16,384 tags, and no more transactions are in
flight (R11, R530). -/
abbrev Fabric.wf (f : Fabric) : Prop := f.parts.total = maxTags ∧ f.flight.length ≤ maxTags

/-- The invariant of the block that every command keeps. -/
abbrev State.Inv (s : State) : Prop := s.tags.wf

/-- What an unlisted byte of any memory reads as (assumption log 43). -/
abbrev unwritten : Nat → Byte := fun _ => 0

/-- The memories keep their canonical form. -/
abbrev Ram.wf (r : Ram) : Bool := SMap.wf unwritten r.dram && SMap.wf unwritten r.sys && SMap.wf unwritten r.flash

/-! ## Conditions on a state -/

/-- The register buses are free: power is good, no reset runs, no access waits and no effect is owed. -/
abbrev State.busFree (s : State) : Prop :=
  s.dev.sys.pwrgood = true ∧ s.dev.sys.inReset = false ∧ s.dev.pages.waiting = [] ∧ s.dev.asks = []

/-- The BAR0 offset of a register of a page (R24). -/
abbrev regAt (p : Page) (off : Nat) : Bar0 := BitVec.ofNat 26 (p.val * 0x1000 + off)

/-- A BAR0 offset that holds no register: outside the MSI-X structures, the headers, the manufacturing ranges, the windows and the
block registers (R27). -/
abbrev isHole (off : Nat) : Bool :=
  !(msixTable ≤ off && off < msixTable + 16 * msixVectors) && !(msixPba ≤ off && off < msixPba + msixVectors / 8) &&
    match pageOf off with
    | none => true
    | some p => !(kindOf p != .dir && decide (off % 0x1000 < 0x30)) && !isMfg (kindOf p) (off % 0x1000) &&
        (windowReg (kindOf p) (off % 0x1000)).isNone && (blockReg (kindOf p) (off % 0x1000)).isNone

/-- Every register but one keeps its word. -/
abbrev sameRegsBut (a b : Dev) (p : Page) (off : Nat) : Prop :=
  ∀ (q : Page) (o i : Nat), o < 0x1000 → ¬(q = p ∧ o = off ∧ i = 0) → b.reg q o i = a.reg q o i

/-- Every page but one keeps its header. -/
abbrev sameHdrsBut (a b : Dev) (p : Page) : Prop := ∀ q : Page, q ≠ p → b.hdr q = a.hdr q

/-- A source of a page has its raw bit set. -/
abbrev raised (d : Dev) (p : Page) (src : Nat) : Prop := bit src (d.hdr p).raw = true

/-- A lane has fetched an instruction of OP `op` with the fields `f` of kernel `k`, below its instruction limit and with another
instruction behind it (R278). -/
abbrev Dev.laneRuns (d : Dev) (id : LaneId) (op : Nat) (f : LaneFields) (x : Lane) (k : DsKernel) : Prop :=
  d.lane id.cluster.val id.lane.val = some x ∧ d.kernel id.cluster.val x.kernel = some k ∧
    opField (d.laneWord id.cluster.val x) = op ∧ laneFields (d.laneWord id.cluster.val x) = f ∧ x.count < k.maxK * 1000 ∧
    x.pc + 1 < k.codeBytes / 8

/-- A lane has gone on to the next instruction outside any repeat; nothing but its own state has changed. -/
abbrev Dev.laneWent (a b : Dev) (id : LaneId) (x y : Lane) : Prop :=
  b.lane id.cluster.val id.lane.val = some y ∧ y.pc = x.pc + 1 ∧ y.count = x.count + 1 ∧ y.reps = [] ∧ y.job = x.job ∧ y.base = x.base ∧
    b.pages = a.pages ∧ b.ram = a.ram ∧ b.wk = a.wk ∧
    (∀ c n, ¬(c = id.cluster.val ∧ n = id.lane.val) → b.lane c n = a.lane c n) ∧ ∀ c m, b.lmem c m = a.lmem c m

/-- A lane keeps its addresses, offsets, circular buffers and block exponent. -/
abbrev sameAddressing (x y : Lane) : Prop :=
  y.a = x.a ∧ y.ofs = x.ofs ∧ y.cbBase = x.cbBase ∧ y.cbLen = x.cbLen ∧ y.bexp = x.bexp ∧ y.bxEn = x.bxEn

/-- A lane keeps its accumulators and its flags. -/
abbrev sameAccumulators (x y : Lane) : Prop := y.ac = x.ac ∧ y.ovf = x.ovf ∧ y.sat = x.sat

/-- Round half up and shift right (R270). -/
abbrev roundShift (v : Int) (n : Nat) : Int := (2 * v + 2 ^ n) / 2 ^ (n + 1)

/-- A number held within the signed range of n bits. -/
abbrev clampBits (n : Nat) (v : Int) : Int := max (-2 ^ (n - 1)) (min (2 ^ (n - 1) - 1) v)

/-- A number outside the signed range of n bits. -/
abbrev outOfBits (n : Nat) (v : Int) : Prop := v < -2 ^ (n - 1) ∨ 2 ^ (n - 1) ≤ v

end Sys2Proof.Machine
end

