-- ==== Sys2Proof/WellFormed.lean ====
section
/-! DEFINITION. Which commands are well formed: their operands are such as their sender can form. The types of the operands
already bound every number whose bound is a plain fact about one field; the checks here are the rest, each under a name of its
own. exec asks for none of them: a command that fails its check changes nothing beyond what its rule states. -/

namespace Sys2Proof

open Sys2Proof.Machine

namespace Check

/-- The register at a BAR0 offset inside a page's own block. -/
def regAt (off : Bar0) : Option RegDesc :=
  match pageOf off.toNat with
  | some p => blockReg (kindOf p) (off.toNat % 0x1000)
  | none => none

/-- The offset names a register with a field of this access code (Table 2.2). -/
def hasField (off : Bar0) (a : Acc) : Bool :=
  match regAt off with
  | some r => hasAcc r a
  | none => false

/-- The offset names the _LO half of a pair that the device changes (R26). -/
def pairLo (off : Bar0) : Bool :=
  match pageOf off.toNat with
  | some p => latchedBy (kindOf p) (off.toNat % 0x1000) != []
  | none => false

/-- The page has a table window (Table 23.4). -/
def window (p : Page) : Bool := (windowCmd p).isSome

/-- The page's retirement record has this bit (R486). -/
def recordBit (p : Page) (bit : Nat) : Bool := (recordAt p bit).isSome

/-- The page has RWS registers or shadowed entries and takes a bow (R36). -/
def bows (p : Page) : Bool := (kindOf p).hasCommit

/-- The page is a self-timed island, which has voltage points (Table 1.1). -/
def island (p : Page) : Bool := (kindOf p).selfTimed

/-- A byte string fits one cell of the pool (R299). -/
def cell (bs : List Byte) : Bool := bs.length ≤ 256 && bs != []

/-- A block of 1 to 32 bytes on SMBus (Table 22.13). -/
def smbBlock (n : Nat) : Bool := 1 ≤ n && n ≤ 32

/-- A DRAM burst: 1 to 64 bytes inside one 64-byte block (R112). -/
def burst (a : Nat) (bs : List Byte) : Bool := bs != [] && a % 64 + bs.length ≤ 64

/-- MR4 answers of the nine members (R124). -/
def nine {α : Type} (xs : List α) : Bool := xs.length == 9

/-- A token shifted in through JTAG has the length of Table 19.4. -/
def token : Option (List Byte) → Bool
  | none => true
  | some bs => bs.length == 7267

/-- The OP of an illegal instruction is not in Table 12.2. -/
def illegal (op : BitVec 8) : Bool := !hasNat laneOps op.toNat

/-- A range of pages to invalidate is not empty (R138). -/
def some' (n : Nat) : Bool := n != 0

end Check

open Check in
/-- The command is well formed. -/
def Instr.wf (i : Instr) : Bool :=
  match i with
  | .pairLoRead off => pairLo off
  | .rwsWrite off _ => hasField off .rws || (pageOf off.toNat).any (fun p => windowCmd p == some off)
  | .rwpWrite off _ => hasField off .rwp
  | .rcRead off => hasField off .rc
  | .commit p _ => bows p
  | .commitCancel p => bows p
  | .bow p => bows p
  | .retireRecClear p bit => recordBit p bit.val
  | .retireRecSet p bit => recordBit p bit.val
  | .requalifyDone p bit _ => recordBit p bit.val
  | .retireRecordCommit p bit => recordBit p bit.val
  | .reqVpWrite p _ => island p
  | .vpSettled p => island p
  | .paceInterval p _ => island p
  | .paceMeterUpdate p _ => island p
  | .tableRead p _ => window p
  | .tableWrite p => window p
  | .dramWrite _ a bs => burst a.toNat bs
  | .mr4Poll _ codes => nine codes
  | .atsInvalidate _ _ pages => some' pages
  | .cellArrive _ bytes _ _ => cell bytes
  | .unlock shifted => token shifted
  | .smbBufRead n => smbBlock n
  | .smbBufWrite bytes => smbBlock bytes.length
  | .illegalOp _ op => illegal op
  | .registerWrite _ _ _ => true
  | .hbWinBaseWrite _ => true
  | .enable _ => true
  | .disable _ _ => true
  | .islandRst _ => true
  | .islandResetDone _ => true
  | .unitInitialised _ => true
  | .drainDone _ => true
  | .evtRawClear _ _ => true
  | .evtEnWrite _ _ => true
  | .evtForce _ _ => true
  | .histRead _ => true
  | .persistentWriteDone _ => true
  | .ropCommit => true
  | .fabricRequest _ _ _ => true
  | .tagReturn _ => true
  | .fbPartWrite _ _ => true
  | .fbSharedPartWrite _ => true
  | .txUnderrun _ => true
  | .rxOverrun _ => true
  | .liftRelease _ => true
  | .replan => true
  | .tempEdge _ _ _ => true
  | .ledgerUpdate _ _ _ => true
  | .bucketBoundary _ => true
  | .battGpioChange _ => true
  | .budgetScaleWrite _ => true
  | .degradeStep _ => true
  | .restoreStep => true
  | .sqDoorbell _ _ => true
  | .cqDoorbell _ _ => true
  | .headTest _ => true
  | .descReadResponse _ _ => true
  | .acceptedWriteAck _ _ _ => true
  | .acceptance _ => true
  | .ledgerWriteAck _ _ _ _ => true
  | .completedRecorded _ _ _ _ => true
  | .completionWrite _ => true
  | .completionWriteAck _ _ => true
  | .irqDelayExpire _ => true
  | .dispatch _ _ => true
  | .checkpointRecord => true
  | .encore => true
  | .ringEnWrite _ _ _ _ _ => true
  | .ringDisable _ _ _ _ _ => true
  | .ledgerCfgWrite _ _ => true
  | .nop _ _ => true
  | .copy _ _ => true
  | .fill _ _ => true
  | .periphIn _ _ _ _ => true
  | .periphOut _ _ _ _ => true
  | .decode _ _ => true
  | .outputNext _ _ => true
  | .clearCtx _ _ => true
  | .encode _ _ => true
  | .rcReset _ _ => true
  | .dspKernel _ _ => true
  | .compose _ _ => true
  | .gcmEnc _ _ _ => true
  | .gcmDec _ _ _ => true
  | .ctrEnc _ _ _ => true
  | .ctrXform _ _ _ => true
  | .xtsEnc _ _ _ => true
  | .xtsDec _ _ _ => true
  | .unwrap _ _ => true
  | .wireTransmit _ _ => true
  | .send _ _ => true
  | .dramRead _ _ _ => true
  | .readTimeout _ _ => true
  | .chanRetry _ _ _ => true
  | .rowCombineExpire _ _ => true
  | .mcRetireRecWrite _ _ => true
  | .rebuildTrainDone _ _ => true
  | .rebuildDone _ _ => true
  | .scrubRow _ _ => true
  | .refresh _ _ _ => true
  | .srEntry _ _ => true
  | .freqGo _ => true
  | .freqDone _ _ => true
  | .freqAuto _ _ _ => true
  | .trainGo _ => true
  | .trainDone _ _ _ => true
  | .wckTrack _ _ => true
  | .walkDone _ _ => true
  | .atsCompletion _ _ => true
  | .dxPrPop => true
  | .dxPrResp _ => true
  | .prgResponse _ _ => true
  | .parkTimeout _ => true
  | .invalidate _ => true
  | .invalidateDone => true
  | .beatIssue => true
  | .beatResponse _ _ _ _ => true
  | .reqLineAssert _ _ => true
  | .reqLineWithdraw _ => true
  | .reqLineEnWrite _ => true
  | .pxIngress _ => true
  | .replNodeNext => true
  | .adaptPeriod => true
  | .switchTimeout _ _ => true
  | .rtcpReceiverReport _ _ => true
  | .legClosed _ => true
  | .jobTickDiscard _ => true
  | .contextPlace _ _ _ _ _ _ => true
  | .decodeBind _ _ => true
  | .frameBoundary _ _ => true
  | .pixelHang _ => true
  | .veRefMissPop _ => true
  | .pliRepeat _ _ => true
  | .encodeBind _ _ _ => true
  | .rowEnd _ _ _ _ _ => true
  | .keyRequest _ _ => true
  | .frameOpen _ _ => true
  | .frameWritten _ _ _ => true
  | .blendHang _ => true
  | .cpStalePop _ => true
  | .cpSigPop _ => true
  | .amTick _ => true
  | .mixForm _ => true
  | .mixLate _ => true
  | .rampEnd _ _ => true
  | .zeroCrossing _ _ _ => true
  | .zcTimeout _ _ => true
  | .crossfadeEnd _ => true
  | .mixHang => true
  | .kernelLoad _ => true
  | .kernelUnload _ => true
  | .jobStage _ => true
  | .deadlineMiss _ => true
  | .laneHang _ => true
  | .nopInstr _ _ => true
  | .halt _ _ => true
  | .ldst _ _ => true
  | .mac16 _ _ => true
  | .mac32 _ _ => true
  | .mul16 _ _ => true
  | .mul32 _ _ => true
  | .acld _ _ => true
  | .acclr _ _ => true
  | .acadd _ _ => true
  | .acgrd _ _ => true
  | .narrow32 _ _ => true
  | .narrow16 _ _ => true
  | .add _ _ => true
  | .adds _ _ => true
  | .sub _ _ => true
  | .subs _ _ => true
  | .landI _ _ => true
  | .lorI _ _ => true
  | .lxorI _ _ => true
  | .asr _ _ => true
  | .lsl _ _ => true
  | .minI _ _ => true
  | .maxI _ _ => true
  | .abs _ _ => true
  | .movi _ _ => true
  | .movhi _ _ => true
  | .norm _ _ => true
  | .seta _ _ => true
  | .mova _ _ => true
  | .setof _ _ => true
  | .setcb _ _ => true
  | .rep _ _ => true
  | .bra _ _ => true
  | .bz _ _ => true
  | .bnz _ _ => true
  | .blt _ _ => true
  | .bge _ _ => true
  | .bxclr _ _ => true
  | .bxrd _ _ => true
  | .bxen _ _ => true
  | .packetDequeue _ _ => true
  | .qmFlush _ => true
  | .flushDone => true
  | .policerRefill => true
  | .portReady _ _ _ => true
  | .shaperRefill => true
  | .gateChange _ => true
  | .gclPendingStart _ => true
  | .swap => true
  | .swapDone => true
  | .versionFree _ => true
  | .monitorSample _ => true
  | .epLinkDown _ => true
  | .epLinkUp _ _ => true
  | .epLaneFault _ _ => true
  | .pxHang => true
  | .tmHang => true
  | .refInEdge => true
  | .tuIncWrite _ => true
  | .tuRateWrite _ _ => true
  | .tuAdjWrite _ _ => true
  | .arm => true
  | .disarm => true
  | .tick _ => true
  | .servoUpdate _ _ => true
  | .holdoverEnter => true
  | .holdoverExpired => true
  | .oscModelStore _ _ _ _ => true
  | .ppsInEdge _ => true
  | .ppsInMissing => true
  | .txtsPop => true
  | .refLost => true
  | .refReturn _ => true
  | .retune _ _ _ => true
  | .calGo _ => true
  | .calibration _ _ _ _ _ _ => true
  | .txBurstStart _ _ => true
  | .burstEnd _ _ => true
  | .blockEnd _ _ => true
  | .rbChainRetireWrite _ _ => true
  | .rxBurst _ => true
  | .gfskFrame _ _ => true
  | .loUnlock _ _ => true
  | .modemHang _ => true
  | .callerAssembly => true
  | .grantAssembly _ _ => true
  | .reorderTimeout _ => true
  | .linkLost _ => true
  | .callerMiss _ => true
  | .sensorExchange _ => true
  | .sensorRetry _ => true
  | .discoveryCall => true
  | .windowAnswer => true
  | .macHang => true
  | .acLostPop => true
  | .inlineRequest _ => true
  | .keyErase _ _ => true
  | .lockService _ => true
  | .lockTest _ => true
  | .lockRecovery _ => true
  | .selftestDone _ _ _ => true
  | .ceHang _ => true
  | .stage _ => true
  | .confirm => true
  | .attest => true
  | .extend => true
  | .wrap => true
  | .challenge => true
  | .gateClose => true
  | .skReturn => true
  | .challengeExpire => true
  | .debugLockWrite _ => true
  | .rngFail => true
  | .firmwareIslandRst _ => true
  | .pwrgoodRise _ _ _ => true
  | .stageTimeout _ => true
  | .pwrgoodFall => true
  | .railDip => true
  | .resetN => true
  | .warmResetWrite _ => true
  | .wdogKick _ => true
  | .watchdogExpire _ => true
  | .thermalTrip _ => true
  | .phLinkDown => true
  | .phLinkUp _ _ => true
  | .smbStatus => true
  | .smbRegAddr _ => true
  | .smbRegDataRead => true
  | .smbRegDataWrite _ => true
  | .smbAlertResponse => true
  | .jtagBypass => true
  | .jtagIdcode => true
  | .jtagSamplePreload => true
  | .jtagExtest => true
  | .jtagClamp => true
  | .jtagHighz => true
  | .resetNRelease => true
  | .dpPllUnlock _ _ => true
  | .phPllUnlock _ => true
  | .pcieError _ => true
  | .hbHang => true
  | .fbHang => true
  | .dxHang => true
  | .coreFault _ => true
  | .tempWarn _ _ => true
  | .configWrite _ _ => true
  | .jtagDebugInstruction _ => true

end Sys2Proof
end

