-- ==== Sys2Proof/Certificates/Slice0/Obligations.lean ====
section
/-! DEFINITION. The statements about the block: what a step is, what each command of the table does where the spec says that
it takes effect, what commands leave unchanged, and the invariants. -/

open Sys2Proof Sys2Proof.Machine

/-! ## The queue and the whole block -/

/-- The command at the front of the queue is the one a step runs, on the rest of the queue. -/
def Obligations.StepRunsTheFrontCommand : Prop :=
  ∀ (s : State) (c : Instr), step (s.push c) = exec c s

/-- The block idles on an empty queue. This is the model's choice (assumption log 7): the spec speaks of no queue. -/
def Obligations.EmptyQueueIdles : Prop := ∀ s : State, s.pending = [] → step s = .next s

/-- No command of the table stops the block, and none touches the commands that wait. -/
def Obligations.NoCommandStopsOrTouchesTheQueue : Prop :=
  ∀ (c : Instr) (s : State), ∃ t, exec c s = .next t ∧ t.pending = s.pending

/-- R11, R530: whatever command runs, the partition in force goes on sharing out exactly 16,384 tags and no more
transactions than that are in flight. -/
def Obligations.EveryStepKeepsTheTagAccounts : Prop :=
  ∀ s t : State, s.Inv → step s = .next t → t.Inv

/-- The tag accounts stand after reset (Table 1.3). -/
def Obligations.ResetTagAccountsStand : Prop := State.reset.Inv

/-- What reset leaves (Tables 2.5, 2.6, 2.8, 2.12, 1.3; R92, R530): the units that hardware enables at PWRGOOD start, all others
are OFF; no event is raw or enabled; islands ask for VP4; no work is accepted. The empty queue is the model's own field. -/
def Obligations.ResetLeavesTheSpecsValues : Prop :=
  (∀ p : Page, (State.reset.dev.hdr p).enable = (p == Pg.tu || p == Pg.ps || p == Pg.sk || p == Pg.ph || p == Pg.hb)) ∧
  (∀ p : Page, (State.reset.dev.hdr p).state = if (State.reset.dev.hdr p).enable then .starting else .off) ∧
  (∀ p : Page, (State.reset.dev.hdr p).raw = 0 ∧ (State.reset.dev.hdr p).en = 0 ∧ (State.reset.dev.hdr p).hist = [] ∧
    (State.reset.dev.hdr p).reqVp = 4 ∧ (State.reset.dev.hdr p).grantedVp = 4 ∧ (State.reset.dev.hdr p).commitPending = false) ∧
  State.reset.tags.parts = { dx := 4096, ve := 512, cp := 512, shared := 2048 } ∧ State.reset.tags.flight = [] ∧
  (∀ n : RingNo, (State.reset.dev.ring n.val).enabled = false ∧ (State.reset.dev.ring n.val).acceptSeq = 0) ∧
  State.reset.dev.wk.items = [] ∧ State.reset.pending = []

/-! ## Registers (chapter 2) -/

/-- R25, R26, R29, R34, R36, R37, R40: what the register accesses do. REGISTER_WRITE stores a whole word and discards a part of one
with REG_WIDTH; PAIR_LO_READ latches the other half of the same moment; RWS_WRITE changes only the shadow, and while a
bow is pending it is discarded and counted; HB_WIN_BASE_WRITE stores a base up to 120 alone; RC_READ returns the word and clears its RC bits; RWP_WRITE goes
to PS and holds its page. -/
def Obligations.RegisterAccesses : Prop :=
  (∀ (s : State) (p : Page) (off : Nat) (v : Word), s.busFree → s.dev.pageHeld p = false →
    ((p = Pg.dir ∧ off = 0x38) ∨ ((kindOf p).hasCommit = true ∧ (off = 0x100 ∨ off = 0x104))) →
    ∃ t, exec (.registerWrite (regAt p off) 0xF v) s = .next t ∧ t.dev.reg p off = v ∧ sameRegsBut s.dev t.dev p off) ∧
  (∀ (s : State) (off : Bar0) (be : BitVec 4) (v : Word), s.busFree → be ≠ 0xF →
    ∃ t, exec (.registerWrite off be v) s = .next t ∧ raised t.dev Pg.hb Evt.HB_REG_WIDTH ∧ t.dev.pages.regs = s.dev.pages.regs) ∧
  (∀ (s : State) (p : Page) (off : Nat) (r : RegDesc), s.busFree → s.dev.pageHeld p = false →
    blockReg (kindOf p) off = some r → latchedBy (kindOf p) off ≠ [] →
    ∃ t, exec (.pairLoRead (regAt p off)) s = .next t ∧ t.dev.readData = s.dev.shown p r ∧
      ∀ o q, o ∈ latchedBy (kindOf p) off → blockReg (kindOf p) o = some q → t.dev.latchOf p o = s.dev.shown p q) ∧
  (∀ (s : State) (p : Page) (off : Nat) (r : RegDesc) (v : Word), s.busFree → s.dev.pageHeld p = false →
    blockReg (kindOf p) off = some r → hasAcc r .rws = true →
    ∃ t, exec (.rwsWrite (regAt p off) v) s = .next t ∧
      if (s.dev.hdr p).commitPending then t.dev.pages.shadow = s.dev.pages.shadow ∧ raised t.dev p Evt.SHADOW_LOCKED ∧
        t.dev.rf p commitStat 15 8 = min (s.dev.rf p commitStat 15 8 + 1) 255
      else t.dev.pages.regs = s.dev.pages.regs ∧
        t.dev.shadow p off = storeWord r (regKey p off 0) (fun a => a == .rws) (s.dev.shadow p off) v) ∧
  (∀ (s : State) (v : Word), s.busFree → s.dev.pageHeld Pg.hb = false →
    ∃ t, exec (.hbWinBaseWrite v) s = .next t ∧
      t.dev.rf Pg.hb Reg.HB_WIN_BASE 6 0 = if fld 6 0 v ≤ 120 then fld 6 0 v else s.dev.rf Pg.hb Reg.HB_WIN_BASE 6 0) ∧
  (∀ (s : State) (p : Page) (off : Nat) (r : RegDesc), s.busFree → s.dev.pageHeld p = false →
    blockReg (kindOf p) off = some r → hasAcc r .rc = true → popOf p off = none →
    ∃ t, exec (.rcRead (regAt p off)) s = .next t ∧
      t.dev.reg p off (s.dev.bankOf p r) = s.dev.reg p off (s.dev.bankOf p r) &&& ~~~ rcMask r ∧
      (measuredFields (kindOf p) off = [] → t.dev.readData = s.dev.shown p r)) ∧
  (∀ (s : State) (p : Page) (off : Nat) (r : RegDesc) (v : Word), s.busFree → s.dev.pageHeld p = false → s.dev.psFull = false →
    blockReg (kindOf p) off = some r → hasAcc r .rwp = true → recordOff (kindOf p) ≠ some off →
    ¬(p = Pg.sk ∧ off = Reg.SK_DEBUG_LOCK) → ¬(p = Pg.ac ∧ off = Reg.AC_COUNTRY) →
    ∃ t, exec (.rwpWrite (regAt p off) v) s = .next t ∧ t.dev.pageHeld p = true ∧ t.dev.pages.regs = s.dev.pages.regs ∧
      t.dev.ps.queue = s.dev.ps.queue ++
        [⟨p.val * 0x1000 + off, storeWord r (regKey p off 0) (fun a => a == .rwp) (s.dev.reg p off) v, false⟩])

/-- How a written word is stored field by field: a field of another access code keeps its bits, one of the accepted codes takes
the written value where its rule admits it and else what the rule states. -/
def Obligations.FieldsAreStoredByTheirRules : Prop :=
  (∀ (a b : Nat) (old v width lo key : Nat), fieldStore (.keep a b) key lo width old v = if a ≤ v ∧ v ≤ b then v else old) ∧
  (∀ (a b : Nat) (old v width lo key : Nat), a ≤ b → let w := fieldStore (.clamp a b) key lo width old v
    a ≤ w ∧ w ≤ b ∧ (a ≤ v → v ≤ b → w = v)) ∧
  (∀ (k : PageKind) (r : RegDesc) (f : Field) (key : Nat) (accept : Acc → Bool) (old v : Word),
    r ∈ blockRegs k → f ∈ r.fields → accept f.acc = true → f.rule = .any →
    fld f.hi f.lo (storeWord r key accept old v) = fld f.hi f.lo v) ∧
  (∀ (k : PageKind) (r : RegDesc) (f : Field) (key : Nat) (accept : Acc → Bool) (old v : Word),
    r ∈ blockRegs k → f ∈ r.fields → accept f.acc = false → f.acc ≠ .w1c →
    fld f.hi f.lo (storeWord r key accept old v) = fld f.hi f.lo old)

/-- Table 2.3 and Table 23.2: PAGE_ID tells the page's number, instance and block type, in every state, and reading it changes
nothing of the block. -/
def Obligations.PageIdIsHardWired : Prop :=
  ∀ (d : Dev) (p : Page), p ≠ Pg.dir →
    (d.regRead (p.val * 0x1000)).1 = d ∧
    fld 15 0 (d.regRead (p.val * 0x1000)).2 = p.val ∧
    fld 23 16 (d.regRead (p.val * 0x1000)).2 = instOf p ∧
    fld 31 24 (d.regRead (p.val * 0x1000)).2 = blockType (kindOf p)

/-- R529: while the part is not in MANUFACTURE a manufacturing register reads 0, discards writes and raises nothing; in MANUFACTURE a
write reaches it and a read gives what it holds. An offset that holds no register at all (R27) reads 0 and takes no write, and the
write raises REG_HOLE. -/
def Obligations.MissingRegistersReadZero : Prop :=
  (∀ (d : Dev) (p : Page) (off : Nat) (v : Word), isMfg (kindOf p) off = true → off % 4 = 0 → d.lifecycle ≠ 0 →
    d.regRead (p.val * 0x1000 + off) = (d, 0) ∧ d.regWrite (p.val * 0x1000 + off) v = d) ∧
  (∀ (d : Dev) (p : Page) (off : Nat) (v : Word), isMfg (kindOf p) off = true → off % 4 = 0 → d.lifecycle = 0 →
    d.regRead (p.val * 0x1000 + off) = (d, Config.mfgRead (p.val * 0x1000 + off) (d.reg p off)) ∧
      (d.regWrite (p.val * 0x1000 + off) v).reg p off = v ∧ sameRegsBut d (d.regWrite (p.val * 0x1000 + off) v) p off) ∧
  (∀ (d : Dev) (off : Nat) (v : Word), isHole off = true → off % 4 = 0 →
    d.regRead off = (d, 0) ∧ (d.regWrite off v).pages.regs = d.pages.regs ∧ raised (d.regWrite off v) Pg.hb Evt.HB_REG_HOLE)

/-! ## Pages (R31, R106, R496) -/

/-- Table 2.7, R31: how a page starts, drains and is reset. ENABLE takes an OFF unit to STARTING; an initialised unit is READY or
RUNNING; DISABLE drains it; DRAIN_DONE takes it to OFF or back to STARTING; ISLAND_RST withdraws the bow and reads 1 until
ISLAND_RESET_DONE. -/
def Obligations.PageLife : Prop :=
  (∀ (s : State) (p : Page), kindOf p ≠ .dir → (s.dev.hdr p).state = .off → (s.dev.hdr p).rst = false → s.dev.mayLeaveOff p = true →
    ∃ t, exec (.enable p) s = .next t ∧ (t.dev.hdr p).state = .starting ∧ (t.dev.hdr p).enable = true ∧
      sameHdrsBut s.dev t.dev p ∧ t.dev.pages.regs = s.dev.pages.regs) ∧
  (∀ (s : State) (p : Page), kindOf p ≠ .sk → kindOf p ≠ .dp → kindOf p ≠ .mc → kindOf p ≠ .ds → kindOf p ≠ .ac → kindOf p ≠ .cv →
    (s.dev.hdr p).state = .starting → (s.dev.hdr p).rst = false → s.dev.tu.refPresent = true → s.dev.sys.stage = 6 →
    ∃ t, exec (.unitInitialised p) s = .next t ∧ sameHdrsBut s.dev t.dev p ∧
      (t.dev.hdr p).state = if 0 < (s.dev.hdr p).inflight ∨ (s.dev.hdr p).continuous = true ∨ kindOf p = .tu then .running else .ready) ∧
  (∀ (s : State) (p : Page), s.dev.enableIgnored p = false →
    ((s.dev.hdr p).state = .starting ∨ (s.dev.hdr p).state = .ready ∨ (s.dev.hdr p).state = .running) →
    ∃ t, exec (.disable p 0) s = .next t ∧ (t.dev.hdr p).state = .draining ∧ (t.dev.hdr p).enable = false ∧
      (t.dev.hdr p).drainReturn = false ∧ sameHdrsBut s.dev t.dev p ∧ t.dev.pages.regs = s.dev.pages.regs) ∧
  (∀ (s : State) (p : Page) (mode : BitVec 2), s.dev.enableIgnored p = false → 2 ≤ mode.toNat → (s.dev.hdr p).drainReturn = false →
    ∃ t, exec (.disable p mode) s = .next t ∧ (t.dev.hdr p).drainReturn = false ∧ (t.dev.hdr p).enable = false) ∧
  (∀ (s : State) (p : Page), (s.dev.hdr p).state = .draining → (s.dev.hdr p).inflight = 0 → kindOf p ≠ .ep → kindOf p ≠ .mg →
    ∃ t, exec (.drainDone p) s = .next t ∧ sameHdrsBut s.dev t.dev p ∧
      (t.dev.hdr p).state = if (s.dev.hdr p).enable = true ∧ s.dev.mayLeaveOff p = true then .starting else .off) ∧
  (∀ (s : State) (p : Page), (s.dev.hdr p).state = .draining → (s.dev.hdr p).inflight = 0 → kindOf p = .ep →
    ∃ t, exec (.drainDone p) s = .next t ∧ t.dev.rf p Reg.EP_LINK_STAT 3 0 = 0 ∧
      ((t.dev.hdr p).state = .starting ∨ (t.dev.hdr p).state = .off)) ∧
  (∀ (s : State), (s.dev.hdr Pg.mg).state = .draining → (s.dev.hdr Pg.mg).inflight = 0 →
    ∃ t, exec (.drainDone Pg.mg) s = .next t ∧ t.dev.rb Pg.mg Reg.MG_STAT 0 = false ∧
      ((t.dev.hdr Pg.mg).state = .starting ∨ (t.dev.hdr Pg.mg).state = .off)) ∧
  (∀ (s : State) (p : Page), kindOf p ≠ .dir → (s.dev.hdr p).state ≠ .sitOut → (s.dev.hdr p).rst = false →
    ∃ t, exec (.islandRst p) s = .next t ∧ (t.dev.hdr p).rst = true ∧ (t.dev.hdr p).commitPending = false ∧
      (t.dev.hdr p).state = (s.dev.hdr p).state ∧ sameHdrsBut s.dev t.dev p ∧ t.dev.pages.regs = s.dev.pages.regs) ∧
  (∀ (s : State) (p : Page), (s.dev.hdr p).rst = true → (s.dev.hdr p).state ≠ .sitOut →
    ∃ t, exec (.islandResetDone p) s = .next t ∧ (t.dev.hdr p).rst = false ∧
      ((t.dev.hdr p).state = .starting ∨ (t.dev.hdr p).state = .off) ∧ ∀ o, o < 0x1000 → t.dev.latchOf p o = 0) ∧
  (∀ (s : State) (p : Page), s.dev.fwRuns = true → (s.dev.hdr p).state = .faulted → (s.dev.hdr p).rst = false →
    kindOf p ≠ .dir → kindOf p ≠ .sk → kindOf p ≠ .cc →
    ∃ t, exec (.firmwareIslandRst p) s = .next t ∧ (t.dev.hdr p).rst = true ∧ sameHdrsBut s.dev t.dev p) ∧
  (∀ (s : State) (p : Page), (s.dev.hdr p).state = .starting → s.dev.sys.stage = 6 →
    ∃ t, exec (.stageTimeout p) s = .next t ∧ (t.dev.hdr p).state = .faulted ∧ sameHdrsBut s.dev t.dev p)

/-- R34 to R39: COMMIT, COMMIT_CANCEL and BOW. A request that its checks and the page's validator pass is pending and changes no active value;
a refused one sets CAUSE and raises COMMIT_REJECT; a page without COMMIT_STAT always refuses; COMMIT_CANCEL reloads every shadow
from its active value; a bow makes every shadow of the page active at once and counts itself. -/
def Obligations.Bows : Prop :=
  (∀ (s : State) (p : Page) (at_ : BitVec 2), (kindOf p).hasCommit = true → at_ ≠ 0 → s.dev.commitCause p at_.toNat = none →
    ((s.dev.modHdr p (fun h => { h with commitAt := at_ })).validate p).2 = true →
    ∃ t, exec (.commit p at_) s = .next t ∧ (t.dev.hdr p).commitPending = true ∧ (t.dev.hdr p).bowAt = at_ ∧
      t.dev.pages.regs = s.dev.pages.regs ∧ t.dev.pages.shadow = s.dev.pages.shadow ∧ t.dev.pages.tbl = s.dev.pages.tbl) ∧
  (∀ (s : State) (p : Page) (at_ : BitVec 2) (c : Nat), (kindOf p).hasCommit = true → s.dev.commitCause p at_.toNat = some c →
    ∃ t, exec (.commit p at_) s = .next t ∧ t.dev.rf p commitStat 3 0 = c ∧ raised t.dev p Evt.COMMIT_REJECT ∧
      (t.dev.hdr p).commitPending = (s.dev.hdr p).commitPending ∧ t.dev.pages.shadow = s.dev.pages.shadow ∧ t.dev.pages.tbl = s.dev.pages.tbl) ∧
  (∀ (s : State) (p : Page) (at_ : BitVec 2), (kindOf p).hasCommit = false → kindOf p ≠ .dir →
    ∃ t, exec (.commit p at_) s = .next t ∧ raised t.dev p Evt.COMMIT_REJECT ∧
      (t.dev.hdr p).commitPending = (s.dev.hdr p).commitPending ∧ t.dev.pages.regs = s.dev.pages.regs) ∧
  (∀ (s : State) (p : Page), (s.dev.hdr p).commitPending = true →
    ∃ t, exec (.commitCancel p) s = .next t ∧ (t.dev.hdr p).commitPending = false ∧ t.dev.pages.regs = s.dev.pages.regs ∧
      (∀ r, r ∈ rwsRegs p → t.dev.shadow p r.off = s.dev.reg p r.off) ∧
      (∀ k, k ∈ s.dev.shadowKeys p → t.dev.tsw p (k / 4 % 2 ^ 24) (k % 4) = s.dev.tw p (k / 4 % 2 ^ 24) (k % 4))) ∧
  (∀ (s : State) (p : Page), kindOf p = .ve ∨ kindOf p = .am → (s.dev.hdr p).commitPending = true → s.dev.atBoundary p = true →
    ((s.dev.hdr p).bowAt = 2 → (s.dev.commitTime p : Int) ≤ s.dev.timeNs) →
    ∃ t, exec (.bow p) s = .next t ∧ (t.dev.hdr p).commitPending = false ∧
      t.dev.rf p commitStat 31 16 = (s.dev.rf p commitStat 31 16 + 1) % 65536 ∧
      ∀ r, r ∈ rwsRegs p → t.dev.reg p r.off &&& rwsMask r = s.dev.shadow p r.off &&& rwsMask r)

/-- R32, R33, R48, R483, R487: the event registers. A W1C write clears bits that no condition keeps set; EVT_EN takes its value, and a
source newly enabled whose raw bit carries NOTICE or above sends the page's vector; EVT_FORCE sets the raw bit and writes
history, and in SIT_OUT history alone; HIST_READ pops the oldest entry and reads 0 when there is none. -/
def Obligations.EventRegisters : Prop :=
  (∀ (s : State) (p : Page) (v : Word), kindOf p ≠ .dir → (s.dev.hdr p).raw &&& v &&& (s.dev.hdr p).persists = 0 →
    ∃ t, exec (.evtRawClear p v) s = .next t ∧ (t.dev.hdr p).raw = (s.dev.hdr p).raw &&& ~~~ v ∧ sameHdrsBut s.dev t.dev p) ∧
  (∀ (s : State) (p : Page) (v : Word) (n : Fin 32), kindOf p ≠ .dir → bit n.val v = true → bit n.val (s.dev.hdr p).raw = true →
    bit n.val (s.dev.hdr p).persists = true →
    ∃ t, exec (.evtRawClear p v) s = .next t ∧ raised t.dev p n.val) ∧
  (∀ (s : State) (p : Page) (v : Word), kindOf p ≠ .dir →
    ∃ t, exec (.evtEnWrite p v) s = .next t ∧ (t.dev.hdr p).en = v ∧ (t.dev.hdr p).raw = (s.dev.hdr p).raw ∧ sameHdrsBut s.dev t.dev p) ∧
  (∀ (s : State) (p : Page) (v : Word) (n : Fin 32), kindOf p ≠ .dir → bit n.val v = true → bit n.val (s.dev.hdr p).en = false →
    bit n.val (s.dev.hdr p).raw = true → (s.dev.hdr p).carried n.val ≠ .log → s.dev.sys.l0 = true → s.dev.vectorMasked (p.val - 1) = false →
    ∃ t, exec (.evtEnWrite p v) s = .next t ∧ Output.msix (p.val - 1) ∈ t.dev.out) ∧
  (∀ (s : State) (p : Page) (n : Fin 32), kindOf p ≠ .dir → (s.dev.hdr p).state ≠ .sitOut →
    ∃ t, exec (.evtForce p n) s = .next t ∧ raised t.dev p n.val ∧ ∃ e ∈ (t.dev.hdr p).hist, e.source = n.val) ∧
  (∀ (s : State) (p : Page) (n : Fin 32), kindOf p ≠ .dir → (s.dev.hdr p).state = .sitOut →
    ∃ t, exec (.evtForce p n) s = .next t ∧ (t.dev.hdr p).raw = (s.dev.hdr p).raw ∧ ∃ e ∈ (t.dev.hdr p).hist, e.source = n.val) ∧
  (∀ (s : State) (p : Page) (e : HistEntry) (es : List HistEntry), (s.dev.hdr p).hist = e :: es →
    ∃ t, exec (.histRead p) s = .next t ∧ t.dev.readData = e.word ∧ (t.dev.hdr p).hist = es ∧ sameHdrsBut s.dev t.dev p) ∧
  (∀ (s : State) (p : Page), (s.dev.hdr p).hist = [] → ∃ t, exec (.histRead p) s = .next t ∧ t.dev.readData = 0)

/-- R40, R42, R44: PS ends a write with both copies equal: the word and its register take the value, the cell wears by one and the
page is released; an equal value is skipped. ROP_COMMIT stores what the ROP words count to, once 60 s have passed. -/
def Obligations.PersistentStore : Prop :=
  (∀ (s : State) (w : PsWrite) (p : Page) (i : Nat), s.dev.ps.queue = [w] → w.record = false → s.dev.pages.waiting = [] → s.dev.asks = [] →
    pageOf w.off = some p → kindOf p ≠ .cc → kindOf p ≠ .tu → kindOf p ≠ .ep → wordIndex w.off = some i →
    (s.dev.psWord i).worn = false → s.dev.wear (s.dev.psWord i).slot < endurance → s.dev.nv w.off ≠ w.v →
    ∃ t, exec (.persistentWriteDone .equal) s = .next t ∧ t.dev.nv w.off = w.v ∧ t.dev.reg p (w.off % 0x1000) = w.v ∧
      t.dev.wear (s.dev.psWord i).slot = s.dev.wear (s.dev.psWord i).slot + 1 ∧ t.dev.ps.queue = [] ∧ t.dev.pageHeld p = false) ∧
  (∀ (s : State) (w : PsWrite) (p : Page) (i : Nat), s.dev.ps.queue = [w] → w.record = false → s.dev.pages.waiting = [] → s.dev.asks = [] →
    pageOf w.off = some p → wordIndex w.off = some i → (s.dev.psWord i).worn = false → s.dev.nv w.off = w.v →
    ∃ t, exec (.persistentWriteDone .equal) s = .next t ∧ t.dev.ps.wear = s.dev.ps.wear ∧ t.dev.ps.nv = s.dev.ps.nv ∧
      t.dev.rf Pg.ps Reg.PS_SKIP_COUNT 31 0 = (s.dev.rf Pg.ps Reg.PS_SKIP_COUNT 31 0 + 1) % 2 ^ 32) ∧
  (∀ (s : State) (o : Nat) (p : Page), s.dev.ps.lastCommitMs + 60000 ≤ s.dev.nowNs / 1000000 →
    (∀ i, i < 160 → s.dev.wear (s.dev.psWord i).slot + 1 < endurance ∧ (s.dev.psWord i).worn = false ∧ (s.dev.psWord i).slot = i) →
    o ∈ ropWords → pageOf o = some p →
    ∃ t, exec .ropCommit s = .next t ∧ t.dev.nv o = s.dev.ropNow p (o % 0x1000) ∧ t.dev.pages.regs = s.dev.pages.regs) ∧
  (∀ s : State, s.dev.nowNs / 1000000 < s.dev.ps.lastCommitMs + 60000 → exec .ropCommit s = .next s)

/-- R119, R471, R477, R484, R485: retirement records. A write of 0 to a set bit starts the unit's re-qualification and leaves the bit; a write of 1
takes the unit out at once; a passed re-qualification sends the record with the bit clear to PS, a failed one detects the
retiring source again; and PS stores the record. -/
def Obligations.RetirementRecords : Prop :=
  (∀ (s : State) (p : Page) (b : Fin 9), (recordAt p b.val).isSome = true → kindOf p ≠ .mc → kindOf p ≠ .rb →
    (s.dev.records p).testBit b.val = true →
    ∃ t, exec (.retireRecClear p b) s = .next t ∧ (t.dev.hdr p).requal.getLsbD b.val = true ∧ t.dev.pages.regs = s.dev.pages.regs ∧
      sameHdrsBut s.dev t.dev p) ∧
  (∀ (s : State) (p : Page), (kindOf p).retiresPage = true → s.dev.unitOut p 0 = false → (s.dev.hdr p).state ≠ .sitOut →
    ∃ t, exec (.retireRecSet p 0) s = .next t ∧ (t.dev.hdr p).state = .sitOut ∧ t.dev.unitOut p 0 = true ∧
      t.dev.pages.regs = s.dev.pages.regs) ∧
  (∀ (s : State) (p : Page) (b : Fin 9), (recordAt p b.val).isSome = true → kindOf p ≠ .cc → (s.dev.hdr p).requal.getLsbD b.val = true →
    ∃ t w, exec (.requalifyDone p b true) s = .next t ∧ w ∈ t.dev.ps.queue ∧ w.record = true ∧ bit b.val w.v = false ∧
      recordAt p b.val = some (w.off - p.val * 0x1000)) ∧
  (∀ (s : State) (p : Page) (b : Fin 9), (recordAt p b.val).isSome = true → (s.dev.hdr p).requal.getLsbD b.val = true →
    ∃ t, exec (.requalifyDone p b false) s = .next t ∧ raised t.dev p (retiringSource (kindOf p))) ∧
  (∀ (s : State) (p : Page) (b : Fin 9) (off i : Nat) (v : Word), recordAt p b.val = some off → (kindOf p).retiresPage = true →
    s.dev.ps.queue = [{ off := p.val * 0x1000 + off, v := v, record := true }] → bit b.val v = true → s.dev.pages.waiting = [] →
    s.dev.asks = [] → wordIndex (p.val * 0x1000 + off) = some i → (s.dev.psWord i).worn = false →
    s.dev.wear (s.dev.psWord i).slot < endurance → s.dev.nv (p.val * 0x1000 + off) ≠ v →
    ∃ t, exec (.retireRecordCommit p b) s = .next t ∧ t.dev.nv (p.val * 0x1000 + off) = v ∧ t.dev.ps.queue = [])

/-! ## The fabric (R11, R14, R530) -/

/-- R11, R14, R530: a request takes a tag of its partition, or waits; an access that FB answers with an error latches its address;
a returned tag is free again; the partition registers hold their values until a write of FB_SHARED_PART whose four values sum to
16,384 makes them hold, and any other sum discards them with PARTITION_REFUSED. -/
def Obligations.FabricTags : Prop :=
  (∀ (s : State) (who : Requester) (a : BitVec 48) (wr : Bool), s.tags.free who = true →
    s.tags.waiters.any (fun w => sameShare w.who who) = false →
    ∃ t, exec (.fabricRequest who a wr) s = .next t ∧ t.tags.flight = who :: s.tags.flight ∧ t.tags.waiters = s.tags.waiters ∧
      t.tags.parts = s.tags.parts) ∧
  (∀ (s : State) (who : Requester) (a : BitVec 48) (wr : Bool), s.tags.free who = true →
    s.tags.waiters.any (fun w => sameShare w.who who) = false → fabricHole who a.toNat = true →
    ∃ t, exec (.fabricRequest who a wr) s = .next t ∧ Output.addressError who ∈ t.dev.out ∧ raised t.dev Pg.fb Evt.FB_ADDR_HOLE ∧
      (t.dev.reg Pg.fb Reg.FB_HOLE_ADDR_LO).toNat + t.dev.rf Pg.fb Reg.FB_HOLE_ADDR_HI 15 0 * 2 ^ 32 = a.toNat) ∧
  (∀ (s : State) (who : Requester) (a : BitVec 48) (wr : Bool), s.tags.free who = false →
    ∃ t, exec (.fabricRequest who a wr) s = .next t ∧ t.tags.flight = s.tags.flight ∧
      t.tags.waiters = s.tags.waiters ++ [{ who := who, addr := a, write := wr }] ∧ t.dev = s.dev) ∧
  (∀ (s : State) (who : Requester), who ∈ s.tags.flight → s.tags.waiters = [] →
    ∃ t, exec (.tagReturn who) s = .next t ∧ t.tags.flight = s.tags.flight.erase who ∧ t.tags.parts = s.tags.parts ∧
      t.dev.rf Pg.fb Reg.FB_TAGS_USED 14 0 = (s.tags.flight.length - 1) % 2 ^ 15) ∧
  (∀ (s : State) (which : Fin 3) (v : Word), ∃ t, exec (.fbPartWrite which v) s = .next t ∧ t.tags.parts = s.tags.parts ∧
      (which = 0 → t.tags.pendDx = some (fld 14 0 v)) ∧ (which = 1 → t.tags.pendVe = some (fld 9 0 v)) ∧
      (which = 2 → t.tags.pendCp = some (fld 10 0 v))) ∧
  (∀ (s : State) (v : Word), (s.tags.proposed v).total = maxTags → s.tags.waiters = [] →
    ∃ t, exec (.fbSharedPartWrite v) s = .next t ∧ t.tags.parts = s.tags.proposed v ∧ t.tags.pendDx = none ∧ t.tags.pendVe = none ∧
      t.tags.pendCp = none) ∧
  (∀ (s : State) (v : Word), (s.tags.proposed v).total ≠ maxTags →
    ∃ t, exec (.fbSharedPartWrite v) s = .next t ∧ t.tags.parts = s.tags.parts ∧ t.tags.pendDx = none ∧ t.tags.pendVe = none ∧
      t.tags.pendCp = none ∧ raised t.dev Pg.fb Evt.FB_PARTITION_REFUSED)

/-! ## Detections from outside (R17, R18, R475) -/

/-- R475: no progress of HB, FB or DX for 10 ms while work is due raises the page's hang source; at TRANSIENT within the limit an
island reset begins, at PERMANENT the page enters FAULTED; no other page's header changes. -/
def Obligations.HangsResetOrFault : Prop :=
  ∀ (s : State) (c : Instr) (p : Page) (src : Nat),
    (c, p, src) ∈ [(Instr.hbHang, Pg.hb, Evt.HB_HANG), (Instr.fbHang, Pg.fb, Evt.FB_HANG), (Instr.dxHang, Pg.dx, Evt.DX_HANG)] →
    s.dev.up p = true →
    ∃ t, exec c s = .next t ∧ raised t.dev p src ∧ sameHdrsBut s.dev t.dev p ∧ t.dev.pages.regs = s.dev.pages.regs ∧
      ((s.dev.hdr p).sev src = .transient → (s.dev.hdr p).counted = [] → 0 < (s.dev.hdr p).limit →
        (t.dev.hdr p).rst = true ∧ (t.dev.hdr p).state = (s.dev.hdr p).state) ∧
      ((s.dev.hdr p).sev src = .permanent → (t.dev.hdr p).state = .faulted ∧ (t.dev.hdr p).rst = false)

/-- R44, R48, R475: PLLs, the PCI Express link, control cores and the temperature warning. A lost lock is shown and raised, and holds the
parity group until the PLL relocks; a link error is counted and raised; the link's leaving and reaching L0 are counted, raised
and, on the return, let the pending messages go; a core's fault restarts its task; the hottest sensor at CC_TEMP_WARN raises
TEMP_WARN. -/
def Obligations.LinkCoreAndHeatDetections : Prop :=
  (∀ (s : State) (g : Group), ∃ t, exec (.dpPllUnlock g false) s = .next t ∧ (t.dev.grp g.val).unlocked = true ∧
      (t.dev.hdr (Pg.dp g)).pllLock = false ∧ (t.dev.hdr (Pg.dp g)).unlockSeen = true ∧ raised t.dev (Pg.dp g) Evt.DP_PLL_UNLOCK ∧
      t.dev.ram = s.dev.ram) ∧
  (∀ (s : State) (g : Group), (s.dev.grp g.val).held = [] → ∃ t, exec (.dpPllUnlock g true) s = .next t ∧
      (t.dev.grp g.val).unlocked = false ∧ (t.dev.hdr (Pg.dp g)).pllLock = true ∧ (t.dev.hdr (Pg.dp g)).unlockSeen = true ∧
      raised t.dev (Pg.dp g) Evt.DP_PLL_UNLOCK) ∧
  (∀ (s : State) (relocks : Bool), ∃ t, exec (.phPllUnlock relocks) s = .next t ∧ (t.dev.hdr Pg.ph).pllLock = relocks ∧
      raised t.dev Pg.ph Evt.PH_PLL_UNLOCK ∧ t.dev.sys.l0 = (relocks && s.dev.sys.l0) ∧
      t.dev.rf Pg.ph Reg.PH_RECOVERY_CNT 15 0 = (s.dev.rf Pg.ph Reg.PH_RECOVERY_CNT 15 0 + 1) % 65536) ∧
  (∀ (s : State), ∃ t, exec (.pcieError .correctable) s = .next t ∧ raised t.dev Pg.ph Evt.PH_AER_CORR ∧
      t.dev.rf Pg.ph Reg.PH_ERR_CNT 15 0 = min (s.dev.rf Pg.ph Reg.PH_ERR_CNT 15 0 + 1) 65535 ∧
      t.dev.rf Pg.ph Reg.PH_ERR_CNT 31 16 = s.dev.rf Pg.ph Reg.PH_ERR_CNT 31 16) ∧
  (∀ (s : State), ∃ t, exec (.pcieError .uncorrectable) s = .next t ∧ raised t.dev Pg.ph Evt.PH_AER_UNCORR ∧
      t.dev.rf Pg.ph Reg.PH_ERR_CNT 31 16 = min (s.dev.rf Pg.ph Reg.PH_ERR_CNT 31 16 + 1) 65535 ∧
      t.dev.rf Pg.ph Reg.PH_ERR_CNT 15 0 = s.dev.rf Pg.ph Reg.PH_ERR_CNT 15 0) ∧
  (∀ (s : State), s.dev.sys.l0 = true → ∃ t, exec .phLinkDown s = .next t ∧ t.dev.sys.l0 = false ∧ raised t.dev Pg.ph Evt.PH_LINK_DOWN ∧
      t.dev.rf Pg.hb Reg.HB_LINK_DOWN_COUNT 15 0 = min (s.dev.rf Pg.hb Reg.HB_LINK_DOWN_COUNT 15 0 + 1) 65535) ∧
  (∀ (s : State) (speed : Fin 8) (width : Fin 16), ∃ t, exec (.phLinkUp speed width) s = .next t ∧ t.dev.sys.l0 = true ∧
      raised t.dev Pg.ph Evt.PH_LINK_UP ∧ t.dev.rf Pg.ph Reg.PH_LINK_STAT 3 0 = speed.val ∧ t.dev.rf Pg.ph Reg.PH_LINK_STAT 7 4 = width.val ∧
      ∀ v, v ∈ s.dev.sys.pend → s.dev.vectorMasked v = false → Output.msix v ∈ t.dev.out) ∧
  (∀ (s : State) (core : Fin 8), s.dev.unitOut Pg.cc core.val = false →
    ∃ t, exec (.coreFault core) s = .next t ∧ raised t.dev Pg.cc Evt.CC_CORE_FAULT ∧ s.dev.sys.coreTasks < t.dev.sys.coreTasks) ∧
  (∀ (s : State) (hot : Int) (sensor : Fin 24), signed 8 (s.dev.rf Pg.cc Reg.CC_TEMP_WARN 7 0) ≤ hot →
    ∃ t, exec (.tempWarn hot sensor) s = .next t ∧ raised t.dev Pg.cc Evt.CC_TEMP_WARN ∧ t.dev.en.hot = hot ∧
      t.dev.rf Pg.cc Reg.CC_TJ_NOW 7 0 = unsigned 8 hot ∧ sameHdrsBut s.dev t.dev Pg.cc)

/-! ## Pace and energy (chapter 3) -/

/-- R50, R52, R54 to R56: voltage points, floors and lifts. REQ_VP is stored and granted when the supply settles, REQ_VP plus the lift up
to VP7; the second short interval in a row lifts the island by one point, or breaches its floor at VP7; an interval that meets
the floor ends the run and the breach; the pace is shown; and after 100 ms above the floor with margin one step is released. -/
def Obligations.VoltageFollowsPace : Prop :=
  (∀ (s : State) (p : Page) (vp : Fin 8), (kindOf p).selfTimed = true →
    ∃ t, exec (.reqVpWrite p vp) s = .next t ∧ (t.dev.hdr p).reqVp = vp ∧ (t.dev.hdr p).grantedVp = (s.dev.hdr p).grantedVp ∧
      t.dev.lift p = s.dev.lift p ∧ sameHdrsBut s.dev t.dev p ∧ t.dev.pages.regs = s.dev.pages.regs) ∧
  (∀ (s : State) (p : Page), (kindOf p).selfTimed = true →
    ∃ t, exec (.vpSettled p) s = .next t ∧ (t.dev.hdr p).grantedVp.val = s.dev.aimVp p ∧ (t.dev.hdr p).reqVp = (s.dev.hdr p).reqVp ∧
      sameHdrsBut s.dev t.dev p ∧ t.dev.pages.tbl = s.dev.pages.tbl ∧
      ((s.dev.hdr p).grantedVp.val ≠ s.dev.aimVp p → ∀ i ∈ t.dev.wk.items, i.page? = some p → i.eligible = false)) ∧
  (∀ (s : State) (p : Page) (count : Nat), (kindOf p).hasFloor = true → count < s.dev.floor p →
    SMap.get (fun _ => 0) s.dev.en.shortRun p.val = 0 →
    ∃ t, exec (.paceInterval p count) s = .next t ∧ t.dev.lift p = s.dev.lift p ∧ t.dev.pages.hdrs = s.dev.pages.hdrs ∧
      SMap.get (fun _ => 0) t.dev.en.shortRun p.val = 1) ∧
  (∀ (s : State) (p : Page) (count : Nat), (kindOf p).hasFloor = true → count < s.dev.floor p → s.dev.en.tripped = false →
    0 < SMap.get (fun _ => 0) s.dev.en.shortRun p.val → s.dev.aimVp p < 7 →
    ∃ t, exec (.paceInterval p count) s = .next t ∧ t.dev.lift p = s.dev.lift p + 1 ∧ raised t.dev p Evt.PACE_LIFT ∧
      sameHdrsBut s.dev t.dev p) ∧
  (∀ (s : State) (p : Page) (count : Nat), (kindOf p).hasFloor = true → count < s.dev.floor p →
    0 < SMap.get (fun _ => 0) s.dev.en.shortRun p.val → s.dev.aimVp p = 7 → (s.dev.hdr p).grantedVp = 7 →
    SMap.get (fun _ => false) s.dev.en.breach p.val = false →
    ∃ t, exec (.paceInterval p count) s = .next t ∧ t.dev.lift p = s.dev.lift p ∧ raised t.dev p Evt.PACE_FLOOR_BREACH ∧
      bit Evt.PACE_FLOOR_BREACH (t.dev.hdr p).persists = true ∧ SMap.get (fun _ => false) t.dev.en.breach p.val = true) ∧
  (∀ (s : State) (p : Page) (count : Nat), (kindOf p).hasFloor = true → 0 < s.dev.floor p → s.dev.floor p ≤ count →
    ∃ t, exec (.paceInterval p count) s = .next t ∧ SMap.get (fun _ => 0) t.dev.en.shortRun p.val = 0 ∧
      SMap.get (fun _ => false) t.dev.en.breach p.val = false ∧ bit Evt.PACE_FLOOR_BREACH (t.dev.hdr p).persists = false ∧
      (t.dev.hdr p).raw = (s.dev.hdr p).raw ∧ t.dev.pages.tbl = s.dev.pages.tbl) ∧
  (∀ (s : State) (p : Page) (pace : Nat), (kindOf p).selfTimed = true →
    ∃ t, exec (.paceMeterUpdate p pace) s = .next t ∧ (t.dev.hdr p).pace = min pace 65535 ∧ (t.dev.hdr p).reqVp = (s.dev.hdr p).reqVp ∧
      sameHdrsBut s.dev t.dev p) ∧
  (∀ (s : State) (p : Page) (since : Nat), SMap.get (fun _ => none) s.dev.en.heldSince p.val = some since → 0 < s.dev.lift p →
    since + 100000000 ≤ s.dev.nowNs → SMap.get (fun _ => false) s.dev.en.liftedSince p.val = false →
    ∃ t, exec (.liftRelease p) s = .next t ∧ t.dev.lift p = s.dev.lift p - 1 ∧ t.dev.pages.hdrs = s.dev.pages.hdrs ∧
      SMap.get (fun _ => 0) t.dev.en.lastRelease p.val = s.dev.nowNs) ∧
  (∀ (s : State) (p : Page), SMap.get (fun _ => none) s.dev.en.heldSince p.val = none → exec (.liftRelease p) s = .next s)

/-- R57, R58, R60: firmware's plan and the temperature policy. With PACE_PLAN = 1 every island asks for the lowest point whose predicted
pace meets its floor with margin at the hottest and the coldest junction, VP7 where none does; with PACE_PLAN = 0 none is
changed. A reading of the sensors is shown; above +110 °C every class of levels 2 and 3 is forced to its fallback. -/
def Obligations.PlansAndTemperatures : Prop :=
  (∀ (s : State), s.dev.fwRuns = true → s.dev.rb Pg.cc Reg.CC_FW_CFG 0 = true → s.dev.en.hotForce = false →
    ∃ t, exec .replan s = .next t ∧ ∀ p : Page, (kindOf p).selfTimed = true →
      (((t.dev.hdr p).reqVp.val = 7 ∨ (t.dev.holds p (t.dev.predicted p (t.dev.hdr p).reqVp.val t.dev.en.hot) = true ∧
        t.dev.holds p (t.dev.predicted p (t.dev.hdr p).reqVp.val t.dev.en.cold) = true)) ∧
      ∀ v, v < (t.dev.hdr p).reqVp.val → ¬(t.dev.holds p (t.dev.predicted p v t.dev.en.hot) = true ∧
        t.dev.holds p (t.dev.predicted p v t.dev.en.cold) = true))) ∧
  (∀ (s : State), s.dev.rb Pg.cc Reg.CC_FW_CFG 0 = false → ∃ t, exec .replan s = .next t ∧ t.dev.pages.hdrs = s.dev.pages.hdrs ∧
      t.dev.pages.regs = s.dev.pages.regs ∧ ∀ p : Page, s.dev.tb Pg.cc (0x400 + p.val) 0 16 = true → t.dev.floor p = s.dev.floor p) ∧
  (∀ (s : State) (hot cold : Int) (sensor : Fin 24), ∃ t, exec (.tempEdge hot cold sensor) s = .next t ∧ t.dev.en.hot = hot ∧
      t.dev.en.cold = cold ∧ t.dev.rf Pg.cc Reg.CC_TJ_NOW 7 0 = unsigned 8 hot ∧ t.dev.rf Pg.cc Reg.CC_TJ_NOW 15 8 = unsigned 8 cold ∧
      t.dev.rf Pg.cc Reg.CC_TJ_NOW 23 16 = sensor.val) ∧
  (∀ (s : State) (hot cold : Int) (sensor : Fin 24) (c : Nat), s.dev.fwRuns = true → s.dev.en.hotForce = false → 110 < hot → c < 64 →
    s.dev.classLevel c = 2 ∨ s.dev.classLevel c = 3 →
    ∃ t, exec (.tempEdge hot cold sensor) s = .next t ∧ t.dev.classForced c = true ∧ t.dev.en.hotForce = true)

/-- R63, R64, R66, R68, R71, R72: the energy ledger and the budgets. A sample adds to both windows; an item's reservation shrinks by what its
island's meter attributes to it; entering excess raises BUDGET_OVER; a bucket boundary drops the oldest bucket; the budgets
follow the scale and the battery at once with DESCEND_EN = 0 and descend from the value in force with DESCEND_EN = 1; a job
still held at its tick is discarded. -/
def Obligations.EnergyLedger : Prop :=
  (∀ (s : State) (ms : List MeterDelta), s.dev.en.descS = none → s.dev.en.descL = none →
    ∃ t, exec (.ledgerUpdate ms [] []) s = .next t ∧ t.dev.sShort = s.dev.sShort + (ms.map (·.uj)).foldl (· + ·) 0 ∧
      t.dev.sLong = s.dev.sLong + (ms.map (·.uj)).foldl (· + ·) 0 ∧ t.dev.en.reserved = s.dev.en.reserved ∧
      (s.dev.en.overrun = false → t.dev.en.bShort < t.dev.sShort → raised t.dev Pg.cc Evt.CC_BUDGET_OVER)) ∧
  (∀ (s : State) (ms : List MeterDelta) (moved : List Nat) (e : ItemEnergy) (i : Item), s.dev.en.descS = none → s.dev.en.descL = none →
    s.dev.item? e.ring.val e.seq = some i →
    ∃ t j, exec (.ledgerUpdate ms [e] moved) s = .next t ∧ t.dev.item? e.ring.val e.seq = some j ∧
      j.reserved = i.reserved - min e.islandUj i.reserved ∧ j.energy = i.energy + e.islandUj + dramShare ms moved e.bytes ∧
      t.dev.en.reserved = s.dev.en.reserved - min e.islandUj i.reserved) ∧
  (∀ (s : State), ∃ t, exec (.bucketBoundary true) s = .next t ∧ t.dev.en.longW = 0 :: s.dev.en.longW.take 9 ∧
      t.dev.en.shortW = s.dev.en.shortW ∧ t.dev.pages = s.dev.pages) ∧
  (∀ (s : State), s.dev.held = [] → ∃ t, exec (.bucketBoundary false) s = .next t ∧ t.dev.en.shortW = 0 :: s.dev.en.shortW.take 9 ∧
      t.dev.en.longW = s.dev.en.longW ∧ t.dev.pages = s.dev.pages) ∧
  (∀ (s : State) (levels : BitVec 16), s.dev.held = [] → s.dev.rb Pg.cc Reg.CC_LEDGER_CFG 19 = false →
    s.dev.en.bShort = s.dev.targetS → s.dev.en.bLong = s.dev.targetL →
    ∃ t, exec (.battGpioChange levels) s = .next t ∧ t.dev.en.gpio = levels ∧ t.dev.rf Pg.cc Reg.CC_GPIO_IN 15 0 = levels.toNat ∧
      t.dev.en.onBatt = t.dev.onBattery ∧ t.dev.en.bShort = t.dev.targetS ∧ t.dev.en.bLong = t.dev.targetL) ∧
  (∀ (s : State) (v : Word), s.dev.held = [] → s.dev.rb Pg.cc Reg.CC_LEDGER_CFG 19 = false → s.dev.en.bShort = s.dev.targetS →
    s.dev.en.bLong = s.dev.targetL → 1 ≤ fld 7 0 v → fld 7 0 v ≤ 100 →
    ∃ t, exec (.budgetScaleWrite v) s = .next t ∧ t.dev.rf Pg.cc Reg.CC_BUDGET_SCALE 7 0 = fld 7 0 v ∧ t.dev.en.bShort = t.dev.targetS ∧
      t.dev.en.bLong = t.dev.targetL) ∧
  (∀ (s : State) (v : Word), s.dev.held = [] → s.dev.rb Pg.cc Reg.CC_LEDGER_CFG 19 = true → s.dev.en.bShort = s.dev.targetS →
    s.dev.en.bLong = s.dev.targetL → 1 ≤ fld 7 0 v → fld 7 0 v ≤ 100 →
    ∃ t, exec (.budgetScaleWrite v) s = .next t ∧ t.dev.rf Pg.cc Reg.CC_BUDGET_SCALE 7 0 = fld 7 0 v ∧
      (t.dev.targetS < s.dev.targetS → t.dev.en.bShort = s.dev.en.bShort ∧ t.dev.en.descS = some (s.dev.en.bShort, 0) ∧
        t.dev.rb Pg.cc Reg.CC_BUDGET_SCALE 8 = true) ∧
      (s.dev.targetS ≤ t.dev.targetS → t.dev.en.bShort = t.dev.targetS)) ∧
  (∀ (s : State) (v : Word), fld 7 0 v = 0 ∨ 100 < fld 7 0 v → exec (.budgetScaleWrite v) s = .next s) ∧
  (∀ (s : State) (n : Nat), ∃ t, exec (.jobTickDiscard n) s = .next t ∧ t.dev.held = s.dev.held.eraseIdx n ∧ t.dev.en = s.dev.en ∧
      t.dev.wk = s.dev.wk ∧ t.dev.pages = s.dev.pages)

/-- R77: while an island's breach lasts, each step forces the fallbacks of the next level of its classes, level 3 first, or lowers PX's
layer ceiling by one step; a step of restoring takes back the latest step. -/
def Obligations.DegradationSteps : Prop :=
  (∀ (s : State) (p : Page) (c : Nat), s.dev.fwRuns = true → SMap.get (fun _ => false) s.dev.en.breach p.val = true →
    c ∈ classesOf (kindOf p) → kindOf p ≠ .ce → s.dev.classLevel c = 3 → s.dev.classForced c = false →
    ∃ t, exec (.degradeStep p) s = .next t ∧ t.dev.classForced c = true ∧ (∃ st, t.dev.en.forced = st :: s.dev.en.forced ∧ c ∈ st) ∧
      t.dev.pages.regs = s.dev.pages.regs) ∧
  (∀ (s : State) (p : Page), s.dev.fwRuns = true → SMap.get (fun _ => false) s.dev.en.breach p.val = true →
    (kindOf p = .qm ∨ kindOf p = .px ∨ kindOf p = .tm ∨ kindOf p = .ce) → s.dev.en.forced.any (fun x => x == [ceilingStep]) = false →
    ∃ t, exec (.degradeStep p) s = .next t ∧ t.dev.rf Pg.px Reg.PX_ENERGY_CEIL 7 0 = ceilDown (s.dev.rf Pg.px Reg.PX_ENERGY_CEIL 7 0) ∧
      t.dev.en.forced = [ceilingStep] :: s.dev.en.forced) ∧
  (∀ (s : State) (st : List Nat) (rest : List (List Nat)), s.dev.fwRuns = true → s.dev.en.breach.any (fun x => x.2) = false →
    s.dev.en.hotForce = false → s.dev.en.forced = st :: rest → st ≠ [ceilingStep] →
    ∃ t, exec .restoreStep s = .next t ∧ t.dev.en.forced = rest ∧ (∀ c, c ∈ st → t.dev.classForced c = false) ∧
      t.dev.pages.regs = s.dev.pages.regs) ∧
  (∀ (s : State), s.dev.en.breach.any (fun x => x.2) = true → exec .restoreStep s = .next s)

/-! ## Table windows (R80) -/

/-- R34, R37, R80: a window read places the entry's words in DATA0-3 and changes no entry; a window write stores the writable bits of an entry
of its own, only the shadow of a shadowed entry, nothing of it while a bow is pending, and nothing at an address without one. -/
def Obligations.TableWindows : Prop :=
  (∀ (s : State) (p : Page) (base : Nat) (active : Bool), s.busFree → s.dev.pageHeld p = false → windowBase (kindOf p) = some base →
    ∃ t, exec (.tableRead p active) s = .next t ∧ t.dev.pages.tbl = s.dev.pages.tbl ∧ t.dev.pages.hdrs = s.dev.pages.hdrs ∧
      ∀ i w, i < 4 → s.dev.tableWord p (s.dev.reg p base).toNat i active = some w → t.dev.reg p (base + 4 + 4 * i) = w) ∧
  (∀ (s : State) (base a : Nat), s.busFree → s.dev.pageHeld Pg.cc = false → windowBase .cc = some base → a = (s.dev.reg Pg.cc base).toNat →
    0x200 ≤ a → tableHas Pg.cc a = true →
    ∃ t, exec (.tableWrite Pg.cc) s = .next t ∧ ∀ b i, i < 4 → t.dev.tw Pg.cc b i =
      if b = a then s.dev.merged Pg.cc a i (word ((entryRw Pg.cc a).getD i 0)) (s.dev.reg Pg.cc (base + 4 + 4 * i)) else s.dev.tw Pg.cc b i) ∧
  (∀ (s : State) (p : Page) (base a : Nat) (r : TblRange), s.busFree → s.dev.pageHeld p = false → p = Pg.tm ∨ p = Pg.ac →
    windowBase (kindOf p) = some base → a = (s.dev.reg p base).toNat → tblRange (kindOf p) a = some r → r.shadowed = true →
    (s.dev.hdr p).commitPending = false →
    ∃ t, exec (.tableWrite p) s = .next t ∧ t.dev.pages.tbl = s.dev.pages.tbl ∧ ∀ i, i < 4 → t.dev.tsw p a i =
      (s.dev.tsw p a i &&& ~~~ word (r.rw.getD i 0)) ||| (s.dev.reg p (base + 4 + 4 * i) &&& word (r.rw.getD i 0))) ∧
  (∀ (s : State) (p : Page) (base a : Nat) (r : TblRange), s.busFree → s.dev.pageHeld p = false → p = Pg.tm ∨ p = Pg.ac →
    windowBase (kindOf p) = some base → a = (s.dev.reg p base).toNat → tblRange (kindOf p) a = some r → r.shadowed = true →
    (s.dev.hdr p).commitPending = true →
    ∃ t, exec (.tableWrite p) s = .next t ∧ t.dev.pages.tbl = s.dev.pages.tbl ∧ t.dev.pages.tblSh = s.dev.pages.tblSh ∧
      raised t.dev p Evt.SHADOW_LOCKED) ∧
  (∀ (s : State) (p : Page) (base : Nat), s.busFree → s.dev.pageHeld p = false → windowBase (kindOf p) = some base →
    tableHas p (s.dev.reg p base).toNat = false →
    ∃ t, exec (.tableWrite p) s = .next t ∧ t.dev.pages.tbl = s.dev.pages.tbl ∧ t.dev.pages.tblSh = s.dev.pages.tblSh ∧
      t.dev.pages.hdrs = s.dev.pages.hdrs)

/-! ## Rings and assured work (chapter 4) -/

/-- R84: doorbells. A doorbell value is extended to the one tail in its range that agrees with it in its low 32 bits; the tail known
moves up to it and never down; and a value for which the range has no such tail is discarded and raises DOORBELL_RANGE. -/
def Obligations.Doorbells : Prop :=
  (∀ (s : State) (n : RingNo) (v : Word) (k : Nat), k = unsigned 32 ((v.toNat : Int) - (s.dev.ring n.val).acceptSeq) →
    1 ≤ k → k ≤ 2 ^ s.dev.sqLog2 n.val →
    ∃ t, exec (.sqDoorbell n v) s = .next t ∧ (t.dev.ring n.val).sqTail = max (s.dev.ring n.val).sqTail ((s.dev.ring n.val).acceptSeq + k) ∧
      (∀ m, m ≠ n.val → t.dev.ring m = s.dev.ring m) ∧ t.dev.pages = s.dev.pages) ∧
  (∀ (s : State) (n : RingNo) (v : Word) (k : Nat), k = unsigned 32 ((v.toNat : Int) - (s.dev.ring n.val).acceptSeq) →
    k = 0 ∨ 2 ^ s.dev.sqLog2 n.val < k →
    ∃ t, exec (.sqDoorbell n v) s = .next t ∧ t.dev.wk = s.dev.wk ∧ raised t.dev Pg.dx Evt.DX_DOORBELL_RANGE) ∧
  (∀ (s : State) (n : RingNo) (v : Word) (k : Nat), k = unsigned 32 ((s.dev.ring n.val).postedSeq - (v.toNat : Int)) → k < 65536 →
    ∃ t, exec (.cqDoorbell n v) s = .next t ∧ (t.dev.ring n.val).cqTail = max (s.dev.ring n.val).cqTail ((s.dev.ring n.val).postedSeq - k) ∧
      (∀ m, m ≠ n.val → t.dev.ring m = s.dev.ring m) ∧ t.dev.pages = s.dev.pages) ∧
  (∀ (s : State) (n : RingNo) (v : Word), 65536 ≤ unsigned 32 ((s.dev.ring n.val).postedSeq - (v.toNat : Int)) →
    ∃ t, exec (.cqDoorbell n v) s = .next t ∧ t.dev.wk = s.dev.wk ∧ raised t.dev Pg.dx Evt.DX_DOORBELL_RANGE)

/-- R87, R88, R536: the head of a ring. A head that meets the conditions of R87 and is admitted goes to its ACCEPTED write with its
expected energy reserved; a wrong sequence number halts the ring with SEQ_BREAK; a held head shows its reason; and a refused or
errored descriptor read halts the ring with HALT_CAUSE 3. -/
def Obligations.RingHeads : Prop :=
  (∀ (s : State) (n : RingNo), (s.dev.ring n.val).enabled = true → (s.dev.ring n.val).head = .none → (s.dev.ring n.val).halted = false →
    (s.dev.ring n.val).acceptSeq < (s.dev.ring n.val).sqTail → s.dev.up Pg.dx = true →
    ∃ t, exec (.headTest n) s = .next t ∧ (t.dev.ring n.val).head = .reading ∧ (t.dev.ring n.val).acceptSeq = (s.dev.ring n.val).acceptSeq) ∧
  (∀ (s : State) (n : RingNo) (x : BitVec 512) (f : Form) (e : Nat), (s.dev.ring n.val).enabled = true → (s.dev.ring n.val).head = .here x →
    x.toNat % 2 ^ 64 = unsigned 64 ((s.dev.ring n.val).acceptSeq + 1) → s.dev.holdReason n.val x = 0 → descFault x = none →
    s.dev.admission (s.dev.islandOf x) (classOf x .primary) (unitsOf x .primary) (s.dev.fallbackOf x) = some (f, e) →
    ∃ t, exec (.headTest n) s = .next t ∧ (t.dev.ring n.val).head = .entryWrite x f e ∧ t.dev.en.reserved = s.dev.en.reserved + e ∧
      (t.dev.ring n.val).acceptSeq = (s.dev.ring n.val).acceptSeq ∧ t.dev.wk.items = s.dev.wk.items) ∧
  (∀ (s : State) (n : RingNo) (x : BitVec 512), (s.dev.ring n.val).enabled = true → (s.dev.ring n.val).head = .here x →
    (s.dev.ring n.val).halted = false → x.toNat % 2 ^ 64 ≠ unsigned 64 ((s.dev.ring n.val).acceptSeq + 1) →
    ∃ t, exec (.headTest n) s = .next t ∧ (t.dev.ring n.val).halted = true ∧ (t.dev.ring n.val).haltCause = 1 ∧
      (t.dev.ring n.val).head = .none ∧ raised t.dev Pg.dx Evt.DX_SEQ_BREAK) ∧
  (∀ (s : State) (n : RingNo) (x : BitVec 512), (s.dev.ring n.val).enabled = true → (s.dev.ring n.val).head = .here x →
    (s.dev.ring n.val).halted = false → x.toNat % 2 ^ 64 = unsigned 64 ((s.dev.ring n.val).acceptSeq + 1) → s.dev.holdReason n.val x ≠ 0 →
    ∃ t, exec (.headTest n) s = .next t ∧ (t.dev.ring n.val).hold = s.dev.holdReason n.val x ∧ (t.dev.ring n.val).head = .here x) ∧
  (∀ (s : State) (n : RingNo) (x : BitVec 512), (s.dev.ring n.val).enabled = true → (s.dev.ring n.val).head = .here x →
    x.toNat % 2 ^ 64 = unsigned 64 ((s.dev.ring n.val).acceptSeq + 1) → s.dev.holdReason n.val x = 0 → descFault x = none →
    s.dev.admission (s.dev.islandOf x) (classOf x .primary) (unitsOf x .primary) (s.dev.fallbackOf x) = none →
    ∃ t, exec (.headTest n) s = .next t ∧ (t.dev.ring n.val).hold = 6 ∧ (t.dev.ring n.val).head = .here x ∧
      t.dev.en.reserved = s.dev.en.reserved) ∧
  (∀ (s : State) (n : RingNo) (d : Dev) (bs : List Byte), (s.dev.ring n.val).head = .reading →
    s.dev.virtRead n.val (s.dev.ringAsid n.val) (s.dev.sqBase n.val + unsigned 64 ((s.dev.ring n.val).acceptSeq + 1) % 2 ^ s.dev.sqLog2 n.val * 64) 64
      = (d, .ok, bs) →
    ∃ t, exec (.descReadResponse n .data) s = .next t ∧ (t.dev.ring n.val).head = .here (BitVec.ofNat 512 (numLE bs)) ∧ t.dev.ram = d.ram) ∧
  (∀ (s : State) (n : RingNo) (r : DescRead), r ≠ .data → (s.dev.ring n.val).head = .reading →
    ∃ t, exec (.descReadResponse n r) s = .next t ∧ (t.dev.ring n.val).halted = true ∧ (t.dev.ring n.val).haltCause = 3 ∧
      raised t.dev Pg.dx Evt.DX_RING_HALT)

/-- R88, R89, R94, R97, R536: acceptance and the ledger. The acknowledged ACCEPTED entries stand in the copies and the header follows; the
acknowledged header moves ACCEPT_SEQ on by one and the item is accepted; a faulty descriptor then completes FAILED with its
cause, a NOP completes at once; a transition counts from its acknowledgement; COMPLETED gives up the item's reservation and its
place in its unit; and a write that no copy takes halts every ring with LEDGER_LOST. -/
def Obligations.AcceptanceAndLedger : Prop :=
  (∀ (s : State) (n : RingNo) (okA okB : Bool) (x : BitVec 512) (f : Form) (e : Nat), (s.dev.ring n.val).head = .entryWrite x f e →
    (s.dev.wk.okA && okA || s.dev.wk.okB && okB) = true →
    ∃ t, exec (.acceptedWriteAck n okA okB) s = .next t ∧ (t.dev.ring n.val).head = .headerWrite x f e ∧ t.dev.wk.okA = (s.dev.wk.okA && okA) ∧
      t.dev.wk.okB = (s.dev.wk.okB && okB) ∧ ((s.dev.wk.okA && okA) = true → ∃ l, l = SMap.get (fun _ => LEntry.invalid) t.dev.wk.copyA.entries
        (s.dev.slotKey n.val ((s.dev.ring n.val).acceptSeq + 1).toNat) ∧ l.valid = true ∧ l.desc = x ∧ l.state = .accepted ∧ l.epoch = s.dev.wk.epoch)) ∧
  (∀ (s : State) (n : RingNo) (okA okB : Bool) (x : BitVec 512) (f : Form) (e : Nat), (s.dev.ring n.val).head = .entryWrite x f e →
    (s.dev.wk.okA && okA || s.dev.wk.okB && okB) = false →
    ∃ t, exec (.acceptedWriteAck n okA okB) s = .next t ∧ raised t.dev Pg.dx Evt.DX_LEDGER_LOST ∧
      ∀ m : RingNo, (t.dev.ring m.val).halted = true ∧ (t.dev.ring m.val).haltCause = 2) ∧
  (∀ (s : State) (n : RingNo) (x : BitVec 512) (f : Form) (e : Nat) (q : Nat), (s.dev.ring n.val).head = .headerWrite x f e →
    q = ((s.dev.ring n.val).acceptSeq + 1).toNat → s.dev.item? n.val q = none → descFault x = none → engineOf x ≠ 0 →
    ∃ t, exec (.acceptance n) s = .next t ∧ (t.dev.ring n.val).acceptSeq = (s.dev.ring n.val).acceptSeq + 1 ∧ (t.dev.ring n.val).head = .none ∧
      t.dev.item? n.val q = some (Item.fresh n.val q x f e) ∧ (t.dev.ring n.val).postedSeq = (s.dev.ring n.val).postedSeq) ∧
  (∀ (s : State) (n : RingNo) (x : BitVec 512) (f : Form) (e : Nat) (q c : Nat), (s.dev.ring n.val).head = .headerWrite x f e →
    q = ((s.dev.ring n.val).acceptSeq + 1).toNat → s.dev.item? n.val q = none → descFault x = some c →
    ∃ t i, exec (.acceptance n) s = .next t ∧ (t.dev.ring n.val).acceptSeq = (s.dev.ring n.val).acceptSeq + 1 ∧
      t.dev.item? n.val q = some i ∧ i.result.status = .failed ∧ i.result.cause = c ∧ i.pend = some .completed) ∧
  (∀ (s : State) (n : RingNo) (q : Nat) (i : Item), s.dev.item? n.val q = some i → engineOf i.desc = 0 → i.pend = none → i.phase = .ready →
    ∃ t j, exec (.nop n q) s = .next t ∧ t.dev.item? n.val q = some j ∧ j.pend = some .completed ∧ j.result.status = i.doneStatus ∧
      j.desc = i.desc ∧ t.dev.ram = s.dev.ram) ∧
  (∀ (s : State) (n : RingNo) (q : Nat) (okA okB : Bool) (i : Item) (st : LState), s.dev.item? n.val q = some i → i.pend = some st →
    st ≠ .completed → (s.dev.wk.okA && okA || s.dev.wk.okB && okB) = true →
    ∃ t j, exec (.ledgerWriteAck n q okA okB) s = .next t ∧ t.dev.item? n.val q = some j ∧ j.pend = none ∧ j.recorded = st ∧
      t.dev.wk.rings = s.dev.wk.rings) ∧
  (∀ (s : State) (n : RingNo) (q : Nat) (okA okB : Bool) (i : Item), s.dev.item? n.val q = some i → i.pend = some .completed →
    engineOf i.desc = 0 ∨ engineOf i.desc = 1 ∨ engineOf i.desc = 5 ∨ engineOf i.desc = 7 ∨ engineOf i.desc = 8 → s.dev.held = [] →
    (s.dev.wk.okA && okA || s.dev.wk.okB && okB) = true →
    ∃ t j, exec (.completedRecorded n q okA okB) s = .next t ∧ t.dev.item? n.val q = some j ∧ j.pend = none ∧ j.recorded = .completed ∧
      j.phase = .completed ∧ j.reserved = 0 ∧ t.dev.en.reserved = s.dev.en.reserved - i.reserved ∧
      ∀ p, i.page? = some p → (t.dev.hdr p).inflight = (s.dev.hdr p).inflight - 1)

/-- R91, R92, R95, R106: completions, dispatch and checkpoints. The completion entry of the next item in sequence is written; its acknowledgement
moves POSTED_SEQ and the item leaves; a refused one halts the ring with HALT_CAUSE 4; the delay sends the ring's vector; an
accepted item is bound to its instance and counts in its INFLIGHT, or is returned where no instance can take it; a checkpoint
holds the configuration, the epoch and every ring's numbers. -/
def Obligations.CompletionAndDispatch : Prop :=
  (∀ (s : State) (n : RingNo) (i : Item) (d : Dev), (s.dev.ring n.val).posting = false → (s.dev.ring n.val).halted = false → s.dev.up Pg.dx = true →
    s.dev.item? n.val ((s.dev.ring n.val).postedSeq + 1).toNat = some i → i.phase = .completed →
    s.dev.virtWrite n.val (s.dev.ringAsid n.val) (s.dev.cqBase n.val + i.seq % 65536 * 64) (s.dev.completionBytes i) = (d, .ok) → d.asks = [] →
    ∃ t, exec (.completionWrite n) s = .next t ∧ (t.dev.ring n.val).posting = true ∧ t.dev.ram = d.ram) ∧
  (∀ (s : State) (n : RingNo) (i : Item), (s.dev.ring n.val).posting = true →
    s.dev.item? n.val ((s.dev.ring n.val).postedSeq + 1).toNat = some i →
    ∃ t, exec (.completionWriteAck n true) s = .next t ∧ (t.dev.ring n.val).postedSeq = (s.dev.ring n.val).postedSeq + 1 ∧
      (t.dev.ring n.val).posting = false ∧ t.dev.item? i.ring i.seq = none ∧ (t.dev.ring n.val).acceptSeq = (s.dev.ring n.val).acceptSeq) ∧
  (∀ (s : State) (n : RingNo), (s.dev.ring n.val).posting = true →
    ∃ t, exec (.completionWriteAck n false) s = .next t ∧ (t.dev.ring n.val).halted = true ∧ (t.dev.ring n.val).haltCause = 4 ∧
      (t.dev.ring n.val).postedSeq = (s.dev.ring n.val).postedSeq ∧ raised t.dev Pg.dx Evt.DX_RING_HALT) ∧
  (∀ (s : State) (n : RingNo), (s.dev.ring n.val).delayArmed = true → s.dev.irqEn n.val = true → s.dev.sys.l0 = true →
    s.dev.vectorMasked (60 + n.val) = false →
    ∃ t, exec (.irqDelayExpire n) s = .next t ∧ Output.msix (60 + n.val) ∈ t.dev.out ∧ (t.dev.ring n.val).delayArmed = false) ∧
  (∀ (s : State) (n : RingNo) (q k : Nat) (i : Item) (p : Page), s.dev.item? n.val q = some i → i.pend = none → i.phase = .ready →
    s.dev.fenced i = false → s.dev.up Pg.dx = true → s.dev.sys.encoreRunning = false → engineOf i.desc ≠ 0 →
    (s.dev.identity (s.dev.ringAsid n.val) || s.dev.asidValid (s.dev.ringAsid n.val)) = true → s.dev.target i.desc = some k →
    enginePage (engineOf i.desc) k = some p →
    ∃ t j, exec (.dispatch n q) s = .next t ∧ t.dev.item? n.val q = some j ∧ j.inst = some k ∧ j.phase = .bound ∧
      (t.dev.hdr p).inflight = (s.dev.hdr p).inflight + 1 ∧ sameHdrsBut s.dev t.dev p) ∧
  (∀ (s : State) (n : RingNo) (q k : Nat) (i : Item), s.dev.item? n.val q = some i → i.pend = none → i.phase = .ready →
    s.dev.fenced i = false → s.dev.up Pg.dx = true → s.dev.sys.encoreRunning = false → engineOf i.desc ≠ 0 →
    (s.dev.identity (s.dev.ringAsid n.val) || s.dev.asidValid (s.dev.ringAsid n.val)) = true → s.dev.target i.desc = none →
    namedInst i.desc = some k → s.dev.mayCome i.desc k = false →
    ∃ t j, exec (.dispatch n q) s = .next t ∧ t.dev.item? n.val q = some j ∧ j.result.status = .returned ∧ j.result.cause = Cause.DRAINED ∧
      j.pend = some .completed) ∧
  (∀ (s : State), ∃ t, exec .checkpointRecord s = .next t ∧ t.dev.ps.epoch = s.dev.wk.epoch ∧
      t.dev.wk.ckCfg = [Reg.DX_LEDGER_A_LO, Reg.DX_LEDGER_A_HI, Reg.DX_LEDGER_B_LO, Reg.DX_LEDGER_B_HI, Reg.DX_LEDGER_CFG].map (s.dev.reg Pg.dx ·) ∧
      (∀ n, n ∈ s.dev.wk.rings.map Prod.fst → SMap.get (fun _ => (0, 0)) t.dev.wk.ckSeq n = ((s.dev.ring n).acceptSeq, (s.dev.ring n).postedSeq)) ∧
      t.dev.wk.rings = s.dev.wk.rings ∧ t.dev.wk.items = s.dev.wk.items)

/-- R101, R108, R109: ring and ledger configuration and encore. A ring enabled while inactive starts before START_SEQ; a halted one resumes with
its numbers; a disabled one accepts nothing more and gives up its head's reservation; a ledger register is stored only while no
ring is active; and encore restores each ring's numbers from its header and gives every item not yet emitted back to dispatch. -/
def Obligations.RingConfigurationAndEncore : Prop :=
  (∀ (s : State) (n : RingNo) (d0 d1 d2 d3 : Word), s.dev.ringActive n.val = false → ctxRefused d2 d3 = false →
    s.dev.rb Pg.dx Reg.DX_LEDGER_CFG 0 = true → s.dev.sliceFits n.val (fld 3 0 d3 + 6) = true → (s.dev.ring n.val).halted = false →
    ∃ t, exec (.ringEnWrite n d0 d1 d2 d3) s = .next t ∧ (t.dev.ring n.val).enabled = true ∧ t.dev.tb Pg.dx (ringEntry n.val 0) 2 8 = true ∧
      (t.dev.ring n.val).acceptSeq = (s.dev.startSeq n.val : Int) - 1 ∧ (t.dev.ring n.val).postedSeq = (s.dev.startSeq n.val : Int) - 1 ∧
      t.dev.sqLog2 n.val = fld 4 0 d2) ∧
  (∀ (s : State) (n : RingNo) (d0 d1 d2 d3 : Word), ctxRefused d2 d3 = false → s.dev.rb Pg.dx Reg.DX_LEDGER_CFG 0 = true →
    s.dev.ringActive n.val = true → s.dev.sliceFits n.val (s.dev.ledgerLog2 n.val) = true → (s.dev.ring n.val).halted = true →
    ∃ t, exec (.ringEnWrite n d0 d1 d2 d3) s = .next t ∧ (t.dev.ring n.val).enabled = true ∧ (t.dev.ring n.val).halted = false ∧
      (t.dev.ring n.val).haltCause = 0 ∧ (t.dev.ring n.val).acceptSeq = (s.dev.ring n.val).acceptSeq ∧
      (t.dev.ring n.val).postedSeq = (s.dev.ring n.val).postedSeq ∧ t.dev.sqLog2 n.val = s.dev.sqLog2 n.val) ∧
  (∀ (s : State) (n : RingNo) (d0 d1 d2 d3 : Word), ctxRefused d2 d3 = true ∨ s.dev.rb Pg.dx Reg.DX_LEDGER_CFG 0 = false →
    ∃ t, exec (.ringEnWrite n d0 d1 d2 d3) s = .next t ∧ raised t.dev Pg.dx Evt.DX_LEDGER_CFG ∧ t.dev.wk = s.dev.wk ∧
      t.dev.pages.tbl = s.dev.pages.tbl) ∧
  (∀ (s : State) (n : RingNo) (d0 d1 d2 d3 : Word), ctxRefused d2 d3 = false →
    ∃ t, exec (.ringDisable n d0 d1 d2 d3) s = .next t ∧ (t.dev.ring n.val).enabled = false ∧ (t.dev.ring n.val).head = .none ∧
      t.dev.tb Pg.dx (ringEntry n.val 0) 2 8 = false ∧ t.dev.en.reserved = s.dev.en.reserved - (s.dev.ring n.val).head.uj ∧
      (t.dev.ring n.val).acceptSeq = (s.dev.ring n.val).acceptSeq ∧ t.dev.wk.items = s.dev.wk.items) ∧
  (∀ (s : State) (which : Fin 5) (v : Word), s.dev.anyRingActive = true →
    ∃ t, exec (.ledgerCfgWrite which v) s = .next t ∧ raised t.dev Pg.dx Evt.DX_LEDGER_CFG ∧ t.dev.pages.regs = s.dev.pages.regs ∧
      t.dev.wk = s.dev.wk) ∧
  (∀ (s : State) (which : Fin 5) (v : Word), s.dev.anyRingActive = false → which.val < 4 →
    ∃ t, exec (.ledgerCfgWrite which v) s = .next t ∧
      t.dev.reg Pg.dx (Reg.DX_LEDGER_A_LO + 4 * which.val) = v &&& (if which.val % 2 = 0 then 0xFFFFF000 else 0x1F) ∧
      t.dev.wk.copyA.entries = [] ∧ t.dev.wk.copyB.entries = []) ∧
  (∀ (s : State) (v : Word), s.dev.anyRingActive = false → bit 0 v = true → 2 ≤ fld 10 1 v → s.dev.ledgerMisplaced (fld 10 1 v) = false →
    ∃ t, exec (.ledgerCfgWrite 4 v) s = .next t ∧ t.dev.rb Pg.dx Reg.DX_LEDGER_CFG 0 = true ∧ t.dev.rf Pg.dx Reg.DX_LEDGER_CFG 10 1 = fld 10 1 v ∧
      t.dev.rb Pg.dx Reg.DX_LEDGER_STAT 0 = true) ∧
  (∀ (s : State), s.dev.sys.encoreRunning = true → s.dev.up Pg.dx = true →
    ∃ t, exec .encore s = .next t ∧ t.dev.sys.encoreRunning = false ∧ raised t.dev Pg.dx Evt.DX_ENCORE_DONE ∧
      ∀ (n : RingNo) (acc pst : Int), s.dev.headerOf n.val = some (acc, pst) → (s.dev.ring n.val).enabled = true →
        (t.dev.ring n.val).acceptSeq = acc ∧ (t.dev.ring n.val).postedSeq = pst ∧ (t.dev.ring n.val).enabled = true) ∧
  (∀ (s : State) (n : RingNo) (acc pst : Int) (q : Nat) (e : LEntry), s.dev.sys.encoreRunning = true → s.dev.up Pg.dx = true →
    s.dev.headerOf n.val = some (acc, pst) → (s.dev.ring n.val).enabled = true → pst < q → (q : Int) ≤ acc → 0 ≤ pst →
    (∀ m : RingNo, s.dev.ledgerLog2 m.val ≤ 16) → s.dev.lowerEntry n.val q = some e → e.state.rank < 3 →
    ∃ t i, exec .encore s = .next t ∧ i ∈ t.dev.wk.items ∧ i.ring = n.val ∧ i.seq = q ∧ i.desc = e.desc ∧ i.encored = true ∧
      i.inst = none ∧ i.phase = .ready ∧ i.recorded = e.state)

/-! ## DMA (R143 to R151) -/

/-- R94, R145 to R147: a COPY or FILL item first asks for STARTED; once that is recorded, an item whose ranges lie in one beat each writes the
copied bytes, or the pattern, to its destination, and completes. -/
def Obligations.CopyAndFillMoveBytes : Prop :=
  (∀ (s : State) (n : RingNo) (q : Nat) (i : Item) (c : Instr), (c, opOf i.desc) ∈ [(Instr.copy n q, 0), (Instr.fill n q, 1)] →
    s.busFree → s.dev.up Pg.dx = true → (s.dev.chan n.val).seq = none → s.dev.nextDma n.val = some i → i.seq = q → s.dev.item? n.val q = some i →
    i.phase = .bound → i.pend = none → i.recorded = .accepted → dmaBad i.desc = false →
    ∃ t j, exec c s = .next t ∧ t.dev.item? n.val q = some j ∧ j.pend = some .started ∧ j.phase = .running ∧
      (t.dev.chan n.val).seq = some q ∧ t.dev.ram = s.dev.ram) ∧
  (∀ (s : State) (n : RingNo) (q : Nat) (i : Item) (d : Dev) (bs : List Byte), s.busFree → s.dev.up Pg.dx = true →
    s.dev.chan n.val = { Chan.reset with seq := some q } → s.dev.chanItem n.val = some i → opOf i.desc = 0 →
    s.dev.identity (s.dev.ringAsid n.val) = true → s.dev.isParked n.val = false → halfIrq i.desc = false → fullIrq i.desc = false →
    csumStore i.desc = false → 0 < lengthOf i.desc → srcOf i.desc % 64 + lengthOf i.desc ≤ 64 → dstOf i.desc % 64 + lengthOf i.desc ≤ 64 →
    s.dev.physRead (srcOf i.desc) (lengthOf i.desc) (some n.val) = (d, .ok, bs) →
    (∀ k, k < lengthOf i.desc → (s.dev.physByte (dstOf i.desc + k)).isSome = true) →
    ∃ t j, exec (.copy n q) s = .next t ∧ (∀ k, k < lengthOf i.desc → t.dev.physByte (dstOf i.desc + k) = bs[k]?) ∧
      t.dev.item? n.val q = some j ∧ j.pend = some .completed ∧ j.result.status = i.doneStatus ∧
      j.result.result0 = BitVec.ofNat 64 (lengthOf i.desc)) ∧
  (∀ (s : State) (n : RingNo) (q : Nat) (i : Item), s.busFree → s.dev.up Pg.dx = true →
    s.dev.chan n.val = { Chan.reset with seq := some q } → s.dev.chanItem n.val = some i → opOf i.desc = 1 →
    s.dev.identity (s.dev.ringAsid n.val) = true → s.dev.isParked n.val = false → halfIrq i.desc = false → fullIrq i.desc = false →
    csumStore i.desc = false → 0 < lengthOf i.desc → dstOf i.desc % 64 + lengthOf i.desc ≤ 64 →
    (∀ k, k < lengthOf i.desc → (s.dev.physByte (dstOf i.desc + k)).isSome = true) →
    ∃ t j, exec (.fill n q) s = .next t ∧
      (∀ k, k < lengthOf i.desc → t.dev.physByte (dstOf i.desc + k) = some (BitVec.ofNat 8 (descF i.desc 60 31 0 >>> (8 * (k % 4))))) ∧
      t.dev.item? n.val q = some j ∧ j.pend = some .completed ∧ j.result.status = i.doneStatus)

/-- R148: peripheral items and request lines. A PERIPH_IN burst writes what its peripheral gives to the destination, a PERIPH_OUT burst gives
the source's bytes to its peripheral; an asserted line is seen by the channel that waits for it, a withdrawn one ends the
transfer after the burst in progress, and disabling a line withdraws it. -/
def Obligations.PeripheralTransfers : Prop :=
  (∀ (s : State) (n : RingNo) (q : Nat) (i : Item) (data bs : List Byte), s.busFree → s.dev.up Pg.dx = true →
    s.dev.chan n.val = { Chan.reset with seq := some q } → s.dev.chanItem n.val = some i → opOf i.desc = 2 →
    s.dev.identity (s.dev.ringAsid n.val) = true → s.dev.isParked n.val = false → halfIrq i.desc = false → fullIrq i.desc = false →
    csumStore i.desc = false → 0 < lengthOf i.desc → dstOf i.desc % 64 + lengthOf i.desc ≤ 64 → lineServes (reqLine i.desc) 2 = true →
    s.dev.rb Pg.dx Reg.DX_REQ_LINE_EN (reqLine i.desc) = true →
    bs = (if reqLine i.desc = 10 then s.dev.lineHas 10 ++ data else s.dev.lineHas (reqLine i.desc)) → lengthOf i.desc ≤ bs.length →
    (∀ k, k < lengthOf i.desc → (s.dev.physByte (dstOf i.desc + k)).isSome = true) →
    ∃ t j, exec (.periphIn n q [data] none) s = .next t ∧ (∀ k, k < lengthOf i.desc → t.dev.physByte (dstOf i.desc + k) = bs[k]?) ∧
      t.dev.item? n.val q = some j ∧ j.pend = some .completed ∧ j.result.status = i.doneStatus) ∧
  (∀ (s : State) (n : RingNo) (q : Nat) (i : Item) (d : Dev) (bs : List Byte), s.busFree → s.dev.up Pg.dx = true →
    s.dev.chan n.val = { Chan.reset with seq := some q } → s.dev.chanItem n.val = some i → opOf i.desc = 3 →
    s.dev.identity (s.dev.ringAsid n.val) = true → s.dev.isParked n.val = false → halfIrq i.desc = false → fullIrq i.desc = false →
    0 < lengthOf i.desc → srcOf i.desc % 64 + lengthOf i.desc ≤ 64 → lineServes (reqLine i.desc) 3 = true →
    s.dev.rb Pg.dx Reg.DX_REQ_LINE_EN (reqLine i.desc) = true →
    s.dev.physRead (srcOf i.desc) (lengthOf i.desc) (some n.val) = (d, .ok, bs) →
    ∃ t j, exec (.periphOut n q 1 none) s = .next t ∧ Output.periph (reqLine i.desc) bs ∈ t.dev.out ∧
      t.dev.item? n.val q = some j ∧ j.pend = some .completed ∧ j.result.status = i.doneStatus ∧ t.dev.ram = s.dev.ram) ∧
  (∀ (s : State) (line : Fin 32) (data : List Byte), line.val < 12 → s.dev.dmaRings = [] →
    ∃ t, exec (.reqLineAssert line data) s = .next t ∧ bit line.val t.dev.dx.lines = true ∧ t.dev.pages = s.dev.pages ∧ t.dev.ram = s.dev.ram) ∧
  (∀ (s : State) (n : Nat) (line : Fin 32) (i : Item) (data : List Byte), line.val < 12 → s.dev.dmaRings = [n] → s.dev.chanItem n = some i →
    waitsLine i.desc (s.dev.chan n) = true → reqLine i.desc = line.val → lineServes line.val (opOf i.desc) = true →
    s.dev.rb Pg.dx Reg.DX_REQ_LINE_EN line.val = true →
    ∃ t, exec (.reqLineAssert line data) s = .next t ∧ (t.dev.chan n).burst = min (burstBeats i.desc)
      (srcBeats i.desc + dstBeats i.desc - ((s.dev.chan n).srcNext + (s.dev.chan n).dstNext)) ∧ bit line.val t.dev.dx.lines = false) ∧
  (∀ (s : State) (n : Nat) (line : Fin 32) (i : Item), s.dev.dmaRings = [n] → (s.dev.chan n).seq.bind (s.dev.item? n) = some i →
    isPeriph i.desc = true → reqLine i.desc = line.val → (s.dev.chan n).withdrawn = false → allIssued i.desc (s.dev.chan n) = false →
    ∃ t, exec (.reqLineWithdraw line) s = .next t ∧ (t.dev.chan n).withdrawn = true ∧
      (t.dev.chan n).overrun = (s.dev.chan n).overrun + (s.dev.chan n).burst ∧ bit line.val t.dev.dx.lines = false) ∧
  (∀ (s : State) (v : Word), ∃ t, exec (.reqLineEnWrite v) s = .next t ∧ t.dev.reg Pg.dx Reg.DX_REQ_LINE_EN = v ∧
      ∀ l, l < 32 → bit l (s.dev.reg Pg.dx Reg.DX_REQ_LINE_EN) = true → bit l v = false → bit l t.dev.dx.lines = false)

/-- R144, R147: beats. The one ready channel takes the port and issues its next beat; an address-error response is kept as the failure while other
beats are outstanding; a good destination response has stored the beat's bytes. -/
def Obligations.DmaBeats : Prop :=
  (∀ (s : State) (n : Nat) (i : Item) (w : NextBeat), s.busFree → s.dev.up Pg.dx = true → s.dev.dmaRings = [n] → s.dev.chanItem n = some i →
    opOf i.desc < 2 → halfIrq i.desc = false → (s.dev.chan n).withdrawn = false → want i.desc (s.dev.chan n) = some w →
    s.dev.identity (s.dev.ringAsid n) = true → s.dev.isParked n = false →
    ∃ t b, exec .beatIssue s = .next t ∧ (t.dev.chan n).out = (s.dev.chan n).out ++ [b] ∧ b.va = w.va ∧ b.pa = w.va ∧ b.dst = w.dst ∧
      b.idx = w.idx ∧ b.bytes = w.bytes ∧ t.dev.dx.port = some n ∧ t.dev.dx.lastServed = n) ∧
  (∀ (s : State) (n : RingNo) (i : Item) (b : DmaBeat) (dst : Bool) (idx : Nat) (reply : BeatReply) (cause : Nat), s.busFree →
    (reply, cause) ∈ [(BeatReply.addressError, Cause.ADDR_ERROR), (.otherError, Cause.RESP_ERROR)] →
    s.dev.chanItem n.val = some i → (s.dev.chan n.val).out.find? (fun o => o.dst == dst && o.idx == idx) = some b →
    (s.dev.chan n.val).out.any (fun o => !(o.dst == b.dst && o.idx == b.idx)) = true → (s.dev.chan n.val).fail = none →
    halfIrq i.desc = false →
    ∃ t, exec (.beatResponse n dst idx reply) s = .next t ∧ (t.dev.chan n.val).fail = some (some idx, dst, cause, b.va) ∧
      (t.dev.chan n.val).out = (s.dev.chan n.val).out.filter (fun o => !(o.dst == b.dst && o.idx == b.idx)) ∧ t.dev.ram = s.dev.ram) ∧
  (∀ (s : State) (n : RingNo) (i : Item) (b : DmaBeat) (idx : Nat), s.busFree → s.dev.chanItem n.val = some i → opOf i.desc < 2 →
    (s.dev.chan n.val).out.find? (fun o => o.dst == true && o.idx == idx) = some b → halfIrq i.desc = false → fullIrq i.desc = false →
    csumStore i.desc = false → targetOf b.pa ≠ .regs → s.dev.physCheck b.pa b.bytes.length true = .ok →
    (∀ k, k < b.bytes.length → (s.dev.physByte (b.pa + k)).isSome = true) →
    ∃ t, exec (.beatResponse n true idx .ok) s = .next t ∧ ∀ k, k < b.bytes.length → t.dev.physByte (b.pa + k) = b.bytes[k]?)

/-! ## Translation (R133 to R142) -/

/-- R135, R136: a walk that ends with a permitted page, or a Translation Completion that grants the access, is cached; a read error ends the
translation with WALK_ERROR; a fault that may not park is refused, one that may parks and asks for the page. -/
def Obligations.TranslationsEnd : Prop :=
  (∀ (s : State) (who : Fin 512) (w : Nat × Nat × Nat × Bool × Bool) (pa size : Nat) (rd wr pr : Bool), s.dev.walkOf who.val = some w →
    s.dev.asidHost w.2.1 = false → s.dev.walk w.2.1 w.2.2.1 = .ok pa size rd wr pr → (if w.2.2.2.2 then wr else rd) = true →
    ∃ t e, exec (.walkDone who false) s = .next t ∧ t.dev.cached w.2.1 w.2.2.1 = some e ∧ e.pa = pa ∧ e.size = size ∧ e.rd = rd ∧ e.wr = wr ∧
      t.dev.walkOf who.val = none ∧ t.dev.ram = s.dev.ram) ∧
  (∀ (s : State) (who : Fin 512) (w : Nat × Nat × Nat × Bool × Bool), s.dev.walkOf who.val = some w → s.dev.asidHost w.2.1 = false →
    ∃ t p, exec (.walkDone who true) s = .next t ∧ raised t.dev Pg.dx Evt.DX_WALK_ERROR ∧ t.dev.walkOf who.val = none ∧
      t.dev.park? who.val = some p ∧ p.stage = 5 ∧ p.va = w.2.2.1 ∧
      t.dev.rf Pg.dx Reg.DX_WALK_STAT 31 16 = (s.dev.rf Pg.dx Reg.DX_WALK_STAT 31 16 + 1) % 65536) ∧
  (∀ (s : State) (who : Fin 512) (w : Nat × Nat × Nat × Bool × Bool) (pr : Bool), s.dev.walkOf who.val = some w →
    s.dev.asidHost w.2.1 = false → s.dev.walk w.2.1 w.2.2.1 = .fault pr → pr = false ∨ s.dev.asidPr w.2.1 = false → s.dev.isParked who.val = false →
    ∃ t p, exec (.walkDone who false) s = .next t ∧ raised t.dev Pg.dx Evt.DX_PAGE_REFUSED ∧ t.dev.park? who.val = some p ∧ p.stage = 4) ∧
  (∀ (s : State) (who : Fin 512) (w : Nat × Nat × Nat × Bool × Bool), s.dev.walkOf who.val = some w → s.dev.asidHost w.2.1 = false →
    s.dev.walk w.2.1 w.2.2.1 = .fault true → s.dev.asidPr w.2.1 = true → s.dev.park? who.val = none →
    s.dev.rb Pg.dx Reg.DX_PARK_MODE 0 = false →
    ∃ t p, exec (.walkDone who false) s = .next t ∧ raised t.dev Pg.dx Evt.DX_PAGE_REQ ∧ t.dev.park? who.val = some p ∧ p.stage = 2 ∧
      p.va = w.2.2.1 / 4096 * 4096) ∧
  (∀ (s : State) (who : Fin 512) (a : AtsReply) (w : Nat × Nat × Nat × Bool × Bool), s.dev.walkOf who.val = some w →
    s.dev.asidHost w.2.1 = true → a.page.toNat / 4096 * 4096 = w.2.2.1 → (if w.2.2.2.2 then a.wr else a.rd) = true →
    ∃ t e, exec (.atsCompletion who a) s = .next t ∧ t.dev.cached w.2.1 w.2.2.1 = some e ∧ e.rd = a.rd ∧ e.wr = a.wr ∧
      e.pa = 0x10000000000 + a.target.toNat / 4096 * 4096 ∧ t.dev.walkOf who.val = none)

/-- R138, R140 to R142: page requests and invalidations. The oldest request is popped with its address; a success lets the requester try
again, a refusal or the timeout refuses it and counts; a Response Failure ends the Page Request Interface; an invalidation
removes the translations its scope names at once and ends when the requests through them have responded; the host's
configuration writes enable the services. -/
def Obligations.PageRequestsAndInvalidations : Prop :=
  (∀ (s : State) (p : Park), s.dev.dx.parks.find? (fun q => q.stage == 2) = some p →
    ∃ t r, exec .dxPrPop s = .next t ∧ t.dev.park? p.who = some r ∧ r.stage = 1 ∧ t.dev.reg Pg.dx Reg.DX_PR_VA_LO = word (p.va % 2 ^ 32) ∧
      fld 8 0 t.dev.readData = p.who % 512 ∧ fld 14 9 t.dev.readData = p.asid % 64 ∧ bit 30 t.dev.readData = p.wr ∧
      bit 31 t.dev.readData = true) ∧
  (∀ (s : State), s.dev.dx.parks.find? (fun q => q.stage == 2) = none → ∃ t, exec .dxPrPop s = .next t ∧ t.dev.readData = 0 ∧ t.dev.dx = s.dev.dx) ∧
  (∀ (s : State) (v : Word) (p : Park), s.dev.park? (fld 8 0 v) = some p → p.stage ≤ 2 → bit 16 v = true →
    ∃ t, exec (.dxPrResp v) s = .next t ∧ t.dev.park? (fld 8 0 v) = some { p with stage := 3, successes := p.successes + 1 } ∧
      t.dev.pages = s.dev.pages) ∧
  (∀ (s : State) (v : Word) (p : Park), s.dev.park? (fld 8 0 v) = some p → p.stage ≤ 2 → bit 16 v = false →
    ∃ t, exec (.dxPrResp v) s = .next t ∧ t.dev.park? (fld 8 0 v) = some { p with stage := 4 } ∧ raised t.dev Pg.dx Evt.DX_PAGE_REFUSED ∧
      t.dev.rf Pg.dx Reg.DX_PARK_COUNT 31 16 = (s.dev.rf Pg.dx Reg.DX_PARK_COUNT 31 16 + 1) % 65536) ∧
  (∀ (s : State) (v : Word), s.dev.park? (fld 8 0 v) = none → exec (.dxPrResp v) s = .next s) ∧
  (∀ (s : State) (who : Fin 512) (p : Park), s.dev.park? who.val = some p → p.stage ≤ 2 → p.host = true →
    ∃ t, exec (.prgResponse who .success) s = .next t ∧ t.dev.park? who.val = some { p with stage := 3, successes := p.successes + 1 } ∧
      t.dev.dx.pri = s.dev.dx.pri) ∧
  (∀ (s : State) (who : Fin 512) (p : Park), s.dev.park? who.val = some p → p.stage ≤ 2 → p.host = true →
    ∃ t, exec (.prgResponse who .responseFailure) s = .next t ∧ t.dev.park? who.val = some { p with stage := 4 } ∧ t.dev.dx.pri = false ∧
      raised t.dev Pg.dx Evt.DX_PAGE_REFUSED) ∧
  (∀ (s : State) (who : Fin 512) (p : Park), s.dev.park? who.val = some p → p.stage ≤ 2 →
    ∃ t, exec (.parkTimeout who) s = .next t ∧ t.dev.park? who.val = some { p with stage := 4 } ∧ raised t.dev Pg.dx Evt.DX_PAGE_REFUSED) ∧
  (∀ (s : State) (v : Word), bit 16 v = true → s.dev.dx.invBusy = false →
    ∃ t, exec (.invalidate v) s = .next t ∧ (∀ e, e ∈ t.dev.dx.cache → e ∈ s.dev.dx.cache) ∧ (fld 9 8 v = 0 → t.dev.dx.cache = []) ∧
      (fld 9 8 v = 1 → t.dev.dx.cache = s.dev.dx.cache.filter (fun e => e.asid != fld 5 0 v)) ∧ t.dev.dx.invBusy = t.dev.staleBeats) ∧
  (∀ (s : State) (pasid : Nat) (va : BitVec 48) (pages : Nat), ∃ t, exec (.atsInvalidate pasid va pages) s = .next t ∧
      (∀ e, e ∈ t.dev.dx.cache → s.dev.asidHost e.asid = true → s.dev.asidPasid e.asid = some pasid →
        e.inRange (va.toNat / 4096 * 4096) pages = false) ∧
      (if t.dev.staleBeats then t.dev.dx.atsInvDue = true else Output.atsInvalidated ∈ t.dev.out)) ∧
  (∀ (s : State), s.dev.staleBeats = false → ∃ t, exec .invalidateDone s = .next t ∧ t.dev.dx.invBusy = false ∧
      t.dev.rb Pg.dx Reg.DX_INV_CTRL 31 = false ∧ (s.dev.dx.atsInvDue = true → Output.atsInvalidated ∈ t.dev.out)) ∧
  (∀ (s : State) (ats pri : Bool), ∃ t, exec (.configWrite ats pri) s = .next t ∧ t.dev.dx.ats = ats ∧ t.dev.dx.pri = pri ∧
      t.dev.dx.cache = s.dev.dx.cache ∧ t.dev.pages = s.dev.pages ∧ t.dev.ram = s.dev.ram)

/-! ## Memory (chapter 5) -/

/-- R13, R112 to R115: a byte stored at an address that memory answers for reads back there, and no other byte changes, whether its
parity group is whole or serves one member by reconstruction. -/
def Obligations.MemoryHoldsWhatIsStored : Prop :=
  (∀ (d : Dev) (a : Nat) (b : Byte), (d.physByte a).isSome = true → (d.setPhysByte a b).physByte a = some b) ∧
  (∀ (d : Dev) (a a' : Nat) (b : Byte), a' ≠ a → (d.setPhysByte a b).physByte a' = d.physByte a') ∧
  (∀ (d : Dev) (a : Nat) (bs : List Byte) (who : Option Nat), Ram.wf d.ram = true → Ram.wf (d.physWrite a bs who).1.ram = true) ∧
  Ram.wf State.reset.dev.ram = true

/-- R13, R14, R113 to R117: fabric reads and writes of DRAM. A read answers with the unit's bytes from its member, or by reconstruction with a
count; an uncorrectable one is reconstructed and raises CHAN_FAULT; a write stores its bytes and no others; a group that does
not serve holds the request; beyond DRAM it is an address error. -/
def Obligations.DramReadsAndWrites : Prop :=
  (∀ (s : State) (who : Requester) (a : BitVec 48) (bs : List Byte), a.toNat < 0x2000000000 → s.dev.grpServes (dramGroup a.toNat) = true →
    s.dev.dramUnitBytes (a.toNat / 64 * 64) = some bs →
    ∃ t, exec (.dramRead who a .clean) s = .next t ∧ Output.memData who bs ∈ t.dev.out ∧ t.dev.ram = s.dev.ram) ∧
  (∀ (s : State) (who : Requester) (a : BitVec 48) (ecc : EccOutcome), a.toNat < 0x2000000000 → s.dev.grpServes (dramGroup a.toNat) = true →
    (s.dev.grp (dramGroup a.toNat)).up (memberOf (dramRow a.toNat) (dramUnit a.toNat)) = false →
    ∃ t, exec (.dramRead who a ecc) s = .next t ∧ t.dev.ram = s.dev.ram ∧
      (match s.dev.dramUnitBytes (a.toNat / 64 * 64) with
        | some bs => Output.memData who bs ∈ t.dev.out
        | none => Output.memError who ∈ t.dev.out) ∧
      t.dev.rf (mcPage (dramGroup a.toNat)) Reg.MC_DEGRADED_RD 31 0 =
        (s.dev.rf (mcPage (dramGroup a.toNat)) Reg.MC_DEGRADED_RD 31 0 + 1) % 2 ^ 32) ∧
  (∀ (s : State) (who : Requester) (a : BitVec 48) (bs : List Byte), a.toNat < 0x2000000000 → s.dev.grpServes (dramGroup a.toNat) = true →
    (s.dev.grp (dramGroup a.toNat)).up (memberOf (dramRow a.toNat) (dramUnit a.toNat)) = true → s.dev.rebuilt (a.toNat / 64 * 64) = some bs →
    ∃ t, exec (.dramRead who a .uncorrectable) s = .next t ∧ Output.memData who bs ∈ t.dev.out ∧
      raised t.dev (mcPage (dramGroup a.toNat)) Evt.MC_CHAN_FAULT) ∧
  (∀ (s : State) (who : Requester) (a : BitVec 48) (bs : List Byte), a.toNat < 0x2000000000 → s.dev.grpServes (dramGroup a.toNat) = true →
    ∃ t, exec (.dramWrite who a bs) s = .next t ∧
      (∀ k, k < bs.length → (s.dev.physByte (a.toNat + k)).isSome = true → t.dev.physByte (a.toNat + k) = bs[k]?) ∧
      ∀ x, x < a.toNat ∨ a.toNat + bs.length ≤ x → t.dev.physByte x = s.dev.physByte x) ∧
  (∀ (s : State) (who : Requester) (a : BitVec 48) (ecc : EccOutcome) (bs : List Byte) (c : Instr) (q : DramReq),
    (c, q) ∈ [(Instr.dramRead who a ecc, { who := who, addr := a.toNat / 64 * 64, ecc := ecc, bytes := none }),
              (Instr.dramWrite who a bs, { who := who, addr := a.toNat, ecc := .clean, bytes := some bs })] →
    a.toNat < 0x2000000000 → s.dev.grpServes (dramGroup a.toNat) = false →
    ∃ t, exec c s = .next t ∧ (t.dev.grp (dramGroup a.toNat)).held = (s.dev.grp (dramGroup a.toNat)).held ++ [q] ∧ t.dev.ram = s.dev.ram ∧
      t.dev.out = s.dev.out) ∧
  (∀ (s : State) (who : Requester) (a : BitVec 48) (ecc : EccOutcome) (bs : List Byte) (c : Instr), c ∈ [Instr.dramRead who a ecc, Instr.dramWrite who a bs] →
    0x2000000000 ≤ a.toNat →
    ∃ t, exec c s = .next t ∧ Output.addressError who ∈ t.dev.out ∧ raised t.dev Pg.fb Evt.FB_ADDR_HOLE ∧ t.dev.ram = s.dev.ram)

/-- R113, R117, R122, R123, R125: what a memory controller does besides requests. Timeouts and failed retries raise CHAN_FAULT; a merge window's end
counts a read-modify-write; a scrubbed row of a healthy group agrees in parity afterwards, with PARITY_MISMATCH where it did
not before; refreshes are postponed up to the limit and then late; a poll stores the members' rates; an idle member enters
self-refresh. No byte of memory changes but a scrubbed row's parity. -/
def Obligations.MemoryUpkeep : Prop :=
  (∀ (s : State) (g : Group) (m : Member), (s.dev.grp g.val).up m.val = true →
    ∃ t, exec (.readTimeout g m) s = .next t ∧ raised t.dev (Pg.mc g) Evt.MC_CHAN_FAULT ∧ t.dev.ram = s.dev.ram ∧
      t.dev.rf (Pg.mc g) Reg.MC_CH_TIMEOUTS 15 0 m.val = min (s.dev.rf (Pg.mc g) Reg.MC_CH_TIMEOUTS 15 0 m.val + 1) 65535) ∧
  (∀ (s : State) (g : Group) (m : Member), (s.dev.grp g.val).up m.val = true →
    ∃ t, exec (.chanRetry g m true) s = .next t ∧ ((t.dev.grp g.val).m m.val).state = .active ∧ t.dev.pages = s.dev.pages ∧
      t.dev.ram = s.dev.ram) ∧
  (∀ (s : State) (g : Group) (m : Member), (s.dev.grp g.val).up m.val = true →
    ∃ t, exec (.chanRetry g m false) s = .next t ∧ raised t.dev (Pg.mc g) Evt.MC_CHAN_FAULT ∧ t.dev.ram = s.dev.ram) ∧
  (∀ (s : State) (g : Group) (row : Nat), (s.dev.grp g.val).merges.any (fun e => e.row == row) = true →
    ∃ t, exec (.rowCombineExpire g row) s = .next t ∧ t.dev.ram = s.dev.ram ∧
      (t.dev.grp g.val).merges = (s.dev.grp g.val).merges.filter (fun e => e.row != row) ∧
      t.dev.rf (Pg.mc g) Reg.MC_RMW_CNT 31 0 = (s.dev.rf (Pg.mc g) Reg.MC_RMW_CNT 31 0 + 1) % 2 ^ 32) ∧
  (∀ (s : State) (g : Group) (row : Nat), s.dev.rb (Pg.mc g) Reg.MC_SCRUB_CFG 16 = true → s.dev.grpServes g.val = true →
    (s.dev.grp g.val).degraded = false → (s.dev.grp g.val).lost = false → row < 2 ^ 26 →
    ∃ t, exec (.scrubRow g row) s = .next t ∧ t.dev.rf (Pg.mc g) Reg.MC_SCRUB_STAT 15 0 = row / 1024 ∧
      (∀ i, i < 64 → t.dev.parityOk g.val (row * 64 + i) = true) ∧
      ((∀ i, i < 64 → s.dev.parityOk g.val (row * 64 + i) = true) → t.dev.ram = s.dev.ram ∧ t.dev.pages.hdrs = s.dev.pages.hdrs) ∧
      (∀ i, i < 64 → s.dev.parityOk g.val (row * 64 + i) = false → raised t.dev (Pg.mc g) Evt.MC_PARITY_MISMATCH)) ∧
  (∀ (s : State) (g : Group) (m : Member) (busy : Bool), ((s.dev.grp g.val).m m.val).state = .active → (s.dev.grp g.val).retiring ≠ some m.val →
    ((s.dev.grp g.val).m m.val).lost = false →
    ∃ t, exec (.refresh g m busy) s = .next t ∧ t.dev.ram = s.dev.ram ∧ (busy = false → ((t.dev.grp g.val).m m.val).postponed = 0) ∧
      (busy = true → ((s.dev.grp g.val).m m.val).postponed < min 8 (s.dev.rf (Pg.mc g) Reg.MC_REFRESH_CFG 4 1) →
        ((t.dev.grp g.val).m m.val).postponed = ((s.dev.grp g.val).m m.val).postponed + 1) ∧
      (busy = true → min 8 (s.dev.rf (Pg.mc g) Reg.MC_REFRESH_CFG 4 1) ≤ ((s.dev.grp g.val).m m.val).postponed →
        raised t.dev (Pg.mc g) Evt.MC_REFRESH_LATE)) ∧
  (∀ (s : State) (g : Group) (codes : List (Option (Fin 8))) (m : Member) (c : Fin 8), ((s.dev.grp g.val).m m.val).state = .active →
    ((s.dev.grp g.val).m m.val).lost = false → (s.dev.grp g.val).retiring ≠ some m.val → codes.getD m.val none = some c →
    ∃ t, exec (.mr4Poll g codes) s = .next t ∧ ((∀ k : Member, (codes.getD k.val none).isSome = true) → ((t.dev.grp g.val).m m.val).rate = c.val) ∧
      t.dev.ram = s.dev.ram) ∧
  (∀ (s : State) (g : Group) (m : Member), ((s.dev.grp g.val).m m.val).state = .active → ((s.dev.grp g.val).m m.val).lost = false →
    (s.dev.grp g.val).retiring ≠ some m.val → s.dev.rb (Pg.mc g) Reg.MC_SR_IDLE 16 = true → s.dev.rf (Pg.mc g) Reg.MC_SR_IDLE 11 0 ≠ 0 →
    ∃ t, exec (.srEntry g m) s = .next t ∧ ((t.dev.grp g.val).m m.val).state = .selfRefresh ∧ t.dev.ram = s.dev.ram ∧ t.dev.pages = s.dev.pages)

/-- R121, R126 to R129: rebuild, frequency changes, training and tracking of a parity group. A rebuild trains the member, recomputes every
unit of it from the other eight and stores its record clear; a change takes its target, holds the group and ends with the
point and the other timing set in force; training stores which members passed. -/
def Obligations.RebuildFrequencyAndTraining : Prop :=
  (∀ (s : State) (g : Group) (m : Member), s.dev.rb (Pg.mc g) Reg.MC_RETIRE_REC m.val = true → (s.dev.grp g.val).lost = false →
    (s.dev.grp g.val).rebuild = none → (s.dev.hdr (Pg.mc g)).state.serves = true →
    ∃ t, exec (.mcRetireRecWrite g m) s = .next t ∧ (t.dev.grp g.val).rebuild = some (m.val, false) ∧
      ((t.dev.grp g.val).m m.val).state = .rebuilding ∧ t.dev.rb (Pg.mc g) Reg.MC_REBUILD_STAT 16 = true ∧ t.dev.ram = s.dev.ram) ∧
  (∀ (s : State) (g : Group) (m : Nat), (s.dev.grp g.val).rebuild = some (m, false) →
    ∃ t, exec (.rebuildTrainDone g true) s = .next t ∧ (t.dev.grp g.val).rebuild = some (m, true) ∧ ((t.dev.grp g.val).m m).trained = true ∧
      t.dev.ram = s.dev.ram) ∧
  (∀ (s : State) (g : Group) (m : Nat), (s.dev.grp g.val).rebuild = some (m, false) →
    ∃ t, exec (.rebuildTrainDone g false) s = .next t ∧ (t.dev.grp g.val).rebuild = none ∧ ((t.dev.grp g.val).m m).state = .retired ∧
      raised t.dev (Pg.mc g) Evt.MC_CHAN_FAULT) ∧
  (∀ (s : State) (g : Group) (m i : Nat), (s.dev.grp g.val).rebuild = some (m, true) → m < 9 →
    wordIndex ((Pg.mc g).val * 0x1000 + Reg.MC_RETIRE_REC) = some i → (s.dev.psWord i).worn = false →
    s.dev.wear (s.dev.psWord i).slot < endurance →
    s.dev.nv ((Pg.mc g).val * 0x1000 + Reg.MC_RETIRE_REC) ≠ putFld m m 0 (s.dev.reg (Pg.mc g) Reg.MC_RETIRE_REC) →
    ∃ t, exec (.rebuildDone g true) s = .next t ∧ (t.dev.grp g.val).rebuild = none ∧ ((t.dev.grp g.val).m m).state = .active ∧
      (∀ off, off < 2 ^ 32 → t.dev.cell g.val m off = t.dev.xorOthers g.val m off) ∧ t.dev.rb (Pg.mc g) Reg.MC_RETIRE_REC m = false ∧
      raised t.dev (Pg.mc g) Evt.MC_REBUILD_DONE) ∧
  (∀ (s : State) (g : Group), (s.dev.grp g.val).waiting = none → (∀ k, k < 4 → (s.dev.grp k).change = none) →
    (s.dev.hdr (Pg.mc g)).state.serves = true →
    ∃ t, exec (.freqGo g) s = .next t ∧ (t.dev.grp g.val).change = some (s.dev.rf (Pg.mc g) Reg.MC_FREQ_CTRL 1 0) ∧
      t.dev.rb (Pg.mc g) Reg.MC_FREQ_CTRL 16 = true ∧ (t.dev.grp g.val).point = (s.dev.grp g.val).point ∧ t.dev.grpServes g.val = false) ∧
  (∀ (s : State) (g : Group) (passed : BitVec 9) (p : Nat), (s.dev.grp g.val).change = some p → (s.dev.grp g.val).waiting = none →
    (s.dev.grp g.val).held = [] → (∀ m : Member, (s.dev.grp g.val).up m.val = true → passed.getLsbD m.val = true) →
    ∃ t, exec (.freqDone g passed) s = .next t ∧ (t.dev.grp g.val).change = none ∧ (t.dev.grp g.val).point = p ∧
      (t.dev.grp g.val).setB = !(s.dev.grp g.val).setB ∧ raised t.dev (Pg.mc g) Evt.MC_FREQ_DONE ∧ t.dev.ram = s.dev.ram) ∧
  (∀ (s : State) (g : Group) (b1 b10 : Nat), s.dev.fwRuns = true → s.dev.rb (Pg.mc g) Reg.MC_FREQ_CTRL 8 = true →
    (s.dev.grp g.val).lastAuto = 0 → 0 < (s.dev.grp g.val).point → (s.dev.grp g.val).point < 4 →
    usable (s.dev.grp g.val).point * 70 < b10 * 10000 →
    (s.dev.grp g.val).waiting = none → (∀ k, k < 4 → (s.dev.grp k).change = none) → (s.dev.hdr (Pg.mc g)).state.serves = true →
    ∃ t, exec (.freqAuto g b1 b10) s = .next t ∧ (t.dev.grp g.val).change = some ((s.dev.grp g.val).point - 1) ∧
      (t.dev.grp g.val).lastAuto = s.dev.nowNs) ∧
  (∀ (s : State) (g : Group), (s.dev.grp g.val).train = none → (s.dev.hdr (Pg.dp g)).state.serves = true →
    ∃ t, exec (.trainGo g) s = .next t ∧ t.dev.rb (Pg.dp g) Reg.DP_TRAIN_STAT 31 = true ∧ (t.dev.grp g.val).train =
      some (s.dev.rf (Pg.dp g) Reg.DP_TRAIN_CTRL 12 4, s.dev.rb (Pg.dp g) Reg.DP_TRAIN_CTRL 1) ∧ t.dev.ram = s.dev.ram) ∧
  (∀ (s : State) (g : Group) (passed : BitVec 9) (tj : Int) (mask : Nat), (s.dev.grp g.val).train = some (mask, false) →
    (s.dev.hdr (Pg.dp g)).state ≠ .starting → mask < 512 → (∀ m : Member, mask.testBit m.val = true → passed.getLsbD m.val = true) →
    ∃ t, exec (.trainDone g passed tj) s = .next t ∧ (t.dev.grp g.val).train = none ∧ (t.dev.reg (Pg.dp g) Reg.DP_TRAIN_STAT).toNat = mask ∧
      ∀ m : Member, mask.testBit m.val = true → ((t.dev.grp g.val).m m.val).trained = true) ∧
  (∀ (s : State) (g : Group) (passed : BitVec 9) (tj : Int) (mask : Nat) (m : Member), (s.dev.grp g.val).train = some (mask, false) →
    (s.dev.hdr (Pg.dp g)).state ≠ .starting → mask.testBit m.val = true → passed.getLsbD m.val = false →
    ∃ t, exec (.trainDone g passed tj) s = .next t ∧ raised t.dev (Pg.dp g) Evt.DP_TRAIN_FAIL) ∧
  (∀ (s : State) (g : Group) (stepPs : Nat), ∃ t, exec (.wckTrack g stepPs) s = .next t ∧
      t.dev.rf (Pg.dp g) Reg.DP_TRACK_STAT 15 0 = (s.dev.rf (Pg.dp g) Reg.DP_TRACK_STAT 15 0 + 1) % 65536 ∧
      t.dev.rf (Pg.dp g) Reg.DP_TRACK_STAT 31 16 = max (s.dev.rf (Pg.dp g) Reg.DP_TRACK_STAT 31 16) (min stepPs 65535))

/-! ## Cells, queues, ports and routes (chapters 13 and 14) -/

/-- R294, R297, R300, R301, R314, R323: the cell pool. The first bytes of a frame open a body in its source's reserve; a consumer reads the
head packet of its queue, a whole one at once; a flush frees every linked packet but the assured ones and then reports its end;
and each refill adds its rate to every bucket up to its burst. -/
def Obligations.CellsQueuesAndBuckets : Prop :=
  (∀ (s : State) (src : Fin 21) (bytes : List Byte), s.dev.rxBody src.val = none → bytes.length ≤ 256 →
    bytes.length ≤ s.dev.maxStored src.val →
    s.dev.reserveUsed src.val + cellsFor bytes.length ≤ s.dev.rf Pg.qm Reg.QM_CFG 7 0 →
    ∃ t x, exec (.cellArrive src bytes false false) s = .next t ∧ t.dev.rxBody src.val = some s.dev.qm.nextBody ∧
      t.dev.body? s.dev.qm.nextBody = some x ∧ x.source = src.val ∧ x.data = bytes ∧ x.inReserve = true ∧ x.done = false ∧
      t.dev.qm.queues = s.dev.qm.queues ∧ t.dev.ram = s.dev.ram) ∧
  (∀ (s : State) (q : Fin 65536) (p : Pkt) (rest : List Pkt) (b : Body), s.dev.qConsumer q.val = 1 ∨ s.dev.qConsumer q.val = 2 →
    s.dev.queue q.val = p :: rest → s.dev.body? p.body = some b → b.done = false →
    ∃ t r, exec (.packetDequeue q .ok) s = .next t ∧ t.dev.queue q.val = rest ∧ t.dev.qm.reading = s.dev.qm.reading ++ [r] ∧ r.pkt = p ∧
      r.queue = q.val ∧ t.dev.rf Pg.qm Reg.QM_DEQ_PKTS 31 0 = (s.dev.rf Pg.qm Reg.QM_DEQ_PKTS 31 0 + 1) % 2 ^ 32 ∧
      (∀ k, k ≠ q.val → t.dev.queue k = s.dev.queue k)) ∧
  (∀ (s : State) (q : Fin 65536) (p : Pkt) (rest : List Pkt) (b : Body), s.dev.qConsumer q.val = 2 → s.dev.queue q.val = p :: rest →
    s.dev.body? p.body = some b → b.done = true → b.err = false →
    ∃ t, exec (.packetDequeue q .ok) s = .next t ∧ t.dev.queue q.val = rest ∧ t.dev.qm.reading = s.dev.qm.reading ∧
      Output.hostQueue q.val (rxHeader p) p.hdr b.data ∈ t.dev.out) ∧
  (∀ (s : State) (q : Fin 65536), s.dev.qm.flushing = none →
    ∃ t, exec (.qmFlush q) s = .next t ∧ t.dev.queue q.val = (s.dev.queue q.val).filter (fun p => p.assured.isSome) ∧
      t.dev.qm.flushing = some q.val ∧ t.dev.rf Pg.qm Reg.QM_FLUSH 15 0 = q.val ∧ (∀ k, k ≠ q.val → t.dev.queue k = s.dev.queue k) ∧
      t.dev.rf Pg.qm Reg.QM_FLUSH_COUNT 15 0 = (s.dev.rf Pg.qm Reg.QM_FLUSH_COUNT 15 0 +
        ((s.dev.queue q.val).filter (fun p => p.assured.isNone)).length) % 2 ^ 16) ∧
  (∀ (s : State) (q : Nat), s.dev.qm.flushing = some q →
    ∃ t, exec .flushDone s = .next t ∧ t.dev.qm.flushing = none ∧ raised t.dev Pg.qm Evt.QM_FLUSH_DONE ∧ t.dev.qm.queues = s.dev.qm.queues ∧
      t.dev.rf Pg.qm Reg.QM_FLUSH_COUNT 31 16 = (s.dev.rf Pg.qm Reg.QM_FLUSH_COUNT 31 16 + 1) % 2 ^ 16) ∧
  (∀ (s : State), (s.dev.px.buckets.map Prod.fst).Nodup →
    ∃ t, exec .policerRefill s = .next t ∧ t.dev.pages = s.dev.pages ∧ ∀ p, p ∈ s.dev.px.buckets.map Prod.fst → t.dev.policer p =
      (min ((s.dev.policer p).1 + s.dev.tf Pg.px (0x4A0000 + 2 * p) 0 26 0) (s.dev.tf Pg.px (0x4A0000 + 2 * p) 1 23 0 * 8000),
       min ((s.dev.policer p).2 + s.dev.tf Pg.px (0x4A0000 + 2 * p) 2 26 0) (s.dev.tf Pg.px (0x4A0000 + 2 * p) 3 23 0 * 8000))) ∧
  (∀ (s : State), (s.dev.tm.tokens.map Prod.fst).Nodup →
    ∃ t, exec .shaperRefill s = .next t ∧ t.dev.pages = s.dev.pages ∧ ∀ n, n ∈ s.dev.tm.tokens.map Prod.fst → t.dev.tokens n =
      min (s.dev.tokens n + (s.dev.tf Pg.tm (0x20000 + n) 0 26 0 : Nat)) ((s.dev.tf Pg.tm (0x20000 + n) 1 23 0 * 8000 : Nat) : Int))

/-- R17, R18, R98, R316, R322, R325, R327, R329: ports. A ready port starts the head frame of its one eligible queue and discards it where the
port is down; gates and pending lists take effect; a wire item asks for STARTED, then EMITTED, then leaves its port and
completes; a transmit underrun ends its frame with a bad check sequence; an overrun drops a whole frame; and a monitor stores
one sample and freezes after its last. -/
def Obligations.PortsSendFrames : Prop :=
  (∀ (s : State) (port : Fin 20) (link : Fin 1024) (q : Nat) (p : Pkt) (b : Body), port.val < 17 → (s.dev.hdr Pg.tm).state.serves = true →
    s.dev.en.tripped = false → s.dev.portUp port.val 0 = true → s.dev.portQueues port.val 0 = [q] → s.dev.qLevel q = 0 →
    s.dev.queue q = [p] → p.assured = none → s.dev.gated port.val = false → s.dev.tf Pg.tm (0x30000 + port.val) 1 13 0 = 0 →
    s.dev.qShaper q = 0 → s.dev.body? p.body = some b → b.done = false →
    ∃ t r, exec (.portReady port link .ok) s = .next t ∧ t.dev.queue q = [] ∧ t.dev.qm.reading = s.dev.qm.reading ++ [r] ∧
      r.port = port.val ∧ r.pkt = { p with hdr := s.dev.egressHdr port.val p } ∧
      t.dev.rf Pg.tm Reg.TM_PORT_TX 31 0 port.val = (s.dev.rf Pg.tm Reg.TM_PORT_TX 31 0 port.val + 1) % 2 ^ 32) ∧
  (∀ (s : State) (port : Fin 20) (link : Fin 1024) (q : Nat) (p : Pkt), port.val < 17 → (s.dev.hdr Pg.tm).state.serves = true →
    s.dev.en.tripped = false → s.dev.portUp port.val 0 = false → s.dev.portQueues port.val 0 = [q] → s.dev.queue q = [p] → p.assured = none →
    ∃ t, exec (.portReady port link .ok) s = .next t ∧ t.dev.queue q = [] ∧ t.dev.qm.reading = s.dev.qm.reading ∧ t.dev.out = s.dev.out ∧
      t.dev.rf Pg.tm Reg.TM_DOWN_DISCARDS 31 0 (s.dev.qEgress q) = (s.dev.rf Pg.tm Reg.TM_DOWN_DISCARDS 31 0 (s.dev.qEgress q) + 1) % 2 ^ 32) ∧
  (∀ (s : State) (port : Fin 16), (s.dev.gate port.val).oper.en = true →
    ∃ t, exec (.gateChange port) s = .next t ∧ (t.dev.gate port.val).index = s.dev.gateIndex port.val (s.dev.gate port.val) ∧
      (t.dev.gate port.val).oper = (s.dev.gate port.val).oper ∧ ∀ k, k ≠ port.val → t.dev.gate k = s.dev.gate k) ∧
  (∀ (s : State) (port : Fin 16) (c : GateCfg) (st : Nat), (s.dev.gate port.val).pend = some (c, st) → (st : Int) ≤ s.dev.timeNs →
    ∃ t, exec (.gclPendingStart port) s = .next t ∧ (t.dev.gate port.val).oper = c ∧ (t.dev.gate port.val).start = st ∧
      (t.dev.gate port.val).pend = none ∧ ∀ k, k ≠ port.val → t.dev.gate k = s.dev.gate k) ∧
  (∀ (s : State) (n : RingNo) (q : Nat) (i : Item) (d : Dev) (bs : List Byte), s.dev.item? n.val q = some i → engineOf i.desc = 7 → i.pend = none →
    i.inst.isSome = true → i.phase = .bound → ctxOf i.desc < 17 → lengthOf i.desc ≤ 4096 →
    s.dev.allPkts.any (fun p => p.assured == some (n.val, q)) = false →
    s.dev.tm.kept.any (fun k => k.w.ring == n.val && k.w.seq == q) = false →
    s.dev.virtRead whoWire (s.dev.ringAsid n.val) (srcOf i.desc) (lengthOf i.desc) = (d, .ok, bs) → d.wk.items = s.dev.wk.items →
    ∃ t j w, exec (.wireTransmit n q) s = .next t ∧ t.dev.item? n.val q = some j ∧ j.phase = .running ∧ j.pend = some .started ∧
      w ∈ t.dev.tm.wire ∧ w.ring = n.val ∧ w.seq = q ∧ w.port = ctxOf i.desc ∧ w.data = bs) ∧
  (∀ (s : State) (n : RingNo) (q : Nat) (i : Item) (w : WireTx), s.dev.item? n.val q = some i → engineOf i.desc = 7 → i.pend = none →
    i.inst.isSome = true → i.phase = .running → s.dev.tm.wire = [w] → w.ring = n.val → w.seq = q → s.dev.portUp (ctxOf i.desc) 0 = true →
    ∃ t j, exec (.wireTransmit n q) s = .next t ∧ t.dev.item? n.val q = some j ∧ j.phase = .emitted ∧ j.pend = some .emitted ∧
      t.dev.tm = s.dev.tm) ∧
  (∀ (s : State) (n : RingNo) (q : Nat) (i : Item) (w : WireTx), s.dev.item? n.val q = some i → engineOf i.desc = 7 → i.pend = none →
    i.inst.isSome = true → i.phase = .emitted → s.dev.tm.wire = [w] → w.ring = n.val → w.seq = q → descF i.desc 50 0 0 = 0 →
    ∃ t j, exec (.wireTransmit n q) s = .next t ∧ t.dev.item? n.val q = some j ∧ j.pend = some .completed ∧
      j.result.status = i.doneStatus ∧ j.result.result0 = BitVec.ofNat 64 w.data.length ∧ t.dev.tm.wire = [] ∧
      Output.frame (ctxOf i.desc) w.hdr w.data false ∈ t.dev.out) ∧
  (∀ (s : State) (n : Fin 17) (r : Reading) (b : Body), n.val < 16 → s.dev.qm.reading.find? (fun x => x.port == n.val) = some r →
    s.dev.body? r.pkt.body = some b →
    ∃ t, exec (.txUnderrun (.port n)) s = .next t ∧ Output.frame n.val r.pkt.hdr b.data true ∈ t.dev.out ∧
      t.dev.qm.reading = s.dev.qm.reading.filter (fun x => x.port != n.val) ∧ raised t.dev (epPage n.val) Evt.EP_TX_UNDERRUN ∧
      t.dev.rf (epPage n.val) Reg.EP_TX_UNDERRUN 15 0 (n.val % 4) = (s.dev.rf (epPage n.val) Reg.EP_TX_UNDERRUN 15 0 (n.val % 4) + 1) % 65536) ∧
  (∀ (s : State) (r : Radio) (c : Chain) (b : Burst), (s.dev.radio r.val).onAir = some b → b.dead = false → b.kind ≠ .grant →
    ∃ t, exec (.txUnderrun (.chain r c)) s = .next t ∧ (t.dev.radio r.val).onAir = some { b with dead := true } ∧
      (t.dev.radio r.val).bias = [0, 0, 0, 0] ∧ raised t.dev Pg.cv Evt.CV_TX_UNDERRUN ∧
      t.dev.rf Pg.cv Reg.CV_UNDERRUN 31 0 r.val = (s.dev.rf Pg.cv Reg.CV_UNDERRUN 31 0 r.val + 1) % 2 ^ 32) ∧
  (∀ (s : State) (n : Fin 17), n.val < 16 → s.dev.rxBody n.val = none →
    ∃ t, exec (.rxOverrun (.port n)) s = .next t ∧ t.dev.qm = s.dev.qm ∧ t.dev.rf (epPage n.val) Reg.EP_RX_OVERRUN 15 0 (n.val % 4) =
      (s.dev.rf (epPage n.val) Reg.EP_RX_OVERRUN 15 0 (n.val % 4) + 1) % 65536) ∧
  (∀ (s : State) (r : Radio) (c : Chain), ∃ t, exec (.rxOverrun (.chain r c)) s = .next t ∧ raised t.dev Pg.cv Evt.CV_RX_OVERRUN ∧
      t.dev.rf Pg.cv Reg.CV_OVERRUN 31 0 r.val = (s.dev.rf Pg.cv Reg.CV_OVERRUN 31 0 r.val + 1) % 2 ^ 32) ∧
  (∀ (s : State) (m : Fin 64) (a q : Nat), s.dev.tb Pg.tm (0x50000 + m.val) 0 16 = true → (s.dev.mon m.val).frozen = false →
    (s.dev.hdr Pg.tm).state.serves = true → q = s.dev.tf Pg.tm (0x50000 + m.val) 0 15 0 → s.dev.queue q = [] →
    a = s.dev.tf Pg.tm (0x50000 + m.val) 2 31 13 * 8192 + s.dev.tf Pg.tm (0x50000 + m.val) 3 7 0 * 2 ^ 32 + (s.dev.mon m.val).wr * 8 →
    targetOf a = .sram → targetOf (a + 7) = .sram →
    ∃ t, exec (.monitorSample m) s = .next t ∧ (t.dev.mon m.val).wr = ((s.dev.mon m.val).wr + 1) % 1024 ∧
      (∀ k, k < 8 → t.dev.physByte (a + k) = some 0) ∧ (∀ k, (k < a ∨ a + 8 ≤ k) → t.dev.physByte k = s.dev.physByte k) ∧
      ((s.dev.mon m.val).left = some 1 → (t.dev.mon m.val).frozen = true ∧ raised t.dev Pg.tm Evt.TM_SAMPLE_FROZEN)) ∧
  (∀ (s : State) (m : Fin 64), s.dev.tb Pg.tm (0x50000 + m.val) 0 16 = false → exec (.monitorSample m) s = .next s)

/-- R311, R319, R320, R330: route versions, links and hangs. A SWAP moves the current version on, a fifth live version makes it wait; a version
that is neither current nor carried is freed; a link's loss and return are shown and raised; a lane's fault, a stuck lookup and
a port that is not served raise their sources. -/
def Obligations.VersionsLinksAndHangs : Prop :=
  (∀ (s : State), s.dev.px.swapWait = false → s.dev.px.swapRun = false → s.dev.px.vers.length < 4 →
    ∃ t, exec .swap s = .next t ∧ t.dev.px.cur = (s.dev.px.cur + 1) % 16 ∧ t.dev.px.swapRun = true ∧
      (∃ v, t.dev.px.vers = s.dev.px.vers ++ [v] ∧ v.num = t.dev.px.cur ∧
        v.words = s.dev.pages.tbl.filter (fun x => versioned x.1)) ∧ t.dev.pages = s.dev.pages) ∧
  (∀ (s : State), s.dev.px.swapWait = false → s.dev.px.swapRun = false → 4 ≤ s.dev.px.vers.length →
    ∃ t, exec .swap s = .next t ∧ t.dev.px.cur = s.dev.px.cur ∧ t.dev.px.vers = s.dev.px.vers ∧ t.dev.px.swapWait = true) ∧
  (∀ (s : State), s.dev.px.swapRun = true → ∃ t, exec .swapDone s = .next t ∧ t.dev.px.swapRun = false ∧
      raised t.dev Pg.px Evt.PX_SWAP_DONE ∧ t.dev.px.vers = s.dev.px.vers ∧ t.dev.px.cur = s.dev.px.cur) ∧
  (∀ (s : State) (v : Fin 16), v.val ≠ s.dev.px.cur → s.dev.verPackets v.val = 0 → s.dev.px.swapWait = false →
    ∃ t, exec (.versionFree v) s = .next t ∧ t.dev.px.vers = s.dev.px.vers.filter (fun x => x.num != v.val) ∧
      t.dev.px.cur = s.dev.px.cur ∧ t.dev.pages = s.dev.pages) ∧
  (∀ (s : State) (v : Fin 16), v.val = s.dev.px.cur ∨ s.dev.verPackets v.val ≠ 0 → exec (.versionFree v) s = .next s) ∧
  (∀ (s : State) (port : Fin 17), port.val < 16 → s.dev.rb (epPage port.val) Reg.EP_LINK_STAT (port.val % 4) = true →
    ∃ t, exec (.epLinkDown port) s = .next t ∧ t.dev.rb (epPage port.val) Reg.EP_LINK_STAT (port.val % 4) = false ∧
      raised t.dev (epPage port.val) Evt.EP_LINK_DOWN ∧ t.dev.portUp port.val 0 = false) ∧
  (∀ (s : State) (port : Fin 17) (speed : Fin 3), port.val < 16 → s.dev.rb (epPage port.val) Reg.EP_LINK_STAT (port.val % 4) = false →
    s.dev.portExists port.val = true → s.dev.laneDown port.val = false → (s.dev.hdr (epPage port.val)).state.serves = true →
    ∃ t, exec (.epLinkUp port speed) s = .next t ∧ t.dev.rb (epPage port.val) Reg.EP_LINK_STAT (port.val % 4) = true ∧
      raised t.dev (epPage port.val) Evt.EP_LINK_UP ∧ t.dev.qm = s.dev.qm) ∧
  (∀ (s : State) (speed : Fin 3), s.dev.rb Pg.mg Reg.MG_STAT 0 = false → (s.dev.hdr Pg.mg).state.serves = true →
    ∃ t, exec (.epLinkUp 16 speed) s = .next t ∧ t.dev.rb Pg.mg Reg.MG_STAT 0 = true ∧ t.dev.rf Pg.mg Reg.MG_STAT 2 1 = speed.val ∧
      raised t.dev Pg.mg Evt.EP_LINK_UP) ∧
  (∀ (s : State), s.dev.rb Pg.mg Reg.MG_STAT 0 = true →
    ∃ t, exec (.epLinkDown 16) s = .next t ∧ t.dev.rb Pg.mg Reg.MG_STAT 0 = false ∧ raised t.dev Pg.mg Evt.EP_LINK_DOWN) ∧
  (∀ (s : State) (port : Fin 17) (speed : Fin 3), port.val < 16 → s.dev.portExists port.val = false ∨ s.dev.laneDown port.val = true →
    exec (.epLinkUp port speed) s = .next s) ∧
  (∀ (s : State) (ep lane : Fin 4), s.dev.portMode (4 * ep.val) < 4 → s.dev.unitOut (epPage (4 * ep.val)) lane.val = false →
    ∃ t, exec (.epLaneFault ep lane) s = .next t ∧ raised t.dev (epPage (4 * ep.val)) Evt.EP_LANE_FAULT) ∧
  (∀ (s : State), s.dev.up Pg.px = true → s.dev.px.walks ≠ [] → ∃ t, exec .pxHang s = .next t ∧ raised t.dev Pg.px Evt.PX_HANG) ∧
  (∀ (s : State) (src b : Nat) (x : Body), s.dev.up Pg.px = true → src < 16 → s.dev.qm.rx = [(src, some b)] → s.dev.body? b = some x →
    x.classified = false → x.done = false →
    ∃ t y, exec .pxHang s = .next t ∧ t.dev.body? b = some y ∧ y.dropped = true ∧ raised t.dev Pg.px Evt.PX_HANG ∧
      t.dev.rf (epPage src) Reg.EP_RX_OVERRUN 15 0 (src % 4) = (s.dev.rf (epPage src) Reg.EP_RX_OVERRUN 15 0 (src % 4) + 1) % 65536) ∧
  (∀ (s : State) (port q : Nat), port < 20 → s.dev.qEgress q = port → s.dev.qConsumer q = 0 → s.dev.eligible port q = true →
    ∃ t, exec .tmHang s = .next t ∧ raised t.dev Pg.tm Evt.TM_HANG ∧ t.dev.qm = s.dev.qm)

/-! ## Ingress and the conference (chapters 7 and 14) -/

/-- R306, R309, R312, R315, R316: one frame through the pipeline. A frame that does not parse, a VLAN its source is not a member of and a
frame without a route are dropped and counted there; an IPv4 frame whose longest prefix names a next hop enters that hop's queue
with its TTL one less, under the version it was routed in. -/
def Obligations.IngressPipeline : Prop :=
  (∀ (s : State) (f : RxFrame) (b : Nat) (x : Body), s.dev.up Pg.px = true → f.source.val < 17 → s.dev.rxBody f.source.val = some b →
    s.dev.body? b = some x → x.done = true → x.classified = false → x.dropped = false → x.refs = 0 → x.walking = false →
    s.dev.air.toPx = [] → f.dmac = 0 → f.parseError = true →
    ∃ t, exec (.pxIngress f) s = .next t ∧ t.dev.body? b = none ∧ t.dev.qm.queues = s.dev.qm.queues ∧
      t.dev.rf Pg.px Reg.PX_PARSE_ERR 31 0 = (s.dev.rf Pg.px Reg.PX_PARSE_ERR 31 0 + 1) % 2 ^ 32) ∧
  (∀ (s : State) (f : RxFrame) (b : Nat) (x : Body), s.dev.up Pg.px = true → f.source.val < 17 → s.dev.rxBody f.source.val = some b →
    s.dev.body? b = some x → x.done = true → x.classified = false → x.dropped = false → x.refs = 0 → x.walking = false →
    s.dev.air.toPx = [] → f.dmac = 0 → f.parseError = false → f.tagged = true → f.vid ≠ 0 →
    bit f.source.val (s.dev.tw Pg.px (0x490000 + f.vid.val) 0) = false →
    ∃ t, exec (.pxIngress f) s = .next t ∧ t.dev.body? b = none ∧ t.dev.qm.queues = s.dev.qm.queues ∧
      t.dev.rf Pg.px Reg.PX_VLAN_DROPS 31 0 = (s.dev.rf Pg.px Reg.PX_VLAN_DROPS 31 0 + 1) % 2 ^ 32) ∧
  (∀ (s : State) (f : RxFrame) (b vid : Nat) (x : Body), s.dev.up Pg.px = true → f.source.val < 17 → s.dev.rxBody f.source.val = some b →
    s.dev.body? b = some x → x.done = true → x.classified = false → x.dropped = false → x.refs = 0 → x.walking = false →
    s.dev.air.toPx = [] → f.dmac = 0 → f.parseError = false → f.tagged = false → f.ip = 4 → f.leg = none →
    vid = s.dev.tf Pg.px (0x4B0000 + f.source.val * 16) 0 11 0 → s.dev.rb Pg.px Reg.PX_MGMT_VLAN 12 = false →
    s.dev.tb Pg.px (0x490000 + vid) 2 0 = true → (∀ tc : Fin 8, s.dev.policerOf vid f.source.val tc.val = none) → s.dev.rb Pg.px Reg.PX_CFG 0 = true →
    s.dev.lookup false (f.dst.toNat % 2 ^ 32 * 2 ^ 96) = none →
    ∃ t, exec (.pxIngress f) s = .next t ∧ t.dev.body? b = none ∧ t.dev.qm.queues = s.dev.qm.queues ∧
      t.dev.rf Pg.px Reg.PX_NO_ROUTE 31 0 = (s.dev.rf Pg.px Reg.PX_NO_ROUTE 31 0 + 1) % 2 ^ 32) ∧
  (∀ (s : State) (f : RxFrame) (b vid tc n q : Nat) (x : Body) (r : Route), s.dev.up Pg.px = true → f.source.val < 17 →
    s.dev.rxBody f.source.val = some b → s.dev.body? b = some x → x.done = true → x.classified = false → x.dropped = false →
    s.dev.air.toPx = [] → f.dmac = 0 → f.parseError = false → f.tagged = false → f.ip = 4 → f.leg = none → 1 < f.ttl.val →
    vid = s.dev.tf Pg.px (0x4B0000 + f.source.val * 16) 0 11 0 → s.dev.rb Pg.px Reg.PX_MGMT_VLAN 12 = false →
    s.dev.tb Pg.px (0x490000 + vid) 2 0 = true → s.dev.tb Pg.px (0x4B0000 + f.source.val * 16) 0 15 = false →
    tc = s.dev.tf Pg.px (0x4B0000 + f.source.val * 16) 0 14 12 → s.dev.policerOf vid f.source.val tc = none → s.dev.rb Pg.px Reg.PX_CFG 0 = true →
    s.dev.lookup false (f.dst.toNat % 2 ^ 32 * 2 ^ 96) = some r → fld 1 0 (s.dev.nhWord r.nh 0 0) = 0 → s.dev.nhChoice r.nh = some n →
    s.dev.tb Pg.px (0x4C0000 + fld 20 16 (s.dev.nhWord n 0 0) * 8 + tc) 0 8 = false → q = fld 15 0 (s.dev.nhWord n 0 1) + tc →
    s.dev.admitQ q (cellsFor f.length) = .accept →
    ∃ t p, exec (.pxIngress f) s = .next t ∧ t.dev.queue q = s.dev.queue q ++ [p] ∧ p.body = b ∧ p.hdr.ttl = f.ttl.val - 1 ∧
      p.ver = some s.dev.px.cur ∧ p.nh = n ∧ p.len = f.length ∧ (∀ k, k ≠ q → t.dev.queue k = s.dev.queue k) ∧
      t.dev.rf Pg.px Reg.PX_FWD_PKTS 31 0 = (s.dev.rf Pg.px Reg.PX_FWD_PKTS 31 0 + 1) % 2 ^ 32)

/-- R158, R163, R170 to R172, R177, R178: replication and the leg adapter. A walk goes from node to node and is truncated at 64; a lower want is taken
at once, a higher one after UP_HOLD periods; a switch that finds no switch point is raised; reports move a leg's estimate; a
closing leg with nothing in flight is closed; and firmware places a stream context on the engine with the most unused rate, or
refuses it. -/
def Obligations.ConferenceAdapts : Prop :=
  (∀ (s : State) (w : PxWalk) (ws : List PxWalk) (n : Nat), s.dev.px.walks = w :: ws → s.dev.nodeCopies w.node = [] →
    s.dev.nodeNext w.node = some n → w.done + 1 < 64 →
    ∃ t, exec .replNodeNext s = .next t ∧ t.dev.px.walks = { w with node := n, done := w.done + 1 } :: ws ∧ t.dev.qm = s.dev.qm) ∧
  (∀ (s : State) (w : PxWalk) (ws : List PxWalk) (n : Nat), s.dev.px.walks = w :: ws → s.dev.nodeCopies w.node = [] →
    s.dev.nodeNext w.node = some n → 64 ≤ w.done + 1 →
    ∃ t, exec .replNodeNext s = .next t ∧ t.dev.px.walks = ws ∧ raised t.dev Pg.px Evt.PX_REPL_TRUNC) ∧
  (∀ (s : State) (w : PxWalk) (ws : List PxWalk), s.dev.px.walks = w :: ws → s.dev.nodeCopies w.node = [] → s.dev.nodeNext w.node = none →
    ∃ t, exec .replNodeNext s = .next t ∧ t.dev.px.walks = ws) ∧
  (∀ (s : State) (l e src want : Nat), (s.dev.hdr Pg.px).state.serves = true → s.dev.fwRuns = false → s.dev.enabledLegs = [l] →
    s.dev.legAdapt l = true → s.dev.legWants l = [(e, src, want)] → want < 256 → layerRank want < layerRank (s.dev.copyCur e) →
    ∃ t, exec .adaptPeriod s = .next t ∧ t.dev.copyTarget e = want ∧ t.dev.copyPending e = true ∧ t.dev.copyCur e = s.dev.copyCur e ∧
      (t.dev.copyX e).up = 0) ∧
  (∀ (s : State) (l e src want : Nat), (s.dev.hdr Pg.px).state.serves = true → s.dev.fwRuns = false → s.dev.enabledLegs = [l] →
    s.dev.legAdapt l = true → s.dev.legWants l = [(e, src, want)] → want < 256 → layerRank (s.dev.copyCur e) < layerRank want →
    ∃ t, exec .adaptPeriod s = .next t ∧ (t.dev.copyX e).up = (s.dev.copyX e).up + 1 ∧ t.dev.copyCur e = s.dev.copyCur e ∧
      t.dev.copyTarget e = (if s.dev.legUpHold l ≤ (s.dev.copyX e).up + 1 then want else s.dev.copyTarget e)) ∧
  (∀ (s : State) (node : Fin 16384) (slot : Fin 64) (e src : Nat), e = node.val * 64 + slot.val → s.dev.nodeSource node.val = some src →
    s.dev.copyValid e = true → s.dev.copyPending e = true → s.dev.copyTarget e ≠ noLayer → s.dev.copyCur e / 16 ≠ s.dev.copyTarget e / 16 →
    s.dev.srcLocal src = false → s.dev.srcGdr src = false → s.dev.pxGdr (src * 4 + s.dev.copyTarget e / 16) = false → s.dev.fwRuns = true →
    SMap.get (fun _ => none) s.dev.px.keyAt src = none →
    ∃ t, exec (.switchTimeout node slot) s = .next t ∧ raised t.dev Pg.px Evt.PX_SWITCH_TIMEOUT ∧ Output.keyRequest src ∈ t.dev.out ∧
      t.dev.copyTarget e = s.dev.copyTarget e) ∧
  (∀ (s : State) (leg : Fin 8192) (r : RtcpReport) (v : Nat), s.dev.legEn leg.val = true → s.dev.legEdge leg.val ≠ 1 → s.dev.fwRuns = true →
    (∃ k, r = .tmmbr k ∧ v = k) ∨ (∃ loss, r = .receiver loss ∧ 10 < loss ∧ v = s.dev.legEstimate leg.val * 85 / 100) ∨
      (∃ loss, r = .receiver loss ∧ loss < 2 ∧ v = s.dev.legEstimate leg.val * 105 / 100) →
    ∃ t, exec (.rtcpReceiverReport leg r) s = .next t ∧ t.dev.legEstimate leg.val = min v (s.dev.legMaxKbps leg.val) ∧
      t.dev.legMaxKbps leg.val = s.dev.legMaxKbps leg.val ∧ t.dev.px = s.dev.px) ∧
  (∀ (s : State) (leg : Fin 8192) (loss : Nat), 2 ≤ loss → loss ≤ 10 → exec (.rtcpReceiverReport leg (.receiver loss)) s = .next s) ∧
  (∀ (s : State) (leg : Fin 8192), s.dev.legClosing leg.val = true → s.dev.legInflight leg.val = 0 →
    ∃ t, exec (.legClosed leg) s = .next t ∧ t.dev.legClosing leg.val = false ∧ t.dev.legEn leg.val = s.dev.legEn leg.val) ∧
  (∀ (s : State) (leg : Fin 8192), s.dev.legInflight leg.val ≠ 0 → exec (.legClosed leg) s = .next s) ∧
  (∀ (s : State) (leg : Fin 8192) (fps : Fin 128) (k0 k1 k3 : BitVec 128) (e c : Nat),
    s.dev.placeEngine (chargedPixels (fld 12 0 (wordAt k0 3)) (fld 28 16 (wordAt k0 3)) * fps.val) = some e → s.dev.freeContext e = some c →
    ∃ t, exec (.contextPlace false leg fps k0 k1 k3) s = .next t ∧ t.dev.ctxValid (e * 512 + c) = true ∧
      t.dev.ctxEncode (e * 512 + c) = false ∧ t.dev.legCtx leg.val = e * 512 + c ∧
      (t.dev.vctxOf (e * 512 + c)).charge = chargedPixels (fld 12 0 (wordAt k0 3)) (fld 28 16 (wordAt k0 3)) * fps.val) ∧
  (∀ (s : State) (leg : Fin 8192) (fps : Fin 128) (k0 k1 k3 : BitVec 128),
    s.dev.placeEngine (chargedPixels (fld 12 0 (wordAt k0 3)) (fld 28 16 (wordAt k0 3)) * fps.val) = none →
    ∃ t, exec (.contextPlace false leg fps k0 k1 k3) s = .next t ∧ raised t.dev Pg.px Evt.PX_TABLE_REFUSED ∧ t.dev.pages.tbl = s.dev.pages.tbl)

/-! ## Video (chapters 8 and 9) -/

/-- R182, R187, R194, R209: the items of a video engine. A DECODE or ENCODE item joins its engine's queue; OUTPUT_NEXT completes with the
waiting picture of lowest POC and CLEAR and RC_RESET with their new generation, each kept until it is recorded; an item whose
handle names no usable context fails with CTX_INVALID, and too small a source with SRC_FORMAT. -/
def Obligations.VideoItems : Prop :=
  (∀ (s : State) (n : RingNo) (q : Nat) (i : Item), s.dev.itemAt n.val q 2 = some i → opOf i.desc = 0 → s.dev.ctxInvalid i false = false →
    (s.dev.veng (ctxOf i.desc / 512)).queue.any (fun j => j.item == some (n.val, q)) = false →
    (s.dev.veng (ctxOf i.desc / 512)).bound.any (fun p => p.job.item == some (n.val, q)) = false →
    ∃ t j, exec (.decode n q) s = .next t ∧ (t.dev.veng (ctxOf i.desc / 512)).queue = (s.dev.veng (ctxOf i.desc / 512)).queue ++ [j] ∧
      j.item = some (n.val, q) ∧ j.ctx = ctxOf i.desc % 512 ∧ j.encode = false ∧ j.src = srcOf i.desc ∧ j.dst = dstOf i.desc ∧
      j.len = lengthOf i.desc ∧ t.dev.wk = s.dev.wk ∧ t.dev.pages = s.dev.pages) ∧
  (∀ (s : State) (n : RingNo) (q : Nat) (i : Item), s.dev.itemAt n.val q 3 = some i → opOf i.desc = 0 → s.dev.ctxInvalid i true = false →
    descF i.desc 52 15 0 * s.dev.ctxH (ctxOf i.desc) * 3 / 2 ≤ lengthOf i.desc →
    (s.dev.veng (ctxOf i.desc / 512)).queue.any (fun j => j.item == some (n.val, q)) = false →
    (s.dev.veng (ctxOf i.desc / 512)).bound.any (fun p => p.job.item == some (n.val, q)) = false →
    ∃ t j, exec (.encode n q) s = .next t ∧ (t.dev.veng (ctxOf i.desc / 512)).queue = (s.dev.veng (ctxOf i.desc / 512)).queue ++ [j] ∧
      j.item = some (n.val, q) ∧ j.ctx = ctxOf i.desc % 512 ∧ j.encode = true ∧ j.dst = dstOf i.desc ∧
      j.dstSize = descF i.desc 56 31 0 ∧ t.dev.wk = s.dev.wk ∧ t.dev.pages = s.dev.pages) ∧
  (∀ (s : State) (n : RingNo) (q e : Nat) (i : Item) (c : Instr) (enc : Bool),
    (c, e, opOf i.desc, enc) ∈ [(Instr.decode n q, 2, 0, false), (.outputNext n q, 2, 1, false), (.clearCtx n q, 2, 2, false),
      (.encode n q, 3, 0, true), (.rcReset n q, 3, 1, true)] → s.dev.itemAt n.val q e = some i → i.inst.getD 0 < 16 →
    s.dev.ctxInvalid i enc = true →
    ∃ t j, exec c s = .next t ∧ t.dev.item? n.val q = some j ∧ j.pend = some .completed ∧ j.result.status = .failed ∧
      j.result.cause = Cause.CTX_INVALID ∧ raised t.dev (pg (0x10 + i.inst.getD 0)) Evt.VE_CTX_INVALID) ∧
  (∀ (s : State) (n : RingNo) (q : Nat) (i : Item), s.dev.itemAt n.val q 3 = some i → opOf i.desc = 0 → s.dev.ctxInvalid i true = false →
    lengthOf i.desc < descF i.desc 52 15 0 * s.dev.ctxH (ctxOf i.desc) * 3 / 2 →
    ∃ t j, exec (.encode n q) s = .next t ∧ t.dev.item? n.val q = some j ∧ j.pend = some .completed ∧ j.result.status = .failed ∧
      j.result.cause = Cause.SRC_FORMAT) ∧
  (∀ (s : State) (n : RingNo) (q h : Nat) (i : Item) (p : DpbPic), h = ctxOf i.desc → s.dev.itemAt n.val q 2 = some i → opOf i.desc = 1 →
    s.dev.ctxInvalid i false = false → s.dev.ctxBusy h = false → (s.dev.vctxOf h).pend = [] → (s.dev.vctxOf h).cur.nextOut = some p →
    dstOf i.desc = 0 →
    ∃ t j, exec (.outputNext n q) s = .next t ∧ t.dev.item? n.val q = some j ∧ j.pend = some .completed ∧
      j.result.status = i.doneStatus ∧ j.result.eres.toNat % 2 ^ 32 = unsigned 32 p.poc ∧
      (t.dev.vctxOf h).pend = [((s.dev.veng (h / 512)).nextId, (s.dev.vctxOf h).cur.output p.poc)] ∧
      (t.dev.vctxOf h).cur = (s.dev.vctxOf h).cur ∧ t.dev.ram = s.dev.ram) ∧
  (∀ (s : State) (n : RingNo) (q h : Nat) (i : Item), h = ctxOf i.desc → s.dev.itemAt n.val q 2 = some i → opOf i.desc = 2 →
    s.dev.ctxInvalid i false = false → s.dev.ctxBusy h = false → (s.dev.vctxOf h).pend = [] →
    ∃ t j, exec (.clearCtx n q) s = .next t ∧ t.dev.item? n.val q = some j ∧ j.pend = some .completed ∧
      j.result.status = i.doneStatus ∧ (t.dev.vctxOf h).cur = (s.dev.vctxOf h).cur ∧
      (t.dev.vctxOf h).pend = [((s.dev.veng (h / 512)).nextId, { (s.dev.vctxOf h).cur with dpb := [], outSlot := none })]) ∧
  (∀ (s : State) (n : RingNo) (q h : Nat) (i : Item), h = ctxOf i.desc → s.dev.itemAt n.val q 3 = some i → opOf i.desc = 1 →
    s.dev.ctxInvalid i true = false → s.dev.ctxBusy h = false → (s.dev.vctxOf h).pend = [] →
    ∃ t j, exec (.rcReset n q) s = .next t ∧ t.dev.item? n.val q = some j ∧ j.pend = some .completed ∧
      j.result.status = i.doneStatus ∧ (t.dev.vctxOf h).cur = (s.dev.vctxOf h).cur ∧
      (t.dev.vctxOf h).pend = [((s.dev.veng (h / 512)).nextId, { (s.dev.vctxOf h).cur with debt := 0, histI := none, histP := none })])

/-- R186, R187, R192, R201, R203 to R205: decoding on the engine. Binding parses the front job into the lowest free slot, a missing reference apart,
or finds the stream unsupported; at the frame boundary the picture counts and its generation becomes current, for a ring item
when its completion is recorded; a hang is raised, a missing reference is popped, and a concealed context asks for a key
picture. -/
def Obligations.DecodingOnTheEngine : Prop :=
  (∀ (s : State) (e : Engine) (r : ParseResult) (j : VJob) (h sl : Nat), s.dev.canBind e.val false = some j → h = e.val * 512 + j.ctx →
    j.skip = false → s.dev.pictureUnsupported h r = false → r.syntaxErrors = 0 → r.missing = [] → s.dev.freeSlot h = some sl →
    ∃ t p, exec (.decodeBind e r) s = .next t ∧ (t.dev.veng e.val).bound = (s.dev.veng e.val).bound ++ [p] ∧
      (t.dev.veng e.val).queue = (s.dev.veng e.val).queue.drop 1 ∧ p.job = j ∧ p.slot = some sl ∧ p.poc = r.poc ∧ p.fail = 0 ∧
      p.gen.lastPoc = r.poc ∧ p.consumed = r.consumed ∧
      (∀ n q i, j.item = some (n, q) → s.dev.item? n q = some i → ∃ k, t.dev.item? n q = some k ∧ k.pend = some .started)) ∧
  (∀ (s : State) (e : Engine) (r : ParseResult) (j : VJob), s.dev.canBind e.val false = some j → j.ctx < 512 → j.skip = false →
    s.dev.pictureUnsupported (e.val * 512 + j.ctx) r = true →
    ∃ t p, exec (.decodeBind e r) s = .next t ∧ (t.dev.veng e.val).bound = (s.dev.veng e.val).bound ++ [p] ∧ p.fail = Cause.UNSUPPORTED ∧
      p.slot = none ∧ raised t.dev (pg (0x10 + e.val)) Evt.VE_UNSUPPORTED) ∧
  (∀ (s : State) (e : Engine) (m h : Nat) (p : VPic) (rest : List VPic), (s.dev.veng e.val).bound = p :: rest → p.job.item = none →
    p.job.encode = false → p.fail = 0 → p.job.skip = false → p.job.dst = 0 → s.dev.isParked (whoVe e.val) = false → p.job.ctx < 512 →
    h = e.val * 512 + p.job.ctx →
    ∃ t, exec (.frameBoundary e m) s = .next t ∧ (t.dev.veng e.val).bound = rest ∧ (t.dev.vctxOf h).cur = p.gen ∧
      t.dev.rf (pg (0x10 + e.val)) Reg.VE_DEC_PICS 31 0 = (s.dev.rf (pg (0x10 + e.val)) Reg.VE_DEC_PICS 31 0 + 1) % 2 ^ 32) ∧
  (∀ (s : State) (e : Engine) (m n q h : Nat) (p : VPic) (rest : List VPic) (i : Item), (s.dev.veng e.val).bound = p :: rest →
    p.job.item = some (n, q) → s.dev.item? n q = some i → i.recorded = .started → i.pend = none → p.job.encode = false → p.fail = 0 →
    p.job.skip = false → p.job.dst = 0 → s.dev.isParked (whoVe e.val) = false → h = e.val * 512 + p.job.ctx →
    ∃ t k, exec (.frameBoundary e m) s = .next t ∧ (t.dev.veng e.val).bound = rest ∧ t.dev.item? n q = some k ∧ k.pend = some .completed ∧
      k.result.status = i.doneStatus ∧ k.result.result0 = BitVec.ofNat 64 p.consumed ∧ (t.dev.vctxOf h).cur = (s.dev.vctxOf h).cur ∧
      (t.dev.vctxOf h).pend = (s.dev.vctxOf h).pend ++ [(p.job.id, p.gen)]) ∧
  (∀ (s : State) (e : Engine), (s.dev.veng e.val).bound ≠ [] → s.dev.isParked (whoVe e.val) = false →
    ∃ t, exec (.pixelHang e) s = .next t ∧ raised t.dev (pg (0x10 + e.val)) Evt.VE_PIXEL_HANG) ∧
  (∀ (s : State) (e : Engine) (m : RefMiss) (ms : List RefMiss), (s.dev.veng e.val).miss = m :: ms →
    ∃ t, exec (.veRefMissPop e) s = .next t ∧ (t.dev.veng e.val).miss = ms ∧
      t.dev.reg (pg (0x10 + e.val)) Reg.VE_REF_MISS_POC = word (unsigned 32 m.poc) ∧
      t.dev.readData = word (m.ctx % 512 + m.lost.toNat * 2 ^ 30 + 2 ^ 31) ∧
      sameRegsBut s.dev t.dev (pg (0x10 + e.val)) Reg.VE_REF_MISS_POC) ∧
  (∀ (s : State) (e : Engine) (ctx : Fin 512) (h l src : Nat), h = e.val * 512 + ctx.val → s.dev.ctxValid h = true → s.dev.ctxEncode h = false →
    (s.dev.vctxOf h).cur.dpb.any (·.conc) = true → s.dev.tb (pg (0x10 + e.val)) (ctx.val * 4 + 3) 0 13 = true → s.dev.fwRuns = true →
    l = s.dev.tf (pg (0x10 + e.val)) (ctx.val * 4 + 3) 0 12 0 → src = s.dev.legSource l → (s.dev.legX l).pliAt = none →
    s.dev.pxGdr (src * 4 + s.dev.tf (pg (0x10 + e.val)) (ctx.val * 4 + 3) 0 17 16) = false → s.dev.srcGdr src = false →
    SMap.get (fun _ => none) s.dev.px.keyAt src = none →
    ∃ t, exec (.pliRepeat e ctx) s = .next t ∧ Output.keyRequest src ∈ t.dev.out ∧ (t.dev.legX l).pliAt = some s.dev.nowNs)

/-- R187, R210, R212, R215, R218, R219: encoding on the engine. Binding plans the picture, its budget and its first QP within the context's bounds; a row
adds its bits and the QP stays within bounds, at the cap or where DST has no room left the rest is starved; at the frame
boundary DEBT follows and the generation becomes current; a key request is kept for the next picture or absorbed. -/
def Obligations.EncodingOnTheEngine : Prop :=
  (∀ (s : State) (e : Engine) (hb least h sl : Nat) (j : VJob) (pl : EncPlan), s.dev.canBind e.val true = some j → h = e.val * 512 + j.ctx →
    j.ctx < 512 → least ≤ j.dstSize → s.dev.freeSlot h = some sl → pl = s.dev.planPicture h j (s.dev.workGen h) →
    s.dev.encQpMin h ≤ s.dev.encQpMax h →
    ∃ t p, exec (.encodeBind e hb least) s = .next t ∧ (t.dev.veng e.val).bound = (s.dev.veng e.val).bound ++ [p] ∧
      (t.dev.veng e.val).queue = (s.dev.veng e.val).queue.drop 1 ∧ p.slot = some sl ∧ p.fail = 0 ∧ p.irap = pl.irap ∧ p.tid = pl.tid ∧
      p.gen = pl.gen ∧ p.spent = hb ∧ s.dev.encQpMin h ≤ p.qp ∧ p.qp ≤ s.dev.encQpMax h ∧
      p.base = s.dev.encKbps h * 1000 / max (s.dev.encFps h) 1 ∧
      p.budget = max (p.base * (if pl.irap then 4 else 1) - (s.dev.workGen h).debt)
        (p.base * s.dev.rf (pg (0x10 + e.val)) Reg.VE_ENC_RC_CFG 14 8 / 100)) ∧
  (∀ (s : State) (e : Engine) (hb least : Nat) (j : VJob), s.dev.canBind e.val true = some j → j.dstSize < least →
    ∃ t p, exec (.encodeBind e hb least) s = .next t ∧ (t.dev.veng e.val).bound = (s.dev.veng e.val).bound ++ [p] ∧
      p.fail = Cause.DST_FULL ∧ raised t.dev (pg (0x10 + e.val)) Evt.VE_DST_FULL) ∧
  (∀ (s : State) (e : Engine) (bits sb bl h aft : Nat) (pk : List Nat) (p : VPic) (rest : List VPic), (s.dev.veng e.val).bound = p :: rest →
    h = e.val * 512 + p.job.ctx → p.job.ctx < 512 → p.job.item = none → p.job.encode = true → p.fail = 0 → p.row + 1 < p.rows →
    s.dev.isParked (whoVe e.val) = false → p.starved = none → aft = s.dev.reserveAfter h p.bandAt p.rows p.row →
    p.spent + bits + aft ≤ p.job.dstSize * 8 → s.dev.encEmitValid h = false → s.dev.encQpMin h ≤ s.dev.encQpMax h →
    ∃ t p2, exec (.rowEnd e bits sb bl pk) s = .next t ∧ (t.dev.veng e.val).bound = p2 :: rest ∧ p2.row = p.row + 1 ∧
      p2.spent = p.spent + bits ∧ p2.rowBits = p.rowBits ++ [bits] ∧
      (p.cap ≤ p.spent + bits + aft → p2.starved = some (p.row + 1)) ∧
      (p.spent + bits + aft < p.cap → p2.starved = none ∧ s.dev.encQpMin h ≤ p2.qp ∧ p2.qp ≤ s.dev.encQpMax h)) ∧
  (∀ (s : State) (e : Engine) (bits sb bl h aft : Nat) (pk : List Nat) (p : VPic) (rest : List VPic), (s.dev.veng e.val).bound = p :: rest →
    h = e.val * 512 + p.job.ctx → p.job.item = none → p.job.encode = true → p.fail = 0 → p.row < p.rows →
    s.dev.isParked (whoVe e.val) = false → p.starved = none → aft = s.dev.reserveAfter h p.bandAt p.rows p.row →
    p.job.dstSize * 8 < p.spent + bits + aft → s.dev.encEmitValid h = false →
    ∃ t p2, exec (.rowEnd e bits sb bl pk) s = .next t ∧ (t.dev.veng e.val).bound = p2 :: rest ∧ p2.row = p.row + 1 ∧
      p2.spent = p.spent + sb ∧ p2.starved = some p.row) ∧
  (∀ (s : State) (e : Engine) (m h : Nat) (p : VPic) (rest : List VPic), (s.dev.veng e.val).bound = p :: rest → p.job.item = none →
    p.job.encode = true → p.fail = 0 → p.rows ≤ p.row → s.dev.isParked (whoVe e.val) = false → h = e.val * 512 + p.job.ctx → p.job.ctx < 512 →
    s.dev.encEmitValid h = false →
    ∃ t, exec (.frameBoundary e m) s = .next t ∧ (t.dev.veng e.val).bound = rest ∧ (t.dev.vctxOf h).cur.lastPoc = p.poc ∧
      (t.dev.vctxOf h).cur.outSlot = p.slot ∧ (t.dev.vctxOf h).cur.debt = p.gen.debt + p.spent - p.base ∧
      t.dev.rf (pg (0x10 + e.val)) Reg.VE_ENC_PICS 31 0 = (s.dev.rf (pg (0x10 + e.val)) Reg.VE_ENC_PICS 31 0 + 1) % 2 ^ 32) ∧
  (∀ (s : State) (e : Engine) (ctx : Fin 512) (h : Nat), h = e.val * 512 + ctx.val → s.dev.ctxValid h = true → s.dev.ctxEncode h = true →
    ∃ t, exec (.keyRequest e ctx) s = .next t ∧
      (s.dev.encGdr h = false → (t.dev.vctxOf h).cur.keyPend = true ∧ ∀ x, x ∈ (t.dev.vctxOf h).pend → x.2.keyPend = true) ∧
      (s.dev.encGdr h = true → s.dev.encOnDemand h = true → (t.dev.vctxOf h).cur.refreshPend = true) ∧
      (s.dev.encGdr h = true → s.dev.encOnDemand h = false → raised t.dev (pg (0x10 + e.val)) Evt.VE_KEY_ABSORBED ∧ t.dev.vctx = s.dev.vctx))

/-! ## Composition (chapter 10) -/

/-- R227, R228, R230, R241 to R243: compositors. An item waits for its output's tick; the tick opens a frame in the lowest free slot for the
oldest item, or for an admitted composition; an output with a frame open or no free slot skips; a written frame is published
and one whose write fails is not; a hang is raised; and the two queues of reports pop oldest first. -/
def Obligations.CompositorsOpenAndPublish : Prop :=
  (∀ (s : State) (n : RingNo) (q c o : Nat) (i : Item), s.dev.itemAt n.val q 5 = some i → opOf i.desc = 0 → c = ctxOf i.desc % 512 / 128 →
    o = ctxOf i.desc % 512 % 128 → instanceOf i.desc = 0xFF ∨ instanceOf i.desc = c → s.dev.tb (cpPage c) (o * 64) 0 0 = true →
    s.dev.tb (cpPage c) (o * 64) 0 1 = true → (s.dev.cpOut c o).reqs.any (fun x => x == (n.val, q)) = false →
    ∃ t, exec (.compose n q) s = .next t ∧ (t.dev.cpOut c o).reqs = (s.dev.cpOut c o).reqs ++ [(n.val, q)] ∧ t.dev.wk = s.dev.wk ∧
      t.dev.pages = s.dev.pages ∧ t.dev.ram = s.dev.ram) ∧
  (∀ (s : State) (c : Compositor) (o : Fin 128) (r q sl : Nat) (xs : List (Nat × Nat)) (i : Item), s.dev.up (cpPage c.val) = true →
    s.dev.tb (cpPage c.val) (o.val * 64) 0 0 = true → s.dev.tb (cpPage c.val) (o.val * 64) 0 1 = true →
    (s.dev.cpOut c.val o.val).reqs = (r, q) :: xs → (s.dev.cpUnit c.val).frames.any (fun f => f.out == o.val) = false →
    s.dev.cpFreeSlot c.val o.val = some sl → s.dev.item? r q = some i →
    ∃ t f j, exec (.frameOpen c o) s = .next t ∧ (t.dev.cpUnit c.val).frames = (s.dev.cpUnit c.val).frames ++ [f] ∧ f.out = o.val ∧
      f.slot = sl ∧ f.item = some (r, q) ∧ (t.dev.cpOut c.val o.val).reqs = xs ∧ t.dev.item? r q = some j ∧ j.pend = some .started) ∧
  (∀ (s : State) (c : Compositor) (o : Fin 128) (sl e : Nat) (fm : Form), s.dev.up (cpPage c.val) = true → s.dev.tb (cpPage c.val) (o.val * 64) 0 0 = true →
    s.dev.tb (cpPage c.val) (o.val * 64) 0 1 = false → (s.dev.cpUnit c.val).frames.any (fun f => f.out == o.val) = false →
    s.dev.cpFreeSlot c.val o.val = some sl → s.dev.admission (cpPage c.val) 11 (s.dev.cpUnits c.val o.val) none = some (fm, e) →
    ∃ t f, exec (.frameOpen c o) s = .next t ∧ (t.dev.cpUnit c.val).frames = (s.dev.cpUnit c.val).frames ++ [f] ∧ f.out = o.val ∧
      f.slot = sl ∧ f.item = none ∧ f.uj = e ∧ t.dev.en.reserved = s.dev.en.reserved + e) ∧
  (∀ (s : State) (c : Compositor) (o : Fin 128), s.dev.up (cpPage c.val) = true → s.dev.tb (cpPage c.val) (o.val * 64) 0 0 = true →
    s.dev.tb (cpPage c.val) (o.val * 64) 0 1 = false → (s.dev.cpUnit c.val).frames.any (fun f => f.out == o.val) = true →
    ∃ t, exec (.frameOpen c o) s = .next t ∧ raised t.dev (cpPage c.val) Evt.CP_FRAME_LATE ∧ t.dev.cps = s.dev.cps ∧
      t.dev.rf (cpPage c.val) Reg.CP_SKIP_CNT 15 0 = (s.dev.rf (cpPage c.val) Reg.CP_SKIP_CNT 15 0 + 1) % 65536) ∧
  (∀ (s : State) (c : Compositor) (o : Fin 128), s.dev.up (cpPage c.val) = true → s.dev.tb (cpPage c.val) (o.val * 64) 0 0 = true →
    s.dev.tb (cpPage c.val) (o.val * 64) 0 1 = false → (s.dev.cpUnit c.val).frames.any (fun f => f.out == o.val) = false →
    s.dev.cpFreeSlot c.val o.val = none →
    ∃ t, exec (.frameOpen c o) s = .next t ∧ raised t.dev (cpPage c.val) Evt.CP_OUT_BUSY ∧ t.dev.cps = s.dev.cps ∧
      t.dev.rf (cpPage c.val) Reg.CP_SKIP_CNT 31 16 = (s.dev.rf (cpPage c.val) Reg.CP_SKIP_CNT 31 16 + 1) % 65536) ∧
  (∀ (s : State) (c : Compositor) (f : CpFrame) (fs : List CpFrame), (s.dev.cpUnit c.val).frames = f :: fs → f.item = none →
    (∀ i, i < 8 → bit 0 (f.w (36 + i) 0) = false) →
    (∀ r, r ∈ f.rows (fun a => ((s.dev.physByte a).getD 0).toNat) (s.dev.coef c.val) →
      s.dev.physCheck (f.poolBase + f.slot * f.slotSize + r.1) r.2.length true = .ok) →
    ∃ t, exec (.frameWritten c false false) s = .next t ∧ (t.dev.cpUnit c.val).frames = fs ∧
      (t.dev.cpOut c.val f.out).published = some f.slot ∧ (t.dev.cpOut c.val f.out).pubBase = f.poolBase ∧
      t.dev.rf (cpPage c.val) Reg.CP_FRAMES 31 0 = (s.dev.rf (cpPage c.val) Reg.CP_FRAMES 31 0 + 1) % 2 ^ 32) ∧
  (∀ (s : State) (c : Compositor) (rerr : Bool) (f : CpFrame) (fs : List CpFrame) (r q : Nat) (i : Item),
    (s.dev.cpUnit c.val).frames = f :: fs → f.item = some (r, q) → s.dev.item? r q = some i → i.recorded = .started → i.pend = none →
    ∃ t j, exec (.frameWritten c rerr true) s = .next t ∧ (t.dev.cpUnit c.val).frames = fs ∧ t.dev.item? r q = some j ∧
      j.pend = some .completed ∧ j.result.status = .failed ∧ j.result.cause = Cause.ACCESS ∧
      (t.dev.cpOut c.val f.out).published = (s.dev.cpOut c.val f.out).published ∧ raised t.dev (cpPage c.val) Evt.CP_ACCESS_ERR) ∧
  (∀ (s : State) (c : Compositor), (s.dev.cpUnit c.val).frames ≠ [] →
    ∃ t, exec (.blendHang c) s = .next t ∧ raised t.dev (cpPage c.val) Evt.CP_BLEND_HANG) ∧
  (∀ (s : State) (c : Compositor) (o l : Nat) (lost : Bool) (xs : List (Nat × Nat × Bool)), (s.dev.cpUnit c.val).stale = (o, l, lost) :: xs →
    ∃ t, exec (.cpStalePop c) s = .next t ∧ (t.dev.cpUnit c.val).stale = xs ∧
      t.dev.readData = word (o + l * 2 ^ 7 + lost.toNat * 2 ^ 30 + 2 ^ 31) ∧ t.dev.pages = s.dev.pages) ∧
  (∀ (s : State) (c : Compositor) (o k crc : Nat) (lost : Bool) (xs : List (Nat × Nat × Bool × Nat)),
    (s.dev.cpUnit c.val).sig = (o, k, lost, crc) :: xs →
    ∃ t, exec (.cpSigPop c) s = .next t ∧ (t.dev.cpUnit c.val).sig = xs ∧ t.dev.reg (cpPage c.val) Reg.CP_SIG_FOUND = word crc ∧
      t.dev.readData = word (o + k * 2 ^ 7 + lost.toNat * 2 ^ 30 + 2 ^ 31) ∧ sameRegsBut s.dev t.dev (cpPage c.val) Reg.CP_SIG_FOUND)

/-! ## Audio (chapter 11) -/

/-- R246, R247, R249, R252, R255, R256, R260, R263, R265: the mixer. A tick takes the window writes and opens a frame of every mix that is due; forming
a frame closes it and a leg alone in its mix hears none of itself; ramps end at their targets, a waiting gain steps at a zero
crossing or after 20 ms, a crossfade ends on the new route; late frames and hangs are raised. -/
def Obligations.MixerFrames : Prop :=
  (∀ (s : State) (m : Nat), (s.dev.hdr Pg.am).state.serves = true → s.dev.am.writes = [] → s.dev.mixesOn = [m] →
    ((s.dev.amTickNo : Int) - s.dev.mixPhase m) % (s.dev.mixQuarters m : Nat) = 0 →
    ∃ t, exec (.amTick []) s = .next t ∧ (t.dev.amMix m).openTick = some s.dev.timeNs ∧ t.dev.am.tick = s.dev.timeNs) ∧
  (∀ (s : State) (a : Nat) (ws : List Word), (s.dev.hdr Pg.am).state.serves = true → s.dev.am.writes = [(a, ws)] → a < 0x400 →
    ∃ t, exec (.amTick []) s = .next t ∧ t.dev.tw Pg.am a 0 = ws.getD 0 0 ∧ t.dev.am.writes = []) ∧
  (∀ (s : State) (jobs : List AudioWork) (m : Nat) (x : AmMix) (tk : Int), (s.dev.hdr Pg.am).state.serves = true → s.dev.am.mixes = [(m, x)] →
    x.openTick = some tk →
    ∃ t, exec (.mixForm jobs) s = .next t ∧ (t.dev.amMix m).openTick = none ∧
      t.dev.rf Pg.am Reg.AM_FRAMES 31 0 = (s.dev.rf Pg.am Reg.AM_FRAMES 31 0 + 1) % 2 ^ 32) ∧
  (∀ (s : State) (m l : Nat) (x : AmMix) (tk : Int), (s.dev.hdr Pg.am).state.serves = true → s.dev.am.mixes = [(m, x)] →
    x.openTick = some tk → s.dev.mixLegs m = [l] → s.dev.mixLeavers m = [] → (s.dev.amLeg l).xfade = none → s.dev.held = [] →
    ∃ t, exec (.mixForm []) s = .next t ∧ (t.dev.amLeg l).prevOut = List.replicate (s.dev.mixQuarters m * 120) 0) ∧
  (∀ (s : State) (m : Fin 1024) (tk : Int), (s.dev.amMix m.val).openTick = some tk →
    ∃ t, exec (.mixLate m) s = .next t ∧ raised t.dev Pg.am Evt.AM_MIX_LATE ∧ t.dev.am = s.dev.am ∧
      t.dev.rf Pg.am Reg.AM_LATE_MIX 31 0 = (s.dev.rf Pg.am Reg.AM_LATE_MIX 31 0 + 1) % 2 ^ 32) ∧
  (∀ (s : State) (l : Fin 8192) (out : Bool) (g : AmGain) (f : Option Int) (done total : Nat), (s.dev.amLeg l.val).gain out = g →
    g.move = .ramp f done total → total ≤ done → s.dev.am.waitq = [] → (s.dev.amLeg l.val).leaving = false →
    ∃ t, exec (.rampEnd l out) s = .next t ∧ (t.dev.amLeg l.val).gain out = { cur := g.target, target := g.target, move := .still } ∧
      (t.dev.amLeg l.val).gain (!out) = (s.dev.amLeg l.val).gain (!out) ∧ t.dev.pages = s.dev.pages) ∧
  (∀ (s : State) (l : Fin 8192) (out : Bool) (g : AmGain) (till : Int) (n : Nat), (s.dev.amLeg l.val).gain out = g → g.move = .wait till →
    ∃ t, exec (.zeroCrossing l out n) s = .next t ∧ (t.dev.amLeg l.val).gain out = { g with move := .step n } ∧
      t.dev.am.waitq = s.dev.am.waitq.filter (fun w => !(w.1 == l.val && w.2 == out)) ∧
      t.dev.rf Pg.am Reg.AM_ZC_COUNT 15 0 = (s.dev.rf Pg.am Reg.AM_ZC_COUNT 15 0 + 1) % 65536) ∧
  (∀ (s : State) (l : Fin 8192) (out : Bool) (g : AmGain) (till : Int), (s.dev.amLeg l.val).gain out = g → g.move = .wait till →
    (s.dev.amLeg l.val).leaving = false →
    ∃ t, exec (.zcTimeout l out) s = .next t ∧ (t.dev.amLeg l.val).gain out = { cur := g.target, target := g.target, move := .still } ∧
      raised t.dev Pg.am Evt.AM_ZC_TIMEOUT ∧
      t.dev.rf Pg.am Reg.AM_ZC_COUNT 31 16 = (s.dev.rf Pg.am Reg.AM_ZC_COUNT 31 16 + 1) % 65536) ∧
  (∀ (s : State) (l : Fin 8192) (f : Xfade), (s.dev.amLeg l.val).xfade = some f → f.total ≤ f.done → (s.dev.amLeg l.val).nextMix = none →
    s.dev.am.waitq = [] → ∃ t, exec (.crossfadeEnd l) s = .next t ∧ (t.dev.amLeg l.val).xfade = none ∧
      (t.dev.amLeg l.val).mix = (s.dev.amLeg l.val).mix ∧ t.dev.pages = s.dev.pages) ∧
  (∀ (s : State), s.dev.am.mixes.any (fun x => x.2.openTick.isSome) = true →
    ∃ t, exec .mixHang s = .next t ∧ raised t.dev Pg.am Evt.AM_MIX_HANG ∧ t.dev.am = s.dev.am)

/-! ## DSP clusters (chapter 12) -/

/-- R281, R282, R284, R286, R289: kernels and jobs. A kernel image that passes its checks is placed in the lowest span that fits and its entry
is loaded, a bad one is refused with its status; an unload forgets an entry no job uses; a bound item asks for STARTED; a free
lane takes the next job into a frame with its input, its registers set and its entry point; a late job is discarded and a
stuck lane raised. -/
def Obligations.KernelsAndJobs : Prop :=
  (∀ (s : State) (c : Cluster) (e a b : Nat) (h body : List Byte) (k : DsKernel), e = s.dev.rf (dsPage c.val) Reg.DS_KERNEL_CMD 5 0 →
    s.dev.kernel c.val e = none → a = (s.dev.tw (dsPage c.val) (e * 2) 0).toNat + s.dev.tf (dsPage c.val) (e * 2) 1 15 0 * 2 ^ 32 →
    targetOf a = .dram ∨ targetOf a = .sram → (s.dev.physRead a 64 (some (272 + c.val))).2.2 = h →
    ((s.dev.physRead a 64 (some (272 + c.val))).1.physRead (a + 64) (min (fieldLE h 8 4 + fieldLE h 12 4) 262144) (some (272 + c.val))).2.2 = body →
    kernelOf h body = .inr k →
    firstFit 0 (s.dev.codeEnd c.val) (k.codeBytes + k.constBytes)
      ((s.dev.ds c.val).kernels.filterMap (fun x => x.2.map (fun k => (k.base, k.codeBytes + k.constBytes)))) = some b →
    ∃ t, exec (.kernelLoad c) s = .next t ∧ t.dev.kernel c.val e = some { k with base := b } ∧
      t.dev.rf (dsPage c.val) Reg.DS_KERNEL_CMD 27 24 = 0 ∧ ∀ i, i < body.length → t.dev.lmem c.val (b + i) = body.getD i 0) ∧
  (∀ (s : State) (c : Cluster) (e a st : Nat) (h body : List Byte), e = s.dev.rf (dsPage c.val) Reg.DS_KERNEL_CMD 5 0 →
    s.dev.kernel c.val e = none → a = (s.dev.tw (dsPage c.val) (e * 2) 0).toNat + s.dev.tf (dsPage c.val) (e * 2) 1 15 0 * 2 ^ 32 →
    targetOf a = .dram ∨ targetOf a = .sram → (s.dev.physRead a 64 (some (272 + c.val))).2.2 = h →
    ((s.dev.physRead a 64 (some (272 + c.val))).1.physRead (a + 64) (min (fieldLE h 8 4 + fieldLE h 12 4) 262144) (some (272 + c.val))).2.2 = body →
    kernelOf h body = .inl st →
    ∃ t, exec (.kernelLoad c) s = .next t ∧ t.dev.kernel c.val e = none ∧ t.dev.rf (dsPage c.val) Reg.DS_KERNEL_CMD 27 24 = st ∧
      raised t.dev (dsPage c.val) Evt.DS_KERNEL_LOAD_ERR) ∧
  (∀ (s : State) (c : Cluster) (e : Nat), e = s.dev.rf (dsPage c.val) Reg.DS_KERNEL_CMD 5 0 → s.dev.kernelBusy c.val e = false →
    ∃ t, exec (.kernelUnload c) s = .next t ∧ t.dev.kernel c.val e = none ∧ t.dev.rf (dsPage c.val) Reg.DS_KERNEL_CMD 27 24 = 0 ∧
      ∀ k, k ≠ e → t.dev.kernel c.val k = s.dev.kernel c.val k) ∧
  (∀ (s : State) (c : Cluster) (e : Nat), e = s.dev.rf (dsPage c.val) Reg.DS_KERNEL_CMD 5 0 → s.dev.kernelBusy c.val e = true →
    ∃ t, exec (.kernelUnload c) s = .next t ∧ t.dev.dss = s.dev.dss ∧ t.dev.rf (dsPage c.val) Reg.DS_KERNEL_CMD 27 24 = 3) ∧
  (∀ (s : State) (n : RingNo) (q c : Nat) (i : Item) (k : DsKernel), s.dev.item? n.val q = some i → engineOf i.desc = 4 → i.phase = .bound →
    i.pend = none → i.inst = some c → opOf i.desc < 64 → s.dev.kernel c (opOf i.desc) = some k → lengthOf i.desc ≤ k.inMax →
    s.dev.stateWaits c i = false → i.recorded = .accepted → k.stateBytes = 0 →
    ∃ t j, exec (.dspKernel n q) s = .next t ∧ t.dev.item? n.val q = some j ∧ j.phase = .running ∧ j.pend = some .started ∧
      t.dev.dss = s.dev.dss ∧ t.dev.pages = s.dev.pages) ∧
  (∀ (s : State) (n : RingNo) (q c cause : Nat) (i : Item), s.dev.item? n.val q = some i → engineOf i.desc = 4 → i.phase = .bound →
    i.pend = none → i.inst = some c →
    (64 ≤ opOf i.desc ∧ cause = Cause.BAD_DESC) ∨ (opOf i.desc < 64 ∧ s.dev.kernel c (opOf i.desc) = none ∧ cause = 0x70) ∨
      (opOf i.desc < 64 ∧ cause = 0x73 ∧ ∃ k, s.dev.kernel c (opOf i.desc) = some k ∧ k.inMax < lengthOf i.desc) →
    ∃ t j, exec (.dspKernel n q) s = .next t ∧ t.dev.item? n.val q = some j ∧ j.pend = some .completed ∧ j.result.status = .failed ∧
      j.result.cause = cause) ∧
  (∀ (s : State) (c : Cluster) (l base : Nat) (i : Item) (k : DsKernel) (d : Dev) (inp : List Byte), (s.dev.hdr (dsPage c.val)).rst = false →
    (List.range 32).find? (fun n => (s.dev.lane c.val n).isNone) = some l → (s.dev.ds c.val).queue = [] →
    ((s.dev.ds c.val).running.filter (fun x => x.job.item.isSome)).length < s.dev.rf (dsPage c.val) Reg.DS_CFG 5 0 →
    s.dev.firstRingJob c.val = some i → s.dev.kernel c.val (opOf i.desc) = some k → k.stateBytes = 0 →
    firstFit (s.dev.codeEnd c.val) 262144 k.frameSize ((s.dev.ds c.val).running.map (fun n => (n.base, n.size))) = some base →
    s.dev.virtRead (whoDs c.val) (s.dev.ringAsid i.ring) (srcOf i.desc) (lengthOf i.desc) = (d, .ok, inp) → d.dss = s.dev.dss →
    ∃ t y, exec (.jobStage c) s = .next t ∧ t.dev.lane c.val l = some y ∧ y.job.item = some (i.ring, i.seq) ∧ y.base = base ∧ y.pc = k.entry ∧
      y.r 0 = word (lengthOf i.desc) ∧ y.r 1 = word (descF i.desc 56 31 0) ∧ y.r 2 = word (descF i.desc 60 31 0) ∧
      y.a[0] = BitVec.ofNat 18 base ∧ y.a[1] = BitVec.ofNat 18 (base + k.outOff) ∧ y.reps = [] ∧ y.count = 0 ∧
      ∀ n, n < inp.length → t.dev.lmem c.val (base + n) = inp.getD n 0) ∧
  (∀ (s : State) (c : Cluster) (j : DsJob), (s.dev.ds c.val).queue.find? (fun x => match x.deadline with | some t => decide (t ≤ s.dev.timeNs) | none => false) = some j →
    ∃ t, exec (.deadlineMiss c) s = .next t ∧ (t.dev.ds c.val).queue = (s.dev.ds c.val).queue.erase j ∧
      raised t.dev (dsPage c.val) Evt.DS_DEADLINE_MISS ∧ t.dev.en.reserved = s.dev.en.reserved - j.uj ∧
      t.dev.rf (dsPage c.val) Reg.DS_LATE 15 0 = (s.dev.rf (dsPage c.val) Reg.DS_LATE 15 0 + 1) % 65536) ∧
  (∀ (s : State) (l : LaneId), (s.dev.lane l.cluster.val l.lane.val).isSome = true →
    ∃ t, exec (.laneHang l) s = .next t ∧ raised t.dev (dsPage l.cluster.val) Evt.DS_LANE_HANG)

/-- R278: the lane instructions that write one data register. Each writes DD with its result, goes on to the next instruction and leaves every
other register, accumulator, address, flag and byte as it was. -/
def Obligations.LaneRegisterResults : Prop :=
  (∀ (s : State) (id : LaneId) (f : LaneFields) (x : Lane) (k : DsKernel) (c : Instr) (op : Nat) (v : Word),
    (c, op, v) ∈ [(Instr.add id f, 0x10, x.r f.da + (if f.hb then f.imm.signExtend 32 else x.r f.db)),
      (.sub id f, 0x12, x.r f.da - (if f.hb then f.imm.signExtend 32 else x.r f.db)), (.landI id f, 0x14, x.r f.da &&& x.r f.db),
      (.lorI id f, 0x15, x.r f.da ||| x.r f.db), (.lxorI id f, 0x16, x.r f.da ^^^ x.r f.db),
      (.asr id f, 0x17, (x.r f.da).sshiftRight (f.imm.toNat % 32)), (.lsl id f, 0x18, x.r f.da <<< (f.imm.toNat % 32)),
      (.minI id f, 0x19, if (x.r f.db).slt (x.r f.da) then x.r f.db else x.r f.da),
      (.maxI id f, 0x1A, if (x.r f.da).slt (x.r f.db) then x.r f.db else x.r f.da), (.movi id f, 0x1C, f.imm.signExtend 32),
      (.movhi id f, 0x1D, (f.imm.extractLsb' 0 16 ++ (x.r f.dd).extractLsb' 0 16 : BitVec (16 + 16))),
      (.acgrd id f, 0x0B, ((x.acc f.ac).extractLsb' 32 8).signExtend 32), (.bxrd id f, 0x31, word x.bexp)] →
    s.dev.laneRuns id op f x k → f.ls = false → x.reps = [] →
    ∃ t y, exec c s = .next t ∧ s.dev.laneWent t.dev id x y ∧ y.r f.dd = v ∧ (∀ n, n ≠ f.dd → y.r n = x.r n) ∧
      sameAccumulators x y ∧ sameAddressing x y) ∧
  (∀ (s : State) (id : LaneId) (f : LaneFields) (x : Lane) (k : DsKernel), s.dev.laneRuns id 0x1E f x k → f.ls = false → x.reps = [] →
    ∃ t y n, exec (.norm id f) s = .next t ∧ s.dev.laneWent t.dev id x y ∧ y.r f.dd = word n ∧ n ≤ 31 ∧
      (∀ i, i < n → (x.r f.da).getLsbD (30 - i) = (x.r f.da).msb) ∧ (n < 31 → (x.r f.da).getLsbD (30 - n) ≠ (x.r f.da).msb) ∧
      (∀ m, m ≠ f.dd → y.r m = x.r m) ∧ sameAccumulators x y ∧ sameAddressing x y)

/-- R269, R270, R278: the lane instructions that saturate. Each writes DD, or half of it, with its result held within the signed range and sets
SAT where it was outside; nothing clears SAT. -/
def Obligations.LaneSaturation : Prop :=
  (∀ (s : State) (id : LaneId) (f : LaneFields) (x : Lane) (k : DsKernel) (c : Instr) (op : Nat) (v : Int),
    (c, op, v) ∈ [(Instr.adds id f, 0x11, (x.r f.da).toInt + (if f.hb then f.imm.toInt else (x.r f.db).toInt)),
      (.subs id f, 0x13, (x.r f.da).toInt - (if f.hb then f.imm.toInt else (x.r f.db).toInt)),
      (.abs id f, 0x1B, |(x.r f.da).toInt|), (.narrow32 id f, 0x0C, roundShift (x.acc f.ac).toInt (f.imm.toNat % 32))] →
    s.dev.laneRuns id op f x k → f.ls = false → x.reps = [] →
    ∃ t y, exec c s = .next t ∧ s.dev.laneWent t.dev id x y ∧ y.r f.dd = BitVec.ofInt 32 (clampBits 32 v) ∧
      (∀ n, n ≠ f.dd → y.r n = x.r n) ∧ (outOfBits 32 v → y.sat = true) ∧ (¬outOfBits 32 v → y.sat = x.sat) ∧ y.ac = x.ac ∧
      y.ovf = x.ovf ∧ sameAddressing x y) ∧
  (∀ (s : State) (id : LaneId) (f : LaneFields) (x : Lane) (k : DsKernel) (v : Int), s.dev.laneRuns id 0x0D f x k → f.ls = false → x.reps = [] →
    f.imm.toNat % 64 ≤ 39 → v = roundShift (x.acc f.ac).toInt (f.imm.toNat % 64) →
    ∃ t y, exec (.narrow16 id f) s = .next t ∧ s.dev.laneWent t.dev id x y ∧
      (y.r f.dd).extractLsb' (if f.ha then 16 else 0) 16 = BitVec.ofInt 16 (clampBits 16 v) ∧
      (y.r f.dd).extractLsb' (if f.ha then 0 else 16) 16 = (x.r f.dd).extractLsb' (if f.ha then 0 else 16) 16 ∧
      (∀ n, n ≠ f.dd → y.r n = x.r n) ∧ (outOfBits 16 v → y.sat = true) ∧ (¬outOfBits 16 v → y.sat = x.sat) ∧ y.ac = x.ac ∧
      sameAddressing x y)

/-- R268, R269, R278: the accumulators. A multiply, load or clear writes its accumulator and ends a hold; an accumulation adds exactly, or
saturates at 40 bits and sets the accumulator's OVF bit, and leaves a held accumulator alone. -/
def Obligations.LaneAccumulators : Prop :=
  (∀ (s : State) (id : LaneId) (f : LaneFields) (x : Lane) (k : DsKernel) (c : Instr) (op : Nat) (v : Int),
    (c, op, v) ∈ [(Instr.mul16 id f, 0x06, (if f.neg then -1 else 1) * (halfOf (x.r f.da) f.ha * halfOf (x.r f.db) f.hb)),
      (.mul32 id f, 0x07, (if f.neg then -1 else 1) * roundShift ((x.r f.da).toInt * halfOf (x.r f.db) f.hb) 15),
      (.acclr id f, 0x09, 0)] →
    s.dev.laneRuns id op f x k → f.ls = false → x.reps = [] →
    ∃ t y, exec c s = .next t ∧ s.dev.laneWent t.dev id x y ∧ y.acc f.ac = BitVec.ofInt 40 v ∧ y.held[f.ac.val] = none ∧
      (∀ n, n ≠ f.ac → y.acc n = x.acc n) ∧ y.d = x.d ∧ y.ovf = x.ovf ∧ y.sat = x.sat ∧ sameAddressing x y) ∧
  (∀ (s : State) (id : LaneId) (f : LaneFields) (x : Lane) (k : DsKernel), s.dev.laneRuns id 0x08 f x k → f.ls = false → x.reps = [] →
    f.imm.toNat % 16 ≤ 8 →
    ∃ t y, exec (.acld id f) s = .next t ∧ s.dev.laneWent t.dev id x y ∧
      (y.acc f.ac).toInt = (x.r f.da).toInt * 2 ^ (f.imm.toNat % 16) ∧ (∀ n, n ≠ f.ac → y.acc n = x.acc n) ∧ y.d = x.d ∧
      y.ovf = x.ovf ∧ y.sat = x.sat ∧ sameAddressing x y) ∧
  (∀ (s : State) (id : LaneId) (f : LaneFields) (x : Lane) (k : DsKernel) (c : Instr) (op : Nat) (v : Int),
    (c, op, v) ∈ [(Instr.mac16 id f, 0x04, (if f.neg then -1 else 1) * (halfOf (x.r f.da) f.ha * halfOf (x.r f.db) f.hb)),
      (.mac32 id f, 0x05, (if f.neg then -1 else 1) * roundShift ((x.r f.da).toInt * halfOf (x.r f.db) f.hb) 15),
      (.acadd id f, 0x0A, (if f.neg then -1 else 1) * (x.acc (Fin.ofNat 4 f.imm.toNat)).toInt)] →
    s.dev.laneRuns id op f x k → f.ls = false → x.reps = [] →
    ∃ t y, exec c s = .next t ∧ s.dev.laneWent t.dev id x y ∧ (∀ n, n ≠ f.ac → y.acc n = x.acc n) ∧ y.d = x.d ∧ y.sat = x.sat ∧
      sameAddressing x y ∧ (x.held[f.ac.val] ≠ none → y.acc f.ac = x.acc f.ac ∧ y.ovf = x.ovf) ∧
      (x.held[f.ac.val] = none → (y.acc f.ac).toInt = clampBits 40 ((x.acc f.ac).toInt + v) ∧
        (outOfBits 40 ((x.acc f.ac).toInt + v) → y.ovf = x.ovf ||| BitVec.ofNat 4 (2 ^ f.ac.val)) ∧
        (¬outOfBits 40 ((x.acc f.ac).toInt + v) → y.ovf = x.ovf)))

/-- R273 to R278, R283, R287: addresses, the load and store slot, branches, repeats and the ends of a job. Address and buffer registers take
their operand; the slot loads or stores at An and then modifies it; a taken branch goes to its target or faults outside the
code; a repeat runs its body as often as it says; HALT completes the job with D0 bytes of output; an illegal OP or a job above
its limit fails it. -/
def Obligations.LaneControl : Prop :=
  (∀ (s : State) (id : LaneId) (f : LaneFields) (x : Lane) (k : DsKernel), s.dev.laneRuns id 0x00 f x k → f.ls = false → x.reps = [] →
    ∃ t y, exec (.nopInstr id f) s = .next t ∧ s.dev.laneWent t.dev id x y ∧ y.d = x.d ∧ sameAccumulators x y ∧ sameAddressing x y) ∧
  (∀ (s : State) (id : LaneId) (f : LaneFields) (x : Lane) (k : DsKernel) (c : Instr) (op : Nat) (v : BitVec 18),
    (c, op, v) ∈ [(Instr.seta id f, 0x20, f.imm.setWidth 18), (.mova id f, 0x21, (x.r f.da).setWidth 18)] →
    s.dev.laneRuns id op f x k → f.ls = false → x.reps = [] →
    ∃ t y, exec c s = .next t ∧ s.dev.laneWent t.dev id x y ∧ y.a[f.an.val] = v ∧ (∀ n : Fin 16, n ≠ f.an → y.a[n.val] = x.a[n.val]) ∧
      y.d = x.d ∧ y.ofs = x.ofs ∧ sameAccumulators x y) ∧
  (∀ (s : State) (id : LaneId) (f : LaneFields) (x : Lane) (k : DsKernel), s.dev.laneRuns id 0x22 f x k → f.ls = false → x.reps = [] →
    ∃ t y, exec (.setof id f) s = .next t ∧ s.dev.laneWent t.dev id x y ∧ y.ofs[f.ofm.val] = f.imm.setWidth 18 ∧
      (∀ n : Fin 16, n ≠ f.ofm → y.ofs[n.val] = x.ofs[n.val]) ∧ y.d = x.d ∧ y.a = x.a) ∧
  (∀ (s : State) (id : LaneId) (f : LaneFields) (x : Lane) (k : DsKernel) (n : Fin 8), s.dev.laneRuns id 0x23 f x k → f.ls = false →
    x.reps = [] → f.an.val = 8 + n.val → f.imm.toNat < 2 ^ 18 →
    ∃ t y, exec (.setcb id f) s = .next t ∧ s.dev.laneWent t.dev id x y ∧ y.d = x.d ∧ y.a = x.a ∧
      (f.ha = true → y.cbLen[n.val] = f.imm.setWidth 18 ∧ y.cbBase = x.cbBase) ∧
      (f.ha = false → y.cbBase[n.val] = f.imm.setWidth 18 ∧ y.cbLen = x.cbLen)) ∧
  (∀ (s : State) (id : LaneId) (f : LaneFields) (x : Lane) (k : DsKernel), s.dev.laneRuns id 0x30 f x k → f.ls = false → x.reps = [] →
    ∃ t y, exec (.bxclr id f) s = .next t ∧ s.dev.laneWent t.dev id x y ∧ y.bexp = 31 ∧ y.d = x.d ∧ y.a = x.a) ∧
  (∀ (s : State) (id : LaneId) (f : LaneFields) (x : Lane) (k : DsKernel), s.dev.laneRuns id 0x32 f x k → f.ls = false → x.reps = [] →
    ∃ t y, exec (.bxen id f) s = .next t ∧ s.dev.laneWent t.dev id x y ∧ y.bxEn = f.imm.getLsbD 0 ∧ y.d = x.d ∧ y.a = x.a) ∧
  (∀ (s : State) (id : LaneId) (f : LaneFields) (x : Lane) (k : DsKernel) (nx : BitVec 18) (a : Nat), s.dev.laneRuns id 0x02 f x k → f.ls = true →
    f.lsdir = false → x.reps = [] → a = (x.a[f.an.val]).toNat → a % lsSize f = 0 → x.postMod f = some nx →
    s.dev.laneMay id.cluster.val x a (lsSize f) false = true →
    ∃ t y, exec (.ldst id f) s = .next t ∧ s.dev.laneWent t.dev id x y ∧ y.a[f.an.val] = nx ∧ (∀ n, n ≠ f.lsd → y.r n = x.r n) ∧
      (f.lsw = true → y.r f.lsd = word (numLE (s.dev.lbytes id.cluster.val a 4))) ∧
      (f.lsw = false → (y.r f.lsd).toInt = signed 16 (numLE (s.dev.lbytes id.cluster.val a 2)))) ∧
  (∀ (s : State) (id : LaneId) (f : LaneFields) (x : Lane) (k : DsKernel) (nx : BitVec 18) (a : Nat), s.dev.laneRuns id 0x02 f x k → f.ls = true →
    f.lsdir = true → x.reps = [] → a = (x.a[f.an.val]).toNat → a % lsSize f = 0 → x.postMod f = some nx →
    s.dev.laneMay id.cluster.val x a (lsSize f) true = true →
    ∃ t y, exec (.ldst id f) s = .next t ∧ t.dev.lane id.cluster.val id.lane.val = some y ∧ y.pc = x.pc + 1 ∧ y.a[f.an.val] = nx ∧ y.d = x.d ∧
      (∀ n, n < lsSize f → t.dev.lmem id.cluster.val (a + n) = (x.r f.lsd).extractLsb' (8 * n) 8) ∧
      (∀ m, (m < a ∨ a + lsSize f ≤ m) → t.dev.lmem id.cluster.val m = s.dev.lmem id.cluster.val m) ∧ t.dev.ram = s.dev.ram) ∧
  (∀ (s : State) (id : LaneId) (f : LaneFields) (x : Lane) (k : DsKernel) (c : Instr) (op : Nat) (taken : Bool),
    (c, op, taken) ∈ [(Instr.bra id f, 0x29, true), (.bz id f, 0x2A, x.r f.da == 0), (.bnz id f, 0x2B, x.r f.da != 0),
      (.blt id f, 0x2C, decide ((x.r f.da).toInt < 0)), (.bge id f, 0x2D, decide (0 ≤ (x.r f.da).toInt))] →
    s.dev.laneRuns id op f x k → f.ls = false → x.reps = [] →
    (taken = true → 0 ≤ (x.pc : Int) + f.imm.toInt → (x.pc : Int) + f.imm.toInt < (k.codeBytes / 8 : Nat) →
      ∃ t y, exec c s = .next t ∧ t.dev.lane id.cluster.val id.lane.val = some y ∧ (y.pc : Int) = x.pc + f.imm.toInt ∧ y.count = x.count + 1 ∧
        y.d = x.d ∧ sameAccumulators x y ∧ sameAddressing x y) ∧
    (taken = true → (x.pc : Int) + f.imm.toInt < 0 ∨ ((k.codeBytes / 8 : Nat) : Int) ≤ (x.pc : Int) + f.imm.toInt →
      ∃ t, exec c s = .next t ∧ t.dev.lane id.cluster.val id.lane.val = none ∧ raised t.dev (dsPage id.cluster.val) Evt.DS_LANE_FAULT) ∧
    (taken = false → ∃ t y, exec c s = .next t ∧ s.dev.laneWent t.dev id x y ∧ y.d = x.d ∧ sameAccumulators x y ∧ sameAddressing x y)) ∧
  (∀ (s : State) (id : LaneId) (f : LaneFields) (x : Lane) (k : DsKernel) (body n : Nat), s.dev.laneRuns id 0x28 f x k → f.ls = false →
    x.reps = [] → body = f.imm.toNat % 4096 → n = (if f.ha then (x.r f.da).toNat % 65536 else f.imm.toNat / 4096) → 0 < n → 0 < body →
    ∃ t y, exec (.rep id f) s = .next t ∧ t.dev.lane id.cluster.val id.lane.val = some y ∧ y.pc = x.pc + 1 ∧
      y.reps = [{ first := x.pc + 1, last := x.pc + body, left := n }] ∧ y.d = x.d ∧ sameAccumulators x y ∧ sameAddressing x y) ∧
  (∀ (s : State) (id : LaneId) (f : LaneFields) (x : Lane) (k : DsKernel) (r : Rep), s.dev.laneRuns id 0x00 f x k → f.ls = false →
    x.reps = [r] → r.last = x.pc → r.first ≤ x.pc →
    ∃ t y, exec (.nopInstr id f) s = .next t ∧ t.dev.lane id.cluster.val id.lane.val = some y ∧
      (1 < r.left → y.pc = r.first ∧ y.reps = [{ r with left := r.left - 1 }]) ∧ (r.left ≤ 1 → y.pc = x.pc + 1 ∧ y.reps = [])) ∧
  (∀ (s : State) (id : LaneId) (f : LaneFields) (x : Lane) (k : DsKernel) (d : Dev) (i : Item) (r q : Nat), s.dev.laneRuns id 0x01 f x k →
    f.ls = false → x.job.item = some (r, q) → x.job.audio = none → (x.r 0).toNat ≤ k.outMax →
    s.dev.haltWrites id.cluster.val x k (s.dev.lbytes id.cluster.val (x.base + k.outOff) (x.r 0).toNat) = (d, .ok) → d.item? r q = some i →
    i.recorded = .started →
    ∃ t j, exec (.halt id f) s = .next t ∧ t.dev.lane id.cluster.val id.lane.val = none ∧ t.dev.item? r q = some j ∧
      j.pend = some .completed ∧ j.result.status = i.doneStatus ∧ j.result.result0 = BitVec.ofNat 64 (x.r 0).toNat ∧
      j.result.result1 = BitVec.ofNat 64 (x.count + 1) ∧ (x.ovf ≠ 0 ∨ x.sat = true → raised t.dev (dsPage id.cluster.val) Evt.DS_ACC_OVF)) ∧
  (∀ (s : State) (id : LaneId) (op : BitVec 8) (x : Lane) (k : DsKernel) (i : Item) (r q : Nat),
    s.dev.lane id.cluster.val id.lane.val = some x → s.dev.kernel id.cluster.val x.kernel = some k → x.count < k.maxK * 1000 →
    opField (s.dev.laneWord id.cluster.val x) = op.toNat → hasNat laneOps op.toNat = false → x.job.item = some (r, q) →
    s.dev.item? r q = some i → i.recorded = .started →
    ∃ t j, exec (.illegalOp id op) s = .next t ∧ t.dev.lane id.cluster.val id.lane.val = none ∧ t.dev.item? r q = some j ∧
      j.pend = some .completed ∧ j.result.status = .failed ∧ j.result.cause = 0x71 ∧ raised t.dev (dsPage id.cluster.val) Evt.DS_LANE_FAULT ∧
      t.dev.rf (dsPage id.cluster.val) Reg.DS_FAULT_PC 15 0 = x.pc % 65536) ∧
  (∀ (s : State) (id : LaneId) (f : LaneFields) (x : Lane) (k : DsKernel), s.dev.lane id.cluster.val id.lane.val = some x →
    s.dev.kernel id.cluster.val x.kernel = some k → opField (s.dev.laneWord id.cluster.val x) = 0x00 →
    laneFields (s.dev.laneWord id.cluster.val x) = f → k.maxK * 1000 ≤ x.count →
    ∃ t, exec (.nopInstr id f) s = .next t ∧ t.dev.lane id.cluster.val id.lane.val = none ∧ raised t.dev (dsPage id.cluster.val) Evt.DS_RUN_LIMIT)

/-! ## Time, radios and the air (chapters 15 to 17) -/

/-- R337 to R341, R343, R347, R349 to R352, R357, R359, R360, R362, R482: the time unit. An edge adds the increment and at most the slew
rate's part of the rest, and a new rate moves no presented time; an increment within 1/1,000 of nominal and a rate in range wait for
an edge; an adjustment steps, slews or is refused; a tick is issued at its nominal time; the servo's states follow Table
15.3; and the loss of the reference stops the counter and rests the memory. -/
def Obligations.TimeKeeps : Prop :=
  (∀ (s : State) (inc : Nat) (part : Int), s.dev.tu.refPresent = true → s.dev.tu.pendRate = none → s.dev.tu.pendStep = none →
    inc = s.dev.tu.pendInc.getD s.dev.tu.inc →
    part = max (-((inc * s.dev.rf Pg.tu Reg.TU_STEP_CTRL 14 8 / 1000000 : Nat) : Int))
      (min ((inc * s.dev.rf Pg.tu Reg.TU_STEP_CTRL 14 8 / 1000000 : Nat) : Int) s.dev.tu.rem) →
    ∃ t, exec .refInEdge s = .next t ∧ t.dev.tu.raw = s.dev.tu.raw + inc ∧ t.dev.tu.inc = inc ∧ t.dev.tu.pendInc = none ∧
      t.dev.tu.offset = s.dev.tu.offset + part ∧ t.dev.tu.rem = s.dev.tu.rem - part ∧ t.dev.tu.rate = s.dev.tu.rate ∧
      t.dev.pages = s.dev.pages ∧ t.dev.ram = s.dev.ram ∧ t.pending = s.pending) ∧
  (∀ (s : State) (rate : Int), s.dev.tu.refPresent = true → s.dev.tu.pendRate = some rate → s.dev.tu.pendStep = none → s.dev.tu.rem = 0 →
    s.dev.tu.pendInc = none → ∃ t, exec .refInEdge s = .next t ∧ t.dev.tu.rate = rate ∧ t.dev.tu.pendRate = none ∧
      t.dev.tu.presented = { s.dev.tu with raw := s.dev.tu.raw + s.dev.tu.inc }.presented) ∧
  (∀ (s : State) (step : Int), s.dev.tu.refPresent = true → s.dev.tu.pendRate = none → s.dev.tu.pendStep = some step → s.dev.tu.rem = 0 →
    ∃ t, exec .refInEdge s = .next t ∧ t.dev.tu.offset = s.dev.tu.offset + step * (2 ^ 32 : Nat) ∧ t.dev.tu.pendStep = none) ∧
  (∀ (s : State), s.dev.tu.refPresent = false → exec .refInEdge s = .next s) ∧
  (∀ (s : State) (v : Word) (x : Nat), x = fld 7 0 v * 2 ^ 32 + (s.dev.reg Pg.tu Reg.TU_INC_LO).toNat →
    (max x s.dev.tu.nominal - min x s.dev.tu.nominal) * 1000 ≤ s.dev.tu.nominal →
    ∃ t, exec (.tuIncWrite v) s = .next t ∧ t.dev.tu.pendInc = some x ∧ t.dev.reg Pg.tu Reg.TU_INC_HI = v &&& 0xFF ∧
      sameRegsBut s.dev t.dev Pg.tu Reg.TU_INC_HI ∧ t.dev.tu.inc = s.dev.tu.inc) ∧
  (∀ (s : State) (v : Word) (x : Nat), x = fld 7 0 v * 2 ^ 32 + (s.dev.reg Pg.tu Reg.TU_INC_LO).toNat →
    s.dev.tu.nominal < (max x s.dev.tu.nominal - min x s.dev.tu.nominal) * 1000 →
    ∃ t, exec (.tuIncWrite v) s = .next t ∧ t.dev.tu = s.dev.tu ∧ raised t.dev Pg.tu Evt.TU_RATE_REFUSED ∧ t.dev.pages.regs = s.dev.pages.regs) ∧
  (∀ (s : State) (host : Bool) (v : Word) (r : Int), r = signed 40 (fld 7 0 v * 2 ^ 32 + (s.dev.reg Pg.tu Reg.TU_RATE_LO).toNat) →
    host = decide (s.dev.rf Pg.tu Reg.TU_REF_SEL 5 4 = 0 ∨ s.dev.rf Pg.tu Reg.TU_REF_SEL 5 4 = 3) →
    ∃ t, exec (.tuRateWrite host v) s = .next t ∧
      (r.natAbs ≤ 140737488355 → t.dev.tu = { s.dev.tu with pendRate := some r } ∧
        (t.dev.reg Pg.tu Reg.TU_RATE_HI).toNat * 2 ^ 32 + (t.dev.reg Pg.tu Reg.TU_RATE_LO).toNat = unsigned 40 r) ∧
      (140737488355 < r.natAbs → t.dev.tu = s.dev.tu ∧ raised t.dev Pg.tu Evt.TU_RATE_REFUSED)) ∧
  (∀ (s : State) (host : Bool) (v : Word) (delta sum : Int),
    (host = true ∧ (s.dev.rf Pg.tu Reg.TU_REF_SEL 5 4 = 0 ∨ s.dev.rf Pg.tu Reg.TU_REF_SEL 5 4 = 3)) ∨
      (host = false ∧ (s.dev.rf Pg.tu Reg.TU_REF_SEL 5 4 = 1 ∨ s.dev.rf Pg.tu Reg.TU_REF_SEL 5 4 = 2)) →
    delta = signed 64 (v.toNat * 2 ^ 32 + (s.dev.reg Pg.tu Reg.TU_ADJ_LO).toNat) → sum = s.dev.tu.rem + delta * (2 ^ 32 : Nat) →
    ∃ t, exec (.tuAdjWrite host v) s = .next t ∧
      (s.dev.tu.armed = true → t.dev.tu.pendStep = some (s.dev.tu.pendStep.getD 0 + delta) ∧ t.dev.tu.armed = false ∧ t.dev.tu.rem = 0 ∧
        t.dev.tu.last = 1 ∧ raised t.dev Pg.tu Evt.TU_STEPPED) ∧
      (s.dev.tu.armed = false → sum.natAbs ≤ s.dev.rf Pg.tu Reg.TU_JUMP_LIMIT 23 0 * 2 ^ 32 →
        t.dev.tu = { s.dev.tu with rem := sum, last := 2 }) ∧
      (s.dev.tu.armed = false → s.dev.rf Pg.tu Reg.TU_JUMP_LIMIT 23 0 * 2 ^ 32 < sum.natAbs →
        t.dev.tu = { s.dev.tu with last := 3, refusals := (s.dev.tu.refusals + 1) % 65536 } ∧ raised t.dev Pg.tu Evt.TU_JUMP_REFUSED)) ∧
  (∀ (s : State), ∃ t u, exec .arm s = .next t ∧ exec .disarm s = .next u ∧ t.dev.tu = { s.dev.tu with armed := true } ∧
      u.dev.tu = { s.dev.tu with armed := false } ∧ t.dev.pages = s.dev.pages ∧ u.dev.pages = s.dev.pages) ∧
  (∀ (s : State) (g : Fin 32), s.dev.tb Pg.tu (2 * g.val) 0 0 = true → 0 < s.dev.tickPeriod g.val →
    (s.dev.tickNominal g.val (s.dev.tickNext g.val) : Int) ≤ s.dev.timeNs →
    ∃ t n, exec (.tick g) s = .next t ∧ s.dev.tickNext g.val ≤ n ∧ (s.dev.tickNominal g.val n : Int) ≤ s.dev.timeNs ∧
      s.dev.timeNs < (s.dev.tickNominal g.val (n + 1) : Int) ∧ Output.tick g.val n (s.dev.tickNominal g.val n) ∈ t.dev.out ∧
      t.dev.tickNext g.val = n + 1 ∧ (s.dev.tickNext g.val < n → raised t.dev Pg.tu Evt.TU_TICK_SKIP) ∧
      t.dev.tf Pg.tu (2 * g.val) 3 31 0 = (s.dev.tf Pg.tu (2 * g.val) 3 31 0 + 1) % 2 ^ 32) ∧
  (∀ (s : State) (offset : Option Int) (rate : Int), s.dev.rf Pg.tu Reg.TU_REF_SEL 5 4 = 0 ∨ s.dev.rf Pg.tu Reg.TU_REF_SEL 5 4 = 3 →
    exec (.servoUpdate offset rate) s = .next s) ∧
  (∀ (s : State) (o rate : Int), s.dev.rf Pg.tu Reg.TU_REF_SEL 5 4 = 1 ∨ s.dev.rf Pg.tu Reg.TU_REF_SEL 5 4 = 2 → s.dev.tu.armed = false →
    rate.natAbs ≤ 140737488355 → (s.dev.tu.rem + o * (2 ^ 32 : Nat)).natAbs ≤ s.dev.rf Pg.tu Reg.TU_JUMP_LIMIT 23 0 * 2 ^ 32 →
    ∃ t, exec (.servoUpdate (some o) rate) s = .next t ∧ t.dev.tu.rem = s.dev.tu.rem + o * (2 ^ 32 : Nat) ∧ t.dev.tu.pendRate = some rate ∧
      t.dev.tu.good = (if o.natAbs ≤ 100 then s.dev.tu.good + 1 else 0) ∧
      (o.natAbs ≤ 100 → 15 ≤ s.dev.tu.good → t.dev.tu.sync = 1 ∧ (s.dev.tu.sync ≠ 1 → raised t.dev Pg.tu Evt.TU_LOCKED))) ∧
  (∀ (s : State) (o rate : Int), s.dev.rf Pg.tu Reg.TU_REF_SEL 5 4 = 1 ∨ s.dev.rf Pg.tu Reg.TU_REF_SEL 5 4 = 2 → s.dev.tu.armed = false →
    s.dev.rf Pg.tu Reg.TU_JUMP_LIMIT 23 0 * 2 ^ 32 < (s.dev.tu.rem + o * (2 ^ 32 : Nat)).natAbs → s.dev.tu.sync = 1 →
    ∃ t, exec (.servoUpdate (some o) rate) s = .next t ∧ t.dev.tu.rem = s.dev.tu.rem ∧ t.dev.tu.sync = 2 ∧ t.dev.tu.good = 0 ∧
      raised t.dev Pg.tu Evt.TU_JUMP_REFUSED ∧ raised t.dev Pg.tu Evt.TU_HOLDOVER_ENTER) ∧
  (∀ (s : State), s.dev.tu.sync = 1 → ∃ t, exec .holdoverEnter s = .next t ∧ t.dev.tu.sync = 2 ∧ t.dev.tu.good = 0 ∧
      raised t.dev Pg.tu Evt.TU_HOLDOVER_ENTER ∧ t.dev.tu.raw = s.dev.tu.raw) ∧
  (∀ (s : State), s.dev.tu.sync ≠ 1 → exec .holdoverEnter s = .next s) ∧
  (∀ (s : State), s.dev.tu.sync = 2 →
    ((s.dev.rf Pg.tu Reg.TU_HOLDOVER_LIMIT 15 0 * 60000000000 : Nat) : Int) ≤ s.dev.timeNs - s.dev.tu.enteredAt →
    ∃ t, exec .holdoverExpired s = .next t ∧ t.dev.tu.sync = 0 ∧ raised t.dev Pg.tu Evt.TU_HOLDOVER_EXPIRED) ∧
  (∀ (s : State) (tj rate : Int) (valid : Bool) (age : Nat), s.dev.tu.sync = 1 →
    ∃ t, exec (.oscModelStore tj rate valid age) s = .next t ∧ t.dev.ps = { s.dev.ps with oscRate := rate, oscValid := valid, oscAge := age } ∧
      t.dev.rf Pg.tu Reg.TU_OSC_STAMP 15 0 = (s.dev.rf Pg.tu Reg.TU_OSC_STAMP 15 0 + 1) % 65536 ∧
      t.dev.rf Pg.tu Reg.TU_OSC_STAMP 23 16 = unsigned 8 tj ∧ t.dev.rf Pg.tu Reg.TU_OSC_STAMP 31 24 = (if valid then min age 255 else 0)) ∧
  (∀ (s : State) (tj rate : Int) (valid : Bool) (age : Nat), s.dev.tu.sync ≠ 1 → exec (.oscModelStore tj rate valid age) s = .next s) ∧
  (∀ (s : State), s.dev.rb Pg.tu Reg.TU_PPS_CFG 1 = true → (∀ p, s.dev.tu.ppsLast = some p → 500000000 ≤ (s.dev.timeNs - p).natAbs) →
    ∃ t, exec (.ppsInEdge (s.dev.rb Pg.tu Reg.TU_PPS_CFG 2)) s = .next t ∧ t.dev.tu.ppsLast = some s.dev.timeNs ∧
      t.dev.reg Pg.tu Reg.TU_PPS_IN_STAMP = BitVec.ofInt 32 (s.dev.timeNs - (s.dev.rf Pg.tu Reg.TU_CABLE_DELAY 19 0 : Int)) ∧
      sameRegsBut s.dev t.dev Pg.tu Reg.TU_PPS_IN_STAMP) ∧
  (∀ (s : State) (falling : Bool) (p : Int), s.dev.tu.ppsLast = some p → (s.dev.timeNs - p).natAbs < 500000000 →
    exec (.ppsInEdge falling) s = .next s) ∧
  (∀ (s : State), s.dev.rb Pg.tu Reg.TU_PPS_CFG 1 = true → s.dev.tu.ppsSilent = false →
    (∀ p, s.dev.tu.ppsLast = some p → 2500000000 ≤ s.dev.timeNs - p) →
    ∃ t, exec .ppsInMissing s = .next t ∧ t.dev.tu.ppsSilent = true ∧ raised t.dev Pg.tu Evt.TU_PPS_IN_MISSING ∧
      (s.dev.rf Pg.tu Reg.TU_REF_SEL 5 4 = 2 → s.dev.tu.sync = 1 → t.dev.tu.sync = 2)) ∧
  (∀ (s : State) (e : TxStamp) (es : List TxStamp) (q : Nat), q = s.dev.rf Pg.tu Reg.TU_TXTS_SEL 2 0 → s.dev.txts q = e :: es →
    e.id < 65536 → e.subport < 4 → e.subns < 256 → ∃ t, exec .txtsPop s = .next t ∧ t.dev.txts q = es ∧ t.dev.reg Pg.tu Reg.TU_TXTS_STAMP = word e.stamp ∧ bit 31 t.dev.readData = true ∧
      fld 15 0 t.dev.readData = e.id ∧ bit 30 t.dev.readData = s.dev.tu.txtsLost.getLsbD q ∧
      t.dev.tu.txtsLost.getLsbD q = false ∧ (∀ k, k ≠ q → t.dev.txts k = s.dev.txts k)) ∧
  (∀ (s : State), s.dev.txts (s.dev.rf Pg.tu Reg.TU_TXTS_SEL 2 0) = [] →
    ∃ t, exec .txtsPop s = .next t ∧ t.dev.readData = 0 ∧ t.dev.tu = s.dev.tu ∧ t.dev.pages = s.dev.pages) ∧
  (∀ (s : State), s.dev.tu.refPresent = true →
    ∃ t, exec .refLost s = .next t ∧ t.dev.tu.refPresent = false ∧ t.dev.tu.raw = s.dev.tu.raw ∧ raised t.dev Pg.tu Evt.TU_REF_LOST ∧
      bit Evt.TU_REF_LOST (t.dev.hdr Pg.tu).persists = true ∧ (s.dev.tu.sync = 1 → t.dev.tu.sync = 2) ∧
      (t.dev.hdr Pg.cv).refPresent = false ∧
      ∀ g m, g < 4 → m < 9 → ((s.dev.grp g).m m).state = .active → ((t.dev.grp g).m m).state = .selfRefresh) ∧
  (∀ (s : State) (elapsed : Nat), s.dev.tu.refPresent = false → s.dev.sys.refHold = false →
    ∃ t, exec (.refReturn elapsed) s = .next t ∧ t.dev.tu = { s.dev.tu with refPresent := true, raw := s.dev.tu.raw + elapsed } ∧
      bit Evt.TU_REF_LOST (t.dev.hdr Pg.tu).persists = false ∧ (t.dev.hdr Pg.cv).refPresent = true ∧
      (s.dev.fwRuns = true → (s.dev.hdr Pg.cv).state.serves = true → (t.dev.hdr Pg.cv).rst = true))

/-- R365, R367, R373, R384 to R386, R388, R414, R420: radios. A retune inside the band settles 40 µs later; a calibration writes its stamps and
status, and a failed one is a chain fault; a burst goes on air at its boundary with its control lines and otherwise goes back;
block by block it reaches EMITTED or is cut; at its end its items complete; and the failures of a radio are raised. -/
def Obligations.RadiosSendAndCalibrate : Prop :=
  (∀ (s : State) (r : Radio) (mode : Fin 5) (c : Nat), bandHas r.val mode.val = true →
    2 * (bandOf r.val).1 + s.dev.modeWidth mode.val ≤ 2 * c → 2 * c + s.dev.modeWidth mode.val ≤ 2 * (bandOf r.val).2 →
    (s.dev.radio r.val).onAir = none →
    ∃ t, exec (.retune r mode c) s = .next t ∧
      t.dev.radio r.val = { s.dev.radio r.val with mode := mode.val, carrier := c, settled := s.dev.nowNs + 40000 } ∧
      t.dev.rf (rbPage r.val) Reg.RB_STAT 31 16 = c ∧ t.dev.rf (rbPage r.val) Reg.RB_STAT 2 0 = mode.val ∧
      t.dev.rf (rbPage r.val) Reg.RB_RETUNES 31 0 = (s.dev.rf (rbPage r.val) Reg.RB_RETUNES 31 0 + 1) % 2 ^ 32 ∧
      ∀ k, k ≠ r.val → t.dev.radio k = s.dev.radio k) ∧
  (∀ (s : State) (r : Radio) (mode : Fin 5) (c : Nat), bandHas r.val mode.val = false ∨
    2 * c < 2 * (bandOf r.val).1 + s.dev.modeWidth mode.val ∨ 2 * (bandOf r.val).2 < 2 * c + s.dev.modeWidth mode.val →
    exec (.retune r mode c) s = .next s) ∧
  (∀ (s : State) (v : Word) (r : Nat), r = s.dev.rf Pg.cv Reg.CV_RADIO_SEL 1 0 → bit 4 v = true →
    ∃ t, exec (.calGo v) s = .next t ∧ t.dev.rf Pg.cv Reg.CV_CAL_CTRL 3 0 r = fld 3 0 v ∧ t.dev.rb Pg.cv Reg.CV_CAL_CTRL 5 r = bit 5 v ∧
      (t.dev.radio r).calReq = (s.dev.radio r).calReq ||| BitVec.ofNat 4 (fld 3 0 v) ∧ (t.dev.radio r).onAir = (s.dev.radio r).onAir) ∧
  (∀ (s : State) (v : Word), bit 4 v = false → ∃ t, exec (.calGo v) s = .next t ∧ t.dev.air = s.dev.air) ∧
  (∀ (s : State) (r : Radio) (c : Chain) (imageDb : Nat) (tj : Int), (s.dev.hdr Pg.cv).state.serves = true →
    (s.dev.radio r.val).calReq.getLsbD c.val = true → (s.dev.radio r.val).onAir = none →
    (s.dev.hdr (rbPage r.val)).requal.getLsbD c.val = false →
    ∃ t, exec (.calibration r c true false imageDb tj) s = .next t ∧ t.dev.rb Pg.cv Reg.CV_CAL_STAT c.val r.val = true ∧
      (t.dev.radio r.val).calReq.getLsbD c.val = false ∧ (t.dev.radio r.val).calTj = some tj ∧ (t.dev.radio r.val).calAt = s.dev.nowNs ∧
      t.dev.rf Pg.cv (Reg.CV_CAL_STAMP0 + 4 * r.val) 23 16 = unsigned 8 tj ∧
      t.dev.rf Pg.cv (Reg.CV_CAL_STAMP0 + 4 * r.val) 15 0 = (s.dev.rf Pg.cv (Reg.CV_CAL_STAMP0 + 4 * r.val) 15 0 + 1) % 65536 ∧
      (∀ p, t.dev.hdr p = s.dev.hdr p)) ∧
  (∀ (s : State) (r : Radio) (c : Chain) (imageDb : Nat) (tj : Int), (s.dev.hdr Pg.cv).state.serves = true →
    (s.dev.radio r.val).calReq.getLsbD c.val = true → (s.dev.radio r.val).onAir = none →
    ∃ t, exec (.calibration r c false false imageDb tj) s = .next t ∧ t.dev.rb Pg.cv Reg.CV_CAL_STAT c.val r.val = false ∧
      raised t.dev Pg.cv Evt.CV_CAL_FAIL ∧ raised t.dev (rbPage r.val) Evt.RB_CHAIN_FAULT) ∧
  (∀ (s : State) (r : Radio) (c : Chain) (imageDb : Nat) (tj : Int), (s.dev.hdr Pg.cv).state.serves = true →
    (s.dev.hdr (rbPage r.val)).requal.getLsbD c.val = true → (s.dev.radio r.val).onAir = none →
    ∃ t w, exec (.calibration r c true false imageDb tj) s = .next t ∧ (t.dev.hdr (rbPage r.val)).requal.getLsbD c.val = false ∧
      w ∈ t.dev.ps.queue ∧ w.record = true ∧ w.off = (rbPage r.val).val * 0x1000 + Reg.RB_CHAIN_RETIRE ∧ bit c.val w.v = false) ∧
  (∀ (s : State) (r : Radio) (c : Chain) (pass : Bool) (imageDb : Nat) (tj : Int), exec (.calibration r c pass true imageDb tj) s = .next s) ∧
  (∀ (s : State) (r : Radio) (b : Burst) (rest : List Burst), (s.dev.radio r.val).ready = b :: rest → (s.dev.radio r.val).onAir = none →
    (s.dev.radio r.val).settled ≤ s.dev.nowNs → s.dev.radioServes r.val = true → s.dev.burstRecorded b = true → s.dev.chainMask r.val ≠ 0 →
    s.dev.air.cutTill = none → s.dev.hops r.val = false →
    ∃ t, exec (.txBurstStart r true) s = .next t ∧ (t.dev.radio r.val).onAir = some { b with chains := s.dev.chainMask r.val } ∧
      (t.dev.radio r.val).ready = rest ∧ (t.dev.radio r.val).tr = s.dev.chainMask r.val ∧
      Output.air r.val b.kind.num b.to_ b.mcs b.streams b.payload (b.frames.map (fun f => (f.ftype, f.seq, f.hdr, f.body))) ∈ t.dev.out) ∧
  (∀ (s : State) (r : Radio) (b : Burst) (rest : List Burst) (f : AirFrame) (q : Nat) (p : Pkt) (filled : Bool),
    (s.dev.radio r.val).ready = b :: rest → (s.dev.radio r.val).onAir = none →
    filled = false ∨ s.dev.nowNs < (s.dev.radio r.val).settled ∨ s.dev.radioServes r.val = false ∨ s.dev.burstRecorded b = false →
    b.kind = .grant → b.frames = [f] → f.pkt = some (q, p) →
    ∃ t, exec (.txBurstStart r filled) s = .next t ∧ (t.dev.radio r.val).onAir = none ∧ (t.dev.radio r.val).ready = rest ∧
      t.dev.queue q = p :: s.dev.queue q ∧ t.dev.wk = s.dev.wk ∧ t.dev.out = s.dev.out) ∧
  (∀ (s : State) (r : Radio) (b : Burst) (rest : List Burst), (s.dev.radio r.val).ready = b :: rest → (s.dev.radio r.val).onAir = none →
    (s.dev.radio r.val).settled ≤ s.dev.nowNs → s.dev.radioServes r.val = true → s.dev.burstRecorded b = true → s.dev.chainMask r.val ≠ 0 →
    s.dev.air.cutTill = none → s.dev.hops r.val = true → b.kind ≠ .run →
    s.dev.dwellLimit r.val b.chan < s.dev.dwellUsed r.val b.chan + b.durNs →
    ∃ t, exec (.txBurstStart r true) s = .next t ∧ (t.dev.radio r.val).onAir = none ∧ raised t.dev Pg.ac Evt.AC_DWELL_HOLD ∧
      t.dev.rf Pg.ac Reg.AC_DWELL_HOLDS 31 0 = (s.dev.rf Pg.ac Reg.AC_DWELL_HOLDS 31 0 + 1) % 2 ^ 32) ∧
  (∀ (s : State) (r : Radio) (b : Burst), (s.dev.radio r.val).onAir = some b → b.block + 2 < b.blocks →
    (∀ c, c < 4 → b.chains.getLsbD c = true → s.dev.unitOut (rbPage r.val) c = false) →
    ∃ t, exec (.blockEnd r 0) s = .next t ∧ (t.dev.radio r.val).onAir = some { b with block := b.block + 1 } ∧ t.dev.wk = s.dev.wk ∧
      t.dev.pages = s.dev.pages) ∧
  (∀ (s : State) (r : Radio) (b : Burst) (f : AirFrame) (g n : Nat) (i : Item), (s.dev.radio r.val).onAir = some b → b.block + 2 = b.blocks →
    (∀ c, c < 4 → b.chains.getLsbD c = true → s.dev.unitOut (rbPage r.val) c = false) → b.kind = .grant → b.dead = false →
    b.frames = [f] → f.item = some (g, n) → s.dev.item? g n = some i →
    ∃ t j, exec (.blockEnd r 0) s = .next t ∧ t.dev.item? g n = some j ∧ j.phase = .emitted ∧ j.pend = some .emitted) ∧
  (∀ (s : State) (r : Radio) (c : Chain) (b : Burst), (s.dev.radio r.val).onAir = some b → b.chains.getLsbD c.val = true →
    s.dev.unitOut (rbPage r.val) c.val = true →
    ∃ t, exec (.blockEnd r 0) s = .next t ∧ (t.dev.radio r.val).onAir = none ∧ raised t.dev (rbPage r.val) Evt.RB_BURST_CUT ∧
      t.dev.rf (rbPage r.val) Reg.RB_CUT_BURSTS 31 0 = (s.dev.rf (rbPage r.val) Reg.RB_CUT_BURSTS 31 0 + 1) % 2 ^ 32) ∧
  (∀ (s : State) (r : Radio) (c : Chain) (b : Burst) (short : BitVec 4), (s.dev.radio r.val).onAir = some b →
    b.chains.getLsbD c.val = true → short.getLsbD c.val = true → s.dev.unitOut (rbPage r.val) c.val = false →
    ∃ t, exec (.blockEnd r short) s = .next t ∧ raised t.dev (rbPage r.val) Evt.RB_CHAIN_FAULT) ∧
  (∀ (s : State) (r : Radio) (b : Burst) (f : AirFrame) (g n : Nat) (i : Item), (s.dev.radio r.val).onAir = some b → b.dead = false →
    b.kind = .grant → b.blocks ≤ b.block + 1 → b.frames = [f] → f.ackReq = false → f.pkt = none → f.item = some (g, n) →
    s.dev.item? g n = some i → i.recorded = .emitted → i.pend = none →
    ∃ t j, exec (.burstEnd r none) s = .next t ∧ (t.dev.radio r.val).onAir = none ∧ t.dev.item? g n = some j ∧ j.pend = some .completed ∧
      j.result.status = i.doneStatus ∧
      t.dev.rf (rbPage r.val) Reg.RB_TX_BURSTS 31 0 = (s.dev.rf (rbPage r.val) Reg.RB_TX_BURSTS 31 0 + 1) % 2 ^ 32) ∧
  (∀ (s : State) (r : Radio) (b : Burst) (ack : Option LinkFrame), (s.dev.radio r.val).onAir = some b → b.dead = true →
    ∃ t, exec (.burstEnd r ack) s = .next t ∧ (t.dev.radio r.val).onAir = none ∧ t.dev.wk = s.dev.wk ∧ t.dev.out = s.dev.out) ∧
  (∀ (s : State) (r : Radio) (c : Chain), (s.dev.records (rbPage r.val)).testBit c.val = true →
    ∃ t, exec (.rbChainRetireWrite r c) s = .next t ∧ (t.dev.hdr (rbPage r.val)).requal.getLsbD c.val = true ∧
      sameHdrsBut s.dev t.dev (rbPage r.val) ∧ t.dev.pages.regs = s.dev.pages.regs) ∧
  (∀ (s : State) (r : Radio) (relocks : Bool), ∃ t, exec (.loUnlock r relocks) s = .next t ∧ t.dev.rb Pg.cv Reg.CV_LO_STAT 1 r.val = true ∧
      t.dev.rb Pg.cv Reg.CV_LO_STAT 0 r.val = relocks ∧ (t.dev.radio r.val).onAir = none ∧ raised t.dev Pg.cv Evt.CV_LO_UNLOCK) ∧
  (∀ (s : State) (r : Radio), (s.dev.radio r.val).ready ≠ [] ∨ (s.dev.radio r.val).onAir ≠ none →
    ∃ t, exec (.modemHang r) s = .next t ∧ (t.dev.radio r.val).onAir = none ∧ (t.dev.radio r.val).ready = [] ∧
      raised t.dev (rbPage r.val) Evt.RB_MODEM_HANG) ∧
  (∀ (s : State) (b : RxBurst), s.dev.radioServes b.radio.val = true → (s.dev.radio b.radio.val).onAir = none → b.headerOk = false →
    ∃ t, exec (.rxBurst b) s = .next t ∧ raised t.dev (rbPage b.radio.val) Evt.RB_HDR_FAIL ∧ t.dev.air = s.dev.air ∧
      t.dev.rf (rbPage b.radio.val) Reg.RB_RX_HDR_FAIL 31 0 = (s.dev.rf (rbPage b.radio.val) Reg.RB_RX_HDR_FAIL 31 0 + 1) % 2 ^ 32) ∧
  (∀ (s : State) (r : Radio) (f : SensorFrame), s.dev.radioServes r.val = true → (s.dev.radio r.val).onAir = none → f.crcOk = false →
    ∃ t, exec (.gfskFrame r f) s = .next t ∧ raised t.dev (rbPage r.val) Evt.RB_GFSK_CRC_FAIL ∧ t.dev.air = s.dev.air ∧
      t.dev.rf (rbPage r.val) Reg.RB_GFSK_STAT 31 16 = (s.dev.rf (rbPage r.val) Reg.RB_GFSK_STAT 31 16 + 1) % 65536)

/-- R397, R402, R404, R406, R409, R410, R415, R417, R418, R420, R423, R427: the air controller. A quadrille's assembly numbers it and readies each
radio's caller; a grant carries the acknowledgement owed first; an item the destination cannot take fails at once and another waits
for its burst; frames are delivered once and in sequence; lost links, partners and sensors are marked, posted and raised; a
sensor's retries follow Table 17.7; and the sleepy window is called, filled and answered. -/
def Obligations.AirControllerServes : Prop :=
  (∀ (s : State) (r : Radio) (k : Int), (s.dev.hdr Pg.ac).state.serves = true → (s.dev.hdr Pg.ac).commitPending = false →
    s.dev.air.cutTill = none → s.dev.air.runq = [] → s.dev.air.running = none → s.dev.radioServes r.val = true →
    k = (s.dev.timeNs + 40000) / (max s.dev.quadNs 1 : Nat) →
    ∃ t b, exec .callerAssembly s = .next t ∧ t.dev.air.quad = k ∧ t.dev.reg Pg.ac Reg.AC_QUAD_NUM = BitVec.ofInt 32 k ∧
      b ∈ (t.dev.radio r.val).ready ∧ b.kind = .caller ∧
      b.start = s.dev.slotAt k (s.dev.rf Pg.ac Reg.AC_CALLER_CFG 7 6 * s.dev.rf Pg.ac Reg.AC_CALLER_CFG 3 0)) ∧
  (∀ (s : State), (s.dev.hdr Pg.ac).state.serves = false → exec .callerAssembly s = .next s) ∧
  (∀ (s : State) (r : Radio) (i : Fin 256) (e : CardEntry), e = cardEntry (s.dev.tw Pg.ac (cardA r.val i.val) 0) → e.valid = true →
    e.up = false → e.link < 1022 → s.dev.radioServes r.val = true → s.dev.air.running = none → s.dev.air.cutTill = none →
    s.dev.wk.items = [] → (s.dev.airLink e.link).owed ≠ [] → (s.dev.airLink e.link).floods = [] → (∀ p l, s.dev.portQueues p l = []) →
    ∃ t b f, exec (.grantAssembly r (.own i)) s = .next t ∧ b ∈ (t.dev.radio r.val).ready ∧ b.kind = .grant ∧ b.to_ = e.link ∧
      b.start = s.dev.slotAt s.dev.air.quad e.start ∧ b.frames = [f] ∧ f.ftype = 2 ∧ f.body = s.dev.ackBody e.link ∧
      (t.dev.airLink e.link).owed = []) ∧
  (∀ (s : State) (r : Radio) (i : Fin 256), (cardEntry (s.dev.tw Pg.ac (cardA r.val i.val) 0)).valid = false ∨
    (cardEntry (s.dev.tw Pg.ac (cardA r.val i.val) 0)).up = true → exec (.grantAssembly r (.own i)) s = .next s) ∧
  (∀ (s : State) (n : RingNo) (q c : Nat) (i : Item), s.dev.item? n.val q = some i → engineOf i.desc = 8 → i.pend = none →
    i.inst.isSome = true → i.phase = .bound → opOf i.desc = 0 →
    (ctxOf i.desc % 4096 < 1022 ∧ 9596 < lengthOf i.desc ∧ c = Cause.FRAME_SIZE) ∨
      (ctxOf i.desc % 4096 < 1022 ∧ lengthOf i.desc ≤ 9596 ∧ s.dev.linkLost (ctxOf i.desc % 4096) = true ∧ c = Cause.PEER_LOST) ∨
      (1024 ≤ ctxOf i.desc % 4096 ∧ ctxOf i.desc % 4096 < 3072 ∧ 248 < lengthOf i.desc ∧ c = Cause.FRAME_SIZE) →
    ∃ t j, exec (.send n q) s = .next t ∧ t.dev.item? n.val q = some j ∧ j.pend = some .completed ∧ j.result.status = .failed ∧
      j.result.cause = c) ∧
  (∀ (s : State) (n : RingNo) (q : Nat) (i : Item), s.dev.item? n.val q = some i → opOf i.desc = 0 → ctxOf i.desc % 4096 < 1022 →
    lengthOf i.desc ≤ 9596 → s.dev.linkLost (ctxOf i.desc % 4096) = false → exec (.send n q) s = .next s) ∧
  (∀ (s : State) (b : RxBurst) (f : LinkFrame), s.dev.radioServes b.radio.val = true → (s.dev.radio b.radio.val).onAir = none →
    b.headerOk = true → b.codewords = [] → b.payload = .frames [f] → s.dev.linkValid b.link.val = true → s.dev.linkLost b.link.val = false →
    b.kind = 1 → f.ftype = 0 → f.ackReq = false → f.seq.toNat = s.dev.rxNext b.link.val →
    hasNat (s.dev.airLink b.link.val).delivered f.seq.toNat = false → (s.dev.airLink b.link.val).held = [] →
    ∃ t, exec (.rxBurst b) s = .next t ∧ t.dev.rxNext b.link.val = (f.seq.toNat + 1) % 65536 ∧
      (t.dev.airLink b.link.val).delivered = (f.seq.toNat :: (s.dev.airLink b.link.val).delivered).take 1024 ∧
      t.dev.tf Pg.ac (linkA b.link.val 2) 1 31 0 = (s.dev.tf Pg.ac (linkA b.link.val 2) 1 31 0 + 1) % 2 ^ 32 ∧
      (t.dev.airLink b.link.val).missed = 0) ∧
  (∀ (s : State) (b : RxBurst) (f : LinkFrame), s.dev.radioServes b.radio.val = true → (s.dev.radio b.radio.val).onAir = none →
    b.headerOk = true → b.codewords = [] → b.payload = .frames [f] → s.dev.linkValid b.link.val = true → s.dev.linkLost b.link.val = false →
    b.kind = 1 → f.ftype = 0 → f.ackReq = false → hasNat (s.dev.airLink b.link.val).delivered f.seq.toNat = true →
    ∃ t, exec (.rxBurst b) s = .next t ∧ t.dev.rxNext b.link.val = s.dev.rxNext b.link.val ∧ t.dev.qm = s.dev.qm ∧
      t.dev.tf Pg.ac (linkA b.link.val 2) 2 31 0 = (s.dev.tf Pg.ac (linkA b.link.val 2) 2 31 0 + 1) % 2 ^ 32) ∧
  (∀ (s : State) (k : Fin 1024) (h : HeldFrame), (s.dev.airLink k.val).held = [h] → h.seq < 65536 → h.ftype = 0 →
    h.at_ + s.dev.rf Pg.ac Reg.AC_REORDER_CFG 11 0 * 10000 ≤ s.dev.nowNs →
    ∃ t, exec (.reorderTimeout k) s = .next t ∧ t.dev.rxNext k.val = (h.seq + 1) % 65536 ∧ (t.dev.airLink k.val).held = [] ∧
      raised t.dev Pg.ac Evt.AC_REORDER_SKIP ∧
      t.dev.rf Pg.ac Reg.AC_REORDER_SKIPS 31 0 = (s.dev.rf Pg.ac Reg.AC_REORDER_SKIPS 31 0 + 1) % 2 ^ 32) ∧
  (∀ (s : State) (k : Fin 1024), (s.dev.airLink k.val).held = [] → exec (.reorderTimeout k) s = .next s) ∧
  (∀ (s : State) (k : Fin 1024), s.dev.linkValid k.val = true → s.dev.linkLost k.val = false → (s.dev.airLink k.val).missed ≠ 0 →
    s.dev.rf Pg.ac Reg.AC_TIMING_CFG 31 24 ≤ (s.dev.airLink k.val).missed →
    ∃ t, exec (.linkLost k) s = .next t ∧ t.dev.linkLost k.val = true ∧ raised t.dev Pg.ac Evt.AC_LINK_LOST ∧
      (s.dev.air.pops.length < 16 → t.dev.air.pops = s.dev.air.pops ++ [{ index := k.val, kind := 0, found := false, lost := false }])) ∧
  (∀ (s : State) (k : Fin 1024), (s.dev.airLink k.val).missed < s.dev.rf Pg.ac Reg.AC_TIMING_CFG 31 24 → exec (.linkLost k) s = .next s) ∧
  (∀ (s : State) (p : Fin 32), (s.dev.partnerX p.val).known = true → s.dev.partnerState p.val = 0 →
    ((s.dev.partnerX p.val).holdTill : Int) < s.dev.air.quad → (s.dev.radio (s.dev.partnerRadio p.val)).onAir = none →
    s.dev.air.cutTill = none →
    ∃ t, exec (.callerMiss p) s = .next t ∧ raised t.dev Pg.ac Evt.AC_CALLER_MISS ∧
      t.dev.rf Pg.ac Reg.AC_CALLER_MISS 31 0 = (s.dev.rf Pg.ac Reg.AC_CALLER_MISS 31 0 + 1) % 2 ^ 32 ∧
      t.dev.partnerState p.val = (if 2 ≤ s.dev.tf Pg.ac (partnerA p.val) 1 25 22 then 2 else 0) ∧
      (2 ≤ s.dev.tf Pg.ac (partnerA p.val) 1 25 22 → raised t.dev Pg.ac Evt.AC_PARTNER_LOST)) ∧
  (∀ (s : State) (i : Fin 2048) (r : Nat) (at_ : Int), r = s.dev.sensorRadio → at_ = s.dev.nextWake i.val s.dev.timeNs →
    s.dev.sensorValid i.val = true → s.dev.rb Pg.ac Reg.AC_CFG 2 = true → s.dev.sensorStep i.val = 0 → s.dev.air.running = none →
    s.dev.air.cutTill = none → s.dev.radioServes r = true → (s.dev.radio r).ready = [] → (s.dev.radio r).onAir = none →
    ∃ t b, exec (.sensorExchange i) s = .next t ∧ (t.dev.radio r).ready = [b] ∧ b.kind = .exchange ∧ b.to_ = i.val ∧
      b.start = at_ - s.dev.sensorGuard i.val at_ ∧ (t.dev.sensorX i.val).awaits = some b.start) ∧
  (∀ (s : State) (i : Fin 2048), s.dev.sensorValid i.val = false ∨ s.dev.sensorStep i.val ≠ 0 → exec (.sensorExchange i) s = .next s) ∧
  (∀ (s : State) (i : Fin 2048), s.dev.sensorValid i.val = true → (s.dev.sensorX i.val).awaits ≠ none → hasNat s.dev.air.runq i.val = false →
    s.dev.sensorStep i.val ≠ 3 →
    ∃ t, exec (.sensorRetry i) s = .next t ∧ t.dev.sensorStep i.val = s.dev.sensorStep i.val + 1 ∧ (t.dev.sensorX i.val).awaits = none ∧
      t.dev.air.runq = s.dev.air.runq ++ (if s.dev.sensorStep i.val < 2 then [i.val] else []) ∧
      raised t.dev Pg.ac (if s.dev.sensorStep i.val < 2 then Evt.AC_SENSOR_RETRY else Evt.AC_SENSOR_LOST)) ∧
  (∀ (s : State) (i : Fin 2048), (s.dev.sensorX i.val).awaits = none → exec (.sensorRetry i) s = .next s) ∧
  (∀ (s : State) (r : Radio) (f : SensorFrame), r.val = s.dev.sensorRadio → s.dev.radioServes r.val = true → (s.dev.radio r.val).onAir = none →
    f.crcOk = true → f.kind = 16 → s.dev.sensorValid f.sensor.val = true → (s.dev.sensorX f.sensor.val).awaits ≠ none →
    s.dev.sensorStep f.sensor.val ≠ 3 →
    ∃ t, exec (.gfskFrame r f) s = .next t ∧ t.dev.sensorStep f.sensor.val = 0 ∧ (t.dev.sensorX f.sensor.val).awaits = none ∧
      (t.dev.sensorX f.sensor.val).wake = some (f.syncEnd - (f.wakeLag * 1000 : Nat))) ∧
  (∀ (s : State) (r : Radio) (f : SensorFrame) (l : List Nat), r.val = s.dev.sensorRadio → s.dev.radioServes r.val = true →
    (s.dev.radio r.val).onAir = none → f.crcOk = true → f.kind = 17 → s.dev.air.window = some l → hasNat l f.hwid.toNat = false →
    l.length < s.dev.rf Pg.ac Reg.AC_SLEEPY_CFG 5 0 →
    ∃ t, exec (.gfskFrame r f) s = .next t ∧ t.dev.air.window = some (l ++ [f.hwid.toNat])) ∧
  (∀ (s : State), s.dev.rb Pg.ac Reg.AC_CFG 2 = true → s.dev.radioServes s.dev.sensorRadio = true → s.dev.air.running = none →
    s.dev.air.cutTill = none →
    ∃ t b, exec .discoveryCall s = .next t ∧ t.dev.air.window = some [] ∧ b ∈ (t.dev.radio s.dev.sensorRadio).ready ∧
      b.kind = .discovery ∧ b.start = s.dev.slotAt s.dev.air.quad (s.dev.openEnd s.dev.sensorRadio)) ∧
  (∀ (s : State) (h : Nat), s.dev.air.window = some [h] → s.dev.sensorOf h = none →
    ∃ t, exec .windowAnswer s = .next t ∧ t.dev.air.window = none ∧
      Output.hostQueue s.dev.sensorRadio (bytesLE 6 h) rawHdr [] ∈ t.dev.out ∧ t.dev.pages = s.dev.pages) ∧
  (∀ (s : State) (h i : Nat), s.dev.air.window = some [h] → s.dev.sensorOf h = some i → s.dev.sensorStep i = 3 →
    0 < s.dev.rf Pg.ac Reg.AC_SLEEPY_CFG 13 8 →
    ∃ t, exec .windowAnswer s = .next t ∧ t.dev.air.window = none ∧ t.dev.sensorStep i = 0 ∧ raised t.dev Pg.ac Evt.AC_SENSOR_FOUND) ∧
  (∀ (s : State) (h i : Nat), s.dev.air.window = some [h] → s.dev.sensorOf h = some i → s.dev.rf Pg.ac Reg.AC_SLEEPY_CFG 13 8 = 0 →
    ∃ t, exec .windowAnswer s = .next t ∧ t.dev.air.window = none ∧ raised t.dev Pg.ac Evt.AC_WINDOW_FULL) ∧
  (∀ (s : State) (r : Radio), s.dev.rb Pg.ac Reg.AC_RADIO_EN r.val = true →
    ∃ t, exec .macHang s = .next t ∧ raised t.dev Pg.ac Evt.AC_MAC_HANG ∧ t.dev.air = s.dev.air) ∧
  (∀ (s : State) (e : LostEntry) (es : List LostEntry), s.dev.air.pops = e :: es → e.index < 2048 → e.kind < 4 →
    ∃ t, exec .acLostPop s = .next t ∧ t.dev.air.pops = es ∧ bit 31 t.dev.readData = true ∧ fld 10 0 t.dev.readData = e.index ∧
      fld 12 11 t.dev.readData = e.kind ∧ bit 13 t.dev.readData = e.found ∧ bit 30 t.dev.readData = e.lost ∧ t.dev.pages = s.dev.pages) ∧
  (∀ (s : State), s.dev.air.pops = [] → ∃ t, exec .acLostPop s = .next t ∧ t.dev.readData = 0 ∧ t.dev.air = s.dev.air)

/-! ## Cipher engines (chapter 18) -/

/-- R434, R437 to R439, R441, Table 4.6: ring requests. One that is not refused asks for STARTED, an encryption with the next count of its slot
drawn; a slot whose limit is reached is exhausted; the work writes the output and the parameter area and completes; a buffered
decryption whose tag fails releases nothing; and an UNWRAP loads its slot or names the failed check. -/
def Obligations.CipherRequests : Prop :=
  (∀ (s : State) (n : RingNo) (q e : Nat) (cmp : CmpOutcome) (i : Item) (x : Nat × Instr),
    x ∈ [(0, .gcmEnc n q cmp), (1, .gcmDec n q cmp), (2, .ctrEnc n q cmp), (3, .ctrXform n q cmp), (4, .xtsEnc n q cmp), (5, .xtsDec n q cmp)] →
    s.dev.item? n.val q = some i → engineOf i.desc = 6 → opOf i.desc = x.1 → i.inst = some e → i.pend = none → i.phase = .bound →
    s.dev.ceTakes e i.desc = true → s.dev.ceInProgress e = [] → s.dev.keys.pend = [] → s.dev.ceRefusal e i.desc = none →
    (x.1 ≠ 0 ∧ x.1 ≠ 2) ∨ i.engineState ≠ 0 →
    ∃ t j, exec x.2 s = .next t ∧ t.dev.item? n.val q = some j ∧ j.phase = .running ∧ j.pend = some .started ∧
      j.engineState = i.engineState ∧ t.dev.keys = s.dev.keys ∧ t.dev.ram = s.dev.ram) ∧
  (∀ (s : State) (n : RingNo) (q e : Nat) (cmp : CmpOutcome) (i : Item) (x : Nat × Instr) (k : KeySlot),
    x ∈ [(0, .gcmEnc n q cmp), (2, .ctrEnc n q cmp)] → s.dev.item? n.val q = some i → engineOf i.desc = 6 → opOf i.desc = x.1 →
    i.inst = some e → i.pend = none → i.phase = .bound → s.dev.ceTakes e i.desc = true → s.dev.ceInProgress e = [] → s.dev.keys.pend = [] →
    s.dev.ceRefusal e i.desc = none → i.engineState = 0 → k = s.dev.slot (ctxOf i.desc % 256) → k.count < k.limit →
    ∃ t j, exec x.2 s = .next t ∧ t.dev.item? n.val q = some j ∧ j.phase = .running ∧ j.pend = some .started ∧
      j.engineState = nonceState k.loadNum k.count ∧ t.dev.slot (ctxOf i.desc % 256) = { k with count := k.count + 1 } ∧
      (∀ m, m ≠ ctxOf i.desc % 256 → t.dev.slot m = s.dev.slot m)) ∧
  (∀ (s : State) (n : RingNo) (q e : Nat) (cmp : CmpOutcome) (i : Item) (x : Nat × Instr),
    x ∈ [(0, .gcmEnc n q cmp), (2, .ctrEnc n q cmp)] → s.dev.item? n.val q = some i → engineOf i.desc = 6 → opOf i.desc = x.1 →
    i.inst = some e → e < 2 → i.pend = none → i.phase = .bound → s.dev.ceTakes e i.desc = true → s.dev.ceInProgress e = [] → s.dev.keys.pend = [] →
    s.dev.ceRefusal e i.desc = none → i.engineState = 0 →
    (s.dev.slot (ctxOf i.desc % 256)).limit ≤ (s.dev.slot (ctxOf i.desc % 256)).count →
    ∃ t j, exec x.2 s = .next t ∧ (t.dev.slot (ctxOf i.desc % 256)).state = .exhausted ∧ raised t.dev (cePage e) Evt.CE_NONCE_EXHAUSTED ∧
      t.dev.item? n.val q = some j ∧ j.pend = some .completed ∧ j.result.status = .failed ∧ j.result.cause = Cause.NONCE_EXHAUSTED) ∧
  (∀ (s : State) (n : RingNo) (q e aad : Nat) (i : Item) (x : Nat × Instr) (d1 d2 d4 d5 : Dev) (src param par : List Byte) (out : List Nat),
    x ∈ [(0, .gcmEnc n q .equal), (1, .gcmDec n q .equal), (2, .ctrEnc n q .equal), (3, .ctrXform n q .equal), (4, .xtsEnc n q .equal),
      (5, .xtsDec n q .equal)] →
    s.dev.item? n.val q = some i → engineOf i.desc = 6 → opOf i.desc = x.1 → i.inst = some e → i.pend = none → i.phase = .running →
    (s.dev.hdr (cePage e)).state.serves = true → s.dev.ceInProgress e = [i] → (s.dev.ce e).runs = [] →
    aad = (if x.1 ≤ 1 then aadLenOf i.desc else 0) →
    s.dev.virtRead (whoCe e) (s.dev.ringAsid n.val) (srcOf i.desc) (aad + lengthOf i.desc) = (d1, .ok, src) →
    (if x.1 = 0 ∨ x.1 = 2 then (d1, VRes.ok, []) else d1.virtRead (whoCe e) (s.dev.ringAsid n.val) (paramOf i.desc) 32) = (d2, .ok, param) →
    d2.ceCompute i ((ofBytes src).take aad) ((ofBytes src).drop aad) (ofBytes param) = (out, true, par) →
    (d2.drawn.ceBytes e (aad + lengthOf i.desc)).virtWrite (whoCe e) (s.dev.ringAsid n.val) (dstOf i.desc) (toBytes out) = (d4, .ok) →
    d4.virtWrite (whoCe e) (s.dev.ringAsid n.val) (paramOf i.desc) par = (d5, .ok) → d5.item? n.val q = some i → (d5.ce e).pendMode = none →
    ∃ t j, exec x.2 s = .next t ∧ t.dev.item? n.val q = some j ∧ j.pend = some .completed ∧ j.result.status = i.doneStatus ∧
      j.result.result0 = BitVec.ofNat 64 (lengthOf i.desc) ∧ t.dev.ram = d5.ram) ∧
  (∀ (s : State) (n : RingNo) (q e : Nat) (i : Item) (d1 d2 : Dev) (src param par : List Byte) (out : List Nat),
    s.dev.item? n.val q = some i → engineOf i.desc = 6 → opOf i.desc = 1 → streamOf i.desc = false → i.inst = some e → e < 2 →
    i.recorded = .started → i.pend = none → i.phase = .running → (s.dev.hdr (cePage e)).state.serves = true → s.dev.ceInProgress e = [i] →
    (s.dev.ce e).runs = [] →
    s.dev.virtRead (whoCe e) (s.dev.ringAsid n.val) (srcOf i.desc) (aadLenOf i.desc + lengthOf i.desc) = (d1, .ok, src) →
    d1.virtRead (whoCe e) (s.dev.ringAsid n.val) (paramOf i.desc) 32 = (d2, .ok, param) →
    d2.ceCompute i ((ofBytes src).take (aadLenOf i.desc)) ((ofBytes src).drop (aadLenOf i.desc)) (ofBytes param) = (out, false, par) →
    d2.item? n.val q = some i → (d2.ce e).pendMode = none →
    ∃ t j, exec (.gcmDec n q .equal) s = .next t ∧ t.dev.item? n.val q = some j ∧ j.pend = some .completed ∧ j.result.status = .tagFail ∧
      t.dev.ram = d2.ram ∧ raised t.dev (cePage e) Evt.CE_TAG_FAIL) ∧
  (∀ (s : State) (n : RingNo) (q e : Nat) (i : Item), s.dev.item? n.val q = some i → engineOf i.desc = 6 → opOf i.desc = 0x10 →
    i.inst = some e → i.pend = none → i.phase = .bound → s.dev.ceTakes e i.desc = true → s.dev.ceInProgress e = [] → lengthOf i.desc = 112 →
    ∃ t j, exec (.unwrap n q) s = .next t ∧ t.dev.item? n.val q = some j ∧ j.phase = .running ∧ j.pend = some .started ∧
      t.dev.keys = s.dev.keys) ∧
  (∀ (s : State) (n : RingNo) (q e c : Nat) (i : Item) (d1 : Dev) (bs : List Byte) (k : KeySlot), s.dev.item? n.val q = some i →
    engineOf i.desc = 6 → opOf i.desc = 0x10 → i.inst = some e → e < 2 → i.recorded = .started → i.pend = none → i.phase = .running →
    (s.dev.hdr (cePage e)).state.serves = true → s.dev.ceInProgress e = [i] →
    s.dev.virtRead (whoCe e) (s.dev.ringAsid n.val) (srcOf i.desc) 112 = (d1, .ok, bs) → d1.checkBlob e (ofBytes bs) = (c, k) →
    d1.item? n.val q = some i → (d1.ce e).pendMode = none → d1.slotItems (ctxOf i.desc % 256) = [] → d1.keys.loads < 65536 → d1.keys.pend = [] →
    ∃ t j, exec (.unwrap n q) s = .next t ∧ t.dev.item? n.val q = some j ∧ j.pend = some .completed ∧ t.dev.keys.slots = d1.keys.slots ∧
      (c = 0 → j.result.status = i.doneStatus ∧ t.dev.keys.pend = [{ ring := n.val, seq := q, slot := ctxOf i.desc % 256, key := k }]) ∧
      (c ≠ 0 → j.result.status = .failed ∧ j.result.cause = Cause.UNWRAP_FAIL ∧ t.dev.keys.pend = [] ∧
        raised t.dev (cePage e) Evt.CE_UNWRAP_FAIL ∧ t.dev.rf (cePage e) Reg.CE_UNWRAP_STAT 7 0 = ctxOf i.desc % 256))

/-- R435, R440, R444, R448, R449, Table 18.6: slots and locks. An inline encryption marks its index and a repeated one exhausts the slot; an
erasure empties its slot and leaves every other; the lock moves between SERVICE, TEST and RECOVERY once nothing is in progress, with
the TEST slots erased on the way to SERVICE; passed tests open SERVICE; and an engine with a request due and no progress is raised. -/
def Obligations.SlotsAndLocks : Prop :=
  (∀ (s : State) (r : InlineReq) (e slot : Nat) (k : KeySlot) (w : IdxWin), s.dev.ceFor r.leg.val = some e → slot = s.dev.keyOut r.leg.val →
    r.encrypt = true → r.cmp = .equal → k = s.dev.slot slot → k.state = .loaded → 4 ≤ k.kind → k.recs.length < 32 →
    r.index ≤ (if r.rtcp then 2 ^ 31 - 1 else 2 ^ 48 - 1) → w = (k.recOf r.ssrc).win true r.rtcp → w.old r.index = false →
    ∃ t, exec (.inlineRequest r) s = .next t ∧
      (w.seen r.index = false → ((t.dev.slot slot).recOf r.ssrc).win true r.rtcp = w.mark r.index ∧ (t.dev.slot slot).state = .loaded) ∧
      (w.seen r.index = true → (t.dev.slot slot).state = .exhausted ∧ raised t.dev (cePage e) Evt.CE_NONCE_EXHAUSTED) ∧
      t.dev.rf (cePage e) Reg.CE_INLINE 31 0 = (s.dev.rf (cePage e) Reg.CE_INLINE 31 0 + 1) % 2 ^ 32 ∧
      ∀ m, m ≠ slot → t.dev.slot m = s.dev.slot m) ∧
  (∀ (s : State) (slot : Fin 256) (ce : CipherEngine), (s.dev.hdr (cePage ce.val)).state ≠ .off → s.dev.slotItems slot.val = [] →
    ∃ t, exec (.keyErase slot ce) s = .next t ∧ t.dev.slot slot.val = KeySlot.empty ∧ (∀ m, m ≠ slot.val → t.dev.slot m = s.dev.slot m) ∧
      t.dev.wk = s.dev.wk ∧ t.dev.pages = s.dev.pages) ∧
  (∀ (s : State) (slot : Fin 256) (ce : CipherEngine), (s.dev.hdr (cePage ce.val)).state ≠ .off →
    ∃ t, exec (.keyErase slot ce) s = .next t ∧ t.dev.slot slot.val = KeySlot.empty) ∧
  (∀ (s : State) (ce : CipherEngine), s.dev.ceMode ce.val = 2 → s.dev.ceInProgress ce.val = [] →
    ∃ t, exec (.lockService ce) s = .next t ∧ t.dev.ceMode ce.val = 0 ∧ (∀ m, (t.dev.slot m).state ≠ .test) ∧
      raised t.dev (cePage ce.val) Evt.CE_LOCK_CHANGE ∧ (t.dev.ce ce.val).pendMode = none) ∧
  (∀ (s : State) (ce : CipherEngine) (m : Nat) (c : Instr), (c, m) ∈ [(.lockTest ce, 2), (.lockRecovery ce, 3)] → s.dev.ceMode ce.val = 0 →
    s.dev.ceInProgress ce.val = [] →
    ∃ t, exec c s = .next t ∧ t.dev.ceMode ce.val = m ∧ raised t.dev (cePage ce.val) Evt.CE_LOCK_CHANGE ∧ t.dev.keys = s.dev.keys) ∧
  (∀ (s : State) (ce : CipherEngine) (m : Nat) (c : Instr), (c, m) ∈ [(.lockService ce, 0), (.lockTest ce, 2), (.lockRecovery ce, 3)] →
    (if m = 0 then s.dev.ceMode ce.val = 2 else s.dev.ceMode ce.val = 0) → s.dev.ceInProgress ce.val ≠ [] →
    ∃ t, exec c s = .next t ∧ t.dev.ceMode ce.val = s.dev.ceMode ce.val ∧ (t.dev.ce ce.val).pendMode = some m ∧ t.dev.keys = s.dev.keys) ∧
  (∀ (s : State) (ce : CipherEngine) (c : Instr), c ∈ [.lockService ce, .lockTest ce, .lockRecovery ce] →
    s.dev.ceMode ce.val = 1 ∨ s.dev.ceMode ce.val = 3 → exec c s = .next s) ∧
  (∀ (s : State) (ce : CipherEngine) (us : Nat), s.dev.ceMode ce.val = 1 ∨ s.dev.ceMode ce.val = 3 →
    ∃ t u, exec (.selftestDone ce true us) s = .next t ∧ exec (.selftestDone ce false us) s = .next u ∧ t.dev.ceMode ce.val = 0 ∧
      raised t.dev (cePage ce.val) Evt.CE_LOCK_CHANGE ∧ t.dev.rb (cePage ce.val) Reg.CE_SELFTEST 0 = true ∧
      u.dev.ceMode ce.val = s.dev.ceMode ce.val ∧ raised u.dev (cePage ce.val) Evt.CE_SELFTEST_FAIL ∧
      u.dev.rb (cePage ce.val) Reg.CE_SELFTEST 0 = false) ∧
  (∀ (s : State) (ce : CipherEngine), s.dev.ceInProgress ce.val ≠ [] →
    ∃ t, exec (.ceHang ce) s = .next t ∧ raised t.dev (cePage ce.val) Evt.CE_HANG ∧ t.dev.keys = s.dev.keys) ∧
  (∀ (s : State) (ce : CipherEngine), s.dev.ceInProgress ce.val = [] → exec (.ceHang ce) s = .next s)

/-! ## The security keeper (chapter 19) -/

/-- R454, R459, R461 to R466, Table 19.5: SK's commands end with their STATUS. STAGE programs the other bank with an image that passes; CONFIRM raises the
floor and never newly revokes the running image's key; ATTEST counts and signs; EXTEND hashes into MR4 to MR7; WRAP writes a blob and
clears its input; CHALLENGE draws; UNLOCK and RETURN check their token and erase before they open; the debug lock is loosened only
while the gate is open. -/
def Obligations.KeeperCommands : Prop :=
  (∀ (s : State) (rd : Nat → Byte) (c : Nat), (s.dev.hdr Pg.sk).state.serves = true → s.dev.sys.bootOk = true →
    rd = s.dev.memAt s.dev.skAddr → c = s.dev.checkImage rd → imageLen rd ≤ bankBytes →
    ∃ t, exec (.stage true) s = .next t ∧
      (c = 0 → t.dev.rf Pg.sk Reg.SK_CMD 11 8 = 0 ∧ t.dev.sk.trialNext = true ∧
        ∀ k, k < imageLen rd → t.dev.flashAt s.dev.otherBank k = rd k) ∧
      (c ≠ 0 → t.dev.rf Pg.sk Reg.SK_CMD 11 8 = causeStatus c ∧ t.dev.ram.flash = s.dev.ram.flash ∧ raised t.dev Pg.sk Evt.SK_UPDATE_FAIL)) ∧
  (∀ (s : State), (s.dev.hdr Pg.sk).state.serves = true → s.dev.sys.bootOk = true → s.dev.sk.minSvn < 65536 → s.dev.sk.vendorKey < 4 →
    ∃ t, exec .confirm s = .next t ∧ t.dev.rf Pg.sk Reg.SK_CMD 11 8 = 0 ∧ t.dev.sk.trial = false ∧
      t.dev.rf Pg.sk Reg.SK_ROLLBACK_FLOOR 15 0 = max (s.dev.rf Pg.sk Reg.SK_ROLLBACK_FLOOR 15 0) s.dev.sk.minSvn ∧
      t.dev.rb Pg.sk Reg.SK_LIFECYCLE (4 + s.dev.sk.vendorKey) = s.dev.rb Pg.sk Reg.SK_LIFECYCLE (4 + s.dev.sk.vendorKey) ∧
      ∀ k, k < 4 → k ≠ s.dev.sk.vendorKey → s.dev.sk.revokeBits.testBit k = true → t.dev.rb Pg.sk Reg.SK_LIFECYCLE (4 + k) = true) ∧
  (∀ (s : State), (s.dev.hdr Pg.sk).state.serves = true → s.dev.sys.bootOk = true → s.dev.sk.keys = true →
    ∃ t body, exec .attest s = .next t ∧ t.dev.rf Pg.sk Reg.SK_CMD 11 8 = 0 ∧
      t.dev.rf Pg.sk Reg.SK_ATTEST_COUNT 31 0 = min (s.dev.rf Pg.sk Reg.SK_ATTEST_COUNT 31 0 + 1) (2 ^ 32 - 1) ∧
      body = (s.dev.setReg Pg.sk Reg.SK_ATTEST_COUNT (t.dev.reg Pg.sk Reg.SK_ATTEST_COUNT)).reportBody ∧
      t.dev.sk.report = body ++ Config.mldsaSign 1 s.dev.wk.epoch s.dev.sk.manifest body (ascii "KM-SC9640-ATTEST")) ∧
  (∀ (s : State) (i : Nat), (s.dev.hdr Pg.sk).state.serves = true → i = s.dev.rf Pg.sk Reg.SK_CMD_ADDR_LO 2 0 →
    ∃ t, exec .extend s = .next t ∧ (i < 4 → t.dev.rf Pg.sk Reg.SK_CMD 11 8 = 6 ∧ t.dev.sk = s.dev.sk) ∧
      (4 ≤ i → t.dev.rf Pg.sk Reg.SK_CMD 11 8 = 0 ∧ t.dev.mr i = Config.sha3_512 (s.dev.mr i ++ s.dev.skBytes 0x3100 4) ∧
        ∀ k, k ≠ i → t.dev.mr k = s.dev.mr k)) ∧
  (∀ (s : State) (id : Nat) (blob : List Byte), (s.dev.hdr Pg.sk).state.serves = true → s.dev.sk.keys = true →
    id = (ofBytes (s.dev.skEntry 0x3400)).getD 7 0 → id ≤ 7 → (∀ k, k < 112 → targetOf (s.dev.skAddr + k) = .sram) →
    blob = toBytes (s.dev.wrapBlob (ofBytes (Config.kek id (if id = 0 then s.dev.wk.epoch else 0)))) →
    ∃ t, exec .wrap s = .next t ∧ t.dev.rf Pg.sk Reg.SK_CMD 11 8 = 0 ∧ t.dev.sk.wraps = s.dev.sk.wraps + 1 ∧
      (∀ k, k < blob.length → t.dev.physByte (s.dev.skAddr + k) = blob[k]?) ∧ (∀ a i, a < 6 → i < 4 → t.dev.tw Pg.sk (0x3400 + a) i = 0)) ∧
  (∀ (s : State), (s.dev.hdr Pg.sk).state.serves = true → s.dev.sk.rngOk = true → s.dev.sk.fails < 3 ∨ s.dev.sk.backoffUntil ≤ s.dev.nowNs →
    ∃ t, exec .challenge s = .next t ∧ t.dev.rf Pg.sk Reg.SK_CMD 11 8 = 0 ∧ t.dev.sk.chalValid = true ∧
      t.dev.sk.challenge = Config.random32 s.dev.fresh ∧ t.dev.sk.chalAt = s.dev.nowNs) ∧
  (∀ (s : State), (s.dev.hdr Pg.sk).state.serves = true → s.dev.sk.rngOk = true → 3 ≤ s.dev.sk.fails → s.dev.nowNs < s.dev.sk.backoffUntil →
    ∃ t, exec .challenge s = .next t ∧ t.dev.rf Pg.sk Reg.SK_CMD 11 8 = 10 ∧ t.dev.sk = s.dev.sk) ∧
  (∀ (s : State) (tok : Option (List Byte)), (s.dev.hdr Pg.sk).state.serves = true → s.dev.sk.rngOk = true → s.dev.lifecycle ≠ 1 →
    s.dev.sys.pwrgood = true → s.dev.restarting = false →
    ∃ t, exec (.unlock tok) s = .next t ∧ t.dev.sk.gateOpen = true ∧ t.dev.sk.keys = false ∧ t.dev.wk.epoch = s.dev.wk.epoch + 1 ∧
      t.dev.sk.scramble = s.dev.sk.scramble + 1 ∧ t.dev.sys.inReset = true ∧ t.tags = Fabric.reset ∧ t.pending = s.pending) ∧
  (∀ (s : State) (tok : List Byte) (st : Nat), (s.dev.hdr Pg.sk).state.serves = true → s.dev.sk.rngOk = true → s.dev.lifecycle = 1 →
    s.dev.rf Pg.sk Reg.SK_DEBUG_LOCK 1 0 ≠ 2 → s.dev.sys.pwrgood = true → s.dev.restarting = false → st = s.dev.tokenCheck tok false →
    ∃ t, exec (.unlock (some tok)) s = .next t ∧ t.dev.sk.chalValid = false ∧
      (st = 0 → t.dev.sk.gateOpen = true ∧ t.dev.sk.level = fieldLE tok 6 1 ∧ t.dev.sk.keys = false ∧ t.dev.wk.epoch = s.dev.wk.epoch + 1) ∧
      (st ≠ 0 → t.dev.sk.gateOpen = s.dev.sk.gateOpen ∧ t.dev.sk.fails = s.dev.sk.fails + 1 ∧ t.dev.sk.keys = s.dev.sk.keys ∧
        raised t.dev Pg.sk Evt.SK_UNLOCK_FAIL ∧ t.dev.ram = s.dev.ram ∧ t.tags = s.tags)) ∧
  (∀ (s : State), (s.dev.hdr Pg.sk).state.serves = true → ∃ t, exec .gateClose s = .next t ∧ t.dev.sk.gateOpen = false ∧
      t.dev.sk.level = 0 ∧ t.dev.sk.keys = s.dev.sk.keys ∧ t.dev.rf Pg.sk Reg.SK_CMD 11 8 = 0) ∧
  (∀ (s : State) (st : Nat), (s.dev.hdr Pg.sk).state.serves = true → s.dev.sk.rngOk = true → s.dev.lifecycle ≠ 2 →
    st = s.dev.tokenCheck ((List.range tokenLen).map (s.dev.memAt s.dev.skAddr)) true →
    ∃ t, exec .skReturn s = .next t ∧ t.dev.sk.chalValid = false ∧
      (st = 0 → t.dev.lifecycle = 2 ∧ t.dev.sk.dusOff = true ∧ t.dev.sk.keys = false ∧ t.dev.ram.dram = [] ∧
        t.dev.rf Pg.sk Reg.SK_CMD 11 8 = 0) ∧
      (st ≠ 0 → t.dev.lifecycle = s.dev.lifecycle ∧ t.dev.sk.dusOff = s.dev.sk.dusOff ∧ raised t.dev Pg.sk Evt.SK_UNLOCK_FAIL)) ∧
  (∀ (s : State), s.dev.sk.chalAt + 60000000000 ≤ s.dev.nowNs →
    ∃ t, exec .challengeExpire s = .next t ∧ t.dev.sk = { s.dev.sk with chalValid := false } ∧ t.dev.pages = s.dev.pages) ∧
  (∀ (s : State), s.dev.nowNs < s.dev.sk.chalAt + 60000000000 → exec .challengeExpire s = .next s) ∧
  (∀ (s : State) (v : Word) (now n : Nat), now = s.dev.rf Pg.sk Reg.SK_DEBUG_LOCK 1 0 → n = fld 1 0 v →
    ∃ t, exec (.debugLockWrite v) s = .next t ∧ t.dev.pages.regs = s.dev.pages.regs ∧
      (n ≤ 2 ∧ (now < n ∨ (n < now ∧ s.dev.sk.gateOpen = true)) → t.dev.ps.queue = s.dev.ps.queue ++
        [{ off := Pg.sk.val * 0x1000 + Reg.SK_DEBUG_LOCK, v := BitVec.ofNat 32 n, record := false }]) ∧
      (n = 3 ∨ (n < now ∧ s.dev.sk.gateOpen = false) → t.dev.ps = s.dev.ps ∧ raised t.dev Pg.sk Evt.SK_LOCK_REFUSED)) ∧
  (∀ (s : State), ∃ t, exec .rngFail s = .next t ∧ t.dev.sk.rngOk = false ∧ t.dev.rb Pg.sk Reg.SK_RNG_STAT 0 = false ∧
      raised t.dev Pg.sk Evt.SK_RNG_FAIL)

/-! ## Resets, the boot and the pins (chapters 21 and 22) -/

/-- R490 to R492, R494, R495, R497, R499, R509, Table 21.4: a rise of PWRGOOD boots with the flash kept and DRAM lost; its fall and a rail's dip turn every
unit off; RESET_N, a keyed write and a missed kick start one reset that keeps time, the ledger's epoch and the queue; a thermal trip
silences the radios and takes every island to VP0. -/
def Obligations.ResetsAndTrips : Prop :=
  (∀ (s : State) (refIn : Option (Fin 4)) (rngOk flashOk : Bool), s.dev.sys.pwrgood = false →
    ∃ t, exec (.pwrgoodRise refIn rngOk flashOk) s = .next t ∧ t.dev.sys.pwrgood = true ∧ t.dev.sys.cold = true ∧ t.dev.sys.stage = 1 ∧
      t.dev.sys.ccReleased = false ∧ t.tags = Fabric.reset ∧ t.pending = s.pending ∧ t.dev.ram.dram = [] ∧ t.dev.ram.flash = s.dev.ram.flash ∧
      t.dev.rf Pg.cc Reg.CC_RESET_CAUSE 3 0 = (if s.dev.sys.tripCause then 5 else 0) ∧
      t.dev.rf Pg.cc Reg.CC_BOOT_COUNT 31 0 = min ((s.dev.nv (Pg.cc.val * 0x1000 + Reg.CC_BOOT_COUNT)).toNat + 1) (2 ^ 32 - 1) ∧
      (rngOk = false → raised t.dev Pg.sk Evt.SK_RNG_FAIL)) ∧
  (∀ (s : State) (refIn : Option (Fin 4)) (rngOk flashOk : Bool), s.dev.sys.pwrgood = true → exec (.pwrgoodRise refIn rngOk flashOk) s = .next s) ∧
  (∀ (s : State) (c : Instr), c = .pwrgoodFall ∨ c = .railDip → s.dev.sys.pwrgood = true →
    ∃ t, exec c s = .next t ∧ t.dev.sys.pwrgood = false ∧ t.dev.sys.paen = 0 ∧ t.dev.sys.ccReleased = false ∧
      (∀ p : Page, p ≠ Pg.dir → (t.dev.hdr p).state = .off) ∧ (∀ r, (t.dev.radio r).onAir = none ∧ (t.dev.radio r).bias = [0, 0, 0, 0]) ∧
      t.dev.ram.flash = s.dev.ram.flash) ∧
  (∀ (s : State) (c : Instr), c = .pwrgoodFall ∨ c = .railDip → s.dev.sys.pwrgood = false → exec c s = .next s) ∧
  (∀ (s : State), s.dev.sys.pwrgood = true → s.dev.restarting = false →
    ∃ t, exec .resetN s = .next t ∧ t.dev.sys.resetLow = true ∧ t.dev.sys.inReset = true ∧ t.dev.rf Pg.cc Reg.CC_RESET_CAUSE 3 0 = 1 ∧
      t.tags = Fabric.reset ∧ t.pending = s.pending ∧ t.dev.tu = s.dev.tu ∧ t.dev.wk.epoch = s.dev.wk.epoch ∧ t.dev.sys.l0 = false) ∧
  (∀ (s : State), s.dev.restarting = true →
    ∃ t, exec .resetN s = .next t ∧ t.dev.sys = { s.dev.sys with resetLow := true } ∧ t.dev.pages = s.dev.pages ∧ t.tags = s.tags) ∧
  (∀ (s : State), ∃ t, exec .resetNRelease s = .next t ∧ t.dev.sys.resetLow = false ∧
      (s.dev.sys.inReset = false → t.dev = { s.dev with sys := { s.dev.sys with resetLow := false } })) ∧
  (∀ (s : State) (v : Word), bit 0 v = true → fld 31 16 v = 0x5741 → s.dev.sys.pwrgood = true → s.dev.restarting = false →
    ∃ t, exec (.warmResetWrite v) s = .next t ∧ t.dev.sys.inReset = true ∧ t.dev.rf Pg.cc Reg.CC_RESET_CAUSE 3 0 = 2 ∧
      t.tags = Fabric.reset ∧ t.pending = s.pending ∧ t.dev.tu = s.dev.tu ∧ t.dev.wk.epoch = s.dev.wk.epoch) ∧
  (∀ (s : State) (v : Word), bit 0 v = false ∨ fld 31 16 v ≠ 0x5741 → exec (.warmResetWrite v) s = .next s) ∧
  (∀ (s : State) (v : Word), ∃ t, exec (.wdogKick v) s = .next t ∧
      t.dev.sys = { s.dev.sys with hostKick := if fld 15 0 v = 0x4B43 then s.dev.nowNs else s.dev.sys.hostKick } ∧ t.dev.pages = s.dev.pages) ∧
  (∀ (s : State) (host : Bool), s.dev.fwRuns = true → s.dev.sys.pwrgood = true → s.dev.rb Pg.cc Reg.CC_WDOG_CFG 16 = true →
    (host = true → s.dev.rb Pg.cc Reg.CC_WDOG_CFG 17 = true ∧ s.dev.sys.hostKick + s.dev.rf Pg.cc Reg.CC_WDOG_CFG 15 0 * 1000000 ≤ s.dev.nowNs) →
    ∃ t, exec (.watchdogExpire host) s = .next t ∧ t.dev.sys.inReset = true ∧ t.dev.rf Pg.cc Reg.CC_RESET_CAUSE 3 0 = 3 ∧
      t.dev.rf Pg.cc Reg.CC_WDOG_COUNT 15 0 = min (s.dev.rf Pg.cc Reg.CC_WDOG_COUNT 15 0 + 1) 65535 ∧ t.tags = Fabric.reset) ∧
  (∀ (s : State) (host : Bool), s.dev.rb Pg.cc Reg.CC_WDOG_CFG 16 = false → exec (.watchdogExpire host) s = .next s) ∧
  (∀ (s : State) (sensor : Fin 24), s.dev.sys.pwrgood = true → s.dev.en.tripped = false →
    ∃ t, exec (.thermalTrip sensor) s = .next t ∧ t.dev.en.tripped = true ∧ t.dev.smbStatusByte.getLsbD 1 = true ∧
      (∀ r, r < 3 → (t.dev.radio r).onAir = none ∧ (t.dev.radio r).ready = []) ∧
      (∀ p ∈ islands, (t.dev.hdr p).grantedVp = 0) ∧
      t.dev.rf Pg.cc Reg.CC_TRIP_COUNT 15 0 = min (s.dev.rf Pg.cc Reg.CC_TRIP_COUNT 15 0 + 1) 65535) ∧
  (∀ (s : State) (sensor : Fin 24), s.dev.en.tripped = true → exec (.thermalTrip sensor) s = .next s)

/-- R462, R520, R521, Table 22.13: SMBus and the TAP. STATUS answers its byte; REG_ADDR and REG_DATA reach a register as the host does; BUF takes and
gives bytes in order; the alert response names the device while the alert is low; the public instructions load, EXTEST, CLAMP and
HIGHZ only while RESET_N is low; and a debug instruction acts only under an open gate of its LEVEL, and never in SK. -/
def Obligations.SideBusesAnswer : Prop :=
  (∀ (s : State), s.dev.sys.pwrgood = true → s.dev.sys.cold = false ∨ s.dev.sys.bootAt + 1000000 ≤ s.dev.nowNs →
    ∃ t, exec .smbStatus s = .next t ∧ t.dev.out = .smb [s.dev.smbStatusByte] :: s.dev.out ∧ t.dev.pages = s.dev.pages) ∧
  (∀ (s : State) (a : BitVec 24), s.dev.sys.pwrgood = true → s.dev.fwRuns = true →
    ∃ t, exec (.smbRegAddr a) s = .next t ∧ t.dev.sys.smb = { s.dev.sys.smb with addr := a } ∧ t.dev.pages = s.dev.pages) ∧
  (∀ (s : State) (p : Page) (a : Nat), s.busFree → s.dev.fwRuns = true → s.dev.pageHeld p = false → s.dev.sys.smb.addr.toNat = a →
    pageOf a = some p →
    ∃ t, exec .smbRegDataRead s = .next t ∧ .smb (bytesLE 4 (s.dev.regRead a).2.toNat) ∈ t.dev.out ∧
      t.dev.pages = (s.dev.regRead a).1.pages) ∧
  (∀ (s : State) (p : Page) (off : Nat) (v : Word), s.busFree → s.dev.fwRuns = true → s.dev.pageHeld p = false →
    s.dev.sys.smb.addr.toNat = p.val * 0x1000 + off →
    ((p = Pg.dir ∧ off = 0x38) ∨ ((kindOf p).hasCommit = true ∧ (off = 0x100 ∨ off = 0x104))) →
    ∃ t, exec (.smbRegDataWrite v) s = .next t ∧ t.dev.reg p off = v ∧ sameRegsBut s.dev t.dev p off) ∧
  (∀ (s : State) (n : Nat), s.dev.sys.pwrgood = true → s.dev.fwRuns = true → 0 < n → n ≤ 32 → s.dev.sys.smb.buf ≠ [] →
    ∃ t, exec (.smbBufRead n) s = .next t ∧ t.dev.sys.smb.buf = s.dev.sys.smb.buf.drop n ∧
      t.dev.out = .smb (s.dev.sys.smb.buf.take n) :: s.dev.out ∧ t.dev.pages = s.dev.pages) ∧
  (∀ (s : State) (bs : List Byte), s.dev.sys.pwrgood = true → s.dev.fwRuns = true → bs ≠ [] → bs.length ≤ 32 →
    s.dev.sys.smb.buf.length + bs.length ≤ 4096 →
    ∃ t, exec (.smbBufWrite bs) s = .next t ∧ t.dev.sys.smb.buf = s.dev.sys.smb.buf ++ bs ∧ bit 11 t.dev.dx.lines = true ∧
      t.dev.out = s.dev.out) ∧
  (∀ (s : State), s.dev.sys.pwrgood = true → s.dev.fwRuns = true →
    ∃ t, exec .smbAlertResponse s = .next t ∧ t.dev.pages = s.dev.pages ∧ t.dev.out =
      .smb (if s.dev.smbAlert then [BitVec.ofNat 8 (s.dev.rf Pg.cc Reg.CC_SMBUS_ADDR 6 0)] else []) :: s.dev.out) ∧
  (∀ (s : State) (c : Instr) (i : TapIr), (c, i) ∈ [(.jtagBypass, .bypass), (.jtagIdcode, .idcode), (.jtagSamplePreload, .samplePreload)] →
    ∃ t, exec c s = .next t ∧ t.dev.sys = { s.dev.sys with tap := i } ∧ t.dev.pages = s.dev.pages ∧
      (i = .idcode → ∃ v, .jtag v ∈ t.dev.out ∧ v % 2 = 1 ∧ v / 2 ^ 28 = 1 ∧ v / 2 ^ 12 % 2 ^ 16 = 0x9640)) ∧
  (∀ (s : State) (c : Instr) (i : TapIr), (c, i) ∈ [(.jtagExtest, .extest), (.jtagClamp, .clamp), (.jtagHighz, .highz)] →
    ∃ t, exec c s = .next t ∧ t.dev.pages = s.dev.pages ∧ t.dev.out = s.dev.out ∧
      t.dev.sys = { s.dev.sys with tap := if s.dev.sys.resetLow then i else .bypass }) ∧
  (∀ (s : State) (core : Fin 8) (halt : Bool), s.dev.sys.pwrgood = true → s.dev.sk.gateOpen = true → 2 ≤ s.dev.sk.level → s.dev.asks = [] →
    ∃ t, exec (.jtagDebugInstruction (.runControl core halt)) s = .next t ∧ t.dev.sys.tap = .debug ∧
      t.dev.sys.haltedCores.getLsbD core.val = halt ∧
      ∀ k, k < 8 → k ≠ core.val → t.dev.sys.haltedCores.getLsbD k = s.dev.sys.haltedCores.getLsbD k) ∧
  (∀ (s : State) (a : BitVec 48) (b : Byte), s.dev.sys.pwrgood = true → s.dev.sk.gateOpen = true → 1 ≤ s.dev.sk.level → s.dev.asks = [] →
    targetOf a.toNat = .sram →
    ∃ t, exec (.jtagDebugInstruction (.writeMem a b)) s = .next t ∧ t.dev.physByte a.toNat = some b ∧
      (∀ k, k ≠ a.toNat → t.dev.physByte k = s.dev.physByte k) ∧ t.dev.pages.regs = s.dev.pages.regs) ∧
  (∀ (s : State) (x : DebugAccess), s.dev.sk.gateOpen = false ∨ s.dev.sk.level < debugLevel x ∨ debugInKeeper x = true → s.dev.asks = [] →
    ∃ t, exec (.jtagDebugInstruction x) s = .next t ∧ t.dev.sys = { s.dev.sys with tap := .bypass } ∧ t.dev.pages = s.dev.pages ∧
      t.dev.ram = s.dev.ram ∧ t.dev.out = s.dev.out)
end

