-- ==== Sys2Proof/Laws/Bits.lean ====
section
/-! SUPPORT. Bit fields of a word: what a replaced field and a replaced bit read as, and which other bits stay. -/

namespace Sys2Proof.Machine

theorem fld_testBit (hi lo : Nat) (w : Word) (i : Nat) : (fld hi lo w).testBit i = (decide (i < hi - lo + 1) && w.getLsbD (lo + i)) := by
  simp [fld, Nat.testBit_mod_two_pow, Nat.testBit_shiftRight, BitVec.getLsbD]

theorem fieldMask_getLsbD (hi lo i : Nat) (h : lo ≤ hi) :
    (fieldMask hi lo).getLsbD i = (decide (i < 32) && decide (lo ≤ i) && decide (i ≤ hi)) := by
  simp only [fieldMask, BitVec.getLsbD_ofNat, Nat.testBit_shiftLeft, Nat.testBit_two_pow_sub_one, ge_iff_le]
  by_cases hi' : i < 32 <;> by_cases hl : lo ≤ i <;> simp [hi', hl]
  omega

/-- Bit by bit, a word with a field replaced. -/
theorem putFld_getLsbD (hi lo v : Nat) (w : Word) (i : Nat) (h : lo ≤ hi) :
    (putFld hi lo v w).getLsbD i = if lo ≤ i ∧ i ≤ hi then decide (i < 32) && v.testBit (i - lo) else w.getLsbD i := by
  simp only [putFld, BitVec.getLsbD_or, BitVec.getLsbD_and, BitVec.getLsbD_not, fieldMask_getLsbD hi lo i h, BitVec.getLsbD_ofNat,
    Nat.testBit_shiftLeft, ge_iff_le]
  by_cases h32 : i < 32
  · by_cases hl : lo ≤ i <;> by_cases hh : i ≤ hi <;> simp [h32, hl, hh]
  · have : w.getLsbD i = false := BitVec.getLsbD_of_ge w i (by omega)
    simp [h32, this]

/-- A field reads as the value it was given, cut to its width. -/
theorem fld_putFld_same (hi lo v : Nat) (w : Word) (h : lo ≤ hi) (h32 : hi < 32) : fld hi lo (putFld hi lo v w) = v % 2 ^ (hi - lo + 1) := by
  apply Nat.eq_of_testBit_eq
  intro i
  rw [fld_testBit, putFld_getLsbD _ _ _ _ _ h, Nat.testBit_mod_two_pow]
  by_cases hi' : i < hi - lo + 1
  · have h1 : lo ≤ lo + i ∧ lo + i ≤ hi := by omega
    have h2 : lo + i < 32 := by omega
    simp [hi', h1, h2]
  · simp [hi']

/-- A field outside the replaced one reads as before. -/
theorem fld_putFld_other (hi lo a b v : Nat) (w : Word) (h : lo ≤ hi) (hb : b ≤ a) (hd : a < lo ∨ hi < b) :
    fld a b (putFld hi lo v w) = fld a b w := by
  apply Nat.eq_of_testBit_eq
  intro i
  rw [fld_testBit, fld_testBit, putFld_getLsbD _ _ _ _ _ h]
  by_cases hi' : i < a - b + 1
  · have : ¬(lo ≤ b + i ∧ b + i ≤ hi) := by omega
    simp [this]
  · simp [hi']

@[simp] theorem bit_putBit_same (n : Nat) (b : Bool) (w : Word) (h : n < 32) : bit n (putBit n b w) = b := by
  simp only [bit, putBit]
  rw [putFld_getLsbD _ _ _ _ _ (le_refl n)]
  cases b <;> simp [h]

theorem bit_putBit_other (n m : Nat) (b : Bool) (w : Word) (h : m ≠ n) : bit m (putBit n b w) = bit m w := by
  simp only [bit, putBit]
  rw [putFld_getLsbD _ _ _ _ _ (le_refl n)]
  have : ¬(n ≤ m ∧ m ≤ n) := by omega
  simp [this]

end Sys2Proof.Machine
end

