-- ==== Sys2Proof/Laws/SMap.lean ====
section
/-! SUPPORT. Sparse maps: a value read after a write is the value written, every other key reads as before, and every
operation keeps the canonical form. -/

namespace Sys2Proof.Machine

variable {α : Type} (d : Nat → α)

@[simp] theorem SMap.get_nil (k : Nat) : SMap.get d [] k = d k := rfl

theorem SMap.get_put_same (m : SMap α) (k : Nat) (v : α) : SMap.get d (SMap.put m k v) k = v := by
  induction m with
  | nil => simp [SMap.put, SMap.get]
  | cons e m ih =>
    simp only [SMap.put]
    split
    · simp [SMap.get]
    · split
      · simp [SMap.get]
      · simp only [SMap.get]; rw [if_neg ‹_›]; exact ih

theorem SMap.get_put_other (m : SMap α) (k j : Nat) (v : α) (h : j ≠ k) : SMap.get d (SMap.put m k v) j = SMap.get d m j := by
  induction m with
  | nil => simp [SMap.put, SMap.get, h]
  | cons e m ih =>
    simp only [SMap.put]
    split
    · next hk => simp only [SMap.get]; rw [if_neg h, if_neg (by omega)]
    · split
      · simp only [SMap.get, if_neg h]
      · simp only [SMap.get, ih]

theorem SMap.get_del_same (m : SMap α) (k : Nat) : SMap.get d (SMap.del m k) k = d k := by
  induction m with
  | nil => rfl
  | cons e m ih =>
    unfold SMap.del at ih ⊢
    by_cases h : e.1 = k
    · simp [List.filter, h, ih]
    · have : (e.1 != k) = true := by simpa using h
      simp only [List.filter, this, SMap.get]
      rw [if_neg (by omega)]; exact ih

theorem SMap.get_del_other (m : SMap α) (k j : Nat) (h : j ≠ k) : SMap.get d (SMap.del m k) j = SMap.get d m j := by
  induction m with
  | nil => rfl
  | cons e m ih =>
    unfold SMap.del at ih ⊢
    by_cases hk : e.1 = k
    · have : (e.1 != k) = false := by simpa using hk
      simp only [List.filter, this, SMap.get, ih]
      rw [if_neg (by omega)]
    · have : (e.1 != k) = true := by simpa using hk
      simp only [List.filter, this, SMap.get, ih]

variable [DecidableEq α]

@[simp] theorem SMap.get_set_same (m : SMap α) (k : Nat) (v : α) : SMap.get d (SMap.set d m k v) k = v := by
  unfold SMap.set; split
  · next h => rw [SMap.get_del_same, h]
  · exact SMap.get_put_same d m k v

theorem SMap.get_set_other (m : SMap α) (k j : Nat) (v : α) (h : j ≠ k) : SMap.get d (SMap.set d m k v) j = SMap.get d m j := by
  unfold SMap.set; split
  · exact SMap.get_del_other d m k j h
  · exact SMap.get_put_other d m k j v h

theorem SMap.get_set (m : SMap α) (k j : Nat) (v : α) :
    SMap.get d (SMap.set d m k v) j = if j = k then v else SMap.get d m j := by
  split
  · next h => rw [h, SMap.get_set_same]
  · next h => exact SMap.get_set_other d m k j v h

/-! ## The canonical form -/

omit [DecidableEq α] in
theorem SMap.above_put (m : SMap α) (k j : Nat) (v : α) (hj : j < k) (h : SMap.above j m = true) : SMap.above j (SMap.put m k v) = true := by
  induction m with
  | nil => simp [SMap.put, SMap.above, hj]
  | cons e m ih =>
    simp only [SMap.above, List.all_cons, Bool.and_eq_true, decide_eq_true_eq] at h ih ⊢
    simp only [SMap.put]
    split
    · simp [hj, h.2]
    · split
      · simp [hj, h.1, h.2]
      · simp [h.1, ih h.2]

theorem SMap.wf_put (m : SMap α) (k : Nat) (v : α) (hv : v ≠ d k) (h : SMap.wf d m = true) : SMap.wf d (SMap.put m k v) = true := by
  induction m with
  | nil => simp [SMap.put, SMap.wf, SMap.above, hv]
  | cons e m ih =>
    obtain ⟨j, w⟩ := e
    simp only [SMap.wf, Bool.and_eq_true, decide_eq_true_eq] at h ih
    simp only [SMap.put]
    split
    · next hk =>
      subst hk
      simp only [SMap.wf, Bool.and_eq_true, decide_eq_true_eq]; exact ⟨⟨h.1.1, hv⟩, h.2⟩
    · split
      · next hlt =>
        simp only [SMap.wf, SMap.above, List.all_cons, Bool.and_eq_true, decide_eq_true_eq]
        refine ⟨⟨⟨hlt, ?_⟩, hv⟩, h⟩
        have := h.1.1
        simp only [SMap.above, List.all_eq_true, decide_eq_true_eq] at this ⊢
        intro x hx; exact Nat.lt_trans hlt (this x hx)
      · next hne hge =>
        simp only [SMap.wf, Bool.and_eq_true, decide_eq_true_eq]
        exact ⟨⟨SMap.above_put m k j v (by omega) h.1.1, h.1.2⟩, ih h.2⟩

theorem SMap.wf_filter (m : SMap α) (p : Nat × α → Bool) (h : SMap.wf d m = true) : SMap.wf d (m.filter p) = true := by
  induction m with
  | nil => rfl
  | cons e m ih =>
    obtain ⟨j, w⟩ := e
    simp only [SMap.wf, Bool.and_eq_true, decide_eq_true_eq] at h ih
    have hab : SMap.above j (m.filter p) = true := by
      have := h.1.1
      simp only [SMap.above, List.all_eq_true, decide_eq_true_eq] at this ⊢
      intro x hx; exact this x (List.mem_of_mem_filter hx)
    simp only [List.filter]
    split
    · simp only [SMap.wf, Bool.and_eq_true, decide_eq_true_eq]; exact ⟨⟨hab, h.1.2⟩, ih h.2⟩
    · exact ih h.2

theorem SMap.wf_del (m : SMap α) (k : Nat) (h : SMap.wf d m = true) : SMap.wf d (SMap.del m k) = true := SMap.wf_filter d m _ h

/-- A write keeps the canonical form. -/
theorem SMap.wf_set (m : SMap α) (k : Nat) (v : α) (h : SMap.wf d m = true) : SMap.wf d (SMap.set d m k v) = true := by
  unfold SMap.set; split
  · exact SMap.wf_del d m k h
  · next hv => exact SMap.wf_put d m k v hv h

/-- Keeping some entries keeps the canonical form. -/
theorem SMap.wf_keep (m : SMap α) (p : Nat → Bool) (h : SMap.wf d m = true) : SMap.wf d (SMap.keep p m) = true := SMap.wf_filter d m _ h

end Sys2Proof.Machine
end

