-- ==== Sys2Proof/Laws/State.lean ====
section
/-! SUPPORT. What each update of the state leaves as it was, field by field, and what is read back after it. The laws are
conjunctions of equations, so that simp takes each of them for a rewriting of its own. -/

namespace Sys2Proof.Machine

/-! ## What an update leaves as it was -/

theorem Dev.regs_keeps (d : Dev) (x : SMap Word) (e : SMap Word → Dev) (he : e = fun x => { d with pages := { d.pages with regs := x } }) :
    (e x).out = d.out ∧ (e x).readData = d.readData ∧ (e x).fresh = d.fresh ∧ (e x).ps = d.ps ∧ (e x).tu = d.tu ∧
    (e x).en = d.en ∧ (e x).wk = d.wk ∧ (e x).dx = d.dx ∧ (e x).grps = d.grps ∧ (e x).ram = d.ram ∧ (e x).sys = d.sys ∧
    (e x).sk = d.sk ∧ (e x).ves = d.ves ∧ (e x).vctx = d.vctx ∧ (e x).cps = d.cps ∧ (e x).keys = d.keys ∧
    (e x).ces = d.ces ∧ (e x).qm = d.qm ∧ (e x).tm = d.tm ∧ (e x).px = d.px ∧ (e x).held = d.held ∧ (e x).dss = d.dss ∧
    (e x).am = d.am ∧ (e x).air = d.air ∧ (e x).asks = d.asks ∧ (e x).pages.shadow = d.pages.shadow ∧
    (e x).pages.tbl = d.pages.tbl ∧ (e x).pages.tblSh = d.pages.tblSh ∧ (e x).pages.latch = d.pages.latch ∧
    (e x).pages.hdrs = d.pages.hdrs ∧ (e x).pages.waiting = d.pages.waiting := by
  subst he; and_intros <;> rfl

@[simp] theorem Dev.setReg_keeps (d : Dev) (p : Page) (off : Nat) (w : Word) (i : Nat) :
    (d.setReg p off w i).out = d.out ∧ (d.setReg p off w i).readData = d.readData ∧ (d.setReg p off w i).fresh = d.fresh ∧
    (d.setReg p off w i).ps = d.ps ∧ (d.setReg p off w i).tu = d.tu ∧ (d.setReg p off w i).en = d.en ∧
    (d.setReg p off w i).wk = d.wk ∧ (d.setReg p off w i).dx = d.dx ∧ (d.setReg p off w i).grps = d.grps ∧
    (d.setReg p off w i).ram = d.ram ∧ (d.setReg p off w i).sys = d.sys ∧ (d.setReg p off w i).sk = d.sk ∧
    (d.setReg p off w i).ves = d.ves ∧ (d.setReg p off w i).vctx = d.vctx ∧ (d.setReg p off w i).cps = d.cps ∧
    (d.setReg p off w i).keys = d.keys ∧ (d.setReg p off w i).ces = d.ces ∧ (d.setReg p off w i).qm = d.qm ∧
    (d.setReg p off w i).tm = d.tm ∧ (d.setReg p off w i).px = d.px ∧ (d.setReg p off w i).held = d.held ∧
    (d.setReg p off w i).dss = d.dss ∧ (d.setReg p off w i).am = d.am ∧ (d.setReg p off w i).air = d.air ∧
    (d.setReg p off w i).asks = d.asks ∧ (d.setReg p off w i).pages.shadow = d.pages.shadow ∧
    (d.setReg p off w i).pages.tbl = d.pages.tbl ∧ (d.setReg p off w i).pages.tblSh = d.pages.tblSh ∧
    (d.setReg p off w i).pages.latch = d.pages.latch ∧ (d.setReg p off w i).pages.hdrs = d.pages.hdrs ∧
    (d.setReg p off w i).pages.waiting = d.pages.waiting :=
  Dev.regs_keeps d _ _ rfl

@[simp] theorem Dev.setRf_keeps (d : Dev) (p : Page) (off hi lo v i : Nat) :
    (d.setRf p off hi lo v i).out = d.out ∧ (d.setRf p off hi lo v i).readData = d.readData ∧
    (d.setRf p off hi lo v i).fresh = d.fresh ∧ (d.setRf p off hi lo v i).ps = d.ps ∧ (d.setRf p off hi lo v i).tu = d.tu ∧
    (d.setRf p off hi lo v i).en = d.en ∧ (d.setRf p off hi lo v i).wk = d.wk ∧ (d.setRf p off hi lo v i).dx = d.dx ∧
    (d.setRf p off hi lo v i).grps = d.grps ∧ (d.setRf p off hi lo v i).ram = d.ram ∧ (d.setRf p off hi lo v i).sys = d.sys ∧
    (d.setRf p off hi lo v i).sk = d.sk ∧ (d.setRf p off hi lo v i).ves = d.ves ∧ (d.setRf p off hi lo v i).vctx = d.vctx ∧
    (d.setRf p off hi lo v i).cps = d.cps ∧ (d.setRf p off hi lo v i).keys = d.keys ∧ (d.setRf p off hi lo v i).ces = d.ces ∧
    (d.setRf p off hi lo v i).qm = d.qm ∧ (d.setRf p off hi lo v i).tm = d.tm ∧ (d.setRf p off hi lo v i).px = d.px ∧
    (d.setRf p off hi lo v i).held = d.held ∧ (d.setRf p off hi lo v i).dss = d.dss ∧ (d.setRf p off hi lo v i).am = d.am ∧
    (d.setRf p off hi lo v i).air = d.air ∧ (d.setRf p off hi lo v i).asks = d.asks ∧
    (d.setRf p off hi lo v i).pages.shadow = d.pages.shadow ∧ (d.setRf p off hi lo v i).pages.tbl = d.pages.tbl ∧
    (d.setRf p off hi lo v i).pages.tblSh = d.pages.tblSh ∧ (d.setRf p off hi lo v i).pages.latch = d.pages.latch ∧
    (d.setRf p off hi lo v i).pages.hdrs = d.pages.hdrs ∧ (d.setRf p off hi lo v i).pages.waiting = d.pages.waiting :=
  Dev.regs_keeps d _ _ rfl

@[simp] theorem Dev.setRb_keeps (d : Dev) (p : Page) (off n : Nat) (b : Bool) (i : Nat) :
    (d.setRb p off n b i).out = d.out ∧ (d.setRb p off n b i).readData = d.readData ∧ (d.setRb p off n b i).fresh = d.fresh ∧
    (d.setRb p off n b i).ps = d.ps ∧ (d.setRb p off n b i).tu = d.tu ∧ (d.setRb p off n b i).en = d.en ∧
    (d.setRb p off n b i).wk = d.wk ∧ (d.setRb p off n b i).dx = d.dx ∧ (d.setRb p off n b i).grps = d.grps ∧
    (d.setRb p off n b i).ram = d.ram ∧ (d.setRb p off n b i).sys = d.sys ∧ (d.setRb p off n b i).sk = d.sk ∧
    (d.setRb p off n b i).ves = d.ves ∧ (d.setRb p off n b i).vctx = d.vctx ∧ (d.setRb p off n b i).cps = d.cps ∧
    (d.setRb p off n b i).keys = d.keys ∧ (d.setRb p off n b i).ces = d.ces ∧ (d.setRb p off n b i).qm = d.qm ∧
    (d.setRb p off n b i).tm = d.tm ∧ (d.setRb p off n b i).px = d.px ∧ (d.setRb p off n b i).held = d.held ∧
    (d.setRb p off n b i).dss = d.dss ∧ (d.setRb p off n b i).am = d.am ∧ (d.setRb p off n b i).air = d.air ∧
    (d.setRb p off n b i).asks = d.asks ∧ (d.setRb p off n b i).pages.shadow = d.pages.shadow ∧
    (d.setRb p off n b i).pages.tbl = d.pages.tbl ∧ (d.setRb p off n b i).pages.tblSh = d.pages.tblSh ∧
    (d.setRb p off n b i).pages.latch = d.pages.latch ∧ (d.setRb p off n b i).pages.hdrs = d.pages.hdrs ∧
    (d.setRb p off n b i).pages.waiting = d.pages.waiting :=
  Dev.regs_keeps d _ _ rfl

@[simp] theorem Dev.bump_keeps (d : Dev) (p : Page) (off hi lo n i : Nat) :
    (d.bump p off hi lo n i).out = d.out ∧ (d.bump p off hi lo n i).readData = d.readData ∧
    (d.bump p off hi lo n i).fresh = d.fresh ∧ (d.bump p off hi lo n i).ps = d.ps ∧ (d.bump p off hi lo n i).tu = d.tu ∧
    (d.bump p off hi lo n i).en = d.en ∧ (d.bump p off hi lo n i).wk = d.wk ∧ (d.bump p off hi lo n i).dx = d.dx ∧
    (d.bump p off hi lo n i).grps = d.grps ∧ (d.bump p off hi lo n i).ram = d.ram ∧ (d.bump p off hi lo n i).sys = d.sys ∧
    (d.bump p off hi lo n i).sk = d.sk ∧ (d.bump p off hi lo n i).ves = d.ves ∧ (d.bump p off hi lo n i).vctx = d.vctx ∧
    (d.bump p off hi lo n i).cps = d.cps ∧ (d.bump p off hi lo n i).keys = d.keys ∧ (d.bump p off hi lo n i).ces = d.ces ∧
    (d.bump p off hi lo n i).qm = d.qm ∧ (d.bump p off hi lo n i).tm = d.tm ∧ (d.bump p off hi lo n i).px = d.px ∧
    (d.bump p off hi lo n i).held = d.held ∧ (d.bump p off hi lo n i).dss = d.dss ∧ (d.bump p off hi lo n i).am = d.am ∧
    (d.bump p off hi lo n i).air = d.air ∧ (d.bump p off hi lo n i).asks = d.asks ∧
    (d.bump p off hi lo n i).pages.shadow = d.pages.shadow ∧ (d.bump p off hi lo n i).pages.tbl = d.pages.tbl ∧
    (d.bump p off hi lo n i).pages.tblSh = d.pages.tblSh ∧ (d.bump p off hi lo n i).pages.latch = d.pages.latch ∧
    (d.bump p off hi lo n i).pages.hdrs = d.pages.hdrs ∧ (d.bump p off hi lo n i).pages.waiting = d.pages.waiting :=
  Dev.regs_keeps d _ _ rfl

@[simp] theorem Dev.bumpSat_keeps (d : Dev) (p : Page) (off hi lo n i : Nat) :
    (d.bumpSat p off hi lo n i).out = d.out ∧ (d.bumpSat p off hi lo n i).readData = d.readData ∧
    (d.bumpSat p off hi lo n i).fresh = d.fresh ∧ (d.bumpSat p off hi lo n i).ps = d.ps ∧
    (d.bumpSat p off hi lo n i).tu = d.tu ∧ (d.bumpSat p off hi lo n i).en = d.en ∧ (d.bumpSat p off hi lo n i).wk = d.wk ∧
    (d.bumpSat p off hi lo n i).dx = d.dx ∧ (d.bumpSat p off hi lo n i).grps = d.grps ∧
    (d.bumpSat p off hi lo n i).ram = d.ram ∧ (d.bumpSat p off hi lo n i).sys = d.sys ∧ (d.bumpSat p off hi lo n i).sk = d.sk ∧
    (d.bumpSat p off hi lo n i).ves = d.ves ∧ (d.bumpSat p off hi lo n i).vctx = d.vctx ∧
    (d.bumpSat p off hi lo n i).cps = d.cps ∧ (d.bumpSat p off hi lo n i).keys = d.keys ∧
    (d.bumpSat p off hi lo n i).ces = d.ces ∧ (d.bumpSat p off hi lo n i).qm = d.qm ∧ (d.bumpSat p off hi lo n i).tm = d.tm ∧
    (d.bumpSat p off hi lo n i).px = d.px ∧ (d.bumpSat p off hi lo n i).held = d.held ∧
    (d.bumpSat p off hi lo n i).dss = d.dss ∧ (d.bumpSat p off hi lo n i).am = d.am ∧ (d.bumpSat p off hi lo n i).air = d.air ∧
    (d.bumpSat p off hi lo n i).asks = d.asks ∧ (d.bumpSat p off hi lo n i).pages.shadow = d.pages.shadow ∧
    (d.bumpSat p off hi lo n i).pages.tbl = d.pages.tbl ∧ (d.bumpSat p off hi lo n i).pages.tblSh = d.pages.tblSh ∧
    (d.bumpSat p off hi lo n i).pages.latch = d.pages.latch ∧ (d.bumpSat p off hi lo n i).pages.hdrs = d.pages.hdrs ∧
    (d.bumpSat p off hi lo n i).pages.waiting = d.pages.waiting :=
  Dev.regs_keeps d _ _ rfl

theorem Dev.shadows_keeps (d : Dev) (x : SMap Word) (e : SMap Word → Dev) (he : e = fun x => { d with pages := { d.pages with shadow := x } }) :
    (e x).out = d.out ∧ (e x).readData = d.readData ∧ (e x).fresh = d.fresh ∧ (e x).ps = d.ps ∧ (e x).tu = d.tu ∧
    (e x).en = d.en ∧ (e x).wk = d.wk ∧ (e x).dx = d.dx ∧ (e x).grps = d.grps ∧ (e x).ram = d.ram ∧ (e x).sys = d.sys ∧
    (e x).sk = d.sk ∧ (e x).ves = d.ves ∧ (e x).vctx = d.vctx ∧ (e x).cps = d.cps ∧ (e x).keys = d.keys ∧
    (e x).ces = d.ces ∧ (e x).qm = d.qm ∧ (e x).tm = d.tm ∧ (e x).px = d.px ∧ (e x).held = d.held ∧ (e x).dss = d.dss ∧
    (e x).am = d.am ∧ (e x).air = d.air ∧ (e x).asks = d.asks ∧ (e x).pages.regs = d.pages.regs ∧
    (e x).pages.tbl = d.pages.tbl ∧ (e x).pages.tblSh = d.pages.tblSh ∧ (e x).pages.latch = d.pages.latch ∧
    (e x).pages.hdrs = d.pages.hdrs ∧ (e x).pages.waiting = d.pages.waiting := by
  subst he; and_intros <;> rfl

@[simp] theorem Dev.setShadow_keeps (d : Dev) (p : Page) (off : Nat) (w : Word) :
    (d.setShadow p off w).out = d.out ∧ (d.setShadow p off w).readData = d.readData ∧ (d.setShadow p off w).fresh = d.fresh ∧
    (d.setShadow p off w).ps = d.ps ∧ (d.setShadow p off w).tu = d.tu ∧ (d.setShadow p off w).en = d.en ∧
    (d.setShadow p off w).wk = d.wk ∧ (d.setShadow p off w).dx = d.dx ∧ (d.setShadow p off w).grps = d.grps ∧
    (d.setShadow p off w).ram = d.ram ∧ (d.setShadow p off w).sys = d.sys ∧ (d.setShadow p off w).sk = d.sk ∧
    (d.setShadow p off w).ves = d.ves ∧ (d.setShadow p off w).vctx = d.vctx ∧ (d.setShadow p off w).cps = d.cps ∧
    (d.setShadow p off w).keys = d.keys ∧ (d.setShadow p off w).ces = d.ces ∧ (d.setShadow p off w).qm = d.qm ∧
    (d.setShadow p off w).tm = d.tm ∧ (d.setShadow p off w).px = d.px ∧ (d.setShadow p off w).held = d.held ∧
    (d.setShadow p off w).dss = d.dss ∧ (d.setShadow p off w).am = d.am ∧ (d.setShadow p off w).air = d.air ∧
    (d.setShadow p off w).asks = d.asks ∧ (d.setShadow p off w).pages.regs = d.pages.regs ∧
    (d.setShadow p off w).pages.tbl = d.pages.tbl ∧ (d.setShadow p off w).pages.tblSh = d.pages.tblSh ∧
    (d.setShadow p off w).pages.latch = d.pages.latch ∧ (d.setShadow p off w).pages.hdrs = d.pages.hdrs ∧
    (d.setShadow p off w).pages.waiting = d.pages.waiting :=
  Dev.shadows_keeps d _ _ rfl

theorem Dev.tbl_keeps (d : Dev) (x : SMap Word) (e : SMap Word → Dev) (he : e = fun x => { d with pages := { d.pages with tbl := x } }) :
    (e x).out = d.out ∧ (e x).readData = d.readData ∧ (e x).fresh = d.fresh ∧ (e x).ps = d.ps ∧ (e x).tu = d.tu ∧
    (e x).en = d.en ∧ (e x).wk = d.wk ∧ (e x).dx = d.dx ∧ (e x).grps = d.grps ∧ (e x).ram = d.ram ∧ (e x).sys = d.sys ∧
    (e x).sk = d.sk ∧ (e x).ves = d.ves ∧ (e x).vctx = d.vctx ∧ (e x).cps = d.cps ∧ (e x).keys = d.keys ∧
    (e x).ces = d.ces ∧ (e x).qm = d.qm ∧ (e x).tm = d.tm ∧ (e x).px = d.px ∧ (e x).held = d.held ∧ (e x).dss = d.dss ∧
    (e x).am = d.am ∧ (e x).air = d.air ∧ (e x).asks = d.asks ∧ (e x).pages.regs = d.pages.regs ∧
    (e x).pages.shadow = d.pages.shadow ∧ (e x).pages.tblSh = d.pages.tblSh ∧ (e x).pages.latch = d.pages.latch ∧
    (e x).pages.hdrs = d.pages.hdrs ∧ (e x).pages.waiting = d.pages.waiting := by
  subst he; and_intros <;> rfl

@[simp] theorem Dev.setTw_keeps (d : Dev) (p : Page) (a i : Nat) (w : Word) :
    (d.setTw p a i w).out = d.out ∧ (d.setTw p a i w).readData = d.readData ∧ (d.setTw p a i w).fresh = d.fresh ∧
    (d.setTw p a i w).ps = d.ps ∧ (d.setTw p a i w).tu = d.tu ∧ (d.setTw p a i w).en = d.en ∧ (d.setTw p a i w).wk = d.wk ∧
    (d.setTw p a i w).dx = d.dx ∧ (d.setTw p a i w).grps = d.grps ∧ (d.setTw p a i w).ram = d.ram ∧
    (d.setTw p a i w).sys = d.sys ∧ (d.setTw p a i w).sk = d.sk ∧ (d.setTw p a i w).ves = d.ves ∧
    (d.setTw p a i w).vctx = d.vctx ∧ (d.setTw p a i w).cps = d.cps ∧ (d.setTw p a i w).keys = d.keys ∧
    (d.setTw p a i w).ces = d.ces ∧ (d.setTw p a i w).qm = d.qm ∧ (d.setTw p a i w).tm = d.tm ∧ (d.setTw p a i w).px = d.px ∧
    (d.setTw p a i w).held = d.held ∧ (d.setTw p a i w).dss = d.dss ∧ (d.setTw p a i w).am = d.am ∧
    (d.setTw p a i w).air = d.air ∧ (d.setTw p a i w).asks = d.asks ∧ (d.setTw p a i w).pages.regs = d.pages.regs ∧
    (d.setTw p a i w).pages.shadow = d.pages.shadow ∧ (d.setTw p a i w).pages.tblSh = d.pages.tblSh ∧
    (d.setTw p a i w).pages.latch = d.pages.latch ∧ (d.setTw p a i w).pages.hdrs = d.pages.hdrs ∧
    (d.setTw p a i w).pages.waiting = d.pages.waiting :=
  Dev.tbl_keeps d _ _ rfl

@[simp] theorem Dev.setTf_keeps (d : Dev) (p : Page) (a i hi lo v : Nat) :
    (d.setTf p a i hi lo v).out = d.out ∧ (d.setTf p a i hi lo v).readData = d.readData ∧
    (d.setTf p a i hi lo v).fresh = d.fresh ∧ (d.setTf p a i hi lo v).ps = d.ps ∧ (d.setTf p a i hi lo v).tu = d.tu ∧
    (d.setTf p a i hi lo v).en = d.en ∧ (d.setTf p a i hi lo v).wk = d.wk ∧ (d.setTf p a i hi lo v).dx = d.dx ∧
    (d.setTf p a i hi lo v).grps = d.grps ∧ (d.setTf p a i hi lo v).ram = d.ram ∧ (d.setTf p a i hi lo v).sys = d.sys ∧
    (d.setTf p a i hi lo v).sk = d.sk ∧ (d.setTf p a i hi lo v).ves = d.ves ∧ (d.setTf p a i hi lo v).vctx = d.vctx ∧
    (d.setTf p a i hi lo v).cps = d.cps ∧ (d.setTf p a i hi lo v).keys = d.keys ∧ (d.setTf p a i hi lo v).ces = d.ces ∧
    (d.setTf p a i hi lo v).qm = d.qm ∧ (d.setTf p a i hi lo v).tm = d.tm ∧ (d.setTf p a i hi lo v).px = d.px ∧
    (d.setTf p a i hi lo v).held = d.held ∧ (d.setTf p a i hi lo v).dss = d.dss ∧ (d.setTf p a i hi lo v).am = d.am ∧
    (d.setTf p a i hi lo v).air = d.air ∧ (d.setTf p a i hi lo v).asks = d.asks ∧
    (d.setTf p a i hi lo v).pages.regs = d.pages.regs ∧ (d.setTf p a i hi lo v).pages.shadow = d.pages.shadow ∧
    (d.setTf p a i hi lo v).pages.tblSh = d.pages.tblSh ∧ (d.setTf p a i hi lo v).pages.latch = d.pages.latch ∧
    (d.setTf p a i hi lo v).pages.hdrs = d.pages.hdrs ∧ (d.setTf p a i hi lo v).pages.waiting = d.pages.waiting :=
  Dev.tbl_keeps d _ _ rfl

@[simp] theorem Dev.bumpT_keeps (d : Dev) (p : Page) (a i hi lo n : Nat) :
    (d.bumpT p a i hi lo n).out = d.out ∧ (d.bumpT p a i hi lo n).readData = d.readData ∧
    (d.bumpT p a i hi lo n).fresh = d.fresh ∧ (d.bumpT p a i hi lo n).ps = d.ps ∧ (d.bumpT p a i hi lo n).tu = d.tu ∧
    (d.bumpT p a i hi lo n).en = d.en ∧ (d.bumpT p a i hi lo n).wk = d.wk ∧ (d.bumpT p a i hi lo n).dx = d.dx ∧
    (d.bumpT p a i hi lo n).grps = d.grps ∧ (d.bumpT p a i hi lo n).ram = d.ram ∧ (d.bumpT p a i hi lo n).sys = d.sys ∧
    (d.bumpT p a i hi lo n).sk = d.sk ∧ (d.bumpT p a i hi lo n).ves = d.ves ∧ (d.bumpT p a i hi lo n).vctx = d.vctx ∧
    (d.bumpT p a i hi lo n).cps = d.cps ∧ (d.bumpT p a i hi lo n).keys = d.keys ∧ (d.bumpT p a i hi lo n).ces = d.ces ∧
    (d.bumpT p a i hi lo n).qm = d.qm ∧ (d.bumpT p a i hi lo n).tm = d.tm ∧ (d.bumpT p a i hi lo n).px = d.px ∧
    (d.bumpT p a i hi lo n).held = d.held ∧ (d.bumpT p a i hi lo n).dss = d.dss ∧ (d.bumpT p a i hi lo n).am = d.am ∧
    (d.bumpT p a i hi lo n).air = d.air ∧ (d.bumpT p a i hi lo n).asks = d.asks ∧
    (d.bumpT p a i hi lo n).pages.regs = d.pages.regs ∧ (d.bumpT p a i hi lo n).pages.shadow = d.pages.shadow ∧
    (d.bumpT p a i hi lo n).pages.tblSh = d.pages.tblSh ∧ (d.bumpT p a i hi lo n).pages.latch = d.pages.latch ∧
    (d.bumpT p a i hi lo n).pages.hdrs = d.pages.hdrs ∧ (d.bumpT p a i hi lo n).pages.waiting = d.pages.waiting :=
  Dev.tbl_keeps d _ _ rfl

theorem Dev.tblSh_keeps (d : Dev) (x : SMap Word) (e : SMap Word → Dev) (he : e = fun x => { d with pages := { d.pages with tblSh := x } }) :
    (e x).out = d.out ∧ (e x).readData = d.readData ∧ (e x).fresh = d.fresh ∧ (e x).ps = d.ps ∧ (e x).tu = d.tu ∧
    (e x).en = d.en ∧ (e x).wk = d.wk ∧ (e x).dx = d.dx ∧ (e x).grps = d.grps ∧ (e x).ram = d.ram ∧ (e x).sys = d.sys ∧
    (e x).sk = d.sk ∧ (e x).ves = d.ves ∧ (e x).vctx = d.vctx ∧ (e x).cps = d.cps ∧ (e x).keys = d.keys ∧
    (e x).ces = d.ces ∧ (e x).qm = d.qm ∧ (e x).tm = d.tm ∧ (e x).px = d.px ∧ (e x).held = d.held ∧ (e x).dss = d.dss ∧
    (e x).am = d.am ∧ (e x).air = d.air ∧ (e x).asks = d.asks ∧ (e x).pages.regs = d.pages.regs ∧
    (e x).pages.shadow = d.pages.shadow ∧ (e x).pages.tbl = d.pages.tbl ∧ (e x).pages.latch = d.pages.latch ∧
    (e x).pages.hdrs = d.pages.hdrs ∧ (e x).pages.waiting = d.pages.waiting := by
  subst he; and_intros <;> rfl

@[simp] theorem Dev.setTsw_keeps (d : Dev) (p : Page) (a i : Nat) (w : Word) :
    (d.setTsw p a i w).out = d.out ∧ (d.setTsw p a i w).readData = d.readData ∧ (d.setTsw p a i w).fresh = d.fresh ∧
    (d.setTsw p a i w).ps = d.ps ∧ (d.setTsw p a i w).tu = d.tu ∧ (d.setTsw p a i w).en = d.en ∧ (d.setTsw p a i w).wk = d.wk ∧
    (d.setTsw p a i w).dx = d.dx ∧ (d.setTsw p a i w).grps = d.grps ∧ (d.setTsw p a i w).ram = d.ram ∧
    (d.setTsw p a i w).sys = d.sys ∧ (d.setTsw p a i w).sk = d.sk ∧ (d.setTsw p a i w).ves = d.ves ∧
    (d.setTsw p a i w).vctx = d.vctx ∧ (d.setTsw p a i w).cps = d.cps ∧ (d.setTsw p a i w).keys = d.keys ∧
    (d.setTsw p a i w).ces = d.ces ∧ (d.setTsw p a i w).qm = d.qm ∧ (d.setTsw p a i w).tm = d.tm ∧
    (d.setTsw p a i w).px = d.px ∧ (d.setTsw p a i w).held = d.held ∧ (d.setTsw p a i w).dss = d.dss ∧
    (d.setTsw p a i w).am = d.am ∧ (d.setTsw p a i w).air = d.air ∧ (d.setTsw p a i w).asks = d.asks ∧
    (d.setTsw p a i w).pages.regs = d.pages.regs ∧ (d.setTsw p a i w).pages.shadow = d.pages.shadow ∧
    (d.setTsw p a i w).pages.tbl = d.pages.tbl ∧ (d.setTsw p a i w).pages.latch = d.pages.latch ∧
    (d.setTsw p a i w).pages.hdrs = d.pages.hdrs ∧ (d.setTsw p a i w).pages.waiting = d.pages.waiting :=
  Dev.tblSh_keeps d _ _ rfl

theorem Dev.hdrs_keeps (d : Dev) (x : SMap Hdr) (e : SMap Hdr → Dev) (he : e = fun x => { d with pages := { d.pages with hdrs := x } }) :
    (e x).out = d.out ∧ (e x).readData = d.readData ∧ (e x).fresh = d.fresh ∧ (e x).ps = d.ps ∧ (e x).tu = d.tu ∧
    (e x).en = d.en ∧ (e x).wk = d.wk ∧ (e x).dx = d.dx ∧ (e x).grps = d.grps ∧ (e x).ram = d.ram ∧ (e x).sys = d.sys ∧
    (e x).sk = d.sk ∧ (e x).ves = d.ves ∧ (e x).vctx = d.vctx ∧ (e x).cps = d.cps ∧ (e x).keys = d.keys ∧
    (e x).ces = d.ces ∧ (e x).qm = d.qm ∧ (e x).tm = d.tm ∧ (e x).px = d.px ∧ (e x).held = d.held ∧ (e x).dss = d.dss ∧
    (e x).am = d.am ∧ (e x).air = d.air ∧ (e x).asks = d.asks ∧ (e x).pages.regs = d.pages.regs ∧
    (e x).pages.shadow = d.pages.shadow ∧ (e x).pages.tbl = d.pages.tbl ∧ (e x).pages.tblSh = d.pages.tblSh ∧
    (e x).pages.latch = d.pages.latch ∧ (e x).pages.waiting = d.pages.waiting := by
  subst he; and_intros <;> rfl

@[simp] theorem Dev.setHdr_keeps (d : Dev) (p : Page) (h : Hdr) :
    (d.setHdr p h).out = d.out ∧ (d.setHdr p h).readData = d.readData ∧ (d.setHdr p h).fresh = d.fresh ∧
    (d.setHdr p h).ps = d.ps ∧ (d.setHdr p h).tu = d.tu ∧ (d.setHdr p h).en = d.en ∧ (d.setHdr p h).wk = d.wk ∧
    (d.setHdr p h).dx = d.dx ∧ (d.setHdr p h).grps = d.grps ∧ (d.setHdr p h).ram = d.ram ∧ (d.setHdr p h).sys = d.sys ∧
    (d.setHdr p h).sk = d.sk ∧ (d.setHdr p h).ves = d.ves ∧ (d.setHdr p h).vctx = d.vctx ∧ (d.setHdr p h).cps = d.cps ∧
    (d.setHdr p h).keys = d.keys ∧ (d.setHdr p h).ces = d.ces ∧ (d.setHdr p h).qm = d.qm ∧ (d.setHdr p h).tm = d.tm ∧
    (d.setHdr p h).px = d.px ∧ (d.setHdr p h).held = d.held ∧ (d.setHdr p h).dss = d.dss ∧ (d.setHdr p h).am = d.am ∧
    (d.setHdr p h).air = d.air ∧ (d.setHdr p h).asks = d.asks ∧ (d.setHdr p h).pages.regs = d.pages.regs ∧
    (d.setHdr p h).pages.shadow = d.pages.shadow ∧ (d.setHdr p h).pages.tbl = d.pages.tbl ∧
    (d.setHdr p h).pages.tblSh = d.pages.tblSh ∧ (d.setHdr p h).pages.latch = d.pages.latch ∧
    (d.setHdr p h).pages.waiting = d.pages.waiting :=
  Dev.hdrs_keeps d _ _ rfl

@[simp] theorem Dev.modHdr_keeps (d : Dev) (p : Page) (f : Hdr → Hdr) :
    (d.modHdr p f).out = d.out ∧ (d.modHdr p f).readData = d.readData ∧ (d.modHdr p f).fresh = d.fresh ∧
    (d.modHdr p f).ps = d.ps ∧ (d.modHdr p f).tu = d.tu ∧ (d.modHdr p f).en = d.en ∧ (d.modHdr p f).wk = d.wk ∧
    (d.modHdr p f).dx = d.dx ∧ (d.modHdr p f).grps = d.grps ∧ (d.modHdr p f).ram = d.ram ∧ (d.modHdr p f).sys = d.sys ∧
    (d.modHdr p f).sk = d.sk ∧ (d.modHdr p f).ves = d.ves ∧ (d.modHdr p f).vctx = d.vctx ∧ (d.modHdr p f).cps = d.cps ∧
    (d.modHdr p f).keys = d.keys ∧ (d.modHdr p f).ces = d.ces ∧ (d.modHdr p f).qm = d.qm ∧ (d.modHdr p f).tm = d.tm ∧
    (d.modHdr p f).px = d.px ∧ (d.modHdr p f).held = d.held ∧ (d.modHdr p f).dss = d.dss ∧ (d.modHdr p f).am = d.am ∧
    (d.modHdr p f).air = d.air ∧ (d.modHdr p f).asks = d.asks ∧ (d.modHdr p f).pages.regs = d.pages.regs ∧
    (d.modHdr p f).pages.shadow = d.pages.shadow ∧ (d.modHdr p f).pages.tbl = d.pages.tbl ∧
    (d.modHdr p f).pages.tblSh = d.pages.tblSh ∧ (d.modHdr p f).pages.latch = d.pages.latch ∧
    (d.modHdr p f).pages.waiting = d.pages.waiting :=
  Dev.hdrs_keeps d _ _ rfl

@[simp] theorem Dev.addInflight_keeps (d : Dev) (p : Page) (n : Nat) :
    (d.addInflight p n).out = d.out ∧ (d.addInflight p n).readData = d.readData ∧ (d.addInflight p n).fresh = d.fresh ∧
    (d.addInflight p n).ps = d.ps ∧ (d.addInflight p n).tu = d.tu ∧ (d.addInflight p n).en = d.en ∧
    (d.addInflight p n).wk = d.wk ∧ (d.addInflight p n).dx = d.dx ∧ (d.addInflight p n).grps = d.grps ∧
    (d.addInflight p n).ram = d.ram ∧ (d.addInflight p n).sys = d.sys ∧ (d.addInflight p n).sk = d.sk ∧
    (d.addInflight p n).ves = d.ves ∧ (d.addInflight p n).vctx = d.vctx ∧ (d.addInflight p n).cps = d.cps ∧
    (d.addInflight p n).keys = d.keys ∧ (d.addInflight p n).ces = d.ces ∧ (d.addInflight p n).qm = d.qm ∧
    (d.addInflight p n).tm = d.tm ∧ (d.addInflight p n).px = d.px ∧ (d.addInflight p n).held = d.held ∧
    (d.addInflight p n).dss = d.dss ∧ (d.addInflight p n).am = d.am ∧ (d.addInflight p n).air = d.air ∧
    (d.addInflight p n).asks = d.asks ∧ (d.addInflight p n).pages.regs = d.pages.regs ∧
    (d.addInflight p n).pages.shadow = d.pages.shadow ∧ (d.addInflight p n).pages.tbl = d.pages.tbl ∧
    (d.addInflight p n).pages.tblSh = d.pages.tblSh ∧ (d.addInflight p n).pages.latch = d.pages.latch ∧
    (d.addInflight p n).pages.waiting = d.pages.waiting :=
  Dev.hdrs_keeps d _ _ rfl

@[simp] theorem Dev.subInflight_keeps (d : Dev) (p : Page) (n : Nat) :
    (d.subInflight p n).out = d.out ∧ (d.subInflight p n).readData = d.readData ∧ (d.subInflight p n).fresh = d.fresh ∧
    (d.subInflight p n).ps = d.ps ∧ (d.subInflight p n).tu = d.tu ∧ (d.subInflight p n).en = d.en ∧
    (d.subInflight p n).wk = d.wk ∧ (d.subInflight p n).dx = d.dx ∧ (d.subInflight p n).grps = d.grps ∧
    (d.subInflight p n).ram = d.ram ∧ (d.subInflight p n).sys = d.sys ∧ (d.subInflight p n).sk = d.sk ∧
    (d.subInflight p n).ves = d.ves ∧ (d.subInflight p n).vctx = d.vctx ∧ (d.subInflight p n).cps = d.cps ∧
    (d.subInflight p n).keys = d.keys ∧ (d.subInflight p n).ces = d.ces ∧ (d.subInflight p n).qm = d.qm ∧
    (d.subInflight p n).tm = d.tm ∧ (d.subInflight p n).px = d.px ∧ (d.subInflight p n).held = d.held ∧
    (d.subInflight p n).dss = d.dss ∧ (d.subInflight p n).am = d.am ∧ (d.subInflight p n).air = d.air ∧
    (d.subInflight p n).asks = d.asks ∧ (d.subInflight p n).pages.regs = d.pages.regs ∧
    (d.subInflight p n).pages.shadow = d.pages.shadow ∧ (d.subInflight p n).pages.tbl = d.pages.tbl ∧
    (d.subInflight p n).pages.tblSh = d.pages.tblSh ∧ (d.subInflight p n).pages.latch = d.pages.latch ∧
    (d.subInflight p n).pages.waiting = d.pages.waiting :=
  Dev.hdrs_keeps d _ _ rfl

@[simp] theorem Dev.emit_keeps (d : Dev) (o : Output) :
    (d.emit o).readData = d.readData ∧ (d.emit o).fresh = d.fresh ∧ (d.emit o).pages = d.pages ∧ (d.emit o).ps = d.ps ∧
    (d.emit o).tu = d.tu ∧ (d.emit o).en = d.en ∧ (d.emit o).wk = d.wk ∧ (d.emit o).dx = d.dx ∧ (d.emit o).grps = d.grps ∧
    (d.emit o).ram = d.ram ∧ (d.emit o).sys = d.sys ∧ (d.emit o).sk = d.sk ∧ (d.emit o).ves = d.ves ∧
    (d.emit o).vctx = d.vctx ∧ (d.emit o).cps = d.cps ∧ (d.emit o).keys = d.keys ∧ (d.emit o).ces = d.ces ∧
    (d.emit o).qm = d.qm ∧ (d.emit o).tm = d.tm ∧ (d.emit o).px = d.px ∧ (d.emit o).held = d.held ∧ (d.emit o).dss = d.dss ∧
    (d.emit o).am = d.am ∧ (d.emit o).air = d.air ∧ (d.emit o).asks = d.asks := by and_intros <;> rfl

@[simp] theorem Dev.answer_keeps (d : Dev) (w : Word) :
    (d.answer w).fresh = d.fresh ∧ (d.answer w).pages = d.pages ∧ (d.answer w).ps = d.ps ∧ (d.answer w).tu = d.tu ∧
    (d.answer w).en = d.en ∧ (d.answer w).wk = d.wk ∧ (d.answer w).dx = d.dx ∧ (d.answer w).grps = d.grps ∧
    (d.answer w).ram = d.ram ∧ (d.answer w).sys = d.sys ∧ (d.answer w).sk = d.sk ∧ (d.answer w).ves = d.ves ∧
    (d.answer w).vctx = d.vctx ∧ (d.answer w).cps = d.cps ∧ (d.answer w).keys = d.keys ∧ (d.answer w).ces = d.ces ∧
    (d.answer w).qm = d.qm ∧ (d.answer w).tm = d.tm ∧ (d.answer w).px = d.px ∧ (d.answer w).held = d.held ∧
    (d.answer w).dss = d.dss ∧ (d.answer w).am = d.am ∧ (d.answer w).air = d.air ∧ (d.answer w).asks = d.asks := by and_intros <;> rfl

@[simp] theorem Dev.drawn_keeps (d : Dev)  :
    (d.drawn).out = d.out ∧ (d.drawn).readData = d.readData ∧ (d.drawn).pages = d.pages ∧ (d.drawn).ps = d.ps ∧
    (d.drawn).tu = d.tu ∧ (d.drawn).en = d.en ∧ (d.drawn).wk = d.wk ∧ (d.drawn).dx = d.dx ∧ (d.drawn).grps = d.grps ∧
    (d.drawn).ram = d.ram ∧ (d.drawn).sys = d.sys ∧ (d.drawn).sk = d.sk ∧ (d.drawn).ves = d.ves ∧ (d.drawn).vctx = d.vctx ∧
    (d.drawn).cps = d.cps ∧ (d.drawn).keys = d.keys ∧ (d.drawn).ces = d.ces ∧ (d.drawn).qm = d.qm ∧ (d.drawn).tm = d.tm ∧
    (d.drawn).px = d.px ∧ (d.drawn).held = d.held ∧ (d.drawn).dss = d.dss ∧ (d.drawn).am = d.am ∧ (d.drawn).air = d.air ∧
    (d.drawn).asks = d.asks := by and_intros <;> rfl

@[simp] theorem Dev.setNv_keeps (d : Dev) (off : Nat) (w : Word) :
    (d.setNv off w).out = d.out ∧ (d.setNv off w).readData = d.readData ∧ (d.setNv off w).fresh = d.fresh ∧
    (d.setNv off w).pages = d.pages ∧ (d.setNv off w).tu = d.tu ∧ (d.setNv off w).en = d.en ∧ (d.setNv off w).wk = d.wk ∧
    (d.setNv off w).dx = d.dx ∧ (d.setNv off w).grps = d.grps ∧ (d.setNv off w).ram = d.ram ∧ (d.setNv off w).sys = d.sys ∧
    (d.setNv off w).sk = d.sk ∧ (d.setNv off w).ves = d.ves ∧ (d.setNv off w).vctx = d.vctx ∧ (d.setNv off w).cps = d.cps ∧
    (d.setNv off w).keys = d.keys ∧ (d.setNv off w).ces = d.ces ∧ (d.setNv off w).qm = d.qm ∧ (d.setNv off w).tm = d.tm ∧
    (d.setNv off w).px = d.px ∧ (d.setNv off w).held = d.held ∧ (d.setNv off w).dss = d.dss ∧ (d.setNv off w).am = d.am ∧
    (d.setNv off w).air = d.air ∧ (d.setNv off w).asks = d.asks := by and_intros <;> rfl

theorem Dev.grps_keeps (d : Dev) (x : SMap Grp) (e : SMap Grp → Dev) (he : e = fun x => { d with grps := x }) :
    (e x).out = d.out ∧ (e x).readData = d.readData ∧ (e x).fresh = d.fresh ∧ (e x).pages = d.pages ∧ (e x).ps = d.ps ∧
    (e x).tu = d.tu ∧ (e x).en = d.en ∧ (e x).wk = d.wk ∧ (e x).dx = d.dx ∧ (e x).ram = d.ram ∧ (e x).sys = d.sys ∧
    (e x).sk = d.sk ∧ (e x).ves = d.ves ∧ (e x).vctx = d.vctx ∧ (e x).cps = d.cps ∧ (e x).keys = d.keys ∧
    (e x).ces = d.ces ∧ (e x).qm = d.qm ∧ (e x).tm = d.tm ∧ (e x).px = d.px ∧ (e x).held = d.held ∧ (e x).dss = d.dss ∧
    (e x).am = d.am ∧ (e x).air = d.air ∧ (e x).asks = d.asks := by
  subst he; and_intros <;> rfl

@[simp] theorem Dev.setGrp_keeps (d : Dev) (g : Nat) (x : Grp) :
    (d.setGrp g x).out = d.out ∧ (d.setGrp g x).readData = d.readData ∧ (d.setGrp g x).fresh = d.fresh ∧
    (d.setGrp g x).pages = d.pages ∧ (d.setGrp g x).ps = d.ps ∧ (d.setGrp g x).tu = d.tu ∧ (d.setGrp g x).en = d.en ∧
    (d.setGrp g x).wk = d.wk ∧ (d.setGrp g x).dx = d.dx ∧ (d.setGrp g x).ram = d.ram ∧ (d.setGrp g x).sys = d.sys ∧
    (d.setGrp g x).sk = d.sk ∧ (d.setGrp g x).ves = d.ves ∧ (d.setGrp g x).vctx = d.vctx ∧ (d.setGrp g x).cps = d.cps ∧
    (d.setGrp g x).keys = d.keys ∧ (d.setGrp g x).ces = d.ces ∧ (d.setGrp g x).qm = d.qm ∧ (d.setGrp g x).tm = d.tm ∧
    (d.setGrp g x).px = d.px ∧ (d.setGrp g x).held = d.held ∧ (d.setGrp g x).dss = d.dss ∧ (d.setGrp g x).am = d.am ∧
    (d.setGrp g x).air = d.air ∧ (d.setGrp g x).asks = d.asks :=
  Dev.grps_keeps d _ _ rfl

@[simp] theorem Dev.modGrp_keeps (d : Dev) (g : Nat) (f : Grp → Grp) :
    (d.modGrp g f).out = d.out ∧ (d.modGrp g f).readData = d.readData ∧ (d.modGrp g f).fresh = d.fresh ∧
    (d.modGrp g f).pages = d.pages ∧ (d.modGrp g f).ps = d.ps ∧ (d.modGrp g f).tu = d.tu ∧ (d.modGrp g f).en = d.en ∧
    (d.modGrp g f).wk = d.wk ∧ (d.modGrp g f).dx = d.dx ∧ (d.modGrp g f).ram = d.ram ∧ (d.modGrp g f).sys = d.sys ∧
    (d.modGrp g f).sk = d.sk ∧ (d.modGrp g f).ves = d.ves ∧ (d.modGrp g f).vctx = d.vctx ∧ (d.modGrp g f).cps = d.cps ∧
    (d.modGrp g f).keys = d.keys ∧ (d.modGrp g f).ces = d.ces ∧ (d.modGrp g f).qm = d.qm ∧ (d.modGrp g f).tm = d.tm ∧
    (d.modGrp g f).px = d.px ∧ (d.modGrp g f).held = d.held ∧ (d.modGrp g f).dss = d.dss ∧ (d.modGrp g f).am = d.am ∧
    (d.modGrp g f).air = d.air ∧ (d.modGrp g f).asks = d.asks :=
  Dev.grps_keeps d _ _ rfl

theorem Dev.rings_keeps (d : Dev) (x : SMap Ring) (e : SMap Ring → Dev) (he : e = fun x => { d with wk := { d.wk with rings := x } }) :
    (e x).out = d.out ∧ (e x).readData = d.readData ∧ (e x).fresh = d.fresh ∧ (e x).pages = d.pages ∧ (e x).ps = d.ps ∧
    (e x).tu = d.tu ∧ (e x).en = d.en ∧ (e x).dx = d.dx ∧ (e x).grps = d.grps ∧ (e x).ram = d.ram ∧ (e x).sys = d.sys ∧
    (e x).sk = d.sk ∧ (e x).ves = d.ves ∧ (e x).vctx = d.vctx ∧ (e x).cps = d.cps ∧ (e x).keys = d.keys ∧
    (e x).ces = d.ces ∧ (e x).qm = d.qm ∧ (e x).tm = d.tm ∧ (e x).px = d.px ∧ (e x).held = d.held ∧ (e x).dss = d.dss ∧
    (e x).am = d.am ∧ (e x).air = d.air ∧ (e x).asks = d.asks ∧ (e x).wk.items = d.wk.items ∧
    (e x).wk.epoch = d.wk.epoch ∧ (e x).wk.copyA = d.wk.copyA ∧ (e x).wk.copyB = d.wk.copyB := by
  subst he; and_intros <;> rfl

@[simp] theorem Dev.setRing_keeps (d : Dev) (n : Nat) (r : Ring) :
    (d.setRing n r).out = d.out ∧ (d.setRing n r).readData = d.readData ∧ (d.setRing n r).fresh = d.fresh ∧
    (d.setRing n r).pages = d.pages ∧ (d.setRing n r).ps = d.ps ∧ (d.setRing n r).tu = d.tu ∧ (d.setRing n r).en = d.en ∧
    (d.setRing n r).dx = d.dx ∧ (d.setRing n r).grps = d.grps ∧ (d.setRing n r).ram = d.ram ∧ (d.setRing n r).sys = d.sys ∧
    (d.setRing n r).sk = d.sk ∧ (d.setRing n r).ves = d.ves ∧ (d.setRing n r).vctx = d.vctx ∧ (d.setRing n r).cps = d.cps ∧
    (d.setRing n r).keys = d.keys ∧ (d.setRing n r).ces = d.ces ∧ (d.setRing n r).qm = d.qm ∧ (d.setRing n r).tm = d.tm ∧
    (d.setRing n r).px = d.px ∧ (d.setRing n r).held = d.held ∧ (d.setRing n r).dss = d.dss ∧ (d.setRing n r).am = d.am ∧
    (d.setRing n r).air = d.air ∧ (d.setRing n r).asks = d.asks ∧ (d.setRing n r).wk.items = d.wk.items ∧
    (d.setRing n r).wk.epoch = d.wk.epoch ∧ (d.setRing n r).wk.copyA = d.wk.copyA ∧ (d.setRing n r).wk.copyB = d.wk.copyB :=
  Dev.rings_keeps d _ _ rfl

@[simp] theorem Dev.modRing_keeps (d : Dev) (n : Nat) (f : Ring → Ring) :
    (d.modRing n f).out = d.out ∧ (d.modRing n f).readData = d.readData ∧ (d.modRing n f).fresh = d.fresh ∧
    (d.modRing n f).pages = d.pages ∧ (d.modRing n f).ps = d.ps ∧ (d.modRing n f).tu = d.tu ∧ (d.modRing n f).en = d.en ∧
    (d.modRing n f).dx = d.dx ∧ (d.modRing n f).grps = d.grps ∧ (d.modRing n f).ram = d.ram ∧ (d.modRing n f).sys = d.sys ∧
    (d.modRing n f).sk = d.sk ∧ (d.modRing n f).ves = d.ves ∧ (d.modRing n f).vctx = d.vctx ∧ (d.modRing n f).cps = d.cps ∧
    (d.modRing n f).keys = d.keys ∧ (d.modRing n f).ces = d.ces ∧ (d.modRing n f).qm = d.qm ∧ (d.modRing n f).tm = d.tm ∧
    (d.modRing n f).px = d.px ∧ (d.modRing n f).held = d.held ∧ (d.modRing n f).dss = d.dss ∧ (d.modRing n f).am = d.am ∧
    (d.modRing n f).air = d.air ∧ (d.modRing n f).asks = d.asks ∧ (d.modRing n f).wk.items = d.wk.items ∧
    (d.modRing n f).wk.epoch = d.wk.epoch ∧ (d.modRing n f).wk.copyA = d.wk.copyA ∧ (d.modRing n f).wk.copyB = d.wk.copyB :=
  Dev.rings_keeps d _ _ rfl

@[simp] theorem Dev.modItem_keeps (d : Dev) (r q : Nat) (f : Item → Item) :
    (d.modItem r q f).out = d.out ∧ (d.modItem r q f).readData = d.readData ∧ (d.modItem r q f).fresh = d.fresh ∧
    (d.modItem r q f).pages = d.pages ∧ (d.modItem r q f).ps = d.ps ∧ (d.modItem r q f).tu = d.tu ∧
    (d.modItem r q f).en = d.en ∧ (d.modItem r q f).dx = d.dx ∧ (d.modItem r q f).grps = d.grps ∧
    (d.modItem r q f).ram = d.ram ∧ (d.modItem r q f).sys = d.sys ∧ (d.modItem r q f).sk = d.sk ∧
    (d.modItem r q f).ves = d.ves ∧ (d.modItem r q f).vctx = d.vctx ∧ (d.modItem r q f).cps = d.cps ∧
    (d.modItem r q f).keys = d.keys ∧ (d.modItem r q f).ces = d.ces ∧ (d.modItem r q f).qm = d.qm ∧
    (d.modItem r q f).tm = d.tm ∧ (d.modItem r q f).px = d.px ∧ (d.modItem r q f).held = d.held ∧
    (d.modItem r q f).dss = d.dss ∧ (d.modItem r q f).am = d.am ∧ (d.modItem r q f).air = d.air ∧
    (d.modItem r q f).asks = d.asks ∧ (d.modItem r q f).wk.rings = d.wk.rings ∧ (d.modItem r q f).wk.epoch = d.wk.epoch ∧
    (d.modItem r q f).wk.copyA = d.wk.copyA ∧ (d.modItem r q f).wk.copyB = d.wk.copyB := by and_intros <;> rfl

theorem Dev.chans_keeps (d : Dev) (x : SMap Chan) (e : SMap Chan → Dev) (he : e = fun x => { d with dx := { d.dx with chans := x } }) :
    (e x).out = d.out ∧ (e x).readData = d.readData ∧ (e x).fresh = d.fresh ∧ (e x).pages = d.pages ∧ (e x).ps = d.ps ∧
    (e x).tu = d.tu ∧ (e x).en = d.en ∧ (e x).wk = d.wk ∧ (e x).grps = d.grps ∧ (e x).ram = d.ram ∧ (e x).sys = d.sys ∧
    (e x).sk = d.sk ∧ (e x).ves = d.ves ∧ (e x).vctx = d.vctx ∧ (e x).cps = d.cps ∧ (e x).keys = d.keys ∧
    (e x).ces = d.ces ∧ (e x).qm = d.qm ∧ (e x).tm = d.tm ∧ (e x).px = d.px ∧ (e x).held = d.held ∧ (e x).dss = d.dss ∧
    (e x).am = d.am ∧ (e x).air = d.air ∧ (e x).asks = d.asks := by
  subst he; and_intros <;> rfl

@[simp] theorem Dev.setChan_keeps (d : Dev) (n : Nat) (c : Chan) :
    (d.setChan n c).out = d.out ∧ (d.setChan n c).readData = d.readData ∧ (d.setChan n c).fresh = d.fresh ∧
    (d.setChan n c).pages = d.pages ∧ (d.setChan n c).ps = d.ps ∧ (d.setChan n c).tu = d.tu ∧ (d.setChan n c).en = d.en ∧
    (d.setChan n c).wk = d.wk ∧ (d.setChan n c).grps = d.grps ∧ (d.setChan n c).ram = d.ram ∧ (d.setChan n c).sys = d.sys ∧
    (d.setChan n c).sk = d.sk ∧ (d.setChan n c).ves = d.ves ∧ (d.setChan n c).vctx = d.vctx ∧ (d.setChan n c).cps = d.cps ∧
    (d.setChan n c).keys = d.keys ∧ (d.setChan n c).ces = d.ces ∧ (d.setChan n c).qm = d.qm ∧ (d.setChan n c).tm = d.tm ∧
    (d.setChan n c).px = d.px ∧ (d.setChan n c).held = d.held ∧ (d.setChan n c).dss = d.dss ∧ (d.setChan n c).am = d.am ∧
    (d.setChan n c).air = d.air ∧ (d.setChan n c).asks = d.asks :=
  Dev.chans_keeps d _ _ rfl

theorem Dev.slots_keeps (d : Dev) (x : SMap KeySlot) (e : SMap KeySlot → Dev) (he : e = fun x => { d with keys := { d.keys with slots := x } }) :
    (e x).out = d.out ∧ (e x).readData = d.readData ∧ (e x).fresh = d.fresh ∧ (e x).pages = d.pages ∧ (e x).ps = d.ps ∧
    (e x).tu = d.tu ∧ (e x).en = d.en ∧ (e x).wk = d.wk ∧ (e x).dx = d.dx ∧ (e x).grps = d.grps ∧ (e x).ram = d.ram ∧
    (e x).sys = d.sys ∧ (e x).sk = d.sk ∧ (e x).ves = d.ves ∧ (e x).vctx = d.vctx ∧ (e x).cps = d.cps ∧
    (e x).ces = d.ces ∧ (e x).qm = d.qm ∧ (e x).tm = d.tm ∧ (e x).px = d.px ∧ (e x).held = d.held ∧ (e x).dss = d.dss ∧
    (e x).am = d.am ∧ (e x).air = d.air ∧ (e x).asks = d.asks ∧ (e x).keys.loads = d.keys.loads ∧
    (e x).keys.pend = d.keys.pend := by
  subst he; and_intros <;> rfl

@[simp] theorem Dev.setSlot_keeps (d : Dev) (n : Nat) (k : KeySlot) :
    (d.setSlot n k).out = d.out ∧ (d.setSlot n k).readData = d.readData ∧ (d.setSlot n k).fresh = d.fresh ∧
    (d.setSlot n k).pages = d.pages ∧ (d.setSlot n k).ps = d.ps ∧ (d.setSlot n k).tu = d.tu ∧ (d.setSlot n k).en = d.en ∧
    (d.setSlot n k).wk = d.wk ∧ (d.setSlot n k).dx = d.dx ∧ (d.setSlot n k).grps = d.grps ∧ (d.setSlot n k).ram = d.ram ∧
    (d.setSlot n k).sys = d.sys ∧ (d.setSlot n k).sk = d.sk ∧ (d.setSlot n k).ves = d.ves ∧ (d.setSlot n k).vctx = d.vctx ∧
    (d.setSlot n k).cps = d.cps ∧ (d.setSlot n k).ces = d.ces ∧ (d.setSlot n k).qm = d.qm ∧ (d.setSlot n k).tm = d.tm ∧
    (d.setSlot n k).px = d.px ∧ (d.setSlot n k).held = d.held ∧ (d.setSlot n k).dss = d.dss ∧ (d.setSlot n k).am = d.am ∧
    (d.setSlot n k).air = d.air ∧ (d.setSlot n k).asks = d.asks ∧ (d.setSlot n k).keys.loads = d.keys.loads ∧
    (d.setSlot n k).keys.pend = d.keys.pend :=
  Dev.slots_keeps d _ _ rfl

theorem Dev.ces_keeps (d : Dev) (x : SMap CeUnit) (e : SMap CeUnit → Dev) (he : e = fun x => { d with ces := x }) :
    (e x).out = d.out ∧ (e x).readData = d.readData ∧ (e x).fresh = d.fresh ∧ (e x).pages = d.pages ∧ (e x).ps = d.ps ∧
    (e x).tu = d.tu ∧ (e x).en = d.en ∧ (e x).wk = d.wk ∧ (e x).dx = d.dx ∧ (e x).grps = d.grps ∧ (e x).ram = d.ram ∧
    (e x).sys = d.sys ∧ (e x).sk = d.sk ∧ (e x).ves = d.ves ∧ (e x).vctx = d.vctx ∧ (e x).cps = d.cps ∧
    (e x).keys = d.keys ∧ (e x).qm = d.qm ∧ (e x).tm = d.tm ∧ (e x).px = d.px ∧ (e x).held = d.held ∧ (e x).dss = d.dss ∧
    (e x).am = d.am ∧ (e x).air = d.air ∧ (e x).asks = d.asks := by
  subst he; and_intros <;> rfl

@[simp] theorem Dev.setCe_keeps (d : Dev) (n : Nat) (u : CeUnit) :
    (d.setCe n u).out = d.out ∧ (d.setCe n u).readData = d.readData ∧ (d.setCe n u).fresh = d.fresh ∧
    (d.setCe n u).pages = d.pages ∧ (d.setCe n u).ps = d.ps ∧ (d.setCe n u).tu = d.tu ∧ (d.setCe n u).en = d.en ∧
    (d.setCe n u).wk = d.wk ∧ (d.setCe n u).dx = d.dx ∧ (d.setCe n u).grps = d.grps ∧ (d.setCe n u).ram = d.ram ∧
    (d.setCe n u).sys = d.sys ∧ (d.setCe n u).sk = d.sk ∧ (d.setCe n u).ves = d.ves ∧ (d.setCe n u).vctx = d.vctx ∧
    (d.setCe n u).cps = d.cps ∧ (d.setCe n u).keys = d.keys ∧ (d.setCe n u).qm = d.qm ∧ (d.setCe n u).tm = d.tm ∧
    (d.setCe n u).px = d.px ∧ (d.setCe n u).held = d.held ∧ (d.setCe n u).dss = d.dss ∧ (d.setCe n u).am = d.am ∧
    (d.setCe n u).air = d.air ∧ (d.setCe n u).asks = d.asks :=
  Dev.ces_keeps d _ _ rfl

theorem Dev.dss_keeps (d : Dev) (x : SMap DsUnit) (e : SMap DsUnit → Dev) (he : e = fun x => { d with dss := x }) :
    (e x).out = d.out ∧ (e x).readData = d.readData ∧ (e x).fresh = d.fresh ∧ (e x).pages = d.pages ∧ (e x).ps = d.ps ∧
    (e x).tu = d.tu ∧ (e x).en = d.en ∧ (e x).wk = d.wk ∧ (e x).dx = d.dx ∧ (e x).grps = d.grps ∧ (e x).ram = d.ram ∧
    (e x).sys = d.sys ∧ (e x).sk = d.sk ∧ (e x).ves = d.ves ∧ (e x).vctx = d.vctx ∧ (e x).cps = d.cps ∧
    (e x).keys = d.keys ∧ (e x).ces = d.ces ∧ (e x).qm = d.qm ∧ (e x).tm = d.tm ∧ (e x).px = d.px ∧ (e x).held = d.held ∧
    (e x).am = d.am ∧ (e x).air = d.air ∧ (e x).asks = d.asks := by
  subst he; and_intros <;> rfl

@[simp] theorem Dev.setDs_keeps (d : Dev) (c : Nat) (u : DsUnit) :
    (d.setDs c u).out = d.out ∧ (d.setDs c u).readData = d.readData ∧ (d.setDs c u).fresh = d.fresh ∧
    (d.setDs c u).pages = d.pages ∧ (d.setDs c u).ps = d.ps ∧ (d.setDs c u).tu = d.tu ∧ (d.setDs c u).en = d.en ∧
    (d.setDs c u).wk = d.wk ∧ (d.setDs c u).dx = d.dx ∧ (d.setDs c u).grps = d.grps ∧ (d.setDs c u).ram = d.ram ∧
    (d.setDs c u).sys = d.sys ∧ (d.setDs c u).sk = d.sk ∧ (d.setDs c u).ves = d.ves ∧ (d.setDs c u).vctx = d.vctx ∧
    (d.setDs c u).cps = d.cps ∧ (d.setDs c u).keys = d.keys ∧ (d.setDs c u).ces = d.ces ∧ (d.setDs c u).qm = d.qm ∧
    (d.setDs c u).tm = d.tm ∧ (d.setDs c u).px = d.px ∧ (d.setDs c u).held = d.held ∧ (d.setDs c u).am = d.am ∧
    (d.setDs c u).air = d.air ∧ (d.setDs c u).asks = d.asks :=
  Dev.dss_keeps d _ _ rfl

@[simp] theorem Dev.setLane_keeps (d : Dev) (c l : Nat) (x : Option Lane) :
    (d.setLane c l x).out = d.out ∧ (d.setLane c l x).readData = d.readData ∧ (d.setLane c l x).fresh = d.fresh ∧
    (d.setLane c l x).pages = d.pages ∧ (d.setLane c l x).ps = d.ps ∧ (d.setLane c l x).tu = d.tu ∧
    (d.setLane c l x).en = d.en ∧ (d.setLane c l x).wk = d.wk ∧ (d.setLane c l x).dx = d.dx ∧ (d.setLane c l x).grps = d.grps ∧
    (d.setLane c l x).ram = d.ram ∧ (d.setLane c l x).sys = d.sys ∧ (d.setLane c l x).sk = d.sk ∧
    (d.setLane c l x).ves = d.ves ∧ (d.setLane c l x).vctx = d.vctx ∧ (d.setLane c l x).cps = d.cps ∧
    (d.setLane c l x).keys = d.keys ∧ (d.setLane c l x).ces = d.ces ∧ (d.setLane c l x).qm = d.qm ∧
    (d.setLane c l x).tm = d.tm ∧ (d.setLane c l x).px = d.px ∧ (d.setLane c l x).held = d.held ∧ (d.setLane c l x).am = d.am ∧
    (d.setLane c l x).air = d.air ∧ (d.setLane c l x).asks = d.asks :=
  Dev.dss_keeps d _ _ rfl

theorem Dev.ves_keeps (d : Dev) (x : SMap VEng) (e : SMap VEng → Dev) (he : e = fun x => { d with ves := x }) :
    (e x).out = d.out ∧ (e x).readData = d.readData ∧ (e x).fresh = d.fresh ∧ (e x).pages = d.pages ∧ (e x).ps = d.ps ∧
    (e x).tu = d.tu ∧ (e x).en = d.en ∧ (e x).wk = d.wk ∧ (e x).dx = d.dx ∧ (e x).grps = d.grps ∧ (e x).ram = d.ram ∧
    (e x).sys = d.sys ∧ (e x).sk = d.sk ∧ (e x).vctx = d.vctx ∧ (e x).cps = d.cps ∧ (e x).keys = d.keys ∧
    (e x).ces = d.ces ∧ (e x).qm = d.qm ∧ (e x).tm = d.tm ∧ (e x).px = d.px ∧ (e x).held = d.held ∧ (e x).dss = d.dss ∧
    (e x).am = d.am ∧ (e x).air = d.air ∧ (e x).asks = d.asks := by
  subst he; and_intros <;> rfl

@[simp] theorem Dev.setVeng_keeps (d : Dev) (e : Nat) (v : VEng) :
    (d.setVeng e v).out = d.out ∧ (d.setVeng e v).readData = d.readData ∧ (d.setVeng e v).fresh = d.fresh ∧
    (d.setVeng e v).pages = d.pages ∧ (d.setVeng e v).ps = d.ps ∧ (d.setVeng e v).tu = d.tu ∧ (d.setVeng e v).en = d.en ∧
    (d.setVeng e v).wk = d.wk ∧ (d.setVeng e v).dx = d.dx ∧ (d.setVeng e v).grps = d.grps ∧ (d.setVeng e v).ram = d.ram ∧
    (d.setVeng e v).sys = d.sys ∧ (d.setVeng e v).sk = d.sk ∧ (d.setVeng e v).vctx = d.vctx ∧ (d.setVeng e v).cps = d.cps ∧
    (d.setVeng e v).keys = d.keys ∧ (d.setVeng e v).ces = d.ces ∧ (d.setVeng e v).qm = d.qm ∧ (d.setVeng e v).tm = d.tm ∧
    (d.setVeng e v).px = d.px ∧ (d.setVeng e v).held = d.held ∧ (d.setVeng e v).dss = d.dss ∧ (d.setVeng e v).am = d.am ∧
    (d.setVeng e v).air = d.air ∧ (d.setVeng e v).asks = d.asks :=
  Dev.ves_keeps d _ _ rfl

theorem Dev.vctx_keeps (d : Dev) (x : SMap VCtx) (e : SMap VCtx → Dev) (he : e = fun x => { d with vctx := x }) :
    (e x).out = d.out ∧ (e x).readData = d.readData ∧ (e x).fresh = d.fresh ∧ (e x).pages = d.pages ∧ (e x).ps = d.ps ∧
    (e x).tu = d.tu ∧ (e x).en = d.en ∧ (e x).wk = d.wk ∧ (e x).dx = d.dx ∧ (e x).grps = d.grps ∧ (e x).ram = d.ram ∧
    (e x).sys = d.sys ∧ (e x).sk = d.sk ∧ (e x).ves = d.ves ∧ (e x).cps = d.cps ∧ (e x).keys = d.keys ∧
    (e x).ces = d.ces ∧ (e x).qm = d.qm ∧ (e x).tm = d.tm ∧ (e x).px = d.px ∧ (e x).held = d.held ∧ (e x).dss = d.dss ∧
    (e x).am = d.am ∧ (e x).air = d.air ∧ (e x).asks = d.asks := by
  subst he; and_intros <;> rfl

@[simp] theorem Dev.setVctx_keeps (d : Dev) (h : Nat) (c : VCtx) :
    (d.setVctx h c).out = d.out ∧ (d.setVctx h c).readData = d.readData ∧ (d.setVctx h c).fresh = d.fresh ∧
    (d.setVctx h c).pages = d.pages ∧ (d.setVctx h c).ps = d.ps ∧ (d.setVctx h c).tu = d.tu ∧ (d.setVctx h c).en = d.en ∧
    (d.setVctx h c).wk = d.wk ∧ (d.setVctx h c).dx = d.dx ∧ (d.setVctx h c).grps = d.grps ∧ (d.setVctx h c).ram = d.ram ∧
    (d.setVctx h c).sys = d.sys ∧ (d.setVctx h c).sk = d.sk ∧ (d.setVctx h c).ves = d.ves ∧ (d.setVctx h c).cps = d.cps ∧
    (d.setVctx h c).keys = d.keys ∧ (d.setVctx h c).ces = d.ces ∧ (d.setVctx h c).qm = d.qm ∧ (d.setVctx h c).tm = d.tm ∧
    (d.setVctx h c).px = d.px ∧ (d.setVctx h c).held = d.held ∧ (d.setVctx h c).dss = d.dss ∧ (d.setVctx h c).am = d.am ∧
    (d.setVctx h c).air = d.air ∧ (d.setVctx h c).asks = d.asks :=
  Dev.vctx_keeps d _ _ rfl

theorem Dev.cps_keeps (d : Dev) (x : SMap CpUnit) (e : SMap CpUnit → Dev) (he : e = fun x => { d with cps := x }) :
    (e x).out = d.out ∧ (e x).readData = d.readData ∧ (e x).fresh = d.fresh ∧ (e x).pages = d.pages ∧ (e x).ps = d.ps ∧
    (e x).tu = d.tu ∧ (e x).en = d.en ∧ (e x).wk = d.wk ∧ (e x).dx = d.dx ∧ (e x).grps = d.grps ∧ (e x).ram = d.ram ∧
    (e x).sys = d.sys ∧ (e x).sk = d.sk ∧ (e x).ves = d.ves ∧ (e x).vctx = d.vctx ∧ (e x).keys = d.keys ∧
    (e x).ces = d.ces ∧ (e x).qm = d.qm ∧ (e x).tm = d.tm ∧ (e x).px = d.px ∧ (e x).held = d.held ∧ (e x).dss = d.dss ∧
    (e x).am = d.am ∧ (e x).air = d.air ∧ (e x).asks = d.asks := by
  subst he; and_intros <;> rfl

@[simp] theorem Dev.setCpUnit_keeps (d : Dev) (c : Nat) (u : CpUnit) :
    (d.setCpUnit c u).out = d.out ∧ (d.setCpUnit c u).readData = d.readData ∧ (d.setCpUnit c u).fresh = d.fresh ∧
    (d.setCpUnit c u).pages = d.pages ∧ (d.setCpUnit c u).ps = d.ps ∧ (d.setCpUnit c u).tu = d.tu ∧
    (d.setCpUnit c u).en = d.en ∧ (d.setCpUnit c u).wk = d.wk ∧ (d.setCpUnit c u).dx = d.dx ∧ (d.setCpUnit c u).grps = d.grps ∧
    (d.setCpUnit c u).ram = d.ram ∧ (d.setCpUnit c u).sys = d.sys ∧ (d.setCpUnit c u).sk = d.sk ∧
    (d.setCpUnit c u).ves = d.ves ∧ (d.setCpUnit c u).vctx = d.vctx ∧ (d.setCpUnit c u).keys = d.keys ∧
    (d.setCpUnit c u).ces = d.ces ∧ (d.setCpUnit c u).qm = d.qm ∧ (d.setCpUnit c u).tm = d.tm ∧ (d.setCpUnit c u).px = d.px ∧
    (d.setCpUnit c u).held = d.held ∧ (d.setCpUnit c u).dss = d.dss ∧ (d.setCpUnit c u).am = d.am ∧
    (d.setCpUnit c u).air = d.air ∧ (d.setCpUnit c u).asks = d.asks :=
  Dev.cps_keeps d _ _ rfl

theorem Dev.air_keeps (d : Dev) (x : Air) (e : Air → Dev) (he : e = fun x => { d with air := x }) :
    (e x).out = d.out ∧ (e x).readData = d.readData ∧ (e x).fresh = d.fresh ∧ (e x).pages = d.pages ∧ (e x).ps = d.ps ∧
    (e x).tu = d.tu ∧ (e x).en = d.en ∧ (e x).wk = d.wk ∧ (e x).dx = d.dx ∧ (e x).grps = d.grps ∧ (e x).ram = d.ram ∧
    (e x).sys = d.sys ∧ (e x).sk = d.sk ∧ (e x).ves = d.ves ∧ (e x).vctx = d.vctx ∧ (e x).cps = d.cps ∧
    (e x).keys = d.keys ∧ (e x).ces = d.ces ∧ (e x).qm = d.qm ∧ (e x).tm = d.tm ∧ (e x).px = d.px ∧ (e x).held = d.held ∧
    (e x).dss = d.dss ∧ (e x).am = d.am ∧ (e x).asks = d.asks := by
  subst he; and_intros <;> rfl

@[simp] theorem Dev.modRadio_keeps (d : Dev) (r : Nat) (f : RadioX → RadioX) :
    (d.modRadio r f).out = d.out ∧ (d.modRadio r f).readData = d.readData ∧ (d.modRadio r f).fresh = d.fresh ∧
    (d.modRadio r f).pages = d.pages ∧ (d.modRadio r f).ps = d.ps ∧ (d.modRadio r f).tu = d.tu ∧ (d.modRadio r f).en = d.en ∧
    (d.modRadio r f).wk = d.wk ∧ (d.modRadio r f).dx = d.dx ∧ (d.modRadio r f).grps = d.grps ∧ (d.modRadio r f).ram = d.ram ∧
    (d.modRadio r f).sys = d.sys ∧ (d.modRadio r f).sk = d.sk ∧ (d.modRadio r f).ves = d.ves ∧ (d.modRadio r f).vctx = d.vctx ∧
    (d.modRadio r f).cps = d.cps ∧ (d.modRadio r f).keys = d.keys ∧ (d.modRadio r f).ces = d.ces ∧ (d.modRadio r f).qm = d.qm ∧
    (d.modRadio r f).tm = d.tm ∧ (d.modRadio r f).px = d.px ∧ (d.modRadio r f).held = d.held ∧ (d.modRadio r f).dss = d.dss ∧
    (d.modRadio r f).am = d.am ∧ (d.modRadio r f).asks = d.asks :=
  Dev.air_keeps d _ _ rfl

@[simp] theorem Dev.modLink_keeps (d : Dev) (k : Nat) (f : AirLink → AirLink) :
    (d.modLink k f).out = d.out ∧ (d.modLink k f).readData = d.readData ∧ (d.modLink k f).fresh = d.fresh ∧
    (d.modLink k f).pages = d.pages ∧ (d.modLink k f).ps = d.ps ∧ (d.modLink k f).tu = d.tu ∧ (d.modLink k f).en = d.en ∧
    (d.modLink k f).wk = d.wk ∧ (d.modLink k f).dx = d.dx ∧ (d.modLink k f).grps = d.grps ∧ (d.modLink k f).ram = d.ram ∧
    (d.modLink k f).sys = d.sys ∧ (d.modLink k f).sk = d.sk ∧ (d.modLink k f).ves = d.ves ∧ (d.modLink k f).vctx = d.vctx ∧
    (d.modLink k f).cps = d.cps ∧ (d.modLink k f).keys = d.keys ∧ (d.modLink k f).ces = d.ces ∧ (d.modLink k f).qm = d.qm ∧
    (d.modLink k f).tm = d.tm ∧ (d.modLink k f).px = d.px ∧ (d.modLink k f).held = d.held ∧ (d.modLink k f).dss = d.dss ∧
    (d.modLink k f).am = d.am ∧ (d.modLink k f).asks = d.asks :=
  Dev.air_keeps d _ _ rfl

theorem Dev.qm_keeps (d : Dev) (x : Qm) (e : Qm → Dev) (he : e = fun x => { d with qm := x }) :
    (e x).out = d.out ∧ (e x).readData = d.readData ∧ (e x).fresh = d.fresh ∧ (e x).pages = d.pages ∧ (e x).ps = d.ps ∧
    (e x).tu = d.tu ∧ (e x).en = d.en ∧ (e x).wk = d.wk ∧ (e x).dx = d.dx ∧ (e x).grps = d.grps ∧ (e x).ram = d.ram ∧
    (e x).sys = d.sys ∧ (e x).sk = d.sk ∧ (e x).ves = d.ves ∧ (e x).vctx = d.vctx ∧ (e x).cps = d.cps ∧
    (e x).keys = d.keys ∧ (e x).ces = d.ces ∧ (e x).tm = d.tm ∧ (e x).px = d.px ∧ (e x).held = d.held ∧
    (e x).dss = d.dss ∧ (e x).am = d.am ∧ (e x).air = d.air ∧ (e x).asks = d.asks := by
  subst he; and_intros <;> rfl

@[simp] theorem Dev.setBody_keeps (d : Dev) (b : Nat) (x : Option Body) :
    (d.setBody b x).out = d.out ∧ (d.setBody b x).readData = d.readData ∧ (d.setBody b x).fresh = d.fresh ∧
    (d.setBody b x).pages = d.pages ∧ (d.setBody b x).ps = d.ps ∧ (d.setBody b x).tu = d.tu ∧ (d.setBody b x).en = d.en ∧
    (d.setBody b x).wk = d.wk ∧ (d.setBody b x).dx = d.dx ∧ (d.setBody b x).grps = d.grps ∧ (d.setBody b x).ram = d.ram ∧
    (d.setBody b x).sys = d.sys ∧ (d.setBody b x).sk = d.sk ∧ (d.setBody b x).ves = d.ves ∧ (d.setBody b x).vctx = d.vctx ∧
    (d.setBody b x).cps = d.cps ∧ (d.setBody b x).keys = d.keys ∧ (d.setBody b x).ces = d.ces ∧ (d.setBody b x).tm = d.tm ∧
    (d.setBody b x).px = d.px ∧ (d.setBody b x).held = d.held ∧ (d.setBody b x).dss = d.dss ∧ (d.setBody b x).am = d.am ∧
    (d.setBody b x).air = d.air ∧ (d.setBody b x).asks = d.asks :=
  Dev.qm_keeps d _ _ rfl

@[simp] theorem Dev.setQueue_keeps (d : Dev) (q : Nat) (l : List Pkt) :
    (d.setQueue q l).out = d.out ∧ (d.setQueue q l).readData = d.readData ∧ (d.setQueue q l).fresh = d.fresh ∧
    (d.setQueue q l).pages = d.pages ∧ (d.setQueue q l).ps = d.ps ∧ (d.setQueue q l).tu = d.tu ∧ (d.setQueue q l).en = d.en ∧
    (d.setQueue q l).wk = d.wk ∧ (d.setQueue q l).dx = d.dx ∧ (d.setQueue q l).grps = d.grps ∧ (d.setQueue q l).ram = d.ram ∧
    (d.setQueue q l).sys = d.sys ∧ (d.setQueue q l).sk = d.sk ∧ (d.setQueue q l).ves = d.ves ∧ (d.setQueue q l).vctx = d.vctx ∧
    (d.setQueue q l).cps = d.cps ∧ (d.setQueue q l).keys = d.keys ∧ (d.setQueue q l).ces = d.ces ∧ (d.setQueue q l).tm = d.tm ∧
    (d.setQueue q l).px = d.px ∧ (d.setQueue q l).held = d.held ∧ (d.setQueue q l).dss = d.dss ∧ (d.setQueue q l).am = d.am ∧
    (d.setQueue q l).air = d.air ∧ (d.setQueue q l).asks = d.asks :=
  Dev.qm_keeps d _ _ rfl

theorem Dev.dram_keeps (d : Dev) (x : SMap Byte) (e : SMap Byte → Dev) (he : e = fun x => { d with ram := { d.ram with dram := x } }) :
    (e x).out = d.out ∧ (e x).readData = d.readData ∧ (e x).fresh = d.fresh ∧ (e x).pages = d.pages ∧ (e x).ps = d.ps ∧
    (e x).tu = d.tu ∧ (e x).en = d.en ∧ (e x).wk = d.wk ∧ (e x).dx = d.dx ∧ (e x).grps = d.grps ∧ (e x).sys = d.sys ∧
    (e x).sk = d.sk ∧ (e x).ves = d.ves ∧ (e x).vctx = d.vctx ∧ (e x).cps = d.cps ∧ (e x).keys = d.keys ∧
    (e x).ces = d.ces ∧ (e x).qm = d.qm ∧ (e x).tm = d.tm ∧ (e x).px = d.px ∧ (e x).held = d.held ∧ (e x).dss = d.dss ∧
    (e x).am = d.am ∧ (e x).air = d.air ∧ (e x).asks = d.asks ∧ (e x).ram.sys = d.ram.sys ∧ (e x).ram.flash = d.ram.flash := by
  subst he; and_intros <;> rfl

@[simp] theorem Dev.setCell_keeps (d : Dev) (g m off : Nat) (b : Byte) :
    (d.setCell g m off b).out = d.out ∧ (d.setCell g m off b).readData = d.readData ∧ (d.setCell g m off b).fresh = d.fresh ∧
    (d.setCell g m off b).pages = d.pages ∧ (d.setCell g m off b).ps = d.ps ∧ (d.setCell g m off b).tu = d.tu ∧
    (d.setCell g m off b).en = d.en ∧ (d.setCell g m off b).wk = d.wk ∧ (d.setCell g m off b).dx = d.dx ∧
    (d.setCell g m off b).grps = d.grps ∧ (d.setCell g m off b).sys = d.sys ∧ (d.setCell g m off b).sk = d.sk ∧
    (d.setCell g m off b).ves = d.ves ∧ (d.setCell g m off b).vctx = d.vctx ∧ (d.setCell g m off b).cps = d.cps ∧
    (d.setCell g m off b).keys = d.keys ∧ (d.setCell g m off b).ces = d.ces ∧ (d.setCell g m off b).qm = d.qm ∧
    (d.setCell g m off b).tm = d.tm ∧ (d.setCell g m off b).px = d.px ∧ (d.setCell g m off b).held = d.held ∧
    (d.setCell g m off b).dss = d.dss ∧ (d.setCell g m off b).am = d.am ∧ (d.setCell g m off b).air = d.air ∧
    (d.setCell g m off b).asks = d.asks ∧ (d.setCell g m off b).ram.sys = d.ram.sys ∧
    (d.setCell g m off b).ram.flash = d.ram.flash :=
  Dev.dram_keeps d _ _ rfl

theorem Dev.sysMem_keeps (d : Dev) (x : SMap Byte) (e : SMap Byte → Dev) (he : e = fun x => { d with ram := { d.ram with sys := x } }) :
    (e x).out = d.out ∧ (e x).readData = d.readData ∧ (e x).fresh = d.fresh ∧ (e x).pages = d.pages ∧ (e x).ps = d.ps ∧
    (e x).tu = d.tu ∧ (e x).en = d.en ∧ (e x).wk = d.wk ∧ (e x).dx = d.dx ∧ (e x).grps = d.grps ∧ (e x).sys = d.sys ∧
    (e x).sk = d.sk ∧ (e x).ves = d.ves ∧ (e x).vctx = d.vctx ∧ (e x).cps = d.cps ∧ (e x).keys = d.keys ∧
    (e x).ces = d.ces ∧ (e x).qm = d.qm ∧ (e x).tm = d.tm ∧ (e x).px = d.px ∧ (e x).held = d.held ∧ (e x).dss = d.dss ∧
    (e x).am = d.am ∧ (e x).air = d.air ∧ (e x).asks = d.asks ∧ (e x).ram.dram = d.ram.dram ∧
    (e x).ram.flash = d.ram.flash := by
  subst he; and_intros <;> rfl

@[simp] theorem Dev.setSysByte_keeps (d : Dev) (a : Nat) (b : Byte) :
    (d.setSysByte a b).out = d.out ∧ (d.setSysByte a b).readData = d.readData ∧ (d.setSysByte a b).fresh = d.fresh ∧
    (d.setSysByte a b).pages = d.pages ∧ (d.setSysByte a b).ps = d.ps ∧ (d.setSysByte a b).tu = d.tu ∧
    (d.setSysByte a b).en = d.en ∧ (d.setSysByte a b).wk = d.wk ∧ (d.setSysByte a b).dx = d.dx ∧
    (d.setSysByte a b).grps = d.grps ∧ (d.setSysByte a b).sys = d.sys ∧ (d.setSysByte a b).sk = d.sk ∧
    (d.setSysByte a b).ves = d.ves ∧ (d.setSysByte a b).vctx = d.vctx ∧ (d.setSysByte a b).cps = d.cps ∧
    (d.setSysByte a b).keys = d.keys ∧ (d.setSysByte a b).ces = d.ces ∧ (d.setSysByte a b).qm = d.qm ∧
    (d.setSysByte a b).tm = d.tm ∧ (d.setSysByte a b).px = d.px ∧ (d.setSysByte a b).held = d.held ∧
    (d.setSysByte a b).dss = d.dss ∧ (d.setSysByte a b).am = d.am ∧ (d.setSysByte a b).air = d.air ∧
    (d.setSysByte a b).asks = d.asks ∧ (d.setSysByte a b).ram.dram = d.ram.dram ∧
    (d.setSysByte a b).ram.flash = d.ram.flash :=
  Dev.sysMem_keeps d _ _ rfl

@[simp] theorem Dev.ask_keeps (d : Dev) (a : Ask) :
    (d.ask a).out = d.out ∧ (d.ask a).readData = d.readData ∧ (d.ask a).fresh = d.fresh ∧ (d.ask a).pages = d.pages ∧
    (d.ask a).ps = d.ps ∧ (d.ask a).tu = d.tu ∧ (d.ask a).en = d.en ∧ (d.ask a).wk = d.wk ∧ (d.ask a).dx = d.dx ∧
    (d.ask a).grps = d.grps ∧ (d.ask a).ram = d.ram ∧ (d.ask a).sys = d.sys ∧ (d.ask a).sk = d.sk ∧ (d.ask a).ves = d.ves ∧
    (d.ask a).vctx = d.vctx ∧ (d.ask a).cps = d.cps ∧ (d.ask a).keys = d.keys ∧ (d.ask a).ces = d.ces ∧ (d.ask a).qm = d.qm ∧
    (d.ask a).tm = d.tm ∧ (d.ask a).px = d.px ∧ (d.ask a).held = d.held ∧ (d.ask a).dss = d.dss ∧ (d.ask a).am = d.am ∧
    (d.ask a).air = d.air := by and_intros <;> rfl

/-! ## What is read back -/

@[simp] theorem Dev.emit_out (d : Dev) (o : Output) : (d.emit o).out = o :: d.out := rfl
@[simp] theorem Dev.answer_out (d : Dev) (w : Word) : (d.answer w).out = .readData w :: d.out := rfl
@[simp] theorem Dev.answer_readData (d : Dev) (w : Word) : (d.answer w).readData = w := rfl
@[simp] theorem Dev.drawn_fresh (d : Dev) : d.drawn.fresh = d.fresh + 1 := rfl

/-- Two registers of one key are the same copy of the same register. -/
theorem regKey_inj {p q : Page} {o o' i i' : Nat} (ho : o < 0x1000) (ho' : o' < 0x1000) (h : regKey p o i = regKey q o' i') :
    p = q ∧ o = o' ∧ i = i' := by
  have hp := p.isLt
  have hq := q.isLt
  simp only [regKey] at h
  refine ⟨Fin.ext ?_, ?_, ?_⟩ <;> omega

@[simp] theorem Dev.reg_setReg_same (d : Dev) (p : Page) (off : Nat) (w : Word) (i : Nat) : (d.setReg p off w i).reg p off i = w :=
  SMap.get_set_same _ _ _ _

theorem Dev.reg_setReg_other (d : Dev) (p q : Page) (off o : Nat) (w : Word) (i j : Nat) (hoff : off < 0x1000) (ho : o < 0x1000)
    (h : ¬(q = p ∧ o = off ∧ j = i)) : (d.setReg p off w i).reg q o j = d.reg q o j :=
  SMap.get_set_other _ _ _ _ _ (fun e => h (regKey_inj ho hoff e))

@[simp] theorem Dev.shadow_setShadow_same (d : Dev) (p : Page) (off : Nat) (w : Word) : (d.setShadow p off w).shadow p off = w :=
  SMap.get_set_same _ _ _ _

@[simp] theorem Dev.tw_setTw_same (d : Dev) (p : Page) (a i : Nat) (w : Word) : (d.setTw p a i w).tw p a i = w :=
  SMap.get_set_same _ _ _ _

theorem Dev.tw_setTw_other (d : Dev) (p q : Page) (a b i j : Nat) (w : Word) (h : tblKey q b j ≠ tblKey p a i) :
    (d.setTw p a i w).tw q b j = d.tw q b j := SMap.get_set_other _ _ _ _ _ h

@[simp] theorem Dev.hdr_setHdr_same (d : Dev) (p : Page) (h : Hdr) : (d.setHdr p h).hdr p = h := SMap.get_set_same _ _ _ _

theorem Dev.hdr_setHdr_other (d : Dev) (p q : Page) (h : Hdr) (hq : q ≠ p) : (d.setHdr p h).hdr q = d.hdr q :=
  SMap.get_set_other _ _ _ _ _ (fun e => hq (Fin.ext e))

@[simp] theorem Dev.hdr_modHdr_same (d : Dev) (p : Page) (f : Hdr → Hdr) : (d.modHdr p f).hdr p = f (d.hdr p) :=
  Dev.hdr_setHdr_same _ _ _

theorem Dev.hdr_modHdr_other (d : Dev) (p q : Page) (f : Hdr → Hdr) (hq : q ≠ p) : (d.modHdr p f).hdr q = d.hdr q :=
  Dev.hdr_setHdr_other _ _ _ _ hq

@[simp] theorem Dev.nv_setNv_same (d : Dev) (off : Nat) (w : Word) : (d.setNv off w).nv off = w := SMap.get_set_same _ _ _ _
@[simp] theorem Dev.grp_setGrp_same (d : Dev) (g : Nat) (x : Grp) : (d.setGrp g x).grp g = x := SMap.get_set_same _ _ _ _
@[simp] theorem Dev.grp_modGrp_same (d : Dev) (g : Nat) (f : Grp → Grp) : (d.modGrp g f).grp g = f (d.grp g) := Dev.grp_setGrp_same _ _ _
@[simp] theorem Dev.ring_setRing_same (d : Dev) (n : Nat) (r : Ring) : (d.setRing n r).ring n = r := SMap.get_set_same _ _ _ _
theorem Dev.ring_setRing_other (d : Dev) (n m : Nat) (r : Ring) (h : m ≠ n) : (d.setRing n r).ring m = d.ring m :=
  SMap.get_set_other _ _ _ _ _ h
@[simp] theorem Dev.ring_modRing_same (d : Dev) (n : Nat) (f : Ring → Ring) : (d.modRing n f).ring n = f (d.ring n) :=
  Dev.ring_setRing_same _ _ _
theorem Dev.ring_modRing_other (d : Dev) (n m : Nat) (f : Ring → Ring) (h : m ≠ n) : (d.modRing n f).ring m = d.ring m :=
  Dev.ring_setRing_other _ _ _ _ h
@[simp] theorem Dev.slot_setSlot_same (d : Dev) (n : Nat) (k : KeySlot) : (d.setSlot n k).slot n = k := SMap.get_set_same _ _ _ _
theorem Dev.slot_setSlot_other (d : Dev) (n m : Nat) (k : KeySlot) (h : m ≠ n) : (d.setSlot n k).slot m = d.slot m :=
  SMap.get_set_other _ _ _ _ _ h
@[simp] theorem Dev.ce_setCe_same (d : Dev) (n : Nat) (u : CeUnit) : (d.setCe n u).ce n = u := SMap.get_set_same _ _ _ _
@[simp] theorem Dev.ds_setDs_same (d : Dev) (c : Nat) (u : DsUnit) : (d.setDs c u).ds c = u := SMap.get_set_same _ _ _ _
@[simp] theorem Dev.lane_setLane_same (d : Dev) (c l : Nat) (x : Option Lane) : (d.setLane c l x).lane c l = x := by
  simp [Dev.setLane, Dev.modDs, Dev.lane]
@[simp] theorem Dev.veng_setVeng_same (d : Dev) (e : Nat) (v : VEng) : (d.setVeng e v).veng e = v := SMap.get_set_same _ _ _ _
@[simp] theorem Dev.vctxOf_setVctx_same (d : Dev) (h : Nat) (c : VCtx) : (d.setVctx h c).vctxOf h = c := SMap.get_set_same _ _ _ _
@[simp] theorem Dev.cell_setCell_same (d : Dev) (g m off : Nat) (b : Byte) : (d.setCell g m off b).cell g m off = b :=
  SMap.get_set_same _ _ _ _
@[simp] theorem Dev.sysByte_setSysByte_same (d : Dev) (a : Nat) (b : Byte) : (d.setSysByte a b).sysByte a = b := SMap.get_set_same _ _ _ _
theorem Dev.sysByte_setSysByte_other (d : Dev) (a c : Nat) (b : Byte) (h : c ≠ a) : (d.setSysByte a b).sysByte c = d.sysByte c :=
  SMap.get_set_other _ _ _ _ _ h

end Sys2Proof.Machine
end

