-- ==== Sys2Proof/Laws/Detect.lean ====
section
/-! SUPPORT. What an emitted message and a detection can do (R33, R48, R469 to R473): said once, so that no later proof opens
them. -/

namespace Sys2Proof.Machine

/-- A message changes the outputs and the pending vectors alone. -/
theorem Dev.vector_cases (d : Dev) (v : Nat) : ∃ o l, d.vector v = { d with out := o, sys := { d.sys with pend := l } } := by
  unfold Dev.vector
  split
  · exact ⟨_, d.sys.pend, rfl⟩
  · split
    · exact ⟨d.out, d.sys.pend, rfl⟩
    · exact ⟨d.out, _, rfl⟩

@[simp] theorem Dev.vector_pages (d : Dev) (v : Nat) : (d.vector v).pages = d.pages := by
  obtain ⟨o, l, h⟩ := d.vector_cases v; rw [h]
@[simp] theorem Dev.vector_ram (d : Dev) (v : Nat) : (d.vector v).ram = d.ram := by
  obtain ⟨o, l, h⟩ := d.vector_cases v; rw [h]
@[simp] theorem Dev.vector_wk (d : Dev) (v : Nat) : (d.vector v).wk = d.wk := by
  obtain ⟨o, l, h⟩ := d.vector_cases v; rw [h]
@[simp] theorem Dev.vector_keys (d : Dev) (v : Nat) : (d.vector v).keys = d.keys := by
  obtain ⟨o, l, h⟩ := d.vector_cases v; rw [h]

/-- The signal of a detection changes the outputs and the pending vectors alone. -/
theorem Dev.signal_cases (d : Dev) (p : Page) (src : Nat) (was : Bool) (eff : Sev) :
    ∃ o l, d.signal p src was eff = { d with out := o, sys := { d.sys with pend := l } } := by
  unfold Dev.signal
  split
  · exact d.vector_cases _
  · exact ⟨d.out, d.sys.pend, rfl⟩

@[simp] theorem Dev.signal_pages (d : Dev) (p : Page) (src : Nat) (was : Bool) (eff : Sev) : (d.signal p src was eff).pages = d.pages := by
  obtain ⟨o, l, h⟩ := d.signal_cases p src was eff; rw [h]

theorem Dev.signal_hdr (d : Dev) (p q : Page) (src : Nat) (was : Bool) (eff : Sev) : (d.signal p src was eff).hdr q = d.hdr q := by
  simp only [Dev.hdr, Dev.signal_pages]

/-- Carried severities stand beside the rest of a header. -/
theorem Hdr.setCarried_keeps (h : Hdr) (n : Nat) (s : Sev) :
    (h.setCarried n s).raw = h.raw ∧ (h.setCarried n s).state = h.state ∧ (h.setCarried n s).rst = h.rst ∧
      (h.setCarried n s).en = h.en ∧ (h.setCarried n s).commitPending = h.commitPending := by
  unfold Hdr.setCarried; split <;> exact ⟨rfl, rfl, rfl, rfl, rfl⟩

/-- Raising a source sets its raw bit and leaves state, reset, enables and a pending bow. -/
theorem Hdr.raise_keeps (h : Hdr) (n : Nat) (s : Sev) :
    (h.raise n s).raw = putBit n true h.raw ∧ (h.raise n s).state = h.state ∧ (h.raise n s).rst = h.rst ∧
      (h.raise n s).en = h.en ∧ (h.raise n s).commitPending = h.commitPending := by
  unfold Hdr.raise
  generalize (if bit n h.raw && s.code < (h.carried n).code then h.carried n else s) = c
  exact ⟨rfl, (h.setCarried_keeps n c).2.1, (h.setCarried_keeps n c).2.2.1, (h.setCarried_keeps n c).2.2.2.1,
    (h.setCarried_keeps n c).2.2.2.2⟩

/-- A history entry stands beside the rest of a header. -/
theorem Hdr.record_keeps (h : Hdr) (e : HistEntry) :
    (h.record e).raw = h.raw ∧ (h.record e).state = h.state ∧ (h.record e).rst = h.rst ∧ (h.record e).en = h.en ∧
      (h.record e).commitPending = h.commitPending := by
  unfold Hdr.record
  split
  · exact ⟨rfl, rfl, rfl, rfl, rfl⟩
  · split <;> exact ⟨rfl, rfl, rfl, rfl, rfl⟩

/-- Noting a detection replaces the page's header alone: the raw bit is set; state, reset, enables and a pending bow stay. -/
theorem Dev.note_cases (d : Dev) (p : Page) (src unit : Nat) (at_ : Sev) :
    ∃ h eff, d.note p src unit at_ = (d.setHdr p h, eff) ∧ h.raw = putBit src true (d.hdr p).raw ∧ h.state = (d.hdr p).state ∧
      h.rst = (d.hdr p).rst ∧ h.en = (d.hdr p).en ∧ h.commitPending = (d.hdr p).commitPending := by
  have hc : ∀ (x : Hdr) (b : Prop) [Decidable b] (u n : Nat), (if b then x.count u n else x).raw = x.raw ∧
      (if b then x.count u n else x).state = x.state ∧ (if b then x.count u n else x).rst = x.rst ∧
      (if b then x.count u n else x).en = x.en ∧ (if b then x.count u n else x).commitPending = x.commitPending := by
    intro x b _ u n; split <;> exact ⟨rfl, rfl, rfl, rfl, rfl⟩
  unfold Dev.note
  dsimp only
  generalize hx : (if at_ = .transient then (d.hdr p).count (countUnit (kindOf p) src unit) d.nowNs else d.hdr p) = x
  generalize (if (decide (at_ = .transient) && decide (x.limit < x.countOf (countUnit (kindOf p) src unit))) = true
    then Sev.permanent else at_) = eff
  have h0 := hc (d.hdr p) (at_ = .transient) (countUnit (kindOf p) src unit) d.nowNs
  rw [hx] at h0
  refine ⟨_, eff, rfl, ?_⟩
  have h1 := (x.record { timeUs := (d.timeNs / 1000 % (2 ^ 23 : Nat)).toNat, sev := eff, source := src, lost := false }).raise_keeps src eff
  have h2 := x.record_keeps { timeUs := (d.timeNs / 1000 % (2 ^ 23 : Nat)).toNat, sev := eff, source := src, lost := false }
  exact ⟨by rw [h1.1, h2.1, h0.1], by rw [h1.2.1, h2.2.1, h0.2.1], by rw [h1.2.2.1, h2.2.2.1, h0.2.2.1],
    by rw [h1.2.2.2.1, h2.2.2.2.1, h0.2.2.2.1], by rw [h1.2.2.2.2, h2.2.2.2.2, h0.2.2.2.2]⟩

/-- A detection of a source without an action and without a reset: the page's header with the raw bit set, its state, reset,
enables and a pending bow as they were, and a message perhaps; nothing else. -/
theorem Dev.detectUnit_plain (d : Dev) (p : Page) (src unit : Nat) (hk : kindOf p ≠ .dir)
    (ha : (evDesc (kindOf p) src).act = .none) (hh : (evDesc (kindOf p) src).hang = false) :
    ∃ h o l, d.detectUnit p src unit = { d.setHdr p h with out := o, sys := { d.sys with pend := l } } ∧
      h.raw = putBit src true (d.hdr p).raw ∧ h.state = (d.hdr p).state ∧ h.rst = (d.hdr p).rst ∧ h.en = (d.hdr p).en ∧
      h.commitPending = (d.hdr p).commitPending := by
  obtain ⟨h, eff, hn, hr⟩ := d.note_cases p src unit ((d.hdr p).sev src)
  have hp : ∀ x : Dev, x.permanent p src (some unit) false = x := by intro x; simp only [Dev.permanent, ha]
  have hd : d.detectUnit p src unit = (d.setHdr p h).signal p src (bit src (d.hdr p).raw) eff := by
    simp only [Dev.detectUnit, Dev.detectAt, hk, Bool.false_and, Bool.false_eq_true, if_false, Option.getD_some, hn, hp, hh,
      Bool.and_false, ite_self]
  obtain ⟨o, l, hs⟩ := (d.setHdr p h).signal_cases p src (bit src (d.hdr p).raw) eff
  exact ⟨h, o, l, by rw [hd, hs]; rfl, hr⟩

/-- Every detection outside DIR of a source without an action raises it. -/
theorem Dev.detect_raises (d : Dev) (p : Page) (src : Nat) (hs : src < 32) (hk : kindOf p ≠ .dir)
    (ha : (evDesc (kindOf p) src).act = .none) (hh : (evDesc (kindOf p) src).hang = false) :
    bit src ((d.detect p src).hdr p).raw = true := by
  obtain ⟨h, o, l, he, hr, -⟩ := d.detectUnit_plain p src 0 hk ha hh
  have : (d.detect p src).hdr p = h := by rw [Dev.detect, he]; exact Dev.hdr_setHdr_same d p h
  rw [this, hr, bit_putBit_same src true _ hs]

end Sys2Proof.Machine
end

