-- ==== Sys2Proof/Laws/Memory.lean ====
section
/-! SUPPORT. The memories keep their canonical form under every operation that stores in them, and the reset state has it; a byte
of stage SRAM or host memory reads back, and no other byte changes. -/

namespace Sys2Proof.Machine

theorem State.reset_ram_wf : State.reset.dev.ram.wf = true := rfl

theorem Ram.wf_parts {r : Ram} (h : r.wf = true) :
    SMap.wf unwritten r.dram = true ∧ SMap.wf unwritten r.sys = true ∧ SMap.wf unwritten r.flash = true := by
  simp only [Bool.and_eq_true] at h; exact ⟨h.1.1, h.1.2, h.2⟩

theorem Ram.wf_of_parts {r : Ram} (h1 : SMap.wf unwritten r.dram = true) (h2 : SMap.wf unwritten r.sys = true)
    (h3 : SMap.wf unwritten r.flash = true) : r.wf = true := by
  simp only [Bool.and_eq_true]; exact ⟨⟨h1, h2⟩, h3⟩

theorem Dev.setCell_wf (d : Dev) (g m off : Nat) (b : Byte) (h : d.ram.wf = true) : (d.setCell g m off b).ram.wf = true :=
  Ram.wf_of_parts (SMap.wf_set _ _ _ _ (Ram.wf_parts h).1) (Ram.wf_parts h).2.1 (Ram.wf_parts h).2.2

theorem Dev.setSysByte_wf (d : Dev) (a : Nat) (b : Byte) (h : d.ram.wf = true) : (d.setSysByte a b).ram.wf = true :=
  Ram.wf_of_parts (Ram.wf_parts h).1 (SMap.wf_set _ _ _ _ (Ram.wf_parts h).2.1) (Ram.wf_parts h).2.2

theorem Dev.setDramByte_wf (d : Dev) (a : Nat) (b : Byte) (h : d.ram.wf = true) : (d.setDramByte a b).ram.wf = true := by
  unfold Dev.setDramByte
  dsimp only
  split
  · split
    · exact Dev.setCell_wf _ _ _ _ _ (Dev.setCell_wf _ _ _ _ _ h)
    · split
      · exact Dev.setCell_wf _ _ _ _ _ (Dev.setCell_wf _ _ _ _ _ h)
      · exact Dev.setCell_wf _ _ _ _ _ h
  · split
    · split
      · exact Dev.setCell_wf _ _ _ _ _ (Dev.setCell_wf _ _ _ _ _ h)
      · exact Dev.setCell_wf _ _ _ _ _ h
    · exact h

theorem Dev.setPhysByte_wf (d : Dev) (a : Nat) (b : Byte) (h : d.ram.wf = true) : (d.setPhysByte a b).ram.wf = true := by
  unfold Dev.setPhysByte
  split
  · exact Dev.setDramByte_wf d a b h
  · exact Dev.setSysByte_wf d a b h
  · exact Dev.setSysByte_wf d a b h
  · exact h

theorem Dev.putBytes_wf (bs : List Byte) : ∀ (d : Dev) (a : Nat), d.ram.wf = true → (d.putBytes a bs).ram.wf = true := by
  induction bs with
  | nil => exact fun d a h => h
  | cons b bs ih => exact fun d a h => ih _ _ (Dev.setPhysByte_wf d a b h)

theorem Dev.putFlash_wf (bs : List Byte) : ∀ (d : Dev) (o : Nat), d.ram.wf = true → (d.putFlash o bs).ram.wf = true := by
  induction bs with
  | nil => exact fun d o h => h
  | cons b bs ih =>
    exact fun d o h => ih _ _ (Ram.wf_of_parts (Ram.wf_parts h).1 (Ram.wf_parts h).2.1 (SMap.wf_set _ _ _ _ (Ram.wf_parts h).2.2))

/-- A fold of stores into cells keeps the form: a rebuild and a scrub are such folds. -/
theorem Dev.fold_wf {α : Type} (f : Dev → α → Dev) (hf : ∀ d x, d.ram.wf = true → (f d x).ram.wf = true) (l : List α) :
    ∀ d : Dev, d.ram.wf = true → (l.foldl f d).ram.wf = true := by
  induction l with
  | nil => exact fun d h => h
  | cons x l ih => exact fun d h => ih _ (hf d x h)

theorem Dev.recompute_wf (d : Dev) (g m : Nat) (h : d.ram.wf = true) : (d.recompute g m).ram.wf = true :=
  Dev.fold_wf _ (fun d _ h => Dev.setCell_wf d _ _ _ _ h) _ d h

/-- A row noted for merging leaves memory as it was. -/
theorem Dev.noteRow_ram (d : Dev) (g n : Nat) (u : BitVec 8) : (d.noteRow g n u).ram = d.ram := by
  unfold Dev.noteRow
  dsimp only
  split <;> split_ifs <;> simp

theorem Dev.noteRows_ram (d : Dev) (a len : Nat) : (d.noteRows a len).ram = d.ram := by
  unfold Dev.noteRows
  split
  · rfl
  · generalize List.range ((a + len - 1) / 512 - a / 512 + 1) = l
    induction l generalizing d with
    | nil => rfl
    | cons x l ih =>
      rw [List.foldl_cons]
      refine (ih _).trans ?_
      exact Dev.noteRow_ram _ _ _ _

/-- A byte of stage SRAM or host memory. -/
theorem Dev.physByte_sys (d : Dev) (a : Nat) (h : targetOf a = .sram ∨ targetOf a = .host) : d.physByte a = some (d.sysByte a) := by
  unfold Dev.physByte; obtain h | h := h <;> rw [h]

theorem Dev.setPhysByte_sys (d : Dev) (a : Nat) (b : Byte) (h : targetOf a = .sram ∨ targetOf a = .host) :
    d.setPhysByte a b = d.setSysByte a b := by
  unfold Dev.setPhysByte; obtain h | h := h <;> rw [h]

theorem Dev.sysByte_back (d : Dev) (a : Nat) (b : Byte) (h : targetOf a = .sram ∨ targetOf a = .host) :
    (d.setPhysByte a b).physByte a = some b := by
  rw [Dev.setPhysByte_sys d a b h, Dev.physByte_sys _ a h, Dev.sysByte_setSysByte_same]

end Sys2Proof.Machine
end

