-- ==== Sys2Proof/Laws/Step.lean ====
section
/-! SUPPORT. What the operations on the whole block leave as it was: the waiting commands, and the tag accounts. Every command is
a change of the device alone (State.on), one that may ask for effects on the whole block (State.onBus), or one of the
operations below. -/

namespace Sys2Proof.Machine

/-- A fold of operations that each keep a property keeps it. -/
theorem foldl_keeps {α β : Type} (P : α → Prop) (f : α → β → α) (hf : ∀ a b, P a → P (f a b)) (l : List β) :
    ∀ a, P a → P (l.foldl f a) := by
  induction l with
  | nil => exact fun a h => h
  | cons x l ih => exact fun a h => ih _ (hf a x h)

/-! ## The waiting commands -/

@[simp] theorem State.showTags_pending (s : State) : s.showTags.pending = s.pending := rfl
@[simp] theorem State.showParts_pending (s : State) : s.showParts.pending = s.pending := rfl

@[simp] theorem State.takeTag_pending (s : State) (q : FabReq) : (s.takeTag q).pending = s.pending := by
  unfold State.takeTag; dsimp only; split <;> rfl

@[simp] theorem State.tryTag_pending (s : State) (q : FabReq) : (s.tryTag q).pending = s.pending := by
  unfold State.tryTag; split
  · exact State.takeTag_pending s q
  · rfl

@[simp] theorem State.serveWaiters_pending (s : State) : s.serveWaiters.pending = s.pending := by
  unfold State.serveWaiters
  refine foldl_keeps (fun x => x.pending = s.pending) State.tryTag (fun a b h => (State.tryTag_pending a b).trans h) _ _ ?_
  rfl

@[simp] theorem State.tagBack_pending (s : State) (w : Requester) : (s.tagBack w).pending = s.pending := by
  unfold State.tagBack; split
  · rw [State.serveWaiters_pending]; rfl
  · rfl

@[simp] theorem State.sharedWrite_pending (s : State) (v : Word) : (s.sharedWrite v).pending = s.pending := by
  unfold State.sharedWrite; dsimp only; split
  · rw [State.serveWaiters_pending]; rfl
  · rfl

@[simp] theorem State.warm_pending (s : State) (c : Nat) : (s.warm c).pending = s.pending := by
  unfold State.warm; split <;> rfl

@[simp] theorem State.unlock_pending (s : State) (x : Option (List Byte)) : (s.unlock x).pending = s.pending := by
  unfold State.unlock; dsimp only; split
  · rw [State.warm_pending]
  · rfl

@[simp] theorem State.resetCtrl_pending (s : State) (v : Word) : (s.resetCtrl v).pending = s.pending := by
  unfold State.resetCtrl; split
  · exact State.warm_pending s 2
  · rfl

@[simp] theorem State.grant_pending (s : State) (a : Ask) : (s.grant a).pending = s.pending := by
  cases a with
  | part w v => rfl
  | shared v => exact State.sharedWrite_pending s v
  | reset v => exact State.resetCtrl_pending s v
  | unlock => exact State.unlock_pending s none
  | regs pa bs => rfl

@[simp] theorem State.drain_pending (s : State) : s.drain.pending = s.pending := by
  unfold State.drain
  refine foldl_keeps (fun x => x.pending = s.pending) State.grant (fun a b h => (State.grant_pending a b).trans h) _ _ ?_
  rfl

@[simp] theorem State.settle_pending (s : State) : s.settle.pending = s.pending := by
  unfold State.settle; rw [State.drain_pending, State.drain_pending]

/-- A change of the device alone answers a next state with the queue and the tags as they were. -/
theorem State.on_next (s : State) (f : Dev → Dev) : s.on f = .next { s with dev := f s.dev } := rfl

/-- A change of the device that may ask for more answers a next state with the queue as it was. -/
theorem State.onBus_next (s : State) (f : Dev → Dev) : ∃ t, s.onBus f = .next t ∧ t.pending = s.pending :=
  ⟨_, rfl, State.settle_pending _⟩

/-! ## The tag accounts -/

theorem Fabric.reset_wf : Fabric.reset.wf := by decide

theorem State.tryTag_wf (s : State) (q : FabReq) (h : s.tags.wf) : (s.tryTag q).tags.wf := by
  unfold State.tryTag
  split
  · next hc =>
    have hl : s.tags.flight.length < maxTags := by
      simp only [Fabric.free, Bool.and_eq_true, decide_eq_true_eq] at hc; exact hc.1.2
    have ht : (s.takeTag q).tags = { s.tags with flight := q.who :: s.tags.flight } := by
      unfold State.takeTag; dsimp only; split <;> rfl
    rw [ht]
    exact ⟨h.1, by simp only [List.length_cons]; omega⟩
  · exact h

theorem State.serveWaiters_wf (s : State) (h : s.tags.wf) : s.serveWaiters.tags.wf :=
  foldl_keeps (fun x : State => x.tags.wf) State.tryTag (fun a b h => State.tryTag_wf a b h) _ _ h

theorem State.tagBack_wf (s : State) (w : Requester) (h : s.tags.wf) : (s.tagBack w).tags.wf := by
  unfold State.tagBack; split
  · refine State.serveWaiters_wf _ ⟨h.1, ?_⟩
    exact le_trans (List.length_erase_le) h.2
  · exact h

theorem State.partWrite_wf (s : State) (n : Nat) (v : Word) (h : s.tags.wf) : (s.partWrite n v).tags.wf := by
  have : (s.partWrite n v).tags = s.tags.partWrite n v := rfl
  rw [this]; unfold Fabric.partWrite; split_ifs <;> exact h

theorem State.sharedWrite_wf (s : State) (v : Word) (h : s.tags.wf) : (s.sharedWrite v).tags.wf := by
  unfold State.sharedWrite; dsimp only; split
  · next hp => exact State.serveWaiters_wf _ ⟨hp, h.2⟩
  · exact h

theorem State.warm_wf (s : State) (c : Nat) (h : s.tags.wf) : (s.warm c).tags.wf := by
  unfold State.warm; split
  · exact h
  · exact Fabric.reset_wf

theorem State.unlock_wf (s : State) (x : Option (List Byte)) (h : s.tags.wf) : (s.unlock x).tags.wf := by
  unfold State.unlock; dsimp only; split
  · exact State.warm_wf _ 4 h
  · exact h

theorem State.grant_wf (s : State) (a : Ask) (h : s.tags.wf) : (s.grant a).tags.wf := by
  cases a with
  | part w v => exact State.partWrite_wf s w v h
  | shared v => exact State.sharedWrite_wf s v h
  | reset v => unfold State.grant State.resetCtrl; dsimp only; split
               · exact State.warm_wf s 2 h
               · exact h
  | unlock => exact State.unlock_wf s none h
  | regs pa bs => exact h

theorem State.settle_wf (s : State) (h : s.tags.wf) : s.settle.tags.wf :=
  foldl_keeps (fun x : State => x.tags.wf) State.grant State.grant_wf _ _
    (foldl_keeps (fun x : State => x.tags.wf) State.grant State.grant_wf _ _ h)

end Sys2Proof.Machine
end

