-- ==== Sys2Proof/Laws/Work.lean ====
section
/-! SUPPORT. Items of the rings: a change of an item reads back, and no other item changes; a transition asks for its state and a
finish keeps its result (R94, R97). -/

namespace Sys2Proof.Machine

/-- The item that was found is the changed one; `f` keeps the item's ring and sequence number. -/
theorem Dev.item?_modItem_same (d : Dev) (r q : Nat) (f : Item → Item) (hf : ∀ i, (f i).ring = i.ring ∧ (f i).seq = i.seq) :
    (d.modItem r q f).item? r q = (d.item? r q).map f := by
  simp only [Dev.item?, Dev.modItem]
  induction d.wk.items with
  | nil => rfl
  | cons i l ih =>
    by_cases h : (i.ring == r && i.seq == q) = true
    · have hfi : ((f i).ring == r && (f i).seq == q) = true := by rw [(hf i).1, (hf i).2]; exact h
      simp only [List.map_cons, h, if_true, List.find?_cons, hfi, Option.map_some]
    · rw [List.map_cons, if_neg h, List.find?_cons, List.find?_cons]
      simp only [Bool.not_eq_true] at h
      simp only [h, ih]

/-- Another item stays as it was. -/
theorem Dev.item?_modItem_other (d : Dev) (r q r' q' : Nat) (f : Item → Item) (hf : ∀ i, (f i).ring = i.ring ∧ (f i).seq = i.seq)
    (hne : ¬(r' = r ∧ q' = q)) : (d.modItem r q f).item? r' q' = d.item? r' q' := by
  simp only [Dev.item?, Dev.modItem]
  induction d.wk.items with
  | nil => rfl
  | cons i l ih =>
    by_cases h : (i.ring == r && i.seq == q) = true
    · have hn : (i.ring == r' && i.seq == q') = false := by
        simp only [Bool.and_eq_true, beq_iff_eq] at h
        simp only [Bool.and_eq_false_iff, beq_eq_false_iff_ne, ne_eq]
        by_contra hc
        simp only [not_or, not_not] at hc
        exact hne ⟨hc.1.symm.trans h.1, hc.2.symm.trans h.2⟩
      have hfi : ((f i).ring == r' && (f i).seq == q') = false := by rw [(hf i).1, (hf i).2]; exact hn
      simp only [List.map_cons, h, if_true, List.find?_cons, hfi, hn, ih]
    · rw [List.map_cons, if_neg h, List.find?_cons, List.find?_cons, ih]

/-- A transition is asked for and changes nothing else of the item. -/
theorem Dev.item?_transition (d : Dev) (r q : Nat) (st : LState) :
    (d.transition r q st).item? r q = (d.item? r q).map (fun j => { j with pend := some st }) :=
  d.item?_modItem_same r q _ (fun _ => ⟨rfl, rfl⟩)

/-- A finished item keeps its result and asks for COMPLETED. -/
theorem Dev.item?_finish (d : Dev) (r q : Nat) (x : Result) :
    (d.finish r q x).item? r q = (d.item? r q).map (fun j => { j with result := x, phase := .finishing, pend := some .completed }) := by
  unfold Dev.finish
  rw [Dev.item?_transition, Dev.item?_modItem_same d r q (fun i => { i with result := x, phase := .finishing }) (fun _ => ⟨rfl, rfl⟩),
    Option.map_map]
  rfl

/-- A finish changes the items alone. -/
theorem Dev.finish_keeps (d : Dev) (r q : Nat) (x : Result) :
    (d.finish r q x).pages = d.pages ∧ (d.finish r q x).ram = d.ram ∧ (d.finish r q x).out = d.out ∧
      (d.finish r q x).keys = d.keys ∧ (d.finish r q x).en = d.en ∧ (d.finish r q x).asks = d.asks := by
  simp [Dev.finish, Dev.transition]

end Sys2Proof.Machine
end

