-- ==== Sys2Proof/Tests/Slice0.lean ====
section
/-! SUPPORT. The model's own tests: for each statement with hypotheses states and operands that meet them, an ill-formed term
for each check of WellFormed, and values of the spec. -/

set_option Elab.async false

namespace Sys2Proof.Tests

open Sys2Proof Sys2Proof.Machine

/-! ## Small states -/

/-- Every page READY, the boot over and firmware running. -/
def up : Dev :=
  let d := State.reset.dev
  let d := { d with sys := { d.sys with ccReleased := true, stage := 6, verifyPending := false, bootOk := true, l0 := true } }
  { d with pages := { d.pages with hdrs := (List.range 61).map (fun p => (p, { Hdr.reset p with enable := true, state := .ready })) } }

/-- The running block after a change of its device. -/
def on (f : Dev → Dev) : State := { State.reset with dev := f up }

/-- A page in a state. -/
def pageIn (p : Page) (x : PState) (d : Dev) : Dev := d.modHdr p (fun h => { h with state := x })

/-- A register of a page's block. -/
def regOf (k : PageKind) (off : Nat) : RegDesc := (blockReg k off).getD { off := 0, reset := 0, fields := [], bank := none }

/-- A descriptor from its fields: byte and value. -/
def desc (fs : List (Nat × Nat)) : BitVec 512 := BitVec.ofNat 512 (fs.foldl (fun a f => a + f.2 * 2 ^ (8 * f.1)) 0)

/-- The block holds an item of ring 0 with sequence number 1. -/
def withItem (x : BitVec 512) (f : Item → Item) (d : Dev) : Dev := { d with wk := { d.wk with items := [f (Item.fresh 0 1 x .primary 0)] } }

/-- Fields of a table word, of a register; a header; the parts of the device. -/
def tf (p : Page) (a i hi lo v : Nat) (d : Dev) : Dev := d.setTf p a i hi lo v
def rf (p : Page) (off hi lo v : Nat) (d : Dev) (idx : Nat := 0) : Dev := d.setRf p off hi lo v idx
def hd (p : Page) (f : Hdr → Hdr) (d : Dev) : Dev := d.modHdr p f
def en (f : Energy → Energy) (d : Dev) : Dev := { d with en := f d.en }
def wk (f : Work → Work) (d : Dev) : Dev := { d with wk := f d.wk }
def sy (f : Sys → Sys) (d : Dev) : Dev := { d with sys := f d.sys }
def tu (f : Time → Time) (d : Dev) : Dev := { d with tu := f d.tu }
def dx (f : Dx → Dx) (d : Dev) : Dev := { d with dx := f d.dx }

/-- A ring; a ledger that may be used; a channel that runs item 1 of ring 0. -/
def rg (f : Ring → Ring) (d : Dev) : Dev := d.modRing 0 f
def ledger (d : Dev) : Dev := (d.setRf Pg.dx Reg.DX_LEDGER_CFG 10 0 5).setRf Pg.dx Reg.DX_LEDGER_STAT 0 0 1
def onChan (x : BitVec 512) (f : Chan → Chan) (d : Dev) : Dev :=
  let d := withItem x (fun i => { i with phase := .running, recorded := .started, inst := some 0 }) d
  { d with dx := { d.dx with chans := [(0, f { Chan.reset with seq := some 1 })] } }
/-- A COPY of 16 bytes in stage SRAM, and a FILL of as many. -/
def copyDesc : BitVec 512 := desc [(8, 1), (13, 0xFF), (24, 0x4000000000), (32, 0x4000001000), (40, 16)]
def fillDesc : BitVec 512 := desc [(8, 1), (9, 1), (13, 0xFF), (32, 0x4000001000), (40, 16), (60, 0x04030201)]
/-- PERIPH_IN from line 0 and PERIPH_OUT to line 3. -/
def inDesc : BitVec 512 := desc [(8, 1), (9, 2), (13, 0xFF), (32, 0x4000001000), (40, 16), (57, 10)]
def outDesc : BitVec 512 := desc [(8, 1), (9, 3), (13, 0xFF), (24, 0x4000000000), (40, 16), (57, 10)]

/-- Every member of every group trained and active. -/
def dram (d : Dev) : Dev :=
  { d with grps := (List.range 4).map (fun g => (g, { Grp.reset with mem := (List.range 9).map (fun m => (m, { Mem1.reset with state := .active, trained := true })) })) }
def gp (f : Grp → Grp) (d : Dev) : Dev := d.setGrp 0 (f (d.grp 0))
def qm (f : Qm → Qm) (d : Dev) : Dev := { d with qm := f d.qm }
def tm (f : Tm → Tm) (d : Dev) : Dev := { d with tm := f d.tm }
def px (f : Px → Px) (d : Dev) : Dev := { d with px := f d.px }
/-- A frame body, a plain header, a packet of body 0. -/
def body0 : Body := { source := 16, cells := [0], data := [1, 2], done := true, err := false, refs := 0, walking := false, inReserve := true, dropped := false, classified := false }
def hdr0 : FrameHdr := { tagged := false, vid := 0, pcp := 0, dei := false, dstMac := none, srcMac := none, ip := 0, ttl := 0, rtp := none }
def pkt0 : Pkt := { body := 0, header := none, len := 2, hdr := hdr0, yellow := false, ver := none, nh := 0, assured := none, leg := none, link := 0, source := 16, stamp := 0, admitted := 0, held := false }
/-- Body 0 stands in queue 5. -/
def queued (f : Body → Body) : Dev → Dev := qm (fun q => { q with bodies := [(0, some (f { body0 with classified := true, refs := 1 }))], queues := [(5, [pkt0])], nextBody := 1 })
/-- Body 0 has arrived from source 16 and waits for PX. -/
def arrived : Dev → Dev := qm (fun q => { q with bodies := [(0, some body0)], rx := [(16, some 0)], nextBody := 1 })
/-- A frame of source 16. -/
def frame0 : RxFrame :=
  { source := 16, length := 100, parseError := false, tagged := false, vid := 0, pcp := 0, dei := false, dmac := 0, ip := 4, dscp := 0, ttl := 9, dst := 0x0A000001, leg := none, rtcp := false, wantsKey := none, srtpOk := true, srtcpIndex := 0, ssrc := 0, audio := false, seq := 0, timestamp := 0, tid := 0, ptype := 0, marker := false, badPacket := false, nonref := false, payload := [], badFcs := false, stamp256 := 0, clock := 0, level := none, latency := 0, cmp := .equal, ptp := false }
/-- A wire item in TM. -/
def wireDesc : BitVec 512 := desc [(8, 7), (13, 0xFF), (24, 0x4000000000), (40, 16), (44, 16)]
def wire0 : WireTx := ⟨0, 1, 16, hdr0, [1, 2]⟩

/-- A burst of radio 0 with nothing in it; a walk of body 0. -/
def burst0 : Burst := { kind := .caller, to_ := 0, start := 0, durNs := 1000, mcs := 0, streams := 1, chan := 0, eirp := 0, frames := [], payload := [], blocks := 1, block := 0, chains := 1, dead := false }
def walk0 : PxWalk := { body := 0, source := 0, enc := 0, rtp := ⟨0, 0, 0, 0⟩, len := 100, tid := 0, ptype := 0, marked := false, newPic := false, next := true, late := false, node := 0, done := 0, stamp := 0 }

/-- Radio 0; the air controller. -/
def ra (f : RadioX → RadioX) (d : Dev) : Dev := { d with air := { d.air with radios := [(0, f RadioX.reset)] } }
def air (f : Air → Air) (d : Dev) : Dev := { d with air := f d.air }

/-- Context 0 of engine 0: decode, or encode at 16 rows of one frame a second. -/
def decCtx (d : Dev) : Dev := ((d.setTw (pg 0x10) 0 0 1).setTw (pg 0x10) 0 2 0x40000).setTw (pg 0x10) 0 3 0x400040
def encCtx (d : Dev) : Dev := ((((d.setTw (pg 0x10) 0 0 3).setTw (pg 0x10) 0 2 0x40000).setTw (pg 0x10) 0 3 0x20002).setTf (pg 0x10) 1 1 13 8 10).setTf (pg 0x10) 1 1 21 16 40
def job0 (enc : Bool) : VJob := { id := 0, item := none, ctx := 0, encode := enc, skip := false, lowEffort := false, ceil := none, gap := false, src := 0, len := 0, pitch := 0, dst := 0, dstPitch := 0, dstSize := 1000, asid := 0, stamp := 0, forceIrap := false, forceRefresh := false, noEmit := false }
def ve (f : VEng → VEng) (d : Dev) : Dev := { d with ves := [(0, f VEng.reset)] }
def parse0 : ParseResult := { unsupported := false, syntaxErrors := 0, missing := [], poc := 4, tid := 0, ptype := 1, isRef := true, refs := [], dropped := [], output := none, recovered := false, concealedUnits := 0, consumed := 9, codedW := 2, codedH := 2, cropX := 0, cropY := 0, cropW := 2, cropH := 2, profile := 1, level := 90, spsId := 0 }
/-- An item of engine `e` that stands bound at instance 0. -/
def bound (x : BitVec 512) : Dev → Dev := withItem x (fun i => { i with inst := some 0, phase := .bound })
/-- Leg 0 takes a copy of encoding 0 through slot 0 of node 0. -/
def conf (cur : Nat) (d : Dev) : Dev := (((((d.setTf Pg.px 0x10000 0 0 0 1).setTf Pg.px 0x10001 0 8 8 1).setTf Pg.px 0x10001 0 7 0 0x33).setTf Pg.px 0x20000 1 0 0 1).setTf Pg.px 0x100000 0 13 13 1).setTf Pg.px 0x200000 0 7 0 cur

/-- The mixer; cluster 0; compositor 0; an open frame of an empty output. -/
def am (f : Am → Am) (d : Dev) : Dev := { d with am := f d.am }
def ds (f : DsUnit → DsUnit) (d : Dev) : Dev := { d with dss := [(0, f DsUnit.reset)] }
def cp (f : CpUnit → CpUnit) (d : Dev) : Dev := { d with cps := [(0, f CpUnit.reset)] }
def frameOf0 (i : Option (Nat × Nat)) : CpFrame := { out := 0, item := i, cfg := [], layers := [], slot := 0, lateMask := 0, staleMask := 0, openedNs := 0 }
/-- A vendor kernel of one instruction word at the start of stage SRAM, and the entry of cluster 0 that names it. -/
def image : List (Nat × Byte) := [(0x4000000000, 75), (0x4000000001, 68), (0x4000000002, 83), (0x4000000003, 80), (0x4000000004, 1), (0x4000000008, 8), (0x4000000010, 64), (0x4000000014, 64), (0x4000000020, 10), (0x400000003c, 27), (0x400000003d, 186), (0x400000003e, 178), (0x400000003f, 135), (0x4000000040, 1), (0x4000000041, 2), (0x4000000042, 3), (0x4000000043, 4), (0x4000000044, 5), (0x4000000045, 6), (0x4000000046, 7), (0x4000000047, 8)]
def kern0 : DsKernel := { base := 0, codeBytes := 8, constBytes := 0, cls := 0, inMax := 64, outMax := 64, stateBytes := 0, scratch := 0, maxK := 10, entry := 0 }
def dsj : DsJob := { item := none, audio := none, entry := 0, src := 0, len := 0, dst := 0, stateVa := 0, arg0 := 0, arg1 := 0, ctx := 0, asid := 0, deadline := none, gen := 0, parked := false, uj := 5 }
def lane0 : Lane := { job := dsj, kernel := 0, base := 0x10000, size := 1024, d := Vector.replicate 16 0, ac := Vector.replicate 4 0, held := Vector.replicate 4 none, a := Vector.replicate 16 0, ofs := Vector.replicate 16 0, cbBase := Vector.replicate 8 0, cbLen := Vector.replicate 8 0, bexp := 0, ovf := 0, sat := false, bxEn := false, reps := [], pc := 0, count := 0 }

/-- Lane 0 of cluster 0 has fetched an instruction word; the lane after a change. -/
def laneAt (w : Nat) (f : Lane → Lane) : Dev → Dev :=
  ds (fun u => { (u.putAll 0 (bytesLE 8 w)) with kernels := [(0, some { kern0 with codeBytes := 64 })], lanes := [(0, some (f lane0))] })
/-- An instruction word: OP, DD, DA, DB, AC, bits [43:24] and IMM (Table 12.2). -/
def insn (op dd da db ac mid imm : Nat) : Nat := op * 2 ^ 58 + dd * 2 ^ 54 + da * 2 ^ 50 + db * 2 ^ 46 + ac * 2 ^ 44 + mid * 2 ^ 24 + imm
def regs (l : List Nat) (x : Lane) : Lane := { x with d := Vector.ofFn (fun i => word (l.getD i.val 0)) }

/-- A burst received from link 5 and a sensor frame of sensor 3. -/
def link0 : LinkFrame := { ftype := 0, ackReq := false, seq := 0, body := [1, 2], join := none }
def rxb : RxBurst := { radio := 0, headerOk := true, codewords := [], link := 5, kind := 1, streams := 1, snr := [40], startOffset := 0, payload := .frames [link0], cfo := 0, timing := 0, gain := 0, bypass := false, evm := 0 }
def sf (kind : Fin 32) : SensorFrame := { crcOk := true, sensor := 3, kind := kind, wakeLag := 5, syncEnd := 9000000, time := 8000000, seq := 0, hwid := 0x123456, body := [], timing := 0, cfo := 0 }
/-- Every radio is enabled. -/
def radios (d : Dev) : Dev := d.setRf Pg.ac Reg.AC_RADIO_EN 2 0 7
/-- A sent link frame that carries item 1 of ring 0. -/
def airf : AirFrame := { ftype := 0, ackReq := false, seq := 0, hdr := hdr0, body := [1], item := some (0, 1), again := false, pkt := none }

/-- A key slot of a kind that is loaded with a key of nines. -/
def key0 (kind use : Nat) : KeySlot := { state := .loaded, kind := kind, use := use, kekId := 1, fixed := 7, limit := 2 ^ 40, count := 0, loadNum := 2, key := List.replicate 64 9, recs := [] }
/-- Slot 3 holds it. -/
def keyed (k : KeySlot) (d : Dev) : Dev := d.setSlot 3 k
/-- A request of cipher engine 0 on slot 3: 16 bytes of stage SRAM, of them so many of additional data. -/
def ceDesc (op aad : Nat) : BitVec 512 := desc [(8, 6), (9, op), (13, 0xFF), (24, 0x4000000000), (32, 0x4000001000), (40, 16), (44, 3), (48, 0x4000002000), (56, aad)]
def ceRuns (op aad : Nat) : Dev → Dev := withItem (ceDesc op aad) (fun i => { i with inst := some 0, phase := .running, recorded := .started })
def ceBound (op aad : Nat) : Dev → Dev := bound (ceDesc op aad)
/-- An UNWRAP of engine 0 into slot 3. -/
def unwrapDesc : BitVec 512 := desc [(8, 6), (9, 16), (13, 0xFF), (24, 0x4000000000), (40, 112), (44, 3)]
/-- An inline request of leg 0. -/
def inl0 : InlineReq := { leg := 0, encrypt := true, rtcp := false, ssrc := 5, index := 9, authOk := true, bytes := 100, cmp := .equal }
/-- Cipher engine 0 is in SERVICE. -/
def svc : Dev → Dev := rf (pg 0x3A) Reg.CE_LOCK 1 0 0
def sk (f : Sk → Sk) (d : Dev) : Dev := { d with sk := f d.sk }
/-- The command address of the security keeper is the start of stage SRAM. -/
def skAt (d : Dev) : Dev := d.setReg Pg.sk Reg.SK_CMD_ADDR_HI 0x40

/-! ## Helpers of the witnesses -/

/-- The state an outcome goes on in. -/
def stateOf : Host.Outcome State Fault Refusal → State
  | .next t => t
  | _ => State.reset
/-- An outcome goes on. -/
def goesOn : Host.Outcome State Fault Refusal → Bool
  | .next _ => true
  | _ => false
theorem next_of {o : Host.Outcome State Fault Refusal} (h : goesOn o = true) : o = .next (stateOf o) := by
  cases o <;> simp_all [goesOn, stateOf]

/-- A radio serves once its country has a plan, which is a free value (Config.planKnown). -/
theorem radioServes_of (d : Dev) (r : Nat) (hk : ∀ c v, Config.planKnown c v = true)
    (h : (!d.en.tripped && d.radioEn r && (d.hdr Pg.ac).state.serves && (d.hdr (rbPage r)).state.serves &&
      (d.hdr Pg.cv).state.serves && !(d.radio r).offAir) = true) : d.radioServes r = true := by
  simp only [Dev.radioServes, Dev.planKnown, hk, Bool.and_true]; exact h

/-- No plan channel carries the hopping flag; channel 1 and every other carries it. -/
theorem hops_no (d : Dev) (r : Nat) (hc : ∀ c v r i, Config.planChan c v r i = none) : d.hops r = false := by
  simp [Dev.hops, Dev.hopFlags, Dev.planChan, hc]
theorem hops_yes (d : Dev) (r : Nat) (hc : ∀ c v r i, Config.planChan c v r i = some (9700, 0, 40, true, 400)) : d.hops r = true := by
  simp [Dev.hops, Dev.hopFlags, Dev.planChan, hc]
theorem dwellLimit_of (d : Dev) (r c : Nat) (hc : ∀ c v r i, Config.planChan c v r i = some (9700, 0, 40, true, 400)) :
    d.dwellLimit r c = min (d.rf Pg.ac Reg.AC_DWELL_LIMIT 15 0) 400 * 1000000 := by
  simp [Dev.dwellLimit, Dev.planChan, hc, Nat.min_comm]
/-- With no entry of TM written, no port has an enabled queue. -/
theorem portQueues_none (d : Dev) (h : d.pages.tbl.all (fun x => x.1 / 4 / 2 ^ 24 != Pg.tm.val) = true) :
    ∀ p l, d.portQueues p l = [] := by
  intro p l
  simp only [Dev.portQueues, List.filterMap_eq_nil_iff]
  intro x hx
  have h2 := List.all_eq_true.mp h x hx
  have h3 : decide (x.1 / 4 / 2 ^ 24 = Pg.tm.val) = false := decide_eq_false (by simpa only [bne_iff_ne, ne_eq] using h2)
  simp only [h3, Bool.false_and, Bool.false_eq_true, ↓reduceIte]

/-! ## Witnesses -/

/-- States and operands that meet the hypotheses of Obligations.EmptyQueueIdles, clause by clause. -/
theorem witness_EmptyQueueIdles :
    ∃ (s : State), s.pending = [] :=
  ⟨on id, by decide +kernel⟩

/-- States and operands that meet the hypotheses of Obligations.EveryStepKeepsTheTagAccounts, clause by clause. -/
theorem witness_EveryStepKeepsTheTagAccounts :
    ∃ (s : State) (t : State), step s = .next t ∧ s.Inv :=
  ⟨State.reset.push (.fabricRequest (.dma 3) 0 false), stateOf (step (State.reset.push (.fabricRequest (.dma 3) 0 false))), (next_of (by decide +kernel)), by decide +kernel⟩

/-- States and operands that meet the hypotheses of Obligations.RegisterAccesses, clause by clause. -/
theorem witness_RegisterAccesses :
    (∃ (s : State) (p : Page) (off : Nat), s.busFree ∧ s.dev.pageHeld p = false ∧ (((p = Pg.dir ∧ off = 0x38) ∨ ((kindOf p).hasCommit = true ∧ (off = 0x100 ∨ off = 0x104))))) ∧
    (∃ (s : State) (be : BitVec 4), s.busFree ∧ be ≠ 0xF) ∧
    (∃ (s : State) (p : Page) (off : Nat) (r : RegDesc), s.busFree ∧ s.dev.pageHeld p = false ∧ blockReg (kindOf p) off = some r ∧ latchedBy (kindOf p) off ≠ []) ∧
    (∃ (s : State) (p : Page) (off : Nat) (r : RegDesc), s.busFree ∧ s.dev.pageHeld p = false ∧ blockReg (kindOf p) off = some r ∧ hasAcc r .rws = true) ∧
    (∃ (s : State), s.busFree ∧ s.dev.pageHeld Pg.hb = false) ∧
    (∃ (s : State) (p : Page) (off : Nat) (r : RegDesc), s.busFree ∧ s.dev.pageHeld p = false ∧ blockReg (kindOf p) off = some r ∧ hasAcc r .rc = true ∧ popOf p off = none) ∧
    (∃ (s : State) (p : Page) (off : Nat) (r : RegDesc), s.busFree ∧ s.dev.pageHeld p = false ∧ s.dev.psFull = false ∧ blockReg (kindOf p) off = some r ∧ hasAcc r .rwp = true ∧ recordOff (kindOf p) ≠ some off ∧ ¬(p = Pg.sk ∧ off = Reg.SK_DEBUG_LOCK) ∧ ¬(p = Pg.ac ∧ off = Reg.AC_COUNTRY)) :=
  ⟨⟨on id, pg 0x10, 0x100, by decide +kernel⟩,
    ⟨on id, 3, by decide +kernel⟩,
    ⟨on id, Pg.tu, Reg.TU_RAW_LO, regOf .tu Reg.TU_RAW_LO, by decide +kernel⟩,
    ⟨on (hd Pg.ac (fun h => { h with commitPending := true })), Pg.ac, Reg.AC_SPAN_A, regOf .ac Reg.AC_SPAN_A, by decide +kernel⟩,
    ⟨on id, by decide +kernel⟩,
    ⟨on (fun d => d.setReg Pg.fb 0x118 9), Pg.fb, 0x118, regOf .fb 0x118, by decide +kernel⟩,
    ⟨on id, Pg.tu, Reg.TU_REF_SEL, regOf .tu Reg.TU_REF_SEL, by decide +kernel⟩⟩

/-- States and operands that meet the hypotheses of Obligations.FieldsAreStoredByTheirRules, clause by clause. -/
theorem witness_FieldsAreStoredByTheirRules :
    (∃ (a : Nat) (b : Nat), a ≤ b) ∧
    (∃ (k : PageKind) (r : RegDesc) (f : Field) (accept : Acc → Bool), r ∈ blockRegs k ∧ f ∈ r.fields ∧ accept f.acc = true ∧ f.rule = .any) ∧
    (∃ (k : PageKind) (r : RegDesc) (f : Field) (accept : Acc → Bool), r ∈ blockRegs k ∧ f ∈ r.fields ∧ accept f.acc = false ∧ f.acc ≠ .w1c) :=
  ⟨⟨1, 3, by decide +kernel⟩,
    ⟨.sk, regOf .sk 260, (regOf .sk 260).fields.head (by decide +kernel), fun a => a == .rw, by decide +kernel⟩,
    ⟨.sk, regOf .sk 260, (regOf .sk 260).fields.head (by decide +kernel), fun a => a == .ro, by decide +kernel⟩⟩

/-- States and operands that meet the hypotheses of Obligations.PageIdIsHardWired, clause by clause. -/
theorem witness_PageIdIsHardWired :
    ∃ (p : Page), p ≠ Pg.dir :=
  ⟨Pg.cc, by decide +kernel⟩

/-- States and operands that meet the hypotheses of Obligations.MissingRegistersReadZero, clause by clause. -/
theorem witness_MissingRegistersReadZero :
    (∃ (d : Dev) (p : Page) (off : Nat), isMfg (kindOf p) off = true ∧ off % 4 = 0 ∧ d.lifecycle ≠ 0) ∧
    (∃ (d : Dev) (p : Page) (off : Nat), isMfg (kindOf p) off = true ∧ off % 4 = 0 ∧ d.lifecycle = 0) ∧
    (∃ (off : Nat), isHole off = true ∧ off % 4 = 0) :=
  ⟨⟨up, Pg.cc, 0x300, by decide +kernel⟩,
    ⟨rf Pg.sk Reg.SK_LIFECYCLE 1 0 0 up, Pg.dx, 0x314, by decide +kernel⟩,
    ⟨0x10F0, by decide +kernel⟩⟩

/-- States and operands that meet the hypotheses of Obligations.PageLife, clause by clause. -/
theorem witness_PageLife :
    (∃ (s : State) (p : Page), kindOf p ≠ .dir ∧ (s.dev.hdr p).state = .off ∧ (s.dev.hdr p).rst = false ∧ s.dev.mayLeaveOff p = true) ∧
    (∃ (s : State) (p : Page), kindOf p ≠ .sk ∧ kindOf p ≠ .dp ∧ kindOf p ≠ .mc ∧ kindOf p ≠ .ds ∧ kindOf p ≠ .ac ∧ kindOf p ≠ .cv ∧ (s.dev.hdr p).state = .starting ∧ (s.dev.hdr p).rst = false ∧ s.dev.tu.refPresent = true ∧ s.dev.sys.stage = 6) ∧
    (∃ (s : State) (p : Page), s.dev.enableIgnored p = false ∧ (((s.dev.hdr p).state = .starting ∨ (s.dev.hdr p).state = .ready ∨ (s.dev.hdr p).state = .running))) ∧
    (∃ (s : State) (p : Page) (mode : BitVec 2), s.dev.enableIgnored p = false ∧ 2 ≤ mode.toNat ∧ (s.dev.hdr p).drainReturn = false) ∧
    (∃ (s : State) (p : Page), (s.dev.hdr p).state = .draining ∧ (s.dev.hdr p).inflight = 0 ∧ kindOf p ≠ .ep ∧ kindOf p ≠ .mg) ∧
    (∃ (s : State) (p : Page), (s.dev.hdr p).state = .draining ∧ (s.dev.hdr p).inflight = 0 ∧ kindOf p = .ep) ∧
    (∃ (s : State), (s.dev.hdr Pg.mg).state = .draining ∧ (s.dev.hdr Pg.mg).inflight = 0) ∧
    (∃ (s : State) (p : Page), kindOf p ≠ .dir ∧ (s.dev.hdr p).state ≠ .sitOut ∧ (s.dev.hdr p).rst = false) ∧
    (∃ (s : State) (p : Page), (s.dev.hdr p).rst = true ∧ (s.dev.hdr p).state ≠ .sitOut) ∧
    (∃ (s : State) (p : Page), s.dev.fwRuns = true ∧ (s.dev.hdr p).state = .faulted ∧ (s.dev.hdr p).rst = false ∧ kindOf p ≠ .dir ∧ kindOf p ≠ .sk ∧ kindOf p ≠ .cc) ∧
    (∃ (s : State) (p : Page), (s.dev.hdr p).state = .starting ∧ s.dev.sys.stage = 6) :=
  ⟨⟨on (pageIn (pg 0x10) .off), pg 0x10, by decide +kernel⟩,
    ⟨on (pageIn (pg 0x10) .starting), pg 0x10, by decide +kernel⟩,
    ⟨on id, pg 0x10, by decide +kernel⟩,
    ⟨on id, pg 0x10, 2, by decide +kernel⟩,
    ⟨on (pageIn (pg 0x10) .draining), pg 0x10, by decide +kernel⟩,
    ⟨on (pageIn (pg 0x30) .draining), pg 0x30, by decide +kernel⟩,
    ⟨on (pageIn Pg.mg .draining), by decide +kernel⟩,
    ⟨on id, pg 0x10, by decide +kernel⟩,
    ⟨on (fun d => d.modHdr (pg 0x10) (fun h => { h with rst := true })), pg 0x10, by decide +kernel⟩,
    ⟨on (pageIn (pg 0x10) .faulted), pg 0x10, by decide +kernel⟩,
    ⟨on (pageIn (pg 0x10) .starting), pg 0x10, by decide +kernel⟩⟩

/-- States and operands that meet the hypotheses of Obligations.Bows, clause by clause. -/
theorem witness_Bows :
    (∃ (s : State) (p : Page) (at_ : BitVec 2), (kindOf p).hasCommit = true ∧ at_ ≠ 0 ∧ s.dev.commitCause p at_.toNat = none ∧ (((s.dev.modHdr p (fun h => { h with commitAt := at_ })).validate p).2 = true)) ∧
    (∃ (s : State) (p : Page) (at_ : BitVec 2) (c : Nat), (kindOf p).hasCommit = true ∧ s.dev.commitCause p at_.toNat = some c) ∧
    (∃ (p : Page), (kindOf p).hasCommit = false ∧ kindOf p ≠ .dir) ∧
    (∃ (s : State) (p : Page), (s.dev.hdr p).commitPending = true) ∧
    (∃ (s : State) (p : Page), (kindOf p = .ve ∨ kindOf p = .am) ∧ (s.dev.hdr p).commitPending = true ∧ s.dev.atBoundary p = true ∧ (((s.dev.hdr p).bowAt = 2 → (s.dev.commitTime p : Int) ≤ s.dev.timeNs))) :=
  ⟨⟨on id, pg 0x10, 1, by decide +kernel⟩,
    ⟨on (fun d => d.modHdr (pg 0x10) (fun h => { h with commitPending := true })), pg 0x10, 1, ((on (fun d => d.modHdr (pg 0x10) (fun h => { h with commitPending := true }))).dev.commitCause (pg 0x10) 1).getD 99, by decide +kernel⟩,
    ⟨Pg.hb, by decide +kernel⟩,
    ⟨on (fun d => d.modHdr (pg 0x10) (fun h => { h with commitPending := true })), pg 0x10, by decide +kernel⟩,
    ⟨on (fun d => d.modHdr (pg 0x10) (fun h => { h with commitPending := true })), pg 0x10, by decide +kernel⟩⟩

/-- States and operands that meet the hypotheses of Obligations.EventRegisters, clause by clause. -/
theorem witness_EventRegisters :
    (∃ (s : State) (p : Page) (v : Word), kindOf p ≠ .dir ∧ (s.dev.hdr p).raw &&& v &&& (s.dev.hdr p).persists = 0) ∧
    (∃ (s : State) (p : Page) (v : Word) (n : Fin 32), kindOf p ≠ .dir ∧ bit n.val v = true ∧ bit n.val (s.dev.hdr p).raw = true ∧ bit n.val (s.dev.hdr p).persists = true) ∧
    (∃ (p : Page), kindOf p ≠ .dir) ∧
    (∃ (s : State) (p : Page) (v : Word) (n : Fin 32), kindOf p ≠ .dir ∧ bit n.val v = true ∧ bit n.val (s.dev.hdr p).en = false ∧ bit n.val (s.dev.hdr p).raw = true ∧ (s.dev.hdr p).carried n.val ≠ .log ∧ s.dev.sys.l0 = true ∧ s.dev.vectorMasked (p.val - 1) = false) ∧
    (∃ (s : State) (p : Page), kindOf p ≠ .dir ∧ (s.dev.hdr p).state ≠ .sitOut) ∧
    (∃ (s : State) (p : Page), kindOf p ≠ .dir ∧ (s.dev.hdr p).state = .sitOut) ∧
    (∃ (s : State) (p : Page) (e : HistEntry) (es : List HistEntry), (s.dev.hdr p).hist = e :: es) ∧
    (∃ (s : State) (p : Page), (s.dev.hdr p).hist = []) :=
  ⟨⟨on (fun d => d.modHdr (pg 0x10) (fun h => { h with raw := 5 })), pg 0x10, 4, by decide +kernel⟩,
    ⟨on (fun d => d.modHdr (pg 0x10) (fun h => { h with raw := 5, persists := 4 })), pg 0x10, 4, 2, by decide +kernel⟩,
    ⟨pg 0x10, by decide +kernel⟩,
    ⟨on (fun d => { (d.modHdr (pg 0x10) (fun h => { h with raw := 4, carriedLo := 0x10 })) with sys := { d.sys with msix := [(0xFC, 0)] } }), pg 0x10, 4, 2, by decide +kernel⟩,
    ⟨on id, pg 0x10, by decide +kernel⟩,
    ⟨on (pageIn (pg 0x10) .sitOut), pg 0x10, by decide +kernel⟩,
    ⟨on (fun d => d.modHdr (pg 0x10) (fun h => { h with hist := [⟨1, .notice, 2, false⟩] })), pg 0x10, ⟨1, .notice, 2, false⟩, [], by decide +kernel⟩,
    ⟨on id, pg 0x10, by decide +kernel⟩⟩

/-- States and operands that meet the hypotheses of Obligations.PersistentStore, clause by clause. -/
theorem witness_PersistentStore :
    (∃ (s : State) (w : PsWrite) (p : Page) (i : Nat), s.dev.ps.queue = [w] ∧ w.record = false ∧ s.dev.pages.waiting = [] ∧ s.dev.asks = [] ∧ pageOf w.off = some p ∧ kindOf p ≠ .cc ∧ kindOf p ≠ .tu ∧ kindOf p ≠ .ep ∧ wordIndex w.off = some i ∧ (s.dev.psWord i).worn = false ∧ s.dev.wear (s.dev.psWord i).slot < endurance ∧ s.dev.nv w.off ≠ w.v) ∧
    (∃ (s : State) (w : PsWrite) (p : Page) (i : Nat), s.dev.ps.queue = [w] ∧ w.record = false ∧ s.dev.pages.waiting = [] ∧ s.dev.asks = [] ∧ pageOf w.off = some p ∧ wordIndex w.off = some i ∧ (s.dev.psWord i).worn = false ∧ s.dev.nv w.off = w.v) ∧
    (∃ (s : State) (o : Nat) (p : Page), s.dev.ps.lastCommitMs + 60000 ≤ s.dev.nowNs / 1000000 ∧ ((∀ i, i < 160 → s.dev.wear (s.dev.psWord i).slot + 1 < endurance ∧ (s.dev.psWord i).worn = false ∧ (s.dev.psWord i).slot = i)) ∧ o ∈ ropWords ∧ pageOf o = some p) ∧
    (∃ (s : State), s.dev.nowNs / 1000000 < s.dev.ps.lastCommitMs + 60000) :=
  ⟨⟨on (fun d => { d with ps := { d.ps with queue := [⟨0x4104, 9, false⟩] } }), ⟨0x4104, 9, false⟩, Pg.hb, (wordIndex 0x4104).getD 0, by decide +kernel⟩,
    ⟨on (fun d => { d with ps := { d.ps with queue := [⟨0x4104, nvReset 0x4104, false⟩] } }), ⟨0x4104, nvReset 0x4104, false⟩, Pg.hb, (wordIndex 0x4104).getD 0, by decide +kernel⟩,
    ⟨on (fun d => { (d.setReg Pg.cc Reg.CC_WDOG_COUNT 3) with tu := { d.tu with raw := 60000000000 * 2 ^ 32 } }), 0x110C, Pg.cc, by decide +kernel⟩,
    ⟨on id, by decide +kernel⟩⟩

/-- States and operands that meet the hypotheses of Obligations.RetirementRecords, clause by clause. -/
theorem witness_RetirementRecords :
    (∃ (s : State) (p : Page) (b : Fin 9), (recordAt p b.val).isSome = true ∧ kindOf p ≠ .mc ∧ kindOf p ≠ .rb ∧ (s.dev.records p).testBit b.val = true) ∧
    (∃ (s : State) (p : Page), (kindOf p).retiresPage = true ∧ s.dev.unitOut p 0 = false ∧ (s.dev.hdr p).state ≠ .sitOut) ∧
    (∃ (s : State) (p : Page) (b : Fin 9), (recordAt p b.val).isSome = true ∧ kindOf p ≠ .cc ∧ (s.dev.hdr p).requal.getLsbD b.val = true) ∧
    (∃ (s : State) (p : Page) (b : Fin 9), (recordAt p b.val).isSome = true ∧ (s.dev.hdr p).requal.getLsbD b.val = true) ∧
    (∃ (s : State) (p : Page) (b : Fin 9) (off : Nat) (i : Nat) (v : Word), recordAt p b.val = some off ∧ (kindOf p).retiresPage = true ∧ s.dev.ps.queue = [{ off := p.val * 0x1000 + off, v := v, record := true }] ∧ bit b.val v = true ∧ s.dev.pages.waiting = [] ∧ s.dev.asks = [] ∧ wordIndex (p.val * 0x1000 + off) = some i ∧ (s.dev.psWord i).worn = false ∧ s.dev.wear (s.dev.psWord i).slot < endurance ∧ s.dev.nv (p.val * 0x1000 + off) ≠ v) :=
  ⟨⟨on (fun d => d.setReg (pg 0x10) Reg.VE_RETIRE_REC 1), pg 0x10, 0, by decide +kernel⟩,
    ⟨on id, pg 0x10, by decide +kernel⟩,
    ⟨on (fun d => d.modHdr (pg 0x10) (fun h => { h with requal := 1 })), pg 0x10, 0, by decide +kernel⟩,
    ⟨on (fun d => d.modHdr (pg 0x10) (fun h => { h with requal := 1 })), pg 0x10, 0, by decide +kernel⟩,
    ⟨on (fun d => { d with ps := { d.ps with queue := [⟨0x101E0, 1, true⟩] } }), pg 0x10, 0, 0x1E0, (wordIndex 0x101E0).getD 0, 1, by decide +kernel⟩⟩

/-- States and operands that meet the hypotheses of Obligations.FabricTags, clause by clause. -/
theorem witness_FabricTags :
    (∃ (s : State) (who : Requester), s.tags.free who = true ∧ (s.tags.waiters.any (fun w => sameShare w.who who) = false)) ∧
    (∃ (s : State) (who : Requester) (a : BitVec 48), s.tags.free who = true ∧ (s.tags.waiters.any (fun w => sameShare w.who who) = false) ∧ fabricHole who a.toNat = true) ∧
    (∃ (s : State) (who : Requester), s.tags.free who = false) ∧
    (∃ (s : State) (who : Requester), who ∈ s.tags.flight ∧ s.tags.waiters = []) ∧
    (∃ (s : State) (v : Word), (s.tags.proposed v).total = maxTags ∧ s.tags.waiters = []) ∧
    (∃ (s : State) (v : Word), (s.tags.proposed v).total ≠ maxTags) :=
  ⟨⟨State.reset, .dma 3, by decide +kernel⟩,
    ⟨State.reset, .dma 3, 0x3000000000, by decide +kernel⟩,
    ⟨{ State.reset with tags := { Fabric.reset with flight := List.replicate 16384 .cc } }, .dma 3, by decide +kernel⟩,
    ⟨{ State.reset with tags := { Fabric.reset with flight := [.dma 3] } }, .dma 3, by decide +kernel⟩,
    ⟨State.reset, word (Fabric.reset.parts.shared), by decide +kernel⟩,
    ⟨State.reset, 0, by decide +kernel⟩⟩

/-- States and operands that meet the hypotheses of Obligations.HangsResetOrFault, clause by clause. -/
theorem witness_HangsResetOrFault :
    ∃ (s : State) (c : Instr) (p : Page) (src : Nat), (c, p, src) ∈ [(Instr.hbHang, Pg.hb, Evt.HB_HANG), (Instr.fbHang, Pg.fb, Evt.FB_HANG), (Instr.dxHang, Pg.dx, Evt.DX_HANG)] ∧ s.dev.up p = true :=
  ⟨on id, Instr.hbHang, Pg.hb, Evt.HB_HANG, by decide +kernel⟩

/-- States and operands that meet the hypotheses of Obligations.LinkCoreAndHeatDetections, clause by clause. -/
theorem witness_LinkCoreAndHeatDetections :
    (∃ (s : State) (g : Group), (s.dev.grp g.val).held = []) ∧
    (∃ (s : State), s.dev.sys.l0 = true) ∧
    (∃ (s : State) (core : Fin 8), s.dev.unitOut Pg.cc core.val = false) ∧
    (∃ (s : State) (hot : Int), signed 8 (s.dev.rf Pg.cc Reg.CC_TEMP_WARN 7 0) ≤ hot) :=
  ⟨⟨on id, 0, by decide +kernel⟩,
    ⟨on id, by decide +kernel⟩,
    ⟨on id, 0, by decide +kernel⟩,
    ⟨on id, 106, by decide +kernel⟩⟩

/-- States and operands that meet the hypotheses of Obligations.VoltageFollowsPace, clause by clause. -/
theorem witness_VoltageFollowsPace :
    (∃ (p : Page), (kindOf p).selfTimed = true) ∧
    (∃ (p : Page), (kindOf p).selfTimed = true) ∧
    (∃ (s : State) (p : Page) (count : Nat), (kindOf p).hasFloor = true ∧ count < s.dev.floor p ∧ (SMap.get (fun _ => 0) s.dev.en.shortRun p.val = 0)) ∧
    (∃ (s : State) (p : Page) (count : Nat), (kindOf p).hasFloor = true ∧ count < s.dev.floor p ∧ s.dev.en.tripped = false ∧ (0 < SMap.get (fun _ => 0) s.dev.en.shortRun p.val) ∧ s.dev.aimVp p < 7) ∧
    (∃ (s : State) (p : Page) (count : Nat), (kindOf p).hasFloor = true ∧ count < s.dev.floor p ∧ (0 < SMap.get (fun _ => 0) s.dev.en.shortRun p.val) ∧ s.dev.aimVp p = 7 ∧ (s.dev.hdr p).grantedVp = 7 ∧ (SMap.get (fun _ => false) s.dev.en.breach p.val = false)) ∧
    (∃ (s : State) (p : Page) (count : Nat), (kindOf p).hasFloor = true ∧ 0 < s.dev.floor p ∧ s.dev.floor p ≤ count) ∧
    (∃ (p : Page), (kindOf p).selfTimed = true) ∧
    (∃ (s : State) (p : Page) (since : Nat), (SMap.get (fun _ => none) s.dev.en.heldSince p.val = some since) ∧ 0 < s.dev.lift p ∧ since + 100000000 ≤ s.dev.nowNs ∧ (SMap.get (fun _ => false) s.dev.en.liftedSince p.val = false)) ∧
    (∃ (s : State) (p : Page), (SMap.get (fun _ => none) s.dev.en.heldSince p.val = none)) :=
  ⟨⟨pg 0x10, by decide +kernel⟩,
    ⟨pg 0x10, by decide +kernel⟩,
    ⟨on (tf Pg.cc 0x410 0 15 0 5), pg 0x10, 0, by decide +kernel⟩,
    ⟨on (tf Pg.cc 0x410 0 15 0 5 ∘ en (fun e => { e with shortRun := [(0x10, 1)] })), pg 0x10, 0, by decide +kernel⟩,
    ⟨on (tf Pg.cc 0x410 0 15 0 5 ∘ en (fun e => { e with shortRun := [(0x10, 1)] }) ∘ hd (pg 0x10) (fun h => { h with reqVp := 7, grantedVp := 7 })), pg 0x10, 0, by decide +kernel⟩,
    ⟨on (tf Pg.cc 0x410 0 15 0 5 ∘ hd (pg 0x10) (fun h => { h with raw := 1 })), pg 0x10, 5, by decide +kernel⟩,
    ⟨pg 0x10, by decide +kernel⟩,
    ⟨on (tf Pg.cc 0x410 1 2 0 2 ∘ en (fun e => { e with heldSince := [(0x10, some 0)] }) ∘ tu (fun t => { t with raw := 200000000 * 2 ^ 32 })), pg 0x10, 0, by decide +kernel⟩,
    ⟨on id, pg 0x10, by decide +kernel⟩⟩

/-- States and operands that meet the hypotheses of Obligations.PlansAndTemperatures, clause by clause. -/
theorem witness_PlansAndTemperatures :
    (∃ (s : State), s.dev.fwRuns = true ∧ s.dev.rb Pg.cc Reg.CC_FW_CFG 0 = true ∧ s.dev.en.hotForce = false) ∧
    (∃ (s : State), s.dev.rb Pg.cc Reg.CC_FW_CFG 0 = false) ∧
    (∃ (s : State) (hot : Int) (c : Nat), s.dev.fwRuns = true ∧ s.dev.en.hotForce = false ∧ 110 < hot ∧ c < 64 ∧ (s.dev.classLevel c = 2 ∨ s.dev.classLevel c = 3)) :=
  ⟨⟨on (rf Pg.cc Reg.CC_FW_CFG 0 0 1), by decide +kernel⟩,
    ⟨on (rf Pg.cc Reg.CC_FW_CFG 0 0 0), by decide +kernel⟩,
    ⟨on (tf Pg.cc 0x205 0 3 2 2), 111, 5, by decide +kernel⟩⟩

/-- States and operands that meet the hypotheses of Obligations.EnergyLedger, clause by clause. -/
theorem witness_EnergyLedger :
    (∃ (s : State), s.dev.en.descS = none ∧ s.dev.en.descL = none) ∧
    (∃ (s : State) (e : ItemEnergy) (i : Item), s.dev.en.descS = none ∧ s.dev.en.descL = none ∧ s.dev.item? e.ring.val e.seq = some i) ∧
    (∃ (s : State), s.dev.held = []) ∧
    (∃ (s : State), s.dev.held = [] ∧ s.dev.rb Pg.cc Reg.CC_LEDGER_CFG 19 = false ∧ s.dev.en.bShort = s.dev.targetS ∧ s.dev.en.bLong = s.dev.targetL) ∧
    (∃ (s : State) (v : Word), s.dev.held = [] ∧ s.dev.rb Pg.cc Reg.CC_LEDGER_CFG 19 = false ∧ s.dev.en.bShort = s.dev.targetS ∧ s.dev.en.bLong = s.dev.targetL ∧ 1 ≤ fld 7 0 v ∧ fld 7 0 v ≤ 100) ∧
    (∃ (s : State) (v : Word), s.dev.held = [] ∧ s.dev.rb Pg.cc Reg.CC_LEDGER_CFG 19 = true ∧ s.dev.en.bShort = s.dev.targetS ∧ s.dev.en.bLong = s.dev.targetL ∧ 1 ≤ fld 7 0 v ∧ fld 7 0 v ≤ 100) ∧
    (∃ (v : Word), (fld 7 0 v = 0 ∨ 100 < fld 7 0 v)) :=
  ⟨⟨on id, by decide +kernel⟩,
    ⟨on (withItem (desc []) (fun i => { i with reserved := 10 })), ⟨0, 1, 7, []⟩, ((on (withItem (desc []) (fun i => { i with reserved := 10 }))).dev.item? (⟨0, 1, 7, []⟩ : ItemEnergy).ring.val (⟨0, 1, 7, []⟩ : ItemEnergy).seq).get (by decide +kernel), by decide +kernel⟩,
    ⟨on id, by decide +kernel⟩,
    ⟨on (rf Pg.cc Reg.CC_LEDGER_CFG 19 19 0), by decide +kernel⟩,
    ⟨on (rf Pg.cc Reg.CC_LEDGER_CFG 19 19 0), 50, by decide +kernel⟩,
    ⟨on (rf Pg.cc Reg.CC_LEDGER_CFG 19 19 1), 50, by decide +kernel⟩,
    ⟨0, by decide +kernel⟩⟩

/-- States and operands that meet the hypotheses of Obligations.DegradationSteps, clause by clause. -/
theorem witness_DegradationSteps :
    (∃ (s : State) (p : Page) (c : Nat), s.dev.fwRuns = true ∧ (SMap.get (fun _ => false) s.dev.en.breach p.val = true) ∧ c ∈ classesOf (kindOf p) ∧ kindOf p ≠ .ce ∧ s.dev.classLevel c = 3 ∧ s.dev.classForced c = false) ∧
    (∃ (s : State) (p : Page), s.dev.fwRuns = true ∧ (SMap.get (fun _ => false) s.dev.en.breach p.val = true) ∧ ((kindOf p = .qm ∨ kindOf p = .px ∨ kindOf p = .tm ∨ kindOf p = .ce)) ∧ (s.dev.en.forced.any (fun x => x == [ceilingStep]) = false)) ∧
    (∃ (s : State) (st : List Nat) (rest : List (List Nat)), s.dev.fwRuns = true ∧ (s.dev.en.breach.any (fun x => x.2) = false) ∧ s.dev.en.hotForce = false ∧ s.dev.en.forced = st :: rest ∧ st ≠ [ceilingStep]) ∧
    (∃ (s : State), (s.dev.en.breach.any (fun x => x.2) = true)) :=
  ⟨⟨on (en (fun e => { e with breach := [(0x10, true)] }) ∘ tf Pg.cc 0x206 0 3 2 3), pg 0x10, 6, by decide +kernel⟩,
    ⟨on (en (fun e => { e with breach := [(Pg.px.val, true)] })), Pg.px, by decide +kernel⟩,
    ⟨on (tf Pg.cc 0x206 0 5 5 1 ∘ en (fun e => { e with forced := [[6]] })), [6], [], by decide +kernel⟩,
    ⟨on (en (fun e => { e with breach := [(0x10, true)] })), by decide +kernel⟩⟩

/-- States and operands that meet the hypotheses of Obligations.TableWindows, clause by clause. -/
theorem witness_TableWindows :
    (∃ (s : State) (p : Page) (base : Nat), s.busFree ∧ s.dev.pageHeld p = false ∧ windowBase (kindOf p) = some base) ∧
    (∃ (s : State) (base : Nat) (a : Nat), s.busFree ∧ s.dev.pageHeld Pg.cc = false ∧ windowBase .cc = some base ∧ a = (s.dev.reg Pg.cc base).toNat ∧ 0x200 ≤ a ∧ tableHas Pg.cc a = true) ∧
    (∃ (s : State) (p : Page) (base : Nat) (a : Nat) (r : TblRange), s.busFree ∧ s.dev.pageHeld p = false ∧ (p = Pg.tm ∨ p = Pg.ac) ∧ windowBase (kindOf p) = some base ∧ a = (s.dev.reg p base).toNat ∧ tblRange (kindOf p) a = some r ∧ r.shadowed = true ∧ (s.dev.hdr p).commitPending = false) ∧
    (∃ (s : State) (p : Page) (base : Nat) (a : Nat) (r : TblRange), s.busFree ∧ s.dev.pageHeld p = false ∧ (p = Pg.tm ∨ p = Pg.ac) ∧ windowBase (kindOf p) = some base ∧ a = (s.dev.reg p base).toNat ∧ tblRange (kindOf p) a = some r ∧ r.shadowed = true ∧ (s.dev.hdr p).commitPending = true) ∧
    (∃ (s : State) (p : Page) (base : Nat), s.busFree ∧ s.dev.pageHeld p = false ∧ windowBase (kindOf p) = some base ∧ tableHas p (s.dev.reg p base).toNat = false) :=
  ⟨⟨on (rf Pg.cc (windowBase .cc).get! 31 0 0x205), Pg.cc, (windowBase (kindOf (Pg.cc))).get (by decide +kernel), by decide +kernel⟩,
    ⟨on (rf Pg.cc (windowBase .cc).get! 31 0 0x205), (windowBase .cc).get (by decide +kernel), ((on (rf Pg.cc (windowBase .cc).get! 31 0 0x205)).dev.reg Pg.cc ((windowBase .cc).get (by decide +kernel) : Nat)).toNat, by decide +kernel⟩,
    ⟨on (rf Pg.tm (windowBase .tm).get! 31 0 0x30100), Pg.tm, (windowBase (kindOf (Pg.tm))).get (by decide +kernel), ((on (rf Pg.tm (windowBase .tm).get! 31 0 0x30100)).dev.reg (Pg.tm) ((windowBase (kindOf (Pg.tm))).get (by decide +kernel) : Nat)).toNat, (tblRange (kindOf (Pg.tm)) (((on (rf Pg.tm (windowBase .tm).get! 31 0 0x30100)).dev.reg (Pg.tm) ((windowBase (kindOf (Pg.tm))).get (by decide +kernel) : Nat)).toNat : Nat)).get (by decide +kernel), by decide +kernel⟩,
    ⟨on (rf Pg.tm (windowBase .tm).get! 31 0 0x30100 ∘ hd Pg.tm (fun h => { h with commitPending := true })), Pg.tm, (windowBase (kindOf (Pg.tm))).get (by decide +kernel), ((on (rf Pg.tm (windowBase .tm).get! 31 0 0x30100 ∘ hd Pg.tm (fun h => { h with commitPending := true }))).dev.reg (Pg.tm) ((windowBase (kindOf (Pg.tm))).get (by decide +kernel) : Nat)).toNat, (tblRange (kindOf (Pg.tm)) (((on (rf Pg.tm (windowBase .tm).get! 31 0 0x30100 ∘ hd Pg.tm (fun h => { h with commitPending := true }))).dev.reg (Pg.tm) ((windowBase (kindOf (Pg.tm))).get (by decide +kernel) : Nat)).toNat : Nat)).get (by decide +kernel), by decide +kernel⟩,
    ⟨on (rf Pg.cc (windowBase .cc).get! 31 0 0x1FFF), Pg.cc, (windowBase (kindOf (Pg.cc))).get (by decide +kernel), by decide +kernel⟩⟩

/-- States and operands that meet the hypotheses of Obligations.Doorbells, clause by clause. -/
theorem witness_Doorbells :
    (∃ (s : State) (n : RingNo) (v : Word) (k : Nat), k = unsigned 32 ((v.toNat : Int) - (s.dev.ring n.val).acceptSeq) ∧ 1 ≤ k ∧ k ≤ 2 ^ s.dev.sqLog2 n.val) ∧
    (∃ (s : State) (n : RingNo) (v : Word) (k : Nat), k = unsigned 32 ((v.toNat : Int) - (s.dev.ring n.val).acceptSeq) ∧ (k = 0 ∨ 2 ^ s.dev.sqLog2 n.val < k)) ∧
    (∃ (s : State) (n : RingNo) (v : Word) (k : Nat), k = unsigned 32 ((s.dev.ring n.val).postedSeq - (v.toNat : Int)) ∧ k < 65536) ∧
    (∃ (s : State) (n : RingNo) (v : Word), 65536 ≤ unsigned 32 ((s.dev.ring n.val).postedSeq - (v.toNat : Int))) :=
  ⟨⟨on (tf Pg.dx 0 2 4 0 6), 0, 3, 3, by decide +kernel⟩,
    ⟨on (tf Pg.dx 0 2 4 0 6), 0, 0xFFFFFFFF, unsigned 32 (((0xFFFFFFFF : Word).toNat : Int) - ((on (tf Pg.dx 0 2 4 0 6)).dev.ring (0 : RingNo).val).acceptSeq), by decide +kernel⟩,
    ⟨on id, 0, 0, 0, by decide +kernel⟩,
    ⟨on id, 0, 5, by decide +kernel⟩⟩

/-- States and operands that meet the hypotheses of Obligations.RingHeads, clause by clause. -/
theorem witness_RingHeads :
    (∃ (s : State) (n : RingNo), (s.dev.ring n.val).enabled = true ∧ (s.dev.ring n.val).head = .none ∧ (s.dev.ring n.val).halted = false ∧ (s.dev.ring n.val).acceptSeq < (s.dev.ring n.val).sqTail ∧ s.dev.up Pg.dx = true) ∧
    (∃ (s : State) (n : RingNo) (x : BitVec 512) (f : Form) (e : Nat), (s.dev.ring n.val).enabled = true ∧ (s.dev.ring n.val).head = .here x ∧ x.toNat % 2 ^ 64 = unsigned 64 ((s.dev.ring n.val).acceptSeq + 1) ∧ s.dev.holdReason n.val x = 0 ∧ descFault x = none ∧ s.dev.admission (s.dev.islandOf x) (classOf x .primary) (unitsOf x .primary) (s.dev.fallbackOf x) = some (f, e)) ∧
    (∃ (s : State) (n : RingNo) (x : BitVec 512), (s.dev.ring n.val).enabled = true ∧ (s.dev.ring n.val).head = .here x ∧ (s.dev.ring n.val).halted = false ∧ x.toNat % 2 ^ 64 ≠ unsigned 64 ((s.dev.ring n.val).acceptSeq + 1)) ∧
    (∃ (s : State) (n : RingNo) (x : BitVec 512), (s.dev.ring n.val).enabled = true ∧ (s.dev.ring n.val).head = .here x ∧ (s.dev.ring n.val).halted = false ∧ x.toNat % 2 ^ 64 = unsigned 64 ((s.dev.ring n.val).acceptSeq + 1) ∧ s.dev.holdReason n.val x ≠ 0) ∧
    (∃ (s : State) (n : RingNo) (x : BitVec 512), (s.dev.ring n.val).enabled = true ∧ (s.dev.ring n.val).head = .here x ∧ x.toNat % 2 ^ 64 = unsigned 64 ((s.dev.ring n.val).acceptSeq + 1) ∧ s.dev.holdReason n.val x = 0 ∧ descFault x = none ∧ s.dev.admission (s.dev.islandOf x) (classOf x .primary) (unitsOf x .primary) (s.dev.fallbackOf x) = none) ∧
    (∃ (s : State) (n : RingNo) (d : Dev) (bs : List Byte), (s.dev.ring n.val).head = .reading ∧ s.dev.virtRead n.val (s.dev.ringAsid n.val) (s.dev.sqBase n.val + unsigned 64 ((s.dev.ring n.val).acceptSeq + 1) % 2 ^ s.dev.sqLog2 n.val * 64) 64 = (d, .ok, bs)) ∧
    (∃ (s : State) (n : RingNo) (r : DescRead), r ≠ .data ∧ (s.dev.ring n.val).head = .reading) :=
  ⟨⟨on (rg (fun r => { r with enabled := true, sqTail := 2 })), 0, by decide +kernel⟩,
    ⟨on (ledger ∘ rg (fun r => { r with enabled := true, head := .here (desc [(0, 1), (13, 0xFF), (10, 62)]), sqTail := 2 }) ∘ tf Pg.cc 0x23E 0 4 4 1), 0, desc [(0, 1), (13, 0xFF), (10, 62)], .primary, 0, by decide +kernel⟩,
    ⟨on (rg (fun r => { r with enabled := true, head := .here 7 })), 0, 7, by decide +kernel⟩,
    ⟨on (rg (fun r => { r with enabled := true, head := .here 1 })), 0, 1, by decide +kernel⟩,
    ⟨on (ledger ∘ rg (fun r => { r with enabled := true, head := .here (desc [(0, 1), (13, 0xFF), (10, 15), (16, 0x40000000)]) }) ∘ tf Pg.cc 0x20F 0 4 4 0 ∘ en (fun e => { e with shortW := [0x10000000] })), 0, desc [(0, 1), (13, 0xFF), (10, 15), (16, 0x40000000)], by decide +kernel⟩,
    ⟨on (rg (fun r => { r with enabled := true, head := .reading }) ∘ tf Pg.dx 0 1 15 0 0x40), 0, ((on (rg (fun r => { r with enabled := true, head := .reading }) ∘ tf Pg.dx 0 1 15 0 0x40)).dev.virtRead (0 : RingNo).val ((on (rg (fun r => { r with enabled := true, head := .reading }) ∘ tf Pg.dx 0 1 15 0 0x40)).dev.ringAsid (0 : RingNo).val) ((on (rg (fun r => { r with enabled := true, head := .reading }) ∘ tf Pg.dx 0 1 15 0 0x40)).dev.sqBase (0 : RingNo).val + unsigned 64 (((on (rg (fun r => { r with enabled := true, head := .reading }) ∘ tf Pg.dx 0 1 15 0 0x40)).dev.ring (0 : RingNo).val).acceptSeq + 1) % 2 ^ (on (rg (fun r => { r with enabled := true, head := .reading }) ∘ tf Pg.dx 0 1 15 0 0x40)).dev.sqLog2 (0 : RingNo).val * 64) 64).1, List.replicate 64 0, by decide +kernel⟩,
    ⟨on (rg (fun r => { r with enabled := true, head := .reading })), 0, .error, by decide +kernel⟩⟩

/-- States and operands that meet the hypotheses of Obligations.AcceptanceAndLedger, clause by clause. -/
theorem witness_AcceptanceAndLedger :
    (∃ (s : State) (n : RingNo) (okA : Bool) (okB : Bool) (x : BitVec 512) (f : Form) (e : Nat), (s.dev.ring n.val).head = .entryWrite x f e ∧ (s.dev.wk.okA && okA || s.dev.wk.okB && okB) = true) ∧
    (∃ (s : State) (n : RingNo) (okA : Bool) (okB : Bool) (x : BitVec 512) (f : Form) (e : Nat), (s.dev.ring n.val).head = .entryWrite x f e ∧ (s.dev.wk.okA && okA || s.dev.wk.okB && okB) = false) ∧
    (∃ (s : State) (n : RingNo) (x : BitVec 512) (f : Form) (e : Nat) (q : Nat), (s.dev.ring n.val).head = .headerWrite x f e ∧ q = ((s.dev.ring n.val).acceptSeq + 1).toNat ∧ s.dev.item? n.val q = none ∧ descFault x = none ∧ engineOf x ≠ 0) ∧
    (∃ (s : State) (n : RingNo) (x : BitVec 512) (f : Form) (e : Nat) (q : Nat) (c : Nat), (s.dev.ring n.val).head = .headerWrite x f e ∧ q = ((s.dev.ring n.val).acceptSeq + 1).toNat ∧ s.dev.item? n.val q = none ∧ descFault x = some c) ∧
    (∃ (s : State) (n : RingNo) (q : Nat) (i : Item), s.dev.item? n.val q = some i ∧ engineOf i.desc = 0 ∧ i.pend = none ∧ i.phase = .ready) ∧
    (∃ (s : State) (n : RingNo) (q : Nat) (okA : Bool) (okB : Bool) (i : Item) (st : LState), s.dev.item? n.val q = some i ∧ i.pend = some st ∧ st ≠ .completed ∧ (s.dev.wk.okA && okA || s.dev.wk.okB && okB) = true) ∧
    (∃ (s : State) (n : RingNo) (q : Nat) (okA : Bool) (okB : Bool) (i : Item), s.dev.item? n.val q = some i ∧ i.pend = some .completed ∧ (engineOf i.desc = 0 ∨ engineOf i.desc = 1 ∨ engineOf i.desc = 5 ∨ engineOf i.desc = 7 ∨ engineOf i.desc = 8) ∧ s.dev.held = [] ∧ (s.dev.wk.okA && okA || s.dev.wk.okB && okB) = true) :=
  ⟨⟨on (ledger ∘ rg (fun r => { r with enabled := true, head := .entryWrite 1 .primary 5 })), 0, true, true, 1, .primary, 5, by decide +kernel⟩,
    ⟨on (ledger ∘ rg (fun r => { r with enabled := true, head := .entryWrite 1 .primary 5 })), 0, false, false, 1, .primary, 5, by decide +kernel⟩,
    ⟨on (ledger ∘ rg (fun r => { r with enabled := true, head := .headerWrite copyDesc .primary 5 })), 0, copyDesc, .primary, 5, (((on (ledger ∘ rg (fun r => { r with enabled := true, head := .headerWrite copyDesc .primary 5 }))).dev.ring (0 : RingNo).val).acceptSeq + 1).toNat, by decide +kernel⟩,
    ⟨on (ledger ∘ rg (fun r => { r with enabled := true, head := .headerWrite (desc [(8, 9)]) .primary 5 })), 0, desc [(8, 9)], .primary, 5, (((on (ledger ∘ rg (fun r => { r with enabled := true, head := .headerWrite (desc [(8, 9)]) .primary 5 }))).dev.ring (0 : RingNo).val).acceptSeq + 1).toNat, (descFault (desc [(8, 9)])).get (by decide +kernel), by decide +kernel⟩,
    ⟨on (withItem 1 id), 0, 1, ((on (withItem 1 id)).dev.item? (0 : RingNo).val (1 : Nat)).get (by decide +kernel), by decide +kernel⟩,
    ⟨on (withItem 1 (fun i => { i with pend := some .started })), 0, 1, true, true, ((on (withItem 1 (fun i => { i with pend := some .started }))).dev.item? (0 : RingNo).val (1 : Nat)).get (by decide +kernel), .started, by decide +kernel⟩,
    ⟨on (withItem 1 (fun i => { i with pend := some .completed, reserved := 4 })), 0, 1, true, true, ((on (withItem 1 (fun i => { i with pend := some .completed, reserved := 4 }))).dev.item? (0 : RingNo).val (1 : Nat)).get (by decide +kernel), by decide +kernel⟩⟩

/-- States and operands that meet the hypotheses of Obligations.CompletionAndDispatch, clause by clause. -/
theorem witness_CompletionAndDispatch :
    (∃ (s : State) (n : RingNo) (i : Item) (d : Dev), (s.dev.ring n.val).posting = false ∧ (s.dev.ring n.val).halted = false ∧ s.dev.up Pg.dx = true ∧ s.dev.item? n.val ((s.dev.ring n.val).postedSeq + 1).toNat = some i ∧ i.phase = .completed ∧ s.dev.virtWrite n.val (s.dev.ringAsid n.val) (s.dev.cqBase n.val + i.seq % 65536 * 64) (s.dev.completionBytes i) = (d, .ok) ∧ d.asks = []) ∧
    (∃ (s : State) (n : RingNo) (i : Item), (s.dev.ring n.val).posting = true ∧ s.dev.item? n.val ((s.dev.ring n.val).postedSeq + 1).toNat = some i) ∧
    (∃ (s : State) (n : RingNo), (s.dev.ring n.val).posting = true) ∧
    (∃ (s : State) (n : RingNo), (s.dev.ring n.val).delayArmed = true ∧ s.dev.irqEn n.val = true ∧ s.dev.sys.l0 = true ∧ s.dev.vectorMasked (60 + n.val) = false) ∧
    (∃ (s : State) (n : RingNo) (q : Nat) (k : Nat) (i : Item) (p : Page), s.dev.item? n.val q = some i ∧ i.pend = none ∧ i.phase = .ready ∧ s.dev.fenced i = false ∧ s.dev.up Pg.dx = true ∧ s.dev.sys.encoreRunning = false ∧ engineOf i.desc ≠ 0 ∧ (s.dev.identity (s.dev.ringAsid n.val) || s.dev.asidValid (s.dev.ringAsid n.val)) = true ∧ s.dev.target i.desc = some k ∧ enginePage (engineOf i.desc) k = some p) ∧
    (∃ (s : State) (n : RingNo) (q : Nat) (k : Nat) (i : Item), s.dev.item? n.val q = some i ∧ i.pend = none ∧ i.phase = .ready ∧ s.dev.fenced i = false ∧ s.dev.up Pg.dx = true ∧ s.dev.sys.encoreRunning = false ∧ engineOf i.desc ≠ 0 ∧ (s.dev.identity (s.dev.ringAsid n.val) || s.dev.asidValid (s.dev.ringAsid n.val)) = true ∧ s.dev.target i.desc = none ∧ namedInst i.desc = some k ∧ s.dev.mayCome i.desc k = false) :=
  ⟨⟨on (withItem 1 (fun i => { i with phase := .completed }) ∘ tf Pg.dx 1 1 15 0 0x40), 0, ((on (withItem 1 (fun i => { i with phase := .completed }) ∘ tf Pg.dx 1 1 15 0 0x40)).dev.item? (0 : RingNo).val (((on (withItem 1 (fun i => { i with phase := .completed }) ∘ tf Pg.dx 1 1 15 0 0x40)).dev.ring (0 : RingNo).val).postedSeq + 1).toNat).get (by decide +kernel), ((on (withItem 1 (fun i => { i with phase := .completed }) ∘ tf Pg.dx 1 1 15 0 0x40)).dev.virtWrite (0 : RingNo).val ((on (withItem 1 (fun i => { i with phase := .completed }) ∘ tf Pg.dx 1 1 15 0 0x40)).dev.ringAsid (0 : RingNo).val) ((on (withItem 1 (fun i => { i with phase := .completed }) ∘ tf Pg.dx 1 1 15 0 0x40)).dev.cqBase (0 : RingNo).val + (((on (withItem 1 (fun i => { i with phase := .completed }) ∘ tf Pg.dx 1 1 15 0 0x40)).dev.item? (0 : RingNo).val (((on (withItem 1 (fun i => { i with phase := .completed }) ∘ tf Pg.dx 1 1 15 0 0x40)).dev.ring (0 : RingNo).val).postedSeq + 1).toNat).get (by decide +kernel) : Item).seq % 65536 * 64) ((on (withItem 1 (fun i => { i with phase := .completed }) ∘ tf Pg.dx 1 1 15 0 0x40)).dev.completionBytes (((on (withItem 1 (fun i => { i with phase := .completed }) ∘ tf Pg.dx 1 1 15 0 0x40)).dev.item? (0 : RingNo).val (((on (withItem 1 (fun i => { i with phase := .completed }) ∘ tf Pg.dx 1 1 15 0 0x40)).dev.ring (0 : RingNo).val).postedSeq + 1).toNat).get (by decide +kernel) : Item))).1, by decide +kernel⟩,
    ⟨on (withItem 1 (fun i => { i with phase := .completed }) ∘ rg (fun r => { r with posting := true })), 0, ((on (withItem 1 (fun i => { i with phase := .completed }) ∘ rg (fun r => { r with posting := true }))).dev.item? (0 : RingNo).val (((on (withItem 1 (fun i => { i with phase := .completed }) ∘ rg (fun r => { r with posting := true }))).dev.ring (0 : RingNo).val).postedSeq + 1).toNat).get (by decide +kernel), by decide +kernel⟩,
    ⟨on (withItem 1 (fun i => { i with phase := .completed }) ∘ rg (fun r => { r with posting := true })), 0, by decide +kernel⟩,
    ⟨on (rg (fun r => { r with delayArmed := true }) ∘ tf Pg.dx 1 2 9 9 0 ∘ tf Pg.dx 0 2 9 9 1 ∘ sy (fun y => { y with msix := [(60 * 16 + 12, 0)] })), 0, by decide +kernel⟩,
    ⟨on (withItem copyDesc id), 0, 1, ((on (withItem copyDesc id)).dev.target (((on (withItem copyDesc id)).dev.item? 0 1).get (by decide +kernel) : Item).desc).get (by decide +kernel), ((on (withItem copyDesc id)).dev.item? 0 1).get (by decide +kernel), (enginePage (engineOf (((on (withItem copyDesc id)).dev.item? 0 1).get (by decide +kernel) : Item).desc) (((on (withItem copyDesc id)).dev.target (((on (withItem copyDesc id)).dev.item? 0 1).get (by decide +kernel) : Item).desc).get (by decide +kernel) : Nat)).get (by decide +kernel), by decide +kernel⟩,
    ⟨on (withItem (desc [(8, 4), (13, 3)]) id ∘ hd (pg 0x23) (fun h => { h with state := .off, enable := false })), 0, 1, (namedInst (((on (withItem (desc [(8, 4), (13, 3)]) id ∘ hd (pg 0x23) (fun h => { h with state := .off, enable := false }))).dev.item? 0 1).get (by decide +kernel) : Item).desc).get (by decide +kernel), ((on (withItem (desc [(8, 4), (13, 3)]) id ∘ hd (pg 0x23) (fun h => { h with state := .off, enable := false }))).dev.item? 0 1).get (by decide +kernel), by decide +kernel⟩⟩

/-- States and operands that meet the hypotheses of Obligations.RingConfigurationAndEncore, clause by clause. -/
theorem witness_RingConfigurationAndEncore :
    (∃ (s : State) (n : RingNo) (d2 : Word) (d3 : Word), s.dev.ringActive n.val = false ∧ ctxRefused d2 d3 = false ∧ s.dev.rb Pg.dx Reg.DX_LEDGER_CFG 0 = true ∧ s.dev.sliceFits n.val (fld 3 0 d3 + 6) = true ∧ (s.dev.ring n.val).halted = false) ∧
    (∃ (s : State) (n : RingNo) (d2 : Word) (d3 : Word), ctxRefused d2 d3 = false ∧ s.dev.rb Pg.dx Reg.DX_LEDGER_CFG 0 = true ∧ s.dev.ringActive n.val = true ∧ s.dev.sliceFits n.val (s.dev.ledgerLog2 n.val) = true ∧ (s.dev.ring n.val).halted = true) ∧
    (∃ (s : State) (d2 : Word) (d3 : Word), (ctxRefused d2 d3 = true ∨ s.dev.rb Pg.dx Reg.DX_LEDGER_CFG 0 = false)) ∧
    (∃ (d2 : Word) (d3 : Word), ctxRefused d2 d3 = false) ∧
    (∃ (s : State), s.dev.anyRingActive = true) ∧
    (∃ (s : State) (which : Fin 5), s.dev.anyRingActive = false ∧ which.val < 4) ∧
    (∃ (s : State) (v : Word), s.dev.anyRingActive = false ∧ bit 0 v = true ∧ 2 ≤ fld 10 1 v ∧ s.dev.ledgerMisplaced (fld 10 1 v) = false) ∧
    (∃ (s : State), s.dev.sys.encoreRunning = true ∧ s.dev.up Pg.dx = true) ∧
    (∃ (s : State) (n : RingNo) (acc : Int) (pst : Int) (q : Nat) (e : LEntry), s.dev.sys.encoreRunning = true ∧ s.dev.up Pg.dx = true ∧ s.dev.headerOf n.val = some (acc, pst) ∧ (s.dev.ring n.val).enabled = true ∧ pst < q ∧ (q : Int) ≤ acc ∧ 0 ≤ pst ∧ ((∀ m : RingNo, s.dev.ledgerLog2 m.val ≤ 16)) ∧ s.dev.lowerEntry n.val q = some e ∧ e.state.rank < 3) :=
  ⟨⟨on ledger, 0, 8, 2, by decide +kernel⟩,
    ⟨on (ledger ∘ rg (fun r => { r with enabled := true, halted := true, haltCause := 3 })), 0, 8, 2, by decide +kernel⟩,
    ⟨on id, 8, 2, by decide +kernel⟩,
    ⟨8, 2, by decide +kernel⟩,
    ⟨on (rg (fun r => { r with enabled := true })), by decide +kernel⟩,
    ⟨on id, 1, by decide +kernel⟩,
    ⟨on (rf Pg.dx Reg.DX_LEDGER_B_HI 31 0 8), 5, by decide +kernel⟩,
    ⟨on (ledger ∘ sy (fun y => { y with encoreRunning := true })), by decide +kernel⟩,
    ⟨on (wk (fun w => { w with copyA := ⟨[(1, { LEntry.invalid with valid := true, desc := copyDesc })], [(0, ⟨true, 1, 0, 0⟩)]⟩ }) ∘ ledger ∘ rg (fun r => { r with enabled := true }) ∘ sy (fun y => { y with encoreRunning := true })), 0, 1, 0, 1, { LEntry.invalid with valid := true, desc := copyDesc }, by decide +kernel⟩⟩

/-- States and operands that meet the hypotheses of Obligations.CopyAndFillMoveBytes, clause by clause. -/
theorem witness_CopyAndFillMoveBytes :
    (∃ (s : State) (n : RingNo) (q : Nat) (i : Item) (c : Instr), (c, opOf i.desc) ∈ [(Instr.copy n q, 0), (Instr.fill n q, 1)] ∧ s.busFree ∧ s.dev.up Pg.dx = true ∧ (s.dev.chan n.val).seq = none ∧ s.dev.nextDma n.val = some i ∧ i.seq = q ∧ s.dev.item? n.val q = some i ∧ i.phase = .bound ∧ i.pend = none ∧ i.recorded = .accepted ∧ dmaBad i.desc = false) ∧
    (∃ (s : State) (n : RingNo) (q : Nat) (i : Item) (d : Dev) (bs : List Byte), s.busFree ∧ s.dev.up Pg.dx = true ∧ s.dev.chan n.val = { Chan.reset with seq := some q } ∧ s.dev.chanItem n.val = some i ∧ opOf i.desc = 0 ∧ s.dev.identity (s.dev.ringAsid n.val) = true ∧ s.dev.isParked n.val = false ∧ halfIrq i.desc = false ∧ fullIrq i.desc = false ∧ csumStore i.desc = false ∧ 0 < lengthOf i.desc ∧ srcOf i.desc % 64 + lengthOf i.desc ≤ 64 ∧ dstOf i.desc % 64 + lengthOf i.desc ≤ 64 ∧ s.dev.physRead (srcOf i.desc) (lengthOf i.desc) (some n.val) = (d, .ok, bs) ∧ ((∀ k, k < lengthOf i.desc → (s.dev.physByte (dstOf i.desc + k)).isSome = true))) ∧
    (∃ (s : State) (n : RingNo) (q : Nat) (i : Item), s.busFree ∧ s.dev.up Pg.dx = true ∧ s.dev.chan n.val = { Chan.reset with seq := some q } ∧ s.dev.chanItem n.val = some i ∧ opOf i.desc = 1 ∧ s.dev.identity (s.dev.ringAsid n.val) = true ∧ s.dev.isParked n.val = false ∧ halfIrq i.desc = false ∧ fullIrq i.desc = false ∧ csumStore i.desc = false ∧ 0 < lengthOf i.desc ∧ dstOf i.desc % 64 + lengthOf i.desc ≤ 64 ∧ ((∀ k, k < lengthOf i.desc → (s.dev.physByte (dstOf i.desc + k)).isSome = true))) :=
  ⟨⟨on (withItem (if (Instr.copy 0 1 : Instr) = .copy 0 1 then copyDesc else fillDesc) (fun i => { i with phase := .bound, inst := some 0 })), 0, 1, ((on (withItem (if (Instr.copy 0 1 : Instr) = .copy 0 1 then copyDesc else fillDesc) (fun i => { i with phase := .bound, inst := some 0 }))).dev.item? 0 1).get (by decide +kernel), Instr.copy 0 1, by decide +kernel⟩,
    ⟨on (onChan copyDesc id), 0, 1, ((on (onChan copyDesc id)).dev.chanItem (0 : RingNo).val).get (by decide +kernel), (on (onChan copyDesc id)).dev, List.replicate 16 0, by decide +kernel⟩,
    ⟨on (onChan fillDesc id), 0, 1, ((on (onChan fillDesc id)).dev.chanItem (0 : RingNo).val).get (by decide +kernel), by decide +kernel⟩⟩

/-- States and operands that meet the hypotheses of Obligations.PeripheralTransfers, clause by clause. -/
theorem witness_PeripheralTransfers :
    (∃ (s : State) (n : RingNo) (q : Nat) (i : Item) (data : List Byte) (bs : List Byte), s.busFree ∧ s.dev.up Pg.dx = true ∧ s.dev.chan n.val = { Chan.reset with seq := some q } ∧ s.dev.chanItem n.val = some i ∧ opOf i.desc = 2 ∧ s.dev.identity (s.dev.ringAsid n.val) = true ∧ s.dev.isParked n.val = false ∧ halfIrq i.desc = false ∧ fullIrq i.desc = false ∧ csumStore i.desc = false ∧ 0 < lengthOf i.desc ∧ dstOf i.desc % 64 + lengthOf i.desc ≤ 64 ∧ lineServes (reqLine i.desc) 2 = true ∧ s.dev.rb Pg.dx Reg.DX_REQ_LINE_EN (reqLine i.desc) = true ∧ (bs = (if reqLine i.desc = 10 then s.dev.lineHas 10 ++ data else s.dev.lineHas (reqLine i.desc))) ∧ lengthOf i.desc ≤ bs.length ∧ ((∀ k, k < lengthOf i.desc → (s.dev.physByte (dstOf i.desc + k)).isSome = true))) ∧
    (∃ (s : State) (n : RingNo) (q : Nat) (i : Item) (d : Dev) (bs : List Byte), s.busFree ∧ s.dev.up Pg.dx = true ∧ s.dev.chan n.val = { Chan.reset with seq := some q } ∧ s.dev.chanItem n.val = some i ∧ opOf i.desc = 3 ∧ s.dev.identity (s.dev.ringAsid n.val) = true ∧ s.dev.isParked n.val = false ∧ halfIrq i.desc = false ∧ fullIrq i.desc = false ∧ 0 < lengthOf i.desc ∧ srcOf i.desc % 64 + lengthOf i.desc ≤ 64 ∧ lineServes (reqLine i.desc) 3 = true ∧ s.dev.rb Pg.dx Reg.DX_REQ_LINE_EN (reqLine i.desc) = true ∧ s.dev.physRead (srcOf i.desc) (lengthOf i.desc) (some n.val) = (d, .ok, bs)) ∧
    (∃ (s : State) (line : Fin 32), line.val < 12 ∧ s.dev.dmaRings = []) ∧
    (∃ (s : State) (n : Nat) (line : Fin 32) (i : Item), line.val < 12 ∧ s.dev.dmaRings = [n] ∧ s.dev.chanItem n = some i ∧ waitsLine i.desc (s.dev.chan n) = true ∧ reqLine i.desc = line.val ∧ lineServes line.val (opOf i.desc) = true ∧ s.dev.rb Pg.dx Reg.DX_REQ_LINE_EN line.val = true) ∧
    (∃ (s : State) (n : Nat) (line : Fin 32) (i : Item), s.dev.dmaRings = [n] ∧ (s.dev.chan n).seq.bind (s.dev.item? n) = some i ∧ isPeriph i.desc = true ∧ reqLine i.desc = line.val ∧ (s.dev.chan n).withdrawn = false ∧ allIssued i.desc (s.dev.chan n) = false) :=
  ⟨⟨on (onChan inDesc id ∘ rf Pg.dx Reg.DX_REQ_LINE_EN 31 0 0xFFF), 0, 1, ((on (onChan inDesc id ∘ rf Pg.dx Reg.DX_REQ_LINE_EN 31 0 0xFFF)).dev.chanItem (0 : RingNo).val).get (by decide +kernel), List.replicate 16 7, (if reqLine (((on (onChan inDesc id ∘ rf Pg.dx Reg.DX_REQ_LINE_EN 31 0 0xFFF)).dev.chanItem (0 : RingNo).val).get (by decide +kernel) : Item).desc = 10 then (on (onChan inDesc id ∘ rf Pg.dx Reg.DX_REQ_LINE_EN 31 0 0xFFF)).dev.lineHas 10 ++ (List.replicate 16 7) else (on (onChan inDesc id ∘ rf Pg.dx Reg.DX_REQ_LINE_EN 31 0 0xFFF)).dev.lineHas (reqLine (((on (onChan inDesc id ∘ rf Pg.dx Reg.DX_REQ_LINE_EN 31 0 0xFFF)).dev.chanItem (0 : RingNo).val).get (by decide +kernel) : Item).desc)), by decide +kernel⟩,
    ⟨on (onChan outDesc id ∘ rf Pg.dx Reg.DX_REQ_LINE_EN 31 0 0xFFF), 0, 1, ((on (onChan outDesc id ∘ rf Pg.dx Reg.DX_REQ_LINE_EN 31 0 0xFFF)).dev.chanItem (0 : RingNo).val).get (by decide +kernel), (on (onChan outDesc id ∘ rf Pg.dx Reg.DX_REQ_LINE_EN 31 0 0xFFF)).dev, List.replicate 16 0, by decide +kernel⟩,
    ⟨on id, 10, by decide +kernel⟩,
    ⟨on (onChan inDesc id ∘ rf Pg.dx Reg.DX_REQ_LINE_EN 31 0 0xFFF), 0, 10, ((on (onChan inDesc id ∘ rf Pg.dx Reg.DX_REQ_LINE_EN 31 0 0xFFF)).dev.chanItem (0 : Nat)).get (by decide +kernel), by decide +kernel⟩,
    ⟨on (onChan inDesc (fun c => { c with burst := 1 })), 0, 10, ((on (onChan inDesc (fun c => { c with burst := 1 }))).dev.item? 0 1).get (by decide +kernel), by decide +kernel⟩⟩

/-- States and operands that meet the hypotheses of Obligations.DmaBeats, clause by clause. -/
theorem witness_DmaBeats :
    (∃ (s : State) (n : Nat) (i : Item) (w : NextBeat), s.busFree ∧ s.dev.up Pg.dx = true ∧ s.dev.dmaRings = [n] ∧ s.dev.chanItem n = some i ∧ opOf i.desc < 2 ∧ halfIrq i.desc = false ∧ (s.dev.chan n).withdrawn = false ∧ want i.desc (s.dev.chan n) = some w ∧ s.dev.identity (s.dev.ringAsid n) = true ∧ s.dev.isParked n = false) ∧
    (∃ (s : State) (n : RingNo) (i : Item) (b : DmaBeat) (dst : Bool) (idx : Nat) (reply : BeatReply) (cause : Nat), s.busFree ∧ (reply, cause) ∈ [(BeatReply.addressError, Cause.ADDR_ERROR), (.otherError, Cause.RESP_ERROR)] ∧ s.dev.chanItem n.val = some i ∧ ((s.dev.chan n.val).out.find? (fun o => o.dst == dst && o.idx == idx) = some b) ∧ ((s.dev.chan n.val).out.any (fun o => !(o.dst == b.dst && o.idx == b.idx)) = true) ∧ (s.dev.chan n.val).fail = none ∧ halfIrq i.desc = false) ∧
    (∃ (s : State) (n : RingNo) (i : Item) (b : DmaBeat) (idx : Nat), s.busFree ∧ s.dev.chanItem n.val = some i ∧ opOf i.desc < 2 ∧ ((s.dev.chan n.val).out.find? (fun o => o.dst == true && o.idx == idx) = some b) ∧ halfIrq i.desc = false ∧ fullIrq i.desc = false ∧ csumStore i.desc = false ∧ targetOf b.pa ≠ .regs ∧ s.dev.physCheck b.pa b.bytes.length true = .ok ∧ ((∀ k, k < b.bytes.length → (s.dev.physByte (b.pa + k)).isSome = true))) :=
  ⟨⟨on (onChan fillDesc id), 0, ((on (onChan fillDesc id)).dev.chanItem (0 : Nat)).get (by decide +kernel), (want (((on (onChan fillDesc id)).dev.chanItem (0 : Nat)).get (by decide +kernel) : Item).desc ((on (onChan fillDesc id)).dev.chan (0 : Nat))).get (by decide +kernel), by decide +kernel⟩,
    ⟨on (onChan fillDesc (fun c => { c with dstNext := 2, out := [⟨true, 0, 0x4000001000, 0x4000001000, 16, [], false, false⟩, ⟨true, 1, 0x4000001040, 0x4000001040, 16, [], false, false⟩] })), 0, ((on (onChan fillDesc (fun c => { c with dstNext := 2, out := [⟨true, 0, 0x4000001000, 0x4000001000, 16, [], false, false⟩, ⟨true, 1, 0x4000001040, 0x4000001040, 16, [], false, false⟩] }))).dev.chanItem (0 : RingNo).val).get (by decide +kernel), (((on (onChan fillDesc (fun c => { c with dstNext := 2, out := [⟨true, 0, 0x4000001000, 0x4000001000, 16, [], false, false⟩, ⟨true, 1, 0x4000001040, 0x4000001040, 16, [], false, false⟩] }))).dev.chan (0 : RingNo).val).out.find? (fun o => o.dst == true && o.idx == (0 : Nat))).get (by decide +kernel), true, 0, .otherError, Cause.RESP_ERROR, by decide +kernel⟩,
    ⟨on (onChan fillDesc (fun c => { c with dstNext := 1, out := [⟨true, 0, 0x4000001000, 0x4000001000, 2, [1, 2], false, false⟩] })), 0, ((on (onChan fillDesc (fun c => { c with dstNext := 1, out := [⟨true, 0, 0x4000001000, 0x4000001000, 2, [1, 2], false, false⟩] }))).dev.chanItem (0 : RingNo).val).get (by decide +kernel), (((on (onChan fillDesc (fun c => { c with dstNext := 1, out := [⟨true, 0, 0x4000001000, 0x4000001000, 2, [1, 2], false, false⟩] }))).dev.chan (0 : RingNo).val).out.find? (fun o => o.dst == true && o.idx == (0 : Nat))).get (by decide +kernel), 0, by decide +kernel⟩⟩

/-- States and operands that meet the hypotheses of Obligations.TranslationsEnd, clause by clause. -/
theorem witness_TranslationsEnd :
    (∃ (s : State) (who : Fin 512) (w : Nat × Nat × Nat × Bool × Bool) (pa : Nat) (size : Nat) (rd : Bool) (wr : Bool) (pr : Bool), s.dev.walkOf who.val = some w ∧ s.dev.asidHost w.2.1 = false ∧ s.dev.walk w.2.1 w.2.2.1 = .ok pa size rd wr pr ∧ ((if w.2.2.2.2 then wr else rd) = true)) ∧
    (∃ (s : State) (who : Fin 512) (w : Nat × Nat × Nat × Bool × Bool), s.dev.walkOf who.val = some w ∧ s.dev.asidHost w.2.1 = false) ∧
    (∃ (s : State) (who : Fin 512) (w : Nat × Nat × Nat × Bool × Bool) (pr : Bool), s.dev.walkOf who.val = some w ∧ s.dev.asidHost w.2.1 = false ∧ s.dev.walk w.2.1 w.2.2.1 = .fault pr ∧ (pr = false ∨ s.dev.asidPr w.2.1 = false) ∧ s.dev.isParked who.val = false) ∧
    (∃ (s : State) (who : Fin 512) (w : Nat × Nat × Nat × Bool × Bool), s.dev.walkOf who.val = some w ∧ s.dev.asidHost w.2.1 = false ∧ s.dev.walk w.2.1 w.2.2.1 = .fault true ∧ s.dev.asidPr w.2.1 = true ∧ s.dev.park? who.val = none ∧ s.dev.rb Pg.dx Reg.DX_PARK_MODE 0 = false) ∧
    (∃ (s : State) (who : Fin 512) (a : AtsReply) (w : Nat × Nat × Nat × Bool × Bool), s.dev.walkOf who.val = some w ∧ s.dev.asidHost w.2.1 = true ∧ a.page.toNat / 4096 * 4096 = w.2.2.1 ∧ ((if w.2.2.2.2 then a.wr else a.rd) = true)) :=
  ⟨⟨on (tf Pg.dx 0x801 0 0 0 1 ∘ tf Pg.dx 0x801 1 15 0 0x40 ∘ dx (fun x => { x with walks := [(3, 1, 0, true, false)] }) ∘ (fun d => { d with ram := { d.ram with sys := [(0x4000000000, 0x07), (0x4000000001, 0x10), (0x4000000004, 0x40), (0x4000001000, 0x07), (0x4000001001, 0x20), (0x4000001004, 0x40), (0x4000002000, 0x0F)] } })), 3, (3, 1, 0, true, false), 0, 21, true, true, false, by decide +kernel⟩,
    ⟨on (dx (fun x => { x with walks := [(3, 1, 0, true, false)] })), 3, ((on (dx (fun x => { x with walks := [(3, 1, 0, true, false)] }))).dev.walkOf (3 : Fin 512).val).get (by decide +kernel), by decide +kernel⟩,
    ⟨on (tf Pg.dx 0x801 1 15 0 0x40 ∘ dx (fun x => { x with walks := [(3, 1, 0, true, false)] })), 3, ((on (tf Pg.dx 0x801 1 15 0 0x40 ∘ dx (fun x => { x with walks := [(3, 1, 0, true, false)] }))).dev.walkOf (3 : Fin 512).val).get (by decide +kernel), true, by decide +kernel⟩,
    ⟨on (tf Pg.dx 0x801 0 2 2 1 ∘ tf Pg.dx 0x801 1 15 0 0x40 ∘ dx (fun x => { x with walks := [(3, 1, 0, true, false)] })), 3, ((on (tf Pg.dx 0x801 0 2 2 1 ∘ tf Pg.dx 0x801 1 15 0 0x40 ∘ dx (fun x => { x with walks := [(3, 1, 0, true, false)] }))).dev.walkOf (3 : Fin 512).val).get (by decide +kernel), by decide +kernel⟩,
    ⟨on (tf Pg.dx 0x801 0 1 1 1 ∘ dx (fun x => { x with walks := [(3, 1, 0x5000, true, false)] })), 3, ⟨0x5000, true, true, 0x7000⟩, ((on (tf Pg.dx 0x801 0 1 1 1 ∘ dx (fun x => { x with walks := [(3, 1, 0x5000, true, false)] }))).dev.walkOf (3 : Fin 512).val).get (by decide +kernel), by decide +kernel⟩⟩

/-- States and operands that meet the hypotheses of Obligations.PageRequestsAndInvalidations, clause by clause. -/
theorem witness_PageRequestsAndInvalidations :
    (∃ (s : State) (p : Park), (s.dev.dx.parks.find? (fun q => q.stage == 2) = some p)) ∧
    (∃ (s : State), (s.dev.dx.parks.find? (fun q => q.stage == 2) = none)) ∧
    (∃ (s : State) (v : Word) (p : Park), s.dev.park? (fld 8 0 v) = some p ∧ p.stage ≤ 2 ∧ bit 16 v = true) ∧
    (∃ (s : State) (v : Word) (p : Park), s.dev.park? (fld 8 0 v) = some p ∧ p.stage ≤ 2 ∧ bit 16 v = false) ∧
    (∃ (s : State) (v : Word), s.dev.park? (fld 8 0 v) = none) ∧
    (∃ (s : State) (who : Fin 512) (p : Park), s.dev.park? who.val = some p ∧ p.stage ≤ 2 ∧ p.host = true) ∧
    (∃ (s : State) (who : Fin 512) (p : Park), s.dev.park? who.val = some p ∧ p.stage ≤ 2 ∧ p.host = true) ∧
    (∃ (s : State) (who : Fin 512) (p : Park), s.dev.park? who.val = some p ∧ p.stage ≤ 2) ∧
    (∃ (s : State) (v : Word), bit 16 v = true ∧ s.dev.dx.invBusy = false) ∧
    (∃ (s : State), s.dev.staleBeats = false) :=
  ⟨⟨on (dx (fun x => { x with parks := [⟨3, 1, 0x5000, true, false, false, 2, 0⟩] })), ((on (dx (fun x => { x with parks := [⟨3, 1, 0x5000, true, false, false, 2, 0⟩] }))).dev.dx.parks.find? (fun q => q.stage == 2)).get (by decide +kernel), by decide +kernel⟩,
    ⟨on id, by decide +kernel⟩,
    ⟨on (dx (fun x => { x with parks := [⟨3, 1, 0x5000, true, false, false, 1, 0⟩] })), 0x10003, ((on (dx (fun x => { x with parks := [⟨3, 1, 0x5000, true, false, false, 1, 0⟩] }))).dev.park? (fld 8 0 (0x10003 : Word))).get (by decide +kernel), by decide +kernel⟩,
    ⟨on (dx (fun x => { x with parks := [⟨3, 1, 0x5000, true, false, false, 1, 0⟩] })), 3, ((on (dx (fun x => { x with parks := [⟨3, 1, 0x5000, true, false, false, 1, 0⟩] }))).dev.park? (fld 8 0 (3 : Word))).get (by decide +kernel), by decide +kernel⟩,
    ⟨on id, 0, by decide +kernel⟩,
    ⟨on (dx (fun x => { x with parks := [⟨3, 1, 0x5000, true, false, true, 1, 0⟩] })), 3, ((on (dx (fun x => { x with parks := [⟨3, 1, 0x5000, true, false, true, 1, 0⟩] }))).dev.park? (3 : Fin 512).val).get (by decide +kernel), by decide +kernel⟩,
    ⟨on (dx (fun x => { x with parks := [⟨3, 1, 0x5000, true, false, true, 1, 0⟩] })), 3, ((on (dx (fun x => { x with parks := [⟨3, 1, 0x5000, true, false, true, 1, 0⟩] }))).dev.park? (3 : Fin 512).val).get (by decide +kernel), by decide +kernel⟩,
    ⟨on (dx (fun x => { x with parks := [⟨3, 1, 0x5000, true, false, true, 1, 0⟩] })), 3, ((on (dx (fun x => { x with parks := [⟨3, 1, 0x5000, true, false, true, 1, 0⟩] }))).dev.park? (3 : Fin 512).val).get (by decide +kernel), by decide +kernel⟩,
    ⟨on id, 0x10000, by decide +kernel⟩,
    ⟨on id, by decide +kernel⟩⟩

/-- States and operands that meet the hypotheses of Obligations.DramReadsAndWrites, clause by clause. -/
theorem witness_DramReadsAndWrites :
    (∃ (s : State) (a : BitVec 48) (bs : List Byte), a.toNat < 0x2000000000 ∧ s.dev.grpServes (dramGroup a.toNat) = true ∧ s.dev.dramUnitBytes (a.toNat / 64 * 64) = some bs) ∧
    (∃ (s : State) (a : BitVec 48), a.toNat < 0x2000000000 ∧ s.dev.grpServes (dramGroup a.toNat) = true ∧ (s.dev.grp (dramGroup a.toNat)).up (memberOf (dramRow a.toNat) (dramUnit a.toNat)) = false) ∧
    (∃ (s : State) (a : BitVec 48) (bs : List Byte), a.toNat < 0x2000000000 ∧ s.dev.grpServes (dramGroup a.toNat) = true ∧ (s.dev.grp (dramGroup a.toNat)).up (memberOf (dramRow a.toNat) (dramUnit a.toNat)) = true ∧ s.dev.rebuilt (a.toNat / 64 * 64) = some bs) ∧
    (∃ (s : State) (a : BitVec 48), a.toNat < 0x2000000000 ∧ s.dev.grpServes (dramGroup a.toNat) = true) ∧
    (∃ (s : State) (who : Requester) (a : BitVec 48) (ecc : EccOutcome) (bs : List Byte) (c : Instr) (q : DramReq), (c, q) ∈ [(Instr.dramRead who a ecc, { who := who, addr := a.toNat / 64 * 64, ecc := ecc, bytes := none }), (Instr.dramWrite who a bs, { who := who, addr := a.toNat, ecc := .clean, bytes := some bs })] ∧ a.toNat < 0x2000000000 ∧ s.dev.grpServes (dramGroup a.toNat) = false) ∧
    (∃ (who : Requester) (a : BitVec 48) (ecc : EccOutcome) (bs : List Byte) (c : Instr), c ∈ [Instr.dramRead who a ecc, Instr.dramWrite who a bs] ∧ 0x2000000000 ≤ a.toNat) :=
  ⟨⟨on dram, 0, ((on dram).dev.dramUnitBytes ((0 : BitVec 48).toNat / 64 * 64)).get (by decide +kernel), by decide +kernel⟩,
    ⟨on (gp (fun g => { g with mem := g.mem.filter (fun x => x.1 != 1) }) ∘ dram), 0, by decide +kernel⟩,
    ⟨on dram, 0, ((on dram).dev.rebuilt ((0 : BitVec 48).toNat / 64 * 64)).get (by decide +kernel), by decide +kernel⟩,
    ⟨on dram, 0, by decide +kernel⟩,
    ⟨on (gp (fun g => { g with change := some 1 }) ∘ dram), .dma 0, 0, .clean, [], Instr.dramRead (.dma 0 : Requester) (0 : BitVec 48) (.clean : EccOutcome), { who := (.dma 0 : Requester), addr := 0, ecc := (.clean : EccOutcome), bytes := none }, by decide +kernel⟩,
    ⟨.dma 0, 0x2000000000, .clean, [], Instr.dramRead (.dma 0 : Requester) (0x2000000000 : BitVec 48) (.clean : EccOutcome), by decide +kernel⟩⟩

/-- States and operands that meet the hypotheses of Obligations.MemoryUpkeep, clause by clause. -/
theorem witness_MemoryUpkeep :
    (∃ (s : State) (g : Group) (m : Member), (s.dev.grp g.val).up m.val = true) ∧
    (∃ (s : State) (g : Group) (m : Member), (s.dev.grp g.val).up m.val = true) ∧
    (∃ (s : State) (g : Group) (m : Member), (s.dev.grp g.val).up m.val = true) ∧
    (∃ (s : State) (g : Group) (row : Nat), ((s.dev.grp g.val).merges.any (fun e => e.row == row) = true)) ∧
    (∃ (s : State) (g : Group) (row : Nat), s.dev.rb (Pg.mc g) Reg.MC_SCRUB_CFG 16 = true ∧ s.dev.grpServes g.val = true ∧ (s.dev.grp g.val).degraded = false ∧ (s.dev.grp g.val).lost = false ∧ row < 2 ^ 26) ∧
    (∃ (s : State) (g : Group) (m : Member), ((s.dev.grp g.val).m m.val).state = .active ∧ (s.dev.grp g.val).retiring ≠ some m.val ∧ ((s.dev.grp g.val).m m.val).lost = false) ∧
    (∃ (s : State) (g : Group) (codes : List (Option (Fin 8))) (m : Member) (c : Fin 8), ((s.dev.grp g.val).m m.val).state = .active ∧ ((s.dev.grp g.val).m m.val).lost = false ∧ (s.dev.grp g.val).retiring ≠ some m.val ∧ codes.getD m.val none = some c) ∧
    (∃ (s : State) (g : Group) (m : Member), ((s.dev.grp g.val).m m.val).state = .active ∧ ((s.dev.grp g.val).m m.val).lost = false ∧ (s.dev.grp g.val).retiring ≠ some m.val ∧ s.dev.rb (Pg.mc g) Reg.MC_SR_IDLE 16 = true ∧ s.dev.rf (Pg.mc g) Reg.MC_SR_IDLE 11 0 ≠ 0) :=
  ⟨⟨on dram, 0, 0, by decide +kernel⟩,
    ⟨on dram, 0, 0, by decide +kernel⟩,
    ⟨on dram, 0, 0, by decide +kernel⟩,
    ⟨on (gp (fun g => { g with merges := [⟨0, 1⟩] }) ∘ dram), 0, 0, by decide +kernel⟩,
    ⟨on (rf (Pg.mc 0) Reg.MC_SCRUB_CFG 16 16 1 ∘ dram), 0, 0, by decide +kernel⟩,
    ⟨on dram, 0, 0, by decide +kernel⟩,
    ⟨on dram, 0, List.replicate 9 (some 3), 0, 3, by decide +kernel⟩,
    ⟨on (rf (Pg.mc 0) Reg.MC_SR_IDLE 16 16 1 ∘ rf (Pg.mc 0) Reg.MC_SR_IDLE 11 0 7 ∘ dram), 0, 0, by decide +kernel⟩⟩

/-- States and operands that meet the hypotheses of Obligations.RebuildFrequencyAndTraining, clause by clause. -/
theorem witness_RebuildFrequencyAndTraining :
    (∃ (s : State) (g : Group) (m : Member), s.dev.rb (Pg.mc g) Reg.MC_RETIRE_REC m.val = true ∧ (s.dev.grp g.val).lost = false ∧ (s.dev.grp g.val).rebuild = none ∧ (s.dev.hdr (Pg.mc g)).state.serves = true) ∧
    (∃ (s : State) (g : Group) (m : Nat), (s.dev.grp g.val).rebuild = some (m, false)) ∧
    (∃ (s : State) (g : Group) (m : Nat), (s.dev.grp g.val).rebuild = some (m, false)) ∧
    (∃ (s : State) (g : Group) (m : Nat) (i : Nat), (s.dev.grp g.val).rebuild = some (m, true) ∧ m < 9 ∧ wordIndex ((Pg.mc g).val * 0x1000 + Reg.MC_RETIRE_REC) = some i ∧ (s.dev.psWord i).worn = false ∧ s.dev.wear (s.dev.psWord i).slot < endurance ∧ s.dev.nv ((Pg.mc g).val * 0x1000 + Reg.MC_RETIRE_REC) ≠ putFld m m 0 (s.dev.reg (Pg.mc g) Reg.MC_RETIRE_REC)) ∧
    (∃ (s : State) (g : Group), (s.dev.grp g.val).waiting = none ∧ ((∀ k, k < 4 → (s.dev.grp k).change = none)) ∧ (s.dev.hdr (Pg.mc g)).state.serves = true) ∧
    (∃ (s : State) (g : Group) (passed : BitVec 9) (p : Nat), (s.dev.grp g.val).change = some p ∧ (s.dev.grp g.val).waiting = none ∧ (s.dev.grp g.val).held = [] ∧ ((∀ m : Member, (s.dev.grp g.val).up m.val = true → passed.getLsbD m.val = true))) ∧
    (∃ (s : State) (g : Group) (b10 : Nat), s.dev.fwRuns = true ∧ s.dev.rb (Pg.mc g) Reg.MC_FREQ_CTRL 8 = true ∧ (s.dev.grp g.val).lastAuto = 0 ∧ 0 < (s.dev.grp g.val).point ∧ (s.dev.grp g.val).point < 4 ∧ usable (s.dev.grp g.val).point * 70 < b10 * 10000 ∧ (s.dev.grp g.val).waiting = none ∧ ((∀ k, k < 4 → (s.dev.grp k).change = none)) ∧ (s.dev.hdr (Pg.mc g)).state.serves = true) ∧
    (∃ (s : State) (g : Group), (s.dev.grp g.val).train = none ∧ (s.dev.hdr (Pg.dp g)).state.serves = true) ∧
    (∃ (s : State) (g : Group) (passed : BitVec 9) (mask : Nat), (s.dev.grp g.val).train = some (mask, false) ∧ (s.dev.hdr (Pg.dp g)).state ≠ .starting ∧ mask < 512 ∧ ((∀ m : Member, mask.testBit m.val = true → passed.getLsbD m.val = true))) ∧
    (∃ (s : State) (g : Group) (passed : BitVec 9) (mask : Nat) (m : Member), (s.dev.grp g.val).train = some (mask, false) ∧ (s.dev.hdr (Pg.dp g)).state ≠ .starting ∧ mask.testBit m.val = true ∧ passed.getLsbD m.val = false) :=
  ⟨⟨on (rf (Pg.mc 0) Reg.MC_RETIRE_REC 0 0 1 ∘ dram), 0, 0, by decide +kernel⟩,
    ⟨on (gp (fun g => { g with rebuild := some (0, false) }) ∘ dram), 0, 0, by decide +kernel⟩,
    ⟨on (gp (fun g => { g with rebuild := some (0, false) }) ∘ dram), 0, 0, by decide +kernel⟩,
    ⟨on (gp (fun g => { g with rebuild := some (0, true) }) ∘ (fun d => d.setNv ((Pg.mc 0).val * 0x1000 + Reg.MC_RETIRE_REC) 1) ∘ rf (Pg.mc 0) Reg.MC_RETIRE_REC 0 0 1 ∘ dram), 0, 0, (wordIndex ((Pg.mc 0).val * 0x1000 + Reg.MC_RETIRE_REC)).get (by decide +kernel), by decide +kernel⟩,
    ⟨on (rf (Pg.mc 0) Reg.MC_FREQ_CTRL 1 0 2 ∘ dram), 0, by decide +kernel⟩,
    ⟨on (gp (fun g => { g with change := some 2 }) ∘ dram), 0, 0x1FF, 2, by decide +kernel⟩,
    ⟨on (gp (fun g => { g with point := 3 }) ∘ dram ∘ rf (Pg.mc 0) Reg.MC_FREQ_CTRL 8 8 1), 0, 2000000000000, by decide +kernel⟩,
    ⟨on dram, 0, by decide +kernel⟩,
    ⟨on (gp (fun g => { g with train := some (3, false) }) ∘ dram), 0, 3, 3, by decide +kernel⟩,
    ⟨on (gp (fun g => { g with train := some (3, false) }) ∘ dram), 0, 2, 3, 0, by decide +kernel⟩⟩

/-- States and operands that meet the hypotheses of Obligations.CellsQueuesAndBuckets, clause by clause. -/
theorem witness_CellsQueuesAndBuckets :
    (∃ (s : State) (src : Fin 21) (bytes : List Byte), s.dev.rxBody src.val = none ∧ bytes.length ≤ 256 ∧ bytes.length ≤ s.dev.maxStored src.val ∧ s.dev.reserveUsed src.val + cellsFor bytes.length ≤ s.dev.rf Pg.qm Reg.QM_CFG 7 0) ∧
    (∃ (s : State) (q : Fin 65536) (p : Pkt) (rest : List Pkt) (b : Body), (s.dev.qConsumer q.val = 1 ∨ s.dev.qConsumer q.val = 2) ∧ s.dev.queue q.val = p :: rest ∧ s.dev.body? p.body = some b ∧ b.done = false) ∧
    (∃ (s : State) (q : Fin 65536) (p : Pkt) (rest : List Pkt) (b : Body), s.dev.qConsumer q.val = 2 ∧ s.dev.queue q.val = p :: rest ∧ s.dev.body? p.body = some b ∧ b.done = true ∧ b.err = false) ∧
    (∃ (s : State), s.dev.qm.flushing = none) ∧
    (∃ (s : State) (q : Nat), s.dev.qm.flushing = some q) ∧
    (∃ (s : State), (s.dev.px.buckets.map Prod.fst).Nodup) ∧
    (∃ (s : State), (s.dev.tm.tokens.map Prod.fst).Nodup) :=
  ⟨⟨on id, 16, [1, 2], by decide +kernel⟩,
    ⟨on (queued (fun b => { b with done := false }) ∘ tf Pg.qm 20 2 6 5 2), 5, ((on (queued (fun b => { b with done := false }) ∘ tf Pg.qm 20 2 6 5 2)).dev.queue (5 : Fin 65536).val).head (by decide +kernel), ((on (queued (fun b => { b with done := false }) ∘ tf Pg.qm 20 2 6 5 2)).dev.queue (5 : Fin 65536).val).tail, { body0 with classified := true, refs := 1, done := false }, by decide +kernel⟩,
    ⟨on (queued id ∘ tf Pg.qm 20 2 6 5 2), 5, ((on (queued id ∘ tf Pg.qm 20 2 6 5 2)).dev.queue (5 : Fin 65536).val).head (by decide +kernel), ((on (queued id ∘ tf Pg.qm 20 2 6 5 2)).dev.queue (5 : Fin 65536).val).tail, ((on (queued id ∘ tf Pg.qm 20 2 6 5 2)).dev.body? (((on (queued id ∘ tf Pg.qm 20 2 6 5 2)).dev.queue (5 : Fin 65536).val).head (by decide +kernel) : Pkt).body).get (by decide +kernel), by decide +kernel⟩,
    ⟨on id, by decide +kernel⟩,
    ⟨on (qm (fun q => { q with flushing := some 5 })), 5, by decide +kernel⟩,
    ⟨on (px (fun x => { x with buckets := [(3, some (5, 6))] })), by decide +kernel⟩,
    ⟨on (tm (fun x => { x with tokens := [(3, some 6)] })), by decide +kernel⟩⟩

/-- States and operands that meet the hypotheses of Obligations.PortsSendFrames, clause by clause. -/
theorem witness_PortsSendFrames :
    (∃ (s : State) (port : Fin 20) (q : Nat) (p : Pkt) (b : Body), port.val < 17 ∧ (s.dev.hdr Pg.tm).state.serves = true ∧ s.dev.en.tripped = false ∧ s.dev.portUp port.val 0 = true ∧ s.dev.portQueues port.val 0 = [q] ∧ s.dev.qLevel q = 0 ∧ s.dev.queue q = [p] ∧ p.assured = none ∧ s.dev.gated port.val = false ∧ s.dev.tf Pg.tm (0x30000 + port.val) 1 13 0 = 0 ∧ s.dev.qShaper q = 0 ∧ s.dev.body? p.body = some b ∧ b.done = false) ∧
    (∃ (s : State) (port : Fin 20) (q : Nat) (p : Pkt), port.val < 17 ∧ (s.dev.hdr Pg.tm).state.serves = true ∧ s.dev.en.tripped = false ∧ s.dev.portUp port.val 0 = false ∧ s.dev.portQueues port.val 0 = [q] ∧ s.dev.queue q = [p] ∧ p.assured = none) ∧
    (∃ (s : State) (port : Fin 16), (s.dev.gate port.val).oper.en = true) ∧
    (∃ (s : State) (port : Fin 16) (c : GateCfg) (st : Nat), (s.dev.gate port.val).pend = some (c, st) ∧ (st : Int) ≤ s.dev.timeNs) ∧
    (∃ (s : State) (n : RingNo) (q : Nat) (i : Item) (d : Dev) (bs : List Byte), s.dev.item? n.val q = some i ∧ engineOf i.desc = 7 ∧ i.pend = none ∧ i.inst.isSome = true ∧ i.phase = .bound ∧ ctxOf i.desc < 17 ∧ lengthOf i.desc ≤ 4096 ∧ (s.dev.allPkts.any (fun p => p.assured == some (n.val, q)) = false) ∧ (s.dev.tm.kept.any (fun k => k.w.ring == n.val && k.w.seq == q) = false) ∧ s.dev.virtRead whoWire (s.dev.ringAsid n.val) (srcOf i.desc) (lengthOf i.desc) = (d, .ok, bs) ∧ d.wk.items = s.dev.wk.items) ∧
    (∃ (s : State) (n : RingNo) (q : Nat) (i : Item) (w : WireTx), s.dev.item? n.val q = some i ∧ engineOf i.desc = 7 ∧ i.pend = none ∧ i.inst.isSome = true ∧ i.phase = .running ∧ s.dev.tm.wire = [w] ∧ w.ring = n.val ∧ w.seq = q ∧ s.dev.portUp (ctxOf i.desc) 0 = true) ∧
    (∃ (s : State) (n : RingNo) (q : Nat) (i : Item) (w : WireTx), s.dev.item? n.val q = some i ∧ engineOf i.desc = 7 ∧ i.pend = none ∧ i.inst.isSome = true ∧ i.phase = .emitted ∧ s.dev.tm.wire = [w] ∧ w.ring = n.val ∧ w.seq = q ∧ descF i.desc 50 0 0 = 0) ∧
    (∃ (s : State) (n : Fin 17) (r : Reading) (b : Body), n.val < 16 ∧ (s.dev.qm.reading.find? (fun x => x.port == n.val) = some r) ∧ s.dev.body? r.pkt.body = some b) ∧
    (∃ (s : State) (r : Radio) (b : Burst), (s.dev.radio r.val).onAir = some b ∧ b.dead = false ∧ b.kind ≠ .grant) ∧
    (∃ (s : State) (n : Fin 17), n.val < 16 ∧ s.dev.rxBody n.val = none) ∧
    (∃ (s : State) (m : Fin 64) (a : Nat) (q : Nat), s.dev.tb Pg.tm (0x50000 + m.val) 0 16 = true ∧ (s.dev.mon m.val).frozen = false ∧ (s.dev.hdr Pg.tm).state.serves = true ∧ q = s.dev.tf Pg.tm (0x50000 + m.val) 0 15 0 ∧ s.dev.queue q = [] ∧ a = s.dev.tf Pg.tm (0x50000 + m.val) 2 31 13 * 8192 + s.dev.tf Pg.tm (0x50000 + m.val) 3 7 0 * 2 ^ 32 + (s.dev.mon m.val).wr * 8 ∧ targetOf a = .sram ∧ targetOf (a + 7) = .sram) ∧
    (∃ (s : State) (m : Fin 64), s.dev.tb Pg.tm (0x50000 + m.val) 0 16 = false) :=
  ⟨⟨on (queued (fun b => { b with done := false }) ∘ tf Pg.tm 10 0 4 0 16 ∘ tf Pg.tm 10 0 11 11 1 ∘ tf Pg.tm 10 0 7 5 0 ∘ rf Pg.mg Reg.MG_STAT 0 0 1), 16, 5, pkt0, ((on (queued (fun b => { b with done := false }) ∘ tf Pg.tm 10 0 4 0 16 ∘ tf Pg.tm 10 0 11 11 1 ∘ tf Pg.tm 10 0 7 5 0 ∘ rf Pg.mg Reg.MG_STAT 0 0 1)).dev.body? pkt0.body).get (by decide +kernel), by decide +kernel⟩,
    ⟨on (queued id ∘ tf Pg.tm 10 0 4 0 16 ∘ tf Pg.tm 10 0 11 11 1), 16, 5, pkt0, by decide +kernel⟩,
    ⟨on (tm (fun x => { x with gates := [(0, { Gate.reset with oper := ⟨true, 0, 1, 1000, 0⟩ })] })), 0, by decide +kernel⟩,
    ⟨on (tm (fun x => { x with gates := [(0, { Gate.reset with pend := some (⟨true, 0, 1, 1000, 0⟩, 0) })] })), 0, ⟨true, 0, 1, 1000, 0⟩, 0, by decide +kernel⟩,
    ⟨on (withItem wireDesc (fun i => { i with inst := some 0, phase := .bound })), 0, 1, ((on (withItem wireDesc (fun i => { i with inst := some 0, phase := .bound }))).dev.item? 0 1).get (by decide +kernel), ((on (withItem wireDesc (fun i => { i with inst := some 0, phase := .bound }))).dev.virtRead whoWire ((on (withItem wireDesc (fun i => { i with inst := some 0, phase := .bound }))).dev.ringAsid (0 : RingNo).val) (srcOf (((on (withItem wireDesc (fun i => { i with inst := some 0, phase := .bound }))).dev.item? 0 1).get (by decide +kernel) : Item).desc) (lengthOf (((on (withItem wireDesc (fun i => { i with inst := some 0, phase := .bound }))).dev.item? 0 1).get (by decide +kernel) : Item).desc)).1, List.replicate 16 0, by decide +kernel⟩,
    ⟨on (withItem wireDesc (fun i => { i with inst := some 0, phase := .running }) ∘ tm (fun x => { x with wire := [wire0] }) ∘ rf Pg.mg Reg.MG_STAT 0 0 1), 0, 1, ((on (withItem wireDesc (fun i => { i with inst := some 0, phase := .running }) ∘ tm (fun x => { x with wire := [wire0] }) ∘ rf Pg.mg Reg.MG_STAT 0 0 1)).dev.item? 0 1).get (by decide +kernel), wire0, by decide +kernel⟩,
    ⟨on (withItem wireDesc (fun i => { i with inst := some 0, phase := .emitted }) ∘ tm (fun x => { x with wire := [wire0] }) ∘ rf Pg.mg Reg.MG_STAT 0 0 1), 0, 1, ((on (withItem wireDesc (fun i => { i with inst := some 0, phase := .emitted }) ∘ tm (fun x => { x with wire := [wire0] }) ∘ rf Pg.mg Reg.MG_STAT 0 0 1)).dev.item? 0 1).get (by decide +kernel), wire0, by decide +kernel⟩,
    ⟨on (qm (fun q => { q with bodies := [(0, some { body0 with classified := true, refs := 1 })], reading := [⟨0, 5, pkt0⟩] })), 0, ⟨0, 5, pkt0⟩, { body0 with classified := true, refs := 1 }, by decide +kernel⟩,
    ⟨on (ra (fun r => { r with onAir := some burst0 })), 0, burst0, by decide +kernel⟩,
    ⟨on id, 0, by decide +kernel⟩,
    ⟨on (tf Pg.tm 0x50000 0 16 16 1 ∘ tf Pg.tm 0x50000 3 7 0 0x40), 0, 0x4000000000, (on (tf Pg.tm 0x50000 0 16 16 1 ∘ tf Pg.tm 0x50000 3 7 0 0x40)).dev.tf Pg.tm (0x50000 + (0 : Fin 64).val) 0 15 0, by decide +kernel⟩,
    ⟨on id, 0, by decide +kernel⟩⟩

/-- States and operands that meet the hypotheses of Obligations.VersionsLinksAndHangs, clause by clause. -/
theorem witness_VersionsLinksAndHangs :
    (∃ (s : State), s.dev.px.swapWait = false ∧ s.dev.px.swapRun = false ∧ s.dev.px.vers.length < 4) ∧
    (∃ (s : State), s.dev.px.swapWait = false ∧ s.dev.px.swapRun = false ∧ 4 ≤ s.dev.px.vers.length) ∧
    (∃ (s : State), s.dev.px.swapRun = true) ∧
    (∃ (s : State) (v : Fin 16), v.val ≠ s.dev.px.cur ∧ s.dev.verPackets v.val = 0 ∧ s.dev.px.swapWait = false) ∧
    (∃ (s : State) (v : Fin 16), (v.val = s.dev.px.cur ∨ s.dev.verPackets v.val ≠ 0)) ∧
    (∃ (s : State) (port : Fin 17), port.val < 16 ∧ s.dev.rb (epPage port.val) Reg.EP_LINK_STAT (port.val % 4) = true) ∧
    (∃ (s : State) (port : Fin 17), port.val < 16 ∧ s.dev.rb (epPage port.val) Reg.EP_LINK_STAT (port.val % 4) = false ∧ s.dev.portExists port.val = true ∧ s.dev.laneDown port.val = false ∧ (s.dev.hdr (epPage port.val)).state.serves = true) ∧
    (∃ (s : State), s.dev.rb Pg.mg Reg.MG_STAT 0 = false ∧ (s.dev.hdr Pg.mg).state.serves = true) ∧
    (∃ (s : State), s.dev.rb Pg.mg Reg.MG_STAT 0 = true) ∧
    (∃ (s : State) (port : Fin 17), port.val < 16 ∧ (s.dev.portExists port.val = false ∨ s.dev.laneDown port.val = true)) ∧
    (∃ (s : State) (ep : Fin 4) (lane : Fin 4), s.dev.portMode (4 * ep.val) < 4 ∧ s.dev.unitOut (epPage (4 * ep.val)) lane.val = false) ∧
    (∃ (s : State), s.dev.up Pg.px = true ∧ s.dev.px.walks ≠ []) ∧
    (∃ (s : State) (src : Nat) (b : Nat) (x : Body), s.dev.up Pg.px = true ∧ src < 16 ∧ s.dev.qm.rx = [(src, some b)] ∧ s.dev.body? b = some x ∧ x.classified = false ∧ x.done = false) ∧
    (∃ (s : State) (port : Nat) (q : Nat), port < 20 ∧ s.dev.qEgress q = port ∧ s.dev.qConsumer q = 0 ∧ s.dev.eligible port q = true) :=
  ⟨⟨on id, by decide +kernel⟩,
    ⟨on (px (fun x => { x with vers := [⟨0, []⟩, ⟨1, []⟩, ⟨2, []⟩, ⟨3, []⟩] })), by decide +kernel⟩,
    ⟨on (px (fun x => { x with swapRun := true })), by decide +kernel⟩,
    ⟨on id, 1, by decide +kernel⟩,
    ⟨on id, 0, by decide +kernel⟩,
    ⟨on (rf (epPage 0) Reg.EP_LINK_STAT 0 0 1), 0, by decide +kernel⟩,
    ⟨on id, 0, by decide +kernel⟩,
    ⟨on id, by decide +kernel⟩,
    ⟨on (rf Pg.mg Reg.MG_STAT 0 0 1), by decide +kernel⟩,
    ⟨on (rf (epPage 0) Reg.EP_PORT_MODE 2 0 0), 1, by decide +kernel⟩,
    ⟨on id, 0, 0, by decide +kernel⟩,
    ⟨on (px (fun x => { x with walks := [walk0] })), by decide +kernel⟩,
    ⟨on (qm (fun q => { q with bodies := [(0, some { body0 with source := 0, done := false })], rx := [(0, some 0)] })), 0, 0, { body0 with source := 0, done := false }, by decide +kernel⟩,
    ⟨on (queued id ∘ tf Pg.tm 10 0 4 0 16 ∘ tf Pg.tm 10 0 11 11 1 ∘ tf Pg.tm 10 0 7 5 0 ∘ rf Pg.mg Reg.MG_STAT 0 0 1), 16, 5, by decide +kernel⟩⟩

/-- States and operands that meet the hypotheses of Obligations.IngressPipeline, clause by clause. -/
theorem witness_IngressPipeline :
    (∃ (s : State) (f : RxFrame) (b : Nat) (x : Body), s.dev.up Pg.px = true ∧ f.source.val < 17 ∧ s.dev.rxBody f.source.val = some b ∧ s.dev.body? b = some x ∧ x.done = true ∧ x.classified = false ∧ x.dropped = false ∧ x.refs = 0 ∧ x.walking = false ∧ s.dev.air.toPx = [] ∧ f.dmac = 0 ∧ f.parseError = true) ∧
    (∃ (s : State) (f : RxFrame) (b : Nat) (x : Body), s.dev.up Pg.px = true ∧ f.source.val < 17 ∧ s.dev.rxBody f.source.val = some b ∧ s.dev.body? b = some x ∧ x.done = true ∧ x.classified = false ∧ x.dropped = false ∧ x.refs = 0 ∧ x.walking = false ∧ s.dev.air.toPx = [] ∧ f.dmac = 0 ∧ f.parseError = false ∧ f.tagged = true ∧ f.vid ≠ 0 ∧ bit f.source.val (s.dev.tw Pg.px (0x490000 + f.vid.val) 0) = false) ∧
    (∃ (s : State) (f : RxFrame) (b : Nat) (vid : Nat) (x : Body), s.dev.up Pg.px = true ∧ f.source.val < 17 ∧ s.dev.rxBody f.source.val = some b ∧ s.dev.body? b = some x ∧ x.done = true ∧ x.classified = false ∧ x.dropped = false ∧ x.refs = 0 ∧ x.walking = false ∧ s.dev.air.toPx = [] ∧ f.dmac = 0 ∧ f.parseError = false ∧ f.tagged = false ∧ f.ip = 4 ∧ f.leg = none ∧ vid = s.dev.tf Pg.px (0x4B0000 + f.source.val * 16) 0 11 0 ∧ s.dev.rb Pg.px Reg.PX_MGMT_VLAN 12 = false ∧ s.dev.tb Pg.px (0x490000 + vid) 2 0 = true ∧ ((∀ tc : Fin 8, s.dev.policerOf vid f.source.val tc.val = none)) ∧ s.dev.rb Pg.px Reg.PX_CFG 0 = true ∧ s.dev.lookup false (f.dst.toNat % 2 ^ 32 * 2 ^ 96) = none) ∧
    (∃ (s : State) (f : RxFrame) (b : Nat) (vid : Nat) (tc : Nat) (n : Nat) (q : Nat) (x : Body) (r : Route), s.dev.up Pg.px = true ∧ f.source.val < 17 ∧ s.dev.rxBody f.source.val = some b ∧ s.dev.body? b = some x ∧ x.done = true ∧ x.classified = false ∧ x.dropped = false ∧ s.dev.air.toPx = [] ∧ f.dmac = 0 ∧ f.parseError = false ∧ f.tagged = false ∧ f.ip = 4 ∧ f.leg = none ∧ 1 < f.ttl.val ∧ vid = s.dev.tf Pg.px (0x4B0000 + f.source.val * 16) 0 11 0 ∧ s.dev.rb Pg.px Reg.PX_MGMT_VLAN 12 = false ∧ s.dev.tb Pg.px (0x490000 + vid) 2 0 = true ∧ s.dev.tb Pg.px (0x4B0000 + f.source.val * 16) 0 15 = false ∧ tc = s.dev.tf Pg.px (0x4B0000 + f.source.val * 16) 0 14 12 ∧ s.dev.policerOf vid f.source.val tc = none ∧ s.dev.rb Pg.px Reg.PX_CFG 0 = true ∧ s.dev.lookup false (f.dst.toNat % 2 ^ 32 * 2 ^ 96) = some r ∧ fld 1 0 (s.dev.nhWord r.nh 0 0) = 0 ∧ s.dev.nhChoice r.nh = some n ∧ s.dev.tb Pg.px (0x4C0000 + fld 20 16 (s.dev.nhWord n 0 0) * 8 + tc) 0 8 = false ∧ q = fld 15 0 (s.dev.nhWord n 0 1) + tc ∧ s.dev.admitQ q (cellsFor f.length) = .accept) :=
  ⟨⟨on arrived, { frame0 with parseError := true }, 0, body0, by decide +kernel⟩,
    ⟨on arrived, { frame0 with tagged := true, vid := 7 }, 0, body0, by decide +kernel⟩,
    ⟨on (arrived ∘ tf Pg.px 0x4B0100 0 11 0 9 ∘ tf Pg.px 0x490009 2 0 0 1 ∘ rf Pg.px Reg.PX_CFG 0 0 1 ∘ rf Pg.px Reg.PX_MGMT_VLAN 12 12 0), frame0, 0, (on (arrived ∘ tf Pg.px 0x4B0100 0 11 0 9 ∘ tf Pg.px 0x490009 2 0 0 1 ∘ rf Pg.px Reg.PX_CFG 0 0 1 ∘ rf Pg.px Reg.PX_MGMT_VLAN 12 12 0)).dev.tf Pg.px (0x4B0000 + frame0.source.val * 16) 0 11 0, body0, by decide +kernel⟩,
    ⟨on (arrived ∘ tf Pg.px 0x4B0100 0 11 0 9 ∘ tf Pg.px 0x490009 2 0 0 1 ∘ rf Pg.px Reg.PX_CFG 0 0 1 ∘ rf Pg.px Reg.PX_MGMT_VLAN 12 12 0 ∘ rf Pg.mg Reg.MG_STAT 0 0 1 ∘ px (fun x => { x with vers := [⟨0, [(tblKey Pg.px 0x400001 0, 0x200), (tblKey Pg.px 0x480000 0, 0x100000)]⟩] })), frame0, 0, (on (arrived ∘ tf Pg.px 0x4B0100 0 11 0 9 ∘ tf Pg.px 0x490009 2 0 0 1 ∘ rf Pg.px Reg.PX_CFG 0 0 1 ∘ rf Pg.px Reg.PX_MGMT_VLAN 12 12 0 ∘ rf Pg.mg Reg.MG_STAT 0 0 1 ∘ px (fun x => { x with vers := [⟨0, [(tblKey Pg.px 0x400001 0, 0x200), (tblKey Pg.px 0x480000 0, 0x100000)]⟩] }))).dev.tf Pg.px (0x4B0000 + frame0.source.val * 16) 0 11 0, (on (arrived ∘ tf Pg.px 0x4B0100 0 11 0 9 ∘ tf Pg.px 0x490009 2 0 0 1 ∘ rf Pg.px Reg.PX_CFG 0 0 1 ∘ rf Pg.px Reg.PX_MGMT_VLAN 12 12 0 ∘ rf Pg.mg Reg.MG_STAT 0 0 1 ∘ px (fun x => { x with vers := [⟨0, [(tblKey Pg.px 0x400001 0, 0x200), (tblKey Pg.px 0x480000 0, 0x100000)]⟩] }))).dev.tf Pg.px (0x4B0000 + frame0.source.val * 16) 0 14 12, 0, fld 15 0 ((on (arrived ∘ tf Pg.px 0x4B0100 0 11 0 9 ∘ tf Pg.px 0x490009 2 0 0 1 ∘ rf Pg.px Reg.PX_CFG 0 0 1 ∘ rf Pg.px Reg.PX_MGMT_VLAN 12 12 0 ∘ rf Pg.mg Reg.MG_STAT 0 0 1 ∘ px (fun x => { x with vers := [⟨0, [(tblKey Pg.px 0x400001 0, 0x200), (tblKey Pg.px 0x480000 0, 0x100000)]⟩] }))).dev.nhWord (0 : Nat) 0 1) + ((on (arrived ∘ tf Pg.px 0x4B0100 0 11 0 9 ∘ tf Pg.px 0x490009 2 0 0 1 ∘ rf Pg.px Reg.PX_CFG 0 0 1 ∘ rf Pg.px Reg.PX_MGMT_VLAN 12 12 0 ∘ rf Pg.mg Reg.MG_STAT 0 0 1 ∘ px (fun x => { x with vers := [⟨0, [(tblKey Pg.px 0x400001 0, 0x200), (tblKey Pg.px 0x480000 0, 0x100000)]⟩] }))).dev.tf Pg.px (0x4B0000 + frame0.source.val * 16) 0 14 12 : Nat), body0, ⟨0, 0⟩, by decide +kernel⟩⟩

/-- States and operands that meet the hypotheses of Obligations.ConferenceAdapts, clause by clause. -/
theorem witness_ConferenceAdapts :
    (∃ (s : State) (w : PxWalk) (ws : List PxWalk) (n : Nat), s.dev.px.walks = w :: ws ∧ s.dev.nodeCopies w.node = [] ∧ s.dev.nodeNext w.node = some n ∧ w.done + 1 < 64) ∧
    (∃ (s : State) (w : PxWalk) (ws : List PxWalk) (n : Nat), s.dev.px.walks = w :: ws ∧ s.dev.nodeCopies w.node = [] ∧ s.dev.nodeNext w.node = some n ∧ 64 ≤ w.done + 1) ∧
    (∃ (s : State) (w : PxWalk) (ws : List PxWalk), s.dev.px.walks = w :: ws ∧ s.dev.nodeCopies w.node = [] ∧ s.dev.nodeNext w.node = none) ∧
    (∃ (s : State) (l : Nat) (e : Nat) (src : Nat) (want : Nat), (s.dev.hdr Pg.px).state.serves = true ∧ s.dev.fwRuns = false ∧ s.dev.enabledLegs = [l] ∧ s.dev.legAdapt l = true ∧ s.dev.legWants l = [(e, src, want)] ∧ want < 256 ∧ layerRank want < layerRank (s.dev.copyCur e)) ∧
    (∃ (s : State) (l : Nat) (e : Nat) (src : Nat) (want : Nat), (s.dev.hdr Pg.px).state.serves = true ∧ s.dev.fwRuns = false ∧ s.dev.enabledLegs = [l] ∧ s.dev.legAdapt l = true ∧ s.dev.legWants l = [(e, src, want)] ∧ want < 256 ∧ layerRank (s.dev.copyCur e) < layerRank want) ∧
    (∃ (s : State) (node : Fin 16384) (slot : Fin 64) (e : Nat) (src : Nat), e = node.val * 64 + slot.val ∧ s.dev.nodeSource node.val = some src ∧ s.dev.copyValid e = true ∧ s.dev.copyPending e = true ∧ s.dev.copyTarget e ≠ noLayer ∧ s.dev.copyCur e / 16 ≠ s.dev.copyTarget e / 16 ∧ s.dev.srcLocal src = false ∧ s.dev.srcGdr src = false ∧ s.dev.pxGdr (src * 4 + s.dev.copyTarget e / 16) = false ∧ s.dev.fwRuns = true ∧ (SMap.get (fun _ => none) s.dev.px.keyAt src = none)) ∧
    (∃ (s : State) (leg : Fin 8192) (r : RtcpReport) (v : Nat), ((∃ k, r = .tmmbr k ∧ v = k) ∨ (∃ loss, r = .receiver loss ∧ 10 < loss ∧ v = s.dev.legEstimate leg.val * 85 / 100) ∨ (∃ loss, r = .receiver loss ∧ loss < 2 ∧ v = s.dev.legEstimate leg.val * 105 / 100)) ∧ s.dev.legEn leg.val = true ∧ s.dev.legEdge leg.val ≠ 1 ∧ s.dev.fwRuns = true) ∧
    (∃ (loss : Nat), 2 ≤ loss ∧ loss ≤ 10) ∧
    (∃ (s : State) (leg : Fin 8192), s.dev.legClosing leg.val = true ∧ s.dev.legInflight leg.val = 0) ∧
    (∃ (s : State) (leg : Fin 8192), s.dev.legInflight leg.val ≠ 0) ∧
    (∃ (s : State) (fps : Fin 128) (k0 : BitVec 128) (e : Nat) (c : Nat), s.dev.placeEngine (chargedPixels (fld 12 0 (wordAt k0 3)) (fld 28 16 (wordAt k0 3)) * fps.val) = some e ∧ s.dev.freeContext e = some c) ∧
    (∃ (s : State) (fps : Fin 128) (k0 : BitVec 128), s.dev.placeEngine (chargedPixels (fld 12 0 (wordAt k0 3)) (fld 28 16 (wordAt k0 3)) * fps.val) = none) :=
  ⟨⟨on (px (fun x => { x with walks := [walk0] }) ∘ tf Pg.px 0x40000 0 14 14 1), ((on (px (fun x => { x with walks := [walk0] }) ∘ tf Pg.px 0x40000 0 14 14 1)).dev.px.walks).head (by decide +kernel), ((on (px (fun x => { x with walks := [walk0] }) ∘ tf Pg.px 0x40000 0 14 14 1)).dev.px.walks).tail, 0, by decide +kernel⟩,
    ⟨on (px (fun x => { x with walks := [{ walk0 with done := 63 }] }) ∘ tf Pg.px 0x40000 0 14 14 1), ((on (px (fun x => { x with walks := [{ walk0 with done := 63 }] }) ∘ tf Pg.px 0x40000 0 14 14 1)).dev.px.walks).head (by decide +kernel), ((on (px (fun x => { x with walks := [{ walk0 with done := 63 }] }) ∘ tf Pg.px 0x40000 0 14 14 1)).dev.px.walks).tail, 0, by decide +kernel⟩,
    ⟨on (px (fun x => { x with walks := [walk0] })), ((on (px (fun x => { x with walks := [walk0] }))).dev.px.walks).head (by decide +kernel), ((on (px (fun x => { x with walks := [walk0] }))).dev.px.walks).tail, by decide +kernel⟩,
    ⟨on (conf 0x33 ∘ sy (fun y => { y with ccReleased := false })), 0, 0, 0, (((on (conf 0x33 ∘ sy (fun y => { y with ccReleased := false }))).dev.legWants 0).head (by decide +kernel)).2.2, by decide +kernel⟩,
    ⟨on (conf 0xFF ∘ sy (fun y => { y with ccReleased := false })), 0, 0, 0, (((on (conf 0xFF ∘ sy (fun y => { y with ccReleased := false }))).dev.legWants 0).head (by decide +kernel)).2.2, by decide +kernel⟩,
    ⟨on (conf 0xFF ∘ tf Pg.px 0x200000 0 15 8 0 ∘ tf Pg.px 0x200000 0 16 16 1), 0, 0, (0 : Fin 16384).val * 64 + (0 : Fin 64).val, 0, by decide +kernel⟩,
    ⟨on (conf 0 ∘ tf Pg.px 0x10001 1 19 0 5000), 0, .tmmbr 7000, 7000, (.inl ⟨7000, rfl, rfl⟩), by decide +kernel⟩,
    ⟨5, by decide +kernel⟩,
    ⟨on (tf Pg.px 0x10000 0 1 1 1), 0, by decide +kernel⟩,
    ⟨on (tf Pg.px 0x10000 3 15 0 1), 0, by decide +kernel⟩,
    ⟨on id, 30, 0, ((on id).dev.placeEngine (chargedPixels (fld 12 0 (wordAt (0 : BitVec 128) 3)) (fld 28 16 (wordAt (0 : BitVec 128) 3)) * (30 : Fin 128).val)).get (by decide +kernel), ((on id).dev.freeContext (((on id).dev.placeEngine (chargedPixels (fld 12 0 (wordAt (0 : BitVec 128) 3)) (fld 28 16 (wordAt (0 : BitVec 128) 3)) * (30 : Fin 128).val)).get (by decide +kernel) : Nat)).get (by decide +kernel), by decide +kernel⟩,
    ⟨on id, 100, BitVec.ofNat 128 (0x1FFF1FFF * 2 ^ 96), by decide +kernel⟩⟩

/-- States and operands that meet the hypotheses of Obligations.VideoItems, clause by clause. -/
theorem witness_VideoItems :
    (∃ (s : State) (n : RingNo) (q : Nat) (i : Item), s.dev.itemAt n.val q 2 = some i ∧ opOf i.desc = 0 ∧ s.dev.ctxInvalid i false = false ∧ ((s.dev.veng (ctxOf i.desc / 512)).queue.any (fun j => j.item == some (n.val, q)) = false) ∧ ((s.dev.veng (ctxOf i.desc / 512)).bound.any (fun p => p.job.item == some (n.val, q)) = false)) ∧
    (∃ (s : State) (n : RingNo) (q : Nat) (i : Item), s.dev.itemAt n.val q 3 = some i ∧ opOf i.desc = 0 ∧ s.dev.ctxInvalid i true = false ∧ descF i.desc 52 15 0 * s.dev.ctxH (ctxOf i.desc) * 3 / 2 ≤ lengthOf i.desc ∧ ((s.dev.veng (ctxOf i.desc / 512)).queue.any (fun j => j.item == some (n.val, q)) = false) ∧ ((s.dev.veng (ctxOf i.desc / 512)).bound.any (fun p => p.job.item == some (n.val, q)) = false)) ∧
    (∃ (s : State) (n : RingNo) (q : Nat) (e : Nat) (i : Item) (c : Instr) (enc : Bool), (c, e, opOf i.desc, enc) ∈ [(Instr.decode n q, 2, 0, false), (.outputNext n q, 2, 1, false), (.clearCtx n q, 2, 2, false), (.encode n q, 3, 0, true), (.rcReset n q, 3, 1, true)] ∧ s.dev.itemAt n.val q e = some i ∧ i.inst.getD 0 < 16 ∧ s.dev.ctxInvalid i enc = true) ∧
    (∃ (s : State) (n : RingNo) (q : Nat) (i : Item), s.dev.itemAt n.val q 3 = some i ∧ opOf i.desc = 0 ∧ s.dev.ctxInvalid i true = false ∧ lengthOf i.desc < descF i.desc 52 15 0 * s.dev.ctxH (ctxOf i.desc) * 3 / 2) ∧
    (∃ (s : State) (n : RingNo) (q : Nat) (h : Nat) (i : Item) (p : DpbPic), h = ctxOf i.desc ∧ s.dev.itemAt n.val q 2 = some i ∧ opOf i.desc = 1 ∧ s.dev.ctxInvalid i false = false ∧ s.dev.ctxBusy h = false ∧ (s.dev.vctxOf h).pend = [] ∧ (s.dev.vctxOf h).cur.nextOut = some p ∧ dstOf i.desc = 0) ∧
    (∃ (s : State) (n : RingNo) (q : Nat) (h : Nat) (i : Item), h = ctxOf i.desc ∧ s.dev.itemAt n.val q 2 = some i ∧ opOf i.desc = 2 ∧ s.dev.ctxInvalid i false = false ∧ s.dev.ctxBusy h = false ∧ (s.dev.vctxOf h).pend = []) ∧
    (∃ (s : State) (n : RingNo) (q : Nat) (h : Nat) (i : Item), h = ctxOf i.desc ∧ s.dev.itemAt n.val q 3 = some i ∧ opOf i.desc = 1 ∧ s.dev.ctxInvalid i true = false ∧ s.dev.ctxBusy h = false ∧ (s.dev.vctxOf h).pend = []) :=
  ⟨⟨on (bound (desc [(8, 2), (13, 0xFF)]) ∘ decCtx), 0, 1, ((on (bound (desc [(8, 2), (13, 0xFF)]) ∘ decCtx)).dev.itemAt (0 : RingNo).val (1 : Nat) 2).get (by decide +kernel), by decide +kernel⟩,
    ⟨on (bound (desc [(8, 3), (13, 0xFF)]) ∘ encCtx), 0, 1, ((on (bound (desc [(8, 3), (13, 0xFF)]) ∘ encCtx)).dev.itemAt (0 : RingNo).val (1 : Nat) 3).get (by decide +kernel), by decide +kernel⟩,
    ⟨on (bound (desc [(8, (2 : Nat)), (13, 0xFF), (9, if (Instr.decode 0 1 : Instr) = .outputNext 0 1 ∨ (Instr.decode 0 1 : Instr) = .rcReset 0 1 then 1 else if (Instr.decode 0 1 : Instr) = .clearCtx 0 1 then 2 else 0)])), 0, 1, 2, ((on (bound (desc [(8, (2 : Nat)), (13, 0xFF), (9, if (Instr.decode 0 1 : Instr) = .outputNext 0 1 ∨ (Instr.decode 0 1 : Instr) = .rcReset 0 1 then 1 else if (Instr.decode 0 1 : Instr) = .clearCtx 0 1 then 2 else 0)]))).dev.itemAt (0 : RingNo).val (1 : Nat) (2 : Nat)).get (by decide +kernel), Instr.decode 0 1, false, by decide +kernel⟩,
    ⟨on (bound (desc [(8, 3), (13, 0xFF), (52, 64)]) ∘ encCtx), 0, 1, ((on (bound (desc [(8, 3), (13, 0xFF), (52, 64)]) ∘ encCtx)).dev.itemAt (0 : RingNo).val (1 : Nat) 3).get (by decide +kernel), by decide +kernel⟩,
    ⟨on (bound (desc [(8, 2), (9, 1), (13, 0xFF)]) ∘ decCtx ∘ (fun d => { d with vctx := [(0, { VCtx.reset with cur := { VGen.empty with dpb := [⟨4, some 0, 0, false, false, true⟩] } })] })), 0, 1, ctxOf (((on (bound (desc [(8, 2), (9, 1), (13, 0xFF)]) ∘ decCtx ∘ (fun d => { d with vctx := [(0, { VCtx.reset with cur := { VGen.empty with dpb := [⟨4, some 0, 0, false, false, true⟩] } })] }))).dev.itemAt (0 : RingNo).val (1 : Nat) 2).get (by decide +kernel) : Item).desc, ((on (bound (desc [(8, 2), (9, 1), (13, 0xFF)]) ∘ decCtx ∘ (fun d => { d with vctx := [(0, { VCtx.reset with cur := { VGen.empty with dpb := [⟨4, some 0, 0, false, false, true⟩] } })] }))).dev.itemAt (0 : RingNo).val (1 : Nat) 2).get (by decide +kernel), (((on (bound (desc [(8, 2), (9, 1), (13, 0xFF)]) ∘ decCtx ∘ (fun d => { d with vctx := [(0, { VCtx.reset with cur := { VGen.empty with dpb := [⟨4, some 0, 0, false, false, true⟩] } })] }))).dev.vctxOf (ctxOf (((on (bound (desc [(8, 2), (9, 1), (13, 0xFF)]) ∘ decCtx ∘ (fun d => { d with vctx := [(0, { VCtx.reset with cur := { VGen.empty with dpb := [⟨4, some 0, 0, false, false, true⟩] } })] }))).dev.itemAt (0 : RingNo).val (1 : Nat) 2).get (by decide +kernel) : Item).desc)).cur.nextOut).get (by decide +kernel), by decide +kernel⟩,
    ⟨on (bound (desc [(8, 2), (9, 2), (13, 0xFF)]) ∘ decCtx), 0, 1, ctxOf (((on (bound (desc [(8, 2), (9, 2), (13, 0xFF)]) ∘ decCtx)).dev.itemAt (0 : RingNo).val (1 : Nat) 2).get (by decide +kernel) : Item).desc, ((on (bound (desc [(8, 2), (9, 2), (13, 0xFF)]) ∘ decCtx)).dev.itemAt (0 : RingNo).val (1 : Nat) 2).get (by decide +kernel), by decide +kernel⟩,
    ⟨on (bound (desc [(8, 3), (9, 1), (13, 0xFF)]) ∘ encCtx), 0, 1, ctxOf (((on (bound (desc [(8, 3), (9, 1), (13, 0xFF)]) ∘ encCtx)).dev.itemAt (0 : RingNo).val (1 : Nat) 3).get (by decide +kernel) : Item).desc, ((on (bound (desc [(8, 3), (9, 1), (13, 0xFF)]) ∘ encCtx)).dev.itemAt (0 : RingNo).val (1 : Nat) 3).get (by decide +kernel), by decide +kernel⟩⟩

/-- States and operands that meet the hypotheses of Obligations.DecodingOnTheEngine, clause by clause. -/
theorem witness_DecodingOnTheEngine :
    (∃ (s : State) (e : Engine) (r : ParseResult) (j : VJob) (h : Nat) (sl : Nat), s.dev.canBind e.val false = some j ∧ h = e.val * 512 + j.ctx ∧ j.skip = false ∧ s.dev.pictureUnsupported h r = false ∧ r.syntaxErrors = 0 ∧ r.missing = [] ∧ s.dev.freeSlot h = some sl) ∧
    (∃ (s : State) (e : Engine) (r : ParseResult) (j : VJob), s.dev.canBind e.val false = some j ∧ j.ctx < 512 ∧ j.skip = false ∧ s.dev.pictureUnsupported (e.val * 512 + j.ctx) r = true) ∧
    (∃ (s : State) (e : Engine) (h : Nat) (p : VPic) (rest : List VPic), (s.dev.veng e.val).bound = p :: rest ∧ p.job.item = none ∧ p.job.encode = false ∧ p.fail = 0 ∧ p.job.skip = false ∧ p.job.dst = 0 ∧ s.dev.isParked (whoVe e.val) = false ∧ p.job.ctx < 512 ∧ h = e.val * 512 + p.job.ctx) ∧
    (∃ (s : State) (e : Engine) (n : Nat) (q : Nat) (h : Nat) (p : VPic) (rest : List VPic) (i : Item), (s.dev.veng e.val).bound = p :: rest ∧ p.job.item = some (n, q) ∧ s.dev.item? n q = some i ∧ i.recorded = .started ∧ i.pend = none ∧ p.job.encode = false ∧ p.fail = 0 ∧ p.job.skip = false ∧ p.job.dst = 0 ∧ s.dev.isParked (whoVe e.val) = false ∧ h = e.val * 512 + p.job.ctx) ∧
    (∃ (s : State) (e : Engine), (s.dev.veng e.val).bound ≠ [] ∧ s.dev.isParked (whoVe e.val) = false) ∧
    (∃ (s : State) (e : Engine) (m : RefMiss) (ms : List RefMiss), (s.dev.veng e.val).miss = m :: ms) ∧
    (∃ (s : State) (e : Engine) (ctx : Fin 512) (h : Nat) (l : Nat) (src : Nat), h = e.val * 512 + ctx.val ∧ s.dev.ctxValid h = true ∧ s.dev.ctxEncode h = false ∧ (s.dev.vctxOf h).cur.dpb.any (·.conc) = true ∧ s.dev.tb (pg (0x10 + e.val)) (ctx.val * 4 + 3) 0 13 = true ∧ s.dev.fwRuns = true ∧ l = s.dev.tf (pg (0x10 + e.val)) (ctx.val * 4 + 3) 0 12 0 ∧ src = s.dev.legSource l ∧ (s.dev.legX l).pliAt = none ∧ s.dev.pxGdr (src * 4 + s.dev.tf (pg (0x10 + e.val)) (ctx.val * 4 + 3) 0 17 16) = false ∧ s.dev.srcGdr src = false ∧ (SMap.get (fun _ => none) s.dev.px.keyAt src = none)) :=
  ⟨⟨on (ve (fun v => { v with queue := [job0 false] }) ∘ decCtx), 0, parse0, ((on (ve (fun v => { v with queue := [job0 false] }) ∘ decCtx)).dev.canBind (0 : Engine).val false).get (by decide +kernel), (0 : Engine).val * 512 + (((on (ve (fun v => { v with queue := [job0 false] }) ∘ decCtx)).dev.canBind (0 : Engine).val false).get (by decide +kernel) : VJob).ctx, ((on (ve (fun v => { v with queue := [job0 false] }) ∘ decCtx)).dev.freeSlot ((0 : Engine).val * 512 + (((on (ve (fun v => { v with queue := [job0 false] }) ∘ decCtx)).dev.canBind (0 : Engine).val false).get (by decide +kernel) : VJob).ctx : Nat)).get (by decide +kernel), by decide +kernel⟩,
    ⟨on (ve (fun v => { v with queue := [job0 false] }) ∘ decCtx), 0, { parse0 with unsupported := true }, job0 false, by decide +kernel⟩,
    ⟨on (ve (fun v => { v with bound := [{ VPic.start (job0 false) VGen.empty with slot := some 0 }] }) ∘ decCtx), 0, (0 : Engine).val * 512 + ((((on (ve (fun v => { v with bound := [{ VPic.start (job0 false) VGen.empty with slot := some 0 }] }) ∘ decCtx)).dev.veng (0 : Engine).val).bound).head (by decide +kernel) : VPic).job.ctx, (((on (ve (fun v => { v with bound := [{ VPic.start (job0 false) VGen.empty with slot := some 0 }] }) ∘ decCtx)).dev.veng (0 : Engine).val).bound).head (by decide +kernel), (((on (ve (fun v => { v with bound := [{ VPic.start (job0 false) VGen.empty with slot := some 0 }] }) ∘ decCtx)).dev.veng (0 : Engine).val).bound).tail, by decide +kernel⟩,
    ⟨on (ve (fun v => { v with bound := [{ VPic.start { job0 false with item := some (0, 1) } VGen.empty with slot := some 0 }] }) ∘ decCtx ∘ withItem (desc [(8, 2), (13, 0xFF)]) (fun i => { i with inst := some 0, phase := .running, recorded := .started })), 0, 0, 1, (0 : Engine).val * 512 + ((((on (ve (fun v => { v with bound := [{ VPic.start { job0 false with item := some (0, 1) } VGen.empty with slot := some 0 }] }) ∘ decCtx ∘ withItem (desc [(8, 2), (13, 0xFF)]) (fun i => { i with inst := some 0, phase := .running, recorded := .started }))).dev.veng (0 : Engine).val).bound).head (by decide +kernel) : VPic).job.ctx, (((on (ve (fun v => { v with bound := [{ VPic.start { job0 false with item := some (0, 1) } VGen.empty with slot := some 0 }] }) ∘ decCtx ∘ withItem (desc [(8, 2), (13, 0xFF)]) (fun i => { i with inst := some 0, phase := .running, recorded := .started }))).dev.veng (0 : Engine).val).bound).head (by decide +kernel), (((on (ve (fun v => { v with bound := [{ VPic.start { job0 false with item := some (0, 1) } VGen.empty with slot := some 0 }] }) ∘ decCtx ∘ withItem (desc [(8, 2), (13, 0xFF)]) (fun i => { i with inst := some 0, phase := .running, recorded := .started }))).dev.veng (0 : Engine).val).bound).tail, ((on (ve (fun v => { v with bound := [{ VPic.start { job0 false with item := some (0, 1) } VGen.empty with slot := some 0 }] }) ∘ decCtx ∘ withItem (desc [(8, 2), (13, 0xFF)]) (fun i => { i with inst := some 0, phase := .running, recorded := .started }))).dev.item? (0 : Nat) (1 : Nat)).get (by decide +kernel), by decide +kernel⟩,
    ⟨on (ve (fun v => { v with bound := [{ VPic.start (job0 false) VGen.empty with slot := some 0 }] }) ∘ decCtx), 0, by decide +kernel⟩,
    ⟨on (ve (fun v => { v with miss := [⟨7, 12, true⟩] })), 0, (((on (ve (fun v => { v with miss := [⟨7, 12, true⟩] }))).dev.veng (0 : Engine).val).miss).head (by decide +kernel), (((on (ve (fun v => { v with miss := [⟨7, 12, true⟩] }))).dev.veng (0 : Engine).val).miss).tail, by decide +kernel⟩,
    ⟨on (tf (pg 0x10) 3 0 13 13 1 ∘ decCtx ∘ (fun d => { d with vctx := [(0, { VCtx.reset with cur := { VGen.empty with dpb := [⟨4, some 0, 0, true, false, false⟩] } })] })), 0, 0, (0 : Engine).val * 512 + (0 : Fin 512).val, (on (tf (pg 0x10) 3 0 13 13 1 ∘ decCtx ∘ (fun d => { d with vctx := [(0, { VCtx.reset with cur := { VGen.empty with dpb := [⟨4, some 0, 0, true, false, false⟩] } })] }))).dev.tf (pg (0x10 + (0 : Engine).val)) ((0 : Fin 512).val * 4 + 3) 0 12 0, (on (tf (pg 0x10) 3 0 13 13 1 ∘ decCtx ∘ (fun d => { d with vctx := [(0, { VCtx.reset with cur := { VGen.empty with dpb := [⟨4, some 0, 0, true, false, false⟩] } })] }))).dev.legSource ((on (tf (pg 0x10) 3 0 13 13 1 ∘ decCtx ∘ (fun d => { d with vctx := [(0, { VCtx.reset with cur := { VGen.empty with dpb := [⟨4, some 0, 0, true, false, false⟩] } })] }))).dev.tf (pg (0x10 + (0 : Engine).val)) ((0 : Fin 512).val * 4 + 3) 0 12 0 : Nat), by decide +kernel⟩⟩

/-- States and operands that meet the hypotheses of Obligations.EncodingOnTheEngine, clause by clause. -/
theorem witness_EncodingOnTheEngine :
    (∃ (s : State) (e : Engine) (least : Nat) (h : Nat) (sl : Nat) (j : VJob) (pl : EncPlan), s.dev.canBind e.val true = some j ∧ h = e.val * 512 + j.ctx ∧ j.ctx < 512 ∧ least ≤ j.dstSize ∧ s.dev.freeSlot h = some sl ∧ pl = s.dev.planPicture h j (s.dev.workGen h) ∧ s.dev.encQpMin h ≤ s.dev.encQpMax h) ∧
    (∃ (s : State) (e : Engine) (least : Nat) (j : VJob), s.dev.canBind e.val true = some j ∧ j.dstSize < least) ∧
    (∃ (s : State) (e : Engine) (bits : Nat) (h : Nat) (aft : Nat) (p : VPic) (rest : List VPic), (s.dev.veng e.val).bound = p :: rest ∧ h = e.val * 512 + p.job.ctx ∧ p.job.ctx < 512 ∧ p.job.item = none ∧ p.job.encode = true ∧ p.fail = 0 ∧ p.row + 1 < p.rows ∧ s.dev.isParked (whoVe e.val) = false ∧ p.starved = none ∧ aft = s.dev.reserveAfter h p.bandAt p.rows p.row ∧ p.spent + bits + aft ≤ p.job.dstSize * 8 ∧ s.dev.encEmitValid h = false ∧ s.dev.encQpMin h ≤ s.dev.encQpMax h) ∧
    (∃ (s : State) (e : Engine) (bits : Nat) (h : Nat) (aft : Nat) (p : VPic) (rest : List VPic), (s.dev.veng e.val).bound = p :: rest ∧ h = e.val * 512 + p.job.ctx ∧ p.job.item = none ∧ p.job.encode = true ∧ p.fail = 0 ∧ p.row < p.rows ∧ s.dev.isParked (whoVe e.val) = false ∧ p.starved = none ∧ aft = s.dev.reserveAfter h p.bandAt p.rows p.row ∧ p.job.dstSize * 8 < p.spent + bits + aft ∧ s.dev.encEmitValid h = false) ∧
    (∃ (s : State) (e : Engine) (h : Nat) (p : VPic) (rest : List VPic), (s.dev.veng e.val).bound = p :: rest ∧ p.job.item = none ∧ p.job.encode = true ∧ p.fail = 0 ∧ p.rows ≤ p.row ∧ s.dev.isParked (whoVe e.val) = false ∧ h = e.val * 512 + p.job.ctx ∧ p.job.ctx < 512 ∧ s.dev.encEmitValid h = false) ∧
    (∃ (s : State) (e : Engine) (ctx : Fin 512) (h : Nat), h = e.val * 512 + ctx.val ∧ s.dev.ctxValid h = true ∧ s.dev.ctxEncode h = true) :=
  ⟨⟨on (ve (fun v => { v with queue := [job0 true] }) ∘ encCtx), 0, 100, (0 : Engine).val * 512 + (((on (ve (fun v => { v with queue := [job0 true] }) ∘ encCtx)).dev.canBind (0 : Engine).val true).get (by decide +kernel) : VJob).ctx, ((on (ve (fun v => { v with queue := [job0 true] }) ∘ encCtx)).dev.freeSlot ((0 : Engine).val * 512 + (((on (ve (fun v => { v with queue := [job0 true] }) ∘ encCtx)).dev.canBind (0 : Engine).val true).get (by decide +kernel) : VJob).ctx : Nat)).get (by decide +kernel), ((on (ve (fun v => { v with queue := [job0 true] }) ∘ encCtx)).dev.canBind (0 : Engine).val true).get (by decide +kernel), (on (ve (fun v => { v with queue := [job0 true] }) ∘ encCtx)).dev.planPicture ((0 : Engine).val * 512 + (((on (ve (fun v => { v with queue := [job0 true] }) ∘ encCtx)).dev.canBind (0 : Engine).val true).get (by decide +kernel) : VJob).ctx : Nat) (((on (ve (fun v => { v with queue := [job0 true] }) ∘ encCtx)).dev.canBind (0 : Engine).val true).get (by decide +kernel) : VJob) ((on (ve (fun v => { v with queue := [job0 true] }) ∘ encCtx)).dev.workGen ((0 : Engine).val * 512 + (((on (ve (fun v => { v with queue := [job0 true] }) ∘ encCtx)).dev.canBind (0 : Engine).val true).get (by decide +kernel) : VJob).ctx : Nat)), by decide +kernel⟩,
    ⟨on (ve (fun v => { v with queue := [job0 true] }) ∘ encCtx), 0, 2000, ((on (ve (fun v => { v with queue := [job0 true] }) ∘ encCtx)).dev.canBind (0 : Engine).val true).get (by decide +kernel), by decide +kernel⟩,
    ⟨on (ve (fun v => { v with bound := [{ VPic.start (job0 true) VGen.empty with slot := some 0, rows := 4, cap := 9000, budget := 4000 }] }) ∘ encCtx), 0, 100, (0 : Engine).val * 512 + ((((on (ve (fun v => { v with bound := [{ VPic.start (job0 true) VGen.empty with slot := some 0, rows := 4, cap := 9000, budget := 4000 }] }) ∘ encCtx)).dev.veng (0 : Engine).val).bound).head (by decide +kernel) : VPic).job.ctx, (on (ve (fun v => { v with bound := [{ VPic.start (job0 true) VGen.empty with slot := some 0, rows := 4, cap := 9000, budget := 4000 }] }) ∘ encCtx)).dev.reserveAfter ((0 : Engine).val * 512 + ((((on (ve (fun v => { v with bound := [{ VPic.start (job0 true) VGen.empty with slot := some 0, rows := 4, cap := 9000, budget := 4000 }] }) ∘ encCtx)).dev.veng (0 : Engine).val).bound).head (by decide +kernel) : VPic).job.ctx : Nat) ((((on (ve (fun v => { v with bound := [{ VPic.start (job0 true) VGen.empty with slot := some 0, rows := 4, cap := 9000, budget := 4000 }] }) ∘ encCtx)).dev.veng (0 : Engine).val).bound).head (by decide +kernel) : VPic).bandAt ((((on (ve (fun v => { v with bound := [{ VPic.start (job0 true) VGen.empty with slot := some 0, rows := 4, cap := 9000, budget := 4000 }] }) ∘ encCtx)).dev.veng (0 : Engine).val).bound).head (by decide +kernel) : VPic).rows ((((on (ve (fun v => { v with bound := [{ VPic.start (job0 true) VGen.empty with slot := some 0, rows := 4, cap := 9000, budget := 4000 }] }) ∘ encCtx)).dev.veng (0 : Engine).val).bound).head (by decide +kernel) : VPic).row, (((on (ve (fun v => { v with bound := [{ VPic.start (job0 true) VGen.empty with slot := some 0, rows := 4, cap := 9000, budget := 4000 }] }) ∘ encCtx)).dev.veng (0 : Engine).val).bound).head (by decide +kernel), (((on (ve (fun v => { v with bound := [{ VPic.start (job0 true) VGen.empty with slot := some 0, rows := 4, cap := 9000, budget := 4000 }] }) ∘ encCtx)).dev.veng (0 : Engine).val).bound).tail, by decide +kernel⟩,
    ⟨on (ve (fun v => { v with bound := [{ VPic.start (job0 true) VGen.empty with slot := some 0, rows := 4, cap := 9000, budget := 4000 }] }) ∘ encCtx), 0, 9000, (0 : Engine).val * 512 + ((((on (ve (fun v => { v with bound := [{ VPic.start (job0 true) VGen.empty with slot := some 0, rows := 4, cap := 9000, budget := 4000 }] }) ∘ encCtx)).dev.veng (0 : Engine).val).bound).head (by decide +kernel) : VPic).job.ctx, (on (ve (fun v => { v with bound := [{ VPic.start (job0 true) VGen.empty with slot := some 0, rows := 4, cap := 9000, budget := 4000 }] }) ∘ encCtx)).dev.reserveAfter ((0 : Engine).val * 512 + ((((on (ve (fun v => { v with bound := [{ VPic.start (job0 true) VGen.empty with slot := some 0, rows := 4, cap := 9000, budget := 4000 }] }) ∘ encCtx)).dev.veng (0 : Engine).val).bound).head (by decide +kernel) : VPic).job.ctx : Nat) ((((on (ve (fun v => { v with bound := [{ VPic.start (job0 true) VGen.empty with slot := some 0, rows := 4, cap := 9000, budget := 4000 }] }) ∘ encCtx)).dev.veng (0 : Engine).val).bound).head (by decide +kernel) : VPic).bandAt ((((on (ve (fun v => { v with bound := [{ VPic.start (job0 true) VGen.empty with slot := some 0, rows := 4, cap := 9000, budget := 4000 }] }) ∘ encCtx)).dev.veng (0 : Engine).val).bound).head (by decide +kernel) : VPic).rows ((((on (ve (fun v => { v with bound := [{ VPic.start (job0 true) VGen.empty with slot := some 0, rows := 4, cap := 9000, budget := 4000 }] }) ∘ encCtx)).dev.veng (0 : Engine).val).bound).head (by decide +kernel) : VPic).row, (((on (ve (fun v => { v with bound := [{ VPic.start (job0 true) VGen.empty with slot := some 0, rows := 4, cap := 9000, budget := 4000 }] }) ∘ encCtx)).dev.veng (0 : Engine).val).bound).head (by decide +kernel), (((on (ve (fun v => { v with bound := [{ VPic.start (job0 true) VGen.empty with slot := some 0, rows := 4, cap := 9000, budget := 4000 }] }) ∘ encCtx)).dev.veng (0 : Engine).val).bound).tail, by decide +kernel⟩,
    ⟨on (ve (fun v => { v with bound := [{ VPic.start (job0 true) VGen.empty with slot := some 0, rows := 4, row := 4, spent := 70 }] }) ∘ encCtx), 0, (0 : Engine).val * 512 + ((((on (ve (fun v => { v with bound := [{ VPic.start (job0 true) VGen.empty with slot := some 0, rows := 4, row := 4, spent := 70 }] }) ∘ encCtx)).dev.veng (0 : Engine).val).bound).head (by decide +kernel) : VPic).job.ctx, (((on (ve (fun v => { v with bound := [{ VPic.start (job0 true) VGen.empty with slot := some 0, rows := 4, row := 4, spent := 70 }] }) ∘ encCtx)).dev.veng (0 : Engine).val).bound).head (by decide +kernel), (((on (ve (fun v => { v with bound := [{ VPic.start (job0 true) VGen.empty with slot := some 0, rows := 4, row := 4, spent := 70 }] }) ∘ encCtx)).dev.veng (0 : Engine).val).bound).tail, by decide +kernel⟩,
    ⟨on encCtx, 0, 0, (0 : Engine).val * 512 + (0 : Fin 512).val, by decide +kernel⟩⟩

/-- States and operands that meet the hypotheses of Obligations.CompositorsOpenAndPublish, clause by clause. -/
theorem witness_CompositorsOpenAndPublish :
    (∃ (s : State) (n : RingNo) (q : Nat) (c : Nat) (o : Nat) (i : Item), s.dev.itemAt n.val q 5 = some i ∧ opOf i.desc = 0 ∧ c = ctxOf i.desc % 512 / 128 ∧ o = ctxOf i.desc % 512 % 128 ∧ (instanceOf i.desc = 0xFF ∨ instanceOf i.desc = c) ∧ s.dev.tb (cpPage c) (o * 64) 0 0 = true ∧ s.dev.tb (cpPage c) (o * 64) 0 1 = true ∧ ((s.dev.cpOut c o).reqs.any (fun x => x == (n.val, q)) = false)) ∧
    (∃ (s : State) (c : Compositor) (o : Fin 128) (r : Nat) (q : Nat) (sl : Nat) (xs : List (Nat × Nat)) (i : Item), s.dev.up (cpPage c.val) = true ∧ s.dev.tb (cpPage c.val) (o.val * 64) 0 0 = true ∧ s.dev.tb (cpPage c.val) (o.val * 64) 0 1 = true ∧ (s.dev.cpOut c.val o.val).reqs = (r, q) :: xs ∧ ((s.dev.cpUnit c.val).frames.any (fun f => f.out == o.val) = false) ∧ s.dev.cpFreeSlot c.val o.val = some sl ∧ s.dev.item? r q = some i) ∧
    (∃ (s : State) (c : Compositor) (o : Fin 128) (sl : Nat) (e : Nat) (fm : Form), s.dev.up (cpPage c.val) = true ∧ s.dev.tb (cpPage c.val) (o.val * 64) 0 0 = true ∧ s.dev.tb (cpPage c.val) (o.val * 64) 0 1 = false ∧ ((s.dev.cpUnit c.val).frames.any (fun f => f.out == o.val) = false) ∧ s.dev.cpFreeSlot c.val o.val = some sl ∧ s.dev.admission (cpPage c.val) 11 (s.dev.cpUnits c.val o.val) none = some (fm, e)) ∧
    (∃ (s : State) (c : Compositor) (o : Fin 128), s.dev.up (cpPage c.val) = true ∧ s.dev.tb (cpPage c.val) (o.val * 64) 0 0 = true ∧ s.dev.tb (cpPage c.val) (o.val * 64) 0 1 = false ∧ ((s.dev.cpUnit c.val).frames.any (fun f => f.out == o.val) = true)) ∧
    (∃ (s : State) (c : Compositor) (o : Fin 128), s.dev.up (cpPage c.val) = true ∧ s.dev.tb (cpPage c.val) (o.val * 64) 0 0 = true ∧ s.dev.tb (cpPage c.val) (o.val * 64) 0 1 = false ∧ ((s.dev.cpUnit c.val).frames.any (fun f => f.out == o.val) = false) ∧ s.dev.cpFreeSlot c.val o.val = none) ∧
    (∃ (s : State) (c : Compositor) (f : CpFrame) (fs : List CpFrame), (s.dev.cpUnit c.val).frames = f :: fs ∧ f.item = none ∧ ((∀ i, i < 8 → bit 0 (f.w (36 + i) 0) = false)) ∧ ((∀ r, r ∈ f.rows (fun a => ((s.dev.physByte a).getD 0).toNat) (s.dev.coef c.val) → s.dev.physCheck (f.poolBase + f.slot * f.slotSize + r.1) r.2.length true = .ok))) ∧
    (∃ (s : State) (c : Compositor) (f : CpFrame) (fs : List CpFrame) (r : Nat) (q : Nat) (i : Item), (s.dev.cpUnit c.val).frames = f :: fs ∧ f.item = some (r, q) ∧ s.dev.item? r q = some i ∧ i.recorded = .started ∧ i.pend = none) ∧
    (∃ (s : State) (c : Compositor), (s.dev.cpUnit c.val).frames ≠ []) ∧
    (∃ (s : State) (c : Compositor) (o : Nat) (l : Nat) (lost : Bool) (xs : List (Nat × Nat × Bool)), (s.dev.cpUnit c.val).stale = (o, l, lost) :: xs) ∧
    (∃ (s : State) (c : Compositor) (o : Nat) (k : Nat) (crc : Nat) (lost : Bool) (xs : List (Nat × Nat × Bool × Nat)), (s.dev.cpUnit c.val).sig = (o, k, lost, crc) :: xs) :=
  ⟨⟨on (bound (desc [(8, 5), (13, 0xFF)]) ∘ tf (cpPage 0) 0 0 1 0 3), 0, 1, ctxOf (((on (bound (desc [(8, 5), (13, 0xFF)]) ∘ tf (cpPage 0) 0 0 1 0 3)).dev.itemAt (0 : RingNo).val (1 : Nat) 5).get (by decide +kernel) : Item).desc % 512 / 128, ctxOf (((on (bound (desc [(8, 5), (13, 0xFF)]) ∘ tf (cpPage 0) 0 0 1 0 3)).dev.itemAt (0 : RingNo).val (1 : Nat) 5).get (by decide +kernel) : Item).desc % 512 % 128, ((on (bound (desc [(8, 5), (13, 0xFF)]) ∘ tf (cpPage 0) 0 0 1 0 3)).dev.itemAt (0 : RingNo).val (1 : Nat) 5).get (by decide +kernel), by decide +kernel⟩,
    ⟨on (bound (desc [(8, 5), (13, 0xFF)]) ∘ tf (cpPage 0) 0 0 1 0 3 ∘ tf (cpPage 0) 1 1 11 8 2 ∘ cp (fun u => { u with outs := [(0, { CpOut.reset with reqs := [(0, 1)] })] })), 0, 0, 0, 1, ((on (bound (desc [(8, 5), (13, 0xFF)]) ∘ tf (cpPage 0) 0 0 1 0 3 ∘ tf (cpPage 0) 1 1 11 8 2 ∘ cp (fun u => { u with outs := [(0, { CpOut.reset with reqs := [(0, 1)] })] }))).dev.cpFreeSlot (0 : Compositor).val (0 : Fin 128).val).get (by decide +kernel), [], ((on (bound (desc [(8, 5), (13, 0xFF)]) ∘ tf (cpPage 0) 0 0 1 0 3 ∘ tf (cpPage 0) 1 1 11 8 2 ∘ cp (fun u => { u with outs := [(0, { CpOut.reset with reqs := [(0, 1)] })] }))).dev.item? (0 : Nat) (1 : Nat)).get (by decide +kernel), by decide +kernel⟩,
    ⟨on (tf Pg.cc 0x20B 0 4 4 1 ∘ tf (cpPage 0) 0 0 1 0 1 ∘ tf (cpPage 0) 1 1 11 8 2), 0, 0, ((on (tf Pg.cc 0x20B 0 4 4 1 ∘ tf (cpPage 0) 0 0 1 0 1 ∘ tf (cpPage 0) 1 1 11 8 2)).dev.cpFreeSlot (0 : Compositor).val (0 : Fin 128).val).get (by decide +kernel), 0, .primary, by decide +kernel⟩,
    ⟨on (cp (fun u => { u with frames := [frameOf0 none] }) ∘ tf (cpPage 0) 0 0 1 0 1), 0, 0, by decide +kernel⟩,
    ⟨on (tf (cpPage 0) 0 0 1 0 1), 0, 0, by decide +kernel⟩,
    ⟨on (cp (fun u => { u with frames := [frameOf0 none] })), 0, (((on (cp (fun u => { u with frames := [frameOf0 none] }))).dev.cpUnit (0 : Compositor).val).frames).head (by decide +kernel), (((on (cp (fun u => { u with frames := [frameOf0 none] }))).dev.cpUnit (0 : Compositor).val).frames).tail, by decide +kernel⟩,
    ⟨on (cp (fun u => { u with frames := [frameOf0 (some (0, 1))] }) ∘ withItem (desc [(8, 5), (13, 0xFF)]) (fun i => { i with inst := some 0, phase := .running, recorded := .started })), 0, (((on (cp (fun u => { u with frames := [frameOf0 (some (0, 1))] }) ∘ withItem (desc [(8, 5), (13, 0xFF)]) (fun i => { i with inst := some 0, phase := .running, recorded := .started }))).dev.cpUnit (0 : Compositor).val).frames).head (by decide +kernel), (((on (cp (fun u => { u with frames := [frameOf0 (some (0, 1))] }) ∘ withItem (desc [(8, 5), (13, 0xFF)]) (fun i => { i with inst := some 0, phase := .running, recorded := .started }))).dev.cpUnit (0 : Compositor).val).frames).tail, 0, 1, ((on (cp (fun u => { u with frames := [frameOf0 (some (0, 1))] }) ∘ withItem (desc [(8, 5), (13, 0xFF)]) (fun i => { i with inst := some 0, phase := .running, recorded := .started }))).dev.item? (0 : Nat) (1 : Nat)).get (by decide +kernel), by decide +kernel⟩,
    ⟨on (cp (fun u => { u with frames := [frameOf0 none] })), 0, by decide +kernel⟩,
    ⟨on (cp (fun u => { u with stale := [(3, 4, true)] })), 0, 3, 4, true, [], by decide +kernel⟩,
    ⟨on (cp (fun u => { u with sig := [(3, 4, true, 77)] })), 0, 3, 4, 77, true, [], by decide +kernel⟩⟩

/-- States and operands that meet the hypotheses of Obligations.MixerFrames, clause by clause. -/
theorem witness_MixerFrames :
    (∃ (s : State) (m : Nat), (s.dev.hdr Pg.am).state.serves = true ∧ s.dev.am.writes = [] ∧ s.dev.mixesOn = [m] ∧ ((s.dev.amTickNo : Int) - s.dev.mixPhase m) % (s.dev.mixQuarters m : Nat) = 0) ∧
    (∃ (s : State) (a : Nat) (ws : List Word), (s.dev.hdr Pg.am).state.serves = true ∧ s.dev.am.writes = [(a, ws)] ∧ a < 0x400) ∧
    (∃ (s : State) (m : Nat) (x : AmMix) (tk : Int), (s.dev.hdr Pg.am).state.serves = true ∧ s.dev.am.mixes = [(m, x)] ∧ x.openTick = some tk) ∧
    (∃ (s : State) (m : Nat) (l : Nat) (x : AmMix) (tk : Int), (s.dev.hdr Pg.am).state.serves = true ∧ s.dev.am.mixes = [(m, x)] ∧ x.openTick = some tk ∧ s.dev.mixLegs m = [l] ∧ s.dev.mixLeavers m = [] ∧ (s.dev.amLeg l).xfade = none ∧ s.dev.held = []) ∧
    (∃ (s : State) (m : Fin 1024) (tk : Int), (s.dev.amMix m.val).openTick = some tk) ∧
    (∃ (s : State) (l : Fin 8192) (out : Bool) (g : AmGain) (f : Option Int) (done : Nat) (total : Nat), (s.dev.amLeg l.val).gain out = g ∧ g.move = .ramp f done total ∧ total ≤ done ∧ s.dev.am.waitq = [] ∧ (s.dev.amLeg l.val).leaving = false) ∧
    (∃ (s : State) (l : Fin 8192) (out : Bool) (g : AmGain) (till : Int), (s.dev.amLeg l.val).gain out = g ∧ g.move = .wait till) ∧
    (∃ (s : State) (l : Fin 8192) (out : Bool) (g : AmGain) (till : Int), (s.dev.amLeg l.val).gain out = g ∧ g.move = .wait till ∧ (s.dev.amLeg l.val).leaving = false) ∧
    (∃ (s : State) (l : Fin 8192) (f : Xfade), (s.dev.amLeg l.val).xfade = some f ∧ f.total ≤ f.done ∧ (s.dev.amLeg l.val).nextMix = none ∧ s.dev.am.waitq = []) ∧
    (∃ (s : State), (s.dev.am.mixes.any (fun x => x.2.openTick.isSome) = true)) :=
  ⟨⟨on (tf Pg.am 5 0 0 0 1), 5, by decide +kernel⟩,
    ⟨on (am (fun a => { a with writes := [(5, [1, 0, 0, 0])] })), 5, [1, 0, 0, 0], by decide +kernel⟩,
    ⟨on (am (fun a => { a with mixes := [(5, ⟨some 0, []⟩)] })), 5, ⟨some 0, []⟩, 0, by decide +kernel⟩,
    ⟨on (am (fun a => { a with mixes := [(5, ⟨some 0, []⟩)], legs := [(3, { AmLeg.reset with active := true, mix := 5 })] })), 5, 3, ⟨some 0, []⟩, 0, by decide +kernel⟩,
    ⟨on (am (fun a => { a with mixes := [(5, ⟨some 0, []⟩)] })), 5, 0, by decide +kernel⟩,
    ⟨on (am (fun a => { a with legs := [(3, { AmLeg.reset with con := ⟨some 5, some 9, .ramp (some 1) 480 480⟩ })] })), 3, false, ⟨some 5, some 9, .ramp (some 1) 480 480⟩, some 1, 480, 480, by decide +kernel⟩,
    ⟨on (am (fun a => { a with legs := [(3, { AmLeg.reset with out := ⟨some 5, some 9, .wait 70⟩ })] })), 3, true, ⟨some 5, some 9, .wait 70⟩, 70, by decide +kernel⟩,
    ⟨on (am (fun a => { a with legs := [(3, { AmLeg.reset with out := ⟨some 5, some 9, .wait 70⟩ })] })), 3, true, ⟨some 5, some 9, .wait 70⟩, 70, by decide +kernel⟩,
    ⟨on (am (fun a => { a with legs := [(3, { AmLeg.reset with xfade := some ⟨1, none, 480, 480⟩ })] })), 3, ⟨1, none, 480, 480⟩, by decide +kernel⟩,
    ⟨on (am (fun a => { a with mixes := [(5, ⟨some 0, []⟩)] })), by decide +kernel⟩⟩

/-- States and operands that meet the hypotheses of Obligations.KernelsAndJobs, clause by clause. -/
theorem witness_KernelsAndJobs :
    (∃ (s : State) (c : Cluster) (e : Nat) (a : Nat) (b : Nat) (h : List Byte) (body : List Byte) (k : DsKernel), e = s.dev.rf (dsPage c.val) Reg.DS_KERNEL_CMD 5 0 ∧ s.dev.kernel c.val e = none ∧ a = (s.dev.tw (dsPage c.val) (e * 2) 0).toNat + s.dev.tf (dsPage c.val) (e * 2) 1 15 0 * 2 ^ 32 ∧ (targetOf a = .dram ∨ targetOf a = .sram) ∧ (s.dev.physRead a 64 (some (272 + c.val))).2.2 = h ∧ ((s.dev.physRead a 64 (some (272 + c.val))).1.physRead (a + 64) (min (fieldLE h 8 4 + fieldLE h 12 4) 262144) (some (272 + c.val))).2.2 = body ∧ kernelOf h body = .inr k ∧ (firstFit 0 (s.dev.codeEnd c.val) (k.codeBytes + k.constBytes) ((s.dev.ds c.val).kernels.filterMap (fun x => x.2.map (fun k => (k.base, k.codeBytes + k.constBytes)))) = some b)) ∧
    (∃ (s : State) (c : Cluster) (e : Nat) (a : Nat) (st : Nat) (h : List Byte) (body : List Byte), e = s.dev.rf (dsPage c.val) Reg.DS_KERNEL_CMD 5 0 ∧ s.dev.kernel c.val e = none ∧ a = (s.dev.tw (dsPage c.val) (e * 2) 0).toNat + s.dev.tf (dsPage c.val) (e * 2) 1 15 0 * 2 ^ 32 ∧ (targetOf a = .dram ∨ targetOf a = .sram) ∧ (s.dev.physRead a 64 (some (272 + c.val))).2.2 = h ∧ ((s.dev.physRead a 64 (some (272 + c.val))).1.physRead (a + 64) (min (fieldLE h 8 4 + fieldLE h 12 4) 262144) (some (272 + c.val))).2.2 = body ∧ kernelOf h body = .inl st) ∧
    (∃ (s : State) (c : Cluster) (e : Nat), e = s.dev.rf (dsPage c.val) Reg.DS_KERNEL_CMD 5 0 ∧ s.dev.kernelBusy c.val e = false) ∧
    (∃ (s : State) (c : Cluster) (e : Nat), e = s.dev.rf (dsPage c.val) Reg.DS_KERNEL_CMD 5 0 ∧ s.dev.kernelBusy c.val e = true) ∧
    (∃ (s : State) (n : RingNo) (q : Nat) (c : Nat) (i : Item) (k : DsKernel), s.dev.item? n.val q = some i ∧ engineOf i.desc = 4 ∧ i.phase = .bound ∧ i.pend = none ∧ i.inst = some c ∧ opOf i.desc < 64 ∧ s.dev.kernel c (opOf i.desc) = some k ∧ lengthOf i.desc ≤ k.inMax ∧ s.dev.stateWaits c i = false ∧ i.recorded = .accepted ∧ k.stateBytes = 0) ∧
    (∃ (s : State) (n : RingNo) (q : Nat) (c : Nat) (cause : Nat) (i : Item), ((64 ≤ opOf i.desc ∧ cause = Cause.BAD_DESC) ∨ (opOf i.desc < 64 ∧ s.dev.kernel c (opOf i.desc) = none ∧ cause = 0x70) ∨ (opOf i.desc < 64 ∧ cause = 0x73 ∧ ∃ k, s.dev.kernel c (opOf i.desc) = some k ∧ k.inMax < lengthOf i.desc)) ∧ s.dev.item? n.val q = some i ∧ engineOf i.desc = 4 ∧ i.phase = .bound ∧ i.pend = none ∧ i.inst = some c) ∧
    (∃ (s : State) (c : Cluster) (l : Nat) (base : Nat) (i : Item) (k : DsKernel) (d : Dev) (inp : List Byte), (s.dev.hdr (dsPage c.val)).rst = false ∧ ((List.range 32).find? (fun n => (s.dev.lane c.val n).isNone) = some l) ∧ (s.dev.ds c.val).queue = [] ∧ (((s.dev.ds c.val).running.filter (fun x => x.job.item.isSome)).length < s.dev.rf (dsPage c.val) Reg.DS_CFG 5 0) ∧ s.dev.firstRingJob c.val = some i ∧ s.dev.kernel c.val (opOf i.desc) = some k ∧ k.stateBytes = 0 ∧ (firstFit (s.dev.codeEnd c.val) 262144 k.frameSize ((s.dev.ds c.val).running.map (fun n => (n.base, n.size))) = some base) ∧ s.dev.virtRead (whoDs c.val) (s.dev.ringAsid i.ring) (srcOf i.desc) (lengthOf i.desc) = (d, .ok, inp) ∧ d.dss = s.dev.dss) ∧
    (∃ (s : State) (c : Cluster) (j : DsJob), ((s.dev.ds c.val).queue.find? (fun x => match x.deadline with | some t => decide (t ≤ s.dev.timeNs) | none => false) = some j)) ∧
    (∃ (s : State) (l : LaneId), (s.dev.lane l.cluster.val l.lane.val).isSome = true) :=
  ⟨⟨on ((fun d => { d with ram := { d.ram with sys := image } }) ∘ tf (pg 0x20) 0 1 15 0 0x40), 0, (on ((fun d => { d with ram := { d.ram with sys := image } }) ∘ tf (pg 0x20) 0 1 15 0 0x40)).dev.rf (dsPage (0 : Cluster).val) Reg.DS_KERNEL_CMD 5 0, ((on ((fun d => { d with ram := { d.ram with sys := image } }) ∘ tf (pg 0x20) 0 1 15 0 0x40)).dev.tw (dsPage (0 : Cluster).val) (((on ((fun d => { d with ram := { d.ram with sys := image } }) ∘ tf (pg 0x20) 0 1 15 0 0x40)).dev.rf (dsPage (0 : Cluster).val) Reg.DS_KERNEL_CMD 5 0 : Nat) * 2) 0).toNat + (on ((fun d => { d with ram := { d.ram with sys := image } }) ∘ tf (pg 0x20) 0 1 15 0 0x40)).dev.tf (dsPage (0 : Cluster).val) (((on ((fun d => { d with ram := { d.ram with sys := image } }) ∘ tf (pg 0x20) 0 1 15 0 0x40)).dev.rf (dsPage (0 : Cluster).val) Reg.DS_KERNEL_CMD 5 0 : Nat) * 2) 1 15 0 * 2 ^ 32, 0, ((on ((fun d => { d with ram := { d.ram with sys := image } }) ∘ tf (pg 0x20) 0 1 15 0 0x40)).dev.physRead (((on ((fun d => { d with ram := { d.ram with sys := image } }) ∘ tf (pg 0x20) 0 1 15 0 0x40)).dev.tw (dsPage (0 : Cluster).val) (((on ((fun d => { d with ram := { d.ram with sys := image } }) ∘ tf (pg 0x20) 0 1 15 0 0x40)).dev.rf (dsPage (0 : Cluster).val) Reg.DS_KERNEL_CMD 5 0 : Nat) * 2) 0).toNat + (on ((fun d => { d with ram := { d.ram with sys := image } }) ∘ tf (pg 0x20) 0 1 15 0 0x40)).dev.tf (dsPage (0 : Cluster).val) (((on ((fun d => { d with ram := { d.ram with sys := image } }) ∘ tf (pg 0x20) 0 1 15 0 0x40)).dev.rf (dsPage (0 : Cluster).val) Reg.DS_KERNEL_CMD 5 0 : Nat) * 2) 1 15 0 * 2 ^ 32 : Nat) 64 (some (272 + (0 : Cluster).val))).2.2, [1, 2, 3, 4, 5, 6, 7, 8], kern0, by decide +kernel⟩,
    ⟨on (tf (pg 0x20) 0 1 15 0 0x40), 0, (on (tf (pg 0x20) 0 1 15 0 0x40)).dev.rf (dsPage (0 : Cluster).val) Reg.DS_KERNEL_CMD 5 0, ((on (tf (pg 0x20) 0 1 15 0 0x40)).dev.tw (dsPage (0 : Cluster).val) (((on (tf (pg 0x20) 0 1 15 0 0x40)).dev.rf (dsPage (0 : Cluster).val) Reg.DS_KERNEL_CMD 5 0 : Nat) * 2) 0).toNat + (on (tf (pg 0x20) 0 1 15 0 0x40)).dev.tf (dsPage (0 : Cluster).val) (((on (tf (pg 0x20) 0 1 15 0 0x40)).dev.rf (dsPage (0 : Cluster).val) Reg.DS_KERNEL_CMD 5 0 : Nat) * 2) 1 15 0 * 2 ^ 32, 1, List.replicate 64 0, [], by decide +kernel⟩,
    ⟨on id, 0, (on id).dev.rf (dsPage (0 : Cluster).val) Reg.DS_KERNEL_CMD 5 0, by decide +kernel⟩,
    ⟨on (ds (fun u => { u with queue := [dsj] })), 0, (on (ds (fun u => { u with queue := [dsj] }))).dev.rf (dsPage (0 : Cluster).val) Reg.DS_KERNEL_CMD 5 0, by decide +kernel⟩,
    ⟨on (bound (desc [(8, 4), (13, 0xFF)]) ∘ ds (fun u => { u with kernels := [(0, some kern0)] })), 0, 1, ((((on (bound (desc [(8, 4), (13, 0xFF)]) ∘ ds (fun u => { u with kernels := [(0, some kern0)] }))).dev.item? (0 : RingNo).val (1 : Nat)).get (by decide +kernel) : Item).inst).get (by decide +kernel), ((on (bound (desc [(8, 4), (13, 0xFF)]) ∘ ds (fun u => { u with kernels := [(0, some kern0)] }))).dev.item? (0 : RingNo).val (1 : Nat)).get (by decide +kernel), ((on (bound (desc [(8, 4), (13, 0xFF)]) ∘ ds (fun u => { u with kernels := [(0, some kern0)] }))).dev.kernel (((((on (bound (desc [(8, 4), (13, 0xFF)]) ∘ ds (fun u => { u with kernels := [(0, some kern0)] }))).dev.item? (0 : RingNo).val (1 : Nat)).get (by decide +kernel) : Item).inst).get (by decide +kernel) : Nat) (opOf (((on (bound (desc [(8, 4), (13, 0xFF)]) ∘ ds (fun u => { u with kernels := [(0, some kern0)] }))).dev.item? (0 : RingNo).val (1 : Nat)).get (by decide +kernel) : Item).desc)).get (by decide +kernel), by decide +kernel⟩,
    ⟨on (bound (desc [(8, 4), (9, 64), (13, 0xFF)])), 0, 1, ((((on (bound (desc [(8, 4), (9, 64), (13, 0xFF)]))).dev.item? (0 : RingNo).val (1 : Nat)).get (by decide +kernel) : Item).inst).get (by decide +kernel), Cause.BAD_DESC, ((on (bound (desc [(8, 4), (9, 64), (13, 0xFF)]))).dev.item? (0 : RingNo).val (1 : Nat)).get (by decide +kernel), (.inl ⟨by decide +kernel, rfl⟩), by decide +kernel⟩,
    ⟨on (withItem (desc [(8, 4), (13, 0xFF), (24, 0x4000000000), (40, 2), (56, 7)]) (fun i => { i with inst := some 0, phase := .running, recorded := .started }) ∘ ds (fun u => { u with kernels := [(0, some kern0)] })), 0, ((List.range 32).find? (fun n => ((on (withItem (desc [(8, 4), (13, 0xFF), (24, 0x4000000000), (40, 2), (56, 7)]) (fun i => { i with inst := some 0, phase := .running, recorded := .started }) ∘ ds (fun u => { u with kernels := [(0, some kern0)] }))).dev.lane (0 : Cluster).val n).isNone)).get (by decide +kernel), (firstFit ((on (withItem (desc [(8, 4), (13, 0xFF), (24, 0x4000000000), (40, 2), (56, 7)]) (fun i => { i with inst := some 0, phase := .running, recorded := .started }) ∘ ds (fun u => { u with kernels := [(0, some kern0)] }))).dev.codeEnd (0 : Cluster).val) 262144 (((on (withItem (desc [(8, 4), (13, 0xFF), (24, 0x4000000000), (40, 2), (56, 7)]) (fun i => { i with inst := some 0, phase := .running, recorded := .started }) ∘ ds (fun u => { u with kernels := [(0, some kern0)] }))).dev.kernel (0 : Cluster).val (opOf (((on (withItem (desc [(8, 4), (13, 0xFF), (24, 0x4000000000), (40, 2), (56, 7)]) (fun i => { i with inst := some 0, phase := .running, recorded := .started }) ∘ ds (fun u => { u with kernels := [(0, some kern0)] }))).dev.firstRingJob (0 : Cluster).val).get (by decide +kernel) : Item).desc)).get (by decide +kernel) : DsKernel).frameSize (((on (withItem (desc [(8, 4), (13, 0xFF), (24, 0x4000000000), (40, 2), (56, 7)]) (fun i => { i with inst := some 0, phase := .running, recorded := .started }) ∘ ds (fun u => { u with kernels := [(0, some kern0)] }))).dev.ds (0 : Cluster).val).running.map (fun n => (n.base, n.size)))).get (by decide +kernel), ((on (withItem (desc [(8, 4), (13, 0xFF), (24, 0x4000000000), (40, 2), (56, 7)]) (fun i => { i with inst := some 0, phase := .running, recorded := .started }) ∘ ds (fun u => { u with kernels := [(0, some kern0)] }))).dev.firstRingJob (0 : Cluster).val).get (by decide +kernel), ((on (withItem (desc [(8, 4), (13, 0xFF), (24, 0x4000000000), (40, 2), (56, 7)]) (fun i => { i with inst := some 0, phase := .running, recorded := .started }) ∘ ds (fun u => { u with kernels := [(0, some kern0)] }))).dev.kernel (0 : Cluster).val (opOf (((on (withItem (desc [(8, 4), (13, 0xFF), (24, 0x4000000000), (40, 2), (56, 7)]) (fun i => { i with inst := some 0, phase := .running, recorded := .started }) ∘ ds (fun u => { u with kernels := [(0, some kern0)] }))).dev.firstRingJob (0 : Cluster).val).get (by decide +kernel) : Item).desc)).get (by decide +kernel), ((on (withItem (desc [(8, 4), (13, 0xFF), (24, 0x4000000000), (40, 2), (56, 7)]) (fun i => { i with inst := some 0, phase := .running, recorded := .started }) ∘ ds (fun u => { u with kernels := [(0, some kern0)] }))).dev.virtRead (whoDs (0 : Cluster).val) ((on (withItem (desc [(8, 4), (13, 0xFF), (24, 0x4000000000), (40, 2), (56, 7)]) (fun i => { i with inst := some 0, phase := .running, recorded := .started }) ∘ ds (fun u => { u with kernels := [(0, some kern0)] }))).dev.ringAsid (((on (withItem (desc [(8, 4), (13, 0xFF), (24, 0x4000000000), (40, 2), (56, 7)]) (fun i => { i with inst := some 0, phase := .running, recorded := .started }) ∘ ds (fun u => { u with kernels := [(0, some kern0)] }))).dev.firstRingJob (0 : Cluster).val).get (by decide +kernel) : Item).ring) (srcOf (((on (withItem (desc [(8, 4), (13, 0xFF), (24, 0x4000000000), (40, 2), (56, 7)]) (fun i => { i with inst := some 0, phase := .running, recorded := .started }) ∘ ds (fun u => { u with kernels := [(0, some kern0)] }))).dev.firstRingJob (0 : Cluster).val).get (by decide +kernel) : Item).desc) (lengthOf (((on (withItem (desc [(8, 4), (13, 0xFF), (24, 0x4000000000), (40, 2), (56, 7)]) (fun i => { i with inst := some 0, phase := .running, recorded := .started }) ∘ ds (fun u => { u with kernels := [(0, some kern0)] }))).dev.firstRingJob (0 : Cluster).val).get (by decide +kernel) : Item).desc)).1, [0, 0], by decide +kernel⟩,
    ⟨on (ds (fun u => { u with queue := [{ dsj with deadline := some 0 }] })), 0, (((on (ds (fun u => { u with queue := [{ dsj with deadline := some 0 }] }))).dev.ds (0 : Cluster).val).queue.find? (fun x => match x.deadline with | some t => decide (t ≤ (on (ds (fun u => { u with queue := [{ dsj with deadline := some 0 }] }))).dev.timeNs) | none => false)).get (by decide +kernel), by decide +kernel⟩,
    ⟨on (ds (fun u => { u with lanes := [(0, some lane0)] })), ⟨0, 0⟩, by decide +kernel⟩⟩

/-- States and operands that meet the hypotheses of Obligations.LaneRegisterResults, clause by clause. -/
theorem witness_LaneRegisterResults :
    (∃ (s : State) (id : LaneId) (f : LaneFields) (x : Lane) (k : DsKernel) (c : Instr) (op : Nat) (v : Word), ((c, op, v) ∈ [(Instr.add id f, 0x10, x.r f.da + (if f.hb then f.imm.signExtend 32 else x.r f.db)), (.sub id f, 0x12, x.r f.da - (if f.hb then f.imm.signExtend 32 else x.r f.db)), (.landI id f, 0x14, x.r f.da &&& x.r f.db), (.lorI id f, 0x15, x.r f.da ||| x.r f.db), (.lxorI id f, 0x16, x.r f.da ^^^ x.r f.db), (.asr id f, 0x17, (x.r f.da).sshiftRight (f.imm.toNat % 32)), (.lsl id f, 0x18, x.r f.da <<< (f.imm.toNat % 32)), (.minI id f, 0x19, if (x.r f.db).slt (x.r f.da) then x.r f.db else x.r f.da), (.maxI id f, 0x1A, if (x.r f.da).slt (x.r f.db) then x.r f.db else x.r f.da), (.movi id f, 0x1C, f.imm.signExtend 32), (.movhi id f, 0x1D, (f.imm.extractLsb' 0 16 ++ (x.r f.dd).extractLsb' 0 16 : BitVec (16 + 16))), (.acgrd id f, 0x0B, ((x.acc f.ac).extractLsb' 32 8).signExtend 32), (.bxrd id f, 0x31, word x.bexp)]) ∧ s.dev.laneRuns id op f x k ∧ f.ls = false ∧ x.reps = []) ∧
    (∃ (s : State) (id : LaneId) (f : LaneFields) (x : Lane) (k : DsKernel), s.dev.laneRuns id 0x1E f x k ∧ f.ls = false ∧ x.reps = []) :=
  ⟨⟨on (laneAt (insn (0x10 : Nat) 1 2 3 1 0 5) (regs [1, 9, 0x80000000, 7])), ⟨0, 0⟩, laneFields (insn (0x10 : Nat) 1 2 3 1 0 5), (regs [1, 9, 0x80000000, 7]) lane0, { kern0 with codeBytes := 64 }, Instr.add (⟨0, 0⟩ : LaneId) (laneFields (insn (0x10 : Nat) 1 2 3 1 0 5)), 0x10, ((regs [1, 9, 0x80000000, 7]) lane0 : Lane).r (laneFields (insn (0x10 : Nat) 1 2 3 1 0 5)).da + (if (laneFields (insn (0x10 : Nat) 1 2 3 1 0 5)).hb then (laneFields (insn (0x10 : Nat) 1 2 3 1 0 5)).imm.signExtend 32 else ((regs [1, 9, 0x80000000, 7]) lane0 : Lane).r (laneFields (insn (0x10 : Nat) 1 2 3 1 0 5)).db), by decide +kernel⟩,
    ⟨on (laneAt (insn 30 1 2 3 1 0 5) (regs [1, 9, 0x80000000, 7])), ⟨0, 0⟩, laneFields (insn 30 1 2 3 1 0 5), (regs [1, 9, 0x80000000, 7]) lane0, { kern0 with codeBytes := 64 }, by decide +kernel⟩⟩

/-- States and operands that meet the hypotheses of Obligations.LaneSaturation, clause by clause. -/
theorem witness_LaneSaturation :
    (∃ (s : State) (id : LaneId) (f : LaneFields) (x : Lane) (k : DsKernel) (c : Instr) (op : Nat) (v : Int), ((c, op, v) ∈ [(Instr.adds id f, 0x11, (x.r f.da).toInt + (if f.hb then f.imm.toInt else (x.r f.db).toInt)), (.subs id f, 0x13, (x.r f.da).toInt - (if f.hb then f.imm.toInt else (x.r f.db).toInt)), (.abs id f, 0x1B, |(x.r f.da).toInt|), (.narrow32 id f, 0x0C, roundShift (x.acc f.ac).toInt (f.imm.toNat % 32))]) ∧ s.dev.laneRuns id op f x k ∧ f.ls = false ∧ x.reps = []) ∧
    (∃ (s : State) (id : LaneId) (f : LaneFields) (x : Lane) (k : DsKernel) (v : Int), s.dev.laneRuns id 0x0D f x k ∧ f.ls = false ∧ x.reps = [] ∧ f.imm.toNat % 64 ≤ 39 ∧ v = roundShift (x.acc f.ac).toInt (f.imm.toNat % 64)) :=
  ⟨⟨on (laneAt (insn (0x13 : Nat) 1 2 3 1 0 5) (regs [1, 9, 0x80000000, 7])), ⟨0, 0⟩, laneFields (insn (0x13 : Nat) 1 2 3 1 0 5), (regs [1, 9, 0x80000000, 7]) lane0, { kern0 with codeBytes := 64 }, Instr.subs (⟨0, 0⟩ : LaneId) (laneFields (insn (0x13 : Nat) 1 2 3 1 0 5)), 0x13, (((regs [1, 9, 0x80000000, 7]) lane0 : Lane).r (laneFields (insn (0x13 : Nat) 1 2 3 1 0 5)).da).toInt - (if (laneFields (insn (0x13 : Nat) 1 2 3 1 0 5)).hb then (laneFields (insn (0x13 : Nat) 1 2 3 1 0 5)).imm.toInt else (((regs [1, 9, 0x80000000, 7]) lane0 : Lane).r (laneFields (insn (0x13 : Nat) 1 2 3 1 0 5)).db).toInt), by decide +kernel⟩,
    ⟨on (laneAt (insn 13 1 2 3 1 0 5) (regs [1, 9, 0x80000000, 7])), ⟨0, 0⟩, laneFields (insn 13 1 2 3 1 0 5), (regs [1, 9, 0x80000000, 7]) lane0, { kern0 with codeBytes := 64 }, roundShift (((regs [1, 9, 0x80000000, 7]) lane0 : Lane).acc (laneFields (insn 13 1 2 3 1 0 5)).ac).toInt ((laneFields (insn 13 1 2 3 1 0 5)).imm.toNat % 64), by decide +kernel⟩⟩

/-- States and operands that meet the hypotheses of Obligations.LaneAccumulators, clause by clause. -/
theorem witness_LaneAccumulators :
    (∃ (s : State) (id : LaneId) (f : LaneFields) (x : Lane) (k : DsKernel) (c : Instr) (op : Nat) (v : Int), ((c, op, v) ∈ [(Instr.mul16 id f, 0x06, (if f.neg then -1 else 1) * (halfOf (x.r f.da) f.ha * halfOf (x.r f.db) f.hb)), (.mul32 id f, 0x07, (if f.neg then -1 else 1) * roundShift ((x.r f.da).toInt * halfOf (x.r f.db) f.hb) 15), (.acclr id f, 0x09, 0)]) ∧ s.dev.laneRuns id op f x k ∧ f.ls = false ∧ x.reps = []) ∧
    (∃ (s : State) (id : LaneId) (f : LaneFields) (x : Lane) (k : DsKernel), s.dev.laneRuns id 0x08 f x k ∧ f.ls = false ∧ x.reps = [] ∧ f.imm.toNat % 16 ≤ 8) ∧
    (∃ (s : State) (id : LaneId) (f : LaneFields) (x : Lane) (k : DsKernel) (c : Instr) (op : Nat) (v : Int), ((c, op, v) ∈ [(Instr.mac16 id f, 0x04, (if f.neg then -1 else 1) * (halfOf (x.r f.da) f.ha * halfOf (x.r f.db) f.hb)), (.mac32 id f, 0x05, (if f.neg then -1 else 1) * roundShift ((x.r f.da).toInt * halfOf (x.r f.db) f.hb) 15), (.acadd id f, 0x0A, (if f.neg then -1 else 1) * (x.acc (Fin.ofNat 4 f.imm.toNat)).toInt)]) ∧ s.dev.laneRuns id op f x k ∧ f.ls = false ∧ x.reps = []) :=
  ⟨⟨on (laneAt (insn (0x06 : Nat) 1 2 3 1 0 5) (regs [1, 9, 0x80000000, 7])), ⟨0, 0⟩, laneFields (insn (0x06 : Nat) 1 2 3 1 0 5), (regs [1, 9, 0x80000000, 7]) lane0, { kern0 with codeBytes := 64 }, Instr.mul16 (⟨0, 0⟩ : LaneId) (laneFields (insn (0x06 : Nat) 1 2 3 1 0 5)), 0x06, (if (laneFields (insn (0x06 : Nat) 1 2 3 1 0 5)).neg then -1 else 1) * (halfOf (((regs [1, 9, 0x80000000, 7]) lane0 : Lane).r (laneFields (insn (0x06 : Nat) 1 2 3 1 0 5)).da) (laneFields (insn (0x06 : Nat) 1 2 3 1 0 5)).ha * halfOf (((regs [1, 9, 0x80000000, 7]) lane0 : Lane).r (laneFields (insn (0x06 : Nat) 1 2 3 1 0 5)).db) (laneFields (insn (0x06 : Nat) 1 2 3 1 0 5)).hb), by decide +kernel⟩,
    ⟨on (laneAt (insn 8 1 2 3 1 0 5) (regs [1, 9, 0x80000000, 7])), ⟨0, 0⟩, laneFields (insn 8 1 2 3 1 0 5), (regs [1, 9, 0x80000000, 7]) lane0, { kern0 with codeBytes := 64 }, by decide +kernel⟩,
    ⟨on (laneAt (insn (4 : Nat) 1 2 3 1 0 5) (regs [1, 9, 0x80000000, 7])), ⟨0, 0⟩, laneFields (insn (4 : Nat) 1 2 3 1 0 5), (regs [1, 9, 0x80000000, 7]) lane0, { kern0 with codeBytes := 64 }, Instr.mac16 (⟨0, 0⟩ : LaneId) (laneFields (insn (4 : Nat) 1 2 3 1 0 5)), 4, (if (laneFields (insn (4 : Nat) 1 2 3 1 0 5)).neg then -1 else 1) * (halfOf (((regs [1, 9, 0x80000000, 7]) lane0 : Lane).r (laneFields (insn (4 : Nat) 1 2 3 1 0 5)).da) (laneFields (insn (4 : Nat) 1 2 3 1 0 5)).ha * halfOf (((regs [1, 9, 0x80000000, 7]) lane0 : Lane).r (laneFields (insn (4 : Nat) 1 2 3 1 0 5)).db) (laneFields (insn (4 : Nat) 1 2 3 1 0 5)).hb), by decide +kernel⟩⟩

/-- States and operands that meet the hypotheses of Obligations.LaneControl, clause by clause. -/
theorem witness_LaneControl :
    (∃ (s : State) (id : LaneId) (f : LaneFields) (x : Lane) (k : DsKernel), s.dev.laneRuns id 0x00 f x k ∧ f.ls = false ∧ x.reps = []) ∧
    (∃ (s : State) (id : LaneId) (f : LaneFields) (x : Lane) (k : DsKernel) (c : Instr) (op : Nat) (v : BitVec 18), (c, op, v) ∈ [(Instr.seta id f, 0x20, f.imm.setWidth 18), (.mova id f, 0x21, (x.r f.da).setWidth 18)] ∧ s.dev.laneRuns id op f x k ∧ f.ls = false ∧ x.reps = []) ∧
    (∃ (s : State) (id : LaneId) (f : LaneFields) (x : Lane) (k : DsKernel), s.dev.laneRuns id 0x22 f x k ∧ f.ls = false ∧ x.reps = []) ∧
    (∃ (s : State) (id : LaneId) (f : LaneFields) (x : Lane) (k : DsKernel) (n : Fin 8), s.dev.laneRuns id 0x23 f x k ∧ f.ls = false ∧ x.reps = [] ∧ f.an.val = 8 + n.val ∧ f.imm.toNat < 2 ^ 18) ∧
    (∃ (s : State) (id : LaneId) (f : LaneFields) (x : Lane) (k : DsKernel), s.dev.laneRuns id 0x30 f x k ∧ f.ls = false ∧ x.reps = []) ∧
    (∃ (s : State) (id : LaneId) (f : LaneFields) (x : Lane) (k : DsKernel), s.dev.laneRuns id 0x32 f x k ∧ f.ls = false ∧ x.reps = []) ∧
    (∃ (s : State) (id : LaneId) (f : LaneFields) (x : Lane) (k : DsKernel) (nx : BitVec 18) (a : Nat), s.dev.laneRuns id 0x02 f x k ∧ f.ls = true ∧ f.lsdir = false ∧ x.reps = [] ∧ a = (x.a[f.an.val]).toNat ∧ a % lsSize f = 0 ∧ x.postMod f = some nx ∧ s.dev.laneMay id.cluster.val x a (lsSize f) false = true) ∧
    (∃ (s : State) (id : LaneId) (f : LaneFields) (x : Lane) (k : DsKernel) (nx : BitVec 18) (a : Nat), s.dev.laneRuns id 0x02 f x k ∧ f.ls = true ∧ f.lsdir = true ∧ x.reps = [] ∧ a = (x.a[f.an.val]).toNat ∧ a % lsSize f = 0 ∧ x.postMod f = some nx ∧ s.dev.laneMay id.cluster.val x a (lsSize f) true = true) ∧
    (∃ (s : State) (id : LaneId) (f : LaneFields) (x : Lane) (k : DsKernel) (c : Instr) (op : Nat) (taken : Bool), (c, op, taken) ∈ [(Instr.bra id f, 0x29, true), (.bz id f, 0x2A, x.r f.da == 0), (.bnz id f, 0x2B, x.r f.da != 0), (.blt id f, 0x2C, decide ((x.r f.da).toInt < 0)), (.bge id f, 0x2D, decide (0 ≤ (x.r f.da).toInt))] ∧ s.dev.laneRuns id op f x k ∧ f.ls = false ∧ x.reps = []) ∧
    (∃ (s : State) (id : LaneId) (f : LaneFields) (x : Lane) (k : DsKernel) (body : Nat) (n : Nat), s.dev.laneRuns id 0x28 f x k ∧ f.ls = false ∧ x.reps = [] ∧ body = f.imm.toNat % 4096 ∧ (n = (if f.ha then (x.r f.da).toNat % 65536 else f.imm.toNat / 4096)) ∧ 0 < n ∧ 0 < body) ∧
    (∃ (s : State) (id : LaneId) (f : LaneFields) (x : Lane) (k : DsKernel) (r : Rep), s.dev.laneRuns id 0x00 f x k ∧ f.ls = false ∧ x.reps = [r] ∧ r.last = x.pc ∧ r.first ≤ x.pc) ∧
    (∃ (s : State) (id : LaneId) (f : LaneFields) (x : Lane) (k : DsKernel) (d : Dev) (i : Item) (r : Nat) (q : Nat), s.dev.laneRuns id 0x01 f x k ∧ f.ls = false ∧ x.job.item = some (r, q) ∧ x.job.audio = none ∧ (x.r 0).toNat ≤ k.outMax ∧ s.dev.haltWrites id.cluster.val x k (s.dev.lbytes id.cluster.val (x.base + k.outOff) (x.r 0).toNat) = (d, .ok) ∧ d.item? r q = some i ∧ i.recorded = .started) ∧
    (∃ (s : State) (id : LaneId) (op : BitVec 8) (x : Lane) (k : DsKernel) (i : Item) (r : Nat) (q : Nat), s.dev.lane id.cluster.val id.lane.val = some x ∧ s.dev.kernel id.cluster.val x.kernel = some k ∧ x.count < k.maxK * 1000 ∧ opField (s.dev.laneWord id.cluster.val x) = op.toNat ∧ hasNat laneOps op.toNat = false ∧ x.job.item = some (r, q) ∧ s.dev.item? r q = some i ∧ i.recorded = .started) ∧
    (∃ (s : State) (id : LaneId) (f : LaneFields) (x : Lane) (k : DsKernel), s.dev.lane id.cluster.val id.lane.val = some x ∧ s.dev.kernel id.cluster.val x.kernel = some k ∧ opField (s.dev.laneWord id.cluster.val x) = 0x00 ∧ laneFields (s.dev.laneWord id.cluster.val x) = f ∧ k.maxK * 1000 ≤ x.count) :=
  ⟨⟨on (laneAt (insn 0 1 2 3 1 0 5) (regs [1, 9, 0x80000000, 7])), ⟨0, 0⟩, laneFields (insn 0 1 2 3 1 0 5), (regs [1, 9, 0x80000000, 7]) lane0, { kern0 with codeBytes := 64 }, by decide +kernel⟩,
    ⟨on (laneAt (insn (0x20 : Nat) 1 2 3 1 0 5) (regs [1, 9, 0x80000000, 7])), ⟨0, 0⟩, laneFields (insn (0x20 : Nat) 1 2 3 1 0 5), (regs [1, 9, 0x80000000, 7]) lane0, { kern0 with codeBytes := 64 }, Instr.seta (⟨0, 0⟩ : LaneId) (laneFields (insn (0x20 : Nat) 1 2 3 1 0 5)), 0x20, (laneFields (insn (0x20 : Nat) 1 2 3 1 0 5)).imm.setWidth 18, by decide +kernel⟩,
    ⟨on (laneAt (insn 34 1 2 3 1 0 5) (regs [1, 9, 0x80000000, 7])), ⟨0, 0⟩, laneFields (insn 34 1 2 3 1 0 5), (regs [1, 9, 0x80000000, 7]) lane0, { kern0 with codeBytes := 64 }, by decide +kernel⟩,
    ⟨on (laneAt (insn 0x23 0 0 0 0 0x16000 5) (regs [1, 9, 0x80000000, 7])), ⟨0, 0⟩, laneFields (insn 0x23 0 0 0 0 0x16000 5), (regs [1, 9, 0x80000000, 7]) lane0, { kern0 with codeBytes := 64 }, 3, by decide +kernel⟩,
    ⟨on (laneAt (insn 48 1 2 3 1 0 5) (regs [1, 9, 0x80000000, 7])), ⟨0, 0⟩, laneFields (insn 48 1 2 3 1 0 5), (regs [1, 9, 0x80000000, 7]) lane0, { kern0 with codeBytes := 64 }, by decide +kernel⟩,
    ⟨on (laneAt (insn 50 1 2 3 1 0 5) (regs [1, 9, 0x80000000, 7])), ⟨0, 0⟩, laneFields (insn 50 1 2 3 1 0 5), (regs [1, 9, 0x80000000, 7]) lane0, { kern0 with codeBytes := 64 }, by decide +kernel⟩,
    ⟨on (laneAt (insn 2 0 0 0 0 (0x2000 + 0x40 + 0x10 + 1) 0) (fun x => { regs [1, 9] x with a := x.a.set 1 0x10000 })), ⟨0, 0⟩, laneFields (insn 2 0 0 0 0 (0x2000 + 0x40 + 0x10 + 1) 0), (fun x => { regs [1, 9] x with a := x.a.set 1 0x10000 }) lane0, { kern0 with codeBytes := 64 }, (((fun x => { regs [1, 9] x with a := x.a.set 1 0x10000 }) lane0 : Lane).postMod (laneFields (insn 2 0 0 0 0 (0x2000 + 0x40 + 0x10 + 1) 0))).get (by decide +kernel), (((fun x => { regs [1, 9] x with a := x.a.set 1 0x10000 }) lane0 : Lane).a[(laneFields (insn 2 0 0 0 0 (0x2000 + 0x40 + 0x10 + 1) 0)).an.val]).toNat, by decide +kernel⟩,
    ⟨on (laneAt (insn 2 0 0 0 0 (0x2000 + 0x40 + 0x20 + 0x10 + 1) 0) (fun x => { regs [1, 9] x with a := x.a.set 1 0x10000 })), ⟨0, 0⟩, laneFields (insn 2 0 0 0 0 (0x2000 + 0x40 + 0x20 + 0x10 + 1) 0), (fun x => { regs [1, 9] x with a := x.a.set 1 0x10000 }) lane0, { kern0 with codeBytes := 64 }, (((fun x => { regs [1, 9] x with a := x.a.set 1 0x10000 }) lane0 : Lane).postMod (laneFields (insn 2 0 0 0 0 (0x2000 + 0x40 + 0x20 + 0x10 + 1) 0))).get (by decide +kernel), (((fun x => { regs [1, 9] x with a := x.a.set 1 0x10000 }) lane0 : Lane).a[(laneFields (insn 2 0 0 0 0 (0x2000 + 0x40 + 0x20 + 0x10 + 1) 0)).an.val]).toNat, by decide +kernel⟩,
    ⟨on (laneAt (insn (0x29 : Nat) 1 2 3 1 0 5) (regs [1, 9, 0x80000000, 7])), ⟨0, 0⟩, laneFields (insn (0x29 : Nat) 1 2 3 1 0 5), (regs [1, 9, 0x80000000, 7]) lane0, { kern0 with codeBytes := 64 }, Instr.bra (⟨0, 0⟩ : LaneId) (laneFields (insn (0x29 : Nat) 1 2 3 1 0 5)), 0x29, true, by decide +kernel⟩,
    ⟨on (laneAt (insn 0x28 0 0 0 0 0 0x3002) (regs [1, 9, 0x80000000, 7])), ⟨0, 0⟩, laneFields (insn 0x28 0 0 0 0 0 0x3002), (regs [1, 9, 0x80000000, 7]) lane0, { kern0 with codeBytes := 64 }, (laneFields (insn 0x28 0 0 0 0 0 0x3002)).imm.toNat % 4096, (if (laneFields (insn 0x28 0 0 0 0 0 0x3002)).ha then (((regs [1, 9, 0x80000000, 7]) lane0 : Lane).r (laneFields (insn 0x28 0 0 0 0 0 0x3002)).da).toNat % 65536 else (laneFields (insn 0x28 0 0 0 0 0 0x3002)).imm.toNat / 4096), by decide +kernel⟩,
    ⟨on (laneAt (insn 0 1 2 3 1 0 5) (fun x => { x with reps := [⟨0, 0, 3⟩] })), ⟨0, 0⟩, laneFields (insn 0 1 2 3 1 0 5), (fun x => { x with reps := [⟨0, 0, 3⟩] }) lane0, { kern0 with codeBytes := 64 }, ⟨0, 0, 3⟩, by decide +kernel⟩,
    ⟨on (laneAt (insn 1 0 0 0 0 0 0) (fun x => { regs [4] x with job := { dsj with item := some (0, 1), dst := 0x4000001000 } }) ∘ withItem (desc [(8, 4), (13, 0xFF), (32, 0x4000001000), (40, 2)]) (fun i => { i with inst := some 0, phase := .running, recorded := .started })), ⟨0, 0⟩, laneFields (insn 1 0 0 0 0 0 0), { regs [4] lane0 with job := { dsj with item := some (0, 1), dst := 0x4000001000 } }, { kern0 with codeBytes := 64 }, ((on (laneAt (insn 1 0 0 0 0 0 0) (fun x => { regs [4] x with job := { dsj with item := some (0, 1), dst := 0x4000001000 } }) ∘ withItem (desc [(8, 4), (13, 0xFF), (32, 0x4000001000), (40, 2)]) (fun i => { i with inst := some 0, phase := .running, recorded := .started }))).dev.haltWrites (⟨0, 0⟩ : LaneId).cluster.val ({ regs [4] lane0 with job := { dsj with item := some (0, 1), dst := 0x4000001000 } } : Lane) ({ kern0 with codeBytes := 64 } : DsKernel) ((on (laneAt (insn 1 0 0 0 0 0 0) (fun x => { regs [4] x with job := { dsj with item := some (0, 1), dst := 0x4000001000 } }) ∘ withItem (desc [(8, 4), (13, 0xFF), (32, 0x4000001000), (40, 2)]) (fun i => { i with inst := some 0, phase := .running, recorded := .started }))).dev.lbytes (⟨0, 0⟩ : LaneId).cluster.val (({ regs [4] lane0 with job := { dsj with item := some (0, 1), dst := 0x4000001000 } } : Lane).base + ({ kern0 with codeBytes := 64 } : DsKernel).outOff) (({ regs [4] lane0 with job := { dsj with item := some (0, 1), dst := 0x4000001000 } } : Lane).r 0).toNat)).1, ((((on (laneAt (insn 1 0 0 0 0 0 0) (fun x => { regs [4] x with job := { dsj with item := some (0, 1), dst := 0x4000001000 } }) ∘ withItem (desc [(8, 4), (13, 0xFF), (32, 0x4000001000), (40, 2)]) (fun i => { i with inst := some 0, phase := .running, recorded := .started }))).dev.haltWrites (⟨0, 0⟩ : LaneId).cluster.val ({ regs [4] lane0 with job := { dsj with item := some (0, 1), dst := 0x4000001000 } } : Lane) ({ kern0 with codeBytes := 64 } : DsKernel) ((on (laneAt (insn 1 0 0 0 0 0 0) (fun x => { regs [4] x with job := { dsj with item := some (0, 1), dst := 0x4000001000 } }) ∘ withItem (desc [(8, 4), (13, 0xFF), (32, 0x4000001000), (40, 2)]) (fun i => { i with inst := some 0, phase := .running, recorded := .started }))).dev.lbytes (⟨0, 0⟩ : LaneId).cluster.val (({ regs [4] lane0 with job := { dsj with item := some (0, 1), dst := 0x4000001000 } } : Lane).base + ({ kern0 with codeBytes := 64 } : DsKernel).outOff) (({ regs [4] lane0 with job := { dsj with item := some (0, 1), dst := 0x4000001000 } } : Lane).r 0).toNat)).1 : Dev).item? (0 : Nat) (1 : Nat)).get (by decide +kernel), 0, 1, by decide +kernel⟩,
    ⟨on (laneAt (insn 0x3F 0 0 0 0 0 0) (fun x => { x with job := { dsj with item := some (0, 1) } }) ∘ withItem (desc [(8, 4), (13, 0xFF)]) (fun i => { i with inst := some 0, phase := .running, recorded := .started })), ⟨0, 0⟩, 0x3F, { lane0 with job := { dsj with item := some (0, 1) } }, { kern0 with codeBytes := 64 }, ((on (laneAt (insn 0x3F 0 0 0 0 0 0) (fun x => { x with job := { dsj with item := some (0, 1) } }) ∘ withItem (desc [(8, 4), (13, 0xFF)]) (fun i => { i with inst := some 0, phase := .running, recorded := .started }))).dev.item? (0 : Nat) (1 : Nat)).get (by decide +kernel), 0, 1, by decide +kernel⟩,
    ⟨on (laneAt (insn 0 1 2 3 1 0 5) (fun x => { x with count := 10000 })), ⟨0, 0⟩, laneFields (insn 0 1 2 3 1 0 5), (fun x => { x with count := 10000 }) lane0, { kern0 with codeBytes := 64 }, by decide +kernel⟩⟩

/-- States and operands that meet the hypotheses of Obligations.TimeKeeps, clause by clause. -/
theorem witness_TimeKeeps :
    (∃ (s : State) (inc : Nat) (part : Int), s.dev.tu.refPresent = true ∧ s.dev.tu.pendRate = none ∧ s.dev.tu.pendStep = none ∧ inc = s.dev.tu.pendInc.getD s.dev.tu.inc ∧ part = max (-((inc * s.dev.rf Pg.tu Reg.TU_STEP_CTRL 14 8 / 1000000 : Nat) : Int)) (min ((inc * s.dev.rf Pg.tu Reg.TU_STEP_CTRL 14 8 / 1000000 : Nat) : Int) s.dev.tu.rem)) ∧
    (∃ (s : State) (rate : Int), s.dev.tu.refPresent = true ∧ s.dev.tu.pendRate = some rate ∧ s.dev.tu.pendStep = none ∧ s.dev.tu.rem = 0 ∧ s.dev.tu.pendInc = none) ∧
    (∃ (s : State) (step : Int), s.dev.tu.refPresent = true ∧ s.dev.tu.pendRate = none ∧ s.dev.tu.pendStep = some step ∧ s.dev.tu.rem = 0) ∧
    (∃ (s : State), s.dev.tu.refPresent = false) ∧
    (∃ (s : State) (v : Word) (x : Nat), x = fld 7 0 v * 2 ^ 32 + (s.dev.reg Pg.tu Reg.TU_INC_LO).toNat ∧ (max x s.dev.tu.nominal - min x s.dev.tu.nominal) * 1000 ≤ s.dev.tu.nominal) ∧
    (∃ (s : State) (v : Word) (x : Nat), x = fld 7 0 v * 2 ^ 32 + (s.dev.reg Pg.tu Reg.TU_INC_LO).toNat ∧ s.dev.tu.nominal < (max x s.dev.tu.nominal - min x s.dev.tu.nominal) * 1000) ∧
    (∃ (s : State) (host : Bool) (v : Word) (r : Int), r = signed 40 (fld 7 0 v * 2 ^ 32 + (s.dev.reg Pg.tu Reg.TU_RATE_LO).toNat) ∧ (host = decide (s.dev.rf Pg.tu Reg.TU_REF_SEL 5 4 = 0 ∨ s.dev.rf Pg.tu Reg.TU_REF_SEL 5 4 = 3))) ∧
    (∃ (s : State) (host : Bool) (v : Word) (delta : Int) (sum : Int), ((host = true ∧ (s.dev.rf Pg.tu Reg.TU_REF_SEL 5 4 = 0 ∨ s.dev.rf Pg.tu Reg.TU_REF_SEL 5 4 = 3)) ∨ (host = false ∧ (s.dev.rf Pg.tu Reg.TU_REF_SEL 5 4 = 1 ∨ s.dev.rf Pg.tu Reg.TU_REF_SEL 5 4 = 2))) ∧ delta = signed 64 (v.toNat * 2 ^ 32 + (s.dev.reg Pg.tu Reg.TU_ADJ_LO).toNat) ∧ sum = s.dev.tu.rem + delta * (2 ^ 32 : Nat)) ∧
    (∃ (s : State) (g : Fin 32), s.dev.tb Pg.tu (2 * g.val) 0 0 = true ∧ 0 < s.dev.tickPeriod g.val ∧ (s.dev.tickNominal g.val (s.dev.tickNext g.val) : Int) ≤ s.dev.timeNs) ∧
    (∃ (s : State), (s.dev.rf Pg.tu Reg.TU_REF_SEL 5 4 = 0 ∨ s.dev.rf Pg.tu Reg.TU_REF_SEL 5 4 = 3)) ∧
    (∃ (s : State) (o : Int) (rate : Int), (s.dev.rf Pg.tu Reg.TU_REF_SEL 5 4 = 1 ∨ s.dev.rf Pg.tu Reg.TU_REF_SEL 5 4 = 2) ∧ s.dev.tu.armed = false ∧ rate.natAbs ≤ 140737488355 ∧ (s.dev.tu.rem + o * (2 ^ 32 : Nat)).natAbs ≤ s.dev.rf Pg.tu Reg.TU_JUMP_LIMIT 23 0 * 2 ^ 32) ∧
    (∃ (s : State) (o : Int), (s.dev.rf Pg.tu Reg.TU_REF_SEL 5 4 = 1 ∨ s.dev.rf Pg.tu Reg.TU_REF_SEL 5 4 = 2) ∧ s.dev.tu.armed = false ∧ s.dev.rf Pg.tu Reg.TU_JUMP_LIMIT 23 0 * 2 ^ 32 < (s.dev.tu.rem + o * (2 ^ 32 : Nat)).natAbs ∧ s.dev.tu.sync = 1) ∧
    (∃ (s : State), s.dev.tu.sync = 1) ∧
    (∃ (s : State), s.dev.tu.sync ≠ 1) ∧
    (∃ (s : State), s.dev.tu.sync = 2 ∧ ((s.dev.rf Pg.tu Reg.TU_HOLDOVER_LIMIT 15 0 * 60000000000 : Nat) : Int) ≤ s.dev.timeNs - s.dev.tu.enteredAt) ∧
    (∃ (s : State), s.dev.tu.sync = 1) ∧
    (∃ (s : State), s.dev.tu.sync ≠ 1) ∧
    (∃ (s : State), ((∀ p, s.dev.tu.ppsLast = some p → 500000000 ≤ (s.dev.timeNs - p).natAbs)) ∧ s.dev.rb Pg.tu Reg.TU_PPS_CFG 1 = true) ∧
    (∃ (s : State) (p : Int), s.dev.tu.ppsLast = some p ∧ (s.dev.timeNs - p).natAbs < 500000000) ∧
    (∃ (s : State), ((∀ p, s.dev.tu.ppsLast = some p → 2500000000 ≤ s.dev.timeNs - p)) ∧ s.dev.rb Pg.tu Reg.TU_PPS_CFG 1 = true ∧ s.dev.tu.ppsSilent = false) ∧
    (∃ (s : State) (e : TxStamp) (es : List TxStamp) (q : Nat), q = s.dev.rf Pg.tu Reg.TU_TXTS_SEL 2 0 ∧ s.dev.txts q = e :: es ∧ e.id < 65536 ∧ e.subport < 4 ∧ e.subns < 256) ∧
    (∃ (s : State), s.dev.txts (s.dev.rf Pg.tu Reg.TU_TXTS_SEL 2 0) = []) ∧
    (∃ (s : State), s.dev.tu.refPresent = true) ∧
    (∃ (s : State), s.dev.tu.refPresent = false ∧ s.dev.sys.refHold = false) :=
  ⟨⟨on (tu (fun t => { t with rem := 5000000000 })), (on (tu (fun t => { t with rem := 5000000000 }))).dev.tu.pendInc.getD (on (tu (fun t => { t with rem := 5000000000 }))).dev.tu.inc, max (-((((on (tu (fun t => { t with rem := 5000000000 }))).dev.tu.pendInc.getD (on (tu (fun t => { t with rem := 5000000000 }))).dev.tu.inc : Nat) * (on (tu (fun t => { t with rem := 5000000000 }))).dev.rf Pg.tu Reg.TU_STEP_CTRL 14 8 / 1000000 : Nat) : Int)) (min ((((on (tu (fun t => { t with rem := 5000000000 }))).dev.tu.pendInc.getD (on (tu (fun t => { t with rem := 5000000000 }))).dev.tu.inc : Nat) * (on (tu (fun t => { t with rem := 5000000000 }))).dev.rf Pg.tu Reg.TU_STEP_CTRL 14 8 / 1000000 : Nat) : Int) (on (tu (fun t => { t with rem := 5000000000 }))).dev.tu.rem), by decide +kernel⟩,
    ⟨on (tu (fun t => { t with pendRate := some 77, rate := 5, offset := 9 })), 77, by decide +kernel⟩,
    ⟨on (tu (fun t => { t with pendStep := some 100 })), 100, by decide +kernel⟩,
    ⟨on (tu (fun t => { t with refPresent := false })), by decide +kernel⟩,
    ⟨on id, 50, fld 7 0 (50 : Word) * 2 ^ 32 + ((on id).dev.reg Pg.tu Reg.TU_INC_LO).toNat, by decide +kernel⟩,
    ⟨on id, 60, fld 7 0 (60 : Word) * 2 ^ 32 + ((on id).dev.reg Pg.tu Reg.TU_INC_LO).toNat, by decide +kernel⟩,
    ⟨on (fun d => d.setReg Pg.tu Reg.TU_RATE_LO 5), true, 0, signed 40 (fld 7 0 (0 : Word) * 2 ^ 32 + ((on (fun d => d.setReg Pg.tu Reg.TU_RATE_LO 5)).dev.reg Pg.tu Reg.TU_RATE_LO).toNat), by decide +kernel⟩,
    ⟨on (fun d => (d.setReg Pg.tu Reg.TU_ADJ_LO 5).setRf Pg.tu Reg.TU_REF_SEL 5 4 0), true, 0, signed 64 ((0 : Word).toNat * 2 ^ 32 + ((on (fun d => (d.setReg Pg.tu Reg.TU_ADJ_LO 5).setRf Pg.tu Reg.TU_REF_SEL 5 4 0)).dev.reg Pg.tu Reg.TU_ADJ_LO).toNat), (on (fun d => (d.setReg Pg.tu Reg.TU_ADJ_LO 5).setRf Pg.tu Reg.TU_REF_SEL 5 4 0)).dev.tu.rem + (signed 64 ((0 : Word).toNat * 2 ^ 32 + ((on (fun d => (d.setReg Pg.tu Reg.TU_ADJ_LO 5).setRf Pg.tu Reg.TU_REF_SEL 5 4 0)).dev.reg Pg.tu Reg.TU_ADJ_LO).toNat)) * (2 ^ 32 : Nat), by decide +kernel⟩,
    ⟨on (tf Pg.tu 0 0 0 0 1 ∘ tf Pg.tu 0 1 31 0 1000 ∘ tu (fun t => { t with raw := 5500 * 2 ^ 32 })), 0, by decide +kernel⟩,
    ⟨on (rf Pg.tu Reg.TU_REF_SEL 5 4 0), by decide +kernel⟩,
    ⟨on (rf Pg.tu Reg.TU_REF_SEL 5 4 1 ∘ tu (fun t => { t with armed := false, good := 15 })), 5, 0, by decide +kernel⟩,
    ⟨on (rf Pg.tu Reg.TU_REF_SEL 5 4 1 ∘ tu (fun t => { t with armed := false, good := 15, sync := 1 })), 500000000000, by decide +kernel⟩,
    ⟨on (tu (fun t => { t with sync := 1 })), by decide +kernel⟩,
    ⟨on id, by decide +kernel⟩,
    ⟨on (tu (fun t => { t with sync := 2, raw := 60000000000000000 * 2 ^ 32 })), by decide +kernel⟩,
    ⟨on (tu (fun t => { t with sync := 1 })), by decide +kernel⟩,
    ⟨on id, by decide +kernel⟩,
    ⟨on (rf Pg.tu Reg.TU_PPS_CFG 1 1 1), (fun p h => nomatch (show (none : Option Int) = some p from h)), by decide +kernel⟩,
    ⟨on (tu (fun t => { t with ppsLast := some 5 })), 5, by decide +kernel⟩,
    ⟨on (rf Pg.tu Reg.TU_PPS_CFG 1 1 1), (fun p h => nomatch (show (none : Option Int) = some p from h)), by decide +kernel⟩,
    ⟨on (tu (fun t => { t with txts := [(0, [⟨7, 1, false, 99, 3, false⟩])] })), ⟨7, 1, false, 99, 3, false⟩, [], (on (tu (fun t => { t with txts := [(0, [⟨7, 1, false, 99, 3, false⟩])] }))).dev.rf Pg.tu Reg.TU_TXTS_SEL 2 0, by decide +kernel⟩,
    ⟨on id, by decide +kernel⟩,
    ⟨on id, by decide +kernel⟩,
    ⟨on (tu (fun t => { t with refPresent := false })), by decide +kernel⟩⟩

/-- States and operands that meet the hypotheses of Obligations.RadiosSendAndCalibrate, clause by clause. -/
theorem witness_RadiosSendAndCalibrate :
    (∃ (s : State) (r : Radio) (mode : Fin 5) (c : Nat), bandHas r.val mode.val = true ∧ 2 * (bandOf r.val).1 + s.dev.modeWidth mode.val ≤ 2 * c ∧ 2 * c + s.dev.modeWidth mode.val ≤ 2 * (bandOf r.val).2 ∧ (s.dev.radio r.val).onAir = none) ∧
    (∃ (s : State) (r : Radio) (mode : Fin 5) (c : Nat), (bandHas r.val mode.val = false ∨ 2 * c < 2 * (bandOf r.val).1 + s.dev.modeWidth mode.val ∨ 2 * (bandOf r.val).2 < 2 * c + s.dev.modeWidth mode.val)) ∧
    (∃ (s : State) (v : Word) (r : Nat), r = s.dev.rf Pg.cv Reg.CV_RADIO_SEL 1 0 ∧ bit 4 v = true) ∧
    (∃ (v : Word), bit 4 v = false) ∧
    (∃ (s : State) (r : Radio) (c : Chain), (s.dev.hdr Pg.cv).state.serves = true ∧ (s.dev.radio r.val).calReq.getLsbD c.val = true ∧ (s.dev.radio r.val).onAir = none ∧ (s.dev.hdr (rbPage r.val)).requal.getLsbD c.val = false) ∧
    (∃ (s : State) (r : Radio) (c : Chain), (s.dev.hdr Pg.cv).state.serves = true ∧ (s.dev.radio r.val).calReq.getLsbD c.val = true ∧ (s.dev.radio r.val).onAir = none) ∧
    (∃ (s : State) (r : Radio) (c : Chain), (s.dev.hdr Pg.cv).state.serves = true ∧ (s.dev.hdr (rbPage r.val)).requal.getLsbD c.val = true ∧ (s.dev.radio r.val).onAir = none) ∧
    ((∀ c v, Config.planKnown c v = true) → (∀ c v r i, Config.planChan c v r i = none) → ∃ (s : State) (r : Radio) (b : Burst) (rest : List Burst), s.dev.radioServes r.val = true ∧ s.dev.hops r.val = false ∧ (s.dev.radio r.val).ready = b :: rest ∧ (s.dev.radio r.val).onAir = none ∧ (s.dev.radio r.val).settled ≤ s.dev.nowNs ∧ s.dev.burstRecorded b = true ∧ s.dev.chainMask r.val ≠ 0 ∧ s.dev.air.cutTill = none) ∧
    (∃ (s : State) (r : Radio) (b : Burst) (rest : List Burst) (f : AirFrame) (q : Nat) (p : Pkt) (filled : Bool), (s.dev.radio r.val).ready = b :: rest ∧ (s.dev.radio r.val).onAir = none ∧ (filled = false ∨ s.dev.nowNs < (s.dev.radio r.val).settled ∨ s.dev.radioServes r.val = false ∨ s.dev.burstRecorded b = false) ∧ b.kind = .grant ∧ b.frames = [f] ∧ f.pkt = some (q, p)) ∧
    ((∀ c v, Config.planKnown c v = true) → (∀ c v r i, Config.planChan c v r i = some (9700, 0, 40, true, 400)) → ∃ (s : State) (r : Radio) (b : Burst) (rest : List Burst), s.dev.radioServes r.val = true ∧ s.dev.hops r.val = true ∧ s.dev.dwellLimit r.val b.chan < s.dev.dwellUsed r.val b.chan + b.durNs ∧ (s.dev.radio r.val).ready = b :: rest ∧ (s.dev.radio r.val).onAir = none ∧ (s.dev.radio r.val).settled ≤ s.dev.nowNs ∧ s.dev.burstRecorded b = true ∧ s.dev.chainMask r.val ≠ 0 ∧ s.dev.air.cutTill = none ∧ b.kind ≠ .run) ∧
    (∃ (s : State) (r : Radio) (b : Burst), (s.dev.radio r.val).onAir = some b ∧ b.block + 2 < b.blocks ∧ ((∀ c, c < 4 → b.chains.getLsbD c = true → s.dev.unitOut (rbPage r.val) c = false))) ∧
    (∃ (s : State) (r : Radio) (b : Burst) (f : AirFrame) (g : Nat) (n : Nat) (i : Item), (s.dev.radio r.val).onAir = some b ∧ b.block + 2 = b.blocks ∧ ((∀ c, c < 4 → b.chains.getLsbD c = true → s.dev.unitOut (rbPage r.val) c = false)) ∧ b.kind = .grant ∧ b.dead = false ∧ b.frames = [f] ∧ f.item = some (g, n) ∧ s.dev.item? g n = some i) ∧
    (∃ (s : State) (r : Radio) (c : Chain) (b : Burst), (s.dev.radio r.val).onAir = some b ∧ b.chains.getLsbD c.val = true ∧ s.dev.unitOut (rbPage r.val) c.val = true) ∧
    (∃ (s : State) (r : Radio) (c : Chain) (b : Burst) (short : BitVec 4), (s.dev.radio r.val).onAir = some b ∧ b.chains.getLsbD c.val = true ∧ short.getLsbD c.val = true ∧ s.dev.unitOut (rbPage r.val) c.val = false) ∧
    (∃ (s : State) (r : Radio) (b : Burst) (f : AirFrame) (g : Nat) (n : Nat) (i : Item), (s.dev.radio r.val).onAir = some b ∧ b.dead = false ∧ b.kind = .grant ∧ b.blocks ≤ b.block + 1 ∧ b.frames = [f] ∧ f.ackReq = false ∧ f.pkt = none ∧ f.item = some (g, n) ∧ s.dev.item? g n = some i ∧ i.recorded = .emitted ∧ i.pend = none) ∧
    (∃ (s : State) (r : Radio) (b : Burst), (s.dev.radio r.val).onAir = some b ∧ b.dead = true) ∧
    (∃ (s : State) (r : Radio) (c : Chain), (s.dev.records (rbPage r.val)).testBit c.val = true) ∧
    (∃ (s : State) (r : Radio), ((s.dev.radio r.val).ready ≠ [] ∨ (s.dev.radio r.val).onAir ≠ none)) ∧
    ((∀ c v, Config.planKnown c v = true) → ∃ (s : State) (b : RxBurst), s.dev.radioServes b.radio.val = true ∧ (s.dev.radio b.radio.val).onAir = none ∧ b.headerOk = false) ∧
    ((∀ c v, Config.planKnown c v = true) → ∃ (s : State) (r : Radio) (f : SensorFrame), s.dev.radioServes r.val = true ∧ (s.dev.radio r.val).onAir = none ∧ f.crcOk = false) :=
  ⟨⟨on id, 0, 0, 9700, by decide +kernel⟩,
    ⟨on id, 0, 0, 0, by decide +kernel⟩,
    ⟨on id, 0x31, (on id).dev.rf Pg.cv Reg.CV_RADIO_SEL 1 0, by decide +kernel⟩,
    ⟨0, by decide +kernel⟩,
    ⟨on (ra (fun r => { r with calReq := 1 })), 0, 0, by decide +kernel⟩,
    ⟨on (ra (fun r => { r with calReq := 1 })), 0, 0, by decide +kernel⟩,
    ⟨on (ra (fun r => { r with calReq := 1 }) ∘ hd (rbPage 0) (fun h => { h with requal := 1 })), 0, 0, by decide +kernel⟩,
    fun hk hc => ⟨on (ra (fun r => { r with ready := [burst0] }) ∘ radios), 0, burst0, [], (radioServes_of _ _ hk (by decide +kernel)), (hops_no _ _ hc), by decide +kernel⟩,
    ⟨on (ra (fun r => { r with ready := [{ burst0 with kind := .grant, frames := [{ airf with item := none, pkt := some (5, pkt0) }] }] }) ∘ radios), 0, { burst0 with kind := .grant, frames := [{ airf with item := none, pkt := some (5, pkt0) }] }, [], { airf with item := none, pkt := some (5, pkt0) }, 5, pkt0, false, by decide +kernel⟩,
    fun hk hc => ⟨on (ra (fun r => { r with ready := [{ burst0 with chan := 1, durNs := 400000001 }] }) ∘ radios ∘ rf Pg.ac Reg.AC_COUNTRY 15 0 1), 0, { burst0 with chan := 1, durNs := 400000001 }, [], (radioServes_of _ _ hk (by decide +kernel)), (hops_yes _ _ hc), (by rw [dwellLimit_of _ _ _ hc]; decide +kernel), by decide +kernel⟩,
    ⟨on (ra (fun r => { r with onAir := some { burst0 with blocks := 9 } })), 0, { burst0 with blocks := 9 }, by decide +kernel⟩,
    ⟨on (ra (fun r => { r with onAir := some { burst0 with blocks := 2, kind := .grant, frames := [airf] } }) ∘ withItem (desc [(8, 8)]) (fun i => { i with inst := some 0, phase := .running, recorded := .started })), 0, { burst0 with blocks := 2, kind := .grant, frames := [airf] }, airf, 0, 1, ((on (ra (fun r => { r with onAir := some { burst0 with blocks := 2, kind := .grant, frames := [airf] } }) ∘ withItem (desc [(8, 8)]) (fun i => { i with inst := some 0, phase := .running, recorded := .started }))).dev.item? (0 : Nat) (1 : Nat)).get (by decide +kernel), by decide +kernel⟩,
    ⟨on (ra (fun r => { r with onAir := some burst0 }) ∘ hd (rbPage 0) (fun h => { h with requal := 1 })), 0, 0, burst0, by decide +kernel⟩,
    ⟨on (ra (fun r => { r with onAir := some burst0 })), 0, 0, burst0, 1, by decide +kernel⟩,
    ⟨on (ra (fun r => { r with onAir := some { burst0 with kind := .grant, frames := [airf] } }) ∘ withItem (desc [(8, 8)]) (fun i => { i with inst := some 0, phase := .emitted, recorded := .emitted })), 0, { burst0 with kind := .grant, frames := [airf] }, airf, 0, 1, ((on (ra (fun r => { r with onAir := some { burst0 with kind := .grant, frames := [airf] } }) ∘ withItem (desc [(8, 8)]) (fun i => { i with inst := some 0, phase := .emitted, recorded := .emitted }))).dev.item? (0 : Nat) (1 : Nat)).get (by decide +kernel), by decide +kernel⟩,
    ⟨on (ra (fun r => { r with onAir := some { burst0 with dead := true } })), 0, { burst0 with dead := true }, by decide +kernel⟩,
    ⟨on (rf (rbPage 0) Reg.RB_CHAIN_RETIRE 3 0 1), 0, 0, by decide +kernel⟩,
    ⟨on (ra (fun r => { r with onAir := some burst0 })), 0, by decide +kernel⟩,
    fun hk => ⟨on radios, { rxb with headerOk := false }, (radioServes_of _ _ hk (by decide +kernel)), by decide +kernel⟩,
    fun hk => ⟨on radios, 0, { sf 16 with crcOk := false }, (radioServes_of _ _ hk (by decide +kernel)), by decide +kernel⟩⟩

/-- States and operands that meet the hypotheses of Obligations.AirControllerServes, clause by clause. -/
theorem witness_AirControllerServes :
    ((∀ c v, Config.planKnown c v = true) → ∃ (s : State) (r : Radio) (k : Int), s.dev.radioServes r.val = true ∧ (s.dev.hdr Pg.ac).state.serves = true ∧ (s.dev.hdr Pg.ac).commitPending = false ∧ s.dev.air.cutTill = none ∧ s.dev.air.runq = [] ∧ s.dev.air.running = none ∧ k = (s.dev.timeNs + 40000) / (max s.dev.quadNs 1 : Nat)) ∧
    (∃ (s : State), (s.dev.hdr Pg.ac).state.serves = false) ∧
    ((∀ c v, Config.planKnown c v = true) → ∃ (s : State) (r : Radio) (i : Fin 256) (e : CardEntry), s.dev.radioServes r.val = true ∧ ((∀ p l, s.dev.portQueues p l = [])) ∧ e = cardEntry (s.dev.tw Pg.ac (cardA r.val i.val) 0) ∧ e.valid = true ∧ e.up = false ∧ e.link < 1022 ∧ s.dev.air.running = none ∧ s.dev.air.cutTill = none ∧ s.dev.wk.items = [] ∧ (s.dev.airLink e.link).owed ≠ [] ∧ (s.dev.airLink e.link).floods = []) ∧
    (∃ (s : State) (r : Radio) (i : Fin 256), ((cardEntry (s.dev.tw Pg.ac (cardA r.val i.val) 0)).valid = false ∨ (cardEntry (s.dev.tw Pg.ac (cardA r.val i.val) 0)).up = true)) ∧
    (∃ (s : State) (n : RingNo) (q : Nat) (c : Nat) (i : Item), s.dev.item? n.val q = some i ∧ engineOf i.desc = 8 ∧ i.pend = none ∧ i.inst.isSome = true ∧ i.phase = .bound ∧ opOf i.desc = 0 ∧ ((ctxOf i.desc % 4096 < 1022 ∧ 9596 < lengthOf i.desc ∧ c = Cause.FRAME_SIZE) ∨ (ctxOf i.desc % 4096 < 1022 ∧ lengthOf i.desc ≤ 9596 ∧ s.dev.linkLost (ctxOf i.desc % 4096) = true ∧ c = Cause.PEER_LOST) ∨ (1024 ≤ ctxOf i.desc % 4096 ∧ ctxOf i.desc % 4096 < 3072 ∧ 248 < lengthOf i.desc ∧ c = Cause.FRAME_SIZE))) ∧
    (∃ (s : State) (n : RingNo) (q : Nat) (i : Item), s.dev.item? n.val q = some i ∧ opOf i.desc = 0 ∧ ctxOf i.desc % 4096 < 1022 ∧ lengthOf i.desc ≤ 9596 ∧ s.dev.linkLost (ctxOf i.desc % 4096) = false) ∧
    ((∀ c v, Config.planKnown c v = true) → ∃ (s : State) (b : RxBurst) (f : LinkFrame), s.dev.radioServes b.radio.val = true ∧ (s.dev.radio b.radio.val).onAir = none ∧ b.headerOk = true ∧ b.codewords = [] ∧ b.payload = .frames [f] ∧ s.dev.linkValid b.link.val = true ∧ s.dev.linkLost b.link.val = false ∧ b.kind = 1 ∧ f.ftype = 0 ∧ f.ackReq = false ∧ f.seq.toNat = s.dev.rxNext b.link.val ∧ hasNat (s.dev.airLink b.link.val).delivered f.seq.toNat = false ∧ (s.dev.airLink b.link.val).held = []) ∧
    ((∀ c v, Config.planKnown c v = true) → ∃ (s : State) (b : RxBurst) (f : LinkFrame), s.dev.radioServes b.radio.val = true ∧ (s.dev.radio b.radio.val).onAir = none ∧ b.headerOk = true ∧ b.codewords = [] ∧ b.payload = .frames [f] ∧ s.dev.linkValid b.link.val = true ∧ s.dev.linkLost b.link.val = false ∧ b.kind = 1 ∧ f.ftype = 0 ∧ f.ackReq = false ∧ hasNat (s.dev.airLink b.link.val).delivered f.seq.toNat = true) ∧
    (∃ (s : State) (k : Fin 1024) (h : HeldFrame), (s.dev.airLink k.val).held = [h] ∧ h.seq < 65536 ∧ h.ftype = 0 ∧ h.at_ + s.dev.rf Pg.ac Reg.AC_REORDER_CFG 11 0 * 10000 ≤ s.dev.nowNs) ∧
    (∃ (s : State) (k : Fin 1024), (s.dev.airLink k.val).held = []) ∧
    (∃ (s : State) (k : Fin 1024), s.dev.linkValid k.val = true ∧ s.dev.linkLost k.val = false ∧ (s.dev.airLink k.val).missed ≠ 0 ∧ s.dev.rf Pg.ac Reg.AC_TIMING_CFG 31 24 ≤ (s.dev.airLink k.val).missed) ∧
    (∃ (s : State) (k : Fin 1024), (s.dev.airLink k.val).missed < s.dev.rf Pg.ac Reg.AC_TIMING_CFG 31 24) ∧
    (∃ (s : State) (p : Fin 32), (s.dev.partnerX p.val).known = true ∧ s.dev.partnerState p.val = 0 ∧ ((s.dev.partnerX p.val).holdTill : Int) < s.dev.air.quad ∧ (s.dev.radio (s.dev.partnerRadio p.val)).onAir = none ∧ s.dev.air.cutTill = none) ∧
    ((∀ c v, Config.planKnown c v = true) → ∃ (s : State) (i : Fin 2048) (r : Nat) (at_ : Int), s.dev.radioServes r = true ∧ r = s.dev.sensorRadio ∧ at_ = s.dev.nextWake i.val s.dev.timeNs ∧ s.dev.sensorValid i.val = true ∧ s.dev.rb Pg.ac Reg.AC_CFG 2 = true ∧ s.dev.sensorStep i.val = 0 ∧ s.dev.air.running = none ∧ s.dev.air.cutTill = none ∧ (s.dev.radio r).ready = [] ∧ (s.dev.radio r).onAir = none) ∧
    (∃ (s : State) (i : Fin 2048), (s.dev.sensorValid i.val = false ∨ s.dev.sensorStep i.val ≠ 0)) ∧
    (∃ (s : State) (i : Fin 2048), s.dev.sensorValid i.val = true ∧ (s.dev.sensorX i.val).awaits ≠ none ∧ hasNat s.dev.air.runq i.val = false ∧ s.dev.sensorStep i.val ≠ 3) ∧
    (∃ (s : State) (i : Fin 2048), (s.dev.sensorX i.val).awaits = none) ∧
    ((∀ c v, Config.planKnown c v = true) → ∃ (s : State) (r : Radio) (f : SensorFrame), s.dev.radioServes r.val = true ∧ r.val = s.dev.sensorRadio ∧ (s.dev.radio r.val).onAir = none ∧ f.crcOk = true ∧ f.kind = 16 ∧ s.dev.sensorValid f.sensor.val = true ∧ (s.dev.sensorX f.sensor.val).awaits ≠ none ∧ s.dev.sensorStep f.sensor.val ≠ 3) ∧
    ((∀ c v, Config.planKnown c v = true) → ∃ (s : State) (r : Radio) (f : SensorFrame) (l : List Nat), s.dev.radioServes r.val = true ∧ r.val = s.dev.sensorRadio ∧ (s.dev.radio r.val).onAir = none ∧ f.crcOk = true ∧ f.kind = 17 ∧ s.dev.air.window = some l ∧ hasNat l f.hwid.toNat = false ∧ l.length < s.dev.rf Pg.ac Reg.AC_SLEEPY_CFG 5 0) ∧
    ((∀ c v, Config.planKnown c v = true) → ∃ (s : State), s.dev.radioServes s.dev.sensorRadio = true ∧ s.dev.rb Pg.ac Reg.AC_CFG 2 = true ∧ s.dev.air.running = none ∧ s.dev.air.cutTill = none) ∧
    (∃ (s : State) (h : Nat), s.dev.air.window = some [h] ∧ s.dev.sensorOf h = none) ∧
    (∃ (s : State) (h : Nat) (i : Nat), s.dev.air.window = some [h] ∧ s.dev.sensorOf h = some i ∧ s.dev.sensorStep i = 3 ∧ 0 < s.dev.rf Pg.ac Reg.AC_SLEEPY_CFG 13 8) ∧
    (∃ (s : State) (h : Nat) (i : Nat), s.dev.air.window = some [h] ∧ s.dev.sensorOf h = some i ∧ s.dev.rf Pg.ac Reg.AC_SLEEPY_CFG 13 8 = 0) ∧
    (∃ (s : State) (r : Radio), s.dev.rb Pg.ac Reg.AC_RADIO_EN r.val = true) ∧
    (∃ (s : State) (e : LostEntry) (es : List LostEntry), s.dev.air.pops = e :: es ∧ e.index < 2048 ∧ e.kind < 4) ∧
    (∃ (s : State), s.dev.air.pops = []) :=
  ⟨fun hk => ⟨on radios, 0, ((on radios).dev.timeNs + 40000) / (max (on radios).dev.quadNs 1 : Nat), (radioServes_of _ _ hk (by decide +kernel)), by decide +kernel⟩,
    ⟨on (pageIn Pg.ac .off), by decide +kernel⟩,
    fun hk => ⟨on (tf Pg.ac 0x3000 0 31 0 0x80100C05 ∘ radios ∘ air (fun a => { a with links := [(5, { AirLink.reset with owed := [7] })] })), 0, 0, cardEntry ((on (tf Pg.ac 0x3000 0 31 0 0x80100C05 ∘ radios ∘ air (fun a => { a with links := [(5, { AirLink.reset with owed := [7] })] }))).dev.tw Pg.ac (cardA (0 : Radio).val (0 : Fin 256).val) 0), (radioServes_of _ _ hk (by decide +kernel)), (portQueues_none _ (by decide +kernel)), by decide +kernel⟩,
    ⟨on id, 0, 0, by decide +kernel⟩,
    ⟨on (bound (desc [(8, 8), (40, 9597)])), 0, 1, Cause.FRAME_SIZE, ((on (bound (desc [(8, 8), (40, 9597)]))).dev.item? (0 : RingNo).val (1 : Nat)).get (by decide +kernel), by decide +kernel⟩,
    ⟨on (bound (desc [(8, 8), (40, 90)])), 0, 1, ((on (bound (desc [(8, 8), (40, 90)]))).dev.item? (0 : RingNo).val (1 : Nat)).get (by decide +kernel), by decide +kernel⟩,
    fun hk => ⟨on (tf Pg.ac 20 0 0 0 1 ∘ radios), rxb, link0, (radioServes_of _ _ hk (by decide +kernel)), by decide +kernel⟩,
    fun hk => ⟨on (tf Pg.ac 20 0 0 0 1 ∘ radios ∘ air (fun a => { a with links := [(5, { AirLink.reset with delivered := [0] })] })), rxb, link0, (radioServes_of _ _ hk (by decide +kernel)), by decide +kernel⟩,
    ⟨on (tu (fun t => { t with raw := 900000000 * 2 ^ 32 }) ∘ air (fun a => { a with links := [(5, { AirLink.reset with held := [⟨6, 0, 0, 17, []⟩] })] })), 5, ⟨6, 0, 0, 17, []⟩, by decide +kernel⟩,
    ⟨on id, 0, by decide +kernel⟩,
    ⟨on (tf Pg.ac 20 0 0 0 1 ∘ air (fun a => { a with links := [(5, { AirLink.reset with missed := 255 })] })), 5, by decide +kernel⟩,
    ⟨on id, 0, by decide +kernel⟩,
    ⟨on (air (fun a => { a with quad := 3, partners := [(0, { PartnerX.reset with known := true })] })), 0, by decide +kernel⟩,
    fun hk => ⟨on (tf Pg.ac (sensorA 3 0) 0 0 0 1 ∘ tf Pg.ac (sensorA 3 0) 0 14 1 10 ∘ rf Pg.ac Reg.AC_CFG 2 2 1 ∘ radios), 3, (on (tf Pg.ac (sensorA 3 0) 0 0 0 1 ∘ tf Pg.ac (sensorA 3 0) 0 14 1 10 ∘ rf Pg.ac Reg.AC_CFG 2 2 1 ∘ radios)).dev.sensorRadio, (on (tf Pg.ac (sensorA 3 0) 0 0 0 1 ∘ tf Pg.ac (sensorA 3 0) 0 14 1 10 ∘ rf Pg.ac Reg.AC_CFG 2 2 1 ∘ radios)).dev.nextWake (3 : Fin 2048).val (on (tf Pg.ac (sensorA 3 0) 0 0 0 1 ∘ tf Pg.ac (sensorA 3 0) 0 14 1 10 ∘ rf Pg.ac Reg.AC_CFG 2 2 1 ∘ radios)).dev.timeNs, (radioServes_of _ _ hk (by decide +kernel)), by decide +kernel⟩,
    ⟨on id, 0, by decide +kernel⟩,
    ⟨on (tf Pg.ac (sensorA 3 0) 0 0 0 1 ∘ air (fun a => { a with sensors := [(3, { SensorX.reset with awaits := some 5 })] })), 3, by decide +kernel⟩,
    ⟨on id, 3, by decide +kernel⟩,
    fun hk => ⟨on (tf Pg.ac (sensorA 3 0) 0 0 0 1 ∘ radios ∘ air (fun a => { a with sensors := [(3, { SensorX.reset with awaits := some 5 })] })), Fin.ofNat 3 (on (tf Pg.ac (sensorA 3 0) 0 0 0 1 ∘ radios ∘ air (fun a => { a with sensors := [(3, { SensorX.reset with awaits := some 5 })] }))).dev.sensorRadio, sf 16, (radioServes_of _ _ hk (by decide +kernel)), by decide +kernel⟩,
    fun hk => ⟨on (radios ∘ air (fun a => { a with window := some [] })), Fin.ofNat 3 (on (radios ∘ air (fun a => { a with window := some [] }))).dev.sensorRadio, sf 17, [], (radioServes_of _ _ hk (by decide +kernel)), by decide +kernel⟩,
    fun hk => ⟨on (rf Pg.ac Reg.AC_CFG 2 2 1 ∘ radios), (radioServes_of _ _ hk (by decide +kernel)), by decide +kernel⟩,
    ⟨on (air (fun a => { a with window := some [9] })), 9, by decide +kernel⟩,
    ⟨on (tf Pg.ac (sensorA 3 0) 0 0 0 1 ∘ tf Pg.ac (sensorA 3 0) 2 31 0 9 ∘ tf Pg.ac (sensorA 3 1) 0 1 0 3 ∘ air (fun a => { a with window := some [9] })), 9, ((on (tf Pg.ac (sensorA 3 0) 0 0 0 1 ∘ tf Pg.ac (sensorA 3 0) 2 31 0 9 ∘ tf Pg.ac (sensorA 3 1) 0 1 0 3 ∘ air (fun a => { a with window := some [9] }))).dev.sensorOf (9 : Nat)).get (by decide +kernel), by decide +kernel⟩,
    ⟨on (tf Pg.ac (sensorA 3 0) 0 0 0 1 ∘ tf Pg.ac (sensorA 3 0) 2 31 0 9 ∘ rf Pg.ac Reg.AC_SLEEPY_CFG 13 8 0 ∘ air (fun a => { a with window := some [9] })), 9, ((on (tf Pg.ac (sensorA 3 0) 0 0 0 1 ∘ tf Pg.ac (sensorA 3 0) 2 31 0 9 ∘ rf Pg.ac Reg.AC_SLEEPY_CFG 13 8 0 ∘ air (fun a => { a with window := some [9] }))).dev.sensorOf (9 : Nat)).get (by decide +kernel), by decide +kernel⟩,
    ⟨on radios, 0, by decide +kernel⟩,
    ⟨on (air (fun a => { a with pops := [⟨7, 1, true, false⟩] })), ⟨7, 1, true, false⟩, [], by decide +kernel⟩,
    ⟨on id, by decide +kernel⟩⟩

/-- States and operands that meet the hypotheses of Obligations.CipherRequests, clause by clause. -/
theorem witness_CipherRequests :
    (∃ (s : State) (n : RingNo) (q : Nat) (e : Nat) (cmp : CmpOutcome) (i : Item) (x : Nat × Instr), x ∈ [(0, .gcmEnc n q cmp), (1, .gcmDec n q cmp), (2, .ctrEnc n q cmp), (3, .ctrXform n q cmp), (4, .xtsEnc n q cmp), (5, .xtsDec n q cmp)] ∧ s.dev.item? n.val q = some i ∧ engineOf i.desc = 6 ∧ opOf i.desc = x.1 ∧ i.inst = some e ∧ i.pend = none ∧ i.phase = .bound ∧ s.dev.ceTakes e i.desc = true ∧ s.dev.ceInProgress e = [] ∧ s.dev.keys.pend = [] ∧ s.dev.ceRefusal e i.desc = none ∧ ((x.1 ≠ 0 ∧ x.1 ≠ 2) ∨ i.engineState ≠ 0)) ∧
    (∃ (s : State) (n : RingNo) (q : Nat) (e : Nat) (cmp : CmpOutcome) (i : Item) (x : Nat × Instr) (k : KeySlot), x ∈ [(0, .gcmEnc n q cmp), (2, .ctrEnc n q cmp)] ∧ s.dev.item? n.val q = some i ∧ engineOf i.desc = 6 ∧ opOf i.desc = x.1 ∧ i.inst = some e ∧ i.pend = none ∧ i.phase = .bound ∧ s.dev.ceTakes e i.desc = true ∧ s.dev.ceInProgress e = [] ∧ s.dev.keys.pend = [] ∧ s.dev.ceRefusal e i.desc = none ∧ i.engineState = 0 ∧ k = s.dev.slot (ctxOf i.desc % 256) ∧ k.count < k.limit) ∧
    (∃ (s : State) (n : RingNo) (q : Nat) (e : Nat) (cmp : CmpOutcome) (i : Item) (x : Nat × Instr), x ∈ [(0, .gcmEnc n q cmp), (2, .ctrEnc n q cmp)] ∧ s.dev.item? n.val q = some i ∧ engineOf i.desc = 6 ∧ opOf i.desc = x.1 ∧ i.inst = some e ∧ e < 2 ∧ i.pend = none ∧ i.phase = .bound ∧ s.dev.ceTakes e i.desc = true ∧ s.dev.ceInProgress e = [] ∧ s.dev.keys.pend = [] ∧ s.dev.ceRefusal e i.desc = none ∧ i.engineState = 0 ∧ (s.dev.slot (ctxOf i.desc % 256)).limit ≤ (s.dev.slot (ctxOf i.desc % 256)).count) ∧
    (∃ (s : State) (n : RingNo) (q : Nat) (e : Nat) (aad : Nat) (i : Item) (x : Nat × Instr) (d1 : Dev) (d2 : Dev) (d4 : Dev) (d5 : Dev) (src : List Byte) (param : List Byte) (par : List Byte) (out : List Nat), x ∈ [(0, .gcmEnc n q .equal), (1, .gcmDec n q .equal), (2, .ctrEnc n q .equal), (3, .ctrXform n q .equal), (4, .xtsEnc n q .equal), (5, .xtsDec n q .equal)] ∧ s.dev.item? n.val q = some i ∧ engineOf i.desc = 6 ∧ opOf i.desc = x.1 ∧ i.inst = some e ∧ i.pend = none ∧ i.phase = .running ∧ (s.dev.hdr (cePage e)).state.serves = true ∧ s.dev.ceInProgress e = [i] ∧ (s.dev.ce e).runs = [] ∧ (aad = (if x.1 ≤ 1 then aadLenOf i.desc else 0)) ∧ s.dev.virtRead (whoCe e) (s.dev.ringAsid n.val) (srcOf i.desc) (aad + lengthOf i.desc) = (d1, .ok, src) ∧ ((if x.1 = 0 ∨ x.1 = 2 then (d1, VRes.ok, []) else d1.virtRead (whoCe e) (s.dev.ringAsid n.val) (paramOf i.desc) 32) = (d2, .ok, param)) ∧ d2.ceCompute i ((ofBytes src).take aad) ((ofBytes src).drop aad) (ofBytes param) = (out, true, par) ∧ (d2.drawn.ceBytes e (aad + lengthOf i.desc)).virtWrite (whoCe e) (s.dev.ringAsid n.val) (dstOf i.desc) (toBytes out) = (d4, .ok) ∧ d4.virtWrite (whoCe e) (s.dev.ringAsid n.val) (paramOf i.desc) par = (d5, .ok) ∧ d5.item? n.val q = some i ∧ (d5.ce e).pendMode = none) ∧
    (∃ (s : State) (n : RingNo) (q : Nat) (e : Nat) (i : Item) (d1 : Dev) (d2 : Dev) (src : List Byte) (param : List Byte) (par : List Byte) (out : List Nat), s.dev.item? n.val q = some i ∧ engineOf i.desc = 6 ∧ opOf i.desc = 1 ∧ streamOf i.desc = false ∧ i.inst = some e ∧ e < 2 ∧ i.recorded = .started ∧ i.pend = none ∧ i.phase = .running ∧ (s.dev.hdr (cePage e)).state.serves = true ∧ s.dev.ceInProgress e = [i] ∧ (s.dev.ce e).runs = [] ∧ s.dev.virtRead (whoCe e) (s.dev.ringAsid n.val) (srcOf i.desc) (aadLenOf i.desc + lengthOf i.desc) = (d1, .ok, src) ∧ d1.virtRead (whoCe e) (s.dev.ringAsid n.val) (paramOf i.desc) 32 = (d2, .ok, param) ∧ d2.ceCompute i ((ofBytes src).take (aadLenOf i.desc)) ((ofBytes src).drop (aadLenOf i.desc)) (ofBytes param) = (out, false, par) ∧ d2.item? n.val q = some i ∧ (d2.ce e).pendMode = none) ∧
    (∃ (s : State) (n : RingNo) (q : Nat) (e : Nat) (i : Item), s.dev.item? n.val q = some i ∧ engineOf i.desc = 6 ∧ opOf i.desc = 0x10 ∧ i.inst = some e ∧ i.pend = none ∧ i.phase = .bound ∧ s.dev.ceTakes e i.desc = true ∧ s.dev.ceInProgress e = [] ∧ lengthOf i.desc = 112) ∧
    (∃ (s : State) (n : RingNo) (q : Nat) (e : Nat) (c : Nat) (i : Item) (d1 : Dev) (bs : List Byte) (k : KeySlot), s.dev.item? n.val q = some i ∧ engineOf i.desc = 6 ∧ opOf i.desc = 0x10 ∧ i.inst = some e ∧ e < 2 ∧ i.recorded = .started ∧ i.pend = none ∧ i.phase = .running ∧ (s.dev.hdr (cePage e)).state.serves = true ∧ s.dev.ceInProgress e = [i] ∧ s.dev.virtRead (whoCe e) (s.dev.ringAsid n.val) (srcOf i.desc) 112 = (d1, .ok, bs) ∧ d1.checkBlob e (ofBytes bs) = (c, k) ∧ d1.item? n.val q = some i ∧ (d1.ce e).pendMode = none ∧ d1.slotItems (ctxOf i.desc % 256) = [] ∧ d1.keys.loads < 65536 ∧ d1.keys.pend = []) :=
  ⟨⟨on (keyed (key0 (if ((0, .gcmEnc 0 1 .equal) : Nat × Instr).1 < 4 then 0 else 2) 3) ∘ svc ∘ withItem (ceDesc ((0, .gcmEnc 0 1 .equal) : Nat × Instr).1 16) (fun i => { i with inst := some 0, phase := .bound, engineState := 5 })), 0, 1, 0, .equal, ((on (keyed (key0 (if ((0, .gcmEnc 0 1 .equal) : Nat × Instr).1 < 4 then 0 else 2) 3) ∘ svc ∘ withItem (ceDesc ((0, .gcmEnc 0 1 .equal) : Nat × Instr).1 16) (fun i => { i with inst := some 0, phase := .bound, engineState := 5 }))).dev.item? 0 1).get (by decide +kernel), (0, .gcmEnc 0 1 .equal), by decide +kernel⟩,
    ⟨on (keyed (key0 0 3) ∘ svc ∘ ceBound ((0, .gcmEnc 0 1 .equal) : Nat × Instr).1 0), 0, 1, 0, .equal, ((on (keyed (key0 0 3) ∘ svc ∘ ceBound ((0, .gcmEnc 0 1 .equal) : Nat × Instr).1 0)).dev.item? 0 1).get (by decide +kernel), (0, .gcmEnc 0 1 .equal), (on (keyed (key0 0 3) ∘ svc ∘ ceBound ((0, .gcmEnc 0 1 .equal) : Nat × Instr).1 0)).dev.slot (ctxOf (((on (keyed (key0 0 3) ∘ svc ∘ ceBound ((0, .gcmEnc 0 1 .equal) : Nat × Instr).1 0)).dev.item? 0 1).get (by decide +kernel) : Item).desc % 256), by decide +kernel⟩,
    ⟨on (keyed { key0 0 3 with limit := 4, count := 4 } ∘ svc ∘ ceBound ((0, .gcmEnc 0 1 .equal) : Nat × Instr).1 0), 0, 1, 0, .equal, ((on (keyed { key0 0 3 with limit := 4, count := 4 } ∘ svc ∘ ceBound ((0, .gcmEnc 0 1 .equal) : Nat × Instr).1 0)).dev.item? 0 1).get (by decide +kernel), (0, .gcmEnc 0 1 .equal), by decide +kernel⟩,
    ⟨on ((fun d => if ((4, .xtsEnc 0 1 .equal) : Nat × Instr).1 = 1 then (d.virtWrite 0 0 0x4000002010 [151, 54, 69, 47, 243, 89, 169, 150, 90, 76, 166, 133, 70, 20, 172, 12]).1 else d) ∘ keyed (key0 (if ((4, .xtsEnc 0 1 .equal) : Nat × Instr).1 < 4 then 0 else 2) 3) ∘ ceRuns ((4, .xtsEnc 0 1 .equal) : Nat × Instr).1 16), 0, 1, 0, (if ((4, .xtsEnc 0 1 .equal) : Nat × Instr).1 ≤ 1 then aadLenOf (((on ((fun d => if ((4, .xtsEnc 0 1 .equal) : Nat × Instr).1 = 1 then (d.virtWrite 0 0 0x4000002010 [151, 54, 69, 47, 243, 89, 169, 150, 90, 76, 166, 133, 70, 20, 172, 12]).1 else d) ∘ keyed (key0 (if ((4, .xtsEnc 0 1 .equal) : Nat × Instr).1 < 4 then 0 else 2) 3) ∘ ceRuns ((4, .xtsEnc 0 1 .equal) : Nat × Instr).1 16)).dev.item? 0 1).get (by decide +kernel) : Item).desc else 0), ((on ((fun d => if ((4, .xtsEnc 0 1 .equal) : Nat × Instr).1 = 1 then (d.virtWrite 0 0 0x4000002010 [151, 54, 69, 47, 243, 89, 169, 150, 90, 76, 166, 133, 70, 20, 172, 12]).1 else d) ∘ keyed (key0 (if ((4, .xtsEnc 0 1 .equal) : Nat × Instr).1 < 4 then 0 else 2) 3) ∘ ceRuns ((4, .xtsEnc 0 1 .equal) : Nat × Instr).1 16)).dev.item? 0 1).get (by decide +kernel), (4, .xtsEnc 0 1 .equal), ((on ((fun d => if ((4, .xtsEnc 0 1 .equal) : Nat × Instr).1 = 1 then (d.virtWrite 0 0 0x4000002010 [151, 54, 69, 47, 243, 89, 169, 150, 90, 76, 166, 133, 70, 20, 172, 12]).1 else d) ∘ keyed (key0 (if ((4, .xtsEnc 0 1 .equal) : Nat × Instr).1 < 4 then 0 else 2) 3) ∘ ceRuns ((4, .xtsEnc 0 1 .equal) : Nat × Instr).1 16)).dev.virtRead (whoCe (0 : Nat)) ((on ((fun d => if ((4, .xtsEnc 0 1 .equal) : Nat × Instr).1 = 1 then (d.virtWrite 0 0 0x4000002010 [151, 54, 69, 47, 243, 89, 169, 150, 90, 76, 166, 133, 70, 20, 172, 12]).1 else d) ∘ keyed (key0 (if ((4, .xtsEnc 0 1 .equal) : Nat × Instr).1 < 4 then 0 else 2) 3) ∘ ceRuns ((4, .xtsEnc 0 1 .equal) : Nat × Instr).1 16)).dev.ringAsid (0 : RingNo).val) (srcOf (((on ((fun d => if ((4, .xtsEnc 0 1 .equal) : Nat × Instr).1 = 1 then (d.virtWrite 0 0 0x4000002010 [151, 54, 69, 47, 243, 89, 169, 150, 90, 76, 166, 133, 70, 20, 172, 12]).1 else d) ∘ keyed (key0 (if ((4, .xtsEnc 0 1 .equal) : Nat × Instr).1 < 4 then 0 else 2) 3) ∘ ceRuns ((4, .xtsEnc 0 1 .equal) : Nat × Instr).1 16)).dev.item? 0 1).get (by decide +kernel) : Item).desc) (((if ((4, .xtsEnc 0 1 .equal) : Nat × Instr).1 ≤ 1 then aadLenOf (((on ((fun d => if ((4, .xtsEnc 0 1 .equal) : Nat × Instr).1 = 1 then (d.virtWrite 0 0 0x4000002010 [151, 54, 69, 47, 243, 89, 169, 150, 90, 76, 166, 133, 70, 20, 172, 12]).1 else d) ∘ keyed (key0 (if ((4, .xtsEnc 0 1 .equal) : Nat × Instr).1 < 4 then 0 else 2) 3) ∘ ceRuns ((4, .xtsEnc 0 1 .equal) : Nat × Instr).1 16)).dev.item? 0 1).get (by decide +kernel) : Item).desc else 0) : Nat) + lengthOf (((on ((fun d => if ((4, .xtsEnc 0 1 .equal) : Nat × Instr).1 = 1 then (d.virtWrite 0 0 0x4000002010 [151, 54, 69, 47, 243, 89, 169, 150, 90, 76, 166, 133, 70, 20, 172, 12]).1 else d) ∘ keyed (key0 (if ((4, .xtsEnc 0 1 .equal) : Nat × Instr).1 < 4 then 0 else 2) 3) ∘ ceRuns ((4, .xtsEnc 0 1 .equal) : Nat × Instr).1 16)).dev.item? 0 1).get (by decide +kernel) : Item).desc)).1, (if ((4, .xtsEnc 0 1 .equal) : Nat × Instr).1 = 0 ∨ ((4, .xtsEnc 0 1 .equal) : Nat × Instr).1 = 2 then ((((on ((fun d => if ((4, .xtsEnc 0 1 .equal) : Nat × Instr).1 = 1 then (d.virtWrite 0 0 0x4000002010 [151, 54, 69, 47, 243, 89, 169, 150, 90, 76, 166, 133, 70, 20, 172, 12]).1 else d) ∘ keyed (key0 (if ((4, .xtsEnc 0 1 .equal) : Nat × Instr).1 < 4 then 0 else 2) 3) ∘ ceRuns ((4, .xtsEnc 0 1 .equal) : Nat × Instr).1 16)).dev.virtRead (whoCe (0 : Nat)) ((on ((fun d => if ((4, .xtsEnc 0 1 .equal) : Nat × Instr).1 = 1 then (d.virtWrite 0 0 0x4000002010 [151, 54, 69, 47, 243, 89, 169, 150, 90, 76, 166, 133, 70, 20, 172, 12]).1 else d) ∘ keyed (key0 (if ((4, .xtsEnc 0 1 .equal) : Nat × Instr).1 < 4 then 0 else 2) 3) ∘ ceRuns ((4, .xtsEnc 0 1 .equal) : Nat × Instr).1 16)).dev.ringAsid (0 : RingNo).val) (srcOf (((on ((fun d => if ((4, .xtsEnc 0 1 .equal) : Nat × Instr).1 = 1 then (d.virtWrite 0 0 0x4000002010 [151, 54, 69, 47, 243, 89, 169, 150, 90, 76, 166, 133, 70, 20, 172, 12]).1 else d) ∘ keyed (key0 (if ((4, .xtsEnc 0 1 .equal) : Nat × Instr).1 < 4 then 0 else 2) 3) ∘ ceRuns ((4, .xtsEnc 0 1 .equal) : Nat × Instr).1 16)).dev.item? 0 1).get (by decide +kernel) : Item).desc) (((if ((4, .xtsEnc 0 1 .equal) : Nat × Instr).1 ≤ 1 then aadLenOf (((on ((fun d => if ((4, .xtsEnc 0 1 .equal) : Nat × Instr).1 = 1 then (d.virtWrite 0 0 0x4000002010 [151, 54, 69, 47, 243, 89, 169, 150, 90, 76, 166, 133, 70, 20, 172, 12]).1 else d) ∘ keyed (key0 (if ((4, .xtsEnc 0 1 .equal) : Nat × Instr).1 < 4 then 0 else 2) 3) ∘ ceRuns ((4, .xtsEnc 0 1 .equal) : Nat × Instr).1 16)).dev.item? 0 1).get (by decide +kernel) : Item).desc else 0) : Nat) + lengthOf (((on ((fun d => if ((4, .xtsEnc 0 1 .equal) : Nat × Instr).1 = 1 then (d.virtWrite 0 0 0x4000002010 [151, 54, 69, 47, 243, 89, 169, 150, 90, 76, 166, 133, 70, 20, 172, 12]).1 else d) ∘ keyed (key0 (if ((4, .xtsEnc 0 1 .equal) : Nat × Instr).1 < 4 then 0 else 2) 3) ∘ ceRuns ((4, .xtsEnc 0 1 .equal) : Nat × Instr).1 16)).dev.item? 0 1).get (by decide +kernel) : Item).desc)).1 : Dev), VRes.ok, []) else (((on ((fun d => if ((4, .xtsEnc 0 1 .equal) : Nat × Instr).1 = 1 then (d.virtWrite 0 0 0x4000002010 [151, 54, 69, 47, 243, 89, 169, 150, 90, 76, 166, 133, 70, 20, 172, 12]).1 else d) ∘ keyed (key0 (if ((4, .xtsEnc 0 1 .equal) : Nat × Instr).1 < 4 then 0 else 2) 3) ∘ ceRuns ((4, .xtsEnc 0 1 .equal) : Nat × Instr).1 16)).dev.virtRead (whoCe (0 : Nat)) ((on ((fun d => if ((4, .xtsEnc 0 1 .equal) : Nat × Instr).1 = 1 then (d.virtWrite 0 0 0x4000002010 [151, 54, 69, 47, 243, 89, 169, 150, 90, 76, 166, 133, 70, 20, 172, 12]).1 else d) ∘ keyed (key0 (if ((4, .xtsEnc 0 1 .equal) : Nat × Instr).1 < 4 then 0 else 2) 3) ∘ ceRuns ((4, .xtsEnc 0 1 .equal) : Nat × Instr).1 16)).dev.ringAsid (0 : RingNo).val) (srcOf (((on ((fun d => if ((4, .xtsEnc 0 1 .equal) : Nat × Instr).1 = 1 then (d.virtWrite 0 0 0x4000002010 [151, 54, 69, 47, 243, 89, 169, 150, 90, 76, 166, 133, 70, 20, 172, 12]).1 else d) ∘ keyed (key0 (if ((4, .xtsEnc 0 1 .equal) : Nat × Instr).1 < 4 then 0 else 2) 3) ∘ ceRuns ((4, .xtsEnc 0 1 .equal) : Nat × Instr).1 16)).dev.item? 0 1).get (by decide +kernel) : Item).desc) (((if ((4, .xtsEnc 0 1 .equal) : Nat × Instr).1 ≤ 1 then aadLenOf (((on ((fun d => if ((4, .xtsEnc 0 1 .equal) : Nat × Instr).1 = 1 then (d.virtWrite 0 0 0x4000002010 [151, 54, 69, 47, 243, 89, 169, 150, 90, 76, 166, 133, 70, 20, 172, 12]).1 else d) ∘ keyed (key0 (if ((4, .xtsEnc 0 1 .equal) : Nat × Instr).1 < 4 then 0 else 2) 3) ∘ ceRuns ((4, .xtsEnc 0 1 .equal) : Nat × Instr).1 16)).dev.item? 0 1).get (by decide +kernel) : Item).desc else 0) : Nat) + lengthOf (((on ((fun d => if ((4, .xtsEnc 0 1 .equal) : Nat × Instr).1 = 1 then (d.virtWrite 0 0 0x4000002010 [151, 54, 69, 47, 243, 89, 169, 150, 90, 76, 166, 133, 70, 20, 172, 12]).1 else d) ∘ keyed (key0 (if ((4, .xtsEnc 0 1 .equal) : Nat × Instr).1 < 4 then 0 else 2) 3) ∘ ceRuns ((4, .xtsEnc 0 1 .equal) : Nat × Instr).1 16)).dev.item? 0 1).get (by decide +kernel) : Item).desc)).1 : Dev).virtRead (whoCe (0 : Nat)) ((on ((fun d => if ((4, .xtsEnc 0 1 .equal) : Nat × Instr).1 = 1 then (d.virtWrite 0 0 0x4000002010 [151, 54, 69, 47, 243, 89, 169, 150, 90, 76, 166, 133, 70, 20, 172, 12]).1 else d) ∘ keyed (key0 (if ((4, .xtsEnc 0 1 .equal) : Nat × Instr).1 < 4 then 0 else 2) 3) ∘ ceRuns ((4, .xtsEnc 0 1 .equal) : Nat × Instr).1 16)).dev.ringAsid (0 : RingNo).val) (paramOf (((on ((fun d => if ((4, .xtsEnc 0 1 .equal) : Nat × Instr).1 = 1 then (d.virtWrite 0 0 0x4000002010 [151, 54, 69, 47, 243, 89, 169, 150, 90, 76, 166, 133, 70, 20, 172, 12]).1 else d) ∘ keyed (key0 (if ((4, .xtsEnc 0 1 .equal) : Nat × Instr).1 < 4 then 0 else 2) 3) ∘ ceRuns ((4, .xtsEnc 0 1 .equal) : Nat × Instr).1 16)).dev.item? 0 1).get (by decide +kernel) : Item).desc) 32).1, ((((if ((4, .xtsEnc 0 1 .equal) : Nat × Instr).1 = 0 ∨ ((4, .xtsEnc 0 1 .equal) : Nat × Instr).1 = 2 then ((((on ((fun d => if ((4, .xtsEnc 0 1 .equal) : Nat × Instr).1 = 1 then (d.virtWrite 0 0 0x4000002010 [151, 54, 69, 47, 243, 89, 169, 150, 90, 76, 166, 133, 70, 20, 172, 12]).1 else d) ∘ keyed (key0 (if ((4, .xtsEnc 0 1 .equal) : Nat × Instr).1 < 4 then 0 else 2) 3) ∘ ceRuns ((4, .xtsEnc 0 1 .equal) : Nat × Instr).1 16)).dev.virtRead (whoCe (0 : Nat)) ((on ((fun d => if ((4, .xtsEnc 0 1 .equal) : Nat × Instr).1 = 1 then (d.virtWrite 0 0 0x4000002010 [151, 54, 69, 47, 243, 89, 169, 150, 90, 76, 166, 133, 70, 20, 172, 12]).1 else d) ∘ keyed (key0 (if ((4, .xtsEnc 0 1 .equal) : Nat × Instr).1 < 4 then 0 else 2) 3) ∘ ceRuns ((4, .xtsEnc 0 1 .equal) : Nat × Instr).1 16)).dev.ringAsid (0 : RingNo).val) (srcOf (((on ((fun d => if ((4, .xtsEnc 0 1 .equal) : Nat × Instr).1 = 1 then (d.virtWrite 0 0 0x4000002010 [151, 54, 69, 47, 243, 89, 169, 150, 90, 76, 166, 133, 70, 20, 172, 12]).1 else d) ∘ keyed (key0 (if ((4, .xtsEnc 0 1 .equal) : Nat × Instr).1 < 4 then 0 else 2) 3) ∘ ceRuns ((4, .xtsEnc 0 1 .equal) : Nat × Instr).1 16)).dev.item? 0 1).get (by decide +kernel) : Item).desc) (((if ((4, .xtsEnc 0 1 .equal) : Nat × Instr).1 ≤ 1 then aadLenOf (((on ((fun d => if ((4, .xtsEnc 0 1 .equal) : Nat × Instr).1 = 1 then (d.virtWrite 0 0 0x4000002010 [151, 54, 69, 47, 243, 89, 169, 150, 90, 76, 166, 133, 70, 20, 172, 12]).1 else d) ∘ keyed (key0 (if ((4, .xtsEnc 0 1 .equal) : Nat × Instr).1 < 4 then 0 else 2) 3) ∘ ceRuns ((4, .xtsEnc 0 1 .equal) : Nat × Instr).1 16)).dev.item? 0 1).get (by decide +kernel) : Item).desc else 0) : Nat) + lengthOf (((on ((fun d => if ((4, .xtsEnc 0 1 .equal) : Nat × Instr).1 = 1 then (d.virtWrite 0 0 0x4000002010 [151, 54, 69, 47, 243, 89, 169, 150, 90, 76, 166, 133, 70, 20, 172, 12]).1 else d) ∘ keyed (key0 (if ((4, .xtsEnc 0 1 .equal) : Nat × Instr).1 < 4 then 0 else 2) 3) ∘ ceRuns ((4, .xtsEnc 0 1 .equal) : Nat × Instr).1 16)).dev.item? 0 1).get (by decide +kernel) : Item).desc)).1 : Dev), VRes.ok, []) else (((on ((fun d => if ((4, .xtsEnc 0 1 .equal) : Nat × Instr).1 = 1 then (d.virtWrite 0 0 0x4000002010 [151, 54, 69, 47, 243, 89, 169, 150, 90, 76, 166, 133, 70, 20, 172, 12]).1 else d) ∘ keyed (key0 (if ((4, .xtsEnc 0 1 .equal) : Nat × Instr).1 < 4 then 0 else 2) 3) ∘ ceRuns ((4, .xtsEnc 0 1 .equal) : Nat × Instr).1 16)).dev.virtRead (whoCe (0 : Nat)) ((on ((fun d => if ((4, .xtsEnc 0 1 .equal) : Nat × Instr).1 = 1 then (d.virtWrite 0 0 0x4000002010 [151, 54, 69, 47, 243, 89, 169, 150, 90, 76, 166, 133, 70, 20, 172, 12]).1 else d) ∘ keyed (key0 (if ((4, .xtsEnc 0 1 .equal) : Nat × Instr).1 < 4 then 0 else 2) 3) ∘ ceRuns ((4, .xtsEnc 0 1 .equal) : Nat × Instr).1 16)).dev.ringAsid (0 : RingNo).val) (srcOf (((on ((fun d => if ((4, .xtsEnc 0 1 .equal) : Nat × Instr).1 = 1 then (d.virtWrite 0 0 0x4000002010 [151, 54, 69, 47, 243, 89, 169, 150, 90, 76, 166, 133, 70, 20, 172, 12]).1 else d) ∘ keyed (key0 (if ((4, .xtsEnc 0 1 .equal) : Nat × Instr).1 < 4 then 0 else 2) 3) ∘ ceRuns ((4, .xtsEnc 0 1 .equal) : Nat × Instr).1 16)).dev.item? 0 1).get (by decide +kernel) : Item).desc) (((if ((4, .xtsEnc 0 1 .equal) : Nat × Instr).1 ≤ 1 then aadLenOf (((on ((fun d => if ((4, .xtsEnc 0 1 .equal) : Nat × Instr).1 = 1 then (d.virtWrite 0 0 0x4000002010 [151, 54, 69, 47, 243, 89, 169, 150, 90, 76, 166, 133, 70, 20, 172, 12]).1 else d) ∘ keyed (key0 (if ((4, .xtsEnc 0 1 .equal) : Nat × Instr).1 < 4 then 0 else 2) 3) ∘ ceRuns ((4, .xtsEnc 0 1 .equal) : Nat × Instr).1 16)).dev.item? 0 1).get (by decide +kernel) : Item).desc else 0) : Nat) + lengthOf (((on ((fun d => if ((4, .xtsEnc 0 1 .equal) : Nat × Instr).1 = 1 then (d.virtWrite 0 0 0x4000002010 [151, 54, 69, 47, 243, 89, 169, 150, 90, 76, 166, 133, 70, 20, 172, 12]).1 else d) ∘ keyed (key0 (if ((4, .xtsEnc 0 1 .equal) : Nat × Instr).1 < 4 then 0 else 2) 3) ∘ ceRuns ((4, .xtsEnc 0 1 .equal) : Nat × Instr).1 16)).dev.item? 0 1).get (by decide +kernel) : Item).desc)).1 : Dev).virtRead (whoCe (0 : Nat)) ((on ((fun d => if ((4, .xtsEnc 0 1 .equal) : Nat × Instr).1 = 1 then (d.virtWrite 0 0 0x4000002010 [151, 54, 69, 47, 243, 89, 169, 150, 90, 76, 166, 133, 70, 20, 172, 12]).1 else d) ∘ keyed (key0 (if ((4, .xtsEnc 0 1 .equal) : Nat × Instr).1 < 4 then 0 else 2) 3) ∘ ceRuns ((4, .xtsEnc 0 1 .equal) : Nat × Instr).1 16)).dev.ringAsid (0 : RingNo).val) (paramOf (((on ((fun d => if ((4, .xtsEnc 0 1 .equal) : Nat × Instr).1 = 1 then (d.virtWrite 0 0 0x4000002010 [151, 54, 69, 47, 243, 89, 169, 150, 90, 76, 166, 133, 70, 20, 172, 12]).1 else d) ∘ keyed (key0 (if ((4, .xtsEnc 0 1 .equal) : Nat × Instr).1 < 4 then 0 else 2) 3) ∘ ceRuns ((4, .xtsEnc 0 1 .equal) : Nat × Instr).1 16)).dev.item? 0 1).get (by decide +kernel) : Item).desc) 32).1 : Dev).drawn.ceBytes (0 : Nat) (((if ((4, .xtsEnc 0 1 .equal) : Nat × Instr).1 ≤ 1 then aadLenOf (((on ((fun d => if ((4, .xtsEnc 0 1 .equal) : Nat × Instr).1 = 1 then (d.virtWrite 0 0 0x4000002010 [151, 54, 69, 47, 243, 89, 169, 150, 90, 76, 166, 133, 70, 20, 172, 12]).1 else d) ∘ keyed (key0 (if ((4, .xtsEnc 0 1 .equal) : Nat × Instr).1 < 4 then 0 else 2) 3) ∘ ceRuns ((4, .xtsEnc 0 1 .equal) : Nat × Instr).1 16)).dev.item? 0 1).get (by decide +kernel) : Item).desc else 0) : Nat) + lengthOf (((on ((fun d => if ((4, .xtsEnc 0 1 .equal) : Nat × Instr).1 = 1 then (d.virtWrite 0 0 0x4000002010 [151, 54, 69, 47, 243, 89, 169, 150, 90, 76, 166, 133, 70, 20, 172, 12]).1 else d) ∘ keyed (key0 (if ((4, .xtsEnc 0 1 .equal) : Nat × Instr).1 < 4 then 0 else 2) 3) ∘ ceRuns ((4, .xtsEnc 0 1 .equal) : Nat × Instr).1 16)).dev.item? 0 1).get (by decide +kernel) : Item).desc)).virtWrite (whoCe (0 : Nat)) ((on ((fun d => if ((4, .xtsEnc 0 1 .equal) : Nat × Instr).1 = 1 then (d.virtWrite 0 0 0x4000002010 [151, 54, 69, 47, 243, 89, 169, 150, 90, 76, 166, 133, 70, 20, 172, 12]).1 else d) ∘ keyed (key0 (if ((4, .xtsEnc 0 1 .equal) : Nat × Instr).1 < 4 then 0 else 2) 3) ∘ ceRuns ((4, .xtsEnc 0 1 .equal) : Nat × Instr).1 16)).dev.ringAsid (0 : RingNo).val) (dstOf (((on ((fun d => if ((4, .xtsEnc 0 1 .equal) : Nat × Instr).1 = 1 then (d.virtWrite 0 0 0x4000002010 [151, 54, 69, 47, 243, 89, 169, 150, 90, 76, 166, 133, 70, 20, 172, 12]).1 else d) ∘ keyed (key0 (if ((4, .xtsEnc 0 1 .equal) : Nat × Instr).1 < 4 then 0 else 2) 3) ∘ ceRuns ((4, .xtsEnc 0 1 .equal) : Nat × Instr).1 16)).dev.item? 0 1).get (by decide +kernel) : Item).desc) (toBytes ((((if ((4, .xtsEnc 0 1 .equal) : Nat × Instr).1 = 0 ∨ ((4, .xtsEnc 0 1 .equal) : Nat × Instr).1 = 2 then ((((on ((fun d => if ((4, .xtsEnc 0 1 .equal) : Nat × Instr).1 = 1 then (d.virtWrite 0 0 0x4000002010 [151, 54, 69, 47, 243, 89, 169, 150, 90, 76, 166, 133, 70, 20, 172, 12]).1 else d) ∘ keyed (key0 (if ((4, .xtsEnc 0 1 .equal) : Nat × Instr).1 < 4 then 0 else 2) 3) ∘ ceRuns ((4, .xtsEnc 0 1 .equal) : Nat × Instr).1 16)).dev.virtRead (whoCe (0 : Nat)) ((on ((fun d => if ((4, .xtsEnc 0 1 .equal) : Nat × Instr).1 = 1 then (d.virtWrite 0 0 0x4000002010 [151, 54, 69, 47, 243, 89, 169, 150, 90, 76, 166, 133, 70, 20, 172, 12]).1 else d) ∘ keyed (key0 (if ((4, .xtsEnc 0 1 .equal) : Nat × Instr).1 < 4 then 0 else 2) 3) ∘ ceRuns ((4, .xtsEnc 0 1 .equal) : Nat × Instr).1 16)).dev.ringAsid (0 : RingNo).val) (srcOf (((on ((fun d => if ((4, .xtsEnc 0 1 .equal) : Nat × Instr).1 = 1 then (d.virtWrite 0 0 0x4000002010 [151, 54, 69, 47, 243, 89, 169, 150, 90, 76, 166, 133, 70, 20, 172, 12]).1 else d) ∘ keyed (key0 (if ((4, .xtsEnc 0 1 .equal) : Nat × Instr).1 < 4 then 0 else 2) 3) ∘ ceRuns ((4, .xtsEnc 0 1 .equal) : Nat × Instr).1 16)).dev.item? 0 1).get (by decide +kernel) : Item).desc) (((if ((4, .xtsEnc 0 1 .equal) : Nat × Instr).1 ≤ 1 then aadLenOf (((on ((fun d => if ((4, .xtsEnc 0 1 .equal) : Nat × Instr).1 = 1 then (d.virtWrite 0 0 0x4000002010 [151, 54, 69, 47, 243, 89, 169, 150, 90, 76, 166, 133, 70, 20, 172, 12]).1 else d) ∘ keyed (key0 (if ((4, .xtsEnc 0 1 .equal) : Nat × Instr).1 < 4 then 0 else 2) 3) ∘ ceRuns ((4, .xtsEnc 0 1 .equal) : Nat × Instr).1 16)).dev.item? 0 1).get (by decide +kernel) : Item).desc else 0) : Nat) + lengthOf (((on ((fun d => if ((4, .xtsEnc 0 1 .equal) : Nat × Instr).1 = 1 then (d.virtWrite 0 0 0x4000002010 [151, 54, 69, 47, 243, 89, 169, 150, 90, 76, 166, 133, 70, 20, 172, 12]).1 else d) ∘ keyed (key0 (if ((4, .xtsEnc 0 1 .equal) : Nat × Instr).1 < 4 then 0 else 2) 3) ∘ ceRuns ((4, .xtsEnc 0 1 .equal) : Nat × Instr).1 16)).dev.item? 0 1).get (by decide +kernel) : Item).desc)).1 : Dev), VRes.ok, []) else (((on ((fun d => if ((4, .xtsEnc 0 1 .equal) : Nat × Instr).1 = 1 then (d.virtWrite 0 0 0x4000002010 [151, 54, 69, 47, 243, 89, 169, 150, 90, 76, 166, 133, 70, 20, 172, 12]).1 else d) ∘ keyed (key0 (if ((4, .xtsEnc 0 1 .equal) : Nat × Instr).1 < 4 then 0 else 2) 3) ∘ ceRuns ((4, .xtsEnc 0 1 .equal) : Nat × Instr).1 16)).dev.virtRead (whoCe (0 : Nat)) ((on ((fun d => if ((4, .xtsEnc 0 1 .equal) : Nat × Instr).1 = 1 then (d.virtWrite 0 0 0x4000002010 [151, 54, 69, 47, 243, 89, 169, 150, 90, 76, 166, 133, 70, 20, 172, 12]).1 else d) ∘ keyed (key0 (if ((4, .xtsEnc 0 1 .equal) : Nat × Instr).1 < 4 then 0 else 2) 3) ∘ ceRuns ((4, .xtsEnc 0 1 .equal) : Nat × Instr).1 16)).dev.ringAsid (0 : RingNo).val) (srcOf (((on ((fun d => if ((4, .xtsEnc 0 1 .equal) : Nat × Instr).1 = 1 then (d.virtWrite 0 0 0x4000002010 [151, 54, 69, 47, 243, 89, 169, 150, 90, 76, 166, 133, 70, 20, 172, 12]).1 else d) ∘ keyed (key0 (if ((4, .xtsEnc 0 1 .equal) : Nat × Instr).1 < 4 then 0 else 2) 3) ∘ ceRuns ((4, .xtsEnc 0 1 .equal) : Nat × Instr).1 16)).dev.item? 0 1).get (by decide +kernel) : Item).desc) (((if ((4, .xtsEnc 0 1 .equal) : Nat × Instr).1 ≤ 1 then aadLenOf (((on ((fun d => if ((4, .xtsEnc 0 1 .equal) : Nat × Instr).1 = 1 then (d.virtWrite 0 0 0x4000002010 [151, 54, 69, 47, 243, 89, 169, 150, 90, 76, 166, 133, 70, 20, 172, 12]).1 else d) ∘ keyed (key0 (if ((4, .xtsEnc 0 1 .equal) : Nat × Instr).1 < 4 then 0 else 2) 3) ∘ ceRuns ((4, .xtsEnc 0 1 .equal) : Nat × Instr).1 16)).dev.item? 0 1).get (by decide +kernel) : Item).desc else 0) : Nat) + lengthOf (((on ((fun d => if ((4, .xtsEnc 0 1 .equal) : Nat × Instr).1 = 1 then (d.virtWrite 0 0 0x4000002010 [151, 54, 69, 47, 243, 89, 169, 150, 90, 76, 166, 133, 70, 20, 172, 12]).1 else d) ∘ keyed (key0 (if ((4, .xtsEnc 0 1 .equal) : Nat × Instr).1 < 4 then 0 else 2) 3) ∘ ceRuns ((4, .xtsEnc 0 1 .equal) : Nat × Instr).1 16)).dev.item? 0 1).get (by decide +kernel) : Item).desc)).1 : Dev).virtRead (whoCe (0 : Nat)) ((on ((fun d => if ((4, .xtsEnc 0 1 .equal) : Nat × Instr).1 = 1 then (d.virtWrite 0 0 0x4000002010 [151, 54, 69, 47, 243, 89, 169, 150, 90, 76, 166, 133, 70, 20, 172, 12]).1 else d) ∘ keyed (key0 (if ((4, .xtsEnc 0 1 .equal) : Nat × Instr).1 < 4 then 0 else 2) 3) ∘ ceRuns ((4, .xtsEnc 0 1 .equal) : Nat × Instr).1 16)).dev.ringAsid (0 : RingNo).val) (paramOf (((on ((fun d => if ((4, .xtsEnc 0 1 .equal) : Nat × Instr).1 = 1 then (d.virtWrite 0 0 0x4000002010 [151, 54, 69, 47, 243, 89, 169, 150, 90, 76, 166, 133, 70, 20, 172, 12]).1 else d) ∘ keyed (key0 (if ((4, .xtsEnc 0 1 .equal) : Nat × Instr).1 < 4 then 0 else 2) 3) ∘ ceRuns ((4, .xtsEnc 0 1 .equal) : Nat × Instr).1 16)).dev.item? 0 1).get (by decide +kernel) : Item).desc) 32).1 : Dev).ceCompute (((on ((fun d => if ((4, .xtsEnc 0 1 .equal) : Nat × Instr).1 = 1 then (d.virtWrite 0 0 0x4000002010 [151, 54, 69, 47, 243, 89, 169, 150, 90, 76, 166, 133, 70, 20, 172, 12]).1 else d) ∘ keyed (key0 (if ((4, .xtsEnc 0 1 .equal) : Nat × Instr).1 < 4 then 0 else 2) 3) ∘ ceRuns ((4, .xtsEnc 0 1 .equal) : Nat × Instr).1 16)).dev.item? 0 1).get (by decide +kernel) : Item) ((ofBytes (((on ((fun d => if ((4, .xtsEnc 0 1 .equal) : Nat × Instr).1 = 1 then (d.virtWrite 0 0 0x4000002010 [151, 54, 69, 47, 243, 89, 169, 150, 90, 76, 166, 133, 70, 20, 172, 12]).1 else d) ∘ keyed (key0 (if ((4, .xtsEnc 0 1 .equal) : Nat × Instr).1 < 4 then 0 else 2) 3) ∘ ceRuns ((4, .xtsEnc 0 1 .equal) : Nat × Instr).1 16)).dev.virtRead (whoCe (0 : Nat)) ((on ((fun d => if ((4, .xtsEnc 0 1 .equal) : Nat × Instr).1 = 1 then (d.virtWrite 0 0 0x4000002010 [151, 54, 69, 47, 243, 89, 169, 150, 90, 76, 166, 133, 70, 20, 172, 12]).1 else d) ∘ keyed (key0 (if ((4, .xtsEnc 0 1 .equal) : Nat × Instr).1 < 4 then 0 else 2) 3) ∘ ceRuns ((4, .xtsEnc 0 1 .equal) : Nat × Instr).1 16)).dev.ringAsid (0 : RingNo).val) (srcOf (((on ((fun d => if ((4, .xtsEnc 0 1 .equal) : Nat × Instr).1 = 1 then (d.virtWrite 0 0 0x4000002010 [151, 54, 69, 47, 243, 89, 169, 150, 90, 76, 166, 133, 70, 20, 172, 12]).1 else d) ∘ keyed (key0 (if ((4, .xtsEnc 0 1 .equal) : Nat × Instr).1 < 4 then 0 else 2) 3) ∘ ceRuns ((4, .xtsEnc 0 1 .equal) : Nat × Instr).1 16)).dev.item? 0 1).get (by decide +kernel) : Item).desc) (((if ((4, .xtsEnc 0 1 .equal) : Nat × Instr).1 ≤ 1 then aadLenOf (((on ((fun d => if ((4, .xtsEnc 0 1 .equal) : Nat × Instr).1 = 1 then (d.virtWrite 0 0 0x4000002010 [151, 54, 69, 47, 243, 89, 169, 150, 90, 76, 166, 133, 70, 20, 172, 12]).1 else d) ∘ keyed (key0 (if ((4, .xtsEnc 0 1 .equal) : Nat × Instr).1 < 4 then 0 else 2) 3) ∘ ceRuns ((4, .xtsEnc 0 1 .equal) : Nat × Instr).1 16)).dev.item? 0 1).get (by decide +kernel) : Item).desc else 0) : Nat) + lengthOf (((on ((fun d => if ((4, .xtsEnc 0 1 .equal) : Nat × Instr).1 = 1 then (d.virtWrite 0 0 0x4000002010 [151, 54, 69, 47, 243, 89, 169, 150, 90, 76, 166, 133, 70, 20, 172, 12]).1 else d) ∘ keyed (key0 (if ((4, .xtsEnc 0 1 .equal) : Nat × Instr).1 < 4 then 0 else 2) 3) ∘ ceRuns ((4, .xtsEnc 0 1 .equal) : Nat × Instr).1 16)).dev.item? 0 1).get (by decide +kernel) : Item).desc)).2.2 : List Byte)).take ((if ((4, .xtsEnc 0 1 .equal) : Nat × Instr).1 ≤ 1 then aadLenOf (((on ((fun d => if ((4, .xtsEnc 0 1 .equal) : Nat × Instr).1 = 1 then (d.virtWrite 0 0 0x4000002010 [151, 54, 69, 47, 243, 89, 169, 150, 90, 76, 166, 133, 70, 20, 172, 12]).1 else d) ∘ keyed (key0 (if ((4, .xtsEnc 0 1 .equal) : Nat × Instr).1 < 4 then 0 else 2) 3) ∘ ceRuns ((4, .xtsEnc 0 1 .equal) : Nat × Instr).1 16)).dev.item? 0 1).get (by decide +kernel) : Item).desc else 0) : Nat)) ((ofBytes (((on ((fun d => if ((4, .xtsEnc 0 1 .equal) : Nat × Instr).1 = 1 then (d.virtWrite 0 0 0x4000002010 [151, 54, 69, 47, 243, 89, 169, 150, 90, 76, 166, 133, 70, 20, 172, 12]).1 else d) ∘ keyed (key0 (if ((4, .xtsEnc 0 1 .equal) : Nat × Instr).1 < 4 then 0 else 2) 3) ∘ ceRuns ((4, .xtsEnc 0 1 .equal) : Nat × Instr).1 16)).dev.virtRead (whoCe (0 : Nat)) ((on ((fun d => if ((4, .xtsEnc 0 1 .equal) : Nat × Instr).1 = 1 then (d.virtWrite 0 0 0x4000002010 [151, 54, 69, 47, 243, 89, 169, 150, 90, 76, 166, 133, 70, 20, 172, 12]).1 else d) ∘ keyed (key0 (if ((4, .xtsEnc 0 1 .equal) : Nat × Instr).1 < 4 then 0 else 2) 3) ∘ ceRuns ((4, .xtsEnc 0 1 .equal) : Nat × Instr).1 16)).dev.ringAsid (0 : RingNo).val) (srcOf (((on ((fun d => if ((4, .xtsEnc 0 1 .equal) : Nat × Instr).1 = 1 then (d.virtWrite 0 0 0x4000002010 [151, 54, 69, 47, 243, 89, 169, 150, 90, 76, 166, 133, 70, 20, 172, 12]).1 else d) ∘ keyed (key0 (if ((4, .xtsEnc 0 1 .equal) : Nat × Instr).1 < 4 then 0 else 2) 3) ∘ ceRuns ((4, .xtsEnc 0 1 .equal) : Nat × Instr).1 16)).dev.item? 0 1).get (by decide +kernel) : Item).desc) (((if ((4, .xtsEnc 0 1 .equal) : Nat × Instr).1 ≤ 1 then aadLenOf (((on ((fun d => if ((4, .xtsEnc 0 1 .equal) : Nat × Instr).1 = 1 then (d.virtWrite 0 0 0x4000002010 [151, 54, 69, 47, 243, 89, 169, 150, 90, 76, 166, 133, 70, 20, 172, 12]).1 else d) ∘ keyed (key0 (if ((4, .xtsEnc 0 1 .equal) : Nat × Instr).1 < 4 then 0 else 2) 3) ∘ ceRuns ((4, .xtsEnc 0 1 .equal) : Nat × Instr).1 16)).dev.item? 0 1).get (by decide +kernel) : Item).desc else 0) : Nat) + lengthOf (((on ((fun d => if ((4, .xtsEnc 0 1 .equal) : Nat × Instr).1 = 1 then (d.virtWrite 0 0 0x4000002010 [151, 54, 69, 47, 243, 89, 169, 150, 90, 76, 166, 133, 70, 20, 172, 12]).1 else d) ∘ keyed (key0 (if ((4, .xtsEnc 0 1 .equal) : Nat × Instr).1 < 4 then 0 else 2) 3) ∘ ceRuns ((4, .xtsEnc 0 1 .equal) : Nat × Instr).1 16)).dev.item? 0 1).get (by decide +kernel) : Item).desc)).2.2 : List Byte)).drop ((if ((4, .xtsEnc 0 1 .equal) : Nat × Instr).1 ≤ 1 then aadLenOf (((on ((fun d => if ((4, .xtsEnc 0 1 .equal) : Nat × Instr).1 = 1 then (d.virtWrite 0 0 0x4000002010 [151, 54, 69, 47, 243, 89, 169, 150, 90, 76, 166, 133, 70, 20, 172, 12]).1 else d) ∘ keyed (key0 (if ((4, .xtsEnc 0 1 .equal) : Nat × Instr).1 < 4 then 0 else 2) 3) ∘ ceRuns ((4, .xtsEnc 0 1 .equal) : Nat × Instr).1 16)).dev.item? 0 1).get (by decide +kernel) : Item).desc else 0) : Nat)) (ofBytes ((if ((4, .xtsEnc 0 1 .equal) : Nat × Instr).1 = 0 ∨ ((4, .xtsEnc 0 1 .equal) : Nat × Instr).1 = 2 then ((((on ((fun d => if ((4, .xtsEnc 0 1 .equal) : Nat × Instr).1 = 1 then (d.virtWrite 0 0 0x4000002010 [151, 54, 69, 47, 243, 89, 169, 150, 90, 76, 166, 133, 70, 20, 172, 12]).1 else d) ∘ keyed (key0 (if ((4, .xtsEnc 0 1 .equal) : Nat × Instr).1 < 4 then 0 else 2) 3) ∘ ceRuns ((4, .xtsEnc 0 1 .equal) : Nat × Instr).1 16)).dev.virtRead (whoCe (0 : Nat)) ((on ((fun d => if ((4, .xtsEnc 0 1 .equal) : Nat × Instr).1 = 1 then (d.virtWrite 0 0 0x4000002010 [151, 54, 69, 47, 243, 89, 169, 150, 90, 76, 166, 133, 70, 20, 172, 12]).1 else d) ∘ keyed (key0 (if ((4, .xtsEnc 0 1 .equal) : Nat × Instr).1 < 4 then 0 else 2) 3) ∘ ceRuns ((4, .xtsEnc 0 1 .equal) : Nat × Instr).1 16)).dev.ringAsid (0 : RingNo).val) (srcOf (((on ((fun d => if ((4, .xtsEnc 0 1 .equal) : Nat × Instr).1 = 1 then (d.virtWrite 0 0 0x4000002010 [151, 54, 69, 47, 243, 89, 169, 150, 90, 76, 166, 133, 70, 20, 172, 12]).1 else d) ∘ keyed (key0 (if ((4, .xtsEnc 0 1 .equal) : Nat × Instr).1 < 4 then 0 else 2) 3) ∘ ceRuns ((4, .xtsEnc 0 1 .equal) : Nat × Instr).1 16)).dev.item? 0 1).get (by decide +kernel) : Item).desc) (((if ((4, .xtsEnc 0 1 .equal) : Nat × Instr).1 ≤ 1 then aadLenOf (((on ((fun d => if ((4, .xtsEnc 0 1 .equal) : Nat × Instr).1 = 1 then (d.virtWrite 0 0 0x4000002010 [151, 54, 69, 47, 243, 89, 169, 150, 90, 76, 166, 133, 70, 20, 172, 12]).1 else d) ∘ keyed (key0 (if ((4, .xtsEnc 0 1 .equal) : Nat × Instr).1 < 4 then 0 else 2) 3) ∘ ceRuns ((4, .xtsEnc 0 1 .equal) : Nat × Instr).1 16)).dev.item? 0 1).get (by decide +kernel) : Item).desc else 0) : Nat) + lengthOf (((on ((fun d => if ((4, .xtsEnc 0 1 .equal) : Nat × Instr).1 = 1 then (d.virtWrite 0 0 0x4000002010 [151, 54, 69, 47, 243, 89, 169, 150, 90, 76, 166, 133, 70, 20, 172, 12]).1 else d) ∘ keyed (key0 (if ((4, .xtsEnc 0 1 .equal) : Nat × Instr).1 < 4 then 0 else 2) 3) ∘ ceRuns ((4, .xtsEnc 0 1 .equal) : Nat × Instr).1 16)).dev.item? 0 1).get (by decide +kernel) : Item).desc)).1 : Dev), VRes.ok, []) else (((on ((fun d => if ((4, .xtsEnc 0 1 .equal) : Nat × Instr).1 = 1 then (d.virtWrite 0 0 0x4000002010 [151, 54, 69, 47, 243, 89, 169, 150, 90, 76, 166, 133, 70, 20, 172, 12]).1 else d) ∘ keyed (key0 (if ((4, .xtsEnc 0 1 .equal) : Nat × Instr).1 < 4 then 0 else 2) 3) ∘ ceRuns ((4, .xtsEnc 0 1 .equal) : Nat × Instr).1 16)).dev.virtRead (whoCe (0 : Nat)) ((on ((fun d => if ((4, .xtsEnc 0 1 .equal) : Nat × Instr).1 = 1 then (d.virtWrite 0 0 0x4000002010 [151, 54, 69, 47, 243, 89, 169, 150, 90, 76, 166, 133, 70, 20, 172, 12]).1 else d) ∘ keyed (key0 (if ((4, .xtsEnc 0 1 .equal) : Nat × Instr).1 < 4 then 0 else 2) 3) ∘ ceRuns ((4, .xtsEnc 0 1 .equal) : Nat × Instr).1 16)).dev.ringAsid (0 : RingNo).val) (srcOf (((on ((fun d => if ((4, .xtsEnc 0 1 .equal) : Nat × Instr).1 = 1 then (d.virtWrite 0 0 0x4000002010 [151, 54, 69, 47, 243, 89, 169, 150, 90, 76, 166, 133, 70, 20, 172, 12]).1 else d) ∘ keyed (key0 (if ((4, .xtsEnc 0 1 .equal) : Nat × Instr).1 < 4 then 0 else 2) 3) ∘ ceRuns ((4, .xtsEnc 0 1 .equal) : Nat × Instr).1 16)).dev.item? 0 1).get (by decide +kernel) : Item).desc) (((if ((4, .xtsEnc 0 1 .equal) : Nat × Instr).1 ≤ 1 then aadLenOf (((on ((fun d => if ((4, .xtsEnc 0 1 .equal) : Nat × Instr).1 = 1 then (d.virtWrite 0 0 0x4000002010 [151, 54, 69, 47, 243, 89, 169, 150, 90, 76, 166, 133, 70, 20, 172, 12]).1 else d) ∘ keyed (key0 (if ((4, .xtsEnc 0 1 .equal) : Nat × Instr).1 < 4 then 0 else 2) 3) ∘ ceRuns ((4, .xtsEnc 0 1 .equal) : Nat × Instr).1 16)).dev.item? 0 1).get (by decide +kernel) : Item).desc else 0) : Nat) + lengthOf (((on ((fun d => if ((4, .xtsEnc 0 1 .equal) : Nat × Instr).1 = 1 then (d.virtWrite 0 0 0x4000002010 [151, 54, 69, 47, 243, 89, 169, 150, 90, 76, 166, 133, 70, 20, 172, 12]).1 else d) ∘ keyed (key0 (if ((4, .xtsEnc 0 1 .equal) : Nat × Instr).1 < 4 then 0 else 2) 3) ∘ ceRuns ((4, .xtsEnc 0 1 .equal) : Nat × Instr).1 16)).dev.item? 0 1).get (by decide +kernel) : Item).desc)).1 : Dev).virtRead (whoCe (0 : Nat)) ((on ((fun d => if ((4, .xtsEnc 0 1 .equal) : Nat × Instr).1 = 1 then (d.virtWrite 0 0 0x4000002010 [151, 54, 69, 47, 243, 89, 169, 150, 90, 76, 166, 133, 70, 20, 172, 12]).1 else d) ∘ keyed (key0 (if ((4, .xtsEnc 0 1 .equal) : Nat × Instr).1 < 4 then 0 else 2) 3) ∘ ceRuns ((4, .xtsEnc 0 1 .equal) : Nat × Instr).1 16)).dev.ringAsid (0 : RingNo).val) (paramOf (((on ((fun d => if ((4, .xtsEnc 0 1 .equal) : Nat × Instr).1 = 1 then (d.virtWrite 0 0 0x4000002010 [151, 54, 69, 47, 243, 89, 169, 150, 90, 76, 166, 133, 70, 20, 172, 12]).1 else d) ∘ keyed (key0 (if ((4, .xtsEnc 0 1 .equal) : Nat × Instr).1 < 4 then 0 else 2) 3) ∘ ceRuns ((4, .xtsEnc 0 1 .equal) : Nat × Instr).1 16)).dev.item? 0 1).get (by decide +kernel) : Item).desc) 32).2.2 : List Byte))).1 : List Nat))).1, ((((((if ((4, .xtsEnc 0 1 .equal) : Nat × Instr).1 = 0 ∨ ((4, .xtsEnc 0 1 .equal) : Nat × Instr).1 = 2 then ((((on ((fun d => if ((4, .xtsEnc 0 1 .equal) : Nat × Instr).1 = 1 then (d.virtWrite 0 0 0x4000002010 [151, 54, 69, 47, 243, 89, 169, 150, 90, 76, 166, 133, 70, 20, 172, 12]).1 else d) ∘ keyed (key0 (if ((4, .xtsEnc 0 1 .equal) : Nat × Instr).1 < 4 then 0 else 2) 3) ∘ ceRuns ((4, .xtsEnc 0 1 .equal) : Nat × Instr).1 16)).dev.virtRead (whoCe (0 : Nat)) ((on ((fun d => if ((4, .xtsEnc 0 1 .equal) : Nat × Instr).1 = 1 then (d.virtWrite 0 0 0x4000002010 [151, 54, 69, 47, 243, 89, 169, 150, 90, 76, 166, 133, 70, 20, 172, 12]).1 else d) ∘ keyed (key0 (if ((4, .xtsEnc 0 1 .equal) : Nat × Instr).1 < 4 then 0 else 2) 3) ∘ ceRuns ((4, .xtsEnc 0 1 .equal) : Nat × Instr).1 16)).dev.ringAsid (0 : RingNo).val) (srcOf (((on ((fun d => if ((4, .xtsEnc 0 1 .equal) : Nat × Instr).1 = 1 then (d.virtWrite 0 0 0x4000002010 [151, 54, 69, 47, 243, 89, 169, 150, 90, 76, 166, 133, 70, 20, 172, 12]).1 else d) ∘ keyed (key0 (if ((4, .xtsEnc 0 1 .equal) : Nat × Instr).1 < 4 then 0 else 2) 3) ∘ ceRuns ((4, .xtsEnc 0 1 .equal) : Nat × Instr).1 16)).dev.item? 0 1).get (by decide +kernel) : Item).desc) (((if ((4, .xtsEnc 0 1 .equal) : Nat × Instr).1 ≤ 1 then aadLenOf (((on ((fun d => if ((4, .xtsEnc 0 1 .equal) : Nat × Instr).1 = 1 then (d.virtWrite 0 0 0x4000002010 [151, 54, 69, 47, 243, 89, 169, 150, 90, 76, 166, 133, 70, 20, 172, 12]).1 else d) ∘ keyed (key0 (if ((4, .xtsEnc 0 1 .equal) : Nat × Instr).1 < 4 then 0 else 2) 3) ∘ ceRuns ((4, .xtsEnc 0 1 .equal) : Nat × Instr).1 16)).dev.item? 0 1).get (by decide +kernel) : Item).desc else 0) : Nat) + lengthOf (((on ((fun d => if ((4, .xtsEnc 0 1 .equal) : Nat × Instr).1 = 1 then (d.virtWrite 0 0 0x4000002010 [151, 54, 69, 47, 243, 89, 169, 150, 90, 76, 166, 133, 70, 20, 172, 12]).1 else d) ∘ keyed (key0 (if ((4, .xtsEnc 0 1 .equal) : Nat × Instr).1 < 4 then 0 else 2) 3) ∘ ceRuns ((4, .xtsEnc 0 1 .equal) : Nat × Instr).1 16)).dev.item? 0 1).get (by decide +kernel) : Item).desc)).1 : Dev), VRes.ok, []) else (((on ((fun d => if ((4, .xtsEnc 0 1 .equal) : Nat × Instr).1 = 1 then (d.virtWrite 0 0 0x4000002010 [151, 54, 69, 47, 243, 89, 169, 150, 90, 76, 166, 133, 70, 20, 172, 12]).1 else d) ∘ keyed (key0 (if ((4, .xtsEnc 0 1 .equal) : Nat × Instr).1 < 4 then 0 else 2) 3) ∘ ceRuns ((4, .xtsEnc 0 1 .equal) : Nat × Instr).1 16)).dev.virtRead (whoCe (0 : Nat)) ((on ((fun d => if ((4, .xtsEnc 0 1 .equal) : Nat × Instr).1 = 1 then (d.virtWrite 0 0 0x4000002010 [151, 54, 69, 47, 243, 89, 169, 150, 90, 76, 166, 133, 70, 20, 172, 12]).1 else d) ∘ keyed (key0 (if ((4, .xtsEnc 0 1 .equal) : Nat × Instr).1 < 4 then 0 else 2) 3) ∘ ceRuns ((4, .xtsEnc 0 1 .equal) : Nat × Instr).1 16)).dev.ringAsid (0 : RingNo).val) (srcOf (((on ((fun d => if ((4, .xtsEnc 0 1 .equal) : Nat × Instr).1 = 1 then (d.virtWrite 0 0 0x4000002010 [151, 54, 69, 47, 243, 89, 169, 150, 90, 76, 166, 133, 70, 20, 172, 12]).1 else d) ∘ keyed (key0 (if ((4, .xtsEnc 0 1 .equal) : Nat × Instr).1 < 4 then 0 else 2) 3) ∘ ceRuns ((4, .xtsEnc 0 1 .equal) : Nat × Instr).1 16)).dev.item? 0 1).get (by decide +kernel) : Item).desc) (((if ((4, .xtsEnc 0 1 .equal) : Nat × Instr).1 ≤ 1 then aadLenOf (((on ((fun d => if ((4, .xtsEnc 0 1 .equal) : Nat × Instr).1 = 1 then (d.virtWrite 0 0 0x4000002010 [151, 54, 69, 47, 243, 89, 169, 150, 90, 76, 166, 133, 70, 20, 172, 12]).1 else d) ∘ keyed (key0 (if ((4, .xtsEnc 0 1 .equal) : Nat × Instr).1 < 4 then 0 else 2) 3) ∘ ceRuns ((4, .xtsEnc 0 1 .equal) : Nat × Instr).1 16)).dev.item? 0 1).get (by decide +kernel) : Item).desc else 0) : Nat) + lengthOf (((on ((fun d => if ((4, .xtsEnc 0 1 .equal) : Nat × Instr).1 = 1 then (d.virtWrite 0 0 0x4000002010 [151, 54, 69, 47, 243, 89, 169, 150, 90, 76, 166, 133, 70, 20, 172, 12]).1 else d) ∘ keyed (key0 (if ((4, .xtsEnc 0 1 .equal) : Nat × Instr).1 < 4 then 0 else 2) 3) ∘ ceRuns ((4, .xtsEnc 0 1 .equal) : Nat × Instr).1 16)).dev.item? 0 1).get (by decide +kernel) : Item).desc)).1 : Dev).virtRead (whoCe (0 : Nat)) ((on ((fun d => if ((4, .xtsEnc 0 1 .equal) : Nat × Instr).1 = 1 then (d.virtWrite 0 0 0x4000002010 [151, 54, 69, 47, 243, 89, 169, 150, 90, 76, 166, 133, 70, 20, 172, 12]).1 else d) ∘ keyed (key0 (if ((4, .xtsEnc 0 1 .equal) : Nat × Instr).1 < 4 then 0 else 2) 3) ∘ ceRuns ((4, .xtsEnc 0 1 .equal) : Nat × Instr).1 16)).dev.ringAsid (0 : RingNo).val) (paramOf (((on ((fun d => if ((4, .xtsEnc 0 1 .equal) : Nat × Instr).1 = 1 then (d.virtWrite 0 0 0x4000002010 [151, 54, 69, 47, 243, 89, 169, 150, 90, 76, 166, 133, 70, 20, 172, 12]).1 else d) ∘ keyed (key0 (if ((4, .xtsEnc 0 1 .equal) : Nat × Instr).1 < 4 then 0 else 2) 3) ∘ ceRuns ((4, .xtsEnc 0 1 .equal) : Nat × Instr).1 16)).dev.item? 0 1).get (by decide +kernel) : Item).desc) 32).1 : Dev).drawn.ceBytes (0 : Nat) (((if ((4, .xtsEnc 0 1 .equal) : Nat × Instr).1 ≤ 1 then aadLenOf (((on ((fun d => if ((4, .xtsEnc 0 1 .equal) : Nat × Instr).1 = 1 then (d.virtWrite 0 0 0x4000002010 [151, 54, 69, 47, 243, 89, 169, 150, 90, 76, 166, 133, 70, 20, 172, 12]).1 else d) ∘ keyed (key0 (if ((4, .xtsEnc 0 1 .equal) : Nat × Instr).1 < 4 then 0 else 2) 3) ∘ ceRuns ((4, .xtsEnc 0 1 .equal) : Nat × Instr).1 16)).dev.item? 0 1).get (by decide +kernel) : Item).desc else 0) : Nat) + lengthOf (((on ((fun d => if ((4, .xtsEnc 0 1 .equal) : Nat × Instr).1 = 1 then (d.virtWrite 0 0 0x4000002010 [151, 54, 69, 47, 243, 89, 169, 150, 90, 76, 166, 133, 70, 20, 172, 12]).1 else d) ∘ keyed (key0 (if ((4, .xtsEnc 0 1 .equal) : Nat × Instr).1 < 4 then 0 else 2) 3) ∘ ceRuns ((4, .xtsEnc 0 1 .equal) : Nat × Instr).1 16)).dev.item? 0 1).get (by decide +kernel) : Item).desc)).virtWrite (whoCe (0 : Nat)) ((on ((fun d => if ((4, .xtsEnc 0 1 .equal) : Nat × Instr).1 = 1 then (d.virtWrite 0 0 0x4000002010 [151, 54, 69, 47, 243, 89, 169, 150, 90, 76, 166, 133, 70, 20, 172, 12]).1 else d) ∘ keyed (key0 (if ((4, .xtsEnc 0 1 .equal) : Nat × Instr).1 < 4 then 0 else 2) 3) ∘ ceRuns ((4, .xtsEnc 0 1 .equal) : Nat × Instr).1 16)).dev.ringAsid (0 : RingNo).val) (dstOf (((on ((fun d => if ((4, .xtsEnc 0 1 .equal) : Nat × Instr).1 = 1 then (d.virtWrite 0 0 0x4000002010 [151, 54, 69, 47, 243, 89, 169, 150, 90, 76, 166, 133, 70, 20, 172, 12]).1 else d) ∘ keyed (key0 (if ((4, .xtsEnc 0 1 .equal) : Nat × Instr).1 < 4 then 0 else 2) 3) ∘ ceRuns ((4, .xtsEnc 0 1 .equal) : Nat × Instr).1 16)).dev.item? 0 1).get (by decide +kernel) : Item).desc) (toBytes ((((if ((4, .xtsEnc 0 1 .equal) : Nat × Instr).1 = 0 ∨ ((4, .xtsEnc 0 1 .equal) : Nat × Instr).1 = 2 then ((((on ((fun d => if ((4, .xtsEnc 0 1 .equal) : Nat × Instr).1 = 1 then (d.virtWrite 0 0 0x4000002010 [151, 54, 69, 47, 243, 89, 169, 150, 90, 76, 166, 133, 70, 20, 172, 12]).1 else d) ∘ keyed (key0 (if ((4, .xtsEnc 0 1 .equal) : Nat × Instr).1 < 4 then 0 else 2) 3) ∘ ceRuns ((4, .xtsEnc 0 1 .equal) : Nat × Instr).1 16)).dev.virtRead (whoCe (0 : Nat)) ((on ((fun d => if ((4, .xtsEnc 0 1 .equal) : Nat × Instr).1 = 1 then (d.virtWrite 0 0 0x4000002010 [151, 54, 69, 47, 243, 89, 169, 150, 90, 76, 166, 133, 70, 20, 172, 12]).1 else d) ∘ keyed (key0 (if ((4, .xtsEnc 0 1 .equal) : Nat × Instr).1 < 4 then 0 else 2) 3) ∘ ceRuns ((4, .xtsEnc 0 1 .equal) : Nat × Instr).1 16)).dev.ringAsid (0 : RingNo).val) (srcOf (((on ((fun d => if ((4, .xtsEnc 0 1 .equal) : Nat × Instr).1 = 1 then (d.virtWrite 0 0 0x4000002010 [151, 54, 69, 47, 243, 89, 169, 150, 90, 76, 166, 133, 70, 20, 172, 12]).1 else d) ∘ keyed (key0 (if ((4, .xtsEnc 0 1 .equal) : Nat × Instr).1 < 4 then 0 else 2) 3) ∘ ceRuns ((4, .xtsEnc 0 1 .equal) : Nat × Instr).1 16)).dev.item? 0 1).get (by decide +kernel) : Item).desc) (((if ((4, .xtsEnc 0 1 .equal) : Nat × Instr).1 ≤ 1 then aadLenOf (((on ((fun d => if ((4, .xtsEnc 0 1 .equal) : Nat × Instr).1 = 1 then (d.virtWrite 0 0 0x4000002010 [151, 54, 69, 47, 243, 89, 169, 150, 90, 76, 166, 133, 70, 20, 172, 12]).1 else d) ∘ keyed (key0 (if ((4, .xtsEnc 0 1 .equal) : Nat × Instr).1 < 4 then 0 else 2) 3) ∘ ceRuns ((4, .xtsEnc 0 1 .equal) : Nat × Instr).1 16)).dev.item? 0 1).get (by decide +kernel) : Item).desc else 0) : Nat) + lengthOf (((on ((fun d => if ((4, .xtsEnc 0 1 .equal) : Nat × Instr).1 = 1 then (d.virtWrite 0 0 0x4000002010 [151, 54, 69, 47, 243, 89, 169, 150, 90, 76, 166, 133, 70, 20, 172, 12]).1 else d) ∘ keyed (key0 (if ((4, .xtsEnc 0 1 .equal) : Nat × Instr).1 < 4 then 0 else 2) 3) ∘ ceRuns ((4, .xtsEnc 0 1 .equal) : Nat × Instr).1 16)).dev.item? 0 1).get (by decide +kernel) : Item).desc)).1 : Dev), VRes.ok, []) else (((on ((fun d => if ((4, .xtsEnc 0 1 .equal) : Nat × Instr).1 = 1 then (d.virtWrite 0 0 0x4000002010 [151, 54, 69, 47, 243, 89, 169, 150, 90, 76, 166, 133, 70, 20, 172, 12]).1 else d) ∘ keyed (key0 (if ((4, .xtsEnc 0 1 .equal) : Nat × Instr).1 < 4 then 0 else 2) 3) ∘ ceRuns ((4, .xtsEnc 0 1 .equal) : Nat × Instr).1 16)).dev.virtRead (whoCe (0 : Nat)) ((on ((fun d => if ((4, .xtsEnc 0 1 .equal) : Nat × Instr).1 = 1 then (d.virtWrite 0 0 0x4000002010 [151, 54, 69, 47, 243, 89, 169, 150, 90, 76, 166, 133, 70, 20, 172, 12]).1 else d) ∘ keyed (key0 (if ((4, .xtsEnc 0 1 .equal) : Nat × Instr).1 < 4 then 0 else 2) 3) ∘ ceRuns ((4, .xtsEnc 0 1 .equal) : Nat × Instr).1 16)).dev.ringAsid (0 : RingNo).val) (srcOf (((on ((fun d => if ((4, .xtsEnc 0 1 .equal) : Nat × Instr).1 = 1 then (d.virtWrite 0 0 0x4000002010 [151, 54, 69, 47, 243, 89, 169, 150, 90, 76, 166, 133, 70, 20, 172, 12]).1 else d) ∘ keyed (key0 (if ((4, .xtsEnc 0 1 .equal) : Nat × Instr).1 < 4 then 0 else 2) 3) ∘ ceRuns ((4, .xtsEnc 0 1 .equal) : Nat × Instr).1 16)).dev.item? 0 1).get (by decide +kernel) : Item).desc) (((if ((4, .xtsEnc 0 1 .equal) : Nat × Instr).1 ≤ 1 then aadLenOf (((on ((fun d => if ((4, .xtsEnc 0 1 .equal) : Nat × Instr).1 = 1 then (d.virtWrite 0 0 0x4000002010 [151, 54, 69, 47, 243, 89, 169, 150, 90, 76, 166, 133, 70, 20, 172, 12]).1 else d) ∘ keyed (key0 (if ((4, .xtsEnc 0 1 .equal) : Nat × Instr).1 < 4 then 0 else 2) 3) ∘ ceRuns ((4, .xtsEnc 0 1 .equal) : Nat × Instr).1 16)).dev.item? 0 1).get (by decide +kernel) : Item).desc else 0) : Nat) + lengthOf (((on ((fun d => if ((4, .xtsEnc 0 1 .equal) : Nat × Instr).1 = 1 then (d.virtWrite 0 0 0x4000002010 [151, 54, 69, 47, 243, 89, 169, 150, 90, 76, 166, 133, 70, 20, 172, 12]).1 else d) ∘ keyed (key0 (if ((4, .xtsEnc 0 1 .equal) : Nat × Instr).1 < 4 then 0 else 2) 3) ∘ ceRuns ((4, .xtsEnc 0 1 .equal) : Nat × Instr).1 16)).dev.item? 0 1).get (by decide +kernel) : Item).desc)).1 : Dev).virtRead (whoCe (0 : Nat)) ((on ((fun d => if ((4, .xtsEnc 0 1 .equal) : Nat × Instr).1 = 1 then (d.virtWrite 0 0 0x4000002010 [151, 54, 69, 47, 243, 89, 169, 150, 90, 76, 166, 133, 70, 20, 172, 12]).1 else d) ∘ keyed (key0 (if ((4, .xtsEnc 0 1 .equal) : Nat × Instr).1 < 4 then 0 else 2) 3) ∘ ceRuns ((4, .xtsEnc 0 1 .equal) : Nat × Instr).1 16)).dev.ringAsid (0 : RingNo).val) (paramOf (((on ((fun d => if ((4, .xtsEnc 0 1 .equal) : Nat × Instr).1 = 1 then (d.virtWrite 0 0 0x4000002010 [151, 54, 69, 47, 243, 89, 169, 150, 90, 76, 166, 133, 70, 20, 172, 12]).1 else d) ∘ keyed (key0 (if ((4, .xtsEnc 0 1 .equal) : Nat × Instr).1 < 4 then 0 else 2) 3) ∘ ceRuns ((4, .xtsEnc 0 1 .equal) : Nat × Instr).1 16)).dev.item? 0 1).get (by decide +kernel) : Item).desc) 32).1 : Dev).ceCompute (((on ((fun d => if ((4, .xtsEnc 0 1 .equal) : Nat × Instr).1 = 1 then (d.virtWrite 0 0 0x4000002010 [151, 54, 69, 47, 243, 89, 169, 150, 90, 76, 166, 133, 70, 20, 172, 12]).1 else d) ∘ keyed (key0 (if ((4, .xtsEnc 0 1 .equal) : Nat × Instr).1 < 4 then 0 else 2) 3) ∘ ceRuns ((4, .xtsEnc 0 1 .equal) : Nat × Instr).1 16)).dev.item? 0 1).get (by decide +kernel) : Item) ((ofBytes (((on ((fun d => if ((4, .xtsEnc 0 1 .equal) : Nat × Instr).1 = 1 then (d.virtWrite 0 0 0x4000002010 [151, 54, 69, 47, 243, 89, 169, 150, 90, 76, 166, 133, 70, 20, 172, 12]).1 else d) ∘ keyed (key0 (if ((4, .xtsEnc 0 1 .equal) : Nat × Instr).1 < 4 then 0 else 2) 3) ∘ ceRuns ((4, .xtsEnc 0 1 .equal) : Nat × Instr).1 16)).dev.virtRead (whoCe (0 : Nat)) ((on ((fun d => if ((4, .xtsEnc 0 1 .equal) : Nat × Instr).1 = 1 then (d.virtWrite 0 0 0x4000002010 [151, 54, 69, 47, 243, 89, 169, 150, 90, 76, 166, 133, 70, 20, 172, 12]).1 else d) ∘ keyed (key0 (if ((4, .xtsEnc 0 1 .equal) : Nat × Instr).1 < 4 then 0 else 2) 3) ∘ ceRuns ((4, .xtsEnc 0 1 .equal) : Nat × Instr).1 16)).dev.ringAsid (0 : RingNo).val) (srcOf (((on ((fun d => if ((4, .xtsEnc 0 1 .equal) : Nat × Instr).1 = 1 then (d.virtWrite 0 0 0x4000002010 [151, 54, 69, 47, 243, 89, 169, 150, 90, 76, 166, 133, 70, 20, 172, 12]).1 else d) ∘ keyed (key0 (if ((4, .xtsEnc 0 1 .equal) : Nat × Instr).1 < 4 then 0 else 2) 3) ∘ ceRuns ((4, .xtsEnc 0 1 .equal) : Nat × Instr).1 16)).dev.item? 0 1).get (by decide +kernel) : Item).desc) (((if ((4, .xtsEnc 0 1 .equal) : Nat × Instr).1 ≤ 1 then aadLenOf (((on ((fun d => if ((4, .xtsEnc 0 1 .equal) : Nat × Instr).1 = 1 then (d.virtWrite 0 0 0x4000002010 [151, 54, 69, 47, 243, 89, 169, 150, 90, 76, 166, 133, 70, 20, 172, 12]).1 else d) ∘ keyed (key0 (if ((4, .xtsEnc 0 1 .equal) : Nat × Instr).1 < 4 then 0 else 2) 3) ∘ ceRuns ((4, .xtsEnc 0 1 .equal) : Nat × Instr).1 16)).dev.item? 0 1).get (by decide +kernel) : Item).desc else 0) : Nat) + lengthOf (((on ((fun d => if ((4, .xtsEnc 0 1 .equal) : Nat × Instr).1 = 1 then (d.virtWrite 0 0 0x4000002010 [151, 54, 69, 47, 243, 89, 169, 150, 90, 76, 166, 133, 70, 20, 172, 12]).1 else d) ∘ keyed (key0 (if ((4, .xtsEnc 0 1 .equal) : Nat × Instr).1 < 4 then 0 else 2) 3) ∘ ceRuns ((4, .xtsEnc 0 1 .equal) : Nat × Instr).1 16)).dev.item? 0 1).get (by decide +kernel) : Item).desc)).2.2 : List Byte)).take ((if ((4, .xtsEnc 0 1 .equal) : Nat × Instr).1 ≤ 1 then aadLenOf (((on ((fun d => if ((4, .xtsEnc 0 1 .equal) : Nat × Instr).1 = 1 then (d.virtWrite 0 0 0x4000002010 [151, 54, 69, 47, 243, 89, 169, 150, 90, 76, 166, 133, 70, 20, 172, 12]).1 else d) ∘ keyed (key0 (if ((4, .xtsEnc 0 1 .equal) : Nat × Instr).1 < 4 then 0 else 2) 3) ∘ ceRuns ((4, .xtsEnc 0 1 .equal) : Nat × Instr).1 16)).dev.item? 0 1).get (by decide +kernel) : Item).desc else 0) : Nat)) ((ofBytes (((on ((fun d => if ((4, .xtsEnc 0 1 .equal) : Nat × Instr).1 = 1 then (d.virtWrite 0 0 0x4000002010 [151, 54, 69, 47, 243, 89, 169, 150, 90, 76, 166, 133, 70, 20, 172, 12]).1 else d) ∘ keyed (key0 (if ((4, .xtsEnc 0 1 .equal) : Nat × Instr).1 < 4 then 0 else 2) 3) ∘ ceRuns ((4, .xtsEnc 0 1 .equal) : Nat × Instr).1 16)).dev.virtRead (whoCe (0 : Nat)) ((on ((fun d => if ((4, .xtsEnc 0 1 .equal) : Nat × Instr).1 = 1 then (d.virtWrite 0 0 0x4000002010 [151, 54, 69, 47, 243, 89, 169, 150, 90, 76, 166, 133, 70, 20, 172, 12]).1 else d) ∘ keyed (key0 (if ((4, .xtsEnc 0 1 .equal) : Nat × Instr).1 < 4 then 0 else 2) 3) ∘ ceRuns ((4, .xtsEnc 0 1 .equal) : Nat × Instr).1 16)).dev.ringAsid (0 : RingNo).val) (srcOf (((on ((fun d => if ((4, .xtsEnc 0 1 .equal) : Nat × Instr).1 = 1 then (d.virtWrite 0 0 0x4000002010 [151, 54, 69, 47, 243, 89, 169, 150, 90, 76, 166, 133, 70, 20, 172, 12]).1 else d) ∘ keyed (key0 (if ((4, .xtsEnc 0 1 .equal) : Nat × Instr).1 < 4 then 0 else 2) 3) ∘ ceRuns ((4, .xtsEnc 0 1 .equal) : Nat × Instr).1 16)).dev.item? 0 1).get (by decide +kernel) : Item).desc) (((if ((4, .xtsEnc 0 1 .equal) : Nat × Instr).1 ≤ 1 then aadLenOf (((on ((fun d => if ((4, .xtsEnc 0 1 .equal) : Nat × Instr).1 = 1 then (d.virtWrite 0 0 0x4000002010 [151, 54, 69, 47, 243, 89, 169, 150, 90, 76, 166, 133, 70, 20, 172, 12]).1 else d) ∘ keyed (key0 (if ((4, .xtsEnc 0 1 .equal) : Nat × Instr).1 < 4 then 0 else 2) 3) ∘ ceRuns ((4, .xtsEnc 0 1 .equal) : Nat × Instr).1 16)).dev.item? 0 1).get (by decide +kernel) : Item).desc else 0) : Nat) + lengthOf (((on ((fun d => if ((4, .xtsEnc 0 1 .equal) : Nat × Instr).1 = 1 then (d.virtWrite 0 0 0x4000002010 [151, 54, 69, 47, 243, 89, 169, 150, 90, 76, 166, 133, 70, 20, 172, 12]).1 else d) ∘ keyed (key0 (if ((4, .xtsEnc 0 1 .equal) : Nat × Instr).1 < 4 then 0 else 2) 3) ∘ ceRuns ((4, .xtsEnc 0 1 .equal) : Nat × Instr).1 16)).dev.item? 0 1).get (by decide +kernel) : Item).desc)).2.2 : List Byte)).drop ((if ((4, .xtsEnc 0 1 .equal) : Nat × Instr).1 ≤ 1 then aadLenOf (((on ((fun d => if ((4, .xtsEnc 0 1 .equal) : Nat × Instr).1 = 1 then (d.virtWrite 0 0 0x4000002010 [151, 54, 69, 47, 243, 89, 169, 150, 90, 76, 166, 133, 70, 20, 172, 12]).1 else d) ∘ keyed (key0 (if ((4, .xtsEnc 0 1 .equal) : Nat × Instr).1 < 4 then 0 else 2) 3) ∘ ceRuns ((4, .xtsEnc 0 1 .equal) : Nat × Instr).1 16)).dev.item? 0 1).get (by decide +kernel) : Item).desc else 0) : Nat)) (ofBytes ((if ((4, .xtsEnc 0 1 .equal) : Nat × Instr).1 = 0 ∨ ((4, .xtsEnc 0 1 .equal) : Nat × Instr).1 = 2 then ((((on ((fun d => if ((4, .xtsEnc 0 1 .equal) : Nat × Instr).1 = 1 then (d.virtWrite 0 0 0x4000002010 [151, 54, 69, 47, 243, 89, 169, 150, 90, 76, 166, 133, 70, 20, 172, 12]).1 else d) ∘ keyed (key0 (if ((4, .xtsEnc 0 1 .equal) : Nat × Instr).1 < 4 then 0 else 2) 3) ∘ ceRuns ((4, .xtsEnc 0 1 .equal) : Nat × Instr).1 16)).dev.virtRead (whoCe (0 : Nat)) ((on ((fun d => if ((4, .xtsEnc 0 1 .equal) : Nat × Instr).1 = 1 then (d.virtWrite 0 0 0x4000002010 [151, 54, 69, 47, 243, 89, 169, 150, 90, 76, 166, 133, 70, 20, 172, 12]).1 else d) ∘ keyed (key0 (if ((4, .xtsEnc 0 1 .equal) : Nat × Instr).1 < 4 then 0 else 2) 3) ∘ ceRuns ((4, .xtsEnc 0 1 .equal) : Nat × Instr).1 16)).dev.ringAsid (0 : RingNo).val) (srcOf (((on ((fun d => if ((4, .xtsEnc 0 1 .equal) : Nat × Instr).1 = 1 then (d.virtWrite 0 0 0x4000002010 [151, 54, 69, 47, 243, 89, 169, 150, 90, 76, 166, 133, 70, 20, 172, 12]).1 else d) ∘ keyed (key0 (if ((4, .xtsEnc 0 1 .equal) : Nat × Instr).1 < 4 then 0 else 2) 3) ∘ ceRuns ((4, .xtsEnc 0 1 .equal) : Nat × Instr).1 16)).dev.item? 0 1).get (by decide +kernel) : Item).desc) (((if ((4, .xtsEnc 0 1 .equal) : Nat × Instr).1 ≤ 1 then aadLenOf (((on ((fun d => if ((4, .xtsEnc 0 1 .equal) : Nat × Instr).1 = 1 then (d.virtWrite 0 0 0x4000002010 [151, 54, 69, 47, 243, 89, 169, 150, 90, 76, 166, 133, 70, 20, 172, 12]).1 else d) ∘ keyed (key0 (if ((4, .xtsEnc 0 1 .equal) : Nat × Instr).1 < 4 then 0 else 2) 3) ∘ ceRuns ((4, .xtsEnc 0 1 .equal) : Nat × Instr).1 16)).dev.item? 0 1).get (by decide +kernel) : Item).desc else 0) : Nat) + lengthOf (((on ((fun d => if ((4, .xtsEnc 0 1 .equal) : Nat × Instr).1 = 1 then (d.virtWrite 0 0 0x4000002010 [151, 54, 69, 47, 243, 89, 169, 150, 90, 76, 166, 133, 70, 20, 172, 12]).1 else d) ∘ keyed (key0 (if ((4, .xtsEnc 0 1 .equal) : Nat × Instr).1 < 4 then 0 else 2) 3) ∘ ceRuns ((4, .xtsEnc 0 1 .equal) : Nat × Instr).1 16)).dev.item? 0 1).get (by decide +kernel) : Item).desc)).1 : Dev), VRes.ok, []) else (((on ((fun d => if ((4, .xtsEnc 0 1 .equal) : Nat × Instr).1 = 1 then (d.virtWrite 0 0 0x4000002010 [151, 54, 69, 47, 243, 89, 169, 150, 90, 76, 166, 133, 70, 20, 172, 12]).1 else d) ∘ keyed (key0 (if ((4, .xtsEnc 0 1 .equal) : Nat × Instr).1 < 4 then 0 else 2) 3) ∘ ceRuns ((4, .xtsEnc 0 1 .equal) : Nat × Instr).1 16)).dev.virtRead (whoCe (0 : Nat)) ((on ((fun d => if ((4, .xtsEnc 0 1 .equal) : Nat × Instr).1 = 1 then (d.virtWrite 0 0 0x4000002010 [151, 54, 69, 47, 243, 89, 169, 150, 90, 76, 166, 133, 70, 20, 172, 12]).1 else d) ∘ keyed (key0 (if ((4, .xtsEnc 0 1 .equal) : Nat × Instr).1 < 4 then 0 else 2) 3) ∘ ceRuns ((4, .xtsEnc 0 1 .equal) : Nat × Instr).1 16)).dev.ringAsid (0 : RingNo).val) (srcOf (((on ((fun d => if ((4, .xtsEnc 0 1 .equal) : Nat × Instr).1 = 1 then (d.virtWrite 0 0 0x4000002010 [151, 54, 69, 47, 243, 89, 169, 150, 90, 76, 166, 133, 70, 20, 172, 12]).1 else d) ∘ keyed (key0 (if ((4, .xtsEnc 0 1 .equal) : Nat × Instr).1 < 4 then 0 else 2) 3) ∘ ceRuns ((4, .xtsEnc 0 1 .equal) : Nat × Instr).1 16)).dev.item? 0 1).get (by decide +kernel) : Item).desc) (((if ((4, .xtsEnc 0 1 .equal) : Nat × Instr).1 ≤ 1 then aadLenOf (((on ((fun d => if ((4, .xtsEnc 0 1 .equal) : Nat × Instr).1 = 1 then (d.virtWrite 0 0 0x4000002010 [151, 54, 69, 47, 243, 89, 169, 150, 90, 76, 166, 133, 70, 20, 172, 12]).1 else d) ∘ keyed (key0 (if ((4, .xtsEnc 0 1 .equal) : Nat × Instr).1 < 4 then 0 else 2) 3) ∘ ceRuns ((4, .xtsEnc 0 1 .equal) : Nat × Instr).1 16)).dev.item? 0 1).get (by decide +kernel) : Item).desc else 0) : Nat) + lengthOf (((on ((fun d => if ((4, .xtsEnc 0 1 .equal) : Nat × Instr).1 = 1 then (d.virtWrite 0 0 0x4000002010 [151, 54, 69, 47, 243, 89, 169, 150, 90, 76, 166, 133, 70, 20, 172, 12]).1 else d) ∘ keyed (key0 (if ((4, .xtsEnc 0 1 .equal) : Nat × Instr).1 < 4 then 0 else 2) 3) ∘ ceRuns ((4, .xtsEnc 0 1 .equal) : Nat × Instr).1 16)).dev.item? 0 1).get (by decide +kernel) : Item).desc)).1 : Dev).virtRead (whoCe (0 : Nat)) ((on ((fun d => if ((4, .xtsEnc 0 1 .equal) : Nat × Instr).1 = 1 then (d.virtWrite 0 0 0x4000002010 [151, 54, 69, 47, 243, 89, 169, 150, 90, 76, 166, 133, 70, 20, 172, 12]).1 else d) ∘ keyed (key0 (if ((4, .xtsEnc 0 1 .equal) : Nat × Instr).1 < 4 then 0 else 2) 3) ∘ ceRuns ((4, .xtsEnc 0 1 .equal) : Nat × Instr).1 16)).dev.ringAsid (0 : RingNo).val) (paramOf (((on ((fun d => if ((4, .xtsEnc 0 1 .equal) : Nat × Instr).1 = 1 then (d.virtWrite 0 0 0x4000002010 [151, 54, 69, 47, 243, 89, 169, 150, 90, 76, 166, 133, 70, 20, 172, 12]).1 else d) ∘ keyed (key0 (if ((4, .xtsEnc 0 1 .equal) : Nat × Instr).1 < 4 then 0 else 2) 3) ∘ ceRuns ((4, .xtsEnc 0 1 .equal) : Nat × Instr).1 16)).dev.item? 0 1).get (by decide +kernel) : Item).desc) 32).2.2 : List Byte))).1 : List Nat))).1 : Dev).virtWrite (whoCe (0 : Nat)) ((on ((fun d => if ((4, .xtsEnc 0 1 .equal) : Nat × Instr).1 = 1 then (d.virtWrite 0 0 0x4000002010 [151, 54, 69, 47, 243, 89, 169, 150, 90, 76, 166, 133, 70, 20, 172, 12]).1 else d) ∘ keyed (key0 (if ((4, .xtsEnc 0 1 .equal) : Nat × Instr).1 < 4 then 0 else 2) 3) ∘ ceRuns ((4, .xtsEnc 0 1 .equal) : Nat × Instr).1 16)).dev.ringAsid (0 : RingNo).val) (paramOf (((on ((fun d => if ((4, .xtsEnc 0 1 .equal) : Nat × Instr).1 = 1 then (d.virtWrite 0 0 0x4000002010 [151, 54, 69, 47, 243, 89, 169, 150, 90, 76, 166, 133, 70, 20, 172, 12]).1 else d) ∘ keyed (key0 (if ((4, .xtsEnc 0 1 .equal) : Nat × Instr).1 < 4 then 0 else 2) 3) ∘ ceRuns ((4, .xtsEnc 0 1 .equal) : Nat × Instr).1 16)).dev.item? 0 1).get (by decide +kernel) : Item).desc) ((((if ((4, .xtsEnc 0 1 .equal) : Nat × Instr).1 = 0 ∨ ((4, .xtsEnc 0 1 .equal) : Nat × Instr).1 = 2 then ((((on ((fun d => if ((4, .xtsEnc 0 1 .equal) : Nat × Instr).1 = 1 then (d.virtWrite 0 0 0x4000002010 [151, 54, 69, 47, 243, 89, 169, 150, 90, 76, 166, 133, 70, 20, 172, 12]).1 else d) ∘ keyed (key0 (if ((4, .xtsEnc 0 1 .equal) : Nat × Instr).1 < 4 then 0 else 2) 3) ∘ ceRuns ((4, .xtsEnc 0 1 .equal) : Nat × Instr).1 16)).dev.virtRead (whoCe (0 : Nat)) ((on ((fun d => if ((4, .xtsEnc 0 1 .equal) : Nat × Instr).1 = 1 then (d.virtWrite 0 0 0x4000002010 [151, 54, 69, 47, 243, 89, 169, 150, 90, 76, 166, 133, 70, 20, 172, 12]).1 else d) ∘ keyed (key0 (if ((4, .xtsEnc 0 1 .equal) : Nat × Instr).1 < 4 then 0 else 2) 3) ∘ ceRuns ((4, .xtsEnc 0 1 .equal) : Nat × Instr).1 16)).dev.ringAsid (0 : RingNo).val) (srcOf (((on ((fun d => if ((4, .xtsEnc 0 1 .equal) : Nat × Instr).1 = 1 then (d.virtWrite 0 0 0x4000002010 [151, 54, 69, 47, 243, 89, 169, 150, 90, 76, 166, 133, 70, 20, 172, 12]).1 else d) ∘ keyed (key0 (if ((4, .xtsEnc 0 1 .equal) : Nat × Instr).1 < 4 then 0 else 2) 3) ∘ ceRuns ((4, .xtsEnc 0 1 .equal) : Nat × Instr).1 16)).dev.item? 0 1).get (by decide +kernel) : Item).desc) (((if ((4, .xtsEnc 0 1 .equal) : Nat × Instr).1 ≤ 1 then aadLenOf (((on ((fun d => if ((4, .xtsEnc 0 1 .equal) : Nat × Instr).1 = 1 then (d.virtWrite 0 0 0x4000002010 [151, 54, 69, 47, 243, 89, 169, 150, 90, 76, 166, 133, 70, 20, 172, 12]).1 else d) ∘ keyed (key0 (if ((4, .xtsEnc 0 1 .equal) : Nat × Instr).1 < 4 then 0 else 2) 3) ∘ ceRuns ((4, .xtsEnc 0 1 .equal) : Nat × Instr).1 16)).dev.item? 0 1).get (by decide +kernel) : Item).desc else 0) : Nat) + lengthOf (((on ((fun d => if ((4, .xtsEnc 0 1 .equal) : Nat × Instr).1 = 1 then (d.virtWrite 0 0 0x4000002010 [151, 54, 69, 47, 243, 89, 169, 150, 90, 76, 166, 133, 70, 20, 172, 12]).1 else d) ∘ keyed (key0 (if ((4, .xtsEnc 0 1 .equal) : Nat × Instr).1 < 4 then 0 else 2) 3) ∘ ceRuns ((4, .xtsEnc 0 1 .equal) : Nat × Instr).1 16)).dev.item? 0 1).get (by decide +kernel) : Item).desc)).1 : Dev), VRes.ok, []) else (((on ((fun d => if ((4, .xtsEnc 0 1 .equal) : Nat × Instr).1 = 1 then (d.virtWrite 0 0 0x4000002010 [151, 54, 69, 47, 243, 89, 169, 150, 90, 76, 166, 133, 70, 20, 172, 12]).1 else d) ∘ keyed (key0 (if ((4, .xtsEnc 0 1 .equal) : Nat × Instr).1 < 4 then 0 else 2) 3) ∘ ceRuns ((4, .xtsEnc 0 1 .equal) : Nat × Instr).1 16)).dev.virtRead (whoCe (0 : Nat)) ((on ((fun d => if ((4, .xtsEnc 0 1 .equal) : Nat × Instr).1 = 1 then (d.virtWrite 0 0 0x4000002010 [151, 54, 69, 47, 243, 89, 169, 150, 90, 76, 166, 133, 70, 20, 172, 12]).1 else d) ∘ keyed (key0 (if ((4, .xtsEnc 0 1 .equal) : Nat × Instr).1 < 4 then 0 else 2) 3) ∘ ceRuns ((4, .xtsEnc 0 1 .equal) : Nat × Instr).1 16)).dev.ringAsid (0 : RingNo).val) (srcOf (((on ((fun d => if ((4, .xtsEnc 0 1 .equal) : Nat × Instr).1 = 1 then (d.virtWrite 0 0 0x4000002010 [151, 54, 69, 47, 243, 89, 169, 150, 90, 76, 166, 133, 70, 20, 172, 12]).1 else d) ∘ keyed (key0 (if ((4, .xtsEnc 0 1 .equal) : Nat × Instr).1 < 4 then 0 else 2) 3) ∘ ceRuns ((4, .xtsEnc 0 1 .equal) : Nat × Instr).1 16)).dev.item? 0 1).get (by decide +kernel) : Item).desc) (((if ((4, .xtsEnc 0 1 .equal) : Nat × Instr).1 ≤ 1 then aadLenOf (((on ((fun d => if ((4, .xtsEnc 0 1 .equal) : Nat × Instr).1 = 1 then (d.virtWrite 0 0 0x4000002010 [151, 54, 69, 47, 243, 89, 169, 150, 90, 76, 166, 133, 70, 20, 172, 12]).1 else d) ∘ keyed (key0 (if ((4, .xtsEnc 0 1 .equal) : Nat × Instr).1 < 4 then 0 else 2) 3) ∘ ceRuns ((4, .xtsEnc 0 1 .equal) : Nat × Instr).1 16)).dev.item? 0 1).get (by decide +kernel) : Item).desc else 0) : Nat) + lengthOf (((on ((fun d => if ((4, .xtsEnc 0 1 .equal) : Nat × Instr).1 = 1 then (d.virtWrite 0 0 0x4000002010 [151, 54, 69, 47, 243, 89, 169, 150, 90, 76, 166, 133, 70, 20, 172, 12]).1 else d) ∘ keyed (key0 (if ((4, .xtsEnc 0 1 .equal) : Nat × Instr).1 < 4 then 0 else 2) 3) ∘ ceRuns ((4, .xtsEnc 0 1 .equal) : Nat × Instr).1 16)).dev.item? 0 1).get (by decide +kernel) : Item).desc)).1 : Dev).virtRead (whoCe (0 : Nat)) ((on ((fun d => if ((4, .xtsEnc 0 1 .equal) : Nat × Instr).1 = 1 then (d.virtWrite 0 0 0x4000002010 [151, 54, 69, 47, 243, 89, 169, 150, 90, 76, 166, 133, 70, 20, 172, 12]).1 else d) ∘ keyed (key0 (if ((4, .xtsEnc 0 1 .equal) : Nat × Instr).1 < 4 then 0 else 2) 3) ∘ ceRuns ((4, .xtsEnc 0 1 .equal) : Nat × Instr).1 16)).dev.ringAsid (0 : RingNo).val) (paramOf (((on ((fun d => if ((4, .xtsEnc 0 1 .equal) : Nat × Instr).1 = 1 then (d.virtWrite 0 0 0x4000002010 [151, 54, 69, 47, 243, 89, 169, 150, 90, 76, 166, 133, 70, 20, 172, 12]).1 else d) ∘ keyed (key0 (if ((4, .xtsEnc 0 1 .equal) : Nat × Instr).1 < 4 then 0 else 2) 3) ∘ ceRuns ((4, .xtsEnc 0 1 .equal) : Nat × Instr).1 16)).dev.item? 0 1).get (by decide +kernel) : Item).desc) 32).1 : Dev).ceCompute (((on ((fun d => if ((4, .xtsEnc 0 1 .equal) : Nat × Instr).1 = 1 then (d.virtWrite 0 0 0x4000002010 [151, 54, 69, 47, 243, 89, 169, 150, 90, 76, 166, 133, 70, 20, 172, 12]).1 else d) ∘ keyed (key0 (if ((4, .xtsEnc 0 1 .equal) : Nat × Instr).1 < 4 then 0 else 2) 3) ∘ ceRuns ((4, .xtsEnc 0 1 .equal) : Nat × Instr).1 16)).dev.item? 0 1).get (by decide +kernel) : Item) ((ofBytes (((on ((fun d => if ((4, .xtsEnc 0 1 .equal) : Nat × Instr).1 = 1 then (d.virtWrite 0 0 0x4000002010 [151, 54, 69, 47, 243, 89, 169, 150, 90, 76, 166, 133, 70, 20, 172, 12]).1 else d) ∘ keyed (key0 (if ((4, .xtsEnc 0 1 .equal) : Nat × Instr).1 < 4 then 0 else 2) 3) ∘ ceRuns ((4, .xtsEnc 0 1 .equal) : Nat × Instr).1 16)).dev.virtRead (whoCe (0 : Nat)) ((on ((fun d => if ((4, .xtsEnc 0 1 .equal) : Nat × Instr).1 = 1 then (d.virtWrite 0 0 0x4000002010 [151, 54, 69, 47, 243, 89, 169, 150, 90, 76, 166, 133, 70, 20, 172, 12]).1 else d) ∘ keyed (key0 (if ((4, .xtsEnc 0 1 .equal) : Nat × Instr).1 < 4 then 0 else 2) 3) ∘ ceRuns ((4, .xtsEnc 0 1 .equal) : Nat × Instr).1 16)).dev.ringAsid (0 : RingNo).val) (srcOf (((on ((fun d => if ((4, .xtsEnc 0 1 .equal) : Nat × Instr).1 = 1 then (d.virtWrite 0 0 0x4000002010 [151, 54, 69, 47, 243, 89, 169, 150, 90, 76, 166, 133, 70, 20, 172, 12]).1 else d) ∘ keyed (key0 (if ((4, .xtsEnc 0 1 .equal) : Nat × Instr).1 < 4 then 0 else 2) 3) ∘ ceRuns ((4, .xtsEnc 0 1 .equal) : Nat × Instr).1 16)).dev.item? 0 1).get (by decide +kernel) : Item).desc) (((if ((4, .xtsEnc 0 1 .equal) : Nat × Instr).1 ≤ 1 then aadLenOf (((on ((fun d => if ((4, .xtsEnc 0 1 .equal) : Nat × Instr).1 = 1 then (d.virtWrite 0 0 0x4000002010 [151, 54, 69, 47, 243, 89, 169, 150, 90, 76, 166, 133, 70, 20, 172, 12]).1 else d) ∘ keyed (key0 (if ((4, .xtsEnc 0 1 .equal) : Nat × Instr).1 < 4 then 0 else 2) 3) ∘ ceRuns ((4, .xtsEnc 0 1 .equal) : Nat × Instr).1 16)).dev.item? 0 1).get (by decide +kernel) : Item).desc else 0) : Nat) + lengthOf (((on ((fun d => if ((4, .xtsEnc 0 1 .equal) : Nat × Instr).1 = 1 then (d.virtWrite 0 0 0x4000002010 [151, 54, 69, 47, 243, 89, 169, 150, 90, 76, 166, 133, 70, 20, 172, 12]).1 else d) ∘ keyed (key0 (if ((4, .xtsEnc 0 1 .equal) : Nat × Instr).1 < 4 then 0 else 2) 3) ∘ ceRuns ((4, .xtsEnc 0 1 .equal) : Nat × Instr).1 16)).dev.item? 0 1).get (by decide +kernel) : Item).desc)).2.2 : List Byte)).take ((if ((4, .xtsEnc 0 1 .equal) : Nat × Instr).1 ≤ 1 then aadLenOf (((on ((fun d => if ((4, .xtsEnc 0 1 .equal) : Nat × Instr).1 = 1 then (d.virtWrite 0 0 0x4000002010 [151, 54, 69, 47, 243, 89, 169, 150, 90, 76, 166, 133, 70, 20, 172, 12]).1 else d) ∘ keyed (key0 (if ((4, .xtsEnc 0 1 .equal) : Nat × Instr).1 < 4 then 0 else 2) 3) ∘ ceRuns ((4, .xtsEnc 0 1 .equal) : Nat × Instr).1 16)).dev.item? 0 1).get (by decide +kernel) : Item).desc else 0) : Nat)) ((ofBytes (((on ((fun d => if ((4, .xtsEnc 0 1 .equal) : Nat × Instr).1 = 1 then (d.virtWrite 0 0 0x4000002010 [151, 54, 69, 47, 243, 89, 169, 150, 90, 76, 166, 133, 70, 20, 172, 12]).1 else d) ∘ keyed (key0 (if ((4, .xtsEnc 0 1 .equal) : Nat × Instr).1 < 4 then 0 else 2) 3) ∘ ceRuns ((4, .xtsEnc 0 1 .equal) : Nat × Instr).1 16)).dev.virtRead (whoCe (0 : Nat)) ((on ((fun d => if ((4, .xtsEnc 0 1 .equal) : Nat × Instr).1 = 1 then (d.virtWrite 0 0 0x4000002010 [151, 54, 69, 47, 243, 89, 169, 150, 90, 76, 166, 133, 70, 20, 172, 12]).1 else d) ∘ keyed (key0 (if ((4, .xtsEnc 0 1 .equal) : Nat × Instr).1 < 4 then 0 else 2) 3) ∘ ceRuns ((4, .xtsEnc 0 1 .equal) : Nat × Instr).1 16)).dev.ringAsid (0 : RingNo).val) (srcOf (((on ((fun d => if ((4, .xtsEnc 0 1 .equal) : Nat × Instr).1 = 1 then (d.virtWrite 0 0 0x4000002010 [151, 54, 69, 47, 243, 89, 169, 150, 90, 76, 166, 133, 70, 20, 172, 12]).1 else d) ∘ keyed (key0 (if ((4, .xtsEnc 0 1 .equal) : Nat × Instr).1 < 4 then 0 else 2) 3) ∘ ceRuns ((4, .xtsEnc 0 1 .equal) : Nat × Instr).1 16)).dev.item? 0 1).get (by decide +kernel) : Item).desc) (((if ((4, .xtsEnc 0 1 .equal) : Nat × Instr).1 ≤ 1 then aadLenOf (((on ((fun d => if ((4, .xtsEnc 0 1 .equal) : Nat × Instr).1 = 1 then (d.virtWrite 0 0 0x4000002010 [151, 54, 69, 47, 243, 89, 169, 150, 90, 76, 166, 133, 70, 20, 172, 12]).1 else d) ∘ keyed (key0 (if ((4, .xtsEnc 0 1 .equal) : Nat × Instr).1 < 4 then 0 else 2) 3) ∘ ceRuns ((4, .xtsEnc 0 1 .equal) : Nat × Instr).1 16)).dev.item? 0 1).get (by decide +kernel) : Item).desc else 0) : Nat) + lengthOf (((on ((fun d => if ((4, .xtsEnc 0 1 .equal) : Nat × Instr).1 = 1 then (d.virtWrite 0 0 0x4000002010 [151, 54, 69, 47, 243, 89, 169, 150, 90, 76, 166, 133, 70, 20, 172, 12]).1 else d) ∘ keyed (key0 (if ((4, .xtsEnc 0 1 .equal) : Nat × Instr).1 < 4 then 0 else 2) 3) ∘ ceRuns ((4, .xtsEnc 0 1 .equal) : Nat × Instr).1 16)).dev.item? 0 1).get (by decide +kernel) : Item).desc)).2.2 : List Byte)).drop ((if ((4, .xtsEnc 0 1 .equal) : Nat × Instr).1 ≤ 1 then aadLenOf (((on ((fun d => if ((4, .xtsEnc 0 1 .equal) : Nat × Instr).1 = 1 then (d.virtWrite 0 0 0x4000002010 [151, 54, 69, 47, 243, 89, 169, 150, 90, 76, 166, 133, 70, 20, 172, 12]).1 else d) ∘ keyed (key0 (if ((4, .xtsEnc 0 1 .equal) : Nat × Instr).1 < 4 then 0 else 2) 3) ∘ ceRuns ((4, .xtsEnc 0 1 .equal) : Nat × Instr).1 16)).dev.item? 0 1).get (by decide +kernel) : Item).desc else 0) : Nat)) (ofBytes ((if ((4, .xtsEnc 0 1 .equal) : Nat × Instr).1 = 0 ∨ ((4, .xtsEnc 0 1 .equal) : Nat × Instr).1 = 2 then ((((on ((fun d => if ((4, .xtsEnc 0 1 .equal) : Nat × Instr).1 = 1 then (d.virtWrite 0 0 0x4000002010 [151, 54, 69, 47, 243, 89, 169, 150, 90, 76, 166, 133, 70, 20, 172, 12]).1 else d) ∘ keyed (key0 (if ((4, .xtsEnc 0 1 .equal) : Nat × Instr).1 < 4 then 0 else 2) 3) ∘ ceRuns ((4, .xtsEnc 0 1 .equal) : Nat × Instr).1 16)).dev.virtRead (whoCe (0 : Nat)) ((on ((fun d => if ((4, .xtsEnc 0 1 .equal) : Nat × Instr).1 = 1 then (d.virtWrite 0 0 0x4000002010 [151, 54, 69, 47, 243, 89, 169, 150, 90, 76, 166, 133, 70, 20, 172, 12]).1 else d) ∘ keyed (key0 (if ((4, .xtsEnc 0 1 .equal) : Nat × Instr).1 < 4 then 0 else 2) 3) ∘ ceRuns ((4, .xtsEnc 0 1 .equal) : Nat × Instr).1 16)).dev.ringAsid (0 : RingNo).val) (srcOf (((on ((fun d => if ((4, .xtsEnc 0 1 .equal) : Nat × Instr).1 = 1 then (d.virtWrite 0 0 0x4000002010 [151, 54, 69, 47, 243, 89, 169, 150, 90, 76, 166, 133, 70, 20, 172, 12]).1 else d) ∘ keyed (key0 (if ((4, .xtsEnc 0 1 .equal) : Nat × Instr).1 < 4 then 0 else 2) 3) ∘ ceRuns ((4, .xtsEnc 0 1 .equal) : Nat × Instr).1 16)).dev.item? 0 1).get (by decide +kernel) : Item).desc) (((if ((4, .xtsEnc 0 1 .equal) : Nat × Instr).1 ≤ 1 then aadLenOf (((on ((fun d => if ((4, .xtsEnc 0 1 .equal) : Nat × Instr).1 = 1 then (d.virtWrite 0 0 0x4000002010 [151, 54, 69, 47, 243, 89, 169, 150, 90, 76, 166, 133, 70, 20, 172, 12]).1 else d) ∘ keyed (key0 (if ((4, .xtsEnc 0 1 .equal) : Nat × Instr).1 < 4 then 0 else 2) 3) ∘ ceRuns ((4, .xtsEnc 0 1 .equal) : Nat × Instr).1 16)).dev.item? 0 1).get (by decide +kernel) : Item).desc else 0) : Nat) + lengthOf (((on ((fun d => if ((4, .xtsEnc 0 1 .equal) : Nat × Instr).1 = 1 then (d.virtWrite 0 0 0x4000002010 [151, 54, 69, 47, 243, 89, 169, 150, 90, 76, 166, 133, 70, 20, 172, 12]).1 else d) ∘ keyed (key0 (if ((4, .xtsEnc 0 1 .equal) : Nat × Instr).1 < 4 then 0 else 2) 3) ∘ ceRuns ((4, .xtsEnc 0 1 .equal) : Nat × Instr).1 16)).dev.item? 0 1).get (by decide +kernel) : Item).desc)).1 : Dev), VRes.ok, []) else (((on ((fun d => if ((4, .xtsEnc 0 1 .equal) : Nat × Instr).1 = 1 then (d.virtWrite 0 0 0x4000002010 [151, 54, 69, 47, 243, 89, 169, 150, 90, 76, 166, 133, 70, 20, 172, 12]).1 else d) ∘ keyed (key0 (if ((4, .xtsEnc 0 1 .equal) : Nat × Instr).1 < 4 then 0 else 2) 3) ∘ ceRuns ((4, .xtsEnc 0 1 .equal) : Nat × Instr).1 16)).dev.virtRead (whoCe (0 : Nat)) ((on ((fun d => if ((4, .xtsEnc 0 1 .equal) : Nat × Instr).1 = 1 then (d.virtWrite 0 0 0x4000002010 [151, 54, 69, 47, 243, 89, 169, 150, 90, 76, 166, 133, 70, 20, 172, 12]).1 else d) ∘ keyed (key0 (if ((4, .xtsEnc 0 1 .equal) : Nat × Instr).1 < 4 then 0 else 2) 3) ∘ ceRuns ((4, .xtsEnc 0 1 .equal) : Nat × Instr).1 16)).dev.ringAsid (0 : RingNo).val) (srcOf (((on ((fun d => if ((4, .xtsEnc 0 1 .equal) : Nat × Instr).1 = 1 then (d.virtWrite 0 0 0x4000002010 [151, 54, 69, 47, 243, 89, 169, 150, 90, 76, 166, 133, 70, 20, 172, 12]).1 else d) ∘ keyed (key0 (if ((4, .xtsEnc 0 1 .equal) : Nat × Instr).1 < 4 then 0 else 2) 3) ∘ ceRuns ((4, .xtsEnc 0 1 .equal) : Nat × Instr).1 16)).dev.item? 0 1).get (by decide +kernel) : Item).desc) (((if ((4, .xtsEnc 0 1 .equal) : Nat × Instr).1 ≤ 1 then aadLenOf (((on ((fun d => if ((4, .xtsEnc 0 1 .equal) : Nat × Instr).1 = 1 then (d.virtWrite 0 0 0x4000002010 [151, 54, 69, 47, 243, 89, 169, 150, 90, 76, 166, 133, 70, 20, 172, 12]).1 else d) ∘ keyed (key0 (if ((4, .xtsEnc 0 1 .equal) : Nat × Instr).1 < 4 then 0 else 2) 3) ∘ ceRuns ((4, .xtsEnc 0 1 .equal) : Nat × Instr).1 16)).dev.item? 0 1).get (by decide +kernel) : Item).desc else 0) : Nat) + lengthOf (((on ((fun d => if ((4, .xtsEnc 0 1 .equal) : Nat × Instr).1 = 1 then (d.virtWrite 0 0 0x4000002010 [151, 54, 69, 47, 243, 89, 169, 150, 90, 76, 166, 133, 70, 20, 172, 12]).1 else d) ∘ keyed (key0 (if ((4, .xtsEnc 0 1 .equal) : Nat × Instr).1 < 4 then 0 else 2) 3) ∘ ceRuns ((4, .xtsEnc 0 1 .equal) : Nat × Instr).1 16)).dev.item? 0 1).get (by decide +kernel) : Item).desc)).1 : Dev).virtRead (whoCe (0 : Nat)) ((on ((fun d => if ((4, .xtsEnc 0 1 .equal) : Nat × Instr).1 = 1 then (d.virtWrite 0 0 0x4000002010 [151, 54, 69, 47, 243, 89, 169, 150, 90, 76, 166, 133, 70, 20, 172, 12]).1 else d) ∘ keyed (key0 (if ((4, .xtsEnc 0 1 .equal) : Nat × Instr).1 < 4 then 0 else 2) 3) ∘ ceRuns ((4, .xtsEnc 0 1 .equal) : Nat × Instr).1 16)).dev.ringAsid (0 : RingNo).val) (paramOf (((on ((fun d => if ((4, .xtsEnc 0 1 .equal) : Nat × Instr).1 = 1 then (d.virtWrite 0 0 0x4000002010 [151, 54, 69, 47, 243, 89, 169, 150, 90, 76, 166, 133, 70, 20, 172, 12]).1 else d) ∘ keyed (key0 (if ((4, .xtsEnc 0 1 .equal) : Nat × Instr).1 < 4 then 0 else 2) 3) ∘ ceRuns ((4, .xtsEnc 0 1 .equal) : Nat × Instr).1 16)).dev.item? 0 1).get (by decide +kernel) : Item).desc) 32).2.2 : List Byte))).2.2 : List Byte)).1, ((on ((fun d => if ((4, .xtsEnc 0 1 .equal) : Nat × Instr).1 = 1 then (d.virtWrite 0 0 0x4000002010 [151, 54, 69, 47, 243, 89, 169, 150, 90, 76, 166, 133, 70, 20, 172, 12]).1 else d) ∘ keyed (key0 (if ((4, .xtsEnc 0 1 .equal) : Nat × Instr).1 < 4 then 0 else 2) 3) ∘ ceRuns ((4, .xtsEnc 0 1 .equal) : Nat × Instr).1 16)).dev.virtRead (whoCe (0 : Nat)) ((on ((fun d => if ((4, .xtsEnc 0 1 .equal) : Nat × Instr).1 = 1 then (d.virtWrite 0 0 0x4000002010 [151, 54, 69, 47, 243, 89, 169, 150, 90, 76, 166, 133, 70, 20, 172, 12]).1 else d) ∘ keyed (key0 (if ((4, .xtsEnc 0 1 .equal) : Nat × Instr).1 < 4 then 0 else 2) 3) ∘ ceRuns ((4, .xtsEnc 0 1 .equal) : Nat × Instr).1 16)).dev.ringAsid (0 : RingNo).val) (srcOf (((on ((fun d => if ((4, .xtsEnc 0 1 .equal) : Nat × Instr).1 = 1 then (d.virtWrite 0 0 0x4000002010 [151, 54, 69, 47, 243, 89, 169, 150, 90, 76, 166, 133, 70, 20, 172, 12]).1 else d) ∘ keyed (key0 (if ((4, .xtsEnc 0 1 .equal) : Nat × Instr).1 < 4 then 0 else 2) 3) ∘ ceRuns ((4, .xtsEnc 0 1 .equal) : Nat × Instr).1 16)).dev.item? 0 1).get (by decide +kernel) : Item).desc) (((if ((4, .xtsEnc 0 1 .equal) : Nat × Instr).1 ≤ 1 then aadLenOf (((on ((fun d => if ((4, .xtsEnc 0 1 .equal) : Nat × Instr).1 = 1 then (d.virtWrite 0 0 0x4000002010 [151, 54, 69, 47, 243, 89, 169, 150, 90, 76, 166, 133, 70, 20, 172, 12]).1 else d) ∘ keyed (key0 (if ((4, .xtsEnc 0 1 .equal) : Nat × Instr).1 < 4 then 0 else 2) 3) ∘ ceRuns ((4, .xtsEnc 0 1 .equal) : Nat × Instr).1 16)).dev.item? 0 1).get (by decide +kernel) : Item).desc else 0) : Nat) + lengthOf (((on ((fun d => if ((4, .xtsEnc 0 1 .equal) : Nat × Instr).1 = 1 then (d.virtWrite 0 0 0x4000002010 [151, 54, 69, 47, 243, 89, 169, 150, 90, 76, 166, 133, 70, 20, 172, 12]).1 else d) ∘ keyed (key0 (if ((4, .xtsEnc 0 1 .equal) : Nat × Instr).1 < 4 then 0 else 2) 3) ∘ ceRuns ((4, .xtsEnc 0 1 .equal) : Nat × Instr).1 16)).dev.item? 0 1).get (by decide +kernel) : Item).desc)).2.2, (if ((4, .xtsEnc 0 1 .equal) : Nat × Instr).1 = 0 ∨ ((4, .xtsEnc 0 1 .equal) : Nat × Instr).1 = 2 then ((((on ((fun d => if ((4, .xtsEnc 0 1 .equal) : Nat × Instr).1 = 1 then (d.virtWrite 0 0 0x4000002010 [151, 54, 69, 47, 243, 89, 169, 150, 90, 76, 166, 133, 70, 20, 172, 12]).1 else d) ∘ keyed (key0 (if ((4, .xtsEnc 0 1 .equal) : Nat × Instr).1 < 4 then 0 else 2) 3) ∘ ceRuns ((4, .xtsEnc 0 1 .equal) : Nat × Instr).1 16)).dev.virtRead (whoCe (0 : Nat)) ((on ((fun d => if ((4, .xtsEnc 0 1 .equal) : Nat × Instr).1 = 1 then (d.virtWrite 0 0 0x4000002010 [151, 54, 69, 47, 243, 89, 169, 150, 90, 76, 166, 133, 70, 20, 172, 12]).1 else d) ∘ keyed (key0 (if ((4, .xtsEnc 0 1 .equal) : Nat × Instr).1 < 4 then 0 else 2) 3) ∘ ceRuns ((4, .xtsEnc 0 1 .equal) : Nat × Instr).1 16)).dev.ringAsid (0 : RingNo).val) (srcOf (((on ((fun d => if ((4, .xtsEnc 0 1 .equal) : Nat × Instr).1 = 1 then (d.virtWrite 0 0 0x4000002010 [151, 54, 69, 47, 243, 89, 169, 150, 90, 76, 166, 133, 70, 20, 172, 12]).1 else d) ∘ keyed (key0 (if ((4, .xtsEnc 0 1 .equal) : Nat × Instr).1 < 4 then 0 else 2) 3) ∘ ceRuns ((4, .xtsEnc 0 1 .equal) : Nat × Instr).1 16)).dev.item? 0 1).get (by decide +kernel) : Item).desc) (((if ((4, .xtsEnc 0 1 .equal) : Nat × Instr).1 ≤ 1 then aadLenOf (((on ((fun d => if ((4, .xtsEnc 0 1 .equal) : Nat × Instr).1 = 1 then (d.virtWrite 0 0 0x4000002010 [151, 54, 69, 47, 243, 89, 169, 150, 90, 76, 166, 133, 70, 20, 172, 12]).1 else d) ∘ keyed (key0 (if ((4, .xtsEnc 0 1 .equal) : Nat × Instr).1 < 4 then 0 else 2) 3) ∘ ceRuns ((4, .xtsEnc 0 1 .equal) : Nat × Instr).1 16)).dev.item? 0 1).get (by decide +kernel) : Item).desc else 0) : Nat) + lengthOf (((on ((fun d => if ((4, .xtsEnc 0 1 .equal) : Nat × Instr).1 = 1 then (d.virtWrite 0 0 0x4000002010 [151, 54, 69, 47, 243, 89, 169, 150, 90, 76, 166, 133, 70, 20, 172, 12]).1 else d) ∘ keyed (key0 (if ((4, .xtsEnc 0 1 .equal) : Nat × Instr).1 < 4 then 0 else 2) 3) ∘ ceRuns ((4, .xtsEnc 0 1 .equal) : Nat × Instr).1 16)).dev.item? 0 1).get (by decide +kernel) : Item).desc)).1 : Dev), VRes.ok, []) else (((on ((fun d => if ((4, .xtsEnc 0 1 .equal) : Nat × Instr).1 = 1 then (d.virtWrite 0 0 0x4000002010 [151, 54, 69, 47, 243, 89, 169, 150, 90, 76, 166, 133, 70, 20, 172, 12]).1 else d) ∘ keyed (key0 (if ((4, .xtsEnc 0 1 .equal) : Nat × Instr).1 < 4 then 0 else 2) 3) ∘ ceRuns ((4, .xtsEnc 0 1 .equal) : Nat × Instr).1 16)).dev.virtRead (whoCe (0 : Nat)) ((on ((fun d => if ((4, .xtsEnc 0 1 .equal) : Nat × Instr).1 = 1 then (d.virtWrite 0 0 0x4000002010 [151, 54, 69, 47, 243, 89, 169, 150, 90, 76, 166, 133, 70, 20, 172, 12]).1 else d) ∘ keyed (key0 (if ((4, .xtsEnc 0 1 .equal) : Nat × Instr).1 < 4 then 0 else 2) 3) ∘ ceRuns ((4, .xtsEnc 0 1 .equal) : Nat × Instr).1 16)).dev.ringAsid (0 : RingNo).val) (srcOf (((on ((fun d => if ((4, .xtsEnc 0 1 .equal) : Nat × Instr).1 = 1 then (d.virtWrite 0 0 0x4000002010 [151, 54, 69, 47, 243, 89, 169, 150, 90, 76, 166, 133, 70, 20, 172, 12]).1 else d) ∘ keyed (key0 (if ((4, .xtsEnc 0 1 .equal) : Nat × Instr).1 < 4 then 0 else 2) 3) ∘ ceRuns ((4, .xtsEnc 0 1 .equal) : Nat × Instr).1 16)).dev.item? 0 1).get (by decide +kernel) : Item).desc) (((if ((4, .xtsEnc 0 1 .equal) : Nat × Instr).1 ≤ 1 then aadLenOf (((on ((fun d => if ((4, .xtsEnc 0 1 .equal) : Nat × Instr).1 = 1 then (d.virtWrite 0 0 0x4000002010 [151, 54, 69, 47, 243, 89, 169, 150, 90, 76, 166, 133, 70, 20, 172, 12]).1 else d) ∘ keyed (key0 (if ((4, .xtsEnc 0 1 .equal) : Nat × Instr).1 < 4 then 0 else 2) 3) ∘ ceRuns ((4, .xtsEnc 0 1 .equal) : Nat × Instr).1 16)).dev.item? 0 1).get (by decide +kernel) : Item).desc else 0) : Nat) + lengthOf (((on ((fun d => if ((4, .xtsEnc 0 1 .equal) : Nat × Instr).1 = 1 then (d.virtWrite 0 0 0x4000002010 [151, 54, 69, 47, 243, 89, 169, 150, 90, 76, 166, 133, 70, 20, 172, 12]).1 else d) ∘ keyed (key0 (if ((4, .xtsEnc 0 1 .equal) : Nat × Instr).1 < 4 then 0 else 2) 3) ∘ ceRuns ((4, .xtsEnc 0 1 .equal) : Nat × Instr).1 16)).dev.item? 0 1).get (by decide +kernel) : Item).desc)).1 : Dev).virtRead (whoCe (0 : Nat)) ((on ((fun d => if ((4, .xtsEnc 0 1 .equal) : Nat × Instr).1 = 1 then (d.virtWrite 0 0 0x4000002010 [151, 54, 69, 47, 243, 89, 169, 150, 90, 76, 166, 133, 70, 20, 172, 12]).1 else d) ∘ keyed (key0 (if ((4, .xtsEnc 0 1 .equal) : Nat × Instr).1 < 4 then 0 else 2) 3) ∘ ceRuns ((4, .xtsEnc 0 1 .equal) : Nat × Instr).1 16)).dev.ringAsid (0 : RingNo).val) (paramOf (((on ((fun d => if ((4, .xtsEnc 0 1 .equal) : Nat × Instr).1 = 1 then (d.virtWrite 0 0 0x4000002010 [151, 54, 69, 47, 243, 89, 169, 150, 90, 76, 166, 133, 70, 20, 172, 12]).1 else d) ∘ keyed (key0 (if ((4, .xtsEnc 0 1 .equal) : Nat × Instr).1 < 4 then 0 else 2) 3) ∘ ceRuns ((4, .xtsEnc 0 1 .equal) : Nat × Instr).1 16)).dev.item? 0 1).get (by decide +kernel) : Item).desc) 32).2.2, (((if ((4, .xtsEnc 0 1 .equal) : Nat × Instr).1 = 0 ∨ ((4, .xtsEnc 0 1 .equal) : Nat × Instr).1 = 2 then ((((on ((fun d => if ((4, .xtsEnc 0 1 .equal) : Nat × Instr).1 = 1 then (d.virtWrite 0 0 0x4000002010 [151, 54, 69, 47, 243, 89, 169, 150, 90, 76, 166, 133, 70, 20, 172, 12]).1 else d) ∘ keyed (key0 (if ((4, .xtsEnc 0 1 .equal) : Nat × Instr).1 < 4 then 0 else 2) 3) ∘ ceRuns ((4, .xtsEnc 0 1 .equal) : Nat × Instr).1 16)).dev.virtRead (whoCe (0 : Nat)) ((on ((fun d => if ((4, .xtsEnc 0 1 .equal) : Nat × Instr).1 = 1 then (d.virtWrite 0 0 0x4000002010 [151, 54, 69, 47, 243, 89, 169, 150, 90, 76, 166, 133, 70, 20, 172, 12]).1 else d) ∘ keyed (key0 (if ((4, .xtsEnc 0 1 .equal) : Nat × Instr).1 < 4 then 0 else 2) 3) ∘ ceRuns ((4, .xtsEnc 0 1 .equal) : Nat × Instr).1 16)).dev.ringAsid (0 : RingNo).val) (srcOf (((on ((fun d => if ((4, .xtsEnc 0 1 .equal) : Nat × Instr).1 = 1 then (d.virtWrite 0 0 0x4000002010 [151, 54, 69, 47, 243, 89, 169, 150, 90, 76, 166, 133, 70, 20, 172, 12]).1 else d) ∘ keyed (key0 (if ((4, .xtsEnc 0 1 .equal) : Nat × Instr).1 < 4 then 0 else 2) 3) ∘ ceRuns ((4, .xtsEnc 0 1 .equal) : Nat × Instr).1 16)).dev.item? 0 1).get (by decide +kernel) : Item).desc) (((if ((4, .xtsEnc 0 1 .equal) : Nat × Instr).1 ≤ 1 then aadLenOf (((on ((fun d => if ((4, .xtsEnc 0 1 .equal) : Nat × Instr).1 = 1 then (d.virtWrite 0 0 0x4000002010 [151, 54, 69, 47, 243, 89, 169, 150, 90, 76, 166, 133, 70, 20, 172, 12]).1 else d) ∘ keyed (key0 (if ((4, .xtsEnc 0 1 .equal) : Nat × Instr).1 < 4 then 0 else 2) 3) ∘ ceRuns ((4, .xtsEnc 0 1 .equal) : Nat × Instr).1 16)).dev.item? 0 1).get (by decide +kernel) : Item).desc else 0) : Nat) + lengthOf (((on ((fun d => if ((4, .xtsEnc 0 1 .equal) : Nat × Instr).1 = 1 then (d.virtWrite 0 0 0x4000002010 [151, 54, 69, 47, 243, 89, 169, 150, 90, 76, 166, 133, 70, 20, 172, 12]).1 else d) ∘ keyed (key0 (if ((4, .xtsEnc 0 1 .equal) : Nat × Instr).1 < 4 then 0 else 2) 3) ∘ ceRuns ((4, .xtsEnc 0 1 .equal) : Nat × Instr).1 16)).dev.item? 0 1).get (by decide +kernel) : Item).desc)).1 : Dev), VRes.ok, []) else (((on ((fun d => if ((4, .xtsEnc 0 1 .equal) : Nat × Instr).1 = 1 then (d.virtWrite 0 0 0x4000002010 [151, 54, 69, 47, 243, 89, 169, 150, 90, 76, 166, 133, 70, 20, 172, 12]).1 else d) ∘ keyed (key0 (if ((4, .xtsEnc 0 1 .equal) : Nat × Instr).1 < 4 then 0 else 2) 3) ∘ ceRuns ((4, .xtsEnc 0 1 .equal) : Nat × Instr).1 16)).dev.virtRead (whoCe (0 : Nat)) ((on ((fun d => if ((4, .xtsEnc 0 1 .equal) : Nat × Instr).1 = 1 then (d.virtWrite 0 0 0x4000002010 [151, 54, 69, 47, 243, 89, 169, 150, 90, 76, 166, 133, 70, 20, 172, 12]).1 else d) ∘ keyed (key0 (if ((4, .xtsEnc 0 1 .equal) : Nat × Instr).1 < 4 then 0 else 2) 3) ∘ ceRuns ((4, .xtsEnc 0 1 .equal) : Nat × Instr).1 16)).dev.ringAsid (0 : RingNo).val) (srcOf (((on ((fun d => if ((4, .xtsEnc 0 1 .equal) : Nat × Instr).1 = 1 then (d.virtWrite 0 0 0x4000002010 [151, 54, 69, 47, 243, 89, 169, 150, 90, 76, 166, 133, 70, 20, 172, 12]).1 else d) ∘ keyed (key0 (if ((4, .xtsEnc 0 1 .equal) : Nat × Instr).1 < 4 then 0 else 2) 3) ∘ ceRuns ((4, .xtsEnc 0 1 .equal) : Nat × Instr).1 16)).dev.item? 0 1).get (by decide +kernel) : Item).desc) (((if ((4, .xtsEnc 0 1 .equal) : Nat × Instr).1 ≤ 1 then aadLenOf (((on ((fun d => if ((4, .xtsEnc 0 1 .equal) : Nat × Instr).1 = 1 then (d.virtWrite 0 0 0x4000002010 [151, 54, 69, 47, 243, 89, 169, 150, 90, 76, 166, 133, 70, 20, 172, 12]).1 else d) ∘ keyed (key0 (if ((4, .xtsEnc 0 1 .equal) : Nat × Instr).1 < 4 then 0 else 2) 3) ∘ ceRuns ((4, .xtsEnc 0 1 .equal) : Nat × Instr).1 16)).dev.item? 0 1).get (by decide +kernel) : Item).desc else 0) : Nat) + lengthOf (((on ((fun d => if ((4, .xtsEnc 0 1 .equal) : Nat × Instr).1 = 1 then (d.virtWrite 0 0 0x4000002010 [151, 54, 69, 47, 243, 89, 169, 150, 90, 76, 166, 133, 70, 20, 172, 12]).1 else d) ∘ keyed (key0 (if ((4, .xtsEnc 0 1 .equal) : Nat × Instr).1 < 4 then 0 else 2) 3) ∘ ceRuns ((4, .xtsEnc 0 1 .equal) : Nat × Instr).1 16)).dev.item? 0 1).get (by decide +kernel) : Item).desc)).1 : Dev).virtRead (whoCe (0 : Nat)) ((on ((fun d => if ((4, .xtsEnc 0 1 .equal) : Nat × Instr).1 = 1 then (d.virtWrite 0 0 0x4000002010 [151, 54, 69, 47, 243, 89, 169, 150, 90, 76, 166, 133, 70, 20, 172, 12]).1 else d) ∘ keyed (key0 (if ((4, .xtsEnc 0 1 .equal) : Nat × Instr).1 < 4 then 0 else 2) 3) ∘ ceRuns ((4, .xtsEnc 0 1 .equal) : Nat × Instr).1 16)).dev.ringAsid (0 : RingNo).val) (paramOf (((on ((fun d => if ((4, .xtsEnc 0 1 .equal) : Nat × Instr).1 = 1 then (d.virtWrite 0 0 0x4000002010 [151, 54, 69, 47, 243, 89, 169, 150, 90, 76, 166, 133, 70, 20, 172, 12]).1 else d) ∘ keyed (key0 (if ((4, .xtsEnc 0 1 .equal) : Nat × Instr).1 < 4 then 0 else 2) 3) ∘ ceRuns ((4, .xtsEnc 0 1 .equal) : Nat × Instr).1 16)).dev.item? 0 1).get (by decide +kernel) : Item).desc) 32).1 : Dev).ceCompute (((on ((fun d => if ((4, .xtsEnc 0 1 .equal) : Nat × Instr).1 = 1 then (d.virtWrite 0 0 0x4000002010 [151, 54, 69, 47, 243, 89, 169, 150, 90, 76, 166, 133, 70, 20, 172, 12]).1 else d) ∘ keyed (key0 (if ((4, .xtsEnc 0 1 .equal) : Nat × Instr).1 < 4 then 0 else 2) 3) ∘ ceRuns ((4, .xtsEnc 0 1 .equal) : Nat × Instr).1 16)).dev.item? 0 1).get (by decide +kernel) : Item) ((ofBytes (((on ((fun d => if ((4, .xtsEnc 0 1 .equal) : Nat × Instr).1 = 1 then (d.virtWrite 0 0 0x4000002010 [151, 54, 69, 47, 243, 89, 169, 150, 90, 76, 166, 133, 70, 20, 172, 12]).1 else d) ∘ keyed (key0 (if ((4, .xtsEnc 0 1 .equal) : Nat × Instr).1 < 4 then 0 else 2) 3) ∘ ceRuns ((4, .xtsEnc 0 1 .equal) : Nat × Instr).1 16)).dev.virtRead (whoCe (0 : Nat)) ((on ((fun d => if ((4, .xtsEnc 0 1 .equal) : Nat × Instr).1 = 1 then (d.virtWrite 0 0 0x4000002010 [151, 54, 69, 47, 243, 89, 169, 150, 90, 76, 166, 133, 70, 20, 172, 12]).1 else d) ∘ keyed (key0 (if ((4, .xtsEnc 0 1 .equal) : Nat × Instr).1 < 4 then 0 else 2) 3) ∘ ceRuns ((4, .xtsEnc 0 1 .equal) : Nat × Instr).1 16)).dev.ringAsid (0 : RingNo).val) (srcOf (((on ((fun d => if ((4, .xtsEnc 0 1 .equal) : Nat × Instr).1 = 1 then (d.virtWrite 0 0 0x4000002010 [151, 54, 69, 47, 243, 89, 169, 150, 90, 76, 166, 133, 70, 20, 172, 12]).1 else d) ∘ keyed (key0 (if ((4, .xtsEnc 0 1 .equal) : Nat × Instr).1 < 4 then 0 else 2) 3) ∘ ceRuns ((4, .xtsEnc 0 1 .equal) : Nat × Instr).1 16)).dev.item? 0 1).get (by decide +kernel) : Item).desc) (((if ((4, .xtsEnc 0 1 .equal) : Nat × Instr).1 ≤ 1 then aadLenOf (((on ((fun d => if ((4, .xtsEnc 0 1 .equal) : Nat × Instr).1 = 1 then (d.virtWrite 0 0 0x4000002010 [151, 54, 69, 47, 243, 89, 169, 150, 90, 76, 166, 133, 70, 20, 172, 12]).1 else d) ∘ keyed (key0 (if ((4, .xtsEnc 0 1 .equal) : Nat × Instr).1 < 4 then 0 else 2) 3) ∘ ceRuns ((4, .xtsEnc 0 1 .equal) : Nat × Instr).1 16)).dev.item? 0 1).get (by decide +kernel) : Item).desc else 0) : Nat) + lengthOf (((on ((fun d => if ((4, .xtsEnc 0 1 .equal) : Nat × Instr).1 = 1 then (d.virtWrite 0 0 0x4000002010 [151, 54, 69, 47, 243, 89, 169, 150, 90, 76, 166, 133, 70, 20, 172, 12]).1 else d) ∘ keyed (key0 (if ((4, .xtsEnc 0 1 .equal) : Nat × Instr).1 < 4 then 0 else 2) 3) ∘ ceRuns ((4, .xtsEnc 0 1 .equal) : Nat × Instr).1 16)).dev.item? 0 1).get (by decide +kernel) : Item).desc)).2.2 : List Byte)).take ((if ((4, .xtsEnc 0 1 .equal) : Nat × Instr).1 ≤ 1 then aadLenOf (((on ((fun d => if ((4, .xtsEnc 0 1 .equal) : Nat × Instr).1 = 1 then (d.virtWrite 0 0 0x4000002010 [151, 54, 69, 47, 243, 89, 169, 150, 90, 76, 166, 133, 70, 20, 172, 12]).1 else d) ∘ keyed (key0 (if ((4, .xtsEnc 0 1 .equal) : Nat × Instr).1 < 4 then 0 else 2) 3) ∘ ceRuns ((4, .xtsEnc 0 1 .equal) : Nat × Instr).1 16)).dev.item? 0 1).get (by decide +kernel) : Item).desc else 0) : Nat)) ((ofBytes (((on ((fun d => if ((4, .xtsEnc 0 1 .equal) : Nat × Instr).1 = 1 then (d.virtWrite 0 0 0x4000002010 [151, 54, 69, 47, 243, 89, 169, 150, 90, 76, 166, 133, 70, 20, 172, 12]).1 else d) ∘ keyed (key0 (if ((4, .xtsEnc 0 1 .equal) : Nat × Instr).1 < 4 then 0 else 2) 3) ∘ ceRuns ((4, .xtsEnc 0 1 .equal) : Nat × Instr).1 16)).dev.virtRead (whoCe (0 : Nat)) ((on ((fun d => if ((4, .xtsEnc 0 1 .equal) : Nat × Instr).1 = 1 then (d.virtWrite 0 0 0x4000002010 [151, 54, 69, 47, 243, 89, 169, 150, 90, 76, 166, 133, 70, 20, 172, 12]).1 else d) ∘ keyed (key0 (if ((4, .xtsEnc 0 1 .equal) : Nat × Instr).1 < 4 then 0 else 2) 3) ∘ ceRuns ((4, .xtsEnc 0 1 .equal) : Nat × Instr).1 16)).dev.ringAsid (0 : RingNo).val) (srcOf (((on ((fun d => if ((4, .xtsEnc 0 1 .equal) : Nat × Instr).1 = 1 then (d.virtWrite 0 0 0x4000002010 [151, 54, 69, 47, 243, 89, 169, 150, 90, 76, 166, 133, 70, 20, 172, 12]).1 else d) ∘ keyed (key0 (if ((4, .xtsEnc 0 1 .equal) : Nat × Instr).1 < 4 then 0 else 2) 3) ∘ ceRuns ((4, .xtsEnc 0 1 .equal) : Nat × Instr).1 16)).dev.item? 0 1).get (by decide +kernel) : Item).desc) (((if ((4, .xtsEnc 0 1 .equal) : Nat × Instr).1 ≤ 1 then aadLenOf (((on ((fun d => if ((4, .xtsEnc 0 1 .equal) : Nat × Instr).1 = 1 then (d.virtWrite 0 0 0x4000002010 [151, 54, 69, 47, 243, 89, 169, 150, 90, 76, 166, 133, 70, 20, 172, 12]).1 else d) ∘ keyed (key0 (if ((4, .xtsEnc 0 1 .equal) : Nat × Instr).1 < 4 then 0 else 2) 3) ∘ ceRuns ((4, .xtsEnc 0 1 .equal) : Nat × Instr).1 16)).dev.item? 0 1).get (by decide +kernel) : Item).desc else 0) : Nat) + lengthOf (((on ((fun d => if ((4, .xtsEnc 0 1 .equal) : Nat × Instr).1 = 1 then (d.virtWrite 0 0 0x4000002010 [151, 54, 69, 47, 243, 89, 169, 150, 90, 76, 166, 133, 70, 20, 172, 12]).1 else d) ∘ keyed (key0 (if ((4, .xtsEnc 0 1 .equal) : Nat × Instr).1 < 4 then 0 else 2) 3) ∘ ceRuns ((4, .xtsEnc 0 1 .equal) : Nat × Instr).1 16)).dev.item? 0 1).get (by decide +kernel) : Item).desc)).2.2 : List Byte)).drop ((if ((4, .xtsEnc 0 1 .equal) : Nat × Instr).1 ≤ 1 then aadLenOf (((on ((fun d => if ((4, .xtsEnc 0 1 .equal) : Nat × Instr).1 = 1 then (d.virtWrite 0 0 0x4000002010 [151, 54, 69, 47, 243, 89, 169, 150, 90, 76, 166, 133, 70, 20, 172, 12]).1 else d) ∘ keyed (key0 (if ((4, .xtsEnc 0 1 .equal) : Nat × Instr).1 < 4 then 0 else 2) 3) ∘ ceRuns ((4, .xtsEnc 0 1 .equal) : Nat × Instr).1 16)).dev.item? 0 1).get (by decide +kernel) : Item).desc else 0) : Nat)) (ofBytes ((if ((4, .xtsEnc 0 1 .equal) : Nat × Instr).1 = 0 ∨ ((4, .xtsEnc 0 1 .equal) : Nat × Instr).1 = 2 then ((((on ((fun d => if ((4, .xtsEnc 0 1 .equal) : Nat × Instr).1 = 1 then (d.virtWrite 0 0 0x4000002010 [151, 54, 69, 47, 243, 89, 169, 150, 90, 76, 166, 133, 70, 20, 172, 12]).1 else d) ∘ keyed (key0 (if ((4, .xtsEnc 0 1 .equal) : Nat × Instr).1 < 4 then 0 else 2) 3) ∘ ceRuns ((4, .xtsEnc 0 1 .equal) : Nat × Instr).1 16)).dev.virtRead (whoCe (0 : Nat)) ((on ((fun d => if ((4, .xtsEnc 0 1 .equal) : Nat × Instr).1 = 1 then (d.virtWrite 0 0 0x4000002010 [151, 54, 69, 47, 243, 89, 169, 150, 90, 76, 166, 133, 70, 20, 172, 12]).1 else d) ∘ keyed (key0 (if ((4, .xtsEnc 0 1 .equal) : Nat × Instr).1 < 4 then 0 else 2) 3) ∘ ceRuns ((4, .xtsEnc 0 1 .equal) : Nat × Instr).1 16)).dev.ringAsid (0 : RingNo).val) (srcOf (((on ((fun d => if ((4, .xtsEnc 0 1 .equal) : Nat × Instr).1 = 1 then (d.virtWrite 0 0 0x4000002010 [151, 54, 69, 47, 243, 89, 169, 150, 90, 76, 166, 133, 70, 20, 172, 12]).1 else d) ∘ keyed (key0 (if ((4, .xtsEnc 0 1 .equal) : Nat × Instr).1 < 4 then 0 else 2) 3) ∘ ceRuns ((4, .xtsEnc 0 1 .equal) : Nat × Instr).1 16)).dev.item? 0 1).get (by decide +kernel) : Item).desc) (((if ((4, .xtsEnc 0 1 .equal) : Nat × Instr).1 ≤ 1 then aadLenOf (((on ((fun d => if ((4, .xtsEnc 0 1 .equal) : Nat × Instr).1 = 1 then (d.virtWrite 0 0 0x4000002010 [151, 54, 69, 47, 243, 89, 169, 150, 90, 76, 166, 133, 70, 20, 172, 12]).1 else d) ∘ keyed (key0 (if ((4, .xtsEnc 0 1 .equal) : Nat × Instr).1 < 4 then 0 else 2) 3) ∘ ceRuns ((4, .xtsEnc 0 1 .equal) : Nat × Instr).1 16)).dev.item? 0 1).get (by decide +kernel) : Item).desc else 0) : Nat) + lengthOf (((on ((fun d => if ((4, .xtsEnc 0 1 .equal) : Nat × Instr).1 = 1 then (d.virtWrite 0 0 0x4000002010 [151, 54, 69, 47, 243, 89, 169, 150, 90, 76, 166, 133, 70, 20, 172, 12]).1 else d) ∘ keyed (key0 (if ((4, .xtsEnc 0 1 .equal) : Nat × Instr).1 < 4 then 0 else 2) 3) ∘ ceRuns ((4, .xtsEnc 0 1 .equal) : Nat × Instr).1 16)).dev.item? 0 1).get (by decide +kernel) : Item).desc)).1 : Dev), VRes.ok, []) else (((on ((fun d => if ((4, .xtsEnc 0 1 .equal) : Nat × Instr).1 = 1 then (d.virtWrite 0 0 0x4000002010 [151, 54, 69, 47, 243, 89, 169, 150, 90, 76, 166, 133, 70, 20, 172, 12]).1 else d) ∘ keyed (key0 (if ((4, .xtsEnc 0 1 .equal) : Nat × Instr).1 < 4 then 0 else 2) 3) ∘ ceRuns ((4, .xtsEnc 0 1 .equal) : Nat × Instr).1 16)).dev.virtRead (whoCe (0 : Nat)) ((on ((fun d => if ((4, .xtsEnc 0 1 .equal) : Nat × Instr).1 = 1 then (d.virtWrite 0 0 0x4000002010 [151, 54, 69, 47, 243, 89, 169, 150, 90, 76, 166, 133, 70, 20, 172, 12]).1 else d) ∘ keyed (key0 (if ((4, .xtsEnc 0 1 .equal) : Nat × Instr).1 < 4 then 0 else 2) 3) ∘ ceRuns ((4, .xtsEnc 0 1 .equal) : Nat × Instr).1 16)).dev.ringAsid (0 : RingNo).val) (srcOf (((on ((fun d => if ((4, .xtsEnc 0 1 .equal) : Nat × Instr).1 = 1 then (d.virtWrite 0 0 0x4000002010 [151, 54, 69, 47, 243, 89, 169, 150, 90, 76, 166, 133, 70, 20, 172, 12]).1 else d) ∘ keyed (key0 (if ((4, .xtsEnc 0 1 .equal) : Nat × Instr).1 < 4 then 0 else 2) 3) ∘ ceRuns ((4, .xtsEnc 0 1 .equal) : Nat × Instr).1 16)).dev.item? 0 1).get (by decide +kernel) : Item).desc) (((if ((4, .xtsEnc 0 1 .equal) : Nat × Instr).1 ≤ 1 then aadLenOf (((on ((fun d => if ((4, .xtsEnc 0 1 .equal) : Nat × Instr).1 = 1 then (d.virtWrite 0 0 0x4000002010 [151, 54, 69, 47, 243, 89, 169, 150, 90, 76, 166, 133, 70, 20, 172, 12]).1 else d) ∘ keyed (key0 (if ((4, .xtsEnc 0 1 .equal) : Nat × Instr).1 < 4 then 0 else 2) 3) ∘ ceRuns ((4, .xtsEnc 0 1 .equal) : Nat × Instr).1 16)).dev.item? 0 1).get (by decide +kernel) : Item).desc else 0) : Nat) + lengthOf (((on ((fun d => if ((4, .xtsEnc 0 1 .equal) : Nat × Instr).1 = 1 then (d.virtWrite 0 0 0x4000002010 [151, 54, 69, 47, 243, 89, 169, 150, 90, 76, 166, 133, 70, 20, 172, 12]).1 else d) ∘ keyed (key0 (if ((4, .xtsEnc 0 1 .equal) : Nat × Instr).1 < 4 then 0 else 2) 3) ∘ ceRuns ((4, .xtsEnc 0 1 .equal) : Nat × Instr).1 16)).dev.item? 0 1).get (by decide +kernel) : Item).desc)).1 : Dev).virtRead (whoCe (0 : Nat)) ((on ((fun d => if ((4, .xtsEnc 0 1 .equal) : Nat × Instr).1 = 1 then (d.virtWrite 0 0 0x4000002010 [151, 54, 69, 47, 243, 89, 169, 150, 90, 76, 166, 133, 70, 20, 172, 12]).1 else d) ∘ keyed (key0 (if ((4, .xtsEnc 0 1 .equal) : Nat × Instr).1 < 4 then 0 else 2) 3) ∘ ceRuns ((4, .xtsEnc 0 1 .equal) : Nat × Instr).1 16)).dev.ringAsid (0 : RingNo).val) (paramOf (((on ((fun d => if ((4, .xtsEnc 0 1 .equal) : Nat × Instr).1 = 1 then (d.virtWrite 0 0 0x4000002010 [151, 54, 69, 47, 243, 89, 169, 150, 90, 76, 166, 133, 70, 20, 172, 12]).1 else d) ∘ keyed (key0 (if ((4, .xtsEnc 0 1 .equal) : Nat × Instr).1 < 4 then 0 else 2) 3) ∘ ceRuns ((4, .xtsEnc 0 1 .equal) : Nat × Instr).1 16)).dev.item? 0 1).get (by decide +kernel) : Item).desc) 32).2.2 : List Byte))).2.2, (((if ((4, .xtsEnc 0 1 .equal) : Nat × Instr).1 = 0 ∨ ((4, .xtsEnc 0 1 .equal) : Nat × Instr).1 = 2 then ((((on ((fun d => if ((4, .xtsEnc 0 1 .equal) : Nat × Instr).1 = 1 then (d.virtWrite 0 0 0x4000002010 [151, 54, 69, 47, 243, 89, 169, 150, 90, 76, 166, 133, 70, 20, 172, 12]).1 else d) ∘ keyed (key0 (if ((4, .xtsEnc 0 1 .equal) : Nat × Instr).1 < 4 then 0 else 2) 3) ∘ ceRuns ((4, .xtsEnc 0 1 .equal) : Nat × Instr).1 16)).dev.virtRead (whoCe (0 : Nat)) ((on ((fun d => if ((4, .xtsEnc 0 1 .equal) : Nat × Instr).1 = 1 then (d.virtWrite 0 0 0x4000002010 [151, 54, 69, 47, 243, 89, 169, 150, 90, 76, 166, 133, 70, 20, 172, 12]).1 else d) ∘ keyed (key0 (if ((4, .xtsEnc 0 1 .equal) : Nat × Instr).1 < 4 then 0 else 2) 3) ∘ ceRuns ((4, .xtsEnc 0 1 .equal) : Nat × Instr).1 16)).dev.ringAsid (0 : RingNo).val) (srcOf (((on ((fun d => if ((4, .xtsEnc 0 1 .equal) : Nat × Instr).1 = 1 then (d.virtWrite 0 0 0x4000002010 [151, 54, 69, 47, 243, 89, 169, 150, 90, 76, 166, 133, 70, 20, 172, 12]).1 else d) ∘ keyed (key0 (if ((4, .xtsEnc 0 1 .equal) : Nat × Instr).1 < 4 then 0 else 2) 3) ∘ ceRuns ((4, .xtsEnc 0 1 .equal) : Nat × Instr).1 16)).dev.item? 0 1).get (by decide +kernel) : Item).desc) (((if ((4, .xtsEnc 0 1 .equal) : Nat × Instr).1 ≤ 1 then aadLenOf (((on ((fun d => if ((4, .xtsEnc 0 1 .equal) : Nat × Instr).1 = 1 then (d.virtWrite 0 0 0x4000002010 [151, 54, 69, 47, 243, 89, 169, 150, 90, 76, 166, 133, 70, 20, 172, 12]).1 else d) ∘ keyed (key0 (if ((4, .xtsEnc 0 1 .equal) : Nat × Instr).1 < 4 then 0 else 2) 3) ∘ ceRuns ((4, .xtsEnc 0 1 .equal) : Nat × Instr).1 16)).dev.item? 0 1).get (by decide +kernel) : Item).desc else 0) : Nat) + lengthOf (((on ((fun d => if ((4, .xtsEnc 0 1 .equal) : Nat × Instr).1 = 1 then (d.virtWrite 0 0 0x4000002010 [151, 54, 69, 47, 243, 89, 169, 150, 90, 76, 166, 133, 70, 20, 172, 12]).1 else d) ∘ keyed (key0 (if ((4, .xtsEnc 0 1 .equal) : Nat × Instr).1 < 4 then 0 else 2) 3) ∘ ceRuns ((4, .xtsEnc 0 1 .equal) : Nat × Instr).1 16)).dev.item? 0 1).get (by decide +kernel) : Item).desc)).1 : Dev), VRes.ok, []) else (((on ((fun d => if ((4, .xtsEnc 0 1 .equal) : Nat × Instr).1 = 1 then (d.virtWrite 0 0 0x4000002010 [151, 54, 69, 47, 243, 89, 169, 150, 90, 76, 166, 133, 70, 20, 172, 12]).1 else d) ∘ keyed (key0 (if ((4, .xtsEnc 0 1 .equal) : Nat × Instr).1 < 4 then 0 else 2) 3) ∘ ceRuns ((4, .xtsEnc 0 1 .equal) : Nat × Instr).1 16)).dev.virtRead (whoCe (0 : Nat)) ((on ((fun d => if ((4, .xtsEnc 0 1 .equal) : Nat × Instr).1 = 1 then (d.virtWrite 0 0 0x4000002010 [151, 54, 69, 47, 243, 89, 169, 150, 90, 76, 166, 133, 70, 20, 172, 12]).1 else d) ∘ keyed (key0 (if ((4, .xtsEnc 0 1 .equal) : Nat × Instr).1 < 4 then 0 else 2) 3) ∘ ceRuns ((4, .xtsEnc 0 1 .equal) : Nat × Instr).1 16)).dev.ringAsid (0 : RingNo).val) (srcOf (((on ((fun d => if ((4, .xtsEnc 0 1 .equal) : Nat × Instr).1 = 1 then (d.virtWrite 0 0 0x4000002010 [151, 54, 69, 47, 243, 89, 169, 150, 90, 76, 166, 133, 70, 20, 172, 12]).1 else d) ∘ keyed (key0 (if ((4, .xtsEnc 0 1 .equal) : Nat × Instr).1 < 4 then 0 else 2) 3) ∘ ceRuns ((4, .xtsEnc 0 1 .equal) : Nat × Instr).1 16)).dev.item? 0 1).get (by decide +kernel) : Item).desc) (((if ((4, .xtsEnc 0 1 .equal) : Nat × Instr).1 ≤ 1 then aadLenOf (((on ((fun d => if ((4, .xtsEnc 0 1 .equal) : Nat × Instr).1 = 1 then (d.virtWrite 0 0 0x4000002010 [151, 54, 69, 47, 243, 89, 169, 150, 90, 76, 166, 133, 70, 20, 172, 12]).1 else d) ∘ keyed (key0 (if ((4, .xtsEnc 0 1 .equal) : Nat × Instr).1 < 4 then 0 else 2) 3) ∘ ceRuns ((4, .xtsEnc 0 1 .equal) : Nat × Instr).1 16)).dev.item? 0 1).get (by decide +kernel) : Item).desc else 0) : Nat) + lengthOf (((on ((fun d => if ((4, .xtsEnc 0 1 .equal) : Nat × Instr).1 = 1 then (d.virtWrite 0 0 0x4000002010 [151, 54, 69, 47, 243, 89, 169, 150, 90, 76, 166, 133, 70, 20, 172, 12]).1 else d) ∘ keyed (key0 (if ((4, .xtsEnc 0 1 .equal) : Nat × Instr).1 < 4 then 0 else 2) 3) ∘ ceRuns ((4, .xtsEnc 0 1 .equal) : Nat × Instr).1 16)).dev.item? 0 1).get (by decide +kernel) : Item).desc)).1 : Dev).virtRead (whoCe (0 : Nat)) ((on ((fun d => if ((4, .xtsEnc 0 1 .equal) : Nat × Instr).1 = 1 then (d.virtWrite 0 0 0x4000002010 [151, 54, 69, 47, 243, 89, 169, 150, 90, 76, 166, 133, 70, 20, 172, 12]).1 else d) ∘ keyed (key0 (if ((4, .xtsEnc 0 1 .equal) : Nat × Instr).1 < 4 then 0 else 2) 3) ∘ ceRuns ((4, .xtsEnc 0 1 .equal) : Nat × Instr).1 16)).dev.ringAsid (0 : RingNo).val) (paramOf (((on ((fun d => if ((4, .xtsEnc 0 1 .equal) : Nat × Instr).1 = 1 then (d.virtWrite 0 0 0x4000002010 [151, 54, 69, 47, 243, 89, 169, 150, 90, 76, 166, 133, 70, 20, 172, 12]).1 else d) ∘ keyed (key0 (if ((4, .xtsEnc 0 1 .equal) : Nat × Instr).1 < 4 then 0 else 2) 3) ∘ ceRuns ((4, .xtsEnc 0 1 .equal) : Nat × Instr).1 16)).dev.item? 0 1).get (by decide +kernel) : Item).desc) 32).1 : Dev).ceCompute (((on ((fun d => if ((4, .xtsEnc 0 1 .equal) : Nat × Instr).1 = 1 then (d.virtWrite 0 0 0x4000002010 [151, 54, 69, 47, 243, 89, 169, 150, 90, 76, 166, 133, 70, 20, 172, 12]).1 else d) ∘ keyed (key0 (if ((4, .xtsEnc 0 1 .equal) : Nat × Instr).1 < 4 then 0 else 2) 3) ∘ ceRuns ((4, .xtsEnc 0 1 .equal) : Nat × Instr).1 16)).dev.item? 0 1).get (by decide +kernel) : Item) ((ofBytes (((on ((fun d => if ((4, .xtsEnc 0 1 .equal) : Nat × Instr).1 = 1 then (d.virtWrite 0 0 0x4000002010 [151, 54, 69, 47, 243, 89, 169, 150, 90, 76, 166, 133, 70, 20, 172, 12]).1 else d) ∘ keyed (key0 (if ((4, .xtsEnc 0 1 .equal) : Nat × Instr).1 < 4 then 0 else 2) 3) ∘ ceRuns ((4, .xtsEnc 0 1 .equal) : Nat × Instr).1 16)).dev.virtRead (whoCe (0 : Nat)) ((on ((fun d => if ((4, .xtsEnc 0 1 .equal) : Nat × Instr).1 = 1 then (d.virtWrite 0 0 0x4000002010 [151, 54, 69, 47, 243, 89, 169, 150, 90, 76, 166, 133, 70, 20, 172, 12]).1 else d) ∘ keyed (key0 (if ((4, .xtsEnc 0 1 .equal) : Nat × Instr).1 < 4 then 0 else 2) 3) ∘ ceRuns ((4, .xtsEnc 0 1 .equal) : Nat × Instr).1 16)).dev.ringAsid (0 : RingNo).val) (srcOf (((on ((fun d => if ((4, .xtsEnc 0 1 .equal) : Nat × Instr).1 = 1 then (d.virtWrite 0 0 0x4000002010 [151, 54, 69, 47, 243, 89, 169, 150, 90, 76, 166, 133, 70, 20, 172, 12]).1 else d) ∘ keyed (key0 (if ((4, .xtsEnc 0 1 .equal) : Nat × Instr).1 < 4 then 0 else 2) 3) ∘ ceRuns ((4, .xtsEnc 0 1 .equal) : Nat × Instr).1 16)).dev.item? 0 1).get (by decide +kernel) : Item).desc) (((if ((4, .xtsEnc 0 1 .equal) : Nat × Instr).1 ≤ 1 then aadLenOf (((on ((fun d => if ((4, .xtsEnc 0 1 .equal) : Nat × Instr).1 = 1 then (d.virtWrite 0 0 0x4000002010 [151, 54, 69, 47, 243, 89, 169, 150, 90, 76, 166, 133, 70, 20, 172, 12]).1 else d) ∘ keyed (key0 (if ((4, .xtsEnc 0 1 .equal) : Nat × Instr).1 < 4 then 0 else 2) 3) ∘ ceRuns ((4, .xtsEnc 0 1 .equal) : Nat × Instr).1 16)).dev.item? 0 1).get (by decide +kernel) : Item).desc else 0) : Nat) + lengthOf (((on ((fun d => if ((4, .xtsEnc 0 1 .equal) : Nat × Instr).1 = 1 then (d.virtWrite 0 0 0x4000002010 [151, 54, 69, 47, 243, 89, 169, 150, 90, 76, 166, 133, 70, 20, 172, 12]).1 else d) ∘ keyed (key0 (if ((4, .xtsEnc 0 1 .equal) : Nat × Instr).1 < 4 then 0 else 2) 3) ∘ ceRuns ((4, .xtsEnc 0 1 .equal) : Nat × Instr).1 16)).dev.item? 0 1).get (by decide +kernel) : Item).desc)).2.2 : List Byte)).take ((if ((4, .xtsEnc 0 1 .equal) : Nat × Instr).1 ≤ 1 then aadLenOf (((on ((fun d => if ((4, .xtsEnc 0 1 .equal) : Nat × Instr).1 = 1 then (d.virtWrite 0 0 0x4000002010 [151, 54, 69, 47, 243, 89, 169, 150, 90, 76, 166, 133, 70, 20, 172, 12]).1 else d) ∘ keyed (key0 (if ((4, .xtsEnc 0 1 .equal) : Nat × Instr).1 < 4 then 0 else 2) 3) ∘ ceRuns ((4, .xtsEnc 0 1 .equal) : Nat × Instr).1 16)).dev.item? 0 1).get (by decide +kernel) : Item).desc else 0) : Nat)) ((ofBytes (((on ((fun d => if ((4, .xtsEnc 0 1 .equal) : Nat × Instr).1 = 1 then (d.virtWrite 0 0 0x4000002010 [151, 54, 69, 47, 243, 89, 169, 150, 90, 76, 166, 133, 70, 20, 172, 12]).1 else d) ∘ keyed (key0 (if ((4, .xtsEnc 0 1 .equal) : Nat × Instr).1 < 4 then 0 else 2) 3) ∘ ceRuns ((4, .xtsEnc 0 1 .equal) : Nat × Instr).1 16)).dev.virtRead (whoCe (0 : Nat)) ((on ((fun d => if ((4, .xtsEnc 0 1 .equal) : Nat × Instr).1 = 1 then (d.virtWrite 0 0 0x4000002010 [151, 54, 69, 47, 243, 89, 169, 150, 90, 76, 166, 133, 70, 20, 172, 12]).1 else d) ∘ keyed (key0 (if ((4, .xtsEnc 0 1 .equal) : Nat × Instr).1 < 4 then 0 else 2) 3) ∘ ceRuns ((4, .xtsEnc 0 1 .equal) : Nat × Instr).1 16)).dev.ringAsid (0 : RingNo).val) (srcOf (((on ((fun d => if ((4, .xtsEnc 0 1 .equal) : Nat × Instr).1 = 1 then (d.virtWrite 0 0 0x4000002010 [151, 54, 69, 47, 243, 89, 169, 150, 90, 76, 166, 133, 70, 20, 172, 12]).1 else d) ∘ keyed (key0 (if ((4, .xtsEnc 0 1 .equal) : Nat × Instr).1 < 4 then 0 else 2) 3) ∘ ceRuns ((4, .xtsEnc 0 1 .equal) : Nat × Instr).1 16)).dev.item? 0 1).get (by decide +kernel) : Item).desc) (((if ((4, .xtsEnc 0 1 .equal) : Nat × Instr).1 ≤ 1 then aadLenOf (((on ((fun d => if ((4, .xtsEnc 0 1 .equal) : Nat × Instr).1 = 1 then (d.virtWrite 0 0 0x4000002010 [151, 54, 69, 47, 243, 89, 169, 150, 90, 76, 166, 133, 70, 20, 172, 12]).1 else d) ∘ keyed (key0 (if ((4, .xtsEnc 0 1 .equal) : Nat × Instr).1 < 4 then 0 else 2) 3) ∘ ceRuns ((4, .xtsEnc 0 1 .equal) : Nat × Instr).1 16)).dev.item? 0 1).get (by decide +kernel) : Item).desc else 0) : Nat) + lengthOf (((on ((fun d => if ((4, .xtsEnc 0 1 .equal) : Nat × Instr).1 = 1 then (d.virtWrite 0 0 0x4000002010 [151, 54, 69, 47, 243, 89, 169, 150, 90, 76, 166, 133, 70, 20, 172, 12]).1 else d) ∘ keyed (key0 (if ((4, .xtsEnc 0 1 .equal) : Nat × Instr).1 < 4 then 0 else 2) 3) ∘ ceRuns ((4, .xtsEnc 0 1 .equal) : Nat × Instr).1 16)).dev.item? 0 1).get (by decide +kernel) : Item).desc)).2.2 : List Byte)).drop ((if ((4, .xtsEnc 0 1 .equal) : Nat × Instr).1 ≤ 1 then aadLenOf (((on ((fun d => if ((4, .xtsEnc 0 1 .equal) : Nat × Instr).1 = 1 then (d.virtWrite 0 0 0x4000002010 [151, 54, 69, 47, 243, 89, 169, 150, 90, 76, 166, 133, 70, 20, 172, 12]).1 else d) ∘ keyed (key0 (if ((4, .xtsEnc 0 1 .equal) : Nat × Instr).1 < 4 then 0 else 2) 3) ∘ ceRuns ((4, .xtsEnc 0 1 .equal) : Nat × Instr).1 16)).dev.item? 0 1).get (by decide +kernel) : Item).desc else 0) : Nat)) (ofBytes ((if ((4, .xtsEnc 0 1 .equal) : Nat × Instr).1 = 0 ∨ ((4, .xtsEnc 0 1 .equal) : Nat × Instr).1 = 2 then ((((on ((fun d => if ((4, .xtsEnc 0 1 .equal) : Nat × Instr).1 = 1 then (d.virtWrite 0 0 0x4000002010 [151, 54, 69, 47, 243, 89, 169, 150, 90, 76, 166, 133, 70, 20, 172, 12]).1 else d) ∘ keyed (key0 (if ((4, .xtsEnc 0 1 .equal) : Nat × Instr).1 < 4 then 0 else 2) 3) ∘ ceRuns ((4, .xtsEnc 0 1 .equal) : Nat × Instr).1 16)).dev.virtRead (whoCe (0 : Nat)) ((on ((fun d => if ((4, .xtsEnc 0 1 .equal) : Nat × Instr).1 = 1 then (d.virtWrite 0 0 0x4000002010 [151, 54, 69, 47, 243, 89, 169, 150, 90, 76, 166, 133, 70, 20, 172, 12]).1 else d) ∘ keyed (key0 (if ((4, .xtsEnc 0 1 .equal) : Nat × Instr).1 < 4 then 0 else 2) 3) ∘ ceRuns ((4, .xtsEnc 0 1 .equal) : Nat × Instr).1 16)).dev.ringAsid (0 : RingNo).val) (srcOf (((on ((fun d => if ((4, .xtsEnc 0 1 .equal) : Nat × Instr).1 = 1 then (d.virtWrite 0 0 0x4000002010 [151, 54, 69, 47, 243, 89, 169, 150, 90, 76, 166, 133, 70, 20, 172, 12]).1 else d) ∘ keyed (key0 (if ((4, .xtsEnc 0 1 .equal) : Nat × Instr).1 < 4 then 0 else 2) 3) ∘ ceRuns ((4, .xtsEnc 0 1 .equal) : Nat × Instr).1 16)).dev.item? 0 1).get (by decide +kernel) : Item).desc) (((if ((4, .xtsEnc 0 1 .equal) : Nat × Instr).1 ≤ 1 then aadLenOf (((on ((fun d => if ((4, .xtsEnc 0 1 .equal) : Nat × Instr).1 = 1 then (d.virtWrite 0 0 0x4000002010 [151, 54, 69, 47, 243, 89, 169, 150, 90, 76, 166, 133, 70, 20, 172, 12]).1 else d) ∘ keyed (key0 (if ((4, .xtsEnc 0 1 .equal) : Nat × Instr).1 < 4 then 0 else 2) 3) ∘ ceRuns ((4, .xtsEnc 0 1 .equal) : Nat × Instr).1 16)).dev.item? 0 1).get (by decide +kernel) : Item).desc else 0) : Nat) + lengthOf (((on ((fun d => if ((4, .xtsEnc 0 1 .equal) : Nat × Instr).1 = 1 then (d.virtWrite 0 0 0x4000002010 [151, 54, 69, 47, 243, 89, 169, 150, 90, 76, 166, 133, 70, 20, 172, 12]).1 else d) ∘ keyed (key0 (if ((4, .xtsEnc 0 1 .equal) : Nat × Instr).1 < 4 then 0 else 2) 3) ∘ ceRuns ((4, .xtsEnc 0 1 .equal) : Nat × Instr).1 16)).dev.item? 0 1).get (by decide +kernel) : Item).desc)).1 : Dev), VRes.ok, []) else (((on ((fun d => if ((4, .xtsEnc 0 1 .equal) : Nat × Instr).1 = 1 then (d.virtWrite 0 0 0x4000002010 [151, 54, 69, 47, 243, 89, 169, 150, 90, 76, 166, 133, 70, 20, 172, 12]).1 else d) ∘ keyed (key0 (if ((4, .xtsEnc 0 1 .equal) : Nat × Instr).1 < 4 then 0 else 2) 3) ∘ ceRuns ((4, .xtsEnc 0 1 .equal) : Nat × Instr).1 16)).dev.virtRead (whoCe (0 : Nat)) ((on ((fun d => if ((4, .xtsEnc 0 1 .equal) : Nat × Instr).1 = 1 then (d.virtWrite 0 0 0x4000002010 [151, 54, 69, 47, 243, 89, 169, 150, 90, 76, 166, 133, 70, 20, 172, 12]).1 else d) ∘ keyed (key0 (if ((4, .xtsEnc 0 1 .equal) : Nat × Instr).1 < 4 then 0 else 2) 3) ∘ ceRuns ((4, .xtsEnc 0 1 .equal) : Nat × Instr).1 16)).dev.ringAsid (0 : RingNo).val) (srcOf (((on ((fun d => if ((4, .xtsEnc 0 1 .equal) : Nat × Instr).1 = 1 then (d.virtWrite 0 0 0x4000002010 [151, 54, 69, 47, 243, 89, 169, 150, 90, 76, 166, 133, 70, 20, 172, 12]).1 else d) ∘ keyed (key0 (if ((4, .xtsEnc 0 1 .equal) : Nat × Instr).1 < 4 then 0 else 2) 3) ∘ ceRuns ((4, .xtsEnc 0 1 .equal) : Nat × Instr).1 16)).dev.item? 0 1).get (by decide +kernel) : Item).desc) (((if ((4, .xtsEnc 0 1 .equal) : Nat × Instr).1 ≤ 1 then aadLenOf (((on ((fun d => if ((4, .xtsEnc 0 1 .equal) : Nat × Instr).1 = 1 then (d.virtWrite 0 0 0x4000002010 [151, 54, 69, 47, 243, 89, 169, 150, 90, 76, 166, 133, 70, 20, 172, 12]).1 else d) ∘ keyed (key0 (if ((4, .xtsEnc 0 1 .equal) : Nat × Instr).1 < 4 then 0 else 2) 3) ∘ ceRuns ((4, .xtsEnc 0 1 .equal) : Nat × Instr).1 16)).dev.item? 0 1).get (by decide +kernel) : Item).desc else 0) : Nat) + lengthOf (((on ((fun d => if ((4, .xtsEnc 0 1 .equal) : Nat × Instr).1 = 1 then (d.virtWrite 0 0 0x4000002010 [151, 54, 69, 47, 243, 89, 169, 150, 90, 76, 166, 133, 70, 20, 172, 12]).1 else d) ∘ keyed (key0 (if ((4, .xtsEnc 0 1 .equal) : Nat × Instr).1 < 4 then 0 else 2) 3) ∘ ceRuns ((4, .xtsEnc 0 1 .equal) : Nat × Instr).1 16)).dev.item? 0 1).get (by decide +kernel) : Item).desc)).1 : Dev).virtRead (whoCe (0 : Nat)) ((on ((fun d => if ((4, .xtsEnc 0 1 .equal) : Nat × Instr).1 = 1 then (d.virtWrite 0 0 0x4000002010 [151, 54, 69, 47, 243, 89, 169, 150, 90, 76, 166, 133, 70, 20, 172, 12]).1 else d) ∘ keyed (key0 (if ((4, .xtsEnc 0 1 .equal) : Nat × Instr).1 < 4 then 0 else 2) 3) ∘ ceRuns ((4, .xtsEnc 0 1 .equal) : Nat × Instr).1 16)).dev.ringAsid (0 : RingNo).val) (paramOf (((on ((fun d => if ((4, .xtsEnc 0 1 .equal) : Nat × Instr).1 = 1 then (d.virtWrite 0 0 0x4000002010 [151, 54, 69, 47, 243, 89, 169, 150, 90, 76, 166, 133, 70, 20, 172, 12]).1 else d) ∘ keyed (key0 (if ((4, .xtsEnc 0 1 .equal) : Nat × Instr).1 < 4 then 0 else 2) 3) ∘ ceRuns ((4, .xtsEnc 0 1 .equal) : Nat × Instr).1 16)).dev.item? 0 1).get (by decide +kernel) : Item).desc) 32).2.2 : List Byte))).1, by decide +kernel⟩,
    ⟨on (keyed (key0 0 3) ∘ ceRuns 1 16), 0, 1, 0, ((on (keyed (key0 0 3) ∘ ceRuns 1 16)).dev.item? 0 1).get (by decide +kernel), ((on (keyed (key0 0 3) ∘ ceRuns 1 16)).dev.virtRead (whoCe (0 : Nat)) ((on (keyed (key0 0 3) ∘ ceRuns 1 16)).dev.ringAsid (0 : RingNo).val) (srcOf (((on (keyed (key0 0 3) ∘ ceRuns 1 16)).dev.item? 0 1).get (by decide +kernel) : Item).desc) (aadLenOf (((on (keyed (key0 0 3) ∘ ceRuns 1 16)).dev.item? 0 1).get (by decide +kernel) : Item).desc + lengthOf (((on (keyed (key0 0 3) ∘ ceRuns 1 16)).dev.item? 0 1).get (by decide +kernel) : Item).desc)).1, ((((on (keyed (key0 0 3) ∘ ceRuns 1 16)).dev.virtRead (whoCe (0 : Nat)) ((on (keyed (key0 0 3) ∘ ceRuns 1 16)).dev.ringAsid (0 : RingNo).val) (srcOf (((on (keyed (key0 0 3) ∘ ceRuns 1 16)).dev.item? 0 1).get (by decide +kernel) : Item).desc) (aadLenOf (((on (keyed (key0 0 3) ∘ ceRuns 1 16)).dev.item? 0 1).get (by decide +kernel) : Item).desc + lengthOf (((on (keyed (key0 0 3) ∘ ceRuns 1 16)).dev.item? 0 1).get (by decide +kernel) : Item).desc)).1 : Dev).virtRead (whoCe (0 : Nat)) ((on (keyed (key0 0 3) ∘ ceRuns 1 16)).dev.ringAsid (0 : RingNo).val) (paramOf (((on (keyed (key0 0 3) ∘ ceRuns 1 16)).dev.item? 0 1).get (by decide +kernel) : Item).desc) 32).1, ((on (keyed (key0 0 3) ∘ ceRuns 1 16)).dev.virtRead (whoCe (0 : Nat)) ((on (keyed (key0 0 3) ∘ ceRuns 1 16)).dev.ringAsid (0 : RingNo).val) (srcOf (((on (keyed (key0 0 3) ∘ ceRuns 1 16)).dev.item? 0 1).get (by decide +kernel) : Item).desc) (aadLenOf (((on (keyed (key0 0 3) ∘ ceRuns 1 16)).dev.item? 0 1).get (by decide +kernel) : Item).desc + lengthOf (((on (keyed (key0 0 3) ∘ ceRuns 1 16)).dev.item? 0 1).get (by decide +kernel) : Item).desc)).2.2, ((((on (keyed (key0 0 3) ∘ ceRuns 1 16)).dev.virtRead (whoCe (0 : Nat)) ((on (keyed (key0 0 3) ∘ ceRuns 1 16)).dev.ringAsid (0 : RingNo).val) (srcOf (((on (keyed (key0 0 3) ∘ ceRuns 1 16)).dev.item? 0 1).get (by decide +kernel) : Item).desc) (aadLenOf (((on (keyed (key0 0 3) ∘ ceRuns 1 16)).dev.item? 0 1).get (by decide +kernel) : Item).desc + lengthOf (((on (keyed (key0 0 3) ∘ ceRuns 1 16)).dev.item? 0 1).get (by decide +kernel) : Item).desc)).1 : Dev).virtRead (whoCe (0 : Nat)) ((on (keyed (key0 0 3) ∘ ceRuns 1 16)).dev.ringAsid (0 : RingNo).val) (paramOf (((on (keyed (key0 0 3) ∘ ceRuns 1 16)).dev.item? 0 1).get (by decide +kernel) : Item).desc) 32).2.2, [], ((((((on (keyed (key0 0 3) ∘ ceRuns 1 16)).dev.virtRead (whoCe (0 : Nat)) ((on (keyed (key0 0 3) ∘ ceRuns 1 16)).dev.ringAsid (0 : RingNo).val) (srcOf (((on (keyed (key0 0 3) ∘ ceRuns 1 16)).dev.item? 0 1).get (by decide +kernel) : Item).desc) (aadLenOf (((on (keyed (key0 0 3) ∘ ceRuns 1 16)).dev.item? 0 1).get (by decide +kernel) : Item).desc + lengthOf (((on (keyed (key0 0 3) ∘ ceRuns 1 16)).dev.item? 0 1).get (by decide +kernel) : Item).desc)).1 : Dev).virtRead (whoCe (0 : Nat)) ((on (keyed (key0 0 3) ∘ ceRuns 1 16)).dev.ringAsid (0 : RingNo).val) (paramOf (((on (keyed (key0 0 3) ∘ ceRuns 1 16)).dev.item? 0 1).get (by decide +kernel) : Item).desc) 32).1 : Dev).ceCompute (((on (keyed (key0 0 3) ∘ ceRuns 1 16)).dev.item? 0 1).get (by decide +kernel) : Item) ((ofBytes (((on (keyed (key0 0 3) ∘ ceRuns 1 16)).dev.virtRead (whoCe (0 : Nat)) ((on (keyed (key0 0 3) ∘ ceRuns 1 16)).dev.ringAsid (0 : RingNo).val) (srcOf (((on (keyed (key0 0 3) ∘ ceRuns 1 16)).dev.item? 0 1).get (by decide +kernel) : Item).desc) (aadLenOf (((on (keyed (key0 0 3) ∘ ceRuns 1 16)).dev.item? 0 1).get (by decide +kernel) : Item).desc + lengthOf (((on (keyed (key0 0 3) ∘ ceRuns 1 16)).dev.item? 0 1).get (by decide +kernel) : Item).desc)).2.2 : List Byte)).take (aadLenOf (((on (keyed (key0 0 3) ∘ ceRuns 1 16)).dev.item? 0 1).get (by decide +kernel) : Item).desc)) ((ofBytes (((on (keyed (key0 0 3) ∘ ceRuns 1 16)).dev.virtRead (whoCe (0 : Nat)) ((on (keyed (key0 0 3) ∘ ceRuns 1 16)).dev.ringAsid (0 : RingNo).val) (srcOf (((on (keyed (key0 0 3) ∘ ceRuns 1 16)).dev.item? 0 1).get (by decide +kernel) : Item).desc) (aadLenOf (((on (keyed (key0 0 3) ∘ ceRuns 1 16)).dev.item? 0 1).get (by decide +kernel) : Item).desc + lengthOf (((on (keyed (key0 0 3) ∘ ceRuns 1 16)).dev.item? 0 1).get (by decide +kernel) : Item).desc)).2.2 : List Byte)).drop (aadLenOf (((on (keyed (key0 0 3) ∘ ceRuns 1 16)).dev.item? 0 1).get (by decide +kernel) : Item).desc)) (ofBytes (((((on (keyed (key0 0 3) ∘ ceRuns 1 16)).dev.virtRead (whoCe (0 : Nat)) ((on (keyed (key0 0 3) ∘ ceRuns 1 16)).dev.ringAsid (0 : RingNo).val) (srcOf (((on (keyed (key0 0 3) ∘ ceRuns 1 16)).dev.item? 0 1).get (by decide +kernel) : Item).desc) (aadLenOf (((on (keyed (key0 0 3) ∘ ceRuns 1 16)).dev.item? 0 1).get (by decide +kernel) : Item).desc + lengthOf (((on (keyed (key0 0 3) ∘ ceRuns 1 16)).dev.item? 0 1).get (by decide +kernel) : Item).desc)).1 : Dev).virtRead (whoCe (0 : Nat)) ((on (keyed (key0 0 3) ∘ ceRuns 1 16)).dev.ringAsid (0 : RingNo).val) (paramOf (((on (keyed (key0 0 3) ∘ ceRuns 1 16)).dev.item? 0 1).get (by decide +kernel) : Item).desc) 32).2.2 : List Byte))).1, by decide +kernel⟩,
    ⟨on (svc ∘ bound unwrapDesc), 0, 1, 0, ((on (svc ∘ bound unwrapDesc)).dev.item? 0 1).get (by decide +kernel), by decide +kernel⟩,
    ⟨on (withItem unwrapDesc (fun i => { i with inst := some 0, phase := .running, recorded := .started })), 0, 1, 0, ((((on (withItem unwrapDesc (fun i => { i with inst := some 0, phase := .running, recorded := .started }))).dev.virtRead (whoCe (0 : Nat)) ((on (withItem unwrapDesc (fun i => { i with inst := some 0, phase := .running, recorded := .started }))).dev.ringAsid (0 : RingNo).val) (srcOf (((on (withItem unwrapDesc (fun i => { i with inst := some 0, phase := .running, recorded := .started }))).dev.item? 0 1).get (by decide +kernel) : Item).desc) 112).1 : Dev).checkBlob (0 : Nat) (ofBytes (((on (withItem unwrapDesc (fun i => { i with inst := some 0, phase := .running, recorded := .started }))).dev.virtRead (whoCe (0 : Nat)) ((on (withItem unwrapDesc (fun i => { i with inst := some 0, phase := .running, recorded := .started }))).dev.ringAsid (0 : RingNo).val) (srcOf (((on (withItem unwrapDesc (fun i => { i with inst := some 0, phase := .running, recorded := .started }))).dev.item? 0 1).get (by decide +kernel) : Item).desc) 112).2.2 : List Byte))).1, ((on (withItem unwrapDesc (fun i => { i with inst := some 0, phase := .running, recorded := .started }))).dev.item? 0 1).get (by decide +kernel), ((on (withItem unwrapDesc (fun i => { i with inst := some 0, phase := .running, recorded := .started }))).dev.virtRead (whoCe (0 : Nat)) ((on (withItem unwrapDesc (fun i => { i with inst := some 0, phase := .running, recorded := .started }))).dev.ringAsid (0 : RingNo).val) (srcOf (((on (withItem unwrapDesc (fun i => { i with inst := some 0, phase := .running, recorded := .started }))).dev.item? 0 1).get (by decide +kernel) : Item).desc) 112).1, ((on (withItem unwrapDesc (fun i => { i with inst := some 0, phase := .running, recorded := .started }))).dev.virtRead (whoCe (0 : Nat)) ((on (withItem unwrapDesc (fun i => { i with inst := some 0, phase := .running, recorded := .started }))).dev.ringAsid (0 : RingNo).val) (srcOf (((on (withItem unwrapDesc (fun i => { i with inst := some 0, phase := .running, recorded := .started }))).dev.item? 0 1).get (by decide +kernel) : Item).desc) 112).2.2, ((((on (withItem unwrapDesc (fun i => { i with inst := some 0, phase := .running, recorded := .started }))).dev.virtRead (whoCe (0 : Nat)) ((on (withItem unwrapDesc (fun i => { i with inst := some 0, phase := .running, recorded := .started }))).dev.ringAsid (0 : RingNo).val) (srcOf (((on (withItem unwrapDesc (fun i => { i with inst := some 0, phase := .running, recorded := .started }))).dev.item? 0 1).get (by decide +kernel) : Item).desc) 112).1 : Dev).checkBlob (0 : Nat) (ofBytes (((on (withItem unwrapDesc (fun i => { i with inst := some 0, phase := .running, recorded := .started }))).dev.virtRead (whoCe (0 : Nat)) ((on (withItem unwrapDesc (fun i => { i with inst := some 0, phase := .running, recorded := .started }))).dev.ringAsid (0 : RingNo).val) (srcOf (((on (withItem unwrapDesc (fun i => { i with inst := some 0, phase := .running, recorded := .started }))).dev.item? 0 1).get (by decide +kernel) : Item).desc) 112).2.2 : List Byte))).2, by decide +kernel⟩⟩

/-- States and operands that meet the hypotheses of Obligations.SlotsAndLocks, clause by clause. -/
theorem witness_SlotsAndLocks :
    (∃ (s : State) (r : InlineReq) (e : Nat) (slot : Nat) (k : KeySlot) (w : IdxWin), s.dev.ceFor r.leg.val = some e ∧ slot = s.dev.keyOut r.leg.val ∧ r.encrypt = true ∧ r.cmp = .equal ∧ k = s.dev.slot slot ∧ k.state = .loaded ∧ 4 ≤ k.kind ∧ k.recs.length < 32 ∧ (r.index ≤ (if r.rtcp then 2 ^ 31 - 1 else 2 ^ 48 - 1)) ∧ w = (k.recOf r.ssrc).win true r.rtcp ∧ w.old r.index = false) ∧
    (∃ (s : State) (slot : Fin 256) (ce : CipherEngine), (s.dev.hdr (cePage ce.val)).state ≠ .off ∧ s.dev.slotItems slot.val = []) ∧
    (∃ (s : State) (ce : CipherEngine), (s.dev.hdr (cePage ce.val)).state ≠ .off) ∧
    (∃ (s : State) (ce : CipherEngine), s.dev.ceMode ce.val = 2 ∧ s.dev.ceInProgress ce.val = []) ∧
    (∃ (s : State) (ce : CipherEngine) (m : Nat) (c : Instr), (c, m) ∈ [(.lockTest ce, 2), (.lockRecovery ce, 3)] ∧ s.dev.ceMode ce.val = 0 ∧ s.dev.ceInProgress ce.val = []) ∧
    (∃ (s : State) (ce : CipherEngine) (m : Nat) (c : Instr), (c, m) ∈ [(.lockService ce, 0), (.lockTest ce, 2), (.lockRecovery ce, 3)] ∧ ((if m = 0 then s.dev.ceMode ce.val = 2 else s.dev.ceMode ce.val = 0)) ∧ s.dev.ceInProgress ce.val ≠ []) ∧
    (∃ (s : State) (ce : CipherEngine) (c : Instr), c ∈ [.lockService ce, .lockTest ce, .lockRecovery ce] ∧ (s.dev.ceMode ce.val = 1 ∨ s.dev.ceMode ce.val = 3)) ∧
    (∃ (s : State) (ce : CipherEngine), (s.dev.ceMode ce.val = 1 ∨ s.dev.ceMode ce.val = 3)) ∧
    (∃ (s : State) (ce : CipherEngine), s.dev.ceInProgress ce.val ≠ []) ∧
    (∃ (s : State) (ce : CipherEngine), s.dev.ceInProgress ce.val = []) :=
  ⟨⟨on (keyed { key0 4 4 with recs := [] } ∘ svc ∘ tf Pg.px 0x10000 1 15 8 3), inl0, 0, (on (keyed { key0 4 4 with recs := [] } ∘ svc ∘ tf Pg.px 0x10000 1 15 8 3)).dev.keyOut inl0.leg.val, (on (keyed { key0 4 4 with recs := [] } ∘ svc ∘ tf Pg.px 0x10000 1 15 8 3)).dev.slot ((on (keyed { key0 4 4 with recs := [] } ∘ svc ∘ tf Pg.px 0x10000 1 15 8 3)).dev.keyOut inl0.leg.val : Nat), (((on (keyed { key0 4 4 with recs := [] } ∘ svc ∘ tf Pg.px 0x10000 1 15 8 3)).dev.slot ((on (keyed { key0 4 4 with recs := [] } ∘ svc ∘ tf Pg.px 0x10000 1 15 8 3)).dev.keyOut inl0.leg.val : Nat) : KeySlot).recOf inl0.ssrc).win true inl0.rtcp, by decide +kernel⟩,
    ⟨on (keyed (key0 4 4)), 3, 0, by decide +kernel⟩,
    ⟨on (keyed (key0 4 4) ∘ ceRuns 0 0), 0, by decide +kernel⟩,
    ⟨on (keyed { key0 4 4 with state := .test } ∘ rf (pg 0x3A) Reg.CE_LOCK 1 0 2), 0, by decide +kernel⟩,
    ⟨on svc, 0, 2, Instr.lockTest 0, by decide +kernel⟩,
    ⟨on (keyed (key0 4 4) ∘ ceRuns 0 0 ∘ rf (pg 0x3A) Reg.CE_LOCK 1 0 (if (2 : Nat) = 0 then 2 else 0)), 0, 2, Instr.lockTest 0, by decide +kernel⟩,
    ⟨on (rf (pg 0x3A) Reg.CE_LOCK 1 0 3), 0, Instr.lockTest 0, by decide +kernel⟩,
    ⟨on (rf (pg 0x3A) Reg.CE_LOCK 1 0 3), 0, by decide +kernel⟩,
    ⟨on (ceRuns 0 0), 0, by decide +kernel⟩,
    ⟨on id, 0, by decide +kernel⟩⟩

/-- States and operands that meet the hypotheses of Obligations.KeeperCommands, clause by clause. -/
theorem witness_KeeperCommands :
    (∃ (s : State) (rd : Nat → Byte) (c : Nat), rd = s.dev.memAt s.dev.skAddr ∧ (s.dev.hdr Pg.sk).state.serves = true ∧ s.dev.sys.bootOk = true ∧ c = s.dev.checkImage rd ∧ imageLen rd ≤ bankBytes) ∧
    (∃ (s : State), (s.dev.hdr Pg.sk).state.serves = true ∧ s.dev.sys.bootOk = true ∧ s.dev.sk.minSvn < 65536 ∧ s.dev.sk.vendorKey < 4) ∧
    (∃ (s : State), (s.dev.hdr Pg.sk).state.serves = true ∧ s.dev.sys.bootOk = true ∧ s.dev.sk.keys = true) ∧
    (∃ (s : State) (i : Nat), (s.dev.hdr Pg.sk).state.serves = true ∧ i = s.dev.rf Pg.sk Reg.SK_CMD_ADDR_LO 2 0) ∧
    (∃ (s : State) (id : Nat) (blob : List Byte), (blob = toBytes (s.dev.wrapBlob (ofBytes (Config.kek id (if id = 0 then s.dev.wk.epoch else 0))))) ∧ (s.dev.hdr Pg.sk).state.serves = true ∧ s.dev.sk.keys = true ∧ id = (ofBytes (s.dev.skEntry 0x3400)).getD 7 0 ∧ id ≤ 7 ∧ ((∀ k, k < 112 → targetOf (s.dev.skAddr + k) = .sram))) ∧
    (∃ (s : State), (s.dev.hdr Pg.sk).state.serves = true ∧ s.dev.sk.rngOk = true ∧ (s.dev.sk.fails < 3 ∨ s.dev.sk.backoffUntil ≤ s.dev.nowNs)) ∧
    (∃ (s : State), (s.dev.hdr Pg.sk).state.serves = true ∧ s.dev.sk.rngOk = true ∧ 3 ≤ s.dev.sk.fails ∧ s.dev.nowNs < s.dev.sk.backoffUntil) ∧
    (∃ (s : State), (s.dev.hdr Pg.sk).state.serves = true ∧ s.dev.sk.rngOk = true ∧ s.dev.lifecycle ≠ 1 ∧ s.dev.sys.pwrgood = true ∧ s.dev.restarting = false) ∧
    (∃ (s : State) (tok : List Byte) (st : Nat), st = s.dev.tokenCheck tok false ∧ (s.dev.hdr Pg.sk).state.serves = true ∧ s.dev.sk.rngOk = true ∧ s.dev.lifecycle = 1 ∧ s.dev.rf Pg.sk Reg.SK_DEBUG_LOCK 1 0 ≠ 2 ∧ s.dev.sys.pwrgood = true ∧ s.dev.restarting = false) ∧
    (∃ (s : State), (s.dev.hdr Pg.sk).state.serves = true) ∧
    (∃ (s : State) (st : Nat), st = s.dev.tokenCheck ((List.range tokenLen).map (s.dev.memAt s.dev.skAddr)) true ∧ (s.dev.hdr Pg.sk).state.serves = true ∧ s.dev.sk.rngOk = true ∧ s.dev.lifecycle ≠ 2) ∧
    (∃ (s : State), s.dev.sk.chalAt + 60000000000 ≤ s.dev.nowNs) ∧
    (∃ (s : State), s.dev.nowNs < s.dev.sk.chalAt + 60000000000) ∧
    (∃ (s : State) (v : Word) (now : Nat) (n : Nat), now = s.dev.rf Pg.sk Reg.SK_DEBUG_LOCK 1 0 ∧ n = fld 1 0 v) :=
  ⟨⟨on skAt, (on skAt).dev.memAt (on skAt).dev.skAddr, (on skAt).dev.checkImage ((on skAt).dev.memAt (on skAt).dev.skAddr : Nat → Byte), (rfl), by decide +kernel⟩,
    ⟨on (sk (fun k => { k with minSvn := 9, trial := true, revokeBits := 14 }) ∘ rf Pg.sk Reg.SK_ROLLBACK_FLOOR 15 0 4), by decide +kernel⟩,
    ⟨on (sk (fun k => { k with keys := true })), by decide +kernel⟩,
    ⟨on (fun d => d.setReg Pg.sk Reg.SK_CMD_ADDR_LO 5), (on (fun d => d.setReg Pg.sk Reg.SK_CMD_ADDR_LO 5)).dev.rf Pg.sk Reg.SK_CMD_ADDR_LO 2 0, by decide +kernel⟩,
    ⟨on (skAt ∘ sk (fun k => { k with keys := true })), (ofBytes ((on (skAt ∘ sk (fun k => { k with keys := true }))).dev.skEntry 0x3400)).getD 7 0, toBytes ((on (skAt ∘ sk (fun k => { k with keys := true }))).dev.wrapBlob (ofBytes (Config.kek ((ofBytes ((on (skAt ∘ sk (fun k => { k with keys := true }))).dev.skEntry 0x3400)).getD 7 0 : Nat) (if ((ofBytes ((on (skAt ∘ sk (fun k => { k with keys := true }))).dev.skEntry 0x3400)).getD 7 0 : Nat) = 0 then (on (skAt ∘ sk (fun k => { k with keys := true }))).dev.wk.epoch else 0)))), (rfl), by decide +kernel⟩,
    ⟨on id, by decide +kernel⟩,
    ⟨on (sk (fun k => { k with fails := 3, backoffUntil := 90 })), by decide +kernel⟩,
    ⟨on (sk (fun k => { k with keys := true }) ∘ rf Pg.sk Reg.SK_LIFECYCLE 1 0 0), by decide +kernel⟩,
    ⟨on (sk (fun k => { k with keys := true }) ∘ rf Pg.sk Reg.SK_LIFECYCLE 1 0 1), [1, 2], (on (sk (fun k => { k with keys := true }) ∘ rf Pg.sk Reg.SK_LIFECYCLE 1 0 1)).dev.tokenCheck ([1, 2] : List Byte) false, (rfl), by decide +kernel⟩,
    ⟨on id, by decide +kernel⟩,
    ⟨on (skAt ∘ sk (fun k => { k with keys := true }) ∘ rf Pg.sk Reg.SK_LIFECYCLE 1 0 1), (on (skAt ∘ sk (fun k => { k with keys := true }) ∘ rf Pg.sk Reg.SK_LIFECYCLE 1 0 1)).dev.tokenCheck ((List.range tokenLen).map ((on (skAt ∘ sk (fun k => { k with keys := true }) ∘ rf Pg.sk Reg.SK_LIFECYCLE 1 0 1)).dev.memAt (on (skAt ∘ sk (fun k => { k with keys := true }) ∘ rf Pg.sk Reg.SK_LIFECYCLE 1 0 1)).dev.skAddr)) true, (rfl), by decide +kernel⟩,
    ⟨on (tu (fun t => { t with raw := 60000000001 * 2 ^ 32 })), by decide +kernel⟩,
    ⟨on (sk (fun k => { k with chalValid := true, chalAt := 4 })), by decide +kernel⟩,
    ⟨on id, 3, (on id).dev.rf Pg.sk Reg.SK_DEBUG_LOCK 1 0, fld 1 0 (3 : Word), by decide +kernel⟩⟩

/-- States and operands that meet the hypotheses of Obligations.ResetsAndTrips, clause by clause. -/
theorem witness_ResetsAndTrips :
    (∃ (s : State), s.dev.sys.pwrgood = false) ∧
    (∃ (s : State), s.dev.sys.pwrgood = true) ∧
    (∃ (s : State) (c : Instr), (c = .pwrgoodFall ∨ c = .railDip) ∧ s.dev.sys.pwrgood = true) ∧
    (∃ (s : State) (c : Instr), (c = .pwrgoodFall ∨ c = .railDip) ∧ s.dev.sys.pwrgood = false) ∧
    (∃ (s : State), s.dev.sys.pwrgood = true ∧ s.dev.restarting = false) ∧
    (∃ (s : State), s.dev.restarting = true) ∧
    (∃ (s : State) (v : Word), bit 0 v = true ∧ fld 31 16 v = 0x5741 ∧ s.dev.sys.pwrgood = true ∧ s.dev.restarting = false) ∧
    (∃ (v : Word), (bit 0 v = false ∨ fld 31 16 v ≠ 0x5741)) ∧
    (∃ (s : State) (host : Bool), s.dev.fwRuns = true ∧ s.dev.sys.pwrgood = true ∧ s.dev.rb Pg.cc Reg.CC_WDOG_CFG 16 = true ∧ ((host = true → s.dev.rb Pg.cc Reg.CC_WDOG_CFG 17 = true ∧ s.dev.sys.hostKick + s.dev.rf Pg.cc Reg.CC_WDOG_CFG 15 0 * 1000000 ≤ s.dev.nowNs))) ∧
    (∃ (s : State), s.dev.rb Pg.cc Reg.CC_WDOG_CFG 16 = false) ∧
    (∃ (s : State), s.dev.sys.pwrgood = true ∧ s.dev.en.tripped = false) ∧
    (∃ (s : State), s.dev.en.tripped = true) :=
  ⟨⟨on (sy (fun x => { x with pwrgood := false })), by decide +kernel⟩,
    ⟨on id, by decide +kernel⟩,
    ⟨on (ra (fun r => { r with onAir := some burst0, bias := [1, 2, 3, 4] })), Instr.railDip, by decide +kernel⟩,
    ⟨on (sy (fun x => { x with pwrgood := false })), Instr.pwrgoodFall, by decide +kernel⟩,
    ⟨on id, by decide +kernel⟩,
    ⟨on (sy (fun x => { x with inReset := true })), by decide +kernel⟩,
    ⟨on id, 0x57410001, by decide +kernel⟩,
    ⟨0x57410000, by decide +kernel⟩,
    ⟨on (rf Pg.cc Reg.CC_WDOG_CFG 17 0 0x30001 ∘ tu (fun t => { t with raw := 1000000 * 2 ^ 32 })), true, by decide +kernel⟩,
    ⟨on (rf Pg.cc Reg.CC_WDOG_CFG 17 0 0x20001), by decide +kernel⟩,
    ⟨on (ra (fun r => { r with onAir := some burst0, ready := [burst0] })), by decide +kernel⟩,
    ⟨on (en (fun e => { e with tripped := true })), by decide +kernel⟩⟩

/-- States and operands that meet the hypotheses of Obligations.SideBusesAnswer, clause by clause. -/
theorem witness_SideBusesAnswer :
    (∃ (s : State), s.dev.sys.pwrgood = true ∧ (s.dev.sys.cold = false ∨ s.dev.sys.bootAt + 1000000 ≤ s.dev.nowNs)) ∧
    (∃ (s : State), s.dev.sys.pwrgood = true ∧ s.dev.fwRuns = true) ∧
    (∃ (s : State) (p : Page) (a : Nat), s.busFree ∧ s.dev.fwRuns = true ∧ s.dev.pageHeld p = false ∧ s.dev.sys.smb.addr.toNat = a ∧ pageOf a = some p) ∧
    (∃ (s : State) (p : Page) (off : Nat), s.busFree ∧ s.dev.fwRuns = true ∧ s.dev.pageHeld p = false ∧ s.dev.sys.smb.addr.toNat = p.val * 0x1000 + off ∧ (((p = Pg.dir ∧ off = 0x38) ∨ ((kindOf p).hasCommit = true ∧ (off = 0x100 ∨ off = 0x104))))) ∧
    (∃ (s : State) (n : Nat), s.dev.sys.pwrgood = true ∧ s.dev.fwRuns = true ∧ 0 < n ∧ n ≤ 32 ∧ s.dev.sys.smb.buf ≠ []) ∧
    (∃ (s : State) (bs : List Byte), s.dev.sys.pwrgood = true ∧ s.dev.fwRuns = true ∧ bs ≠ [] ∧ bs.length ≤ 32 ∧ s.dev.sys.smb.buf.length + bs.length ≤ 4096) ∧
    (∃ (s : State), s.dev.sys.pwrgood = true ∧ s.dev.fwRuns = true) ∧
    (∃ (c : Instr) (i : TapIr), (c, i) ∈ [(.jtagBypass, .bypass), (.jtagIdcode, .idcode), (.jtagSamplePreload, .samplePreload)]) ∧
    (∃ (c : Instr) (i : TapIr), (c, i) ∈ [(.jtagExtest, .extest), (.jtagClamp, .clamp), (.jtagHighz, .highz)]) ∧
    (∃ (s : State), s.dev.sys.pwrgood = true ∧ s.dev.sk.gateOpen = true ∧ 2 ≤ s.dev.sk.level ∧ s.dev.asks = []) ∧
    (∃ (s : State) (a : BitVec 48), s.dev.sys.pwrgood = true ∧ s.dev.sk.gateOpen = true ∧ 1 ≤ s.dev.sk.level ∧ s.dev.asks = [] ∧ targetOf a.toNat = .sram) ∧
    (∃ (s : State) (x : DebugAccess), (s.dev.sk.gateOpen = false ∨ s.dev.sk.level < debugLevel x ∨ debugInKeeper x = true) ∧ s.dev.asks = []) :=
  ⟨⟨on (sy (fun x => { x with cold := true }) ∘ tu (fun t => { t with raw := 1000000 * 2 ^ 32 })), by decide +kernel⟩,
    ⟨on id, by decide +kernel⟩,
    ⟨on (sy (fun x => { x with smb := { x.smb with addr := 0x10100 } })), pg 0x10, 0x10100, by decide +kernel⟩,
    ⟨on (sy (fun x => { x with smb := { x.smb with addr := 0x10100 } })), pg 0x10, 0x100, by decide +kernel⟩,
    ⟨on (sy (fun x => { x with smb := { x.smb with buf := [1, 2, 3], bufReady := true } })), 2, by decide +kernel⟩,
    ⟨on (sy (fun x => { x with smb := { x.smb with buf := [1, 2, 3] } })), [7], by decide +kernel⟩,
    ⟨on id, by decide +kernel⟩,
    ⟨Instr.jtagIdcode, .idcode, by decide +kernel⟩,
    ⟨Instr.jtagExtest, .extest, by decide +kernel⟩,
    ⟨on (sk (fun k => { k with gateOpen := true, level := 2 })), by decide +kernel⟩,
    ⟨on (sk (fun k => { k with gateOpen := true, level := 1 })), 0x4000000001, by decide +kernel⟩,
    ⟨on id, .runControl 3 true, by decide +kernel⟩⟩

/-! ## An ill-formed term for each check of WellFormed, refused -/

theorem test_wf_pairLo : Instr.wf (.pairLoRead (regAt Pg.tu Reg.TU_REF_SEL)) = false ∧ Instr.wf (.pairLoRead (regAt Pg.tu Reg.TU_RAW_LO)) = true := by decide +kernel
theorem test_wf_rws : Instr.wf (.rwsWrite (regAt Pg.tu Reg.TU_REF_SEL) 0) = false ∧ Instr.wf (.rwsWrite (regAt Pg.ac Reg.AC_SPAN_A) 0) = true := by decide +kernel
theorem test_wf_rwp : Instr.wf (.rwpWrite (regAt Pg.ac Reg.AC_SPAN_A) 0) = false ∧ Instr.wf (.rwpWrite (regAt Pg.tu Reg.TU_REF_SEL) 0) = true := by decide +kernel
theorem test_wf_rc : Instr.wf (.rcRead (regAt Pg.ac Reg.AC_SPAN_A)) = false ∧ Instr.wf (.rcRead (regAt Pg.fb 0x118)) = true := by decide +kernel
theorem test_wf_commit : Instr.wf (.commit Pg.cc 0) = false ∧ Instr.wf (.bow Pg.cc) = false ∧ Instr.wf (.commitCancel Pg.cc) = false := by decide +kernel
theorem test_wf_record : Instr.wf (.retireRecSet Pg.dir 5) = false ∧ Instr.wf (.retireRecClear Pg.dir 5) = false ∧ Instr.wf (.requalifyDone Pg.dir 5 true) = false ∧ Instr.wf (.retireRecordCommit Pg.dir 5) = false := by decide +kernel
theorem test_wf_island : Instr.wf (.reqVpWrite Pg.dir 4) = false ∧ Instr.wf (.vpSettled Pg.dir) = false ∧ Instr.wf (.reqVpWrite (pg 0x10) 4) = true := by decide +kernel
theorem test_wf_window : Instr.wf (.tableWrite Pg.dir) = false ∧ Instr.wf (.tableRead Pg.dir false) = false ∧ Instr.wf (.tableWrite Pg.dx) = true := by decide +kernel
theorem test_wf_burst : Instr.wf (.dramWrite .cc 62 [1, 2, 3]) = false ∧ Instr.wf (.dramWrite .cc 61 [1, 2, 3]) = true := by decide +kernel
theorem test_wf_nine : Instr.wf (.mr4Poll 0 [none]) = false := by decide
theorem test_wf_some : Instr.wf (.atsInvalidate 0 0 0) = false := by decide
theorem test_wf_cell : Instr.wf (.cellArrive 16 [] false false) = false := by decide
theorem test_wf_token : Instr.wf (.unlock (some [1])) = false ∧ Instr.wf (.unlock none) = true := by decide
theorem test_wf_smb : Instr.wf (.smbBufRead 33) = false ∧ Instr.wf (.smbBufRead 32) = true ∧ Instr.wf (.smbBufWrite []) = false := by decide
theorem test_wf_illegal : Instr.wf (.illegalOp ⟨0, 0⟩ 0x10) = false ∧ Instr.wf (.illegalOp ⟨0, 0⟩ 0x3F) = true := by decide +kernel

/-! ## Tests against values of the spec -/

/-- The table gives no bits: no word spells a command. -/
theorem test_no_word : decodeTableWord 16 0 = none ∧ (State.reset.withFetchWord 16 0 = State.reset) := ⟨rfl, rfl⟩
/-- R239: the CRC-32 of "123456789" is 0xCBF4_3926; CRC-32C (R150) is 0xE306_9283. -/
theorem test_crc : Config.crc32 [0x31, 0x32, 0x33, 0x34, 0x35, 0x36, 0x37, 0x38, 0x39] = 0xCBF43926 ∧
    Config.crc32c [0x31, 0x32, 0x33, 0x34, 0x35, 0x36, 0x37, 0x38, 0x39] = 0xE3069283 := by decide +kernel
/-- Table 2.3: page 0 reads its identification. -/
theorem test_reset_ram : State.reset.dev.ram.wf = true := by decide
/-- A store of DRAM, SRAM or flash lists no zero and keeps its order. -/
theorem test_write_keeps_order : ((up.virtWrite 0 0 0x4000000010 [1, 0, 2]).1.virtWrite 0 0 0x4000000000 [3]).1.ram.wf = true := by decide +kernel

end Sys2Proof.Tests
end

section
/-! The tag accounts of the fabric (R11, R530): every command keeps them, so every step does. -/

namespace Sys2Proof.Machine

/-- An outcome after which the tag accounts stand. -/
def KeepsTags (o : Host.Outcome State Fault Refusal) : Prop := ∀ t, o = .next t → t.tags.wf

theorem keepsTags_next {t : State} (h : t.tags.wf) : KeepsTags (.next t) := by
  intro u hu
  cases hu
  exact h

theorem State.watchdog_wf (s : State) (host : Bool) (h : s.tags.wf) : (s.watchdog host).tags.wf := by
  unfold State.watchdog
  split
  · exact State.warm_wf s 3 h
  · exact h

theorem State.resetCtrl_wf (s : State) (v : Word) (h : s.tags.wf) : (s.resetCtrl v).tags.wf := State.grant_wf s (.reset v) h

/-- A rise of PWRGOOD keeps the tags or clears them. -/
theorem execPwrgoodRise_keepsTags (r : Option (Fin 4)) (x y : Bool) (s : State) (h : s.tags.wf) :
    KeepsTags (execPwrgoodRise r x y s) := by
  refine keepsTags_next ?_
  dsimp only
  split
  · exact h
  · exact Fabric.reset_wf

/-- The commands of the fabric and the resets change the tags by the operations of Laws/Step; an access to a register bus may ask
for one of these operations, and settling keeps the accounts; every other command changes the device alone. -/
theorem exec_keepsTags (c : Instr) (s : State) (h : s.tags.wf) : KeepsTags (exec c s) := by
  cases c with
  | fabricRequest who a wr => exact keepsTags_next (State.tryTag_wf s _ h)
  | tagReturn who => exact keepsTags_next (State.tagBack_wf s who h)
  | fbPartWrite which v => exact keepsTags_next (State.partWrite_wf s which.val v h)
  | fbSharedPartWrite v => exact keepsTags_next (State.sharedWrite_wf s v h)
  | pwrgoodRise r x y => exact execPwrgoodRise_keepsTags r x y s h
  | resetN => exact keepsTags_next (State.warm_wf _ 1 h)
  | warmResetWrite v => exact keepsTags_next (State.resetCtrl_wf s v h)
  | watchdogExpire host => exact keepsTags_next (State.watchdog_wf s host h)
  | unlock x => exact keepsTags_next (State.unlock_wf s x h)
  | registerWrite | pairLoRead | rwsWrite | hbWinBaseWrite | rwpWrite | rcRead | tableRead | tableWrite | copy | fill | periphIn
  | periphOut | beatResponse | beatIssue | completionWrite | persistentWriteDone | retireRecordCommit | smbRegDataRead
  | smbRegDataWrite | jtagDebugInstruction => exact keepsTags_next (State.settle_wf _ h)
  | _ => exact keepsTags_next h

/-- Settles O4: a step runs one command on the rest of the queue, and every command keeps the accounts. -/
theorem everyStepKeepsTheTagAccounts : Obligations.EveryStepKeepsTheTagAccounts := by
  intro s t h hs
  unfold step at hs
  split at hs
  · exact keepsTags_next h t hs
  · exact exec_keepsTags _ _ (by exact h) t hs

end Sys2Proof.Machine
end

section
/-! Words and registers: what a stored number reads as, and what a changed field of a register leaves. -/

namespace Sys2Proof.Machine

theorem word_toNat (n : Nat) : (word n).toNat = n % 2 ^ 32 := BitVec.toNat_ofNat n 32

theorem fld_word (hi n : Nat) : fld hi 0 (word n) = n % 2 ^ 32 % 2 ^ (hi + 1) := by
  simp only [fld, word_toNat, Nat.shiftRight_zero, Nat.sub_zero]

/-- Another register keeps its word when a field of one is replaced. -/
theorem Dev.reg_setRf_other (d : Dev) (p q : Page) (off o hi lo v i j : Nat) (hoff : off < 0x1000) (ho : o < 0x1000)
    (h : ¬(q = p ∧ o = off ∧ j = i)) : (d.setRf p off hi lo v i).reg q o j = d.reg q o j :=
  Dev.reg_setReg_other _ _ _ _ _ _ _ _ hoff ho h

/-- A field of a register reads as the number it was given, cut to its width. -/
theorem Dev.rf_setRf_same (d : Dev) (p : Page) (off hi lo v i : Nat) (h : lo ≤ hi) (h32 : hi < 32) :
    (d.setRf p off hi lo v i).rf p off hi lo i = v % 2 ^ (hi - lo + 1) := by
  rw [Dev.rf, Dev.setRf, Dev.reg_setReg_same, fld_putFld_same _ _ _ _ h h32]

/-- Another field of the register stays. -/
theorem Dev.rf_setRf_field (d : Dev) (p : Page) (off hi lo a b v i : Nat) (h : lo ≤ hi) (hb : b ≤ a) (hd : a < lo ∨ hi < b) :
    (d.setRf p off hi lo v i).rf p off a b i = d.rf p off a b i := by
  rw [Dev.rf, Dev.setRf, Dev.reg_setReg_same, fld_putFld_other _ _ _ _ _ _ h hb hd, Dev.rf]

/-- A counter that wraps counts by one. -/
theorem Dev.rf_bump_same (d : Dev) (p : Page) (off hi n i : Nat) (h32 : hi < 32) :
    (d.bump p off hi 0 n i).rf p off hi 0 i = (d.rf p off hi 0 i + n) % 2 ^ (hi + 1) := by
  rw [Dev.bump, Dev.rf_setRf_same _ _ _ _ _ _ _ (Nat.zero_le hi) h32, Nat.sub_zero, Nat.mod_mod]

/-- A peak leaves the fields outside its own. -/
theorem Dev.rf_peak_field (d : Dev) (p : Page) (off hi lo a b v i : Nat) (h : lo ≤ hi) (hb : b ≤ a) (hd : a < lo ∨ hi < b) :
    (d.peak p off hi lo v i).rf p off a b i = d.rf p off a b i := by
  unfold Dev.peak
  split
  · exact d.rf_setRf_field p off hi lo a b v i h hb hd
  · rfl

end Sys2Proof.Machine
end

section
/-! Detections of a source without an action (R469 to R473): what they raise and what they leave. -/

namespace Sys2Proof.Machine

/-- A source of a page that takes no action and resets nothing. -/
def PlainSource (p : Page) (src : Nat) : Prop :=
  src < 32 ∧ kindOf p ≠ .dir ∧ (evDesc (kindOf p) src).act = .none ∧ (evDesc (kindOf p) src).hang = false

theorem plainSource_fb_addrHole : PlainSource Pg.fb Evt.FB_ADDR_HOLE := by unfold PlainSource; decide
theorem plainSource_fb_refused : PlainSource Pg.fb Evt.FB_PARTITION_REFUSED := by unfold PlainSource; decide

/-- The detection of a plain source raises it. -/
theorem Dev.detect_raised (d : Dev) (p : Page) (src : Nat) (h : PlainSource p src) : raised (d.detect p src) p src := by
  obtain ⟨hs, hk, ha, hh⟩ := h
  exact d.detect_raises p src hs hk ha hh

/-- What a change of headers, outputs and pending vectors leaves as it was. -/
structure SameBesideEvents (d e : Dev) : Prop where
  regs : e.pages.regs = d.pages.regs
  tbl : e.pages.tbl = d.pages.tbl
  ram : e.ram = d.ram
  grps : e.grps = d.grps
  qm : e.qm = d.qm
  tm : e.tm = d.tm
  air : e.air = d.air
  fresh : e.fresh = d.fresh

/-- The detection of a plain source leaves registers, tables, memories, groups, queues, ports and radios. -/
theorem Dev.detect_sameBesideEvents (d : Dev) (p : Page) (src : Nat) (h : PlainSource p src) : SameBesideEvents d (d.detect p src) := by
  obtain ⟨-, hk, ha, hh⟩ := h
  obtain ⟨x, o, l, he, -⟩ := d.detectUnit_plain p src 0 hk ha hh
  rw [Dev.detect, he]
  constructor <;> rfl

theorem SameBesideEvents.reg {d e : Dev} (h : SameBesideEvents d e) (p : Page) (off i : Nat) : e.reg p off i = d.reg p off i := by
  rw [Dev.reg, Dev.reg, h.regs]

theorem SameBesideEvents.rf {d e : Dev} (h : SameBesideEvents d e) (p : Page) (off hi lo i : Nat) :
    e.rf p off hi lo i = d.rf p off hi lo i := by
  rw [Dev.rf, Dev.rf, h.reg]

/-- A raised source stays raised where its page's headers stay. -/
theorem raised_of_hdrs {d e : Dev} {p : Page} {src : Nat} (h : e.pages.hdrs = d.pages.hdrs) (hr : raised d p src) : raised e p src := by
  unfold raised at hr ⊢
  rwa [Dev.hdr, h]

end Sys2Proof.Machine
end

section
/-! The fabric's tags (R11, R14, R530): one lemma for what each operation does to the tags and to FB's registers. -/

namespace Sys2Proof.Machine

theorem State.takeTag_tags (s : State) (q : FabReq) : (s.takeTag q).tags = { s.tags with flight := q.who :: s.tags.flight } := by
  unfold State.takeTag
  dsimp only
  split <;> rfl

/-- A request takes a tag where one is free and none of its partition waits. -/
theorem State.tryTag_takes (s : State) (q : FabReq) (hf : s.tags.free q.who = true)
    (hw : s.tags.waiters.any (fun w => sameShare w.who q.who) = false) : s.tryTag q = s.takeTag q := by
  unfold State.tryTag
  rw [hf, hw]
  rfl

/-- A request waits where no tag is free. -/
theorem State.tryTag_waits (s : State) (q : FabReq) (hf : s.tags.free q.who = false) :
    s.tryTag q = { s with tags := { s.tags with waiters := s.tags.waiters ++ [q] } } := by
  unfold State.tryTag
  rw [hf]
  rfl

/-- With nobody waiting, nobody is served. -/
theorem State.serveWaiters_none (s : State) (h : s.tags.waiters = []) : s.serveWaiters = s := by
  unfold State.serveWaiters
  rw [h, List.foldl_nil, ← h]

/-- FB_TAGS_USED shows the transactions in flight. -/
theorem State.showTags_used (s : State) : s.showTags.dev.rf Pg.fb Reg.FB_TAGS_USED 14 0 = s.tags.flight.length % 2 ^ 15 := by
  unfold State.showTags
  dsimp only
  rw [Dev.rf_peak_field _ _ _ _ _ _ _ _ _ (by decide) (by decide) (by decide), Dev.rf_setRf_same _ _ _ _ _ _ _ (by decide) (by decide)]

/-- A returned tag is free again; with nobody waiting it stays free. -/
theorem State.tagBack_inFlight (s : State) (who : Requester) (hm : who ∈ s.tags.flight) (hw : s.tags.waiters = []) :
    s.tagBack who = ({ s with tags := { s.tags with flight := s.tags.flight.erase who } } : State).showTags := by
  unfold State.tagBack
  rw [if_pos (List.contains_iff_mem.mpr hm)]
  exact State.serveWaiters_none _ hw

/-- The requester number that a hole latches is drawn where Table 6.1 gives none. -/
theorem Dev.hole_cases (d : Dev) (a : Nat) (who : Option Nat) :
    ∃ (e : Dev) (n : Nat), d.hole a who = ((e.setReg Pg.fb Reg.FB_HOLE_ADDR_LO (word a)).setReg Pg.fb Reg.FB_HOLE_ADDR_HI
      (word ((a >>> 32) % 2 ^ 16 + n % 512 * 2 ^ 16))).detect Pg.fb Evt.FB_ADDR_HOLE ∧ (e = d ∨ e = d.drawn) := by
  cases who with
  | some n => exact ⟨d, n, rfl, .inl rfl⟩
  | none => exact ⟨d.drawn, _, rfl, .inr rfl⟩

theorem Dev.hole_raised (d : Dev) (a : Nat) (who : Option Nat) : raised (d.hole a who) Pg.fb Evt.FB_ADDR_HOLE := by
  obtain ⟨e, n, he, -⟩ := d.hole_cases a who
  rw [he]
  exact Dev.detect_raised _ _ _ plainSource_fb_addrHole

theorem Dev.hole_ram (d : Dev) (a : Nat) (who : Option Nat) : (d.hole a who).ram = d.ram := by
  obtain ⟨e, n, he, hd⟩ := d.hole_cases a who
  rw [he, (Dev.detect_sameBesideEvents _ _ _ plainSource_fb_addrHole).ram]
  obtain rfl | rfl := hd <;> simp

/-- A hole latches its address. -/
theorem Dev.hole_address (d : Dev) (a : Nat) (who : Option Nat) (ha : a < 2 ^ 48) :
    ((d.hole a who).reg Pg.fb Reg.FB_HOLE_ADDR_LO).toNat + (d.hole a who).rf Pg.fb Reg.FB_HOLE_ADDR_HI 15 0 * 2 ^ 32 = a := by
  obtain ⟨e, n, he, -⟩ := d.hole_cases a who
  have hs := Dev.detect_sameBesideEvents ((e.setReg Pg.fb Reg.FB_HOLE_ADDR_LO (word a)).setReg Pg.fb Reg.FB_HOLE_ADDR_HI
      (word ((a >>> 32) % 2 ^ 16 + n % 512 * 2 ^ 16))) Pg.fb Evt.FB_ADDR_HOLE plainSource_fb_addrHole
  rw [he, hs.reg, hs.rf, Dev.reg_setReg_other _ _ _ _ _ _ _ _ (by decide) (by decide) (by decide), Dev.reg_setReg_same, Dev.rf,
    Dev.reg_setReg_same, fld_word, word_toNat, Nat.shiftRight_eq_div_pow]
  omega

/-- A tag taken for an access to a hole: the error is answered, the source raised and the address latched (R14). -/
theorem State.takeTag_hole (s : State) (q : FabReq) (hh : fabricHole q.who q.addr.toNat = true) :
    Output.addressError q.who ∈ (s.takeTag q).dev.out ∧ raised (s.takeTag q).dev Pg.fb Evt.FB_ADDR_HOLE ∧
      ((s.takeTag q).dev.reg Pg.fb Reg.FB_HOLE_ADDR_LO).toNat +
        (s.takeTag q).dev.rf Pg.fb Reg.FB_HOLE_ADDR_HI 15 0 * 2 ^ 32 = q.addr.toNat := by
  have he : ∃ d : Dev, (s.takeTag q).dev = (d.hole q.addr.toNat (requesterNumber q.who)).emit (.addressError q.who) := by
    unfold State.takeTag
    dsimp only
    rw [if_pos hh]
    exact ⟨_, rfl⟩
  obtain ⟨d, hd⟩ := he
  rw [hd]
  exact ⟨List.mem_cons_self, Dev.hole_raised d _ _, Dev.hole_address d _ _ q.addr.isLt⟩

/-- A pending partition register holds its value and the partition in force stays. -/
theorem Fabric.partWrite_cases (f : Fabric) (which : Fin 3) (v : Word) :
    (f.partWrite which.val v).parts = f.parts ∧
      (which = 0 → (f.partWrite which.val v).pendDx = some (fld 14 0 v)) ∧
      (which = 1 → (f.partWrite which.val v).pendVe = some (fld 9 0 v)) ∧
      (which = 2 → (f.partWrite which.val v).pendCp = some (fld 10 0 v)) := by
  match which with
  | 0 => exact ⟨rfl, fun _ => rfl, fun h => absurd h (by decide), fun h => absurd h (by decide)⟩
  | 1 => exact ⟨rfl, fun h => absurd h (by decide), fun _ => rfl, fun h => absurd h (by decide)⟩
  | 2 => exact ⟨rfl, fun h => absurd h (by decide), fun h => absurd h (by decide), fun _ => rfl⟩

/-- A set that sums to 16,384 comes into force. -/
theorem State.sharedWrite_holds (s : State) (v : Word) (h : (s.tags.proposed v).total = maxTags) (hw : s.tags.waiters = []) :
    (s.sharedWrite v).tags = { s.tags with parts := s.tags.proposed v, pendDx := none, pendVe := none, pendCp := none } := by
  unfold State.sharedWrite
  dsimp only
  rw [if_pos h, State.serveWaiters_none]
  · rfl
  · exact hw

/-- Any other set is discarded, and PARTITION_REFUSED is raised. -/
theorem State.sharedWrite_refused (s : State) (v : Word) (h : (s.tags.proposed v).total ≠ maxTags) :
    (s.sharedWrite v).tags = { s.tags with pendDx := none, pendVe := none, pendCp := none } ∧
      raised (s.sharedWrite v).dev Pg.fb Evt.FB_PARTITION_REFUSED := by
  unfold State.sharedWrite
  dsimp only
  rw [if_neg h]
  exact ⟨rfl, raised_of_hdrs (d := s.dev.detect Pg.fb Evt.FB_PARTITION_REFUSED) rfl (Dev.detect_raised _ _ _ plainSource_fb_refused)⟩

/-- Settles O16: each clause by the lemma of its operation. -/
theorem fabricTags : Obligations.FabricTags := by
  refine ⟨?_, ?_, ?_, ?_, ?_, ?_, ?_⟩
  · intro s who a wr hf hw
    refine ⟨s.takeTag ⟨who, a, wr⟩, congrArg Host.Outcome.next (s.tryTag_takes ⟨who, a, wr⟩ hf hw), ?_⟩
    rw [State.takeTag_tags]
    exact ⟨rfl, rfl, rfl⟩
  · intro s who a wr hf hw hh
    exact ⟨s.takeTag ⟨who, a, wr⟩, congrArg Host.Outcome.next (s.tryTag_takes ⟨who, a, wr⟩ hf hw), s.takeTag_hole ⟨who, a, wr⟩ hh⟩
  · intro s who a wr hf
    exact ⟨_, congrArg Host.Outcome.next (s.tryTag_waits ⟨who, a, wr⟩ hf), rfl, rfl, rfl⟩
  · intro s who hm hw
    refine ⟨_, congrArg Host.Outcome.next (s.tagBack_inFlight who hm hw), rfl, rfl, ?_⟩
    rw [State.showTags_used, List.length_erase_of_mem hm]
  · exact fun s which v => ⟨_, rfl, s.tags.partWrite_cases which v⟩
  · intro s v h hw
    refine ⟨s.sharedWrite v, rfl, ?_⟩
    rw [s.sharedWrite_holds v h hw]
    exact ⟨rfl, rfl, rfl, rfl⟩
  · intro s v h
    obtain ⟨ht, hr⟩ := s.sharedWrite_refused v h
    refine ⟨s.sharedWrite v, rfl, ?_⟩
    rw [ht]
    exact ⟨rfl, rfl, rfl, rfl, hr⟩

end Sys2Proof.Machine
end

section
/-! Where a byte of DRAM lies (R112) and what a stored byte does to the channels (R113 to R115). -/

namespace Sys2Proof.Machine

theorem dramUnit_lt (a : Nat) : dramUnit a < 8 := Nat.mod_lt _ (by decide)
theorem parityOf_lt (n : Nat) : parityOf n < 9 := Nat.mod_lt _ (by decide)
theorem memberOf_lt (n u : Nat) : memberOf n u < 9 := Nat.mod_lt _ (by decide)

/-- The parity of a row lies in none of its data members. -/
theorem parityOf_ne_memberOf (n : Nat) {u : Nat} (h : u < 8) : parityOf n ≠ memberOf n u := by
  unfold memberOf parityOf
  omega

theorem chanOff_lt (a : Nat) : chanOff a < 2 ^ 32 := by
  unfold chanOff dramRow
  rw [Nat.shiftRight_eq_div_pow]
  omega

/-- Two bytes at one offset of one group's channels lie in one row. -/
theorem dramRow_of_chanOff {a b : Nat} (h : chanOff a = chanOff b) : dramRow a = dramRow b := by
  unfold chanOff at h
  omega

/-- Two bytes of one group, one offset and one member are the same byte. -/
theorem dram_place_inj {a b : Nat} (hg : dramGroup a = dramGroup b) (ho : chanOff a = chanOff b)
    (hm : memberOf (dramRow a) (dramUnit a) = memberOf (dramRow b) (dramUnit b)) : a = b := by
  have hr := dramRow_of_chanOff ho
  have hua := dramUnit_lt a
  have hub := dramUnit_lt b
  rw [hr] at hm
  have hu : dramUnit a = dramUnit b := by
    unfold memberOf at hm
    omega
  unfold chanOff at ho
  simp only [dramGroup, dramRow, dramUnit, Nat.shiftRight_eq_div_pow] at hg hr hu ho
  omega

theorem Dev.cell_setCell_other (d : Dev) {g m off g' m' off' : Nat} (b : Byte) (hm : m < 9) (hm' : m' < 9) (ho : off < 2 ^ 32)
    (ho' : off' < 2 ^ 32) (h : ¬(g' = g ∧ off' = off ∧ m' = m)) : (d.setCell g m off b).cell g' m' off' = d.cell g' m' off' := by
  refine SMap.get_set_other _ _ _ _ _ (fun he => h ?_)
  unfold cellKey at he
  omega

/-- XOR of the listed members but `m`. -/
def xorBut (m : Nat) (c : Nat → Byte) (l : List Nat) : Byte := l.foldl (fun b k => if k = m then b else b ^^^ c k) 0

theorem Dev.xorOthers_eq (d : Dev) (g m off : Nat) : d.xorOthers g m off = xorBut m (fun k => d.cell g k off) (List.range 9) := rfl

theorem xorBut_foldl (m : Nat) (c : Nat → Byte) (l : List Nat) :
    ∀ b : Byte, l.foldl (fun b k => if k = m then b else b ^^^ c k) b = b ^^^ xorBut m c l := by
  induction l with
  | nil => intro b; simp [xorBut]
  | cons k l ih =>
    intro b
    simp only [xorBut, List.foldl_cons] at ih ⊢
    rw [ih, ih (if k = m then 0 else 0 ^^^ c k)]
    split <;> simp [BitVec.xor_assoc]

theorem xorBut_cons (m k : Nat) (c : Nat → Byte) (l : List Nat) :
    xorBut m c (k :: l) = (if k = m then 0 else c k) ^^^ xorBut m c l := by
  rw [xorBut, List.foldl_cons, xorBut_foldl]
  split <;> simp

theorem xorBut_congr (m : Nat) {c c' : Nat → Byte} (l : List Nat) (h : ∀ k ∈ l, k ≠ m → c' k = c k) : xorBut m c' l = xorBut m c l := by
  induction l with
  | nil => rfl
  | cons k l ih =>
    rw [xorBut_cons, xorBut_cons, ih (fun j hj => h j (List.mem_cons_of_mem k hj))]
    by_cases hk : k = m
    · rw [if_pos hk, if_pos hk]
    · rw [if_neg hk, if_neg hk, h k List.mem_cons_self hk]

/-- One member's change changes the XOR by the difference. -/
theorem xorBut_change (m p : Nat) {c c' : Nat → Byte} (l : List Nat) (hl : l.Nodup) (hp : p ∈ l) (hpm : p ≠ m)
    (h : ∀ k ∈ l, k ≠ p → k ≠ m → c' k = c k) : xorBut m c' l = xorBut m c l ^^^ c p ^^^ c' p := by
  induction l with
  | nil => exact absurd hp List.not_mem_nil
  | cons k l ih =>
    obtain ⟨hk, hl⟩ := List.nodup_cons.mp hl
    rw [xorBut_cons, xorBut_cons]
    by_cases hkp : k = p
    · subst hkp
      have hc : xorBut m c' l = xorBut m c l :=
        xorBut_congr m l (fun j hj => h j (List.mem_cons_of_mem k hj) (fun he => hk (he ▸ hj)))
      rw [if_neg hpm, if_neg hpm, hc]
      grind
    · have hpl : p ∈ l := (List.mem_cons.mp hp).resolve_left (Ne.symm hkp)
      have hh : (if k = m then 0 else c' k) = if k = m then 0 else c k := by
        split
        · rfl
        · next hkm => exact h k List.mem_cons_self hkp hkm
      rw [ih hl hpl (fun j hj => h j (List.mem_cons_of_mem k hj)), hh]
      grind

/-- The group of a byte of DRAM, and the members that hold it and its row's parity. -/
abbrev Dev.grpOf (d : Dev) (a : Nat) : Grp := d.grp (dramGroup a)
abbrev dataMember (a : Nat) : Nat := memberOf (dramRow a) (dramUnit a)
abbrev parityMember (a : Nat) : Nat := parityOf (dramRow a)

theorem parityMember_ne (a : Nat) : parityMember a ≠ dataMember a := parityOf_ne_memberOf _ (dramUnit_lt a)

/-- Places of the channels other than a byte of DRAM and its parity hold what they held. -/
def SameCellsBut (d e : Dev) (a : Nat) : Prop :=
  ∀ g k off, k < 9 → off < 2 ^ 32 → ¬(g = dramGroup a ∧ off = chanOff a ∧ (k = dataMember a ∨ k = parityMember a)) →
    e.cell g k off = d.cell g k off

theorem SameCellsBut.refl (d : Dev) (a : Nat) : SameCellsBut d d a := fun _ _ _ _ _ _ => rfl

theorem SameCellsBut.setMember {d e : Dev} {a : Nat} (h : SameCellsBut d e a) (b : Byte) :
    SameCellsBut d (e.setCell (dramGroup a) (dataMember a) (chanOff a) b) a := by
  intro g k off hk ho hn
  rw [Dev.cell_setCell_other e b (memberOf_lt _ _) hk (chanOff_lt a) ho (fun hc => hn ⟨hc.1, hc.2.1, .inl hc.2.2⟩)]
  exact h g k off hk ho hn

theorem SameCellsBut.setParity {d e : Dev} {a : Nat} (h : SameCellsBut d e a) (b : Byte) :
    SameCellsBut d (e.setCell (dramGroup a) (parityMember a) (chanOff a) b) a := by
  intro g k off hk ho hn
  rw [Dev.cell_setCell_other e b (parityOf_lt _) hk (chanOff_lt a) ho (fun hc => hn ⟨hc.1, hc.2.1, .inr hc.2.2⟩)]
  exact h g k off hk ho hn

/-- A store in the parity leaves the member's byte. -/
theorem Dev.cell_setParity (d : Dev) (a : Nat) (b : Byte) :
    (d.setCell (dramGroup a) (parityMember a) (chanOff a) b).cell (dramGroup a) (dataMember a) (chanOff a) =
      d.cell (dramGroup a) (dataMember a) (chanOff a) :=
  d.cell_setCell_other b (parityOf_lt _) (memberOf_lt _ _) (chanOff_lt a) (chanOff_lt a) (fun h => parityMember_ne a h.2.2.symm)

/-- A store in the member leaves the parity. -/
theorem Dev.cell_setMember (d : Dev) (a : Nat) (b : Byte) :
    (d.setCell (dramGroup a) (dataMember a) (chanOff a) b).cell (dramGroup a) (parityMember a) (chanOff a) =
      d.cell (dramGroup a) (parityMember a) (chanOff a) :=
  d.cell_setCell_other b (memberOf_lt _ _) (parityOf_lt _) (chanOff_lt a) (chanOff_lt a) (fun h => parityMember_ne a h.2.2)

/-! ## What a store does to the channels -/

@[simp] theorem Dev.setDramByte_grps (d : Dev) (a : Nat) (b : Byte) : (d.setDramByte a b).grps = d.grps := by
  unfold Dev.setDramByte
  dsimp only
  split_ifs <;> simp

@[simp] theorem Dev.setDramByte_grp (d : Dev) (a g : Nat) (b : Byte) : (d.setDramByte a b).grp g = d.grp g := by
  rw [Dev.grp, Dev.setDramByte_grps, Dev.grp]

theorem Dev.setDramByte_cells (d : Dev) (a : Nat) (b : Byte) : SameCellsBut d (d.setDramByte a b) a := by
  have h := SameCellsBut.refl d a
  unfold Dev.setDramByte
  dsimp only
  split_ifs
  · exact (h.setMember _).setParity _
  · exact (h.setMember _).setParity _
  · exact h.setMember _
  · exact (h.setParity _).setMember _
  · exact h.setParity _
  · exact h

/-- A member that serves holds the byte stored. -/
theorem Dev.setDramByte_member (d : Dev) (a : Nat) (b : Byte) (hm : (d.grpOf a).up (dataMember a) = true) :
    (d.setDramByte a b).cell (dramGroup a) (dataMember a) (chanOff a) = b := by
  unfold Dev.setDramByte
  dsimp only
  rw [if_pos hm]
  split_ifs
  · rw [Dev.cell_setParity, Dev.cell_setCell_same]
  · rw [Dev.cell_setParity, Dev.cell_setCell_same]
  · rw [Dev.cell_setCell_same]

/-- The parity of a row whose member and parity serve follows the byte stored. -/
theorem Dev.setDramByte_parity (d : Dev) (a : Nat) (b : Byte) (hm : (d.grpOf a).up (dataMember a) = true)
    (hp : (d.grpOf a).up (parityMember a) = true) :
    (d.setDramByte a b).cell (dramGroup a) (parityMember a) (chanOff a) =
      d.cell (dramGroup a) (parityMember a) (chanOff a) ^^^ d.cell (dramGroup a) (dataMember a) (chanOff a) ^^^ b := by
  unfold Dev.setDramByte
  dsimp only
  rw [if_pos hm, if_pos hp, Dev.cell_setCell_same]

/-- Where the member does not serve, the parity takes the difference to what the others give. -/
theorem Dev.setDramByte_rebuilt (d : Dev) (a : Nat) (b : Byte) (hm : (d.grpOf a).up (dataMember a) = false)
    (ho : (d.grpOf a).othersUp (dataMember a) = true) :
    (d.setDramByte a b).cell (dramGroup a) (parityMember a) (chanOff a) =
      d.cell (dramGroup a) (parityMember a) (chanOff a) ^^^ d.xorOthers (dramGroup a) (dataMember a) (chanOff a) ^^^ b := by
  unfold Dev.setDramByte
  dsimp only
  rw [if_neg (by rw [hm]; decide), if_pos ho]
  split_ifs
  · rw [Dev.cell_setMember, Dev.cell_setCell_same]
  · rw [Dev.cell_setCell_same]

/-! ## What a read gives -/

theorem Dev.dramByte_up (d : Dev) (a : Nat) (hm : (d.grpOf a).up (dataMember a) = true) :
    d.dramByte a = some (d.cell (dramGroup a) (dataMember a) (chanOff a)) := by
  unfold Dev.dramByte
  dsimp only
  rw [if_pos hm]

theorem Dev.dramByte_rebuilt (d : Dev) (a : Nat) (hm : (d.grpOf a).up (dataMember a) = false)
    (ho : (d.grpOf a).othersUp (dataMember a) = true) :
    d.dramByte a = some (d.xorOthers (dramGroup a) (dataMember a) (chanOff a)) := by
  unfold Dev.dramByte
  dsimp only
  rw [if_neg (by rw [hm]; decide), if_pos ho]

theorem Dev.dramByte_lost (d : Dev) (a : Nat) (hm : (d.grpOf a).up (dataMember a) = false)
    (ho : (d.grpOf a).othersUp (dataMember a) = false) : d.dramByte a = none := by
  unfold Dev.dramByte
  dsimp only
  rw [if_neg (by rw [hm]; decide), if_neg (by rw [ho]; decide)]

/-- Where all others of a member serve, each of them does. -/
theorem Grp.up_of_othersUp {x : Grp} {m k : Nat} (h : x.othersUp m = true) (hk : k < 9) (hkm : k ≠ m) : x.up k = true := by
  have := List.all_eq_true.mp h k (List.mem_range.mpr hk)
  simpa [hkm] using this

/-- The XOR over the others of the data member changes with the parity alone, when no other place of the line changes. -/
theorem xorOthers_of_parity {d e : Dev} {a : Nat} (hs : SameCellsBut d e a) :
    e.xorOthers (dramGroup a) (dataMember a) (chanOff a) = d.xorOthers (dramGroup a) (dataMember a) (chanOff a) ^^^
      d.cell (dramGroup a) (parityMember a) (chanOff a) ^^^ e.cell (dramGroup a) (parityMember a) (chanOff a) := by
  rw [Dev.xorOthers_eq, Dev.xorOthers_eq]
  refine xorBut_change _ (parityMember a) _ List.nodup_range (List.mem_range.mpr (parityOf_lt _)) (parityMember_ne a) ?_
  intro k hk hkp hkm
  exact hs _ k _ (List.mem_range.mp hk) (chanOff_lt a) (fun hc => hc.2.2.elim hkm hkp)

/-- A byte of DRAM that can be read reads back what was stored. -/
theorem Dev.dramByte_back (d : Dev) (a : Nat) (b : Byte) (h : (d.dramByte a).isSome = true) : (d.setDramByte a b).dramByte a = some b := by
  cases hm : (d.grpOf a).up (dataMember a) with
  | true =>
    rw [Dev.dramByte_up _ a (by rw [Dev.grpOf, Dev.setDramByte_grp]; exact hm), d.setDramByte_member a b hm]
  | false =>
    cases ho : (d.grpOf a).othersUp (dataMember a) with
    | true =>
      rw [Dev.dramByte_rebuilt _ a (by rw [Dev.grpOf, Dev.setDramByte_grp]; exact hm)
        (by rw [Dev.grpOf, Dev.setDramByte_grp]; exact ho), xorOthers_of_parity (d.setDramByte_cells a b),
        d.setDramByte_rebuilt a b hm ho]
      congr 1
      grind
    | false =>
      rw [d.dramByte_lost a hm ho] at h
      exact absurd h (by decide)

/-! ## Other bytes -/

/-- Another byte's member holds what it held. -/
theorem SameCellsBut.data {d e : Dev} {a a' : Nat} (hs : SameCellsBut d e a) (hne : a' ≠ a) :
    e.cell (dramGroup a') (dataMember a') (chanOff a') = d.cell (dramGroup a') (dataMember a') (chanOff a') := by
  refine hs _ _ _ (memberOf_lt _ _) (chanOff_lt a') ?_
  rintro ⟨hg, ho, hm | hp⟩
  · exact hne (dram_place_inj hg ho hm)
  · refine parityMember_ne a' ?_
    rw [hp, parityMember, dramRow_of_chanOff ho]

/-- XOR over the others is the same off the line of the store. -/
theorem SameCellsBut.xorOthers_off {d e : Dev} {a : Nat} (hs : SameCellsBut d e a) (g m off : Nat) (hoff : off < 2 ^ 32)
    (hne : ¬(g = dramGroup a ∧ off = chanOff a)) : e.xorOthers g m off = d.xorOthers g m off := by
  rw [Dev.xorOthers_eq, Dev.xorOthers_eq]
  exact xorBut_congr m _ (fun k hk _ => hs g k off (List.mem_range.mp hk) hoff (fun hc => hne ⟨hc.1, hc.2.1⟩))

/-- Two changes by one difference leave an XOR as it was. -/
theorem xorBut_twoChanges (n m p : Nat) {c c' : Nat → Byte} (l : List Nat) (hl : l.Nodup) (hm : m ∈ l) (hp : p ∈ l) (hmn : m ≠ n)
    (hpn : p ≠ n) (hpm : p ≠ m) (h : ∀ k ∈ l, k ≠ m → k ≠ p → c' k = c k) (hv : c' p = c p ^^^ c m ^^^ c' m) :
    xorBut n c' l = xorBut n c l := by
  have h1 : xorBut n (Function.update c m (c' m)) l = xorBut n c l ^^^ c m ^^^ c' m := by
    rw [xorBut_change n m l hl hm hmn (fun k _ hkm _ => Function.update_of_ne hkm _ _), Function.update_self]
  have h2 : xorBut n c' l = xorBut n (Function.update c m (c' m)) l ^^^ Function.update c m (c' m) p ^^^ c' p := by
    refine xorBut_change n p l hl hp hpn (fun k hk hkp _ => ?_)
    by_cases hkm : k = m
    · rw [hkm, Function.update_self]
    · rw [Function.update_of_ne hkm, h k hk hkm hkp]
  rw [h2, h1, Function.update_of_ne hpm, hv]
  grind

/-- On the line of a store whose member and parity serve, XOR over the others of a third member is the same. -/
theorem Dev.setDramByte_line (d : Dev) (a n : Nat) (b : Byte) (hm : (d.grpOf a).up (dataMember a) = true)
    (hp : (d.grpOf a).up (parityMember a) = true) (hmn : dataMember a ≠ n) (hpn : parityMember a ≠ n) :
    (d.setDramByte a b).xorOthers (dramGroup a) n (chanOff a) = d.xorOthers (dramGroup a) n (chanOff a) := by
  rw [Dev.xorOthers_eq, Dev.xorOthers_eq]
  refine xorBut_twoChanges n (dataMember a) (parityMember a) _ List.nodup_range (List.mem_range.mpr (memberOf_lt _ _))
    (List.mem_range.mpr (parityOf_lt _)) hmn hpn (parityMember_ne a) ?_ ?_
  · intro k hk hkm hkp
    exact d.setDramByte_cells a b _ k _ (List.mem_range.mp hk) (chanOff_lt a) (fun hc => hc.2.2.elim hkm hkp)
  · rw [d.setDramByte_parity a b hm hp, d.setDramByte_member a b hm]

/-- Another byte's reconstruction is the same: it needs the stored byte's member and parity to serve. -/
theorem Dev.setDramByte_xorOthers (d : Dev) (a a' : Nat) (b : Byte) (hne : a' ≠ a) (ho : (d.grpOf a').othersUp (dataMember a') = true) :
    (d.setDramByte a b).xorOthers (dramGroup a') (dataMember a') (chanOff a') = d.xorOthers (dramGroup a') (dataMember a') (chanOff a') := by
  by_cases hl : dramGroup a' = dramGroup a ∧ chanOff a' = chanOff a
  · obtain ⟨hg, hoff⟩ := hl
    have hmn : dataMember a ≠ dataMember a' := fun he => hne (dram_place_inj hg hoff he.symm)
    have hpn : parityMember a ≠ dataMember a' := by
      have := parityMember_ne a'
      rwa [parityMember, dramRow_of_chanOff hoff] at this
    rw [Dev.grpOf, hg] at ho
    rw [hg, hoff]
    exact d.setDramByte_line a (dataMember a') b (Grp.up_of_othersUp ho (memberOf_lt _ _) hmn)
      (Grp.up_of_othersUp ho (parityOf_lt _) hpn) hmn hpn
  · exact (d.setDramByte_cells a b).xorOthers_off _ _ _ (chanOff_lt a') hl

/-- No other byte of DRAM changes. -/
theorem Dev.dramByte_other (d : Dev) (a a' : Nat) (b : Byte) (hne : a' ≠ a) : (d.setDramByte a b).dramByte a' = d.dramByte a' := by
  have hg : (d.setDramByte a b).grpOf a' = d.grpOf a' := d.setDramByte_grp a _ b
  cases hm : (d.grpOf a').up (dataMember a') with
  | true => rw [Dev.dramByte_up _ a' (hg ▸ hm), d.dramByte_up a' hm, (d.setDramByte_cells a b).data hne]
  | false =>
    cases ho : (d.grpOf a').othersUp (dataMember a') with
    | true => rw [Dev.dramByte_rebuilt _ a' (hg ▸ hm) (hg ▸ ho), d.dramByte_rebuilt a' hm ho, d.setDramByte_xorOthers a a' b hne ho]
    | false => rw [Dev.dramByte_lost _ a' (hg ▸ hm) (hg ▸ ho), d.dramByte_lost a' hm ho]

/-! ## Physical bytes -/

theorem Dev.physByte_dram (d : Dev) (a : Nat) (h : targetOf a = .dram) : d.physByte a = d.dramByte a := by
  unfold Dev.physByte
  rw [h]

theorem Dev.setPhysByte_dram (d : Dev) (a : Nat) (b : Byte) (h : targetOf a = .dram) : d.setPhysByte a b = d.setDramByte a b := by
  unfold Dev.setPhysByte
  rw [h]

/-- The same members serve reads. -/
def SameService (d e : Dev) : Prop := ∀ g k, (e.grp g).up k = (d.grp g).up k

theorem SameService.of_grps {d e : Dev} (h : e.grps = d.grps) : SameService d e := by
  intro g k
  rw [Dev.grp, h, Dev.grp]

theorem SameService.trans {d e f : Dev} (h : SameService d e) (h' : SameService e f) : SameService d f :=
  fun g k => (h' g k).trans (h g k)

theorem SameService.othersUp {d e : Dev} (h : SameService d e) (g m : Nat) : (e.grp g).othersUp m = (d.grp g).othersUp m := by
  simp only [Grp.othersUp, h g]

/-- What a read gives depends on the members that serve and on the memories alone. -/
theorem Dev.xorOthers_congr {d e : Dev} (hr : e.ram = d.ram) (g m off : Nat) : e.xorOthers g m off = d.xorOthers g m off := by
  have hcell : e.cell = d.cell := by funext g m off; rw [Dev.cell, hr, Dev.cell]
  rw [Dev.xorOthers_eq, hcell, Dev.xorOthers_eq]

theorem Dev.dramByte_congr {d e : Dev} (hs : SameService d e) (hr : e.ram = d.ram) (a : Nat) : e.dramByte a = d.dramByte a := by
  have hcell : e.cell = d.cell := by funext g m off; rw [Dev.cell, hr, Dev.cell]
  unfold Dev.dramByte
  dsimp only
  rw [hs, hs.othersUp, hcell, Dev.xorOthers_congr hr]

theorem Dev.physByte_congr {d e : Dev} (hs : SameService d e) (hr : e.ram = d.ram) (a : Nat) : e.physByte a = d.physByte a := by
  have hb : e.sysByte a = d.sysByte a := by rw [Dev.sysByte, hr, Dev.sysByte]
  unfold Dev.physByte
  rw [Dev.dramByte_congr hs hr, hb]

/-- The address of a byte that memory answers for lies in DRAM, stage SRAM or host memory. -/
theorem targetOf_of_physByte (d : Dev) (a : Nat) (h : (d.physByte a).isSome = true) :
    targetOf a = .dram ∨ targetOf a = .sram ∨ targetOf a = .host := by
  unfold Dev.physByte at h
  cases ht : targetOf a <;> simp [ht] at h ⊢

theorem Dev.physByte_back (d : Dev) (a : Nat) (b : Byte) (h : (d.physByte a).isSome = true) : (d.setPhysByte a b).physByte a = some b := by
  obtain ht | ht := targetOf_of_physByte d a h
  · rw [d.setPhysByte_dram a b ht, Dev.physByte_dram _ a ht]
    exact d.dramByte_back a b (d.physByte_dram a ht ▸ h)
  · exact d.sysByte_back a b ht

/-- A store in DRAM leaves stage SRAM and host memory. -/
@[simp] theorem Dev.setDramByte_sys (d : Dev) (a : Nat) (b : Byte) : (d.setDramByte a b).ram.sys = d.ram.sys := by
  unfold Dev.setDramByte
  dsimp only
  split_ifs <;> simp

/-- A store in stage SRAM or host memory leaves every other physical byte. -/
theorem Dev.setSysByte_physByte_other (d : Dev) (a a' : Nat) (b : Byte) (hne : a' ≠ a) :
    (d.setSysByte a b).physByte a' = d.physByte a' := by
  have hd : (d.setSysByte a b).dramByte a' = d.dramByte a' := rfl
  unfold Dev.physByte
  rw [hd, Dev.sysByte_setSysByte_other d a a' b hne]

theorem Dev.physByte_other (d : Dev) (a a' : Nat) (b : Byte) (hne : a' ≠ a) : (d.setPhysByte a b).physByte a' = d.physByte a' := by
  unfold Dev.setPhysByte
  split
  · have hs : (d.setDramByte a b).sysByte a' = d.sysByte a' := by rw [Dev.sysByte, Dev.setDramByte_sys, Dev.sysByte]
    unfold Dev.physByte
    rw [d.dramByte_other a a' b hne, hs]
  · exact d.setSysByte_physByte_other a a' b hne
  · exact d.setSysByte_physByte_other a a' b hne
  · rfl

/-- Consecutive bytes stored leave every byte outside their range. -/
theorem Dev.putBytes_other (bs : List Byte) :
    ∀ (d : Dev) (a x : Nat), x < a ∨ a + bs.length ≤ x → (d.putBytes a bs).physByte x = d.physByte x := by
  induction bs with
  | nil => exact fun d a x _ => rfl
  | cons b bs ih =>
    intro d a x hx
    rw [List.length_cons] at hx
    rw [Dev.putBytes, ih _ _ _ (by omega), d.physByte_other a x b (by omega)]

/-- Consecutive bytes stored read back where memory answers. -/
theorem Dev.putBytes_back (bs : List Byte) :
    ∀ (d : Dev) (a k : Nat), k < bs.length → (d.physByte (a + k)).isSome = true → (d.putBytes a bs).physByte (a + k) = bs[k]? := by
  induction bs with
  | nil => exact fun d a k hk _ => absurd hk (Nat.not_lt_zero k)
  | cons b bs ih =>
    intro d a k hk hs
    rw [Dev.putBytes]
    cases k with
    | zero =>
      rw [Nat.add_zero a] at hs ⊢
      rw [Dev.putBytes_other bs _ _ _ (by omega), d.physByte_back a b hs, List.getElem?_cons_zero]
    | succ k =>
      have ha : a + (k + 1) = a + 1 + k := by omega
      rw [ha] at hs ⊢
      rw [List.getElem?_cons_succ]
      refine ih _ _ k (Nat.lt_of_succ_lt_succ hk) ?_
      rwa [d.physByte_other a _ b (by omega)]

/-- An engine's write keeps the canonical form of the memories. -/
theorem Dev.physWrite_wf (d : Dev) (a : Nat) (bs : List Byte) (who : Option Nat) (h : d.ram.wf = true) :
    (d.physWrite a bs who).1.ram.wf = true := by
  unfold Dev.physWrite
  split
  · split
    · exact h
    · dsimp only
      rwa [Dev.hole_ram]
  · exact h
  · dsimp only
    split
    · rw [Dev.noteRows_ram]
      exact d.putBytes_wf bs a h
    · exact d.putBytes_wf bs a h

/-- Settles O34. -/
theorem memoryHoldsWhatIsStored : Obligations.MemoryHoldsWhatIsStored :=
  ⟨Dev.physByte_back, Dev.physByte_other, Dev.physWrite_wf, State.reset_ram_wf⟩

end Sys2Proof.Machine
end

section
/-! Memory controllers (chapter 5): which members a request's handling leaves in service, and what a channel fault raises. -/

namespace Sys2Proof.Machine

@[simp] theorem Grp.m_modM_same (x : Grp) (m : Nat) (f : Mem1 → Mem1) : (x.modM m f).m m = f (x.m m) := SMap.get_set_same _ _ _ _

theorem Grp.m_modM_other (x : Grp) (m k : Nat) (f : Mem1 → Mem1) (h : k ≠ m) : (x.modM m f).m k = x.m k :=
  SMap.get_set_other _ _ _ _ _ h

theorem Dev.grp_setGrp_other (d : Dev) (g g' : Nat) (x : Grp) (h : g' ≠ g) : (d.setGrp g x).grp g' = d.grp g' :=
  SMap.get_set_other _ _ _ _ _ h

/-- A group whose members and retirement stay serves as before. -/
theorem SameService.setGrp (d : Dev) (g : Nat) (x : Grp) (h : ∀ k, x.up k = (d.grp g).up k) : SameService d (d.setGrp g x) := by
  intro g' k
  by_cases hg : g' = g
  · rw [hg, Dev.grp_setGrp_same, h]
  · rw [d.grp_setGrp_other g g' x hg]

/-- A member that leaves self-refresh for a request served before and serves now (R125). -/
theorem Dev.wake_service (d : Dev) (g m : Nat) : SameService d (d.wake g m) := by
  refine SameService.setGrp d g _ (fun k => ?_)
  dsimp only
  split
  · next hsr =>
    by_cases hk : k = m
    · subst hk
      simp only [Grp.up, Grp.m_modM_same, hsr]
      rfl
    · simp only [Grp.up, Grp.m_modM_other _ _ _ _ hk]
      rfl
  · rfl

@[simp] theorem Dev.wake_keeps (d : Dev) (g m : Nat) :
    (d.wake g m).ram = d.ram ∧ (d.wake g m).pages = d.pages ∧ (d.wake g m).out = d.out := by
  simp [Dev.wake]

/-- An activate draws, and may count a neighbour refresh. -/
@[simp] theorem Dev.activate_keeps (d : Dev) (g m : Nat) :
    (d.activate g m).ram = d.ram ∧ (d.activate g m).grps = d.grps ∧ (d.activate g m).out = d.out := by
  unfold Dev.activate
  dsimp only
  split <;> simp

theorem Dev.noteRow_service (d : Dev) (g n : Nat) (u : BitVec 8) : SameService d (d.noteRow g n u) := by
  have h : ∀ l : List Merge, SameService d (d.setGrp g { d.grp g with merges := l }) := fun l => SameService.setGrp d g _ (fun _ => rfl)
  have hb : ∀ l : List Merge, SameService d ((d.setGrp g { d.grp g with merges := l }).bump (pg (8 + g)) Reg.MC_RMW_CNT 31 0) :=
    fun l => (h l).trans (SameService.of_grps (by simp))
  unfold Dev.noteRow
  dsimp only
  split_ifs
  · exact h _
  · exact hb _
  · exact h _

theorem Dev.noteRows_service (d : Dev) (a len : Nat) : SameService d (d.noteRows a len) := by
  unfold Dev.noteRows
  split
  · exact fun _ _ => rfl
  · exact foldl_keeps (fun e => SameService d e) _ (fun e _ h => h.trans (Dev.noteRow_service e _ _ _)) _ d (fun _ _ => rfl)

/-! ## Channel faults -/

theorem kindOf_mcPage : ∀ g < 4, kindOf (mcPage g) = .mc := by decide

/-- Raising a source keeps the others raised. -/
theorem bit_putBit_true (n m : Nat) (w : Word) (hn : n < 32) (h : bit m w = true) : bit m (putBit n true w) = true := by
  by_cases hm : m = n
  · rw [hm, bit_putBit_same n true w hn]
  · rwa [bit_putBit_other n m true w hm]

/-- A detection without an action keeps what was raised. -/
theorem Dev.detectPlain_raised (d : Dev) (p : Page) (src x : Nat) (at_ : Sev) (hs : src < 32) (h : raised d p x) :
    raised (d.detectPlain p src at_) p x := by
  obtain ⟨y, eff, hn, hr, -⟩ := d.note_cases p src 100 at_
  unfold raised Dev.detectPlain
  rw [hn, Dev.signal_hdr, Dev.hdr_setHdr_same, hr]
  exact bit_putBit_true src x _ hs h

@[simp] theorem Dev.queueRecord_pages (d : Dev) (p : Page) (v : Word) : (d.queueRecord p v).pages = d.pages := by
  unfold Dev.queueRecord
  split <;> rfl

theorem Dev.clearCount_raw (d : Dev) (p : Page) (u : Nat) : ((d.clearCount p u).hdr p).raw = (d.hdr p).raw := by
  rw [Dev.clearCount, Dev.hdr_modHdr_same]

/-- The retirement of a member leaves the raw bits of its page. -/
theorem Dev.retireUnit_mc_raw (d : Dev) (p : Page) (u : Nat) (hk : kindOf p = .mc) : ((d.retireUnit p u).1.hdr p).raw = (d.hdr p).raw := by
  have hg : ∀ (g : Nat) (x : Grp), (((d.setGrp g x).clearCount p u).hdr p).raw = (d.hdr p).raw :=
    fun g x => (d.setGrp g x).clearCount_raw p u
  have hq : ∀ (g : Nat) (x : Grp) (v : Word), ((((d.setGrp g x).clearCount p u).queueRecord p v).hdr p).raw = (d.hdr p).raw := by
    intro g x v
    rw [Dev.hdr, Dev.queueRecord_pages]
    exact hg g x
  unfold Dev.retireUnit
  simp only [hk, PageKind.retiresPage, Bool.false_eq_true, if_false, if_true]
  split
  · rfl
  · split
    · exact hg _ _
    · exact hq _ _ _

/-- What a PERMANENT channel fault does keeps what was raised. -/
theorem Dev.permanent_mc_raised (d : Dev) (p : Page) (u x : Nat) (hk : kindOf p = .mc) (h : raised d p x) :
    raised (d.permanent p Evt.MC_CHAN_FAULT (some u) false) p x := by
  have ha : (evDesc .mc Evt.MC_CHAN_FAULT).act = .retire := by decide
  have hr : raised (d.retireUnit p u).1 p x := by
    unfold raised
    rwa [d.retireUnit_mc_raw p u hk]
  unfold Dev.permanent
  simp only [hk, ha]
  split
  · exact Dev.detectPlain_raised _ p _ x _ (by decide) hr
  · exact hr

/-- A detected channel fault is raised, whatever it leads to. -/
theorem Dev.detectUnit_chanFault_raised (d : Dev) (p : Page) (u : Nat) (hk : kindOf p = .mc) :
    raised (d.detectUnit p Evt.MC_CHAN_FAULT u) p Evt.MC_CHAN_FAULT := by
  obtain ⟨h, eff, hn, hr, -⟩ := d.note_cases p Evt.MC_CHAN_FAULT u ((d.hdr p).sev Evt.MC_CHAN_FAULT)
  have hh : (evDesc .mc Evt.MC_CHAN_FAULT).hang = false := by decide
  have hx : raised (d.setHdr p h) p Evt.MC_CHAN_FAULT := by
    unfold raised
    rw [Dev.hdr_setHdr_same, hr]
    exact bit_putBit_same _ true _ (by decide)
  unfold raised Dev.detectUnit Dev.detectAt
  rw [if_neg (by rw [hk]; decide), if_neg (by simp)]
  simp only [Option.getD_some, hn, hk, hh, Bool.and_false, Bool.false_eq_true, if_false, Dev.signal_hdr]
  split
  · exact Dev.permanent_mc_raised _ p u _ hk hx
  · exact hx

/-- A fault of a channel that serves is detected. -/
theorem Dev.chanFault_raised (d : Dev) (g m : Nat) (hg : g < 4) (hup : (d.grp g).up m = true) :
    raised (d.chanFault g m) (mcPage g) Evt.MC_CHAN_FAULT := by
  have hn : ¬(((d.grp g).m m).state = .retired || ((d.grp g).m m).lost || (d.grp g).retiring = some m) = true := by
    simp only [Grp.up, Bool.and_eq_true, Bool.or_eq_true, beq_iff_eq, Bool.not_eq_true', bne_iff_ne] at hup
    obtain ⟨⟨hs, hl⟩, hr⟩ := hup
    obtain hs | hs := hs <;> simp [hs, hl, hr]
  unfold Dev.chanFault
  dsimp only
  rw [if_neg hn]
  exact Dev.detectUnit_chanFault_raised _ _ _ (kindOf_mcPage g hg)

end Sys2Proof.Machine
end

section
/-! Fabric reads and writes of DRAM (R113 to R117): what a request served does, what one held waits for, and where it is refused. -/

namespace Sys2Proof.Machine

/-- The unit of an address lies where the address lies. -/
theorem dramGroup_unit (a : Nat) : dramGroup (a / 64 * 64) = dramGroup a := by
  simp only [dramGroup, Nat.shiftRight_eq_div_pow]
  omega

theorem dataMember_unit (a : Nat) : dataMember (a / 64 * 64) = dataMember a := by
  have hr : dramRow (a / 64 * 64) = dramRow a := by
    simp only [dramRow, Nat.shiftRight_eq_div_pow]
    omega
  have hu : dramUnit (a / 64 * 64) = dramUnit a := by
    simp only [dramUnit, Nat.shiftRight_eq_div_pow]
    omega
  rw [dataMember, hr, hu]

theorem dramGroup_lt {a : Nat} (h : a < 0x2000000000) : dramGroup a < 4 := by
  rw [dramGroup, Nat.shiftRight_eq_div_pow]
  omega

theorem Dev.dramUnitBytes_congr {d e : Dev} (hs : SameService d e) (hr : e.ram = d.ram) (a : Nat) : e.dramUnitBytes a = d.dramUnitBytes a := by
  simp only [Dev.dramUnitBytes, Dev.dramByte_congr hs hr]

theorem Dev.rebuilt_congr {d e : Dev} (hs : SameService d e) (hr : e.ram = d.ram) (a : Nat) : e.rebuilt a = d.rebuilt a := by
  simp only [Dev.rebuilt, hs.othersUp, Dev.xorOthers_congr hr]

/-- A request's member woken and activated: the same members serve, and memory and outputs stay. -/
theorem Dev.wakeActivate_service (d : Dev) (g m k : Nat) : SameService d ((d.wake g m).activate g k) :=
  (d.wake_service g m).trans (SameService.of_grps ((d.wake g m).activate_keeps g k).2.1)

@[simp] theorem Dev.wakeActivate_ram (d : Dev) (g m k : Nat) : ((d.wake g m).activate g k).ram = d.ram := by simp

/-- An answer is all that an answer adds. -/
theorem Dev.dramAnswer_some (d : Dev) (who : Requester) (bs : List Byte) : d.dramAnswer who (some bs) = d.emit (.memData who bs) := rfl

@[simp] theorem Dev.dramAnswer_keeps (d : Dev) (who : Requester) (x : Option (List Byte)) :
    (d.dramAnswer who x).ram = d.ram ∧ (d.dramAnswer who x).pages = d.pages := by
  unfold Dev.dramAnswer
  split <;> simp

theorem Dev.dramAnswer_out (d : Dev) (who : Requester) (x : Option (List Byte)) :
    match x with
    | some bs => Output.memData who bs ∈ (d.dramAnswer who x).out
    | none => Output.memError who ∈ (d.dramAnswer who x).out := by
  cases x with
  | some bs => exact List.mem_cons_self
  | none => exact List.mem_cons_self

/-! ## Reads -/

/-- A unit's reconstruction counts once (R114). -/
theorem Dev.noteReads_unit (d : Dev) (a : Nat) (ha : a % 64 = 0) (hm : (d.grpOf a).up (dataMember a) = false) :
    d.noteReads a 64 = d.bump (mcPage (dramGroup a)) Reg.MC_DEGRADED_RD 31 0 := by
  have h1 : (a + 64 - 1) / 64 - a / 64 + 1 = 1 := by omega
  have h2 : (a / 64 + 0) * 64 = a := by omega
  unfold Dev.noteReads
  rw [if_neg (by decide), h1, List.range_one, List.foldl_cons, List.foldl_nil]
  dsimp only
  rw [h2, if_neg (by rw [hm]; decide)]
  rfl

/-- A read where the member does not serve: by reconstruction, with its count. -/
theorem Dev.serveRead_degraded (d : Dev) (who : Requester) (a : Nat) (ecc : EccOutcome) (ha : a % 64 = 0)
    (hm : (d.grpOf a).up (dataMember a) = false) :
    d.serveRead who a ecc = (d.bump (mcPage (dramGroup a)) Reg.MC_DEGRADED_RD 31 0).dramAnswer who (d.dramUnitBytes a) := by
  rw [← d.noteReads_unit a ha hm]
  unfold Dev.serveRead
  dsimp only
  rw [if_pos (by rw [hm]; decide)]

/-- A clean read from a member that serves. -/
theorem Dev.serveRead_clean (d : Dev) (who : Requester) (a : Nat) (hm : (d.grpOf a).up (dataMember a) = true) :
    d.serveRead who a .clean =
      ((d.wake (dramGroup a) (dataMember a)).activate (dramGroup a) (dataMember a)).dramAnswer who (d.dramUnitBytes a) := by
  unfold Dev.serveRead
  dsimp only
  rw [if_neg (by rw [hm]; decide), Dev.dramUnitBytes_congr (d.wakeActivate_service _ _ _) (d.wakeActivate_ram _ _ _)]

/-- An uncorrectable read that the others can give is answered with their bytes, and the channel's fault is raised (R117). -/
theorem Dev.serveRead_uncorrectable (d : Dev) (who : Requester) (a : Nat) (bs : List Byte) (hg : dramGroup a < 4)
    (hm : (d.grpOf a).up (dataMember a) = true) (hb : d.rebuilt a = some bs) :
    Output.memData who bs ∈ (d.serveRead who a .uncorrectable).out ∧
      raised (d.serveRead who a .uncorrectable) (mcPage (dramGroup a)) Evt.MC_CHAN_FAULT := by
  have hs := d.wakeActivate_service (dramGroup a) (dataMember a) (dataMember a)
  generalize he : ((d.wake (dramGroup a) (dataMember a)).activate (dramGroup a) (dataMember a)).bumpSat (mcPage (dramGroup a))
    Reg.MC_CH_ECC_CNT 31 16 1 (dataMember a) = e
  have hup : (e.grp (dramGroup a)).up (dataMember a) = true := by
    rw [← he, Dev.grp, (Dev.bumpSat_keeps _ _ _ _ _ _ _).2.2.2.2.2.2.2.2.1]
    exact (hs _ _).trans hm
  have hread : d.serveRead who a .uncorrectable =
      ((e.chanFault (dramGroup a) (dataMember a)).bump (mcPage (dramGroup a)) Reg.MC_DEGRADED_RD 31 0).emit (.memData who bs) := by
    unfold Dev.serveRead
    dsimp only
    rw [if_neg (by rw [hm]; decide), Dev.rebuilt_congr hs (d.wakeActivate_ram _ _ _), hb, he]
    rfl
  rw [hread]
  exact ⟨List.mem_cons_self, raised_of_hdrs rfl (e.chanFault_raised _ _ hg hup)⟩

/-! ## Writes -/

/-- A write served stores its bytes and no others. -/
theorem Dev.serveWrite_bytes (d : Dev) (a : Nat) (bs : List Byte) :
    (∀ k, k < bs.length → (d.physByte (a + k)).isSome = true → (d.serveWrite a bs).physByte (a + k) = bs[k]?) ∧
      ∀ x, x < a ∨ a + bs.length ≤ x → (d.serveWrite a bs).physByte x = d.physByte x := by
  have hw : ∃ e : Dev, d.serveWrite a bs = (e.putBytes a bs).noteRows a bs.length ∧ SameService d e ∧ e.ram = d.ram :=
    ⟨_, rfl, (d.wake_service _ _).trans (Dev.wakeActivate_service _ _ _ _), by simp⟩
  obtain ⟨e, hw, hs, hr⟩ := hw
  have hp : ∀ x, e.physByte x = d.physByte x := Dev.physByte_congr hs hr
  have hn : ∀ x, (d.serveWrite a bs).physByte x = (e.putBytes a bs).physByte x := by
    rw [hw]
    exact Dev.physByte_congr (Dev.noteRows_service _ _ _) (Dev.noteRows_ram _ _ _)
  refine ⟨fun k hk hk' => ?_, fun x hx => ?_⟩
  · rw [hn, Dev.putBytes_back bs e a k hk (by rwa [hp])]
  · rw [hn, Dev.putBytes_other bs e a x hx, hp]

/-! ## Requests -/

theorem Dev.dramRequest_served (d : Dev) (q : DramReq) (ha : q.addr < 0x2000000000) (hs : d.grpServes (dramGroup q.addr) = true) :
    d.dramRequest q = d.serveReq q := by
  unfold Dev.dramRequest
  dsimp only
  rw [if_neg (by omega), if_pos hs]

/-- A group that does not serve holds the request; nothing else changes. -/
theorem Dev.dramRequest_held (d : Dev) (q : DramReq) (ha : q.addr < 0x2000000000) (hs : d.grpServes (dramGroup q.addr) = false) :
    ((d.dramRequest q).grp (dramGroup q.addr)).held = (d.grp (dramGroup q.addr)).held ++ [q] ∧ (d.dramRequest q).ram = d.ram ∧
      (d.dramRequest q).out = d.out := by
  unfold Dev.dramRequest
  dsimp only
  rw [if_neg (by omega), if_neg (by rw [hs]; decide)]
  simp

/-- Beyond DRAM a request is an address error. -/
theorem Dev.dramRequest_hole (d : Dev) (q : DramReq) (ha : 0x2000000000 ≤ q.addr) :
    Output.addressError q.who ∈ (d.dramRequest q).out ∧ raised (d.dramRequest q) Pg.fb Evt.FB_ADDR_HOLE ∧ (d.dramRequest q).ram = d.ram := by
  unfold Dev.dramRequest
  dsimp only
  rw [if_pos ha]
  exact ⟨List.mem_cons_self, d.hole_raised _ _, d.hole_ram _ _⟩

theorem Dev.dramRead_served (d : Dev) (who : Requester) (a : Nat) (ecc : EccOutcome) (ha : a < 0x2000000000)
    (hs : d.grpServes (dramGroup a) = true) : d.dramRead who a ecc = d.serveRead who (a / 64 * 64) ecc :=
  d.dramRequest_served ⟨who, a / 64 * 64, ecc, none⟩ (lt_of_le_of_lt (Nat.div_mul_le_self a 64) ha) (by rwa [dramGroup_unit])

theorem Dev.grpOf_unit_up (d : Dev) (a : Nat) :
    (d.grpOf (a / 64 * 64)).up (dataMember (a / 64 * 64)) = (d.grp (dramGroup a)).up (dataMember a) := by
  rw [Dev.grpOf, dramGroup_unit, dataMember_unit]

/-- A clean read gives the unit's bytes, from its member or by reconstruction. -/
theorem Dev.dramRead_clean (d : Dev) (who : Requester) (a : Nat) (bs : List Byte) (ha : a < 0x2000000000)
    (hs : d.grpServes (dramGroup a) = true) (hb : d.dramUnitBytes (a / 64 * 64) = some bs) :
    Output.memData who bs ∈ (d.dramRead who a .clean).out ∧ (d.dramRead who a .clean).ram = d.ram := by
  rw [d.dramRead_served who a .clean ha hs]
  cases hm : (d.grpOf (a / 64 * 64)).up (dataMember (a / 64 * 64)) with
  | true =>
    rw [d.serveRead_clean who _ hm, hb, Dev.dramAnswer_some]
    exact ⟨List.mem_cons_self, d.wakeActivate_ram _ _ _⟩
  | false =>
    rw [d.serveRead_degraded who _ .clean (Nat.mul_mod_left _ _) hm, hb, Dev.dramAnswer_some]
    exact ⟨List.mem_cons_self, by simp⟩

/-- Settles O35: each clause by the lemma of a request served, held or refused. -/
theorem dramReadsAndWrites : Obligations.DramReadsAndWrites := by
  refine ⟨?_, ?_, ?_, ?_, ?_, ?_⟩
  · exact fun s who a bs ha hs hb => ⟨_, rfl, s.dev.dramRead_clean who a.toNat bs ha hs hb⟩
  · intro s who a ecc ha hs hm
    refine ⟨_, rfl, ?_⟩
    dsimp only
    rw [s.dev.dramRead_served who _ ecc ha hs,
      s.dev.serveRead_degraded who _ ecc (Nat.mul_mod_left _ _) ((s.dev.grpOf_unit_up _).trans hm), dramGroup_unit]
    refine ⟨by simp, ?_, ?_⟩
    · exact Dev.dramAnswer_out _ who _
    · rw [Dev.rf, Dev.reg, (Dev.dramAnswer_keeps _ _ _).2]
      exact Dev.rf_bump_same _ _ _ 31 1 0 (by decide)
  · intro s who a bs ha hs hm hb
    have h := s.dev.serveRead_uncorrectable who (a.toNat / 64 * 64) bs (by rw [dramGroup_unit]; exact dramGroup_lt ha)
      ((s.dev.grpOf_unit_up _).trans hm) hb
    rw [← s.dev.dramRead_served who _ .uncorrectable ha hs, dramGroup_unit] at h
    exact ⟨_, rfl, h⟩
  · intro s who a bs ha hs
    have h := s.dev.serveWrite_bytes a.toNat bs
    rw [show s.dev.serveWrite a.toNat bs = s.dev.dramWrite who a.toNat bs from
      (s.dev.dramRequest_served ⟨who, a.toNat, .clean, some bs⟩ ha hs).symm] at h
    exact ⟨_, rfl, h⟩
  · intro s who a ecc bs c q hc ha hs
    have hr := s.dev.dramRequest_held ⟨who, a.toNat / 64 * 64, ecc, none⟩ (lt_of_le_of_lt (Nat.div_mul_le_self _ 64) ha)
      (by rwa [dramGroup_unit])
    rw [dramGroup_unit] at hr
    have hw := s.dev.dramRequest_held ⟨who, a.toNat, .clean, some bs⟩ ha hs
    simp only [List.mem_cons, Prod.mk.injEq, List.not_mem_nil, or_false] at hc
    obtain ⟨rfl, rfl⟩ | ⟨rfl, rfl⟩ := hc
    · exact ⟨_, rfl, hr⟩
    · exact ⟨_, rfl, hw⟩
  · intro s who a ecc bs c hc ha
    have hr := s.dev.dramRequest_hole ⟨who, a.toNat / 64 * 64, ecc, none⟩ (show 0x2000000000 ≤ a.toNat / 64 * 64 by omega)
    have hw := s.dev.dramRequest_hole ⟨who, a.toNat, .clean, some bs⟩ ha
    simp only [List.mem_cons, List.not_mem_nil, or_false] at hc
    obtain rfl | rfl := hc
    · exact ⟨_, rfl, hr⟩
    · exact ⟨_, rfl, hw⟩

end Sys2Proof.Machine
end

section
/-! Registers and packets: what the operations of the pool leave (chapter 13). -/

namespace Sys2Proof.Machine

/-- Fields of registers stay where the registers stay. -/
theorem Dev.rf_congr {d e : Dev} (h : e.pages.regs = d.pages.regs) (p : Page) (off hi lo i : Nat) :
    e.rf p off hi lo i = d.rf p off hi lo i := by
  rw [Dev.rf, Dev.reg, h, Dev.rf, Dev.reg]

/-- A counter leaves the fields of other registers. -/
theorem Dev.rf_bump_other (d : Dev) (p q : Page) (off o hi lo n i a b j : Nat) (hoff : off < 0x1000) (ho : o < 0x1000)
    (h : ¬(q = p ∧ o = off ∧ j = i)) : (d.bump p off hi lo n i).rf q o a b j = d.rf q o a b j := by
  rw [Dev.rf, Dev.bump, Dev.reg_setRf_other _ _ _ _ _ _ _ _ _ _ hoff ho h, Dev.rf]

@[simp] theorem Dev.queue_setQueue_same (d : Dev) (q : Nat) (l : List Pkt) : (d.setQueue q l).queue q = l := SMap.get_set_same _ _ _ _

@[simp] theorem Dev.setQueue_reading (d : Dev) (q : Nat) (l : List Pkt) : (d.setQueue q l).qm.reading = d.qm.reading := rfl

/-- What a change of bodies and of leg counts leaves: registers, headers, outputs, queues and readings. -/
structure SameQueues (d e : Dev) : Prop where
  regs : e.pages.regs = d.pages.regs
  out : e.out = d.out
  queues : e.qm.queues = d.qm.queues
  reading : e.qm.reading = d.qm.reading

theorem SameQueues.refl (d : Dev) : SameQueues d d := ⟨rfl, rfl, rfl, rfl⟩

theorem SameQueues.trans {d e f : Dev} (h : SameQueues d e) (h' : SameQueues e f) : SameQueues d f :=
  ⟨h'.regs.trans h.regs, h'.out.trans h.out, h'.queues.trans h.queues, h'.reading.trans h.reading⟩

theorem Dev.setBody_sameQueues (d : Dev) (b : Nat) (x : Option Body) : SameQueues d (d.setBody b x) := ⟨rfl, rfl, rfl, rfl⟩

theorem Dev.modBody_sameQueues (d : Dev) (b : Nat) (f : Body → Body) : SameQueues d (d.modBody b f) := by
  unfold Dev.modBody
  split
  · exact d.setBody_sameQueues b _
  · exact SameQueues.refl d

theorem Dev.reap_sameQueues (d : Dev) (b : Nat) : SameQueues d (d.reap b) := by
  unfold Dev.reap
  split
  · split
    · exact d.setBody_sameQueues b _
    · exact SameQueues.refl d
  · exact SameQueues.refl d

theorem Dev.freePkt_sameQueues (d : Dev) (p : Pkt) : SameQueues d (d.freePkt p) := by
  have hu : ∀ e : Dev, SameQueues e (e.unref p.body) := fun e => (e.modBody_sameQueues _ _).trans (Dev.reap_sameQueues _ _)
  unfold Dev.freePkt
  dsimp only
  split
  · refine SameQueues.trans ?_ (hu _)
    exact ⟨rfl, rfl, rfl, rfl⟩
  · exact hu d

/-- A queue of the same map holds the same packets. -/
theorem Dev.queue_congr {d e : Dev} (h : e.qm.queues = d.qm.queues) (q : Nat) : e.queue q = d.queue q := by
  rw [Dev.queue, h, Dev.queue]

/-- A packet whose body still arrives is read as it arrives (R300): it leaves its queue and a reading begins. -/
theorem Dev.beginRead_waits (d : Dev) (port q : Nat) (p : Pkt) (b : Body) (hb : d.body? p.body = some b) (hd : b.done = false) :
    ∃ e : Dev, d.beginRead port q p .ok = { e with qm := { e.qm with reading := d.qm.reading ++ [⟨port, q, p⟩] } } ∧
      e = (d.setQueue q ((d.queue q).drop 1)).bump Pg.qm Reg.QM_DEQ_PKTS 31 0 := by
  refine ⟨_, ?_, rfl⟩
  have hb' : ((d.setQueue q ((d.queue q).drop 1)).bump Pg.qm Reg.QM_DEQ_PKTS 31 0).body? p.body = some b := hb
  unfold Dev.beginRead
  simp only [Dev.cellRead, hb', hd, Bool.false_eq_true, if_false]
  rfl

end Sys2Proof.Machine
end

section
/-! Ports that start frames (R316, R322). -/

namespace Sys2Proof.Machine

/-- A queue of a port is enabled. -/
theorem Dev.qEn_of_portQueues {d : Dev} {port link q : Nat} (h : q ∈ d.portQueues port link) : d.qEn q = true := by
  unfold Dev.portQueues at h
  obtain ⟨x, -, hx⟩ := List.mem_filterMap.mp h
  dsimp only at hx
  split at hx
  · next hc =>
    cases hx
    simp only [Bool.and_eq_true, decide_eq_true_eq] at hc
    obtain ⟨⟨⟨⟨⟨⟨⟨-, -⟩, -⟩, -⟩, hen⟩, -⟩, -⟩, -⟩ := hc
    exact hen
  · exact absurd hx (by simp)

/-- A port without gate lists lets every class pass. -/
theorem Dev.gateSays_open (d : Dev) (port cls size : Nat) (h : d.gated port = false) : d.gateSays port cls size = .allowed := by
  unfold Dev.gateSays
  rw [if_pos (by rw [h]; rfl)]

theorem Dev.gateOversize_open (d : Dev) (port : Nat) (qs : List Nat) (h : d.gated port = false) : d.gateOversize port qs = d := by
  unfold Dev.gateOversize
  rw [if_pos (by rw [h]; rfl)]

theorem Dev.gateWaits_open (d : Dev) (port : Nat) (qs : List Nat) (h : d.gated port = false) : d.gateWaits port qs = d := by
  unfold Dev.gateWaits
  refine foldl_keeps (fun e => e = d) _ (fun e q he => ?_) qs d rfl
  subst he
  split
  · rfl
  · rw [e.gateSays_open port _ _ h, if_neg (by simp)]

/-- A queue that holds one packet of no item loses none for want of acceptance. -/
theorem Dev.dropUnaccepted_one (d : Dev) (q : Nat) (p : Pkt) (hq : d.queue q = [p]) (ha : p.assured = none) :
    d.dropUnaccepted [q] = d := by
  have hl : d.assuredLives p = true := by
    unfold Dev.assuredLives
    rw [ha]
  unfold Dev.dropUnaccepted
  simp [hq, List.partition_eq_filter_filter, hl]

/-- The head of an enabled queue without shaper, gate or item is eligible (R322). -/
theorem Dev.eligible_plain (d : Dev) (port q : Nat) (p : Pkt) (hq : d.queue q = [p]) (hen : d.qEn q = true) (hs : d.qShaper q = 0)
    (ha : p.assured = none) (hg : d.gated port = false) : d.eligible port q = true := by
  have hr : d.assuredReady p = true := by
    unfold Dev.assuredReady
    rw [ha]
  unfold Dev.eligible Dev.eligibleOpen
  simp only [hq, hen, hs, hr, d.gateSays_open port _ _ hg]
  rfl

/-- The one eligible queue of a port is chosen. -/
theorem Dev.choose_one (d : Dev) (port link q : Nat) (hs : d.tf Pg.tm (0x30000 + port) 1 13 0 = 0) (hqs : d.portQueues port link = [q])
    (hl : d.qLevel q = 0) (he : d.eligible port q = true) : d.choose port link = (d, some q) := by
  unfold Dev.choose
  rw [hs, hqs, if_neg (by simp [Dev.shaperOpen])]
  simp [List.range_succ, hl, he]

/-- The counters of a frame that starts leave packets, items and the transmit buffers, and count it for its port. -/
theorem Dev.countSent_keeps (d : Dev) (port : Nat) (q : Option Nat) (len : Nat) :
    (d.countSent port q len).qm = d.qm ∧ (d.countSent port q len).wk = d.wk ∧ (d.countSent port q len).tm.wire = d.tm.wire := by
  cases q with
  | none => by_cases hp : port < 16 <;> simp [Dev.countSent, hp]
  | some q => by_cases hp : port < 16 <;> simp [Dev.countSent, hp]

theorem epPage_ne_tm (port : Nat) : Pg.tm ≠ epPage port := by
  unfold epPage
  generalize Fin.ofNat 4 (port / 4) = n
  revert n
  decide

theorem Dev.countSent_tx (d : Dev) (port : Nat) (q : Option Nat) (len : Nat) :
    (d.countSent port q len).rf Pg.tm Reg.TM_PORT_TX 31 0 port = (d.rf Pg.tm Reg.TM_PORT_TX 31 0 port + 1) % 2 ^ 32 := by
  have hr : (d.countSent port q len).pages.regs =
      (if port < 16 then (d.bump Pg.tm Reg.TM_PORT_TX 31 0 1 port).bump (epPage port) Reg.EP_TX_FRAMES 31 0 1 (port % 4)
        else d.bump Pg.tm Reg.TM_PORT_TX 31 0 1 port).pages.regs := by
    unfold Dev.countSent
    cases q <;> rfl
  rw [Dev.rf_congr hr]
  split
  · rw [Dev.rf_bump_other _ _ _ _ _ _ _ _ _ _ _ _ (by decide) (by decide) (fun h => epPage_ne_tm port h.1)]
    exact d.rf_bump_same _ _ 31 1 port (by decide)
  · exact d.rf_bump_same _ _ 31 1 port (by decide)

/-- An ordinary frame without shapers starts: it is counted and its read begins, with its headers rewritten. -/
theorem Dev.startFrame_plain (d : Dev) (port q : Nat) (p : Pkt) (c : CellRead) (hq : d.queue q = [p]) (ha : p.assured = none)
    (hs : d.qShaper q = 0) (hp : d.tf Pg.tm (0x30000 + port) 1 13 0 = 0) :
    d.startFrame port q c = (d.countSent port (some q) p.len).beginRead port q { p with hdr := d.egressHdr port p } c := by
  have hd : ∀ n, d.debit 0 n = d := fun n => rfl
  unfold Dev.startFrame
  simp only [hq, hs, hp, hd, ha]

end Sys2Proof.Machine
end

section
/-! Ports (R316, R322, R325, R327): a ready port, one that is down, and the gates. -/

namespace Sys2Proof.Machine

/-- What a ready port that is up does with its one eligible queue (R322): the head's read begins. -/
theorem Dev.portReady_starts (d : Dev) (port q : Nat) (p : Pkt) (b : Body) (hs : (d.hdr Pg.tm).state.serves = true)
    (ht : d.en.tripped = false) (hu : d.portUp port 0 = true) (hqs : d.portQueues port 0 = [q]) (hl : d.qLevel q = 0)
    (hq : d.queue q = [p]) (ha : p.assured = none) (hg : d.gated port = false) (hp : d.tf Pg.tm (0x30000 + port) 1 13 0 = 0)
    (hsh : d.qShaper q = 0) (hb : d.body? p.body = some b) (hbd : b.done = false) :
    (d.portReady port 0 .ok).queue q = [] ∧
      (d.portReady port 0 .ok).qm.reading = d.qm.reading ++ [⟨port, q, { p with hdr := d.egressHdr port p }⟩] ∧
      (d.portReady port 0 .ok).rf Pg.tm Reg.TM_PORT_TX 31 0 port = (d.rf Pg.tm Reg.TM_PORT_TX 31 0 port + 1) % 2 ^ 32 := by
  have hen : d.qEn q = true := Dev.qEn_of_portQueues (port := port) (link := 0) (by rw [hqs]; exact List.mem_singleton_self q)
  have hch := d.choose_one port 0 q hp hqs hl (d.eligible_plain port q p hq hen hsh ha hg)
  have hpr : d.portReady port 0 .ok = d.startFrame port q .ok := by
    unfold Dev.portReady
    rw [if_neg (by simp [hs, ht]), if_neg (by simp [hu])]
    simp only [hqs, d.dropUnaccepted_one q p hq ha, d.gateOversize_open port _ hg, d.gateWaits_open port _ hg, hch]
  obtain ⟨hqm, -, -⟩ := d.countSent_keeps port (some q) p.len
  have hb' : (d.countSent port (some q) p.len).body? p.body = some b := by rwa [Dev.body?, hqm]
  obtain ⟨e, he, hd⟩ := (d.countSent port (some q) p.len).beginRead_waits port q { p with hdr := d.egressHdr port p } b hb' hbd
  rw [hpr, d.startFrame_plain port q p .ok hq ha hsh hp, he, hqm]
  refine ⟨?_, rfl, ?_⟩
  · have hq' : (d.countSent port (some q) p.len).queue q = [p] := by rwa [Dev.queue, hqm]
    refine (Dev.queue_congr (d := e) rfl q).trans ?_
    rw [hd, hq']
    exact Dev.queue_setQueue_same _ q _
  · refine (Dev.rf_congr (d := e) rfl _ _ _ _ _).trans ?_
    rw [hd, Dev.rf_bump_other _ _ _ _ _ _ _ _ _ _ _ _ (by decide) (by decide) (by simp), ← d.countSent_tx port (some q) p.len]
    exact Dev.rf_congr rfl _ _ _ _ _

/-- A port that is down discards the ordinary packet at its queue's head and counts it (R316). -/
theorem Dev.portReady_down (d : Dev) (port q : Nat) (p : Pkt) (c : CellRead) (hs : (d.hdr Pg.tm).state.serves = true)
    (ht : d.en.tripped = false) (hu : d.portUp port 0 = false) (hqs : d.portQueues port 0 = [q]) (hq : d.queue q = [p])
    (ha : p.assured = none) :
    (d.portReady port 0 c).queue q = [] ∧ (d.portReady port 0 c).qm.reading = d.qm.reading ∧ (d.portReady port 0 c).out = d.out ∧
      (d.portReady port 0 c).rf Pg.tm Reg.TM_DOWN_DISCARDS 31 0 (d.qEgress q) =
        (d.rf Pg.tm Reg.TM_DOWN_DISCARDS 31 0 (d.qEgress q) + 1) % 2 ^ 32 := by
  have hpr : d.portReady port 0 c = ((d.setQueue q []).freePkt p).bump Pg.tm Reg.TM_DOWN_DISCARDS 31 0 1 (d.qEgress q) := by
    unfold Dev.portReady Dev.dropDown
    rw [if_neg (by simp [hs, ht]), if_pos (by simp [hu]), if_neg (by simp [hu]), hqs, List.foldl_cons, List.foldl_nil, hq]
    simp only [List.length_singleton, Dev.dropHeads, hq, ha]
    rfl
  have hf := (d.setQueue q []).freePkt_sameQueues p
  rw [hpr]
  refine ⟨?_, ?_, ?_, ?_⟩
  · rw [Dev.queue_congr (d := d.setQueue q []) (by simp [hf.queues]), Dev.queue_setQueue_same]
  · simp [hf.reading]
  · simp [hf.out]
  · rw [Dev.rf_bump_same _ _ _ 31 1 _ (by decide), Dev.rf_congr hf.regs]
    exact congrArg (fun n => (n + 1) % 2 ^ 32) (Dev.rf_congr rfl _ _ _ _ _)

@[simp] theorem Dev.gate_setGate_same (d : Dev) (p : Nat) (g : Gate) : (d.setGate p g).gate p = g := SMap.get_set_same _ _ _ _

theorem Dev.gate_setGate_other (d : Dev) (p k : Nat) (g : Gate) (h : k ≠ p) : (d.setGate p g).gate k = d.gate k :=
  SMap.get_set_other _ _ _ _ _ h

/-- The next gates of a list take effect. -/
theorem Dev.gateChange_on (d : Dev) (p : Nat) (h : (d.gate p).oper.en = true) :
    d.gateChange p = d.setGate p { d.gate p with index := d.gateIndex p (d.gate p) } := by
  unfold Dev.gateChange
  rw [if_pos h]

/-- A pending list whose start has come takes effect (R327). -/
theorem Dev.startPending_due (d : Dev) (p : Nat) (c : GateCfg) (st : Nat) (h : (d.gate p).pend = some (c, st)) (ht : (st : Int) ≤ d.timeNs) :
    d.startPending p = d.setGate p { oper := c, start := st, index := 0, pend := none } := by
  unfold Dev.startPending
  simp only [h, ht, if_true]

end Sys2Proof.Machine
end

section
/-! Assured wire items (R98): bound, running, emitted. -/

namespace Sys2Proof.Machine

/-- Items stay where the items stay. -/
theorem Dev.item?_congr {d e : Dev} (h : e.wk.items = d.wk.items) (r q : Nat) : e.item? r q = d.item? r q := by
  rw [Dev.item?, h, Dev.item?]

/-- A change of phase keeps an item's name. -/
theorem phase_keeps_name (ph : Phase) (i : Item) : ({ i with phase := ph } : Item).ring = i.ring ∧ ({ i with phase := ph } : Item).seq = i.seq :=
  ⟨rfl, rfl⟩

/-- A change of phase with the transition that it asks for. -/
theorem Dev.item?_phase_transition (d : Dev) (r q : Nat) (ph : Phase) (st : LState) (i : Item) (h : d.item? r q = some i) :
    ((d.modItem r q (fun x => { x with phase := ph })).transition r q st).item? r q = some { i with phase := ph, pend := some st } := by
  rw [Dev.item?_transition, Dev.item?_modItem_same d r q (fun x => { x with phase := ph }) (phase_keeps_name ph), h]
  rfl

/-- What the three stages of a wire item have in common: an item of engine 7 that waits for nothing and is placed. -/
structure WireReady (d : Dev) (r q : Nat) (i : Item) : Prop where
  item : d.item? r q = some i
  engine : engineOf i.desc = 7
  free : i.pend = none
  placed : i.inst.isSome = true

/-- The frame of a wire item as it enters its port's transmit buffer. -/
def wireFrame (r q port : Nat) (bs : List Byte) : WireTx :=
  { ring := r, seq := q, port := port, data := bs,
    hdr := { tagged := false, vid := 0, pcp := 0, dei := false, dstMac := none, srcMac := none, ip := 0, ttl := 0, rtp := none } }

/-- A bound wire item is read, enters its port's transmit buffer and asks for STARTED. -/
theorem Dev.wireTransmit_bound {d : Dev} {r q : Nat} {i : Item} (h : WireReady d r q i) (hph : i.phase = .bound) (hc : ctxOf i.desc < 17)
    (hlen : lengthOf i.desc ≤ 4096) (hp : d.allPkts.any (fun p => p.assured == some (r, q)) = false)
    (hk : d.tm.kept.any (fun k => k.w.ring == r && k.w.seq == q) = false) {e : Dev} {bs : List Byte}
    (hr : d.virtRead whoWire (d.ringAsid r) (srcOf i.desc) (lengthOf i.desc) = (e, .ok, bs)) :
    d.wireTransmit r q =
      ({ e with tm := { e.tm with wire := e.tm.wire ++ [wireFrame r q (ctxOf i.desc) bs] } } : Dev).startWire r q := by
  have hl : ¬(decide (ctxOf i.desc < 17) && decide (4096 < lengthOf i.desc)) = true := by simp [Nat.not_lt.mpr hlen]
  unfold Dev.wireTransmit
  simp only [h.item, h.engine, h.free, hph]
  rw [if_neg (by simpa [Option.isSome_iff_ne_none] using h.placed), if_pos trivial, if_neg hl, if_neg (by simp [hp]),
    if_neg (by simp [hk]), if_neg (by omega), hr]
  rfl

/-- A started wire item whose port is up and that is the oldest of its ring there asks for EMITTED. -/
theorem Dev.wireTransmit_running {d : Dev} {r q : Nat} {i : Item} {w : WireTx} (h : WireReady d r q i) (hph : i.phase = .running)
    (hw : d.tm.wire = [w]) (hwr : w.ring = r) (hwq : w.seq = q) (hu : d.portUp (ctxOf i.desc) 0 = true) :
    d.wireTransmit r q = (d.modItem r q (fun x => { x with phase := .emitted })).transition r q .emitted := by
  unfold Dev.wireTransmit
  simp only [h.item, h.engine, h.free, hph, hw]
  rw [if_neg (by simpa [Option.isSome_iff_ne_none] using h.placed), if_neg (by simp)]
  simp [hwr, hwq, hu]

/-- An emitted wire item leaves its port and completes. -/
theorem Dev.wireTransmit_emitted {d : Dev} {r q : Nat} {i : Item} {w : WireTx} (h : WireReady d r q i) (hph : i.phase = .emitted)
    (hw : d.tm.wire = [w]) (hwr : w.ring = r) (hwq : w.seq = q) (hst : descF i.desc 50 0 0 = 0) :
    d.wireTransmit r q =
      (((({ d with tm := { d.tm with wire := [] } } : Dev).countSent (ctxOf i.desc) none w.data.length).emit
        (.frame (ctxOf i.desc) w.hdr w.data false)).finish r q
          { i.plain i.doneStatus 0 with result0 := BitVec.ofNat 64 w.data.length }) := by
  unfold Dev.wireTransmit
  simp only [h.item, h.engine, h.free, hph, hw]
  rw [if_neg (by simpa [Option.isSome_iff_ne_none] using h.placed), if_neg (by simp)]
  simp [hwr, hwq, hst]

end Sys2Proof.Machine
end

section
/-! Buffers that run dry or over (R17, R18). -/

namespace Sys2Proof.Machine

theorem kindOf_epPage (port : Nat) : kindOf (epPage port) = .ep := by
  unfold epPage
  generalize Fin.ofNat 4 (port / 4) = n
  revert n
  decide

theorem plainSource_ep_txUnderrun (port : Nat) : PlainSource (epPage port) Evt.EP_TX_UNDERRUN := by
  unfold PlainSource
  rw [kindOf_epPage]
  decide

theorem plainSource_cv_txUnderrun : PlainSource Pg.cv Evt.CV_TX_UNDERRUN := by unfold PlainSource; decide
theorem plainSource_cv_rxOverrun : PlainSource Pg.cv Evt.CV_RX_OVERRUN := by unfold PlainSource; decide
theorem plainSource_tm_frozen : PlainSource Pg.tm Evt.TM_SAMPLE_FROZEN := by unfold PlainSource; decide

/-- A message takes nothing back that has left the block. -/
theorem Dev.vector_out (d : Dev) (v : Nat) (o : Output) (h : o ∈ d.out) : o ∈ (d.vector v).out := by
  unfold Dev.vector
  split
  · exact List.mem_cons_of_mem _ h
  · split
    · exact h
    · exact h

/-- The detection of a plain source takes nothing back that has left the block. -/
theorem Dev.detect_out (d : Dev) (p : Page) (src : Nat) (hp : PlainSource p src) (o : Output) (h : o ∈ d.out) : o ∈ (d.detect p src).out := by
  obtain ⟨-, hk, ha, hh⟩ := hp
  obtain ⟨x, eff, hn, -⟩ := d.note_cases p src 0 ((d.hdr p).sev src)
  have hperm : ∀ e : Dev, e.permanent p src (some 0) false = e := fun e => by simp only [Dev.permanent, ha]
  simp only [Dev.detect, Dev.detectUnit, Dev.detectAt, hk, Bool.false_and, Bool.false_eq_true, if_false, Option.getD_some, hn, hperm, hh,
    Bool.and_false, ite_self]
  unfold Dev.signal
  split
  · exact Dev.vector_out _ _ o h
  · exact h

/-- A counted detection of a plain source: the counter counts one and the source is raised. -/
theorem Dev.bump_detect (d : Dev) (p : Page) (off hi i src : Nat) (h32 : hi < 32) (hp : PlainSource p src) :
    raised ((d.bump p off hi 0 1 i).detect p src) p src ∧
      ((d.bump p off hi 0 1 i).detect p src).rf p off hi 0 i = (d.rf p off hi 0 i + 1) % 2 ^ (hi + 1) := by
  refine ⟨Dev.detect_raised _ p src hp, ?_⟩
  rw [(Dev.detect_sameBesideEvents _ p src hp).rf, d.rf_bump_same p off hi 1 i h32]

/-- The frame in progress on a port has left it, with a bad check sequence. -/
def Dev.cutFrame (d : Dev) (n : Nat) (hdr : FrameHdr) (data : List Byte) : Dev :=
  ({ d with qm := { d.qm with reading := d.qm.reading.filter (fun x => x.port != n) } } : Dev).emit (.frame n hdr data true)

@[simp] theorem Dev.cutFrame_keeps (d : Dev) (n : Nat) (hdr : FrameHdr) (data : List Byte) :
    (d.cutFrame n hdr data).out = .frame n hdr data true :: d.out ∧ (d.cutFrame n hdr data).pages = d.pages ∧
      (d.cutFrame n hdr data).qm.reading = d.qm.reading.filter (fun x => x.port != n) := ⟨rfl, rfl, rfl⟩

theorem Dev.portUnderrun_eq (d : Dev) (n : Nat) (r : Reading) (b : Body) (hn : n < 16)
    (hr : d.qm.reading.find? (fun x => x.port == n) = some r) (hb : d.body? r.pkt.body = some b) :
    d.portUnderrun n = (((d.cutFrame n r.pkt.hdr b.data).freePkt r.pkt).bump (epPage n) Reg.EP_TX_UNDERRUN 15 0 1 (n % 4)).detect
      (epPage n) Evt.EP_TX_UNDERRUN := by
  have hb' : ({ d with qm := { d.qm with reading := d.qm.reading.filter (fun x => x.port != n) } } : Dev).body? r.pkt.body = some b := hb
  unfold Dev.portUnderrun
  simp only [hr, hb', hn, if_true, Dev.cutFrame]

/-- A port's buffer that runs dry ends its frame with a bad check sequence (R17). -/
theorem Dev.portUnderrun_frame (d : Dev) (n : Nat) (r : Reading) (b : Body) (hn : n < 16)
    (hr : d.qm.reading.find? (fun x => x.port == n) = some r) (hb : d.body? r.pkt.body = some b) :
    Output.frame n r.pkt.hdr b.data true ∈ (d.portUnderrun n).out ∧
      (d.portUnderrun n).qm.reading = d.qm.reading.filter (fun x => x.port != n) ∧
      raised (d.portUnderrun n) (epPage n) Evt.EP_TX_UNDERRUN ∧
      (d.portUnderrun n).rf (epPage n) Reg.EP_TX_UNDERRUN 15 0 (n % 4) = (d.rf (epPage n) Reg.EP_TX_UNDERRUN 15 0 (n % 4) + 1) % 65536 := by
  have hp := plainSource_ep_txUnderrun n
  have hf := (d.cutFrame n r.pkt.hdr b.data).freePkt_sameQueues r.pkt
  obtain ⟨hraised, hcount⟩ := ((d.cutFrame n r.pkt.hdr b.data).freePkt r.pkt).bump_detect (epPage n) Reg.EP_TX_UNDERRUN 15 (n % 4)
    Evt.EP_TX_UNDERRUN (by decide) hp
  rw [d.portUnderrun_eq n r b hn hr hb]
  refine ⟨?_, ?_, hraised, ?_⟩
  · refine Dev.detect_out _ _ _ hp _ ?_
    simp [hf.out]
  · rw [(Dev.detect_sameBesideEvents _ _ _ hp).qm]
    simp [hf.reading]
  · have hregs : (d.cutFrame n r.pkt.hdr b.data).pages.regs = d.pages.regs := by simp
    rw [hcount, Dev.rf_congr hf.regs, Dev.rf_congr hregs]
    rfl

@[simp] theorem Dev.radio_modRadio_same (d : Dev) (r : Nat) (f : RadioX → RadioX) : (d.modRadio r f).radio r = f (d.radio r) :=
  SMap.get_set_same _ _ _ _

theorem SameBesideEvents.radio {d e : Dev} (h : SameBesideEvents d e) (r : Nat) : e.radio r = d.radio r := by
  rw [Dev.radio, h.air, Dev.radio]

/-- A transmit chain that runs dry takes its burst's effect and its amplifiers' bias (R17). -/
theorem Dev.chainUnderrun_burst (d : Dev) (r : Nat) (b : Burst) (hb : (d.radio r).onAir = some b) (hd : b.dead = false)
    (hk : b.kind ≠ .grant) :
    ((d.chainUnderrun r).radio r).onAir = some { b with dead := true } ∧ ((d.chainUnderrun r).radio r).bias = [0, 0, 0, 0] ∧
      raised (d.chainUnderrun r) Pg.cv Evt.CV_TX_UNDERRUN ∧
      (d.chainUnderrun r).rf Pg.cv Reg.CV_UNDERRUN 31 0 r = (d.rf Pg.cv Reg.CV_UNDERRUN 31 0 r + 1) % 2 ^ 32 := by
  obtain ⟨e, he⟩ : ∃ e : Dev, e = d.modRadio r (fun x => { x with onAir := some { b with dead := true }, bias := [0, 0, 0, 0] }) := ⟨_, rfl⟩
  have hu : d.chainUnderrun r = (e.bump Pg.cv Reg.CV_UNDERRUN 31 0 1 r).detect Pg.cv Evt.CV_TX_UNDERRUN := by
    unfold Dev.chainUnderrun
    simp only [hb, hd, he]
    rw [if_neg (by simp [hk])]
  have hp := plainSource_cv_txUnderrun
  have hrad : ((e.bump Pg.cv Reg.CV_UNDERRUN 31 0 1 r).detect Pg.cv Evt.CV_TX_UNDERRUN).radio r =
      { d.radio r with onAir := some { b with dead := true }, bias := [0, 0, 0, 0] } := by
    rw [(Dev.detect_sameBesideEvents _ _ _ hp).radio, Dev.radio,
      show (e.bump Pg.cv Reg.CV_UNDERRUN 31 0 1 r).air = e.air from by simp, he]
    exact d.radio_modRadio_same r _
  obtain ⟨hraised, hcount⟩ := e.bump_detect Pg.cv Reg.CV_UNDERRUN 31 r Evt.CV_TX_UNDERRUN (by decide) hp
  rw [hu, hrad]
  have hregs : e.pages.regs = d.pages.regs := by rw [he]; simp
  exact ⟨rfl, rfl, hraised, by rw [hcount, Dev.rf_congr hregs]⟩

/-- A frame that PX has not seen begin is dropped whole at its port and counted (R18). -/
theorem Dev.portOverrun_frame (d : Dev) (n : Nat) (hn : n < 16) (hb : d.rxBody n = none) :
    d.portOverrun n = d.bump (epPage n) Reg.EP_RX_OVERRUN 15 0 1 (n % 4) := by
  unfold Dev.portOverrun Dev.ingressOverrun
  simp only [hb]
  rw [if_pos hn]
  rfl

end Sys2Proof.Machine
end

section
/-! Monitors (R329). -/

namespace Sys2Proof.Machine

@[simp] theorem Dev.mon_setMon_same (d : Dev) (m : Nat) (x : Mon) : (d.setMon m x).mon m = x := SMap.get_set_same _ _ _ _

theorem SameBesideEvents.mon {d e : Dev} (h : SameBesideEvents d e) (m : Nat) : e.mon m = d.mon m := by
  rw [Dev.mon, h.tm, Dev.mon]

/-- Every address between two of stage SRAM lies in stage SRAM. -/
theorem targetOf_sram_between {a x b : Nat} (ha : targetOf a = .sram) (hb : targetOf b = .sram) (h1 : a ≤ x) (h2 : x ≤ b) :
    targetOf x = .sram := by
  have hr : ∀ y, targetOf y = .sram ↔ 0x4000000000 ≤ y ∧ y < 0x4004000000 := by
    intro y
    unfold targetOf
    split_ifs <;> simp_all
    omega
  rw [hr] at ha hb ⊢
  omega

/-- A write within stage SRAM stores its bytes. -/
theorem Dev.physWrite_sram (d : Dev) (a : Nat) (bs : List Byte) (h0 : targetOf a = .sram) (hs : ∀ k, k < bs.length → targetOf (a + k) = .sram) :
    d.physWrite a bs none = (d.putBytes a bs, .ok) := by
  have hc : d.physCheck a bs.length true = .ok := by
    unfold Dev.physCheck
    have hm : ((List.range bs.length).map (fun i => a + i)).any (fun x => !isMemory x) = false := by
      simp only [List.any_map, List.any_eq_false, List.mem_range, Function.comp]
      intro k hk
      simp [isMemory, hs k hk]
    simp only [hm, Bool.false_eq_true, if_false, Bool.not_true, Bool.false_and]
  unfold Dev.physWrite
  simp only [hc, h0]
  rfl

/-- The store of a monitor's sample of an empty queue: eight zero bytes at its place. -/
def Dev.monStore (d : Dev) (m a : Nat) : Dev := (d.putBytes a (List.replicate 8 0)).peak Pg.tm Reg.TM_MON_MAX 17 0 0 m

theorem Dev.monStore_mem (d : Dev) (m a : Nat) :
    (d.monStore m a).ram = (d.putBytes a (List.replicate 8 0)).ram ∧ (d.monStore m a).grps = (d.putBytes a (List.replicate 8 0)).grps := by
  unfold Dev.monStore Dev.peak
  split <;> simp

/-- A sample of an empty queue by a monitor that runs: its bytes are stored and it moves on; the last sample freezes it. -/
theorem Dev.monitorSample_empty (d : Dev) (m a : Nat) (hen : d.tb Pg.tm (0x50000 + m) 0 16 = true) (hfr : (d.mon m).frozen = false)
    (hs : (d.hdr Pg.tm).state.serves = true) (hq : d.queue (d.tf Pg.tm (0x50000 + m) 0 15 0) = [])
    (ha : a = d.tf Pg.tm (0x50000 + m) 2 31 13 * 8192 + d.tf Pg.tm (0x50000 + m) 3 7 0 * 2 ^ 32 + (d.mon m).wr * 8)
    (h0 : targetOf a = .sram) (h7 : targetOf (a + 7) = .sram) :
    ∃ y : Mon, y.wr = ((d.mon m).wr + 1) % 1024 ∧
      ((d.monitorSample m = (d.monStore m a).setMon m y ∧ (d.mon m).left ≠ some 1) ∨
        (d.monitorSample m = ((d.monStore m a).setMon m y).detect Pg.tm Evt.TM_SAMPLE_FROZEN ∧ y.frozen = true)) := by
  have hocc : d.occupancy (d.tf Pg.tm (0x50000 + m) 0 15 0) = 0 := by rw [Dev.occupancy, hq]; rfl
  have hb : bytesLE 8 (0 % 2 ^ 18 + min ([] : List Pkt).length 16383 * 2 ^ 18 + 0 * 2 ^ 32) = List.replicate 8 0 := by decide
  have hw : d.physWrite a (List.replicate 8 0) none = (d.putBytes a (List.replicate 8 0), .ok) :=
    d.physWrite_sram a _ h0 (fun k hk => targetOf_sram_between h0 h7 (Nat.le_add_right a k)
      (Nat.add_le_add_left (Nat.le_of_lt_succ hk) a))
  unfold Dev.monitorSample
  -- With the write a name of its own, no check of the steps below evaluates its addresses.
  obtain ⟨f, hf⟩ : ∃ f, f = @Dev.physWrite := ⟨_, rfl⟩
  rw [← hf] at hw ⊢
  simp only [hen, hfr, hs, hocc, hq, hb, ← ha, hw, Bool.not_true, Bool.or_false, Bool.false_eq_true, if_false]
  cases hl : (d.mon m).left with
  | none => exact ⟨_, rfl, .inl ⟨rfl, by simp⟩⟩
  | some n =>
    by_cases hn : n ≤ 1
    · simp only [hn, if_true]
      exact ⟨_, rfl, .inr ⟨rfl, rfl⟩⟩
    · simp only [hn, if_false]
      refine ⟨_, rfl, .inl ⟨rfl, fun h => hn ?_⟩⟩
      rw [Option.some.inj h]

end Sys2Proof.Machine
end

section
/-! What a sample stores, what an emitted wire item leaves behind, and the ports as a whole (R98, R329). -/

namespace Sys2Proof.Machine

/-- Eight zero bytes stand where the sample of an empty queue is stored, and no other byte has changed. -/
theorem Dev.monStore_bytes (d e : Dev) (m a : Nat) (h0 : targetOf a = .sram) (h7 : targetOf (a + 7) = .sram)
    (hr : e.ram = (d.monStore m a).ram) (hg : e.grps = (d.monStore m a).grps) :
    (∀ k, k < 8 → e.physByte (a + k) = some 0) ∧ ∀ k, (k < a ∨ a + 8 ≤ k) → e.physByte k = d.physByte k := by
  obtain ⟨hram, hgrps⟩ := d.monStore_mem m a
  have hp : ∀ k, e.physByte k = (d.putBytes a (List.replicate 8 0)).physByte k := fun k =>
    Dev.physByte_congr (.of_grps (hg.trans hgrps)) (hr.trans hram) k
  constructor
  · intro k hk
    have ht : targetOf (a + k) = .sram := targetOf_sram_between h0 h7 (Nat.le_add_right a k) (Nat.add_le_add_left (Nat.le_of_lt_succ hk) a)
    have hsome : (d.physByte (a + k)).isSome = true := by rw [d.physByte_sys (a + k) (.inl ht)]; rfl
    rw [hp, Dev.putBytes_back _ d a k (by simpa using hk) hsome, List.getElem?_replicate_of_lt hk]
  · intro k hk
    rw [hp]
    exact Dev.putBytes_other _ d a k (by simpa using hk)

/-- A sample of an empty queue by a monitor that runs (R329): the next place moves on, the sample is stored, and the last one freezes. -/
theorem Dev.monitorSample_stores (d : Dev) (m a : Nat) (hen : d.tb Pg.tm (0x50000 + m) 0 16 = true) (hfr : (d.mon m).frozen = false)
    (hs : (d.hdr Pg.tm).state.serves = true) (hq : d.queue (d.tf Pg.tm (0x50000 + m) 0 15 0) = [])
    (ha : a = d.tf Pg.tm (0x50000 + m) 2 31 13 * 8192 + d.tf Pg.tm (0x50000 + m) 3 7 0 * 2 ^ 32 + (d.mon m).wr * 8)
    (h0 : targetOf a = .sram) (h7 : targetOf (a + 7) = .sram) :
    ((d.monitorSample m).mon m).wr = ((d.mon m).wr + 1) % 1024 ∧
      (∀ k, k < 8 → (d.monitorSample m).physByte (a + k) = some 0) ∧
      (∀ k, (k < a ∨ a + 8 ≤ k) → (d.monitorSample m).physByte k = d.physByte k) ∧
      ((d.mon m).left = some 1 → ((d.monitorSample m).mon m).frozen = true ∧ raised (d.monitorSample m) Pg.tm Evt.TM_SAMPLE_FROZEN) := by
  obtain ⟨y, hy, ⟨he, hl⟩ | ⟨he, hf⟩⟩ := d.monitorSample_empty m a hen hfr hs hq ha h0 h7
  · rw [he]
    obtain ⟨hz, ho⟩ := d.monStore_bytes ((d.monStore m a).setMon m y) m a h0 h7 rfl rfl
    exact ⟨by rw [Dev.mon_setMon_same, hy], hz, ho, fun h => absurd h hl⟩
  · have hb := Dev.detect_sameBesideEvents ((d.monStore m a).setMon m y) Pg.tm Evt.TM_SAMPLE_FROZEN plainSource_tm_frozen
    obtain ⟨hz, ho⟩ := d.monStore_bytes _ m a h0 h7 hb.ram hb.grps
    rw [he, hb.mon, Dev.mon_setMon_same]
    exact ⟨hy, hz, ho, fun _ => ⟨hf, Dev.detect_raised _ _ _ plainSource_tm_frozen⟩⟩

@[simp] theorem Dev.transition_tm (d : Dev) (r q : Nat) (st : LState) : (d.transition r q st).tm = d.tm := by
  simp [Dev.transition]

/-- An emitted wire item is off its port and its frame on the wire, and it asks for COMPLETED. -/
theorem Dev.wireTransmit_completes {d : Dev} {r q : Nat} {i : Item} {w : WireTx} (h : WireReady d r q i) (hph : i.phase = .emitted)
    (hw : d.tm.wire = [w]) (hwr : w.ring = r) (hwq : w.seq = q) (hst : descF i.desc 50 0 0 = 0) :
    (d.wireTransmit r q).item? r q = some { i with
        result := { i.plain i.doneStatus 0 with result0 := BitVec.ofNat 64 w.data.length }, phase := .finishing, pend := some .completed } ∧
      (d.wireTransmit r q).tm.wire = [] ∧ Output.frame (ctxOf i.desc) w.hdr w.data false ∈ (d.wireTransmit r q).out := by
  obtain ⟨e, he⟩ : ∃ e : Dev, e = ({ d with tm := { d.tm with wire := [] } } : Dev).countSent (ctxOf i.desc) none w.data.length := ⟨_, rfl⟩
  obtain ⟨-, hwk, hwire⟩ := ({ d with tm := { d.tm with wire := [] } } : Dev).countSent_keeps (ctxOf i.desc) none w.data.length
  rw [← he] at hwk hwire
  rw [Dev.wireTransmit_emitted h hph hw hwr hwq hst, ← he]
  refine ⟨?_, ?_, ?_⟩
  · rw [Dev.item?_finish, Dev.item?_congr (d := d) (by simp [hwk]), h.item]
    rfl
  · rw [Dev.finish, Dev.transition_tm]
    simpa using hwire
  · obtain ⟨-, -, hout, -⟩ := (e.emit (.frame (ctxOf i.desc) w.hdr w.data false)).finish_keeps r q
      { i.plain i.doneStatus 0 with result0 := BitVec.ofNat 64 w.data.length }
    rw [hout]
    exact List.mem_cons_self

/-- A wire port is ready without a link of its own (R305). -/
theorem exec_portReady_wire (s : State) (port : Fin 20) (link : Fin 1024) (c : CellRead) (h : port.val < 17) :
    exec (.portReady port link c) s = .next { s with dev := s.dev.portReady port.val 0 c } := by
  have hl : (if port.val < 17 then 0 else link.val) = 0 := if_pos h
  rw [← hl]
  rfl

/-- A monitor that is not enabled takes no sample. -/
theorem Dev.monitorSample_off (d : Dev) (m : Nat) (h : d.tb Pg.tm (0x50000 + m) 0 16 = false) : d.monitorSample m = d := by
  unfold Dev.monitorSample
  exact if_pos (by simp [h])

/-- Settles O39: each clause by the lemma of a ready port, a gate, a wire item, a buffer or a monitor. -/
theorem portsSendFrames : Obligations.PortsSendFrames := by
  refine ⟨?_, ?_, ?_, ?_, ?_, ?_, ?_, ?_, ?_, ?_, ?_, ?_, ?_⟩
  · intro s port link q p b hport hs ht hu hqs hl hq ha hg hp hsh hb hbd
    obtain ⟨h1, h2, h3⟩ := s.dev.portReady_starts port.val q p b hs ht hu hqs hl hq ha hg hp hsh hb hbd
    exact ⟨_, _, exec_portReady_wire s port link .ok hport, h1, h2, rfl, rfl, h3⟩
  · intro s port link q p hport hs ht hu hqs hq ha
    exact ⟨_, exec_portReady_wire s port link .ok hport, s.dev.portReady_down port.val q p .ok hs ht hu hqs hq ha⟩
  · intro s port hen
    refine ⟨_, rfl, ?_⟩
    dsimp only
    rw [s.dev.gateChange_on port.val hen]
    exact ⟨by simp, by simp, fun k hk => Dev.gate_setGate_other _ _ _ _ hk⟩
  · intro s port c st hp ht
    refine ⟨_, rfl, ?_⟩
    dsimp only
    rw [s.dev.startPending_due port.val c st hp ht]
    exact ⟨by simp, by simp, by simp, fun k hk => Dev.gate_setGate_other _ _ _ _ hk⟩
  · intro s n q i d bs hi he hf hpl hph hc hlen hp hk hr hw
    have hready : WireReady s.dev n.val q i := ⟨hi, he, hf, hpl⟩
    refine ⟨_, { i with phase := .running, pend := some .started }, wireFrame n.val q (ctxOf i.desc) bs, rfl, ?_⟩
    dsimp only
    rw [Dev.wireTransmit_bound hready hph hc hlen hp hk hr]
    have hi' : ({ d with tm := { d.tm with wire := d.tm.wire ++ [wireFrame n.val q (ctxOf i.desc) bs] } } : Dev).item? n.val q = some i :=
      (Dev.item?_congr hw n.val q).trans hi
    exact ⟨Dev.item?_phase_transition _ n.val q .running .started i hi', rfl, rfl, by simp [Dev.startWire], rfl, rfl, rfl, rfl⟩
  · intro s n q i w hi he hf hpl hph hw hwr hwq hu
    refine ⟨_, { i with phase := .emitted, pend := some .emitted }, rfl, ?_⟩
    dsimp only
    rw [Dev.wireTransmit_running ⟨hi, he, hf, hpl⟩ hph hw hwr hwq hu]
    exact ⟨Dev.item?_phase_transition _ n.val q .emitted .emitted i hi, rfl, rfl, by simp⟩
  · intro s n q i w hi he hf hpl hph hw hwr hwq hst
    obtain ⟨hitem, hwire, hout⟩ := Dev.wireTransmit_completes ⟨hi, he, hf, hpl⟩ hph hw hwr hwq hst
    exact ⟨_, _, rfl, hitem, rfl, rfl, rfl, hwire, hout⟩
  · exact fun s n r b hn hr hb => ⟨_, rfl, s.dev.portUnderrun_frame n.val r b hn hr hb⟩
  · exact fun s r c b hb hd hk => ⟨_, rfl, s.dev.chainUnderrun_burst r.val b hb hd hk⟩
  · intro s n hn hb
    have he : s.dev.rxOverrun (.port n) = s.dev.bump (epPage n.val) Reg.EP_RX_OVERRUN 15 0 1 (n.val % 4) :=
      s.dev.portOverrun_frame n.val hn hb
    refine ⟨_, rfl, ?_⟩
    dsimp only
    rw [he]
    exact ⟨by simp, Dev.rf_bump_same _ _ _ 15 1 _ (by decide)⟩
  · exact fun s r c => ⟨_, rfl, s.dev.bump_detect Pg.cv Reg.CV_OVERRUN 31 r.val Evt.CV_RX_OVERRUN (by decide) plainSource_cv_rxOverrun⟩
  · rintro s m a q hen hfr hs rfl hq ha h0 h7
    exact ⟨_, rfl, s.dev.monitorSample_stores m.val a hen hfr hs hq ha h0 h7⟩
  · intro s m hen
    have he : exec (.monitorSample m) s = .next { s with dev := s.dev.monitorSample m.val } := rfl
    rw [he, s.dev.monitorSample_off m.val hen]

end Sys2Proof.Machine
end

section
/-! The queue of commands: what a step runs, and that no command stops the block or touches the commands that wait. -/

namespace Sys2Proof.Machine

/-- Settles O1: putting a command in front and taking it off again leaves the state as it was. -/
theorem stepRunsTheFrontCommand : Obligations.StepRunsTheFrontCommand := fun _ _ => rfl

/-- Settles O2: the branch of `step` for an empty queue. -/
theorem emptyQueueIdles : Obligations.EmptyQueueIdles := by
  intro s h
  unfold step
  rw [h]

/-- An outcome that goes on, with the commands that wait as they were. -/
def KeepsPending (s : State) (o : Host.Outcome State Fault Refusal) : Prop := ∃ t, o = .next t ∧ t.pending = s.pending

theorem keepsPending_next {s t : State} (h : t.pending = s.pending) : KeepsPending s (.next t) := ⟨t, rfl, h⟩

theorem State.partWrite_pending (s : State) (n : Nat) (v : Word) : (s.partWrite n v).pending = s.pending := State.grant_pending s (.part n v)

theorem State.watchdog_pending (s : State) (host : Bool) : (s.watchdog host).pending = s.pending := by
  unfold State.watchdog
  split
  · exact State.warm_pending s 3
  · rfl

/-- The commands of the fabric and the resets act by operations that leave the queue; an access to a register bus settles what it
asks for, which leaves it too; every other command changes the device alone. -/
theorem exec_keepsPending (c : Instr) (s : State) : KeepsPending s (exec c s) := by
  cases c with
  | fabricRequest who a wr => exact keepsPending_next (State.tryTag_pending s _)
  | tagReturn who => exact keepsPending_next (State.tagBack_pending s who)
  | fbPartWrite which v => exact keepsPending_next (State.partWrite_pending s which.val v)
  | fbSharedPartWrite v => exact keepsPending_next (State.sharedWrite_pending s v)
  | resetN => exact keepsPending_next (State.warm_pending _ 1)
  | warmResetWrite v => exact keepsPending_next (State.resetCtrl_pending s v)
  | watchdogExpire host => exact keepsPending_next (State.watchdog_pending s host)
  | unlock x => exact keepsPending_next (State.unlock_pending s x)
  | registerWrite | pairLoRead | rwsWrite | hbWinBaseWrite | rwpWrite | rcRead | tableRead | tableWrite | copy | fill | periphIn
  | periphOut | beatResponse | beatIssue | completionWrite | persistentWriteDone | retireRecordCommit | smbRegDataRead
  | smbRegDataWrite | jtagDebugInstruction => exact keepsPending_next (State.settle_pending _)
  | _ => exact keepsPending_next rfl

/-- Settles O3: every command goes on to a next state with the queue as it was. -/
theorem noCommandStopsOrTouchesTheQueue : Obligations.NoCommandStopsOrTouchesTheQueue := exec_keepsPending

end Sys2Proof.Machine
end

section
/-! The fields of a register (R27, Table 2.2): the register tables place them apart, so a write stores each by its own rule. -/

namespace Sys2Proof.Machine

/-- Two fields share no bit. -/
def Field.Apart (f g : Field) : Prop := f.hi < g.lo ∨ g.hi < f.lo

/-- The fields of a register lie within the word and apart from each other. -/
def RegDesc.WellPlaced (r : RegDesc) : Prop := (∀ f ∈ r.fields, f.lo ≤ f.hi ∧ f.hi < 32) ∧ r.fields.Pairwise Field.Apart

theorem blockRegs_wellPlaced (k : PageKind) : ∀ r ∈ blockRegs k, r.WellPlaced := by
  unfold RegDesc.WellPlaced Field.Apart
  cases k <;> decide +kernel

theorem Field.Apart.symm {f g : Field} (h : f.Apart g) : g.Apart f := Or.symm h

/-- What a write leaves of a word in one field. -/
def storeField (key : Nat) (accept : Acc → Bool) (old v w : Word) (f : Field) : Word :=
  if accept f.acc then putFld f.hi f.lo (fieldStore f.rule key f.lo (f.hi - f.lo + 1) (fld f.hi f.lo old) (fld f.hi f.lo v)) w
  else if f.acc = .w1c then w &&& ~~~ (v &&& fieldMask f.hi f.lo)
  else w

theorem storeWord_eq (r : RegDesc) (key : Nat) (accept : Acc → Bool) (old v : Word) :
    storeWord r key accept old v = r.fields.foldl (storeField key accept old v) old := rfl

/-- Clearing bits of one field leaves a field apart from it. -/
theorem fld_clear_other (f g : Field) (v w : Word) (hf : f.lo ≤ f.hi) (hg : g.lo ≤ g.hi) (h : f.Apart g) :
    fld g.hi g.lo (w &&& ~~~ (v &&& fieldMask f.hi f.lo)) = fld g.hi g.lo w := by
  apply Nat.eq_of_testBit_eq
  intro i
  rw [fld_testBit, fld_testBit]
  by_cases hi : i < g.hi - g.lo + 1
  · have hm : (fieldMask f.hi f.lo).getLsbD (g.lo + i) = false := by
      rw [fieldMask_getLsbD _ _ _ hf]
      have : ¬(f.lo ≤ g.lo + i ∧ g.lo + i ≤ f.hi) := by
        unfold Field.Apart at h
        omega
      simp only [Bool.and_eq_false_iff, decide_eq_false_iff_not]
      tauto
    rw [BitVec.getLsbD_and, BitVec.getLsbD_not, BitVec.getLsbD_and, hm, Bool.and_false, Bool.not_false, Bool.and_true]
    by_cases h32 : g.lo + i < 32
    · rw [decide_eq_true h32, Bool.and_true]
    · rw [BitVec.getLsbD_of_ge _ _ (Nat.le_of_not_lt h32), Bool.false_and]
  · simp [hi]

theorem fld_storeField_other (key : Nat) (accept : Acc → Bool) (old v w : Word) (f g : Field) (hf : f.lo ≤ f.hi) (hg : g.lo ≤ g.hi)
    (h : f.Apart g) : fld g.hi g.lo (storeField key accept old v w f) = fld g.hi g.lo w := by
  unfold storeField
  split
  · exact fld_putFld_other _ _ _ _ _ _ hf hg h.symm
  · split
    · exact fld_clear_other f g v w hf hg h
    · rfl

theorem fld_storeFields_other (key : Nat) (accept : Acc → Bool) (old v : Word) (g : Field) (hg : g.lo ≤ g.hi) (fs : List Field) :
    ∀ w : Word, (∀ f ∈ fs, f.lo ≤ f.hi ∧ f.Apart g) → fld g.hi g.lo (fs.foldl (storeField key accept old v) w) = fld g.hi g.lo w := by
  induction fs with
  | nil => exact fun w _ => rfl
  | cons f fs ih =>
    intro w h
    obtain ⟨hf, ha⟩ := h f List.mem_cons_self
    rw [List.foldl_cons, ih _ (fun x hx => h x (List.mem_cons_of_mem f hx)), fld_storeField_other _ _ _ _ _ _ _ hf hg ha]

/-- A field of a written word is what the field's own step leaves of a word that still holds the old field. -/
theorem fld_storeFields (key : Nat) (accept : Acc → Bool) (old v : Word) (g : Field) (fs : List Field) (hm : g ∈ fs)
    (hp : fs.Pairwise Field.Apart) (hr : ∀ f ∈ fs, f.lo ≤ f.hi) :
    ∀ w : Word, ∃ x, fld g.hi g.lo x = fld g.hi g.lo w ∧
      fld g.hi g.lo (fs.foldl (storeField key accept old v) w) = fld g.hi g.lo (storeField key accept old v x g) := by
  induction fs with
  | nil => cases hm
  | cons f fs ih =>
    intro w
    obtain ⟨hhead, htail⟩ := List.pairwise_cons.mp hp
    have hrest : ∀ x ∈ fs, x.lo ≤ x.hi := fun x hx => hr x (List.mem_cons_of_mem f hx)
    rcases List.mem_cons.mp hm with rfl | hmem
    · refine ⟨w, rfl, ?_⟩
      rw [List.foldl_cons, fld_storeFields_other _ _ _ _ _ (hr g hm) _ _ (fun x hx => ⟨hrest x hx, (hhead x hx).symm⟩)]
    · obtain ⟨x, hx, hs⟩ := ih hmem htail hrest (storeField key accept old v w f)
      refine ⟨x, ?_, hs⟩
      rw [hx, fld_storeField_other _ _ _ _ _ _ _ (hr f List.mem_cons_self) (hrest g hmem) (hhead g hmem)]

theorem fld_mod (hi lo : Nat) (w : Word) : fld hi lo w % 2 ^ (hi - lo + 1) = fld hi lo w := Nat.mod_mod _ _

/-- An accepted field that takes every value takes the written one. -/
theorem fld_storeWord_any (r : RegDesc) (hr : r.WellPlaced) (f : Field) (hf : f ∈ r.fields) (key : Nat) (accept : Acc → Bool)
    (old v : Word) (ha : accept f.acc = true) (hany : f.rule = .any) :
    fld f.hi f.lo (storeWord r key accept old v) = fld f.hi f.lo v := by
  obtain ⟨hin, hp⟩ := hr
  obtain ⟨x, -, hs⟩ := fld_storeFields key accept old v f r.fields hf hp (fun g hg => (hin g hg).1) old
  obtain ⟨hlo, h32⟩ := hin f hf
  rw [storeWord_eq, hs, storeField, if_pos ha, hany, fld_putFld_same _ _ _ _ hlo h32]
  exact fld_mod f.hi f.lo v

/-- A field that is neither accepted nor W1C keeps its bits. -/
theorem fld_storeWord_kept (r : RegDesc) (hr : r.WellPlaced) (f : Field) (hf : f ∈ r.fields) (key : Nat) (accept : Acc → Bool)
    (old v : Word) (ha : accept f.acc = false) (hw : f.acc ≠ .w1c) :
    fld f.hi f.lo (storeWord r key accept old v) = fld f.hi f.lo old := by
  obtain ⟨hin, hp⟩ := hr
  obtain ⟨x, hx, hs⟩ := fld_storeFields key accept old v f r.fields hf hp (fun g hg => (hin g hg).1) old
  rw [storeWord_eq, hs, storeField, ha, if_neg Bool.false_ne_true, if_neg hw, hx]

theorem fieldStore_keep (a b key lo width old v : Nat) : fieldStore (.keep a b) key lo width old v = if a ≤ v ∧ v ≤ b then v else old := by
  simp only [fieldStore, Bool.and_eq_true, decide_eq_true_eq]

theorem fieldStore_clamp (a b key lo width old v : Nat) (h : a ≤ b) :
    a ≤ fieldStore (.clamp a b) key lo width old v ∧ fieldStore (.clamp a b) key lo width old v ≤ b ∧
      (a ≤ v → v ≤ b → fieldStore (.clamp a b) key lo width old v = v) := by
  simp only [fieldStore]
  omega

/-- Settles O8: the two field rules by their definitions, the two whole-word clauses by the lemmas on a stored field. -/
theorem fieldsAreStoredByTheirRules : Obligations.FieldsAreStoredByTheirRules := by
  refine ⟨?_, ?_, ?_, ?_⟩
  · exact fun a b old v width lo key => fieldStore_keep a b key lo width old v
  · exact fun a b old v width lo key h => fieldStore_clamp a b key lo width old v h
  · exact fun k r f key accept old v hr hf ha hany =>
      fld_storeWord_any r (blockRegs_wellPlaced k r hr) f hf key accept old v ha hany
  · exact fun k r f key accept old v hr hf ha hw =>
      fld_storeWord_kept r (blockRegs_wellPlaced k r hr) f hf key accept old v ha hw

end Sys2Proof.Machine
end

section
/-! What a detection leaves of a page's header (R33, R469 to R473, R488): the bits it raises, the history entry it writes, and what
its action keeps of both. -/

namespace Sys2Proof.Machine

/-- A written history ends with the new entry. -/
theorem Hdr.record_eq (h : Hdr) (e : HistEntry) : ∃ l, h.record e = { h with hist := l ++ [e] } := by
  unfold Hdr.record
  split
  · exact ⟨h.hist, rfl⟩
  · split
    · next x y ys _ => exact ⟨{ y with lost := true } :: ys, rfl⟩
    · exact ⟨[], rfl⟩

/-- The newest entry survives a further one. -/
theorem Hdr.record_keeps_newest (h : Hdr) (l : List HistEntry) (e e' : HistEntry) (hl : h.hist = l ++ [e]) : e ∈ (h.record e').hist := by
  unfold Hdr.record
  split
  · simp [hl]
  · next hlen =>
    obtain ⟨x, y, ys, rfl⟩ : ∃ x y ys, l = x :: y :: ys := by
      match l with
      | x :: y :: ys => exact ⟨x, y, ys, rfl⟩
      | [x] => simp [hl] at hlen
      | [] => simp [hl] at hlen
    simp [hl]

theorem Hdr.setCarried_eq (h : Hdr) (n : Nat) (s : Sev) : ∃ lo hi, h.setCarried n s = { h with carriedLo := lo, carriedHi := hi } := by
  unfold Hdr.setCarried
  split
  · exact ⟨_, h.carriedHi, rfl⟩
  · exact ⟨h.carriedLo, _, rfl⟩

theorem Hdr.raise_eq (h : Hdr) (n : Nat) (s : Sev) :
    ∃ lo hi, h.raise n s = { h with raw := putBit n true h.raw, carriedLo := lo, carriedHi := hi } := by
  unfold Hdr.raise
  obtain ⟨lo, hi, hc⟩ := h.setCarried_eq n (if bit n h.raw && s.code < (h.carried n).code then h.carried n else s)
  dsimp only
  rw [hc]
  exact ⟨lo, hi, rfl⟩

/-- Noting a detection: the page's header with the raw bit set and a new entry at the end of its history. -/
theorem Dev.note_eq (d : Dev) (p : Page) (src unit : Nat) (at_ : Sev) : ∃ lo hi l e cs eff, e.source = src ∧
    d.note p src unit at_ = (d.setHdr p { d.hdr p with
      raw := putBit src true (d.hdr p).raw, carriedLo := lo, carriedHi := hi, hist := l ++ [e], counted := cs }, eff) := by
  have hcount : ∃ cs, (if at_ = .transient then (d.hdr p).count (countUnit (kindOf p) src unit) d.nowNs else d.hdr p) =
      { d.hdr p with counted := cs } := by
    split
    · exact ⟨_, rfl⟩
    · exact ⟨(d.hdr p).counted, rfl⟩
  obtain ⟨cs, hcs⟩ := hcount
  unfold Dev.note
  dsimp only
  rw [hcs]
  generalize (if (decide (at_ = .transient) && _) = true then Sev.permanent else at_) = eff
  generalize hx : ({ d.hdr p with counted := cs } : Hdr) = x
  generalize he : ({ timeUs := (d.timeNs / 1000 % (2 ^ 23 : Nat)).toNat, sev := eff, source := src, lost := false } : HistEntry) = e
  obtain ⟨l, hl⟩ := x.record_eq e
  obtain ⟨lo, hi, hr⟩ := (x.record e).raise_eq src eff
  refine ⟨lo, hi, l, e, cs, eff, by rw [← he], ?_⟩
  rw [hr, hl, ← hx]

/-- What a detection without retirement and without a reset leaves: the page's header but for its state and its event fields, every
other header, and everything beside headers, outputs and pending vectors. -/
structure Detected (d e : Dev) (p : Page) (src : Nat) : Prop where
  hdr : ∃ st lo hi l x cs, x.source = src ∧ e.hdr p = { d.hdr p with
    state := st, raw := putBit src true (d.hdr p).raw, carriedLo := lo, carriedHi := hi, hist := l ++ [x], counted := cs }
  others : sameHdrsBut d e p
  rest : ∃ hs o pd, e = { d with pages := { d.pages with hdrs := hs }, out := o, sys := { d.sys with pend := pd } }

theorem Detected.raised {d e : Dev} {p : Page} {src : Nat} (h : Detected d e p src) (hs : src < 32) : raised e p src := by
  obtain ⟨st, lo, hi, l, x, cs, -, he⟩ := h.hdr
  unfold Machine.raised
  rw [he]
  exact bit_putBit_same src true _ hs

theorem Detected.commitPending {d e : Dev} {p : Page} {src : Nat} (h : Detected d e p src) :
    (e.hdr p).commitPending = (d.hdr p).commitPending := by
  obtain ⟨st, lo, hi, l, x, cs, -, he⟩ := h.hdr
  rw [he]

theorem Detected.pll {d e : Dev} {p : Page} {src : Nat} (h : Detected d e p src) :
    (e.hdr p).pllLock = (d.hdr p).pllLock ∧ (e.hdr p).unlockSeen = (d.hdr p).unlockSeen := by
  obtain ⟨st, lo, hi, l, x, cs, -, he⟩ := h.hdr
  rw [he]
  exact ⟨rfl, rfl⟩

theorem Detected.keeps {d e : Dev} {p : Page} {src : Nat} (h : Detected d e p src) :
    e.pages.regs = d.pages.regs ∧ e.pages.shadow = d.pages.shadow ∧ e.pages.tbl = d.pages.tbl ∧ e.pages.tblSh = d.pages.tblSh ∧
      e.asks = d.asks ∧ e.ram = d.ram ∧ e.grps = d.grps ∧ e.en = d.en ∧ e.sys.l0 = d.sys.l0 := by
  obtain ⟨hs, o, pd, he⟩ := h.rest
  rw [he]
  exact ⟨rfl, rfl, rfl, rfl, rfl, rfl, rfl, rfl, rfl⟩

theorem Detected.rf {d e : Dev} {p : Page} {src : Nat} (h : Detected d e p src) (q : Page) (off hi lo i : Nat) :
    e.rf q off hi lo i = d.rf q off hi lo i := Dev.rf_congr h.keeps.1 q off hi lo i

/-- At most the state of one page has changed. -/
structure StateChanged (d e : Dev) (p : Page) : Prop where
  hdr : ∃ st, e.hdr p = { d.hdr p with state := st }
  others : sameHdrsBut d e p
  rest : ∃ hs, e = { d with pages := { d.pages with hdrs := hs } }

theorem StateChanged.refl (d : Dev) (p : Page) : StateChanged d d p := ⟨⟨_, rfl⟩, fun _ _ => rfl, _, rfl⟩

theorem StateChanged.setState (d : Dev) (p : Page) (st : PState) : StateChanged d (d.modHdr p (fun h => { h with state := st })) p :=
  ⟨⟨st, d.hdr_modHdr_same p _⟩, fun q hq => d.hdr_modHdr_other p q _ hq, _, rfl⟩

/-- The action of a source without retirement changes the state of its page at most. -/
theorem Dev.permanent_stateChanged (d : Dev) (p : Page) (src : Nat) (unit : Option Nat) (forced : Bool)
    (ha : (evDesc (kindOf p) src).act ≠ .retire) : StateChanged d (d.permanent p src unit forced) p := by
  unfold Dev.permanent
  cases hact : (evDesc (kindOf p) src).act with
  | retire => exact absurd hact ha
  | none =>
    simp only [hact]
    exact StateChanged.refl d p
  | faulted =>
    simp only [hact]
    split
    · exact StateChanged.refl d p
    · exact StateChanged.setState d p .faulted

/-- A source without retirement and without a reset is noted; at PERMANENT its page may enter FAULTED. -/
theorem Dev.detectUnit_detected (d : Dev) (p : Page) (src unit : Nat) (hk : kindOf p ≠ .dir) (ha : (evDesc (kindOf p) src).act ≠ .retire)
    (hh : (evDesc (kindOf p) src).hang = false) : Detected d (d.detectUnit p src unit) p src := by
  obtain ⟨lo, hi, l, x, cs, eff, hx, hn⟩ := d.note_eq p src unit ((d.hdr p).sev src)
  generalize hy : ({ d.hdr p with
    raw := putBit src true (d.hdr p).raw, carriedLo := lo, carriedHi := hi, hist := l ++ [x], counted := cs } : Hdr) = y at hn
  obtain ⟨e, hd, he⟩ : ∃ e, d.detectUnit p src unit = e.signal p src (bit src (d.hdr p).raw) eff ∧ StateChanged (d.setHdr p y) e p := by
    refine ⟨if eff = .permanent then (d.setHdr p y).permanent p src (some unit) false else d.setHdr p y, ?_, ?_⟩
    · simp only [Dev.detectUnit, Dev.detectAt, hk, Bool.false_and, Bool.false_eq_true, if_false, Option.getD_some, hn, hh, Bool.and_false]
    · split
      · exact (d.setHdr p y).permanent_stateChanged p src (some unit) false ha
      · exact StateChanged.refl _ p
  obtain ⟨⟨st, hhdr⟩, hoth, hs, heq⟩ := he
  obtain ⟨o, pd, hsig⟩ := e.signal_cases p src (bit src (d.hdr p).raw) eff
  rw [hd]
  refine ⟨⟨st, lo, hi, l, x, cs, hx, ?_⟩, fun q hq => ?_, hs, o, pd, ?_⟩
  · rw [Dev.signal_hdr, hhdr, Dev.hdr_setHdr_same, ← hy]
  · rw [Dev.signal_hdr, hoth q hq, Dev.hdr_setHdr_other _ _ _ _ hq]
  · rw [hsig, heq]
    rfl

theorem Dev.detect_detected (d : Dev) (p : Page) (src : Nat) (hk : kindOf p ≠ .dir) (ha : (evDesc (kindOf p) src).act ≠ .retire)
    (hh : (evDesc (kindOf p) src).hang = false) : Detected d (d.detect p src) p src := d.detectUnit_detected p src 0 hk ha hh

/-- SHADOW_LOCKED and COMMIT_REJECT are sources of every page but DIR, without action. -/
theorem evDesc_commitSources (k : PageKind) (src : Nat) (h : src = Evt.SHADOW_LOCKED ∨ src = Evt.COMMIT_REJECT) (hk : k ≠ .dir) :
    (evDesc k src).act ≠ .retire ∧ (evDesc k src).hang = false := by
  rcases h with rfl | rfl <;> revert hk <;> cases k <;> decide

theorem Dev.detect_commitSource (d : Dev) (p : Page) (src : Nat) (h : src = Evt.SHADOW_LOCKED ∨ src = Evt.COMMIT_REJECT)
    (hk : kindOf p ≠ .dir) : Detected d (d.detect p src) p src :=
  d.detect_detected p src hk (evDesc_commitSources _ _ h hk).1 (evDesc_commitSources _ _ h hk).2

end Sys2Proof.Machine
end

section
/-! Every detection keeps the bits that are raised and the newest history entry, whatever its action does (R473, R477). -/

namespace Sys2Proof.Machine

/-- A page's raw bits and history have stayed. -/
def KeepsEvents (p : Page) (d e : Dev) : Prop := (e.hdr p).raw = (d.hdr p).raw ∧ (e.hdr p).hist = (d.hdr p).hist

theorem KeepsEvents.refl (p : Page) (d : Dev) : KeepsEvents p d d := ⟨rfl, rfl⟩

theorem KeepsEvents.trans {p : Page} {d e f : Dev} (h : KeepsEvents p d e) (h' : KeepsEvents p e f) : KeepsEvents p d f :=
  ⟨h'.1.trans h.1, h'.2.trans h.2⟩

theorem KeepsEvents.of_hdrs {p : Page} {d e : Dev} (h : e.pages.hdrs = d.pages.hdrs) : KeepsEvents p d e := by
  unfold KeepsEvents Dev.hdr
  rw [h]
  exact ⟨rfl, rfl⟩

theorem KeepsEvents.of_pages {p : Page} {d e : Dev} (h : e.pages = d.pages) : KeepsEvents p d e := KeepsEvents.of_hdrs (by rw [h])

theorem KeepsEvents.modHdr (p : Page) (d : Dev) (f : Hdr → Hdr) (h : (f (d.hdr p)).raw = (d.hdr p).raw ∧ (f (d.hdr p)).hist = (d.hdr p).hist) :
    KeepsEvents p d (d.modHdr p f) := by
  unfold KeepsEvents
  rw [Dev.hdr_modHdr_same]
  exact h

theorem Hdr.settle_events (h : Hdr) : h.settle.raw = h.raw ∧ h.settle.hist = h.hist := by
  unfold Hdr.settle
  split <;> exact ⟨rfl, rfl⟩

theorem Dev.finishPlain_pages (d : Dev) (r q : Nat) (st : Status) (c : Nat) : (d.finishPlain r q st c).pages = d.pages := by
  unfold Dev.finishPlain
  split
  · rfl
  · exact (d.finish_keeps r q _).1

theorem Dev.subInflight_events (d : Dev) (p : Page) (n : Nat) : KeepsEvents p d (d.subInflight p n) :=
  KeepsEvents.modHdr p d _ (Hdr.settle_events _)

/-- Serving the items of a retired unit ends items and counts them. -/
theorem Dev.redispatchRetired_events (d : Dev) (p : Page) : KeepsEvents p d (d.redispatchRetired p) := by
  have hfin : ∀ (e : Dev) (r q : Nat) (st : Status) (c : Nat), KeepsEvents p e (e.finishPlain r q st c) :=
    fun e r q st c => KeepsEvents.of_pages (e.finishPlain_pages r q st c)
  unfold Dev.redispatchRetired
  refine foldl_keeps (KeepsEvents p d) _ (fun e i he => he.trans ?_) _ d (KeepsEvents.refl p d)
  split
  · exact KeepsEvents.refl p e
  · exact hfin e _ _ _ _
  · split_ifs
    · exact KeepsEvents.refl p e
    · exact Dev.subInflight_events (e.modItem i.ring i.seq Item.again) p 1
    · exact hfin e _ _ _ _
    · exact hfin e _ _ _ _

theorem Dev.clearCount_events (d : Dev) (p : Page) (u : Nat) : KeepsEvents p d (d.clearCount p u) := KeepsEvents.modHdr p d _ ⟨rfl, rfl⟩

theorem Dev.queueRecord_events (d : Dev) (p : Page) (v : Word) : KeepsEvents p d (d.queueRecord p v) :=
  KeepsEvents.of_pages (d.queueRecord_pages p v)

theorem Dev.clearQueue_events (d : Dev) (p : Page) (u : Nat) (v : Word) : KeepsEvents p d ((d.clearCount p u).queueRecord p v) :=
  (d.clearCount_events p u).trans (Dev.queueRecord_events _ p v)

/-- The retirement of a unit leaves raw bits and history. -/
theorem Dev.retireUnit_events (d : Dev) (p : Page) (u : Nat) : KeepsEvents p d (d.retireUnit p u).1 := by
  have hsit : KeepsEvents p d (d.modHdr p (fun h => { h with state := .sitOut })) := KeepsEvents.modHdr p d _ ⟨rfl, rfl⟩
  have hgrp : ∀ (g : Nat) (x : Grp), KeepsEvents p d ((d.setGrp g x).clearCount p u) := fun g x => Dev.clearCount_events (d.setGrp g x) p u
  have hgrpq : ∀ (g : Nat) (x : Grp) (v : Word), KeepsEvents p d (((d.setGrp g x).clearCount p u).queueRecord p v) :=
    fun g x v => Dev.clearQueue_events (d.setGrp g x) p u v
  unfold Dev.retireUnit
  dsimp only
  split
  · split
    · exact KeepsEvents.refl p d
    · exact (hsit.trans (Dev.clearQueue_events _ p 100 _)).trans (Dev.redispatchRetired_events _ p)
  split
  · split
    · exact KeepsEvents.refl p d
    · split
      · exact hgrp _ _
      · exact hgrpq _ _ _
  split
  · split
    · exact KeepsEvents.refl p d
    · exact d.clearQueue_events p u _
  split
  · exact Dev.clearCount_events _ p u
  split
  · exact d.clearQueue_events p u _
  · exact KeepsEvents.refl p d

/-- Bits raised before are raised still, and the newest history entry is still there. -/
structure EventsStand (p : Page) (d e : Dev) : Prop where
  raised : ∀ x, raised d p x → raised e p x
  newest : ∀ l x, (d.hdr p).hist = l ++ [x] → x ∈ (e.hdr p).hist

theorem KeepsEvents.stand {p : Page} {d e : Dev} (h : KeepsEvents p d e) : EventsStand p d e := by
  obtain ⟨hr, hh⟩ := h
  refine ⟨fun x hx => ?_, fun l x hl => ?_⟩
  · unfold Machine.raised at hx ⊢
    rwa [hr]
  · rw [hh, hl]
    simp

theorem KeepsEvents.trans_stand {p : Page} {d e f : Dev} (h : KeepsEvents p d e) (h' : EventsStand p e f) : EventsStand p d f := by
  refine ⟨fun x hx => h'.raised x (h.stand.raised x hx), fun l x hl => h'.newest l x ?_⟩
  rw [h.2, hl]

/-- A further detection without an action: one more entry, one more bit. -/
theorem Dev.detectPlain_stand (d : Dev) (p : Page) (src : Nat) (at_ : Sev) (hs : src < 32) : EventsStand p d (d.detectPlain p src at_) := by
  refine ⟨fun x => d.detectPlain_raised p src x at_ hs, fun l x hl => ?_⟩
  unfold Dev.detectPlain Dev.note
  dsimp only
  rw [Dev.signal_hdr, Dev.hdr_setHdr_same]
  generalize hy : (if at_ = .transient then (d.hdr p).count (countUnit (kindOf p) src 100) d.nowNs else d.hdr p) = y
  have hyl : y.hist = l ++ [x] := by
    rw [← hl, ← hy]
    split <;> rfl
  obtain ⟨lo, hi, hr⟩ := (y.record _).raise_eq src _
  rw [hr]
  exact y.record_keeps_newest l x _ hyl

/-- The action of a PERMANENT detection leaves what was raised and the newest entry. -/
theorem Dev.permanent_stand (d : Dev) (p : Page) (src : Nat) (unit : Option Nat) (forced : Bool) :
    EventsStand p d (d.permanent p src unit forced) := by
  unfold Dev.permanent
  dsimp only
  split
  · exact (KeepsEvents.refl p d).stand
  · split
    · exact (KeepsEvents.refl p d).stand
    · exact (KeepsEvents.modHdr p d _ ⟨rfl, rfl⟩).stand
  · exact (KeepsEvents.refl p d).stand
  · next u _ =>
    split
    · exact (d.retireUnit_events p u).trans_stand (Dev.detectPlain_stand _ p _ _ (by decide))
    · exact (d.retireUnit_events p u).stand

end Sys2Proof.Machine
end

section
/-! Shadows (R34, R35, R39): what a reload of a page's shadows leaves and what it reads back, and the bow that an island reset
withdraws (R496). -/

namespace Sys2Proof.Machine

/-- Shadows alone have changed. -/
def ShadowsOnly (d e : Dev) : Prop := ∃ sh ts, e = { d with pages := { d.pages with shadow := sh, tblSh := ts } }

theorem ShadowsOnly.refl (d : Dev) : ShadowsOnly d d := ⟨_, _, rfl⟩

theorem ShadowsOnly.trans {d e f : Dev} (h : ShadowsOnly d e) (h' : ShadowsOnly e f) : ShadowsOnly d f := by
  obtain ⟨sh, ts, rfl⟩ := h
  obtain ⟨sh', ts', rfl⟩ := h'
  exact ⟨sh', ts', rfl⟩

theorem ShadowsOnly.keeps {d e : Dev} (h : ShadowsOnly d e) :
    e.pages.regs = d.pages.regs ∧ e.pages.tbl = d.pages.tbl ∧ e.pages.hdrs = d.pages.hdrs := by
  obtain ⟨sh, ts, rfl⟩ := h
  exact ⟨rfl, rfl, rfl⟩

theorem ShadowsOnly.hdr {d e : Dev} (h : ShadowsOnly d e) (q : Page) : e.hdr q = d.hdr q := by
  rw [Dev.hdr, h.keeps.2.2, Dev.hdr]

/-- The register half and the table half of a reload. -/
def Dev.reloadRegs (d : Dev) (p : Page) (rs : List RegDesc) : Dev := rs.foldl (fun d r => d.setShadow p r.off (d.reg p r.off)) d
def Dev.reloadTable (d : Dev) (p : Page) (ks : List Nat) : Dev :=
  ks.foldl (fun d k => d.setTsw p (k / 4 % 2 ^ 24) (k % 4) (d.tw p (k / 4 % 2 ^ 24) (k % 4))) d

theorem Dev.reloadShadows_eq (d : Dev) (p : Page) :
    d.reloadShadows p = (d.reloadRegs p (rwsRegs p)).reloadTable p ((d.reloadRegs p (rwsRegs p)).shadowKeys p) := rfl

theorem Dev.reloadRegs_shadowsOnly (p : Page) (rs : List RegDesc) (d : Dev) : ShadowsOnly d (d.reloadRegs p rs) :=
  foldl_keeps (ShadowsOnly d) _ (fun _ _ h => h.trans ⟨_, _, rfl⟩) rs d (ShadowsOnly.refl d)

theorem Dev.reloadTable_shadowsOnly (p : Page) (ks : List Nat) (d : Dev) : ShadowsOnly d (d.reloadTable p ks) :=
  foldl_keeps (ShadowsOnly d) _ (fun _ _ h => h.trans ⟨_, _, rfl⟩) ks d (ShadowsOnly.refl d)

theorem Dev.reloadShadows_shadowsOnly (d : Dev) (p : Page) : ShadowsOnly d (d.reloadShadows p) := by
  rw [Dev.reloadShadows_eq]
  exact (d.reloadRegs_shadowsOnly p _).trans (Dev.reloadTable_shadowsOnly p _ _)

/-- A withdrawn bow is not pending; the page's header is else as it was, and no active value has changed. -/
theorem Dev.withdrawBow_keeps (d : Dev) (p : Page) :
    (d.withdrawBow p).hdr p = { d.hdr p with commitPending := false } ∧ sameHdrsBut d (d.withdrawBow p) p ∧
      (d.withdrawBow p).pages.regs = d.pages.regs ∧ (d.withdrawBow p).pages.tbl = d.pages.tbl := by
  unfold Dev.withdrawBow
  split
  · have h := (d.modHdr p (fun h => { h with commitPending := false })).reloadShadows_shadowsOnly p
    obtain ⟨hr, ht, -⟩ := h.keeps
    refine ⟨?_, fun q hq => ?_, ?_, ?_⟩
    · rw [h.hdr, Dev.hdr_modHdr_same]
    · rw [h.hdr, Dev.hdr_modHdr_other _ _ _ _ hq]
    · simp [hr]
    · simp [ht]
  · next hn =>
    have hf : (d.hdr p).commitPending = false := by simpa using hn
    exact ⟨by rw [← hf], fun _ _ => rfl, rfl, rfl⟩

/-- An island reset that begins withdraws the bow and reads 1 (R496). -/
theorem Dev.startReset_keeps (d : Dev) (p : Page) :
    (d.startReset p).hdr p = { d.hdr p with commitPending := false, rst := true } ∧ sameHdrsBut d (d.startReset p) p ∧
      (d.startReset p).pages.regs = d.pages.regs := by
  obtain ⟨hh, ho, hr, -⟩ := d.withdrawBow_keeps p
  unfold Dev.startReset
  refine ⟨?_, fun q hq => ?_, ?_⟩
  · rw [Dev.hdr_modHdr_same, hh]
  · rw [Dev.hdr_modHdr_other _ _ _ _ hq, ho q hq]
  · simp [hr]

/-- A register's shadow has been reloaded once the register has been passed, whatever comes after it. -/
theorem Dev.reloadRegs_back (p : Page) (rs : List RegDesc) : ∀ (d : Dev) (o : Nat), (∃ r ∈ rs, r.off = o) ∨ d.shadow p o = d.reg p o →
    (d.reloadRegs p rs).shadow p o = d.reg p o := by
  induction rs with
  | nil =>
    intro d o h
    obtain ⟨r, hr, -⟩ | h := h
    · cases hr
    · exact h
  | cons r rs ih =>
    intro d o h
    generalize he : d.setShadow p r.off (d.reg p r.off) = e
    have hreg : ∀ x, e.reg p x = d.reg p x := fun x => by simp only [← he, Dev.reg, Dev.setShadow_keeps]
    have hstep : d.reloadRegs p (r :: rs) = e.reloadRegs p rs := by rw [Dev.reloadRegs, List.foldl_cons, he, Dev.reloadRegs]
    rw [hstep, ← hreg]
    refine ih e o ?_
    by_cases ho : o = r.off
    · right
      rw [ho, hreg, ← he, Dev.shadow_setShadow_same]
    · obtain ⟨x, hx, hxo⟩ | h := h
      · rcases List.mem_cons.mp hx with rfl | hx
        · exact absurd hxo.symm ho
        · exact Or.inl ⟨x, hx, hxo⟩
      · right
        rw [hreg, ← h, ← he]
        exact SMap.get_set_other _ _ _ _ _ (fun hk => ho (Nat.add_left_cancel hk))

/-- Likewise a table word's shadow. -/
theorem Dev.reloadTable_back (p : Page) (ks : List Nat) : ∀ (d : Dev) (a i : Nat),
    (∃ k ∈ ks, k / 4 % 2 ^ 24 = a ∧ k % 4 = i) ∨ d.tsw p a i = d.tw p a i → (d.reloadTable p ks).tsw p a i = d.tw p a i := by
  induction ks with
  | nil =>
    intro d a i h
    obtain ⟨k, hk, -⟩ | h := h
    · cases hk
    · exact h
  | cons k ks ih =>
    intro d a i h
    generalize hd : d.setTsw p (k / 4 % 2 ^ 24) (k % 4) (d.tw p (k / 4 % 2 ^ 24) (k % 4)) = e
    have htw : e.tw p a i = d.tw p a i := by simp only [← hd, Dev.tw, Dev.setTsw_keeps]
    have hstep : d.reloadTable p (k :: ks) = e.reloadTable p ks := by rw [Dev.reloadTable, List.foldl_cons, hd, Dev.reloadTable]
    rw [hstep, ← htw]
    refine ih e a i ?_
    by_cases hka : tblKey p a i = tblKey p (k / 4 % 2 ^ 24) (k % 4)
    · right
      have hsw : e.tsw p a i = d.tw p (k / 4 % 2 ^ 24) (k % 4) := by
        rw [← hd, Dev.tsw, hka]
        exact SMap.get_set_same _ _ _ _
      rw [hsw, htw, Dev.tw, Dev.tw, hka]
    · obtain ⟨x, hx, hxa, hxi⟩ | h := h
      · rcases List.mem_cons.mp hx with rfl | hx
        · exact absurd (by rw [hxa, hxi]) hka
        · exact Or.inl ⟨x, hx, hxa, hxi⟩
      · right
        rw [htw, ← h, ← hd]
        exact SMap.get_set_other _ _ _ _ _ hka

theorem Dev.reloadRegs_tblSh (p : Page) (rs : List RegDesc) (d : Dev) : (d.reloadRegs p rs).pages.tblSh = d.pages.tblSh := by
  refine foldl_keeps (fun x : Dev => x.pages.tblSh = d.pages.tblSh) _ (fun x r h => ?_) rs d rfl
  simp only [Dev.setShadow_keeps, h]

theorem Dev.reloadTable_shadow (p : Page) (ks : List Nat) (d : Dev) : (d.reloadTable p ks).pages.shadow = d.pages.shadow := by
  refine foldl_keeps (fun x : Dev => x.pages.shadow = d.pages.shadow) _ (fun x k h => ?_) ks d rfl
  simp only [Dev.setTsw_keeps, h]

/-- Every shadow of the page reads as its active value after a reload. -/
theorem Dev.reloadShadows_back (d : Dev) (p : Page) :
    (∀ r, r ∈ rwsRegs p → (d.reloadShadows p).shadow p r.off = d.reg p r.off) ∧
      (∀ k, k ∈ d.shadowKeys p → (d.reloadShadows p).tsw p (k / 4 % 2 ^ 24) (k % 4) = d.tw p (k / 4 % 2 ^ 24) (k % 4)) := by
  obtain ⟨hregs, htbl, -⟩ := (d.reloadRegs_shadowsOnly p (rwsRegs p)).keeps
  have hkeys : (d.reloadRegs p (rwsRegs p)).shadowKeys p = d.shadowKeys p := by
    rw [Dev.shadowKeys, Dev.shadowKeys, htbl, Dev.reloadRegs_tblSh]
  rw [Dev.reloadShadows_eq, hkeys]
  refine ⟨fun r hr => ?_, fun k hk => ?_⟩
  · rw [Dev.shadow, Dev.reloadTable_shadow]
    exact d.reloadRegs_back p _ r.off (Or.inl ⟨r, hr, rfl⟩)
  · rw [Dev.reloadTable_back p _ _ _ _ (Or.inl ⟨k, hk, rfl, rfl⟩), Dev.tw, htbl, Dev.tw]

end Sys2Proof.Machine
end

section
/-! The event registers (R32, R33, R48, R483, R487). -/

namespace Sys2Proof.Machine

theorem Dev.hdr_congr {d e : Dev} (h : e.pages.hdrs = d.pages.hdrs) (q : Page) : e.hdr q = d.hdr q := by rw [Dev.hdr, h, Dev.hdr]

theorem Dev.answer_hdr (d : Dev) (w : Word) (q : Page) : (d.answer w).hdr q = d.hdr q := Dev.hdr_congr (by simp) q

theorem Dev.startReset_events (d : Dev) (p : Page) : KeepsEvents p d (d.startReset p) := by
  unfold KeepsEvents
  rw [(d.startReset_keeps p).1]
  exact ⟨rfl, rfl⟩

/-- Every detection, whatever it leads to, leaves its source raised with an entry in the history, and what was raised before. -/
theorem Dev.detectAt_noted (d : Dev) (p : Page) (src : Nat) (unit : Option Nat) (forced : Bool) (at_ : Sev) (hs : src < 32)
    (hk : kindOf p ≠ .dir) (hf : forced = false ∨ (d.hdr p).state ≠ .sitOut) :
    raised (d.detectAt p src unit forced at_) p src ∧ (∃ e ∈ ((d.detectAt p src unit forced at_).hdr p).hist, e.source = src) ∧
      ∀ x, raised d p x → raised (d.detectAt p src unit forced at_) p x := by
  obtain ⟨lo, hi, l, e, cs, eff, he, hn⟩ := d.note_eq p src (unit.getD 0) at_
  generalize hy : ({ d.hdr p with
    raw := putBit src true (d.hdr p).raw, carriedLo := lo, carriedHi := hi, hist := l ++ [e], counted := cs } : Hdr) = y at hn
  have hyp : (d.setHdr p y).hdr p = y := d.hdr_setHdr_same p y
  have hnot : ¬(forced && decide ((d.hdr p).state = .sitOut)) = true := by
    obtain h | h := hf <;> simp [h]
  obtain ⟨x, hx, hstand⟩ : ∃ x, d.detectAt p src unit forced at_ = x.signal p src (bit src (d.hdr p).raw) eff ∧
      EventsStand p (d.setHdr p y) x := by
    refine ⟨if eff = .permanent then (d.setHdr p y).permanent p src unit forced
      else if (decide (eff = .transient) && !forced && (evDesc (kindOf p) src).hang) = true then (d.setHdr p y).startReset p
      else d.setHdr p y, ?_, ?_⟩
    · unfold Dev.detectAt
      rw [if_neg hk, if_neg hnot]
      simp only [hn]
    · split_ifs
      · exact Dev.permanent_stand _ p src unit forced
      · exact (Dev.startReset_events _ p).stand
      · exact (KeepsEvents.refl p _).stand
  have hraw : ∀ n, bit n (putBit src true (d.hdr p).raw) = true → raised (d.detectAt p src unit forced at_) p n := by
    intro n hb
    have := hstand.raised n (by unfold raised; rw [hyp, ← hy]; exact hb)
    unfold raised at this ⊢
    rwa [hx, Dev.signal_hdr]
  refine ⟨hraw src (bit_putBit_same src true _ hs), ⟨e, ?_, he⟩, fun n h => hraw n (bit_putBit_true src n _ hs h)⟩
  rw [hx, Dev.signal_hdr]
  exact hstand.newest l e (by rw [hyp, ← hy])

/-! ## EVT_RAW -/

/-- The sources of a mask are detected in turn. -/
def Dev.detectAll (d : Dev) (p : Page) (mask : Word) (l : List Nat) : Dev :=
  l.foldl (fun d n => if bit n mask then d.detect p n else d) d

theorem Dev.evtRawClear_eq (d : Dev) (p : Page) (v : Word) (hk : kindOf p ≠ .dir) : d.evtRawClear p v =
    (d.modHdr p (fun h => h.clearRaw v)).detectAll p ((d.hdr p).raw &&& v &&& (d.hdr p).persists) (List.range 32) := by
  unfold Dev.evtRawClear
  rw [if_neg hk]
  rfl

theorem bit_zero (n : Nat) : bit n 0 = false := BitVec.getLsbD_zero

theorem Dev.detectAll_none (d : Dev) (p : Page) (l : List Nat) : d.detectAll p 0 l = d := by
  unfold Dev.detectAll
  refine foldl_keeps (fun x => x = d) _ (fun x n hx => ?_) l d rfl
  rw [bit_zero, if_neg Bool.false_ne_true, hx]

/-- A detected source of the mask is raised, and stays so. -/
theorem Dev.detectAll_raised (p : Page) (mask : Word) (hk : kindOf p ≠ .dir) (n : Nat) (hn : bit n mask = true) (l : List Nat) :
    ∀ d : Dev, (∀ x ∈ l, x < 32) → n ∈ l ∨ raised d p n → raised (d.detectAll p mask l) p n := by
  induction l with
  | nil => exact fun d _ h => h.resolve_left List.not_mem_nil
  | cons m l ih =>
    intro d hl h
    have hm : m < 32 := hl m List.mem_cons_self
    refine ih (if bit m mask then d.detect p m else d) (fun x hx => hl x (List.mem_cons_of_mem m hx)) ?_
    obtain ⟨hsrc, -, hold⟩ := d.detectAt_noted p m (some 0) false ((d.hdr p).sev m) hm hk (Or.inl rfl)
    by_cases hnm : n = m
    · right
      rw [hnm, if_pos (hnm ▸ hn)]
      exact hsrc
    · obtain h | h := h
      · exact Or.inl ((List.mem_cons.mp h).resolve_left hnm)
      · right
        split
        · exact hold n h
        · exact h

/-! ## EVT_EN -/

/-- A message is sent for every source of a list that a test admits. -/
def Dev.vectorAll (d : Dev) (v : Nat) (test : Nat → Bool) (l : List Nat) : Dev := l.foldl (fun d n => if test n then d.vector v else d) d

/-- The sources that a write of EVT_EN makes send a message (R48). -/
def Hdr.newlySent (h : Hdr) (v : Word) (n : Nat) : Bool := bit n (v &&& ~~~ h.en &&& h.raw) && decide (h.carried n ≠ .log)

theorem Dev.evtEnWrite_eq (d : Dev) (p : Page) (v : Word) (hk : kindOf p ≠ .dir) : d.evtEnWrite p v =
    (d.modHdr p (fun h => { h with en := v })).vectorAll (p.val - 1) ((d.hdr p).newlySent v) (List.range 32) := by
  unfold Dev.evtEnWrite
  rw [if_neg hk]
  rfl

theorem Dev.vectorAll_pages (d : Dev) (v : Nat) (test : Nat → Bool) (l : List Nat) : (d.vectorAll v test l).pages = d.pages := by
  unfold Dev.vectorAll
  refine foldl_keeps (fun x : Dev => x.pages = d.pages) _ (fun x n hx => ?_) l d rfl
  split
  · rw [Dev.vector_pages, hx]
  · exact hx

theorem Dev.vectorAll_hdr (d : Dev) (v : Nat) (test : Nat → Bool) (l : List Nat) (q : Page) : (d.vectorAll v test l).hdr q = d.hdr q :=
  Dev.hdr_congr (congrArg Pages.hdrs (d.vectorAll_pages v test l)) q

/-- A vector goes out where the link is in L0 and the vector is not masked (R48). -/
def Dev.sendsVector (d : Dev) (v : Nat) : Prop := d.sys.l0 = true ∧ d.vectorMasked v = false

theorem Dev.vector_sent (d : Dev) (v : Nat) (h : d.sendsVector v) : d.vector v = d.emit (.msix v) := by
  obtain ⟨hl, hm⟩ := h
  unfold Dev.vector
  rw [hl, hm]
  rfl

theorem Dev.vector_sendsVector (d : Dev) (v w : Nat) (h : d.sendsVector v) : (d.vector w).sendsVector v := by
  obtain ⟨o, l, he⟩ := d.vector_cases w
  rw [he]
  exact h

theorem Dev.vectorAll_sent (v : Nat) (test : Nat → Bool) (n : Nat) (hn : test n = true) (l : List Nat) :
    ∀ d : Dev, d.sendsVector v → n ∈ l ∨ Output.msix v ∈ d.out → Output.msix v ∈ (d.vectorAll v test l).out := by
  induction l with
  | nil => exact fun d _ h => h.resolve_left List.not_mem_nil
  | cons m l ih =>
    intro d hd h
    have hsent : Output.msix v ∈ (d.vector v).out := by
      rw [d.vector_sent v hd]
      exact List.mem_cons_self
    refine ih (if test m then d.vector v else d) ?_ ?_
    · split
      · exact d.vector_sendsVector v v hd
      · exact hd
    · by_cases hm : test m = true
      · exact Or.inr (by rw [if_pos hm]; exact hsent)
      · rw [if_neg hm]
        exact h.imp_left (fun h => (List.mem_cons.mp h).resolve_left (fun e => hm (by rw [← e]; exact hn)))

theorem bit_newly (n : Nat) (v en raw : Word) (hn : n < 32) (hv : bit n v = true) (he : bit n en = false) (hr : bit n raw = true) :
    bit n (v &&& ~~~ en &&& raw) = true := by
  unfold bit at *
  rw [BitVec.getLsbD_and, BitVec.getLsbD_and, BitVec.getLsbD_not, hv, he, hr, decide_eq_true hn]
  rfl

/-! ## EVT_FORCE and HIST_READ -/

/-- In SIT_OUT a forced source writes history alone (R487). -/
theorem Dev.force_sitOut (d : Dev) (p : Page) (n : Nat) (hk : kindOf p ≠ .dir) (hs : (d.hdr p).state = .sitOut) :
    ((d.force p n).hdr p).raw = (d.hdr p).raw ∧ ∃ e ∈ ((d.force p n).hdr p).hist, e.source = n := by
  unfold Dev.force Dev.detectAt
  rw [if_neg hk, hs, decide_eq_true rfl, if_pos (by rfl), Dev.hdr_modHdr_same]
  generalize hx : ({ timeUs := _, sev := _, source := n, lost := false } : HistEntry) = x
  obtain ⟨l, hl⟩ := (d.hdr p).record_eq x
  rw [hl]
  exact ⟨rfl, x, by simp, by rw [← hx]⟩

/-- A read of HIST_READ pops the oldest entry. -/
theorem Dev.histPop_cons (d : Dev) (p : Page) (e : HistEntry) (es : List HistEntry) (h : (d.hdr p).hist = e :: es) :
    d.histPop p = (d.modHdr p (fun h => { h with hist := es })).answer e.word := by
  unfold Dev.histPop
  rw [h]

theorem Dev.histPop_nil (d : Dev) (p : Page) (h : (d.hdr p).hist = []) : d.histPop p = d.answer 0 := by
  unfold Dev.histPop
  rw [h]

/-- Settles O13: each clause by the lemma of its register. -/
theorem eventRegisters : Obligations.EventRegisters := by
  refine ⟨?_, ?_, ?_, ?_, ?_, ?_, ?_, ?_⟩
  · intro s p v hk h0
    refine ⟨_, rfl, ?_⟩
    dsimp only
    rw [Dev.evtRawClear_eq _ _ _ hk, h0, Dev.detectAll_none, Dev.hdr_modHdr_same]
    exact ⟨rfl, fun q hq => Dev.hdr_modHdr_other _ _ _ _ hq⟩
  · intro s p v n hk hv hraw hper
    refine ⟨_, rfl, ?_⟩
    dsimp only
    rw [Dev.evtRawClear_eq _ _ _ hk]
    refine Dev.detectAll_raised p _ hk n.val ?_ _ _ (fun x hx => List.mem_range.mp hx) (Or.inl (List.mem_range.mpr n.isLt))
    unfold bit at *
    rw [BitVec.getLsbD_and, BitVec.getLsbD_and, hraw, hv, hper]
    rfl
  · intro s p v hk
    refine ⟨_, rfl, ?_⟩
    dsimp only
    rw [Dev.evtEnWrite_eq _ _ _ hk]
    rw [Dev.vectorAll_hdr, Dev.hdr_modHdr_same]
    exact ⟨rfl, rfl, fun q hq => (Dev.vectorAll_hdr _ _ _ _ q).trans (Dev.hdr_modHdr_other _ _ _ _ hq)⟩
  · intro s p v n hk hv hen hraw hc hl hm
    refine ⟨_, rfl, ?_⟩
    dsimp only
    rw [Dev.evtEnWrite_eq _ _ _ hk]
    refine Dev.vectorAll_sent _ _ n.val ?_ _ _ ?_ (Or.inl (List.mem_range.mpr n.isLt))
    · rw [Hdr.newlySent, bit_newly n.val _ _ _ n.isLt hv hen hraw, decide_eq_true hc]
      rfl
    · exact ⟨hl, hm⟩
  · intro s p n hk hs
    obtain ⟨hr, hh, -⟩ := s.dev.detectAt_noted p n.val (s.dev.forcedTarget p n.val) true ((s.dev.hdr p).sev n.val) n.isLt hk (Or.inr hs)
    exact ⟨_, rfl, hr, hh⟩
  · exact fun s p n hk hs => ⟨_, rfl, s.dev.force_sitOut p n.val hk hs⟩
  · intro s p e es h
    refine ⟨_, rfl, ?_⟩
    dsimp only
    rw [s.dev.histPop_cons p e es h]
    rw [Dev.answer_hdr, Dev.hdr_modHdr_same]
    exact ⟨rfl, rfl, fun q hq => (Dev.answer_hdr _ _ q).trans (Dev.hdr_modHdr_other _ _ _ _ hq)⟩
  · intro s p h
    refine ⟨_, rfl, ?_⟩
    dsimp only
    rw [s.dev.histPop_nil p h]
    rfl

end Sys2Proof.Machine
end

section
/-! Bows (R34 to R39): what a request checks, what a bow makes active. -/

namespace Sys2Proof.Machine

/-! ## A bow's registers and table words -/

/-- A word with its masked bits taken from another has that other's bits under the mask. -/
theorem merge_masked (x s m : Word) : ((x &&& ~~~ m) ||| (s &&& m)) &&& m = s &&& m := by
  ext i hi
  cases hm : m[i] <;> simp [hm]

/-- The register half and the table half of a bow. -/
def Dev.takeRegs (d : Dev) (p : Page) (rs : List RegDesc) : Dev :=
  rs.foldl (fun d r => d.setReg p r.off ((d.reg p r.off &&& ~~~ rwsMask r) ||| (d.shadow p r.off &&& rwsMask r))) d
def Dev.takeTable (d : Dev) (p : Page) (ks : List Nat) : Dev :=
  ks.foldl (fun d k =>
    d.setTw p (k / 4 % 2 ^ 24) (k % 4) ((d.tw p (k / 4 % 2 ^ 24) (k % 4) &&& ~~~ tblMask (kindOf p) (k / 4 % 2 ^ 24) (k % 4)) |||
      (d.tsw p (k / 4 % 2 ^ 24) (k % 4) &&& tblMask (kindOf p) (k / 4 % 2 ^ 24) (k % 4)))) d

theorem Dev.takeShadows_eq (d : Dev) (p : Page) :
    d.takeShadows p = (d.takeRegs p (rwsRegs p)).takeTable p ((d.takeRegs p (rwsRegs p)).shadowKeys p) := rfl

theorem Dev.takeTable_regs (p : Page) (ks : List Nat) (d : Dev) : (d.takeTable p ks).pages.regs = d.pages.regs := by
  refine foldl_keeps (fun x : Dev => x.pages.regs = d.pages.regs) _ (fun x k h => ?_) ks d rfl
  simp only [Dev.setTw_keeps, h]

/-- Another register of the page keeps its word when one is set. -/
theorem Dev.reg_setReg_offset (d : Dev) (p : Page) (off o : Nat) (w : Word) (h : o ≠ off) : (d.setReg p off w).reg p o = d.reg p o :=
  SMap.get_set_other _ _ _ _ _ (fun hk => h (Nat.add_left_cancel hk))

theorem Dev.shadow_setReg (d : Dev) (p q : Page) (off o : Nat) (w : Word) : (d.setReg p off w).shadow q o = d.shadow q o := by
  simp only [Dev.shadow, Dev.setReg_keeps]

theorem Dev.takeRegs_cons (d : Dev) (p : Page) (r : RegDesc) (rs : List RegDesc) : d.takeRegs p (r :: rs) =
    (d.setReg p r.off ((d.reg p r.off &&& ~~~ rwsMask r) ||| (d.shadow p r.off &&& rwsMask r))).takeRegs p rs := rfl

theorem Dev.takeRegs_other (p : Page) (rs : List RegDesc) : ∀ (d : Dev) (o : Nat), o ∉ rs.map RegDesc.off →
    (d.takeRegs p rs).reg p o = d.reg p o := by
  induction rs with
  | nil => exact fun d o _ => rfl
  | cons r rs ih =>
    intro d o ho
    obtain ⟨hr, hrs⟩ : o ≠ r.off ∧ o ∉ rs.map RegDesc.off := by simpa [not_or] using ho
    rw [Dev.takeRegs_cons, ih _ _ hrs, Dev.reg_setReg_offset _ _ _ _ _ hr]

/-- The RWS bits of every register passed take the shadow's. -/
theorem Dev.takeRegs_back (p : Page) (r : RegDesc) (rs : List RegDesc) (hm : r ∈ rs) : ∀ (d : Dev), (rs.map RegDesc.off).Nodup →
    (d.takeRegs p rs).reg p r.off &&& rwsMask r = d.shadow p r.off &&& rwsMask r := by
  induction rs with
  | nil => cases hm
  | cons x rs ih =>
    intro d hn
    obtain ⟨hx, hrs⟩ := List.nodup_cons.mp hn
    rw [Dev.takeRegs_cons]
    rcases List.mem_cons.mp hm with rfl | hmem
    · rw [Dev.takeRegs_other _ _ _ _ hx, Dev.reg_setReg_same, merge_masked]
    · rw [ih hmem _ hrs, Dev.shadow_setReg]

theorem blockRegs_offsets_nodup (k : PageKind) : ((blockRegs k).map RegDesc.off).Nodup := by
  cases k <;> decide +kernel

theorem rwsRegs_offsets_nodup (p : Page) : ((rwsRegs p).map RegDesc.off).Nodup :=
  (blockRegs_offsets_nodup (kindOf p)).sublist (List.filter_sublist.map _)

/-- COMMIT_STAT has no shadow. -/
theorem commitStat_not_rws (p : Page) : commitStat ∉ (rwsRegs p).map RegDesc.off := by
  unfold rwsRegs
  generalize kindOf p = k
  cases k <;> decide +kernel

/-- A bow of the registers of a page. -/
theorem Dev.takeShadows_regs (d : Dev) (p : Page) :
    (∀ o, o ∉ (rwsRegs p).map RegDesc.off → (d.takeShadows p).reg p o = d.reg p o) ∧
      ∀ r, r ∈ rwsRegs p → (d.takeShadows p).reg p r.off &&& rwsMask r = d.shadow p r.off &&& rwsMask r := by
  have h : ∀ o, (d.takeShadows p).reg p o = (d.takeRegs p (rwsRegs p)).reg p o := by
    intro o
    rw [Dev.takeShadows_eq, Dev.reg, Dev.takeTable_regs, Dev.reg]
  refine ⟨fun o ho => ?_, fun r hr => ?_⟩
  · rw [h, d.takeRegs_other p _ o ho]
  · rw [h, d.takeRegs_back p r _ hr (rwsRegs_offsets_nodup p)]

/-- A page without a plan or a schedule of its own takes its shadows and counts the bow. -/
theorem Dev.takeBow_plain (d : Dev) (p : Page) (hk : kindOf p = .ve ∨ kindOf p = .am) :
    d.takeBow p = ((d.takeShadows p).modHdr p (fun h => { h with commitPending := false })).bump p commitStat 31 16 := by
  unfold Dev.takeBow
  obtain h | h := hk <;> simp only [h, reduceCtorEq, if_false]

/-- What the bow of such a page leaves. -/
theorem Dev.takeBow_plain_keeps (d : Dev) (p : Page) (hk : kindOf p = .ve ∨ kindOf p = .am) :
    ((d.takeBow p).hdr p).commitPending = false ∧
      (d.takeBow p).rf p commitStat 31 16 = (d.rf p commitStat 31 16 + 1) % 65536 ∧
      ∀ r, r ∈ rwsRegs p → (d.takeBow p).reg p r.off &&& rwsMask r = d.shadow p r.off &&& rwsMask r := by
  obtain ⟨hother, hback⟩ := d.takeShadows_regs p
  rw [d.takeBow_plain p hk]
  generalize hx : (d.takeShadows p).modHdr p (fun h => { h with commitPending := false }) = x
  have hreg : ∀ o, x.reg p o = (d.takeShadows p).reg p o := fun o => by simp only [← hx, Dev.reg, Dev.modHdr_keeps]
  refine ⟨?_, ?_, fun r hr => ?_⟩
  · rw [Dev.hdr_congr (d := x) (by simp), ← hx, Dev.hdr_modHdr_same]
  · rw [Dev.bump, Dev.rf_setRf_same _ _ _ _ _ _ _ (by decide) (by decide), Dev.rf, hreg, hother _ (commitStat_not_rws p), Nat.mod_mod]
    rfl
  · have hne : r.off ≠ commitStat := fun he => commitStat_not_rws p (he ▸ List.mem_map_of_mem hr)
    rw [Dev.bump, Dev.setRf, Dev.reg_setReg_offset _ _ _ _ _ hne, hreg, hback r hr]

theorem Dev.bowMoment_due (d : Dev) (p : Page) (hp : (d.hdr p).commitPending = true) (hb : d.atBoundary p = true)
    (ht : (d.hdr p).bowAt = 2 → (d.commitTime p : Int) ≤ d.timeNs) : d.bowMoment p = d.takeBow p := by
  unfold Dev.bowMoment
  dsimp only
  rw [hp, hb, if_neg]
  simp only [Bool.not_true, Bool.false_or, Bool.and_eq_true, decide_eq_true_eq, not_and, not_lt]
  exact ht

/-! ## A request -/

/-- The checks of a request do not read COMMIT_AT. -/
theorem Dev.commitCause_commitAt (d : Dev) (p : Page) (x : BitVec 2) (n : Nat) :
    (d.modHdr p (fun h => { h with commitAt := x })).commitCause p n = d.commitCause p n := by
  unfold Dev.commitCause
  rw [Dev.hdr_modHdr_same]
  rfl

theorem Dev.commitCause_le (d : Dev) (p : Page) (n c : Nat) (h : d.commitCause p n = some c) : c ≤ 5 := by
  unfold Dev.commitCause at h
  dsimp only at h
  split_ifs at h <;> cases h <;> decide

/-- A page that its validator accepts is as it was. -/
theorem Dev.validate_accepts (d : Dev) (p : Page) (h : (d.validate p).2 = true) : (d.validate p).1 = d := by
  unfold Dev.validate at h ⊢
  generalize kindOf p = k at h ⊢
  cases k <;> dsimp only at h ⊢
  case cp => cases hv : d.cpValidate (instOf p) <;> simp only [hv] at h ⊢; cases h
  case tm => cases hv : d.tmValidate <;> simp only [hv] at h ⊢; cases h
  case ac => cases hv : d.acValidate <;> simp only [hv] at h ⊢; cases h

theorem hasCommit_ne_dir {k : PageKind} (h : k.hasCommit = true) : k ≠ .dir := by
  rintro rfl
  cases h

/-- A request that passes is pending; only the page's header changes. -/
theorem Dev.commitAsk_passes (d : Dev) (p : Page) (at_ : BitVec 2) (hc : (kindOf p).hasCommit = true) (ha : at_ ≠ 0)
    (hn : d.commitCause p at_.toNat = none) (hv : ((d.modHdr p (fun h => { h with commitAt := at_ })).validate p).2 = true) :
    d.commitAsk p at_ = (d.modHdr p (fun h => { h with commitAt := at_ })).modHdr p
      (fun h => { h with commitPending := true, bowAt := at_ }) := by
  have he := Dev.validate_accepts _ _ hv
  unfold Dev.commitAsk
  rw [if_neg (hasCommit_ne_dir hc)]
  simp only [hc, Bool.not_true, Bool.false_eq_true, if_false, Dev.commitCause_commitAt, hn, hv, he, ha, decide_false, Bool.false_and]

/-- A request that a check stops is refused with the check's cause. -/
theorem Dev.commitAsk_refused (d : Dev) (p : Page) (at_ : BitVec 2) (c : Nat) (hc : (kindOf p).hasCommit = true)
    (hn : d.commitCause p at_.toNat = some c) :
    d.commitAsk p at_ = (d.modHdr p (fun h => { h with commitAt := at_ })).refuseCommit p c := by
  unfold Dev.commitAsk
  rw [if_neg (hasCommit_ne_dir hc)]
  simp only [hc, Bool.not_true, Bool.false_eq_true, if_false, Dev.commitCause_commitAt, hn]

/-- A page without COMMIT_STAT refuses always. -/
theorem Dev.commitAsk_without (d : Dev) (p : Page) (at_ : BitVec 2) (hc : (kindOf p).hasCommit = false) (hd : kindOf p ≠ .dir) :
    d.commitAsk p at_ = (d.modHdr p (fun h => { h with commitAt := at_ })).detect p Evt.COMMIT_REJECT := by
  unfold Dev.commitAsk
  rw [if_neg hd]
  simp only [hc, Bool.not_false, if_true]

/-- What a refusal leaves: CAUSE, the event, and everything else of the page as it was. -/
theorem Dev.refuseCommit_detected (d : Dev) (p : Page) (c : Nat) (hd : kindOf p ≠ .dir) :
    Detected (d.setRf p commitStat 3 0 c) (d.refuseCommit p c) p Evt.COMMIT_REJECT :=
  Dev.detect_commitSource _ p _ (Or.inr rfl) hd

/-! ## The obligation -/

/-- Settles O12, one operation after the other: a request that passes, is refused, or has no COMMIT_STAT; a cancel; a bow. -/
theorem bows : Obligations.Bows := by
  refine ⟨fun s p at_ hc ha hn hv => ⟨_, rfl, ?_⟩, fun s p at_ c hc hn => ⟨_, rfl, ?_⟩,
    fun s p at_ hc hd => ⟨_, rfl, ?_⟩, fun s p hp => ⟨_, rfl, ?_⟩, fun s p hk hp hb ht => ⟨_, rfl, ?_⟩⟩ <;> dsimp only
  case refine_1 =>
    rw [Dev.commitAsk_passes _ _ _ hc ha hn hv]
    simp only [Dev.hdr_modHdr_same, Dev.modHdr_keeps, and_self]
  case refine_2 =>
    rw [Dev.commitAsk_refused _ _ _ _ hc hn]
    generalize hx : s.dev.modHdr p (fun h => { h with commitAt := at_ }) = x
    have hdet := x.refuseCommit_detected p c (hasCommit_ne_dir hc)
    obtain ⟨-, hshadow, htbl, -⟩ := hdet.keeps
    refine ⟨?_, hdet.raised (by decide), ?_, ?_, ?_⟩
    · rw [hdet.rf, Dev.rf_setRf_same _ _ _ _ _ _ _ (by decide) (by decide)]
      exact Nat.mod_eq_of_lt (Nat.lt_of_le_of_lt (s.dev.commitCause_le p _ _ hn) (by decide))
    · rw [hdet.commitPending, Dev.hdr_congr (d := x) (by simp), ← hx, Dev.hdr_modHdr_same]
    · rw [hshadow]
      simp only [Dev.setRf_keeps, ← hx, Dev.modHdr_keeps]
    · rw [htbl]
      simp only [Dev.setRf_keeps, ← hx, Dev.modHdr_keeps]
  case refine_3 =>
    rw [Dev.commitAsk_without _ _ _ hc hd]
    have hdet := (s.dev.modHdr p (fun h => { h with commitAt := at_ })).detect_commitSource p _ (Or.inr rfl) hd
    obtain ⟨hregs, -⟩ := hdet.keeps
    refine ⟨hdet.raised (by decide), ?_, ?_⟩
    · rw [hdet.commitPending, Dev.hdr_modHdr_same]
    · simp only [hregs, Dev.modHdr_keeps]
  case refine_4 =>
    obtain ⟨hh, -, hregs, -⟩ := s.dev.withdrawBow_keeps p
    obtain ⟨hback, htable⟩ := (s.dev.modHdr p (fun h => { h with commitPending := false })).reloadShadows_back p
    have hw : s.dev.withdrawBow p = (s.dev.modHdr p (fun h => { h with commitPending := false })).reloadShadows p := by
      rw [Dev.withdrawBow, if_pos hp]
    refine ⟨by rw [hh], hregs, fun r hr => ?_, fun k hk => ?_⟩
    · rw [hw, hback r hr]
      simp only [Dev.reg, Dev.modHdr_keeps]
    · rw [hw, htable k (by simpa only [Dev.shadowKeys, Dev.modHdr_keeps] using hk)]
      simp only [Dev.tw, Dev.modHdr_keeps]
  case refine_5 =>
    rw [Dev.bowMoment_due _ _ hp hb ht]
    exact s.dev.takeBow_plain_keeps p hk

end Sys2Proof.Machine
end

section
/-! PLLs, the PCI Express link, control cores and the temperature warning (R44, R48, R475). -/

namespace Sys2Proof.Machine

/-- A source of PH or CC that neither retires a unit nor resets its page. -/
def quietSources : List (Page × Nat) := [(Pg.ph, Evt.PH_PLL_UNLOCK), (Pg.ph, Evt.PH_AER_CORR), (Pg.ph, Evt.PH_AER_UNCORR),
  (Pg.ph, Evt.PH_LINK_DOWN), (Pg.ph, Evt.PH_LINK_UP), (Pg.cc, Evt.CC_TEMP_WARN), (dpPage 0, Evt.DP_PLL_UNLOCK),
  (dpPage 1, Evt.DP_PLL_UNLOCK), (dpPage 2, Evt.DP_PLL_UNLOCK), (dpPage 3, Evt.DP_PLL_UNLOCK)]

theorem quietSources_act : ∀ x ∈ quietSources, kindOf x.1 ≠ .dir ∧ (evDesc (kindOf x.1) x.2).act ≠ .retire ∧
    (evDesc (kindOf x.1) x.2).hang = false := by decide

theorem Dev.detect_quiet (d : Dev) (p : Page) (src : Nat) (h : (p, src) ∈ quietSources) : Detected d (d.detect p src) p src := by
  obtain ⟨hk, ha, hh⟩ := quietSources_act _ h
  exact d.detect_detected p src hk ha hh

/-! ## PLLs -/

theorem dpPage_quiet : ∀ g : Group, (dpPage g.val, Evt.DP_PLL_UNLOCK) ∈ quietSources := by decide

theorem dpPage_val (g : Group) : dpPage g.val = Pg.dp g := rfl

/-- A group without held requests is as it was, whether it serves again or not. -/
theorem Dev.serveHeld_none (d : Dev) (g : Nat) (h : (d.grp g).held = []) :
    (d.serveHeld g).pages = d.pages ∧ ((d.serveHeld g).grp g).unlocked = (d.grp g).unlocked := by
  unfold Dev.serveHeld
  split
  · exact ⟨rfl, rfl⟩
  · rw [h, List.foldl_nil, Dev.grp_modGrp_same]
    exact ⟨by simp, rfl⟩

/-- A group's PLL loses lock: what is detected, and on what state. -/
theorem Dev.dpUnlock_detected (d : Dev) (g : Group) (relocks : Bool) :
    ∃ e f, d.dpUnlock g.val relocks = (if relocks then f.serveHeld g.val else f) ∧ Detected e f (Pg.dp g) Evt.DP_PLL_UNLOCK ∧
      e.grp g.val = { d.grp g.val with unlocked := !relocks } ∧ e.ram = d.ram ∧
      (e.hdr (Pg.dp g)).pllLock = relocks ∧ (e.hdr (Pg.dp g)).unlockSeen = true := by
  refine ⟨_, _, rfl, Dev.detect_quiet _ _ _ (dpPage_quiet g), ?_, ?_, ?_⟩
  · rw [Dev.grp_modGrp_same]
    simp only [Dev.pllLost, Dev.grp, Dev.modHdr_keeps]
  · simp [Dev.pllLost]
  · rw [Dev.hdr_congr (d := d.pllLost (dpPage g.val) relocks) (by simp), dpPage_val, Dev.pllLost, Dev.hdr_modHdr_same]
    exact ⟨rfl, rfl⟩

/-! ## The link -/

theorem Hdr.settle_pll (h : Hdr) : h.settle.pllLock = h.pllLock ∧ h.settle.unlockSeen = h.unlockSeen := by
  unfold Hdr.settle
  split <;> exact ⟨rfl, rfl⟩

/-- What the link's leaving changes. -/
theorem Dev.phLeave_keeps (d : Dev) : d.phLeave.sys.l0 = false ∧ (d.phLeave.hdr Pg.ph).pllLock = (d.hdr Pg.ph).pllLock ∧
    ∀ q off hi lo i, off < 0x1000 → ¬(q = Pg.ph ∧ off = Reg.PH_LINK_STAT) → d.phLeave.rf q off hi lo i = d.rf q off hi lo i := by
  unfold Dev.phLeave
  dsimp only
  generalize word (Config.freeNat d.fresh % 64 * 2 ^ 16) = w
  refine ⟨by simp [Dev.setContinuous], ?_, fun q off hi lo i ho hne => ?_⟩
  · rw [Dev.setContinuous, Dev.hdr_modHdr_same, (Hdr.settle_pll _).1]
    rw [Dev.hdr_congr (d := d) (by simp)]
  · rw [Dev.rf_congr (d := d.drawn.setReg Pg.ph Reg.PH_LINK_STAT w) (by simp [Dev.setContinuous])]
    rw [Dev.rf, Dev.reg_setReg_other _ _ _ _ _ _ _ _ (by decide) ho (fun h => hne ⟨h.1, h.2.1⟩)]
    simp only [Dev.rf, Dev.reg, Dev.drawn_keeps]

/-- A vector that may be sent goes out with the pending ones. -/
theorem Dev.vectors_sent (v : Nat) (l : List Nat) : ∀ d : Dev, d.sendsVector v → v ∈ l ∨ Output.msix v ∈ d.out →
    Output.msix v ∈ (l.foldl (fun d w => d.vector w) d).out := by
  induction l with
  | nil => exact fun d _ h => h.resolve_left List.not_mem_nil
  | cons w l ih =>
    intro d hd h
    refine ih (d.vector w) (d.vector_sendsVector v w hd) ?_
    by_cases hw : v = w
    · right
      rw [← hw, d.vector_sent v hd]
      exact List.mem_cons_self
    · exact h.imp (fun h => (List.mem_cons.mp h).resolve_left hw) (d.vector_out w _)

theorem Dev.sendPending_keeps (d : Dev) : d.sendPending.pages = d.pages ∧ d.sendPending.sys.l0 = d.sys.l0 := by
  unfold Dev.sendPending
  refine foldl_keeps (fun x : Dev => x.pages = d.pages ∧ x.sys.l0 = d.sys.l0) _ (fun x v hx => ?_) _ _ ⟨rfl, rfl⟩
  obtain ⟨o, l, he⟩ := x.vector_cases v
  rw [he]
  exact hx

theorem plainSource_ph_linkUp : PlainSource Pg.ph Evt.PH_LINK_UP := by unfold PlainSource; decide

/-- The link reaches L0: what is detected, and on what state. -/
theorem Dev.phUp_detected (d : Dev) (speed width : Nat) :
    ∃ (e : Dev) (c : Nat), d.phUp speed width = e.detect Pg.ph Evt.PH_LINK_UP ∧ e.sys.l0 = true ∧
      e.reg Pg.ph Reg.PH_LINK_STAT = word (speed + width * 2 ^ 4 + 2 ^ 8 + c * 2 ^ 16) ∧
      ∀ v, v ∈ d.sys.pend → d.vectorMasked v = false → Output.msix v ∈ e.out := by
  unfold Dev.phUp
  dsimp only
  generalize Config.freeNat d.fresh % 64 = c
  generalize hw : word (speed + width * 2 ^ 4 + 2 ^ 8 + c * 2 ^ 16) = w
  generalize hx : d.drawn.setReg Pg.ph Reg.PH_LINK_STAT w = x
  have hsys : x.sys = d.sys := by simp [← hx]
  generalize hy : Dev.setContinuous { x with sys := { x.sys with l0 := true } } Pg.ph true = y
  have hys : y.sys = { d.sys with l0 := true } := by simp [← hy, Dev.setContinuous, hsys]
  obtain ⟨hp, hl⟩ := y.sendPending_keeps
  refine ⟨_, c, rfl, by rw [hl, hys], ?_, fun v hv hm => ?_⟩
  · have hregs : y.sendPending.pages.regs = x.pages.regs := by rw [hp, ← hy]; simp [Dev.setContinuous]
    rw [Dev.reg, hregs, ← hx, hw]
    exact Dev.reg_setReg_same _ _ _ _ _
  · refine Dev.vectors_sent v _ _ ⟨by rw [hys], ?_⟩ (Or.inl (by rw [hys]; exact hv))
    rw [Dev.vectorMasked, hys]
    exact hm

/-- The fields of PH_LINK_STAT as the link shows them. -/
theorem linkStat_fields (speed : Fin 8) (width : Fin 16) (c : Nat) :
    fld 3 0 (word (speed.val + width.val * 2 ^ 4 + 2 ^ 8 + c * 2 ^ 16)) = speed.val ∧
      fld 7 4 (word (speed.val + width.val * 2 ^ 4 + 2 ^ 8 + c * 2 ^ 16)) = width.val := by
  have hs := speed.isLt
  have hw := width.isLt
  simp only [fld, word_toNat, Nat.shiftRight_eq_div_pow]
  omega

/-! ## Cores -/

/-- A core's retirement restarts its task too. -/
theorem Dev.retireCore_tasks (d : Dev) (u : Nat) : d.sys.coreTasks ≤ (d.retireUnit Pg.cc u).1.sys.coreTasks ∧
    (d.retireUnit Pg.cc u).2 = false := by
  have hk : kindOf Pg.cc = .cc := by decide
  unfold Dev.retireUnit
  simp [hk, PageKind.retiresPage, Dev.clearCount]

theorem Dev.coreFault_act : (evDesc (kindOf Pg.cc) Evt.CC_CORE_FAULT).act = .retire ∧
    (evDesc (kindOf Pg.cc) Evt.CC_CORE_FAULT).hang = false := by decide

/-- A core's fault takes back no restart. -/
theorem Dev.coreFault_tasks (d : Dev) (u : Nat) : d.sys.coreTasks ≤ (d.detectUnit Pg.cc Evt.CC_CORE_FAULT u).sys.coreTasks := by
  obtain ⟨lo, hi, l, x, cs, eff, hx, hn⟩ := d.note_eq Pg.cc Evt.CC_CORE_FAULT u ((d.hdr Pg.cc).sev Evt.CC_CORE_FAULT)
  generalize hy : ({ d.hdr Pg.cc with raw := _, carriedLo := lo, carriedHi := hi, hist := l ++ [x], counted := cs } : Hdr) = y at hn
  obtain ⟨hact, hhang⟩ := Dev.coreFault_act
  have hk : kindOf Pg.cc ≠ .dir := by decide
  have hperm : d.sys.coreTasks ≤ ((d.setHdr Pg.cc y).permanent Pg.cc Evt.CC_CORE_FAULT (some u) false).sys.coreTasks := by
    obtain ⟨hle, hno⟩ := (d.setHdr Pg.cc y).retireCore_tasks u
    simp only [Dev.permanent, hact, hno, Bool.false_eq_true, if_false]
    exact hle
  simp only [Dev.detectUnit, Dev.detectAt, hk, Bool.false_and, Bool.false_eq_true, if_false, Option.getD_some, hn, hhang, Bool.and_false]
  generalize hz : (if eff = .permanent then (d.setHdr Pg.cc y).permanent Pg.cc Evt.CC_CORE_FAULT (some u) false else d.setHdr Pg.cc y) = z
  have hle : d.sys.coreTasks ≤ z.sys.coreTasks := by
    rw [← hz]
    split
    · exact hperm
    · exact Nat.le_refl _
  obtain ⟨o, pd, hsig⟩ := z.signal_cases Pg.cc Evt.CC_CORE_FAULT (bit Evt.CC_CORE_FAULT (d.hdr Pg.cc).raw) eff
  rw [hsig]
  exact hle

/-! ## Temperature -/

/-- An extreme that is raised or not leaves the sensors' and the threshold's register. -/
theorem Dev.setExtreme_keeps (d : Dev) (c : Prop) [Decidable c] (off v : Nat) (h : off = Reg.CC_TJ_MAX ∨ off = Reg.CC_TJ_MIN) :
    (if c then d.setRf Pg.cc off 7 0 v else d).en = d.en ∧ (if c then d.setRf Pg.cc off 7 0 v else d).pages.hdrs = d.pages.hdrs ∧
      ∀ o, o = Reg.CC_TJ_NOW ∨ o = Reg.CC_TEMP_WARN → (if c then d.setRf Pg.cc off 7 0 v else d).reg Pg.cc o = d.reg Pg.cc o := by
  split
  · refine ⟨by simp, by simp, fun o ho => ?_⟩
    have hne : o ≠ off := by
      obtain rfl | rfl := h <;> obtain rfl | rfl := ho <;> decide
    rw [Dev.setRf, Dev.reg_setReg_offset _ _ _ _ _ hne]
  · exact ⟨rfl, rfl, fun _ _ => rfl⟩

/-- The sensors as read. -/
theorem Dev.setTemps_keeps (d : Dev) (hot cold : Int) (sensor : Nat) : (d.setTemps hot cold sensor).en.hot = hot ∧
    (d.setTemps hot cold sensor).pages.hdrs = d.pages.hdrs ∧
    (d.setTemps hot cold sensor).reg Pg.cc Reg.CC_TEMP_WARN = d.reg Pg.cc Reg.CC_TEMP_WARN ∧
    (d.setTemps hot cold sensor).reg Pg.cc Reg.CC_TJ_NOW = word (unsigned 8 hot + unsigned 8 cold * 2 ^ 8 + sensor * 2 ^ 16) := by
  unfold Dev.setTemps
  dsimp only
  generalize word (unsigned 8 hot + unsigned 8 cold * 2 ^ 8 + sensor * 2 ^ 16) = w
  generalize hx : Dev.setReg { d with en := { d.en with hot := hot, cold := cold } } Pg.cc Reg.CC_TJ_NOW w = x
  obtain ⟨hye, hyh, hyr⟩ := x.setExtreme_keeps (signed 8 (x.rf Pg.cc Reg.CC_TJ_MAX 7 0) < hot) Reg.CC_TJ_MAX (unsigned 8 hot) (Or.inl rfl)
  generalize (if signed 8 (x.rf Pg.cc Reg.CC_TJ_MAX 7 0) < hot then x.setRf Pg.cc Reg.CC_TJ_MAX 7 0 (unsigned 8 hot) else x) = y
    at hye hyh hyr ⊢
  obtain ⟨hze, hzh, hzr⟩ := y.setExtreme_keeps (cold < signed 8 (y.rf Pg.cc Reg.CC_TJ_MIN 7 0)) Reg.CC_TJ_MIN (unsigned 8 cold) (Or.inr rfl)
  rw [hze, hye, hzh, hyh, hzr _ (Or.inr rfl), hyr _ (Or.inr rfl), hzr _ (Or.inl rfl), hyr _ (Or.inl rfl), ← hx]
  refine ⟨by simp, by simp, ?_, Dev.reg_setReg_same _ _ _ _ _⟩
  rw [Dev.reg_setReg_offset _ _ _ _ _ (by decide)]
  rfl

/-- The sensor's field of CC_TJ_NOW. -/
theorem tjNow_hot (hot cold : Int) (sensor : Nat) :
    fld 7 0 (word (unsigned 8 hot + unsigned 8 cold * 2 ^ 8 + sensor * 2 ^ 16)) = unsigned 8 hot := by
  have hlt : unsigned 8 hot < 256 := by
    unfold unsigned
    omega
  rw [fld_word]
  omega

/-- A counter that saturates counts by one up to its end. -/
theorem Dev.rf_bumpSat_same (d : Dev) (p : Page) (off hi lo : Nat) (h : lo ≤ hi) (h32 : hi < 32) :
    (d.bumpSat p off hi lo).rf p off hi lo = min (d.rf p off hi lo + 1) (2 ^ (hi - lo + 1) - 1) := by
  rw [Dev.bumpSat, Dev.rf_setRf_same _ _ _ _ _ _ _ h h32]
  refine Nat.mod_eq_of_lt (Nat.lt_of_le_of_lt (Nat.min_le_right _ _) ?_)
  exact Nat.sub_lt (Nat.two_pow_pos _) Nat.one_pos

/-! ## The obligation -/

/-- Settles O18, one detection after the other: what it is raised on, and what a detection leaves. -/
theorem linkCoreAndHeatDetections : Obligations.LinkCoreAndHeatDetections := by
  refine ⟨fun s g => ⟨_, rfl, ?_⟩, fun s g hg => ⟨_, rfl, ?_⟩, fun s relocks => ⟨_, rfl, ?_⟩, fun s => ⟨_, rfl, ?_⟩, fun s => ⟨_, rfl, ?_⟩,
    fun s hl => ⟨_, rfl, ?_⟩, fun s speed width => ⟨_, rfl, ?_⟩, fun s core hu => ⟨_, rfl, ?_⟩, fun s hot sensor hw => ⟨_, rfl, ?_⟩⟩ <;>
    dsimp only
  case refine_1 =>
    obtain ⟨e, f, hd, hdet, hgrp, hram, hlock, hseen⟩ := s.dev.dpUnlock_detected g false
    obtain ⟨-, -, -, -, -, hfram, hgrps, -⟩ := hdet.keeps
    rw [hd, if_neg Bool.false_ne_true, hdet.pll.1, hdet.pll.2, hlock, hseen, hfram, hram, Dev.grp, hgrps, ← Dev.grp, hgrp]
    exact ⟨rfl, rfl, rfl, hdet.raised (by decide), rfl⟩
  case refine_2 =>
    obtain ⟨e, f, hd, hdet, hgrp, -, hlock, hseen⟩ := s.dev.dpUnlock_detected g true
    obtain ⟨-, -, -, -, -, -, hgrps, -⟩ := hdet.keeps
    have hf : f.grp g.val = { s.dev.grp g.val with unlocked := false } := by
      rw [Dev.grp, hgrps, ← Dev.grp, hgrp]
      rfl
    obtain ⟨hpages, hunl⟩ := f.serveHeld_none g.val (by rw [hf]; exact hg)
    have hhdr : (f.serveHeld g.val).hdr (Pg.dp g) = f.hdr (Pg.dp g) := Dev.hdr_congr (by rw [hpages]) _
    rw [hd, if_pos rfl, hunl, hf, hhdr, hdet.pll.1, hdet.pll.2, raised, hhdr]
    exact ⟨rfl, hlock, hseen, hdet.raised (by decide)⟩
  case refine_3 =>
    generalize hx : (s.dev.pllLost Pg.ph relocks).bump Pg.ph Reg.PH_RECOVERY_CNT 15 0 = x
    have hcnt : x.rf Pg.ph Reg.PH_RECOVERY_CNT 15 0 = (s.dev.rf Pg.ph Reg.PH_RECOVERY_CNT 15 0 + 1) % 65536 := by
      rw [← hx, Dev.rf_bump_same _ _ _ _ _ _ (by decide), Dev.rf_congr (d := s.dev) (by simp [Dev.pllLost])]
      rfl
    have hlock : (x.hdr Pg.ph).pllLock = relocks := by
      rw [← hx, Dev.hdr_congr (d := s.dev.pllLost Pg.ph relocks) (by simp), Dev.pllLost, Dev.hdr_modHdr_same]
    have hl0 : x.sys.l0 = s.dev.sys.l0 := by simp [← hx, Dev.pllLost]
    have hd : s.dev.phUnlock relocks = (if relocks then x else x.phLeave).detect Pg.ph Evt.PH_PLL_UNLOCK := by rw [← hx]; rfl
    have hdet := (if relocks then x else x.phLeave).detect_quiet Pg.ph Evt.PH_PLL_UNLOCK (by decide)
    obtain ⟨-, -, -, -, -, -, -, -, hl⟩ := hdet.keeps
    obtain ⟨hleft, hsame, hrf⟩ := x.phLeave_keeps
    rw [hd, hdet.pll.1, hl, hdet.rf]
    cases relocks with
    | true => exact ⟨hlock, hdet.raised (by decide), hl0, hcnt⟩
    | false => exact ⟨hsame.trans hlock, hdet.raised (by decide), hleft, (hrf _ _ _ _ _ (by decide) (by decide)).trans hcnt⟩
  case refine_4 =>
    have hdet := (s.dev.bumpSat Pg.ph Reg.PH_ERR_CNT 15 0).detect_quiet Pg.ph Evt.PH_AER_CORR (by decide)
    refine ⟨hdet.raised (by decide), (hdet.rf _ _ _ _ _).trans ?_, (hdet.rf _ _ _ _ _).trans ?_⟩
    · exact Dev.rf_bumpSat_same _ _ _ _ _ (by decide) (by decide)
    · exact Dev.rf_setRf_field _ _ _ _ _ _ _ _ _ (by decide) (by decide) (by decide)
  case refine_5 =>
    have hdet := (s.dev.bumpSat Pg.ph Reg.PH_ERR_CNT 31 16).detect_quiet Pg.ph Evt.PH_AER_UNCORR (by decide)
    refine ⟨hdet.raised (by decide), (hdet.rf _ _ _ _ _).trans ?_, (hdet.rf _ _ _ _ _).trans ?_⟩
    · exact Dev.rf_bumpSat_same _ _ _ _ _ (by decide) (by decide)
    · exact Dev.rf_setRf_field _ _ _ _ _ _ _ _ _ (by decide) (by decide) (by decide)
  case refine_6 =>
    obtain ⟨hleft, -, hrf⟩ := s.dev.phLeave_keeps
    have hd : s.dev.phDown = (s.dev.phLeave.bumpSat Pg.hb Reg.HB_LINK_DOWN_COUNT 15 0).detect Pg.ph Evt.PH_LINK_DOWN := by
      rw [Dev.phDown, hl]
      rfl
    have hdet := (s.dev.phLeave.bumpSat Pg.hb Reg.HB_LINK_DOWN_COUNT 15 0).detect_quiet Pg.ph Evt.PH_LINK_DOWN (by decide)
    obtain ⟨-, -, -, -, -, -, -, -, hl0⟩ := hdet.keeps
    rw [hd, hl0, hdet.rf, Dev.rf_bumpSat_same _ _ _ _ _ (by decide) (by decide), hrf _ _ _ _ _ (by decide) (by decide)]
    exact ⟨by simp [hleft], hdet.raised (by decide), rfl⟩
  case refine_7 =>
    obtain ⟨e, c, hd, hl0, hstat, hsent⟩ := s.dev.phUp_detected speed.val width.val
    have hdet := e.detect_quiet Pg.ph Evt.PH_LINK_UP (by decide)
    obtain ⟨-, -, -, -, -, -, -, -, hl⟩ := hdet.keeps
    obtain ⟨hsp, hwd⟩ := linkStat_fields speed width c
    rw [hd, hl, hdet.rf, hdet.rf, Dev.rf, Dev.rf, hstat]
    exact ⟨hl0, hdet.raised (by decide), hsp, hwd, fun v hv hm => e.detect_out _ _ plainSource_ph_linkUp _ (hsent v hv hm)⟩
  case refine_8 =>
    generalize hx : ({ s.dev with sys := { s.dev.sys with coreTasks := s.dev.sys.coreTasks + 1 } } : Dev) = x
    have hd : s.dev.coreBad core.val = x.detectUnit Pg.cc Evt.CC_CORE_FAULT core.val := by rw [Dev.coreBad, hu, ← hx]; rfl
    have hle := x.coreFault_tasks core.val
    rw [hd]
    refine ⟨(x.detectAt_noted Pg.cc Evt.CC_CORE_FAULT (some core.val) false _ (by decide) (by decide) (Or.inl rfl)).1, ?_⟩
    rw [← hx] at hle ⊢
    exact hle
  case refine_9 =>
    generalize hx : s.dev.setTemps hot (min s.dev.en.cold hot) sensor.val = x
    obtain ⟨hhot, hhdrs, hthr, hnow⟩ := s.dev.setTemps_keeps hot (min s.dev.en.cold hot) sensor.val
    rw [hx] at hhot hhdrs hthr hnow
    have hd : s.dev.tempWarning hot sensor.val = x.detect Pg.cc Evt.CC_TEMP_WARN := by
      rw [Dev.tempWarning, hx, if_pos]
      rwa [Dev.rf, hthr, ← Dev.rf]
    have hdet := x.detect_quiet Pg.cc Evt.CC_TEMP_WARN (by decide)
    obtain ⟨-, -, -, -, -, -, -, hen, -⟩ := hdet.keeps
    rw [hd, hen, hdet.rf, Dev.rf, hnow]
    exact ⟨hdet.raised (by decide), hhot, tjNow_hot _ _ _, fun q hq => (hdet.others q hq).trans (Dev.hdr_congr hhdrs q)⟩

end Sys2Proof.Machine
end

section
/-! The persistent store: a write that ends, and the timed commit of counters (R40, R42, R44). -/

namespace Sys2Proof.Machine

/-- A command that asks for nothing beyond the device changes the device alone. -/
theorem State.onBus_quiet (s : State) (f : Dev → Dev) (h : (f s.dev).asks = []) : s.onBus f = .next { s with dev := f s.dev } := by
  have hdrain : ∀ x : State, x.dev.asks = [] → x.drain = x := by
    intro x hx
    rw [State.drain, hx, List.foldl_nil, ← hx]
  rw [State.onBus, State.settle, hdrain { s with dev := f s.dev } h, hdrain { s with dev := f s.dev } h]

/-- Without accesses that wait there is nothing to try again. -/
theorem Dev.replay_none (d : Dev) (h : d.pages.waiting = []) : d.replay = d := by
  rw [Dev.replay, h, List.foldl_nil, ← h]

/-! ## Programming a word -/

theorem Dev.programVerified_equal (d : Dev) (i : Nat) (h : d.wear (d.psWord i).slot < endurance) :
    d.programVerified i .equal = (d.program i, true) := by
  unfold Dev.programVerified
  rw [if_pos h]
  rfl

theorem Dev.program_wear (d : Dev) (i : Nat) :
    (d.program i).ps.wear = SMap.set (fun _ => 0) d.ps.wear (d.psWord i).slot (d.wear (d.psWord i).slot + 1) := rfl

theorem Dev.wear_program_same (d : Dev) (i : Nat) : (d.program i).wear (d.psWord i).slot = d.wear (d.psWord i).slot + 1 := by
  rw [Dev.wear, Dev.program_wear, SMap.get_set_same]

theorem Dev.wear_setNv (d : Dev) (off j : Nat) (v : Word) : (d.setNv off v).wear j = d.wear j := rfl

theorem Dev.wear_program_other (d : Dev) (i j : Nat) (h : j ≠ (d.psWord i).slot) : (d.program i).wear j = d.wear j := by
  rw [Dev.wear, Dev.program_wear, SMap.get_set_other _ _ _ _ _ h, Dev.wear]

/-- A programmed word keeps its cell and stays writable. -/
theorem Dev.psWord_program (d : Dev) (i j : Nat) :
    ((d.program i).psWord j).worn = (d.psWord j).worn ∧ ((d.program i).psWord j).slot = (d.psWord j).slot := by
  by_cases h : j = i
  · have hw : (d.program i).psWord i = { d.psWord i with total := min ((d.psWord i).total + 1) (2 ^ 32 - 1) } := SMap.get_set_same _ _ _ _
    rw [h, hw]
    exact ⟨rfl, rfl⟩
  · have hw : (d.program i).psWord j = d.psWord j := SMap.get_set_other _ _ _ _ _ h
    rw [hw]
    exact ⟨rfl, rfl⟩

theorem Dev.nv_setNv_other (d : Dev) (off o : Nat) (w : Word) (h : o ≠ off) : (d.setNv off w).nv o = d.nv o :=
  SMap.get_set_other _ _ _ _ _ h

/-! ## A write that ends -/

/-- A word that may be written and takes a new value. -/
theorem Dev.commitWord_stores (d : Dev) (off : Nat) (v : Word) (p : Page) (i : Nat) (hp : pageOf off = some p) (hi : wordIndex off = some i)
    (hw : (d.psWord i).worn = false) (he : d.wear (d.psWord i).slot < endurance) (hv : d.nv off ≠ v) :
    d.commitWord off v .equal = (((d.program i).setNv off v).setReg p (off % 0x1000) v, true) := by
  simp only [Dev.commitWord, hi, hp, hw, Bool.false_eq_true, if_false, hv, d.programVerified_equal i he, if_true]

/-- An equal value is skipped and counted. -/
theorem Dev.commitWord_skips (d : Dev) (off : Nat) (v : Word) (rb : ReadBack) (p : Page) (i : Nat) (hp : pageOf off = some p)
    (hi : wordIndex off = some i) (hw : (d.psWord i).worn = false) (hv : d.nv off = v) :
    d.commitWord off v rb = (d.bump Pg.ps Reg.PS_SKIP_COUNT 31 0, false) := by
  simp only [Dev.commitWord, hi, hp, hw, Bool.false_eq_true, if_false, hv, if_true]

theorem Dev.takesUp_plain (d old : Dev) (p : Page) (off : Nat) (hc : kindOf p ≠ .cc) (ht : kindOf p ≠ .tu) (he : kindOf p ≠ .ep) :
    d.takesUp old p off = d := by
  unfold Dev.takesUp
  split
  · exact absurd ‹_› hc
  · exact absurd ‹_› ht
  · exact absurd ‹_› he
  · rfl

/-- The write in progress ends: what PS leaves before the waiting accesses go on. -/
theorem Dev.persistDone_one (d : Dev) (w : PsWrite) (rb : ReadBack) (h : d.ps.queue = [w]) :
    d.persistDone rb = ({ d with ps := { d.ps with queue := [] } }.finishPs w rb).replay := by
  unfold Dev.persistDone
  rw [h]

/-! ## The timed commit of counters (R44) -/

/-- The word at an index of the persistent words. -/
theorem wordIndex_some {o i : Nat} (h : wordIndex o = some i) : i < 160 ∧ persistWords[i]? = some o := by
  obtain ⟨hi, ho, -⟩ := List.findIdx?_eq_some_iff_getElem.mp h
  have hlen : persistWords.length = 160 := by decide +kernel
  exact ⟨hlen ▸ hi, by rw [List.getElem?_eq_getElem hi, beq_iff_eq.mp ho]⟩

theorem wordIndex_inj {o o' i : Nat} (h : wordIndex o = some i) (h' : wordIndex o' = some i) : o = o' :=
  Option.some.inj ((wordIndex_some h).2.symm.trans (wordIndex_some h').2)

theorem wordIndex_ropWords : ∀ o ∈ ropWords, (wordIndex o).isSome = true := by
  have h : ∀ o ∈ persistWords, (wordIndex o).isSome = true := by decide +kernel
  exact fun o ho => h o (List.mem_filter.mp ho).1

theorem pageOf_offset {o : Nat} {p : Page} (h : pageOf o = some p) : p.val * 0x1000 + o % 0x1000 = o := by
  unfold pageOf at h
  split at h
  · cases h
    exact Nat.div_add_mod' o 0x1000
  · cases h

/-- What a persistent word counts to. -/
def Dev.countsTo (d : Dev) (o : Nat) : Word :=
  match pageOf o with
  | some p => d.ropNow p (o % 0x1000)
  | none => 0

/-- The timed commit on its way from `d` to `x`: only the store changes; every word may still be written, and what has worn holds its
count. -/
structure Committing (d x : Dev) : Prop where
  rest : ∃ ps, x = { d with ps := ps }
  cell : ∀ i, i < 160 → (x.psWord i).worn = false ∧ (x.psWord i).slot = i
  wear : ∀ o i, wordIndex o = some i → x.wear i + 1 < endurance ∨ x.nv o = d.countsTo o

/-- A counter that has not changed is not committed. -/
theorem Dev.commitNow_skips (d : Dev) (p : Page) (o i : Nat) (hp : pageOf o = some p) (hi : wordIndex o = some i)
    (h : d.ropNow p (o % 0x1000) = d.nv o) : d.commitNow p (o % 0x1000) = d := by
  unfold Dev.commitNow
  rw [pageOf_offset hp]
  simp only [hi, h, decide_true, Bool.true_or, if_true]

/-- A counter that has changed is committed. -/
theorem Dev.commitNow_stores (d : Dev) (p : Page) (o i : Nat) (hp : pageOf o = some p) (hi : wordIndex o = some i)
    (h : d.ropNow p (o % 0x1000) ≠ d.nv o) (hw : (d.psWord i).worn = false) (he : d.wear (d.psWord i).slot < endurance) :
    d.commitNow p (o % 0x1000) = (d.program i).setNv o (d.ropNow p (o % 0x1000)) := by
  unfold Dev.commitNow
  rw [pageOf_offset hp]
  simp only [hi, h, hw, decide_false, Bool.or_self, Bool.false_eq_true, if_false, d.programVerified_equal i he, if_true]
  rfl

/-- The store alone does not change what a word counts to. -/
theorem Committing.counts {d x : Dev} (h : Committing d x) (p : Page) (o : Nat) (hp : pageOf o = some p) :
    x.ropNow p (o % 0x1000) = d.countsTo o := by
  obtain ⟨ps, rfl⟩ := h.rest
  unfold Dev.countsTo
  rw [hp]
  rfl

/-- One word of the timed commit. -/
theorem Committing.step {d x : Dev} (h : Committing d x) (p : Page) (o i : Nat) (hp : pageOf o = some p) (hi : wordIndex o = some i) :
    Committing d (x.commitNow p (o % 0x1000)) ∧ (x.commitNow p (o % 0x1000)).nv o = d.countsTo o ∧
      ∀ o', o' ≠ o → (x.commitNow p (o % 0x1000)).nv o' = x.nv o' := by
  have hc := h.counts p o hp
  by_cases hv : x.ropNow p (o % 0x1000) = x.nv o
  · rw [x.commitNow_skips p o i hp hi hv]
    exact ⟨h, hv.symm.trans hc, fun _ _ => rfl⟩
  · obtain ⟨hworn, hslot⟩ := h.cell i (wordIndex_some hi).1
    have hwear : x.wear i + 1 < endurance := (h.wear o i hi).resolve_right (fun e => hv (hc.trans e.symm))
    rw [x.commitNow_stores p o i hp hi hv hworn (by rw [hslot]; exact Nat.lt_of_succ_lt hwear), hc]
    have hnv : ∀ o', o' ≠ o → ((x.program i).setNv o (d.countsTo o)).nv o' = x.nv o' := fun o' ho => Dev.nv_setNv_other _ _ _ _ ho
    refine ⟨⟨?_, fun j hj => ?_, fun o' j hj => ?_⟩, Dev.nv_setNv_same _ _ _, hnv⟩
    · obtain ⟨ps, rfl⟩ := h.rest
      exact ⟨_, rfl⟩
    · obtain ⟨hw, hs⟩ := x.psWord_program i j
      exact ⟨hw.trans (h.cell j hj).1, hs.trans (h.cell j hj).2⟩
    · by_cases ho : o' = o
      · exact Or.inr (by rw [ho, Dev.nv_setNv_same])
      · have hne : j ≠ (x.psWord i).slot := by
          rw [hslot]
          exact fun e => ho (wordIndex_inj hj (e ▸ hi))
        rw [hnv o' ho]
        exact (h.wear o' j hj).imp_left (fun hl => by rwa [Dev.wear_setNv, x.wear_program_other i j hne])

/-- One address of the commit's list. -/
def Dev.commitAt (d : Dev) (o : Nat) : Dev :=
  match pageOf o with
  | some p => d.commitNow p (o % 0x1000)
  | none => d

theorem Dev.commitRop_eq (d : Dev) : d.commitRop = ropWords.foldl Dev.commitAt d := rfl

/-- After the words of a list, each of them that is of a page holds what it counts to. -/
theorem Committing.all (d : Dev) (o : Nat) (p : Page) (hp : pageOf o = some p) (l : List Nat) (hl : ∀ o ∈ l, (wordIndex o).isSome = true) :
    ∀ x, Committing d x → o ∈ l ∨ x.nv o = d.countsTo o →
      Committing d (l.foldl Dev.commitAt x) ∧ (l.foldl Dev.commitAt x).nv o = d.countsTo o := by
  induction l with
  | nil => exact fun x hx h => ⟨hx, h.resolve_left List.not_mem_nil⟩
  | cons a l ih =>
    intro x hx h
    obtain ⟨i, hi⟩ := Option.isSome_iff_exists.mp (hl a List.mem_cons_self)
    have ih' := ih (fun o ho => hl o (List.mem_cons_of_mem a ho)) (x.commitAt a)
    rw [List.foldl_cons]
    unfold Dev.commitAt at ih' ⊢
    cases hq : pageOf a with
    | none =>
      simp only [hq] at ih'
      refine ih' hx (h.imp_left (fun h => (List.mem_cons.mp h).resolve_left (fun e => ?_)))
      rw [← e, hp] at hq
      cases hq
    | some q =>
      obtain ⟨hstep, hnv, hother⟩ := hx.step q a i hq hi
      simp only [hq] at ih'
      refine ih' hstep ?_
      by_cases ho : o = a
      · exact Or.inr (by rw [ho, hnv])
      · exact h.imp (fun h => (List.mem_cons.mp h).resolve_left ho) (fun h => (hother o ho).trans h)

/-! ## The obligation -/

/-- Settles O14: a write that stores, one that is skipped, and the timed commit by its invariant `Committing`. -/
theorem persistentStore : Obligations.PersistentStore := by
  refine ⟨fun s w p i hq hr hwait hasks hp hc ht he hi hworn hwear hv => ?_, fun s w p i hq hr hwait hasks hp hi hworn hv => ?_,
    fun s o p hms hcell ho hp => ⟨_, rfl, ?_⟩, fun s hms => ?_⟩
  case refine_1 =>
    generalize hd : ({ s.dev with ps := { s.dev.ps with queue := [] } } : Dev) = d
    have hcommit : d.commitWord w.off w.v .equal = (((d.program i).setNv w.off w.v).setReg p (w.off % 0x1000) w.v, true) := by
      rw [← hd]
      exact Dev.commitWord_stores _ _ _ _ _ hp hi hworn hwear hv
    generalize hx : ((d.program i).setNv w.off w.v).setReg p (w.off % 0x1000) w.v = x at hcommit
    have hdone : s.dev.persistDone .equal = x := by
      have hwx : x.pages.waiting = [] := by rw [← hx, ← hd]; exact hwait
      rw [s.dev.persistDone_one w _ hq, hd]
      unfold Dev.finishPs
      simp only [hp, hcommit, hr, Bool.false_eq_true, if_false, if_true]
      rw [Dev.takesUp_plain _ _ _ _ hc ht he, x.replay_none hwx]
    refine ⟨_, s.onBus_quiet (·.persistDone .equal) ?_, ?_⟩
    · rw [hdone, ← hx, ← hd]
      exact hasks
    · dsimp only
      rw [hdone, ← hx]
      refine ⟨Dev.nv_setNv_same _ _ _, Dev.reg_setReg_same _ _ _ _ _, ?_, ?_, ?_⟩
      · rw [← hd]
        exact Dev.wear_program_same _ i
      · rw [← hd]
        rfl
      · rw [← hd]
        rfl
  case refine_2 =>
    generalize hd : ({ s.dev with ps := { s.dev.ps with queue := [] } } : Dev) = d
    have hcommit : d.commitWord w.off w.v .equal = (d.bump Pg.ps Reg.PS_SKIP_COUNT 31 0, false) := by
      rw [← hd]
      exact Dev.commitWord_skips _ _ _ _ _ _ hp hi hworn hv
    have hdone : s.dev.persistDone .equal = d.bump Pg.ps Reg.PS_SKIP_COUNT 31 0 := by
      rw [s.dev.persistDone_one w _ hq, hd]
      unfold Dev.finishPs
      simp only [hp, hcommit, hr, Bool.false_eq_true, if_false]
      refine Dev.replay_none _ ?_
      rw [← hd]
      exact hwait
    refine ⟨_, s.onBus_quiet (·.persistDone .equal) ?_, ?_⟩
    · rw [hdone, ← hd]
      exact hasks
    · dsimp only
      rw [hdone, Dev.rf_bump_same _ _ _ _ _ _ (by decide), Dev.rf_congr (d := s.dev) (by rw [← hd]), ← hd]
      exact ⟨rfl, rfl, rfl⟩
  case refine_3 =>
    dsimp only
    generalize hd : ({ s.dev with ps := { s.dev.ps with lastCommitMs := s.dev.nowNs / 1000000 } } : Dev) = d
    have hdone : s.dev.timedCommit = ropWords.foldl Dev.commitAt d := by
      rw [Dev.timedCommit, if_neg (Nat.not_lt.mpr hms), hd]
      rfl
    have hinit : Committing s.dev d := by
      rw [← hd]
      refine ⟨⟨_, rfl⟩, fun i hi => (hcell i hi).2, fun o i hi => ?_⟩
      obtain ⟨hw, -, hs⟩ := hcell i (wordIndex_some hi).1
      rw [hs] at hw
      exact Or.inl hw
    obtain ⟨⟨⟨ps, hrest⟩, -, -⟩, hnv⟩ := Committing.all s.dev o p hp ropWords wordIndex_ropWords d hinit (Or.inl ho)
    rw [hdone]
    refine ⟨?_, by rw [hrest]⟩
    rw [hnv, Dev.countsTo, hp]
  case refine_4 =>
    have h : s.dev.timedCommit = s.dev := by rw [Dev.timedCommit, if_pos hms]
    show Host.Outcome.next { s with dev := s.dev.timedCommit } = _
    rw [h]

end Sys2Proof.Machine
end

section
/-! The life of a page: ENABLE, draining, initialisation and island resets (R31, R493, R496). -/

namespace Sys2Proof.Machine

/-! ## The boot that goes on -/

/-- Without a further stage to enter the boot stays where it is. -/
theorem Dev.advance_last (n : Nat) (d : Dev) (h : d.sys.stage = 6) : Dev.advance n d = d := by
  have hm : d.mayAdvance = false := by simp [Dev.mayAdvance, h]
  cases n with
  | zero => rfl
  | succ n => rw [Dev.advance, hm, if_neg Bool.false_ne_true]

/-- CC_BOOT_STAT follows the phase; no page's header does. -/
theorem Dev.notePhase_hdrs (d : Dev) : d.notePhase.pages.hdrs = d.pages.hdrs := by
  have hpeak : (d.peak Pg.cc Reg.CC_BOOT_STAT 2 0 d.phaseNow).pages.hdrs = d.pages.hdrs := by
    unfold Dev.peak
    split <;> simp
  unfold Dev.notePhase
  dsimp only
  split
  · simp [hpeak]
  · exact hpeak

/-- A page's header after the boot has gone on in its last stage. -/
theorem Dev.boot_hdr (d : Dev) (h : d.sys.stage = 6) (q : Page) : (Dev.advance 6 d).notePhase.hdr q = d.hdr q := by
  rw [Dev.advance_last 6 d h]
  exact Dev.hdr_congr d.notePhase_hdrs q

/-- The units whose initialisation is no more than their state. -/
theorem Dev.unitStart_plain (d : Dev) (p : Page) (hsk : kindOf p ≠ .sk) (hdp : kindOf p ≠ .dp) (hmc : kindOf p ≠ .mc) (hds : kindOf p ≠ .ds)
    (hac : kindOf p ≠ .ac) (hcv : kindOf p ≠ .cv) : d.unitStart p = d := by
  unfold Dev.unitStart
  split
  · exact absurd ‹_› hsk
  · exact absurd ‹_› hdp
  · exact absurd ‹_› hmc
  · exact absurd ‹_› hds
  · exact absurd ‹_› hac
  · exact absurd ‹_› hcv
  · rfl

theorem Hdr.settle_ready (h : Hdr) (hr : h.state = .ready) :
    h.settle.state = if 0 < h.inflight ∨ h.continuous = true then .running else .ready := by
  unfold Hdr.settle
  simp [hr, PState.serves]

/-- The state that a unit takes when it is ready. -/
theorem Dev.nowReady_state (d : Dev) (p : Page) : ((d.nowReady p).hdr p).state =
    if 0 < (d.hdr p).inflight ∨ (d.hdr p).continuous = true ∨ kindOf p = .tu then .running else .ready := by
  have hdr : (if (kindOf p).clocked then d.drawn else d).hdr p = d.hdr p := by split <;> rfl
  unfold Dev.nowReady
  dsimp only
  rw [Dev.hdr_modHdr_same, hdr, Hdr.settle_ready _ rfl]
  simp

theorem Dev.nowReady_others (d : Dev) (p : Page) : sameHdrsBut d (d.nowReady p) p := by
  intro q hq
  unfold Dev.nowReady
  dsimp only
  rw [Dev.hdr_modHdr_other _ _ _ _ hq]
  split <;> rfl

/-- A unit that initialises with its reference there. -/
theorem Dev.unitReady_plain (d : Dev) (p : Page) (hu : d.unitStart p = d) (hmc : kindOf p ≠ .mc) (hs : (d.hdr p).state = .starting)
    (hr : (d.hdr p).rst = false) (href : d.tu.refPresent = true) : d.unitReady p = (Dev.advance 6 (d.nowReady p)).notePhase := by
  unfold Dev.unitReady
  simp only [hs, hr, href, hu, hmc, ne_eq, not_true_eq_false, decide_false, Bool.not_true, Bool.and_false, Bool.or_self,
    Bool.false_eq_true, if_false]

/-! ## ENABLE -/

/-- A unit that may leave OFF starts. -/
theorem Dev.enablePage_starts (d : Dev) (p : Page) (hk : kindOf p ≠ .dir) (hs : (d.hdr p).state = .off) (hr : (d.hdr p).rst = false)
    (hm : d.mayLeaveOff p = true) : d.enablePage p = d.modHdr p (fun h => { h with enable := true, state := .starting }) := by
  have ht : (d.en.tripped && (kindOf p).selfTimed) = false := by
    rw [Dev.mayLeaveOff, Bool.and_eq_true, Bool.not_eq_true'] at hm
    exact hm.2
  have hi : d.enableIgnored p = false := by simp [Dev.enableIgnored, hk, hs, ht]
  unfold Dev.enablePage
  simp [hi, hs, hr, hm]

/-- The header that a write of ENABLE = 0 leaves; items that were accepted return with DRAIN_MODE 1. -/
def Hdr.disabled (h : Hdr) (mode : Nat) : Hdr := { h with
  enable := false, drainReturn := if mode ≤ 1 then mode == 1 else h.drainReturn,
  state := if h.state == .starting || h.state.serves then .draining else h.state }

theorem Dev.disablePage_keepsItems (d : Dev) (p : Page) (mode : Nat) (hi : d.enableIgnored p = false)
    (hr : ((d.hdr p).disabled mode).drainReturn = false) : d.disablePage p mode = d.modHdr p (fun _ => (d.hdr p).disabled mode) := by
  unfold Dev.disablePage
  rw [hi, if_neg Bool.false_ne_true]
  dsimp only
  rw [Dev.hdr_modHdr_same, if_neg]
  · rfl
  · intro h
    rw [Bool.and_eq_true] at h
    exact absurd (h.1.symm.trans hr) (by decide)

/-! ## Draining -/

/-- A queue's head packets that are dropped touch no port's register. -/
theorem Dev.dropHeads_reg (p : Page) (o : Nat) (hp : p ≠ Pg.tm) (ho : o < 0x1000) (q n : Nat) :
    ∀ d : Dev, (d.dropHeads q n).reg p o = d.reg p o := by
  induction n with
  | zero => exact fun d => rfl
  | succ n ih =>
    intro d
    unfold Dev.dropHeads
    split
    · rfl
    · split
      · rfl
      · rw [ih, Dev.bump, Dev.reg_setRf_other _ _ _ _ _ _ _ _ _ _ (by decide) ho (fun h => hp h.1), Dev.reg,
          (Dev.freePkt_sameQueues _ _).regs]
        rfl

theorem Dev.dropDown_reg (p : Page) (o : Nat) (hp : p ≠ Pg.tm) (ho : o < 0x1000) (d : Dev) (port link : Nat) :
    (d.dropDown port link).reg p o = d.reg p o := by
  unfold Dev.dropDown
  split
  · rfl
  · exact foldl_keeps (fun x : Dev => x.reg p o = d.reg p o) _ (fun x q h => (Dev.dropHeads_reg p o hp ho q _ x).trans h) _ d rfl

/-- A field cleared in a register clears its bits and sets none. -/
theorem Dev.setRf_zero_bit (d : Dev) (p : Page) (off hi lo n : Nat) (hle : lo ≤ hi) (h : bit n ((d.setRf p off hi lo 0).reg p off) = true) :
    bit n (d.reg p off) = true ∧ ¬(lo ≤ n ∧ n ≤ hi) := by
  unfold bit at *
  rw [Dev.setRf, Dev.reg_setReg_same, putFld_getLsbD _ _ _ _ _ hle] at h
  split at h
  · rw [Nat.zero_testBit, Bool.and_false] at h
    cases h
  · exact ⟨h, ‹_›⟩

/-- A cleared flag likewise. -/
theorem Dev.setRb_false_bit (d : Dev) (p : Page) (off m n : Nat) (h : bit n ((d.setRb p off m false).reg p off) = true) :
    bit n (d.reg p off) = true ∧ n ≠ m := by
  obtain ⟨hb, hne⟩ := d.setRf_zero_bit p off m m n (Nat.le_refl m) h
  exact ⟨hb, fun e => hne ⟨Nat.le_of_eq e.symm, Nat.le_of_eq e⟩⟩

theorem linkDown_act : (evDesc .ep Evt.EP_LINK_DOWN).act ≠ .retire ∧ (evDesc .ep Evt.EP_LINK_DOWN).hang = false ∧
    (evDesc .mg Evt.EP_LINK_DOWN).act ≠ .retire ∧ (evDesc .mg Evt.EP_LINK_DOWN).hang = false := by decide

/-- What follows the cleared flags of a port leaves its registers. -/
theorem Dev.linkLost_reg (d : Dev) (p : Page) (o port : Nat) (hk : kindOf p = .ep ∨ kindOf p = .mg) (ho : o < 0x1000) (b : Bool) :
    (((d.setContinuous p b).detect p Evt.EP_LINK_DOWN).dropDown port 0).reg p o = d.reg p o := by
  obtain ⟨haep, hhep, hamg, hhmg⟩ := linkDown_act
  have hdet : Detected (d.setContinuous p b) ((d.setContinuous p b).detect p Evt.EP_LINK_DOWN) p Evt.EP_LINK_DOWN := by
    obtain hk | hk := hk
    · exact Dev.detect_detected _ _ _ (by rw [hk]; decide) (by rw [hk]; exact haep) (by rw [hk]; exact hhep)
    · exact Dev.detect_detected _ _ _ (by rw [hk]; decide) (by rw [hk]; exact hamg) (by rw [hk]; exact hhmg)
  have hp : p ≠ Pg.tm := by
    rintro rfl
    exact absurd hk (by decide)
  have hregs : (d.setContinuous p b).pages.regs = d.pages.regs := by simp only [Dev.setContinuous, Dev.modHdr_keeps]
  rw [Dev.dropDown_reg p o hp ho, Dev.reg, hdet.keeps.1, hregs, Dev.reg]

/-- A port's link lost: its LINK flag is clear, and no other port's has been set. -/
theorem Dev.linkDown_ep (d : Dev) (n j : Nat) (hn : n < 16)
    (h : bit j ((d.linkDown n).reg (epPage n) Reg.EP_LINK_STAT) = true) :
    bit j (d.reg (epPage n) Reg.EP_LINK_STAT) = true ∧ j ≠ n % 4 := by
  unfold Dev.linkDown at h
  rw [if_pos hn] at h
  dsimp only at h
  split at h
  · next hs =>
    refine ⟨h, fun e => ?_⟩
    rw [Bool.not_eq_true', Dev.rb, ← e, h] at hs
    cases hs
  · rw [Dev.epActive, Dev.linkLost_reg _ _ _ _ (Or.inl (kindOf_epPage n)) (by decide)] at h
    generalize hx : ((d.setRb (epPage n) Reg.EP_LINK_STAT (n % 4) false).setRb (epPage n) Reg.EP_LINK_STAT (4 + n % 4) false).setRb
      (epPage n) Reg.EP_LINK_STAT (8 + n % 4) false = x at h
    have hbit : bit j (x.reg (epPage n) Reg.EP_LINK_STAT) = true := by
      split at h
      · exact (Dev.setRf_zero_bit _ _ _ _ _ _ (by decide) h).1
      · exact (Dev.setRb_false_bit _ _ _ _ _ h).1
    rw [← hx] at hbit
    exact Dev.setRb_false_bit _ _ _ _ _ (Dev.setRb_false_bit _ _ _ _ _ (Dev.setRb_false_bit _ _ _ _ _ hbit).1).1

/-- The MG port's link lost. -/
theorem Dev.linkDown_mg (d : Dev) : (d.linkDown 16).rb Pg.mg Reg.MG_STAT 0 = false := by
  unfold Dev.linkDown
  rw [if_neg (by decide)]
  split
  · next hs => exact Bool.not_eq_true' _ ▸ hs
  · rw [Dev.rb, Dev.linkLost_reg _ _ _ _ (Or.inr (by decide)) (by decide)]
    by_contra h
    exact (Dev.setRb_false_bit _ _ _ _ _ (by simpa using h)).2 rfl

/-- The four ports of an EP page lose link one after the other. -/
theorem Dev.linksDown_ep (p : Page) (i j : Nat) (hi : i < 4) (l : List Nat) :
    ∀ d : Dev, (∀ s ∈ l, s < 4 ∧ epPage (4 * i + s) = p) →
      bit j ((l.foldl (fun d s => d.linkDown (4 * i + s)) d).reg p Reg.EP_LINK_STAT) = true →
      bit j (d.reg p Reg.EP_LINK_STAT) = true ∧ j ∉ l := by
  induction l with
  | nil => exact fun d _ h => ⟨h, List.not_mem_nil⟩
  | cons s l ih =>
    intro d hl h
    obtain ⟨hs, hp⟩ := hl s List.mem_cons_self
    obtain ⟨hbit, hjl⟩ := ih _ (fun x hx => hl x (List.mem_cons_of_mem s hx)) h
    rw [← hp] at hbit ⊢
    obtain ⟨hb, hne⟩ := d.linkDown_ep (4 * i + s) j (by omega) hbit
    refine ⟨hb, fun hm => ?_⟩
    obtain rfl | hm := List.mem_cons.mp hm
    · exact hne (by omega)
    · exact hjl hm

theorem instOf_ep : ∀ p : Page, kindOf p = .ep → instOf p < 4 ∧ ∀ s < 4, epPage (4 * instOf p + s) = p := by decide

/-- No port of a drained EP page has link. -/
theorem Dev.portsDown_ep (d : Dev) (p : Page) (hk : kindOf p = .ep) : (d.portsDown p).rf p Reg.EP_LINK_STAT 3 0 = 0 := by
  obtain ⟨hi, hp⟩ := instOf_ep p hk
  have hd : d.portsDown p = (List.range 4).foldl (fun d s => d.linkDown (4 * instOf p + s)) d := by simp only [Dev.portsDown, hk]
  rw [hd, Dev.rf]
  refine Nat.eq_of_testBit_eq (fun j => ?_)
  rw [fld_testBit, Nat.zero_testBit, Nat.zero_add]
  by_contra h
  rw [Bool.not_eq_false, Bool.and_eq_true, decide_eq_true_eq] at h
  obtain ⟨hj, hb⟩ := h
  obtain ⟨-, hjl⟩ := Dev.linksDown_ep p (instOf p) j hi _ d
    (fun s hs => ⟨List.mem_range.mp hs, hp s (List.mem_range.mp hs)⟩) hb
  exact hjl (List.mem_range.mpr hj)

theorem Dev.portsDown_mg (d : Dev) : (d.portsDown Pg.mg).rb Pg.mg Reg.MG_STAT 0 = false := by
  have hk : kindOf Pg.mg = .mg := by decide
  rw [show d.portsDown Pg.mg = d.linkDown 16 by simp only [Dev.portsDown, hk]]
  exact d.linkDown_mg

theorem Dev.portsDown_other (d : Dev) (p : Page) (he : kindOf p ≠ .ep) (hm : kindOf p ≠ .mg) : d.portsDown p = d := by
  unfold Dev.portsDown
  split
  · exact absurd ‹_› he
  · exact absurd ‹_› hm
  · rfl

/-- The header of a page whose draining ends. -/
def Hdr.drained (h : Hdr) (leaves : Bool) : Hdr := { h with state := if h.enable && leaves then .starting else .off, continuous := false }

theorem Hdr.drained_state (h : Hdr) (leaves : Bool) : (h.drained leaves).state = .starting ∨ (h.drained leaves).state = .off := by
  unfold Hdr.drained
  dsimp only
  split
  · exact Or.inl rfl
  · exact Or.inr rfl

theorem Dev.drainEnd_drained (d : Dev) (p : Page) (hs : (d.hdr p).state = .draining) (hi : (d.hdr p).inflight = 0) :
    d.drainEnd p = (d.portsDown p).modHdr p (fun h => h.drained ((d.portsDown p).mayLeaveOff p)) := by
  unfold Dev.drainEnd
  dsimp only
  rw [hs, hi, if_neg (by decide)]
  rfl

/-! ## Island resets -/

theorem Dev.askReset_starts (d : Dev) (p : Page) (hk : kindOf p ≠ .dir) (hs : (d.hdr p).state ≠ .sitOut) (hr : (d.hdr p).rst = false) :
    d.askReset p = d.startReset p := by
  unfold Dev.askReset
  simp [hk, hs, hr]

theorem SMap.get_keep_dropped {α : Type} (d : Nat → α) (p : Nat → Bool) (m : SMap α) (k : Nat) (h : p k = false) :
    SMap.get d (SMap.keep p m) k = d k := by
  induction m with
  | nil => rfl
  | cons e m ih =>
    rw [SMap.keep, List.filter_cons]
    split
    · next he =>
      have hne : k ≠ e.1 := fun hk => absurd (h.symm.trans (hk ▸ he)) Bool.false_ne_true
      rw [SMap.get, if_neg hne]
      exact ih
    · exact ih

/-- A page's latches are clear once its counters are (R26). -/
theorem Dev.resetCounters_latch (d : Dev) (p : Page) (o : Nat) (ho : o < 0x1000) : (d.resetCounters p).latchOf p o = 0 := by
  unfold Dev.latchOf Dev.resetCounters
  dsimp only
  refine SMap.get_keep_dropped (fun _ => (0 : Word)) _ _ _ ?_
  rw [bne_eq_false_iff_eq, regKey]
  omega

theorem Dev.resetTable_latch (d : Dev) (p : Page) : (d.resetTable p).pages.latch = d.pages.latch := by
  unfold Dev.resetTable
  dsimp only
  split
  · refine foldl_keeps (fun x : Dev => x.pages.latch = d.pages.latch) _ (fun x e h => ?_) _ d rfl
    simp only [Dev.setTw_keeps, h]
  · rfl

/-- The header of a page whose island reset is done. -/
def Hdr.restarted (h : Hdr) (p : Page) (left : Nat) (leaves : Bool) : Hdr := { h with
  rst := false, inflight := left, continuous := false, state := if h.enable && leaves then .starting else .off,
  pllLock := if (kindOf p).clocked then h.refPresent || kindOf p == .ph else h.pllLock }

/-- How many of a page's items are not completed. -/
def Dev.itemsLeft (d : Dev) (p : Page) : Nat :=
  (d.wk.items.filter (fun i => decide (i.page? = some p) && decide (i.recorded ≠ .completed))).length

/-- The device as a page's reset leaves it, its header aside. -/
def Dev.islandCleared (d : Dev) (p : Page) : Dev :=
  (((((d.abandonRequal p).redispatchReset p).resetUnit p).resetCounters p).resetTable p).endLift p

theorem Dev.islandCleared_latch (d : Dev) (p : Page) (o : Nat) (ho : o < 0x1000) : (d.islandCleared p).latchOf p o = 0 := by
  have hl : ∀ x : Dev, (x.endLift p).pages.latch = x.pages.latch := fun _ => rfl
  rw [Dev.latchOf, Dev.islandCleared, hl, Dev.resetTable_latch]
  exact Dev.resetCounters_latch _ p o ho

theorem Dev.resetDone_eq (d : Dev) (p : Page) (hr : (d.hdr p).rst = true) (hs : (d.hdr p).state ≠ .sitOut) :
    d.resetDone p = (d.islandCleared p).modHdr p
      (fun h => h.restarted p ((d.islandCleared p).itemsLeft p) ((d.islandCleared p).mayLeaveOff p)) := by
  unfold Dev.resetDone
  rw [hr, if_neg (by decide), if_neg hs]
  rfl

/-- What an island reset that is done leaves of its page. -/
theorem Dev.resetDone_leaves (d : Dev) (p : Page) (hr : (d.hdr p).rst = true) (hs : (d.hdr p).state ≠ .sitOut) :
    ((d.resetDone p).hdr p).rst = false ∧ (((d.resetDone p).hdr p).state = .starting ∨ ((d.resetDone p).hdr p).state = .off) ∧
      ∀ o, o < 0x1000 → (d.resetDone p).latchOf p o = 0 := by
  rw [d.resetDone_eq p hr hs, Dev.hdr_modHdr_same]
  refine ⟨rfl, ?_, fun o ho => ?_⟩
  · unfold Hdr.restarted
    dsimp only
    split
    · exact Or.inl rfl
    · exact Or.inr rfl
  · rw [← d.islandCleared_latch p o ho]
    simp only [Dev.latchOf, Dev.modHdr_keeps]

/-! ## The obligation -/

/-- Settles O11, one operation of a page's life after the other. -/
theorem pageLife : Obligations.PageLife := by
  refine ⟨fun s p hk hs hr hm => ⟨_, rfl, ?_⟩, fun s p hsk hdp hmc hds hac hcv hs hr href hst => ⟨_, rfl, ?_⟩,
    fun s p hi hs => ⟨_, rfl, ?_⟩, fun s p mode hi hmode hr => ⟨_, rfl, ?_⟩, fun s p hs hi he hm => ⟨_, rfl, ?_⟩,
    fun s p hs hi hk => ⟨_, rfl, ?_⟩, fun s hs hi => ⟨_, rfl, ?_⟩, fun s p hk hs hr => ⟨_, rfl, ?_⟩,
    fun s p hr hs => ⟨_, rfl, s.dev.resetDone_leaves p hr hs⟩, fun s p hf hs hr hk hsk hcc => ⟨_, rfl, ?_⟩,
    fun s p hs hst => ⟨_, rfl, ?_⟩⟩ <;> dsimp only
  case refine_1 =>
    rw [s.dev.enablePage_starts p hk hs hr hm, Dev.hdr_modHdr_same]
    exact ⟨rfl, rfl, fun q hq => Dev.hdr_modHdr_other _ _ _ _ hq, by simp⟩
  case refine_2 =>
    have hstage : (s.dev.nowReady p).sys.stage = 6 := by
      unfold Dev.nowReady
      dsimp only
      split <;> simpa using hst
    rw [s.dev.unitReady_plain p (s.dev.unitStart_plain p hsk hdp hmc hds hac hcv) hmc hs hr href, Dev.boot_hdr _ hstage,
      Dev.nowReady_state]
    exact ⟨fun q hq => (Dev.boot_hdr _ hstage q).trans (s.dev.nowReady_others p q hq), rfl⟩
  case refine_3 =>
    have hdrains : ((s.dev.hdr p).state == .starting || (s.dev.hdr p).state.serves) = true := by
      obtain h | h | h := hs <;> rw [h] <;> rfl
    rw [show (0 : BitVec 2).toNat = 0 from rfl, s.dev.disablePage_keepsItems p 0 hi rfl, Dev.hdr_modHdr_same, Hdr.disabled, if_pos hdrains]
    exact ⟨rfl, rfl, rfl, fun q hq => Dev.hdr_modHdr_other _ _ _ _ hq, by simp⟩
  case refine_4 =>
    have hret : ((s.dev.hdr p).disabled mode.toNat).drainReturn = false := by
      rw [Hdr.disabled, if_neg (Nat.not_le.mpr hmode)]
      exact hr
    rw [s.dev.disablePage_keepsItems p mode.toNat hi hret, Dev.hdr_modHdr_same]
    exact ⟨hret, rfl⟩
  case refine_5 =>
    rw [s.dev.drainEnd_drained p hs hi, Dev.portsDown_other _ _ he hm, Dev.hdr_modHdr_same]
    refine ⟨fun q hq => Dev.hdr_modHdr_other _ _ _ _ hq, ?_⟩
    simp only [Hdr.drained, Bool.and_eq_true]
  case refine_6 =>
    rw [s.dev.drainEnd_drained p hs hi, Dev.hdr_modHdr_same, Dev.rf_congr (d := s.dev.portsDown p) (by simp)]
    exact ⟨s.dev.portsDown_ep p hk, Hdr.drained_state _ _⟩
  case refine_7 =>
    rw [s.dev.drainEnd_drained Pg.mg hs hi, Dev.hdr_modHdr_same, ← s.dev.portsDown_mg]
    refine ⟨?_, Hdr.drained_state _ _⟩
    simp only [Dev.rb, Dev.reg, Dev.modHdr_keeps]
  case refine_8 =>
    obtain ⟨hh, ho, hregs⟩ := s.dev.startReset_keeps p
    rw [s.dev.askReset_starts p hk hs hr, hh]
    exact ⟨rfl, rfl, rfl, ho, hregs⟩
  case refine_9 =>
    obtain ⟨hh, ho, -⟩ := s.dev.startReset_keeps p
    have hsit : (s.dev.hdr p).state ≠ .sitOut := by rw [hs]; decide
    have hd : s.dev.firmwareReset p = s.dev.startReset p := by
      rw [← s.dev.askReset_starts p hk hsit hr]
      unfold Dev.firmwareReset
      simp [hf, hs, hsk, hcc]
    rw [hd, hh]
    exact ⟨rfl, ho⟩
  case refine_10 =>
    have hd : s.dev.stageExpired p = (Dev.advance 6 (s.dev.modHdr p (fun h => { h with state := .faulted }))).notePhase := by
      rw [Dev.stageExpired, hs, if_neg (by decide)]
    have hstage : (s.dev.modHdr p (fun h => { h with state := .faulted })).sys.stage = 6 := by simpa using hst
    rw [hd, Dev.boot_hdr _ hstage, Dev.hdr_modHdr_same]
    exact ⟨rfl, fun q hq => (Dev.boot_hdr _ hstage q).trans (Dev.hdr_modHdr_other _ _ _ _ hq)⟩

end Sys2Proof.Machine
end

section
/-! The register bus: which page operation an access of a free bus comes to (R24 to R28, R40). -/

namespace Sys2Proof.Machine

/-! ## Offsets -/

theorem regAt_toNat (p : Page) (off : Nat) (h : off < 0x1000) : (regAt p off).toNat = p.val * 0x1000 + off := by
  have hp := p.isLt
  rw [BitVec.toNat_ofNat]
  omega

theorem pageOf_page (p : Page) (off : Nat) (h : off < 0x1000) : pageOf (p.val * 0x1000 + off) = some p := by
  have hp := p.isLt
  have hdiv : (p.val * 0x1000 + off) / 0x1000 = p.val := by omega
  simp only [pageOf, hdiv, hp, dite_true]

theorem page_mod (p : Page) (off : Nat) (h : off < 0x1000) : (p.val * 0x1000 + off) % 0x1000 = off := by omega

/-- An offset of a page lies below the MSI-X structures. -/
theorem page_below_msix (p : Page) (off : Nat) (h : off < 0x1000) : p.val * 0x1000 + off < msixTable ∧ p.val * 0x1000 + off < msixPba := by
  have hp := p.isLt
  unfold msixTable msixPba
  omega

/-! ## Block registers -/

/-- Where a block register lies: on a word, behind the header, outside the manufacturing range and the window. -/
def placed (k : PageKind) (off : Nat) : Bool :=
  decide (off % 4 = 0) && decide (off < 0x1000) && (k == .dir || decide (0x30 ≤ off)) && !isMfg k off && (windowReg k off).isNone

theorem blockRegs_placed (k : PageKind) : ∀ r ∈ blockRegs k, placed k r.off = true := by cases k <;> decide +kernel

/-- A block register by its offset. -/
theorem blockReg_some {k : PageKind} {off : Nat} {r : RegDesc} (h : blockReg k off = some r) : r ∈ blockRegs k ∧ r.off = off := by
  refine ⟨List.mem_of_find?_eq_some h, ?_⟩
  have hf := List.find?_some h
  exact beq_iff_eq.mp hf

theorem blockReg_placed {k : PageKind} {off : Nat} {r : RegDesc} (h : blockReg k off = some r) : placed k off = true := by
  obtain ⟨hm, ho⟩ := blockReg_some h
  exact ho ▸ blockRegs_placed k r hm

theorem placed_iff {k : PageKind} {off : Nat} (h : placed k off = true) : off % 4 = 0 ∧ off < 0x1000 ∧ (k = .dir ∨ 0x30 ≤ off) ∧
    isMfg k off = false ∧ windowReg k off = none := by
  simp only [placed, Bool.and_eq_true, decide_eq_true_eq, Bool.or_eq_true, beq_iff_eq, Bool.not_eq_true', Option.isNone_iff_eq_none] at h
  obtain ⟨⟨⟨⟨hal, hlt⟩, hhead⟩, hmfg⟩, hwin⟩ := h
  exact ⟨hal, hlt, hhead, hmfg, hwin⟩

/-- Offsets below 0x30 of a page with a header. -/
theorem not_header {k : PageKind} {off : Nat} (h : k = .dir ∨ 0x30 ≤ off) : ¬(decide (k ≠ .dir) && decide (off < 0x30)) = true := by
  rw [Bool.and_eq_true, decide_eq_true_eq, decide_eq_true_eq]
  rintro ⟨hk, ho⟩
  obtain h | h := h
  · exact hk h
  · omega

theorem Dev.pageWrite_block (d : Dev) (p : Page) (off : Nat) (r : RegDesc) (v : Word) (h : blockReg (kindOf p) off = some r) :
    d.pageWrite p off v = d.blockWrite p r v := by
  obtain ⟨-, -, hhead, hmfg, hwin⟩ := placed_iff (blockReg_placed h)
  unfold Dev.pageWrite
  dsimp only
  rw [if_neg (not_header hhead), hmfg, if_neg Bool.false_ne_true, hwin]
  dsimp only
  rw [h]

theorem Dev.pageRead_block (d : Dev) (p : Page) (off : Nat) (r : RegDesc) (h : blockReg (kindOf p) off = some r) :
    d.pageRead p off = d.blockRead p r := by
  obtain ⟨-, -, hhead, hmfg, hwin⟩ := placed_iff (blockReg_placed h)
  unfold Dev.pageRead
  dsimp only
  rw [if_neg (not_header hhead), hmfg, if_neg Bool.false_ne_true, hwin]
  dsimp only
  rw [h]

/-! ## Accesses that need not wait -/

/-- A write of a page that is not held, with a place at PS where it reaches PS, is served at once. -/
theorem Dev.busWrite_serves (s : State) (p : Page) (off : Nat) (v : Word) (hb : s.busFree) (hh : s.dev.pageHeld p = false)
    (ho : off < 0x1000) (h4 : off % 4 = 0) (hps : reachesPs (p.val * 0x1000 + off) = true → s.dev.psFull = false) :
    s.dev.busWrite (regAt p off) 0xF v = s.dev.pageWrite p off v := by
  obtain ⟨hpw, hrst, hwait, -⟩ := hb
  obtain ⟨hmsix, hpba⟩ := page_below_msix p off ho
  have hal : (regAt p off).toNat % 4 = 0 := by
    rw [regAt_toNat p off ho]
    omega
  have hwaits : s.dev.waits (.write (regAt p off) v) = false := by
    have hpage : pageOf (Access.write (regAt p off) v).off = some p := by rw [Access.off, regAt_toNat p off ho, pageOf_page p off ho]
    unfold Dev.waits
    simp only [hpage, hh, hwait, List.any_nil, Bool.or_false, Bool.false_or, regAt_toNat p off ho]
    rw [Bool.and_eq_false_iff]
    cases hr : reachesPs (p.val * 0x1000 + off) with
    | false => exact Or.inl rfl
    | true => exact Or.inr (hps hr)
  unfold Dev.busWrite Dev.access
  simp only [hpw, hrst, hal, hwaits, Bool.not_true, Bool.or_self, Bool.false_eq_true, if_false, ne_eq, not_true_eq_false, decide_false]
  unfold Dev.serve Dev.regWrite
  dsimp only
  rw [regAt_toNat p off ho, pageOf_page p off ho, page_mod p off ho]
  simp [Nat.not_le.mpr hmsix, Nat.not_le.mpr hpba]

/-- A read of a page that is not held is served at once. -/
theorem Dev.busRead_serves (s : State) (p : Page) (off : Nat) (hb : s.busFree) (hh : s.dev.pageHeld p = false) (ho : off < 0x1000)
    (h4 : off % 4 = 0) :
    s.dev.busRead (regAt p off) = (s.dev.pageRead p off).1.answer (s.dev.pageRead p off).2 := by
  obtain ⟨hpw, hrst, hwait, -⟩ := hb
  obtain ⟨hmsix, hpba⟩ := page_below_msix p off ho
  have hword : (p.val * 0x1000 + off) / 4 * 4 = p.val * 0x1000 + off := by omega
  have hwaits : s.dev.waits (.read (regAt p off) .host) = false := by
    have hpage : pageOf (Access.read (regAt p off) .host).off = some p := by rw [Access.off, regAt_toNat p off ho, pageOf_page p off ho]
    unfold Dev.waits
    simp only [hpage, hh, hwait, List.any_nil, Bool.or_false]
  have hread : s.dev.regRead (p.val * 0x1000 + off) = s.dev.pageRead p off := by
    unfold Dev.regRead
    dsimp only
    rw [hword, pageOf_page p off ho, page_mod p off ho]
    simp [Nat.not_le.mpr hmsix, Nat.not_le.mpr hpba]
  unfold Dev.busRead Dev.access
  simp only [hpw, hrst, hwaits, Bool.not_true, Bool.false_eq_true, if_false]
  unfold Dev.serve
  dsimp only
  rw [regAt_toNat p off ho, hread]
  rfl

end Sys2Proof.Machine
end

section
/-! What the register accesses of chapter 2 do (R25, R26, R29, R34, R36, R37, R40). -/

namespace Sys2Proof.Machine

/-! ## Registers with effects of their own -/

/-- The offsets of the registers whose write has an effect of its own. -/
def hasEffect (k : PageKind) (off : Nat) : Bool :=
  match k with
  | .cc => hasNat [Reg.CC_RESET_CTRL, Reg.CC_WDOG_KICK, Reg.CC_BUDGET_SCALE, Reg.CC_GPIO_OUT] off
  | .sk => hasNat [Reg.SK_CMD, Reg.SK_DEBUG_LOCK] off
  | .fb => hasNat [Reg.FB_DX_PART, Reg.FB_VE_PART, Reg.FB_CP_PART, Reg.FB_SHARED_PART] off
  | .tu => hasNat [Reg.TU_INC_HI, Reg.TU_RATE_HI, Reg.TU_ADJ_HI, Reg.TU_STEP_CTRL] off
  | .dx => hasNat [Reg.DX_INV_CTRL, Reg.DX_PR_RESP, Reg.DX_REQ_LINE_EN] off || (Reg.DX_LEDGER_A_LO ≤ off && off ≤ Reg.DX_LEDGER_CFG)
  | .mc => off == Reg.MC_FREQ_CTRL
  | .dp => off == Reg.DP_TRAIN_CTRL
  | .ds => hasNat [Reg.DS_KERNEL_CMD, Reg.DS_LMEM_CFG] off
  | .ce => hasNat [Reg.CE_LOCK, Reg.CE_KEY_CMD] off
  | .qm => hasNat [Reg.QM_FLUSH, Reg.QM_CFG] off
  | .px => hasNat [Reg.PX_RT_CTRL, Reg.PX_ENERGY_CEIL] off
  | .cv => off == Reg.CV_CAL_CTRL
  | .ac => hasNat [Reg.AC_QUAD_CFG, Reg.AC_SLEEPY_CFG, Reg.AC_CFG] off
  | _ => false

theorem hasNat_cons_false {a x : Nat} {l : List Nat} : hasNat (a :: l) x = false ↔ x ≠ a ∧ hasNat l x = false := by
  simp only [hasNat, List.any_cons, Bool.or_eq_false_iff, beq_eq_false_iff_ne, ne_comm]

section
variable (d : Dev) (p : Page) (r : RegDesc) (v : Word) (h : hasEffect (kindOf p) r.off = false)
include h

/-! Every branch of the three functions tests an offset that `hasEffect` lists for the branch's kind of page. -/

theorem Dev.coreEffect_none : d.coreEffect p r v = none := by
  unfold Dev.coreEffect
  split <;> simp_all [hasEffect, hasNat_cons_false]

theorem Dev.engineEffect_none : d.engineEffect p r v = none := by
  unfold Dev.engineEffect
  dsimp only
  split <;> simp_all [hasEffect, hasNat_cons_false]

theorem Dev.frameEffect_none : d.frameEffect p r v = none := by
  unfold Dev.frameEffect
  split <;> simp_all [hasEffect, hasNat_cons_false]

/-- Every other register has none. -/
theorem Dev.ownEffect_none : d.ownEffect p r v = none := by
  rw [Dev.ownEffect, d.coreEffect_none p r v h, d.engineEffect_none p r v h, d.frameEffect_none p r v h]
  rfl

end

/-- The register is no retirement record and its write has no effect of its own. -/
def plainWrite (k : PageKind) (r : RegDesc) : Bool := !hasEffect k r.off && recordOff k != some r.off

theorem plainWrite_iff {k : PageKind} {r : RegDesc} (h : plainWrite k r = true) : hasEffect k r.off = false ∧ recordOff k ≠ some r.off := by
  rw [plainWrite, Bool.and_eq_true, Bool.not_eq_true', bne_iff_ne] at h
  exact h

/-- A write of such a register goes by its access codes. -/
theorem Dev.blockWrite_plain (d : Dev) (p : Page) (r : RegDesc) (v : Word) (h : plainWrite (kindOf p) r = true) :
    d.blockWrite p r v = if hasAcc r .rws then d.shadowWrite p r v else if hasAcc r .rwp then d.persistWrite p r v else d.store p r v := by
  obtain ⟨he, hr⟩ := plainWrite_iff h
  unfold Dev.blockWrite
  rw [if_neg hr, d.ownEffect_none p r v he]

/-! ## What the register tables say -/

/-- A register that is one RW field of a whole word. -/
def wholeWord (k : PageKind) (off : Nat) : Bool :=
  match blockReg k off with
  | some r => plainWrite k r && decide (r.bank = none) && decide (r.fields = [⟨31, 0, .rw, .any⟩])
  | none => false

theorem wholeWord_some {k : PageKind} {off : Nat} (h : wholeWord k off = true) :
    ∃ r, blockReg k off = some r ∧ plainWrite k r = true ∧ r.bank = none ∧ r.fields = [⟨31, 0, .rw, .any⟩] := by
  unfold wholeWord at h
  split at h
  · next r hr =>
    rw [Bool.and_eq_true, Bool.and_eq_true, decide_eq_true_eq, decide_eq_true_eq] at h
    obtain ⟨⟨hplain, hbank⟩, hfields⟩ := h
    exact ⟨r, hr, hplain, hbank, hfields⟩
  · cases h

theorem wholeWord_placed {k : PageKind} {off : Nat} (h : wholeWord k off = true) : placed k off = true := by
  obtain ⟨r, hr, -⟩ := wholeWord_some h
  exact blockReg_placed hr

theorem wholeWord_scratch : wholeWord .dir 0x38 = true := by decide +kernel

theorem wholeWord_commitTime : ∀ k : PageKind, k.hasCommit = true → wholeWord k 0x100 = true ∧ wholeWord k 0x104 = true := by
  intro k
  cases k <;> decide +kernel

/-- RWS registers are stored by their shadows alone. -/
theorem rws_plain (k : PageKind) : ∀ r ∈ blockRegs k, hasAcc r .rws = true → plainWrite k r = true ∧ hasAcc r .rwp = false ∧ k ≠ .dir := by
  cases k <;> decide +kernel

/-- RWP registers but SK_DEBUG_LOCK are stored by PS alone. -/
theorem rwp_plain (k : PageKind) : ∀ r ∈ blockRegs k, hasAcc r .rwp = true →
    (hasEffect k r.off = false ∨ k = .sk ∧ r.off = Reg.SK_DEBUG_LOCK) ∧ hasAcc r .rws = false := by
  cases k <;> decide +kernel

/-- No register that a pair latches has RC fields. -/
theorem rc_not_latched (k : PageKind) : ∀ r ∈ blockRegs k, hasAcc r .rc = true → isLatched k r.off = false := by
  cases k <;> decide +kernel

/-- The _LO registers of the pairs are neither latched, measured nor popped. -/
theorem latchPairs_plain : ∀ p : Page, ∀ x ∈ latchPairs (kindOf p),
    (popOf p x.1).isNone = true ∧ isLatched (kindOf p) x.1 = false ∧ measuredFields (kindOf p) x.1 = [] := by decide +kernel

theorem winBase_reg : ∃ r, blockReg (kindOf Pg.hb) 0x100 = some r ∧ plainWrite (kindOf Pg.hb) r = true ∧ r.bank = none ∧
    hasAcc r .rws = false ∧ hasAcc r .rwp = false ∧ ⟨6, 0, .rw, .keep 0 120⟩ ∈ r.fields := by
  refine ⟨(blockReg (kindOf Pg.hb) 0x100).getD ⟨0, 0, [], none⟩, ?_⟩
  decide +kernel

theorem fld_whole (w : Word) : fld 31 0 w = w.toNat := by
  rw [fld, Nat.shiftRight_zero]
  exact Nat.mod_eq_of_lt w.isLt

/-- An accepted field takes what its rule says. -/
theorem fld_storeWord_accepted (r : RegDesc) (hr : r.WellPlaced) (f : Field) (hf : f ∈ r.fields) (key : Nat) (accept : Acc → Bool)
    (old v : Word) (ha : accept f.acc = true) : fld f.hi f.lo (storeWord r key accept old v) =
      fieldStore f.rule key f.lo (f.hi - f.lo + 1) (fld f.hi f.lo old) (fld f.hi f.lo v) % 2 ^ (f.hi - f.lo + 1) := by
  obtain ⟨hin, hp⟩ := hr
  obtain ⟨x, -, hs⟩ := fld_storeFields key accept old v f r.fields hf hp (fun g hg => (hin g hg).1) old
  obtain ⟨hlo, h32⟩ := hin f hf
  rw [storeWord_eq, hs, storeField, if_pos ha, fld_putFld_same _ _ _ _ hlo h32]

/-! ## Writes -/

/-- A write of a register without effects of its own, on a free bus. -/
theorem Dev.busWrite_block (s : State) (p : Page) (off : Nat) (r : RegDesc) (v : Word) (hb : s.busFree) (hh : s.dev.pageHeld p = false)
    (hr : blockReg (kindOf p) off = some r) (hps : hasAcc r .rwp = true → s.dev.psFull = false) :
    s.dev.busWrite (regAt p off) 0xF v = s.dev.blockWrite p r v := by
  obtain ⟨hal, hlt, -⟩ := placed_iff (blockReg_placed hr)
  rw [Dev.busWrite_serves s p off v hb hh hlt hal, Dev.pageWrite_block _ _ _ _ _ hr]
  intro h
  rw [reachesPs, pageOf_page p off hlt] at h
  dsimp only at h
  rw [page_mod p off hlt, hr] at h
  exact hps (Bool.and_eq_true _ _ ▸ h).1

/-- A whole RW word takes what is written; no other register changes. -/
theorem Dev.busWrite_whole (s : State) (p : Page) (off : Nat) (v : Word) (hb : s.busFree) (hh : s.dev.pageHeld p = false)
    (hw : wholeWord (kindOf p) off = true) : s.dev.busWrite (regAt p off) 0xF v = s.dev.setReg p off v := by
  obtain ⟨r, hr, hplain, hbank, hfields⟩ := wholeWord_some hw
  obtain ⟨hmem, hoff⟩ := blockReg_some hr
  have hacc : hasAcc r .rws = false ∧ hasAcc r .rwp = false := by
    rw [hasAcc, hasAcc, hfields]
    decide
  rw [Dev.busWrite_block s p off r v hb hh hr (fun h => absurd (hacc.2.symm.trans h) Bool.false_ne_true),
    Dev.blockWrite_plain _ _ _ _ hplain, hacc.1, hacc.2, if_neg Bool.false_ne_true, if_neg Bool.false_ne_true, Dev.store, Dev.bankOf, hbank, hoff]
  congr 1
  have hstore := fld_storeWord_any r (blockRegs_wellPlaced _ r hmem) ⟨31, 0, .rw, .any⟩ (by rw [hfields]; exact List.mem_singleton_self _)
    (regKey p off 0) (fun a => a == .rw) (s.dev.reg p off) v rfl rfl
  rw [fld_whole, fld_whole] at hstore
  exact BitVec.eq_of_toNat_eq hstore

/-- A write of an RWS register is a write of its shadow. -/
theorem Dev.busWrite_rws (s : State) (p : Page) (off : Nat) (r : RegDesc) (v : Word) (hb : s.busFree) (hh : s.dev.pageHeld p = false)
    (hr : blockReg (kindOf p) off = some r) (ha : hasAcc r .rws = true) : s.dev.busWrite (regAt p off) 0xF v = s.dev.shadowWrite p r v := by
  obtain ⟨hplain, hrwp, -⟩ := rws_plain _ r (blockReg_some hr).1 ha
  rw [Dev.busWrite_block s p off r v hb hh hr (fun h => absurd (hrwp.symm.trans h) Bool.false_ne_true), Dev.blockWrite_plain _ _ _ _ hplain, if_pos ha]

/-- A write of an RWP register goes to PS. -/
theorem Dev.busWrite_rwp (s : State) (p : Page) (off : Nat) (r : RegDesc) (v : Word) (hb : s.busFree) (hh : s.dev.pageHeld p = false)
    (hf : s.dev.psFull = false) (hr : blockReg (kindOf p) off = some r) (ha : hasAcc r .rwp = true) (hrec : recordOff (kindOf p) ≠ some off)
    (hsk : ¬(p = Pg.sk ∧ off = Reg.SK_DEBUG_LOCK)) (hac : ¬(p = Pg.ac ∧ off = Reg.AC_COUNTRY)) :
    s.dev.busWrite (regAt p off) 0xF v =
      s.dev.psWrite p off (storeWord r (regKey p off 0) (fun a => a == .rwp) (s.dev.reg p off) v) := by
  obtain ⟨hmem, hoff⟩ := blockReg_some hr
  obtain ⟨heff, hrws⟩ := rwp_plain _ r hmem ha
  have hskp : ∀ q : Page, kindOf q = .sk → q = Pg.sk := by decide
  have hnone : hasEffect (kindOf p) r.off = false := heff.resolve_right (fun h => hsk ⟨hskp p h.1, hoff ▸ h.2⟩)
  have hplain : plainWrite (kindOf p) r = true := by
    rw [plainWrite, hnone, hoff, Bool.not_false, Bool.true_and, bne_iff_ne]
    exact hrec
  rw [Dev.busWrite_block s p off r v hb hh hr (fun _ => hf), Dev.blockWrite_plain _ _ _ _ hplain, hrws, if_neg Bool.false_ne_true, if_pos ha,
    Dev.persistWrite, hoff, if_neg]
  rw [Bool.and_eq_true, decide_eq_true_eq, decide_eq_true_eq]
  exact hac

/-- A write that reaches PS holds its page. -/
theorem Dev.psWrite_held (d : Dev) (p : Page) (off : Nat) (v : Word) (ho : off < 0x1000) : (d.psWrite p off v).pageHeld p = true := by
  have hdiv : (p.val * 0x1000 + off) / 0x1000 = p.val := by omega
  unfold Dev.pageHeld Dev.psWrite
  simp [hdiv]

/-- A write of HB_WIN_BASE stores a base up to 120 alone. -/
theorem Dev.busWrite_winBase (s : State) (v : Word) (hb : s.busFree) (hh : s.dev.pageHeld Pg.hb = false) :
    ∃ w, s.dev.busWrite (regAt Pg.hb 0x100) 0xF v = s.dev.setReg Pg.hb 0x100 w ∧
      fld 6 0 w = if fld 6 0 v ≤ 120 then fld 6 0 v else s.dev.rf Pg.hb 0x100 6 0 := by
  obtain ⟨r, hr, hplain, hbank, hrws, hrwp, hfield⟩ := winBase_reg
  obtain ⟨hmem, hoff⟩ := blockReg_some hr
  refine ⟨storeWord r (regKey Pg.hb 0x100 0) (fun a => a == .rw) (s.dev.reg Pg.hb 0x100) v, ?_, ?_⟩
  · rw [Dev.busWrite_block s Pg.hb 0x100 r v hb hh hr (fun h => absurd (hrwp.symm.trans h) Bool.false_ne_true),
      Dev.blockWrite_plain _ _ _ _ hplain, hrws, hrwp, if_neg Bool.false_ne_true, if_neg Bool.false_ne_true, Dev.store, Dev.bankOf, hbank, hoff]
  · rw [fld_storeWord_accepted r (blockRegs_wellPlaced _ r hmem) _ hfield _ _ _ _ rfl, fieldStore_keep]
    simp only [Nat.zero_le, true_and]
    split
    · exact fld_mod 6 0 v
    · exact fld_mod 6 0 _

/-! ## Reads -/

/-- A read of a block register on a free bus. -/
theorem Dev.busRead_block (s : State) (p : Page) (off : Nat) (r : RegDesc) (hb : s.busFree) (hh : s.dev.pageHeld p = false)
    (hr : blockReg (kindOf p) off = some r) :
    s.dev.busRead (regAt p off) = (s.dev.blockRead p r).1.answer (s.dev.blockRead p r).2 := by
  obtain ⟨hal, hlt, -⟩ := placed_iff (blockReg_placed hr)
  rw [Dev.busRead_serves s p off hb hh hlt hal, Dev.pageRead_block _ _ _ _ hr]

/-- One part of a pair is latched in `x` as it stands in `d`. -/
def Dev.latchPart (d : Dev) (p : Page) (x : Dev) (o : Nat) : Dev :=
  match blockReg (kindOf p) o with
  | some r => x.setLatch p o (d.shown p r)
  | none => x

theorem Dev.latchPair_eq (d : Dev) (p : Page) (off : Nat) : d.latchPair p off = (latchedBy (kindOf p) off).foldl (d.latchPart p) d := rfl

/-- The latching of a pair's other parts changes the latches alone. -/
theorem Dev.latchPair_keeps (d : Dev) (p : Page) (off : Nat) : (d.latchPair p off).pages.regs = d.pages.regs ∧ (d.latchPair p off).asks = d.asks := by
  rw [Dev.latchPair_eq]
  refine foldl_keeps (fun x : Dev => x.pages.regs = d.pages.regs ∧ x.asks = d.asks) _ (fun x o h => ?_) _ d ⟨rfl, rfl⟩
  unfold Dev.latchPart
  split
  · exact h
  · exact h

theorem Dev.latchOf_setLatch_same (d : Dev) (p : Page) (off : Nat) (w : Word) : (d.setLatch p off w).latchOf p off = w :=
  SMap.get_set_same _ _ _ _

theorem Dev.latchOf_setLatch_other (d : Dev) (p : Page) (off o : Nat) (w : Word) (h : o ≠ off) :
    (d.setLatch p off w).latchOf p o = d.latchOf p o := SMap.get_set_other _ _ _ _ _ (fun hk => h (Nat.add_left_cancel hk))

theorem Dev.latchParts_latch (d : Dev) (p : Page) (o : Nat) (q : RegDesc) (hq : blockReg (kindOf p) o = some q) (l : List Nat) :
    ∀ x : Dev, o ∈ l ∨ x.latchOf p o = d.shown p q → (l.foldl (d.latchPart p) x).latchOf p o = d.shown p q := by
  induction l with
  | nil => exact fun x h => h.resolve_left List.not_mem_nil
  | cons a l ih =>
    intro x h
    refine ih (d.latchPart p x a) ?_
    by_cases ha : o = a
    · right
      rw [Dev.latchPart, ← ha, hq]
      exact x.latchOf_setLatch_same p o _
    · refine h.imp (fun h => (List.mem_cons.mp h).resolve_left ha) (fun h => ?_)
      unfold Dev.latchPart
      split
      · exact (x.latchOf_setLatch_other p a o _ ha).trans h
      · exact h

/-- The other parts of a pair hold the words of one moment. -/
theorem Dev.latchPair_latches (d : Dev) (p : Page) (off o : Nat) (q : RegDesc) (ho : o ∈ latchedBy (kindOf p) off)
    (hq : blockReg (kindOf p) o = some q) : (d.latchPair p off).latchOf p o = d.shown p q :=
  d.latchParts_latch p o q hq _ d (Or.inl ho)

theorem Dev.clearRead_keeps (d : Dev) (p : Page) (r : RegDesc) : (d.clearRead p r).pages.latch = d.pages.latch ∧ (d.clearRead p r).asks = d.asks := by
  unfold Dev.clearRead
  split
  · exact ⟨rfl, rfl⟩
  · simp

theorem Dev.bankOf_congr {d e : Dev} (h : e.pages.regs = d.pages.regs) (p : Page) (r : RegDesc) : e.bankOf p r = d.bankOf p r := by
  unfold Dev.bankOf
  split
  · exact Dev.rf_congr h _ _ _ _ _
  · rfl

/-- RC bits are clear after the read. -/
theorem Dev.clearRead_clears (d : Dev) (p : Page) (r : RegDesc) :
    (d.clearRead p r).reg p r.off (d.bankOf p r) = d.reg p r.off (d.bankOf p r) &&& ~~~ rcMask r := by
  unfold Dev.clearRead
  split
  · next h =>
    rw [h]
    exact (BitVec.and_allOnes (x := d.reg p r.off (d.bankOf p r))).symm
  · exact Dev.reg_setReg_same _ _ _ _ _

/-- What a read of a register leaves that is neither popped nor latched, and what it answers. -/
theorem Dev.blockRead_plain (d : Dev) (p : Page) (r : RegDesc) (hp : popOf p r.off = none) (hl : isLatched (kindOf p) r.off = false) :
    (d.blockRead p r).1.pages = ((d.latchPair p r.off).clearRead p r).pages ∧ (d.blockRead p r).1.asks = d.asks ∧
      (measuredFields (kindOf p) r.off = [] → (d.blockRead p r).2 = d.shown p r) := by
  have hasks : ((d.latchPair p r.off).clearRead p r).asks = d.asks := (Dev.clearRead_keeps _ p r).2.trans (d.latchPair_keeps p r.off).2
  unfold Dev.blockRead
  rw [hp]
  dsimp only
  rw [hl, if_neg Bool.false_ne_true]
  dsimp only
  refine ⟨?_, ?_, fun hm => ?_⟩
  · split <;> rfl
  · split <;> exact hasks
  · rw [hm]
    rfl

/-- A register that latches others by its read. -/
theorem latchedBy_plain (p : Page) (off : Nat) (h : latchedBy (kindOf p) off ≠ []) :
    popOf p off = none ∧ isLatched (kindOf p) off = false ∧ measuredFields (kindOf p) off = [] := by
  unfold latchedBy at h
  cases hf : (latchPairs (kindOf p)).find? (fun x => x.1 == off) with
  | none =>
    rw [hf] at h
    exact absurd rfl h
  | some x =>
    obtain ⟨hp, hl, hm⟩ := latchPairs_plain p x (List.mem_of_find?_eq_some hf)
    have hfound := List.find?_some hf
    have hx : x.1 = off := beq_iff_eq.mp hfound
    rw [hx] at hp hl hm
    exact ⟨Option.isNone_iff_eq_none.mp hp, hl, hm⟩

/-! ## The obligation -/

theorem raised_regWidth (d : Dev) : Detected d d.partWrite Pg.hb Evt.HB_REG_WIDTH := by
  have h : (evDesc (kindOf Pg.hb) Evt.HB_REG_WIDTH).act ≠ .retire ∧ (evDesc (kindOf Pg.hb) Evt.HB_REG_WIDTH).hang = false := by decide
  exact d.detect_detected Pg.hb Evt.HB_REG_WIDTH (by decide) h.1 h.2

/-- A write that meets a pending bow is counted and raised (R37). -/
theorem Dev.shadowLocked_detected (d : Dev) (p : Page) (hk : kindOf p ≠ .dir) :
    Detected (d.bumpSat p commitStat 15 8) (d.shadowLocked p) p Evt.SHADOW_LOCKED := Dev.detect_commitSource _ p _ (Or.inl rfl) hk

/-- Settles O7: each access by the page operation that it comes to on a free bus. -/
theorem registerAccesses : Obligations.RegisterAccesses := by
  refine ⟨fun s p off v hb hh hp => ?_, fun s off be v hb hbe => ?_, fun s p off r hb hh hr hl => ?_, fun s p off r v hb hh hr ha => ?_,
    fun s v hb hh => ?_, fun s p off r hb hh hr ha hp => ?_, fun s p off r v hb hh hf hr ha hrec hsk hac => ?_⟩
  case refine_1 =>
    have hw : wholeWord (kindOf p) off = true := by
      obtain ⟨rfl, rfl⟩ | ⟨hc, rfl | rfl⟩ := hp
      · exact wholeWord_scratch
      · exact (wholeWord_commitTime _ hc).1
      · exact (wholeWord_commitTime _ hc).2
    have hd := Dev.busWrite_whole s p off v hb hh hw
    obtain ⟨-, -, -, hasks⟩ := hb
    refine ⟨_, s.onBus_quiet (·.busWrite (regAt p off) 0xF v) ?_, ?_⟩
    · simp only [hd, Dev.setReg_keeps, hasks]
    · dsimp only
      rw [hd]
      refine ⟨Dev.reg_setReg_same _ _ _ _ _, fun q o i ho hne => ?_⟩
      exact Dev.reg_setReg_other _ _ _ _ _ _ _ _ (placed_iff (wholeWord_placed hw)).2.1 ho hne
  case refine_2 =>
    have hd : s.dev.busWrite off be v = s.dev.partWrite := by
      obtain ⟨hpw, hrst, -⟩ := hb
      simp only [Dev.busWrite, hpw, hrst, hbe, Bool.not_true, Bool.or_self, Bool.false_eq_true, if_false, ne_eq, not_false_eq_true,
        decide_true, Bool.true_or, if_true]
    have hdet := raised_regWidth s.dev
    obtain ⟨hregs, -, -, -, hasks, -⟩ := hdet.keeps
    obtain ⟨-, -, -, hnone⟩ := hb
    refine ⟨_, s.onBus_quiet (·.busWrite off be v) ?_, ?_⟩
    · simp only [hd, hasks, hnone]
    · dsimp only
      rw [hd]
      exact ⟨hdet.raised (by decide), hregs⟩
  case refine_3 =>
    obtain ⟨hpop, hlat, hmeas⟩ := latchedBy_plain p off hl
    obtain ⟨-, hoff⟩ := blockReg_some hr
    have hd := Dev.busRead_block s p off r hb hh hr
    obtain ⟨-, -, -, hnone⟩ := hb
    rw [← hoff] at hpop hlat hmeas
    obtain ⟨hpages, hasks, hword⟩ := s.dev.blockRead_plain p r hpop hlat
    refine ⟨_, s.onBus_quiet (·.busRead (regAt p off)) ?_, ?_⟩
    · simp only [hd, Dev.answer_keeps, hasks, hnone]
    · dsimp only
      rw [hd]
      refine ⟨hword hmeas, fun o q ho hq => ?_⟩
      rw [← s.dev.latchPair_latches p off o q ho hq, Dev.latchOf, Dev.latchOf]
      simp only [Dev.answer_keeps, hpages, (Dev.clearRead_keeps _ p r).1, hoff]
  case refine_4 =>
    have hd := Dev.busWrite_rws s p off r v hb hh hr ha
    obtain ⟨hmem, hoff⟩ := blockReg_some hr
    obtain ⟨-, -, -, hnone⟩ := hb
    obtain ⟨-, -, hk⟩ := rws_plain _ r hmem ha
    rw [Dev.shadowWrite, hoff] at hd
    cases hc : (s.dev.hdr p).commitPending with
    | true =>
      rw [hc, if_pos rfl] at hd
      have hdet := s.dev.shadowLocked_detected p hk
      obtain ⟨-, hshadow, -, -, hasks, -⟩ := hdet.keeps
      refine ⟨_, s.onBus_quiet (·.busWrite (regAt p off) 0xF v) ?_, ?_⟩
      · simp only [hd, hasks, Dev.bumpSat_keeps, hnone]
      · dsimp only
        rw [hd, if_pos rfl, hshadow, hdet.rf, Dev.rf_bumpSat_same _ _ _ _ _ (by decide) (by decide)]
        exact ⟨by simp only [Dev.bumpSat_keeps], hdet.raised (by decide), rfl⟩
    | false =>
      rw [hc, if_neg Bool.false_ne_true] at hd
      refine ⟨_, s.onBus_quiet (·.busWrite (regAt p off) 0xF v) ?_, ?_⟩
      · simp only [hd, Dev.setShadow_keeps, hnone]
      · dsimp only
        rw [hd, if_neg Bool.false_ne_true, Dev.shadow_setShadow_same]
        exact ⟨by simp only [Dev.setShadow_keeps], rfl⟩
  case refine_5 =>
    obtain ⟨w, hd, hw⟩ := Dev.busWrite_winBase s v hb hh
    obtain ⟨-, -, -, hnone⟩ := hb
    have hat : (0x4100 : Bar0) = regAt Pg.hb 0x100 := by decide
    rw [← hat] at hd
    refine ⟨_, s.onBus_quiet (·.busWrite 0x4100 0xF v) ?_, ?_⟩
    · simp only [hd, Dev.setReg_keeps, hnone]
    · dsimp only
      rw [hd, ← hw, Dev.rf, Dev.reg_setReg_same]
  case refine_6 =>
    obtain ⟨hmem, hoff⟩ := blockReg_some hr
    have hd := Dev.busRead_block s p off r hb hh hr
    obtain ⟨-, -, -, hnone⟩ := hb
    rw [← hoff] at hp
    obtain ⟨hpages, hasks, hword⟩ := s.dev.blockRead_plain p r hp (rc_not_latched _ r hmem ha)
    obtain ⟨hregs, -⟩ := s.dev.latchPair_keeps p r.off
    refine ⟨_, s.onBus_quiet (·.busRead (regAt p off)) ?_, ?_⟩
    · simp only [hd, Dev.answer_keeps, hasks, hnone]
    · dsimp only
      rw [hd, ← hoff]
      refine ⟨?_, hword⟩
      generalize hx : s.dev.latchPair p r.off = x at hpages hregs
      have hbank : s.dev.bankOf p r = x.bankOf p r := (Dev.bankOf_congr hregs p r).symm
      have hreg : ∀ i, s.dev.reg p r.off i = x.reg p r.off i := fun i => by rw [Dev.reg, ← hregs, Dev.reg]
      rw [hbank, hreg, ← x.clearRead_clears p r, Dev.reg, Dev.reg]
      simp only [Dev.answer_keeps, hpages]
  case refine_7 =>
    have hd := Dev.busWrite_rwp s p off r v hb hh hf hr ha hrec hsk hac
    obtain ⟨-, hlt, -⟩ := placed_iff (blockReg_placed hr)
    obtain ⟨-, -, -, hnone⟩ := hb
    refine ⟨_, s.onBus_quiet (·.busWrite (regAt p off) 0xF v) ?_, ?_⟩
    · rw [hd]
      exact hnone
    · dsimp only
      rw [hd]
      exact ⟨Dev.psWrite_held _ _ _ _ hlt, rfl, rfl⟩

end Sys2Proof.Machine
end

section
/-! Reads and writes through a table window (R34, R37, R80). -/

namespace Sys2Proof.Machine

/-! ## The CMD register of a window -/

/-- Where a window's CMD lies. -/
theorem windowCmd_place (k : PageKind) (b : Nat) (h : windowBase k = some b) : (b + 0x14) % 4 = 0 ∧ b + 0x14 < 0x1000 ∧ 0x30 ≤ b + 0x14 ∧
    isMfg k (b + 0x14) = false ∧ windowReg k (b + 0x14) = some 5 ∧ blockReg k (b + 0x14) = none := by
  cases k <;> cases h <;> decide +kernel

/-- What a command written to CMD runs. -/
theorem Dev.windowGo_runs (s : State) (p : Page) (base : Nat) (v : Word) (hb : s.busFree) (hh : s.dev.pageHeld p = false)
    (hw : windowBase (kindOf p) = some base) : s.dev.windowGo p v = s.dev.windowWrite p base 5 v := by
  obtain ⟨hal, hlt, hhead, hmfg, hreg, hblock⟩ := windowCmd_place _ base hw
  have hcmd : windowCmd p = some (regAt p (base + 0x14)) := by rw [windowCmd, hw, Option.map_some, regAt, Nat.add_assoc]
  have hps : reachesPs (p.val * 0x1000 + (base + 0x14)) = false := by
    rw [reachesPs, pageOf_page p _ hlt]
    dsimp only
    rw [page_mod p _ hlt, hblock]
  unfold Dev.windowGo
  rw [hcmd]
  dsimp only
  rw [Dev.busWrite_serves s p _ v hb hh hlt hal (fun h => absurd (hps.symm.trans h) Bool.false_ne_true), Dev.pageWrite]
  rw [if_neg (not_header (Or.inr hhead)), hmfg, if_neg Bool.false_ne_true, hreg, hw]
  rfl

/-- The four words that stand in DATA0 to DATA3. -/
def Dev.windowData (d : Dev) (p : Page) (base : Nat) : List Word := (List.range 4).map (fun j => d.reg p (base + 4 + 4 * j))

theorem Dev.windowData_getD (d : Dev) (p : Page) (base i : Nat) (hi : i < 4) :
    (d.windowData p base).getD i 0 = d.reg p (base + 4 + 4 * i) := by
  rw [Dev.windowData, List.getD_eq_getElem?_getD, List.getElem?_map, List.getElem?_range hi]
  rfl

theorem Dev.windowWrite_read (d : Dev) (p : Page) (base : Nat) (active : Bool) :
    d.windowWrite p base 5 (word (1 + 4 * active.toNat)) = d.windowRead p base (d.reg p base).toNat active := by
  cases active <;> rfl

theorem Dev.windowWrite_put (d : Dev) (p : Page) (base : Nat) :
    d.windowWrite p base 5 2 = d.tablePut p (d.reg p base).toNat (d.windowData p base) := rfl

/-! ## A window read -/

/-- One word of an entry of `d` goes into its DATA register. -/
def Dev.windowWord (d : Dev) (p : Page) (base a : Nat) (active : Bool) (x : Dev) (i : Nat) : Dev :=
  match d.tableWord p a i active with
  | some w => x.setReg p (base + 4 + 4 * i) w
  | none => x.drawn.setReg p (base + 4 + 4 * i) (word (Config.freeNat x.fresh))

theorem Dev.windowRead_eq (d : Dev) (p : Page) (base a : Nat) (active : Bool) :
    d.windowRead p base a active = (List.range 4).foldl (d.windowWord p base a active) d := rfl

/-- A window read changes no entry and no header. -/
theorem Dev.windowRead_keeps (d : Dev) (p : Page) (base a : Nat) (active : Bool) :
    (d.windowRead p base a active).pages.tbl = d.pages.tbl ∧ (d.windowRead p base a active).pages.hdrs = d.pages.hdrs ∧
      (d.windowRead p base a active).asks = d.asks := by
  rw [Dev.windowRead_eq]
  refine foldl_keeps (fun x : Dev => x.pages.tbl = d.pages.tbl ∧ x.pages.hdrs = d.pages.hdrs ∧ x.asks = d.asks) _ (fun x i h => ?_) _ d
    ⟨rfl, rfl, rfl⟩
  unfold Dev.windowWord
  split <;> simpa using h

/-- The DATA registers of the words that are not left open hold them. -/
theorem Dev.windowWords_read (d : Dev) (p : Page) (base a : Nat) (active : Bool) (i : Nat) (w : Word)
    (hw : d.tableWord p a i active = some w) (l : List Nat) : ∀ x : Dev, i ∈ l ∨ x.reg p (base + 4 + 4 * i) = w →
      (l.foldl (d.windowWord p base a active) x).reg p (base + 4 + 4 * i) = w := by
  induction l with
  | nil => exact fun x h => h.resolve_left List.not_mem_nil
  | cons j l ih =>
    intro x h
    refine ih _ ?_
    by_cases hj : i = j
    · right
      rw [Dev.windowWord, ← hj, hw]
      exact Dev.reg_setReg_same _ _ _ _ _
    · refine h.imp (fun h => (List.mem_cons.mp h).resolve_left hj) (fun h => ?_)
      have hne : base + 4 + 4 * i ≠ base + 4 + 4 * j := by omega
      unfold Dev.windowWord
      split
      · rw [Dev.reg_setReg_offset _ _ _ _ _ hne, h]
      · rw [Dev.reg_setReg_offset _ _ _ _ _ hne, ← h]
        rfl

/-! ## A window write -/

/-- Two words of a page's tables of one key are the same word of the same entry. -/
theorem tblKey_inj {p : Page} {a b i j : Nat} (hi : i < 4) (hj : j < 4) (h : tblKey p a i = tblKey p b j) : a = b ∧ i = j := by
  unfold tblKey at h
  omega

/-- Words that are updated one after the other, each once: every one of them from what it was before. -/
theorem foldl_update {S : Type} (get : S → Nat → Word) (set : S → Nat → Word → S) (f : Nat → Word → Word)
    (hsame : ∀ x i w, get (set x i w) i = w) (hother : ∀ x i j w, i < 4 → j < 4 → j ≠ i → get (set x i w) j = get x j) (l : List Nat)
    (hn : l.Nodup) (hl : ∀ i ∈ l, i < 4) : ∀ x j, j < 4 →
      get (l.foldl (fun x i => set x i (f i (get x i))) x) j = if j ∈ l then f j (get x j) else get x j := by
  induction l with
  | nil => exact fun x j _ => by rw [List.foldl_nil, if_neg List.not_mem_nil]
  | cons i l ih =>
    intro x j hj
    obtain ⟨hil, hn⟩ := List.nodup_cons.mp hn
    have hi := hl i List.mem_cons_self
    rw [List.foldl_cons, ih hn (fun k hk => hl k (List.mem_cons_of_mem i hk)) _ j hj]
    by_cases hji : j = i
    · rw [hji, if_neg hil, hsame, if_pos List.mem_cons_self]
    · rw [hother _ _ _ _ hi hj hji]
      simp only [List.mem_cons, hji, false_or]

theorem range_four : (List.range 4).Nodup ∧ ∀ i ∈ List.range 4, i < 4 := ⟨List.nodup_range, fun _ h => List.mem_range.mp h⟩

/-- The stored bits of an entry, and every other entry. -/
theorem Dev.storeUnder_tw (d : Dev) (p : Page) (a : Nat) (ms : List Nat) (ws : List Word) (b i : Nat) (hi : i < 4) :
    (d.storeUnder p a ms ws).tw p b i = if b = a then d.merged p a i (word (ms.getD i 0)) (ws.getD i 0) else d.tw p b i := by
  obtain ⟨hnodup, hlt⟩ := range_four
  split
  · next hb =>
    rw [hb]
    exact (foldl_update (fun x j => Dev.tw x p a j) (fun x j w => Dev.setTw x p a j w)
      (fun j old => (old &&& ~~~ word (ms.getD j 0)) ||| (ws.getD j 0 &&& word (ms.getD j 0)))
      (fun x j w => x.tw_setTw_same p a j w)
      (fun x j k w hj hk hne => x.tw_setTw_other p p a a j k w (fun h => hne (tblKey_inj hk hj h).2)) _ hnodup hlt d i hi).trans
      (if_pos (List.mem_range.mpr hi))
  · next hb =>
    unfold Dev.storeUnder
    refine List.foldlRecOn (motive := fun x : Dev => x.tw p b i = d.tw p b i) _ _ rfl (fun x h j hj => ?_)
    exact (x.tw_setTw_other p p a b j i _ (fun hk => hb (tblKey_inj hi (hlt j hj) hk).1)).trans h

theorem Dev.storeUnder_asks (d : Dev) (p : Page) (a : Nat) (ms : List Nat) (ws : List Word) : (d.storeUnder p a ms ws).asks = d.asks := by
  unfold Dev.storeUnder
  refine foldl_keeps (fun x : Dev => x.asks = d.asks) _ (fun x i h => ?_) _ d rfl
  simpa using h

/-- A write of a shadowed entry outside a pending bow stores its shadow. -/
theorem Dev.storeShadow_tsw (d : Dev) (p : Page) (a : Nat) (ms : List Nat) (ws : List Word) (hc : (d.hdr p).commitPending = false) (i : Nat)
    (hi : i < 4) : (d.storeShadow p a ms ws).tsw p a i =
      (d.tsw p a i &&& ~~~ word (ms.getD i 0)) ||| (ws.getD i 0 &&& word (ms.getD i 0)) := by
  obtain ⟨hnodup, hlt⟩ := range_four
  unfold Dev.storeShadow
  rw [hc, if_neg Bool.false_ne_true]
  exact (foldl_update (fun x j => Dev.tsw x p a j) (fun x j w => Dev.setTsw x p a j w)
    (fun j old => (old &&& ~~~ word (ms.getD j 0)) ||| (ws.getD j 0 &&& word (ms.getD j 0)))
    (fun x j w => SMap.get_set_same _ _ _ _)
    (fun x j k w hj hk hne => SMap.get_set_other _ _ _ _ _ (fun h => hne (tblKey_inj hk hj h).2)) _ hnodup hlt d i hi).trans
    (if_pos (List.mem_range.mpr hi))

theorem Dev.storeShadow_keeps (d : Dev) (p : Page) (a : Nat) (ms : List Nat) (ws : List Word) (hc : (d.hdr p).commitPending = false) :
    (d.storeShadow p a ms ws).pages.tbl = d.pages.tbl ∧ (d.storeShadow p a ms ws).asks = d.asks := by
  unfold Dev.storeShadow
  rw [hc, if_neg Bool.false_ne_true]
  refine foldl_keeps (fun x : Dev => x.pages.tbl = d.pages.tbl ∧ x.asks = d.asks) _ (fun x i h => ?_) _ d ⟨rfl, rfl⟩
  simpa using h

/-- The shadowed entries of TM and AC. -/
theorem tables_shadowed (k : PageKind) (hk : k = .tm ∨ k = .ac) : ∀ r ∈ tables k, r.shadowed = true →
    (k = .tm ∧ 0x30100 ≤ r.lo ∧ r.hi < 0x40000) ∨ (k = .ac ∧ 0x3000 ≤ r.lo ∧ r.hi < 0x3400) := by
  obtain rfl | rfl := hk <;> decide +kernel

theorem tblRange_some {k : PageKind} {a : Nat} {r : TblRange} (h : tblRange k a = some r) : r ∈ tables k ∧ r.lo ≤ a ∧ a ≤ r.hi := by
  refine ⟨List.mem_of_find?_eq_some h, ?_⟩
  have hf := List.find?_some h
  rw [Bool.and_eq_true, Bool.and_eq_true, decide_eq_true_eq, decide_eq_true_eq] at hf
  exact hf.1

/-- A write to a shadowed entry of TM or AC. -/
theorem Dev.tablePut_shadowed (d : Dev) (p : Page) (a : Nat) (r : TblRange) (ws : List Word) (hp : p = Pg.tm ∨ p = Pg.ac)
    (hr : tblRange (kindOf p) a = some r) (hs : r.shadowed = true) : d.tablePut p a ws = d.storeShadow p a r.rw ws := by
  obtain ⟨hmem, hlo, hhi⟩ := tblRange_some hr
  have htm : kindOf Pg.tm = .tm := by decide
  have hac : kindOf Pg.ac = .ac := by decide
  have hrw : entryRw p a = r.rw := by rw [entryRw, hr]
  have hk : kindOf p = .tm ∨ kindOf p = .ac := by
    obtain rfl | rfl := hp
    · exact Or.inl htm
    · exact Or.inr hac
  have hhas : tableHas p a = true := by
    rw [tableHas, hr, if_neg]
    · rfl
    · obtain h | h := hk <;> rw [h] <;> decide
  rw [← hrw]
  unfold Dev.tablePut
  rw [hhas, Bool.not_true, if_neg Bool.false_ne_true]
  obtain rfl | rfl := hp
  · obtain ⟨-, hl, hh⟩ | ⟨h, -⟩ := tables_shadowed _ hk r hmem hs
    · rw [htm]
      dsimp only
      rw [Dev.tmTable, if_neg (by omega), if_neg (by omega), if_neg (by omega), if_pos (by omega)]
    · exact absurd (htm.symm.trans h) (by decide)
  · obtain ⟨h, -⟩ | ⟨-, hl, hh⟩ := tables_shadowed _ hk r hmem hs
    · exact absurd (hac.symm.trans h) (by decide)
    · rw [hac]
      dsimp only
      rw [Dev.acTable, if_neg (by omega), if_neg (by omega), if_pos (by omega)]

/-- A write to an entry of CC that is no cost row. -/
theorem Dev.tablePut_cc (d : Dev) (a : Nat) (ws : List Word) (ha : 0x200 ≤ a) (hh : tableHas Pg.cc a = true) :
    d.tablePut Pg.cc a ws = d.storeWs Pg.cc a ws := by
  have hk : kindOf Pg.cc = .cc := by decide
  unfold Dev.tablePut Dev.ccTable
  rw [hh, hk]
  simp [Nat.not_lt.mpr ha]

/-- An address without an entry changes nothing. -/
theorem Dev.tablePut_none (d : Dev) (p : Page) (a : Nat) (ws : List Word) (hh : tableHas p a = false) : d.tablePut p a ws = d := by
  rw [Dev.tablePut, hh]
  rfl

/-- A write to a shadowed entry while a bow is pending. -/
theorem Dev.storeShadow_locked (d : Dev) (p : Page) (a : Nat) (ms : List Nat) (ws : List Word) (hc : (d.hdr p).commitPending = true) :
    d.storeShadow p a ms ws = d.shadowLocked p := by
  rw [Dev.storeShadow, if_pos hc]

/-! ## The obligation -/

/-- What TABLE_WRITE runs on a free bus. -/
theorem State.tableWrite_runs (s : State) (p : Page) (base : Nat) (hb : s.busFree) (hh : s.dev.pageHeld p = false)
    (hw : windowBase (kindOf p) = some base) (ha : (s.dev.tablePut p (s.dev.reg p base).toNat (s.dev.windowData p base)).asks = []) :
    exec (.tableWrite p) s = .next { s with dev := s.dev.tablePut p (s.dev.reg p base).toNat (s.dev.windowData p base) } := by
  have hd := Dev.windowGo_runs s p base 2 hb hh hw
  rw [Dev.windowWrite_put] at hd
  rw [← hd] at ha ⊢
  exact s.onBus_quiet (·.windowGo p 2) ha

/-- Settles O23: a command on CMD by the operation it runs, and each write by its entry's rule. -/
theorem tableWindows : Obligations.TableWindows := by
  refine ⟨fun s p base active hb hh hw => ?_, fun s base a hb hh hw ha h200 hhas => ?_, fun s p base a r hb hh hp hw ha hr hs hc => ?_,
    fun s p base a r hb hh hp hw ha hr hs hc => ?_, fun s p base hb hh hw hhas => ?_⟩
  case refine_1 =>
    have hd := Dev.windowGo_runs s p base (word (1 + 4 * active.toNat)) hb hh hw
    rw [Dev.windowWrite_read] at hd
    obtain ⟨htbl, hhdrs, hasks⟩ := s.dev.windowRead_keeps p base (s.dev.reg p base).toNat active
    obtain ⟨-, -, -, hnone⟩ := hb
    refine ⟨_, s.onBus_quiet (·.windowGo p (word (1 + 4 * active.toNat))) ?_, ?_⟩
    · rw [hd, hasks, hnone]
    · dsimp only
      rw [hd]
      exact ⟨htbl, hhdrs, fun i w hi hword => s.dev.windowWords_read p base _ active i w hword _ _ (Or.inl (List.mem_range.mpr hi))⟩
  case refine_2 =>
    have hput := s.dev.tablePut_cc a (s.dev.windowData Pg.cc base) h200 hhas
    rw [ha] at hput
    refine ⟨_, s.tableWrite_runs Pg.cc base hb hh hw ?_, fun b i hi => ?_⟩
    · obtain ⟨-, -, -, hnone⟩ := hb
      rw [hput, Dev.storeWs, Dev.storeUnder_asks, hnone]
    · dsimp only
      rw [hput, Dev.storeWs, Dev.storeUnder_tw _ _ _ _ _ _ _ hi, Dev.windowData_getD _ _ _ _ hi, ← ha]
  case refine_3 =>
    have hput := s.dev.tablePut_shadowed p a r (s.dev.windowData p base) hp hr hs
    rw [ha] at hput
    obtain ⟨htbl, hasks⟩ := s.dev.storeShadow_keeps p (s.dev.reg p base).toNat r.rw (s.dev.windowData p base) hc
    obtain ⟨-, -, -, hnone⟩ := id hb
    refine ⟨_, s.tableWrite_runs p base hb hh hw ?_, ?_⟩
    · rw [hput, hasks, hnone]
    · dsimp only
      rw [hput]
      refine ⟨htbl, fun i hi => ?_⟩
      rw [ha, s.dev.storeShadow_tsw _ _ _ _ hc i hi, Dev.windowData_getD _ _ _ _ hi]
  case refine_4 =>
    have hput := s.dev.tablePut_shadowed p a r (s.dev.windowData p base) hp hr hs
    rw [ha, Dev.storeShadow_locked _ _ _ _ _ hc] at hput
    have hk : kindOf p ≠ .dir := by obtain rfl | rfl := hp <;> decide
    have hdet := s.dev.shadowLocked_detected p hk
    obtain ⟨-, -, htbl, htblSh, hasks, -⟩ := hdet.keeps
    obtain ⟨-, -, -, hnone⟩ := id hb
    refine ⟨_, s.tableWrite_runs p base hb hh hw ?_, ?_⟩
    · rw [hput, hasks]
      simp only [Dev.bumpSat_keeps, hnone]
    · dsimp only
      rw [hput, htbl, htblSh]
      exact ⟨by simp only [Dev.bumpSat_keeps], by simp only [Dev.bumpSat_keeps], hdet.raised (by decide)⟩
  case refine_5 =>
    have hput := s.dev.tablePut_none p _ (s.dev.windowData p base) hhas
    obtain ⟨-, -, -, hnone⟩ := id hb
    refine ⟨_, s.tableWrite_runs p base hb hh hw ?_, ?_⟩
    · rw [hput, hnone]
    · dsimp only
      rw [hput]
      exact ⟨rfl, rfl, rfl⟩

end Sys2Proof.Machine
end

section
/-! Words of the tables: what a replaced field reads as, and which words stay. -/

namespace Sys2Proof.Machine

/-- Table words stay where the tables stay. -/
theorem Dev.tw_congr {d e : Dev} (h : e.pages.tbl = d.pages.tbl) (p : Page) (a i : Nat) : e.tw p a i = d.tw p a i := by
  rw [Dev.tw, h, Dev.tw]

theorem Dev.tf_congr {d e : Dev} (h : e.pages.tbl = d.pages.tbl) (p : Page) (a i hi lo : Nat) : e.tf p a i hi lo = d.tf p a i hi lo := by
  rw [Dev.tf, Dev.tw_congr h, Dev.tf]

theorem Dev.tb_congr {d e : Dev} (h : e.pages.tbl = d.pages.tbl) (p : Page) (a i n : Nat) : e.tb p a i n = d.tb p a i n := by
  rw [Dev.tb, Dev.tw_congr h, Dev.tb]

theorem Dev.rb_congr {d e : Dev} (h : e.pages.regs = d.pages.regs) (p : Page) (off n i : Nat) : e.rb p off n i = d.rb p off n i := by
  rw [Dev.rb, Dev.reg, h, Dev.rb, Dev.reg]

@[simp] theorem Dev.tw_setTf_same (d : Dev) (p : Page) (a i hi lo v : Nat) : (d.setTf p a i hi lo v).tw p a i = putFld hi lo v (d.tw p a i) :=
  d.tw_setTw_same p a i _

/-- A field of a table word reads as the number it was given, cut to its width. -/
theorem Dev.tf_setTf_same (d : Dev) (p : Page) (a i hi lo v : Nat) (h : lo ≤ hi) (h32 : hi < 32) :
    (d.setTf p a i hi lo v).tf p a i hi lo = v % 2 ^ (hi - lo + 1) := by
  rw [Dev.tf, Dev.tw_setTf_same, fld_putFld_same _ _ _ _ h h32]

/-- Another field of the word stays. -/
theorem Dev.tf_setTf_field (d : Dev) (p : Page) (a i hi lo v x y : Nat) (h : lo ≤ hi) (hy : y ≤ x) (hd : x < lo ∨ hi < y) :
    (d.setTf p a i hi lo v).tf p a i x y = d.tf p a i x y := by
  rw [Dev.tf, Dev.tw_setTf_same, fld_putFld_other _ _ _ _ _ _ h hy hd, Dev.tf]

/-- Words of the page's other entries stay. -/
theorem Dev.tw_setTf_entry (d : Dev) (p : Page) (a b i j hi lo v : Nat) (hlt : i < 4) (hj : j < 4) (h : b ≠ a) :
    (d.setTf p a i hi lo v).tw p b j = d.tw p b j :=
  Dev.tw_setTw_other _ _ _ _ _ _ _ _ (fun hk => h (tblKey_inj hj hlt hk).1)

end Sys2Proof.Machine
end

section
/-! Voltage points, floors and lifts of the self-timed islands (R50 to R56). -/

namespace Sys2Proof.Machine

theorem Dev.lift_congr {d e : Dev} (h : e.pages.tbl = d.pages.tbl) (p : Page) : e.lift p = d.lift p := Dev.tf_congr h _ _ _ _ _

theorem Dev.floor_congr {d e : Dev} (h : e.pages.tbl = d.pages.tbl) (p : Page) : e.floor p = d.floor p := Dev.tf_congr h _ _ _ _ _

theorem Dev.aimVp_lt (d : Dev) (p : Page) : d.aimVp p < 8 := by
  unfold Dev.aimVp
  split <;> omega

/-! ## REQ_VP and GRANTED_VP -/

theorem Dev.setReqVp_selfTimed (d : Dev) (p : Page) (vp : Fin 8) (h : (kindOf p).selfTimed = true) :
    d.setReqVp p vp = d.modHdr p (fun x => { x with reqVp := vp }) := if_pos h

theorem Dev.paceMeter_selfTimed (d : Dev) (p : Page) (pace : Nat) (h : (kindOf p).selfTimed = true) :
    d.paceMeter p pace = d.modHdr p (fun x => { x with pace := min pace 65535 }) := if_pos h

/-- An item of an island whose point moved gives no cost sample (R68). -/
def Item.unsampled (p : Page) (i : Item) : Item := if i.page? = some p then { i with eligible := false } else i

theorem Item.unsampled_of_page (p : Page) (i : Item) (h : (i.unsampled p).page? = some p) : (i.unsampled p).eligible = false := by
  unfold Item.unsampled at h ⊢
  split at h
  · next hp => rw [if_pos hp]
  · next hp => exact absurd h hp

/-- The supply has settled at another point: the header shows it, and the island's items give no sample. -/
theorem Dev.vpSettled_moves (d : Dev) (p : Page) (hk : (kindOf p).selfTimed = true) (hne : (d.hdr p).grantedVp.val ≠ d.aimVp p) :
    ∃ r, d.vpSettled p = { d.modHdr p (fun h => { h with grantedVp := Fin.ofNat 8 (d.aimVp p) }) with
      en := { d.en with shortRun := r }, wk := { d.wk with items := d.wk.items.map (Item.unsampled p) } } := by
  have hmod : Fin.val (Fin.ofNat 8 (d.aimVp p)) = d.aimVp p := Nat.mod_eq_of_lt (d.aimVp_lt p)
  have hc : ¬(!(kindOf p).selfTimed || decide ((d.hdr p).grantedVp = Fin.ofNat 8 (d.aimVp p))) = true := by
    simp only [hk, Bool.not_true, Bool.false_or, decide_eq_true_eq]
    exact fun h => hne ((congrArg Fin.val h).trans hmod)
  unfold Dev.vpSettled
  dsimp only
  rw [if_neg hc]
  split
  · exact ⟨_, rfl⟩
  · exact ⟨d.en.shortRun, rfl⟩

theorem Dev.vpSettled_stays (d : Dev) (p : Page) (h : (d.hdr p).grantedVp.val = d.aimVp p) : d.vpSettled p = d := by
  have hg : (d.hdr p).grantedVp = Fin.ofNat 8 (d.aimVp p) := Fin.ext (h.trans (Nat.mod_eq_of_lt (d.aimVp_lt p)).symm)
  exact if_pos (by simp [hg])

/-! ## Intervals of the floor detector -/

/-- Another record of since when each island has held its floor with margin. -/
def Dev.heldFrom (d : Dev) (m : SMap (Option Nat)) : Dev := { d with en := { d.en with heldSince := m } }

/-- An interval of an island with a floor is short or full, whatever it does to the time for which the floor was held with margin. -/
theorem Dev.paceInterval_eq (d : Dev) (p : Page) (count : Nat) (hk : (kindOf p).hasFloor = true) (h0 : d.floor p ≠ 0) :
    ∃ m, d.paceInterval p count = if count < d.floor p then (d.heldFrom m).shortInterval p else (d.heldFrom m).fullInterval p := by
  have hc : ¬(!(kindOf p).hasFloor || decide (d.floor p = 0)) = true := by simp [hk, h0]
  unfold Dev.paceInterval
  dsimp only
  rw [if_neg hc]
  exact ⟨_, rfl⟩

theorem Dev.paceInterval_short (d : Dev) (p : Page) (count : Nat) (hk : (kindOf p).hasFloor = true) (h : count < d.floor p) :
    ∃ m, d.paceInterval p count = (d.heldFrom m).shortInterval p := by
  obtain ⟨m, he⟩ := d.paceInterval_eq p count hk (Nat.ne_zero_of_lt h)
  exact ⟨m, he.trans (if_pos h)⟩

theorem Dev.paceInterval_full (d : Dev) (p : Page) (count : Nat) (hk : (kindOf p).hasFloor = true) (h0 : 0 < d.floor p)
    (h : d.floor p ≤ count) : ∃ m, d.paceInterval p count = (d.heldFrom m).fullInterval p := by
  obtain ⟨m, he⟩ := d.paceInterval_eq p count hk (Nat.ne_zero_of_lt h0)
  exact ⟨m, he.trans (if_neg (Nat.not_lt.mpr h))⟩

/-- One more short interval in a row. -/
def Dev.shortCounted (d : Dev) (p : Page) : Dev :=
  { d with en := { d.en with shortRun := SMap.set (fun _ => 0) d.en.shortRun p.val (SMap.get (fun _ => 0) d.en.shortRun p.val + 1) } }

/-- The island one point higher, before PACE_LIFT is detected (R54). -/
def Dev.lifted (d : Dev) (p : Page) : Dev :=
  { d.setTf Pg.cc (0x400 + p.val) 1 2 0 (d.lift p + 1) with
    en := { d.en with liftedSince := SMap.set (fun _ => false) d.en.liftedSince p.val true } }

/-- The island in breach, before PACE_FLOOR_BREACH is detected (R55). -/
def Dev.breached (d : Dev) (p : Page) : Dev :=
  (({ d with en := { d.en with breach := SMap.set (fun _ => false) d.en.breach p.val true } } : Dev).setPersists p
    Evt.PACE_FLOOR_BREACH true).bumpTSat Pg.cc (0x400 + p.val) 1 31 16

/-- A short interval is counted; the second in a row lifts the island, or at VP7 breaches its floor. -/
theorem Dev.shortInterval_eq (d : Dev) (p : Page) : d.shortInterval p =
    if SMap.get (fun _ => 0) d.en.shortRun p.val + 1 < 2 then d.shortCounted p
    else if d.aimVp p < 7 then ((d.shortCounted p).lifted p).detect p Evt.PACE_LIFT
    else if (d.hdr p).grantedVp = 7 && !SMap.get (fun _ => false) d.en.breach p.val then
      ((d.shortCounted p).breached p).detect p Evt.PACE_FLOOR_BREACH
    else d.shortCounted p := rfl

theorem Dev.shortInterval_first (d : Dev) (p : Page) (h : SMap.get (fun _ => 0) d.en.shortRun p.val = 0) :
    d.shortInterval p = d.shortCounted p ∧ SMap.get (fun _ => 0) (d.shortCounted p).en.shortRun p.val = 1 := by
  constructor
  · rw [Dev.shortInterval_eq, h, if_pos (by decide)]
  · simp [Dev.shortCounted, h]

theorem Dev.shortInterval_lifts (d : Dev) (p : Page) (hrun : 0 < SMap.get (fun _ => 0) d.en.shortRun p.val) (ha : d.aimVp p < 7) :
    d.shortInterval p = ((d.shortCounted p).lifted p).detect p Evt.PACE_LIFT := by
  rw [Dev.shortInterval_eq, if_neg (by omega), if_pos ha]

theorem Dev.shortInterval_breaches (d : Dev) (p : Page) (hrun : 0 < SMap.get (fun _ => 0) d.en.shortRun p.val) (ha : d.aimVp p = 7)
    (hg : (d.hdr p).grantedVp = 7) (hb : SMap.get (fun _ => false) d.en.breach p.val = false) :
    d.shortInterval p = ((d.shortCounted p).breached p).detect p Evt.PACE_FLOOR_BREACH := by
  rw [Dev.shortInterval_eq, if_neg (by omega), if_neg (by omega), hg, hb, if_pos (by decide)]

/-- An island below VP7 has a lift below 7. -/
theorem Dev.lift_lt_of_aimVp (d : Dev) (p : Page) (ht : d.en.tripped = false) (ha : d.aimVp p < 7) : d.lift p < 7 := by
  rw [Dev.aimVp, ht, if_neg Bool.false_ne_true] at ha
  omega

theorem Dev.lifted_lift (d : Dev) (p : Page) (h : d.lift p < 7) : (d.lifted p).lift p = d.lift p + 1 := by
  have ht := Dev.tf_setTf_same d Pg.cc (0x400 + p.val) 1 2 0 (d.lift p + 1) (by decide) (by decide)
  exact ht.trans (Nat.mod_eq_of_lt (Nat.succ_lt_succ h))

theorem Dev.breached_lift (d : Dev) (p : Page) : (d.breached p).lift p = d.lift p := by
  rw [Dev.breached, Dev.bumpTSat, Dev.lift, Dev.tf_setTf_field _ _ _ _ _ _ _ _ _ (by decide) (by decide) (by decide)]
  rfl

theorem Dev.breached_persists (d : Dev) (p : Page) : bit Evt.PACE_FLOOR_BREACH ((d.breached p).hdr p).persists = true := by
  have hh : (d.breached p).hdr p = { d.hdr p with persists := putBit Evt.PACE_FLOOR_BREACH true (d.hdr p).persists } :=
    SMap.get_set_same _ _ _ _
  rw [hh]
  exact bit_putBit_same _ _ _ (by decide)

theorem Dev.breached_breach (d : Dev) (p : Page) : SMap.get (fun _ => false) (d.breached p).en.breach p.val = true := by
  simp [Dev.breached, Dev.bumpTSat, Dev.setPersists]

/-- An interval that meets the floor changes no more than the island's run, its breach and the persisting condition. -/
theorem Dev.fullInterval_keeps (d : Dev) (p : Page) : SMap.get (fun _ => 0) (d.fullInterval p).en.shortRun p.val = 0 ∧
    SMap.get (fun _ => false) (d.fullInterval p).en.breach p.val = false ∧
    ((d.fullInterval p).hdr p) = { d.hdr p with persists := putBit Evt.PACE_FLOOR_BREACH false (d.hdr p).persists } ∧
    (d.fullInterval p).pages.tbl = d.pages.tbl := by
  unfold Dev.fullInterval Dev.setPersists
  refine ⟨by simp, by simp, ?_, by simp⟩
  rw [Dev.hdr_modHdr_same]
  rfl

/-- PACE_LIFT and PACE_FLOOR_BREACH neither retire a unit nor reset a page. -/
theorem paceSources_act (k : PageKind) (src : Nat) (h : src = Evt.PACE_LIFT ∨ src = Evt.PACE_FLOOR_BREACH) (hk : k.hasFloor = true) :
    k ≠ .dir ∧ (evDesc k src).act ≠ .retire ∧ (evDesc k src).hang = false := by
  obtain rfl | rfl := h <;> revert hk <;> cases k <;> decide

theorem Dev.detect_paceSource (d : Dev) (p : Page) (src : Nat) (h : src = Evt.PACE_LIFT ∨ src = Evt.PACE_FLOOR_BREACH)
    (hk : (kindOf p).hasFloor = true) : Detected d (d.detect p src) p src := by
  obtain ⟨hd, ha, hh⟩ := paceSources_act _ src h hk
  exact d.detect_detected p src hd ha hh

theorem Detected.persists {d e : Dev} {p : Page} {src : Nat} (h : Detected d e p src) : (e.hdr p).persists = (d.hdr p).persists := by
  obtain ⟨st, lo, hi, l, x, cs, -, he⟩ := h.hdr
  rw [he]

theorem Detected.lift {d e : Dev} {p : Page} {src : Nat} (h : Detected d e p src) (q : Page) : e.lift q = d.lift q := by
  obtain ⟨-, -, htbl, -⟩ := h.keeps
  exact Dev.lift_congr htbl q

/-! ## Release -/

/-- The island one point lower; its time above the floor begins again. -/
def Dev.released (d : Dev) (p : Page) : Dev :=
  { d.setTf Pg.cc (0x400 + p.val) 1 2 0 (d.lift p - 1) with en := { d.en with
    lastRelease := SMap.set (fun _ => 0) d.en.lastRelease p.val d.nowNs
    liftedSince := SMap.set (fun _ => false) d.en.liftedSince p.val false
    heldSince := SMap.set (fun _ => none) d.en.heldSince p.val (some d.nowNs) } }

/-- After 100 ms above the floor with margin an island that was not lifted again is released by one point (R56). -/
theorem Dev.liftRelease_due (d : Dev) (p : Page) (since : Nat) (hs : SMap.get (fun _ => none) d.en.heldSince p.val = some since)
    (hl : 0 < d.lift p) (ht : since + 100000000 ≤ d.nowNs) (ha : SMap.get (fun _ => false) d.en.liftedSince p.val = false) :
    d.liftRelease p = d.released p := by
  have hc : ¬(decide (d.lift p = 0) || decide (d.nowNs < since + 100000000) ||
      (false && decide (SMap.get (fun _ => 0) d.en.lastRelease p.val ≠ 0) &&
        decide (d.nowNs < SMap.get (fun _ => 0) d.en.lastRelease p.val + 1000000000))) = true := by
    simp only [Bool.false_and, Bool.or_false, Bool.or_eq_true, decide_eq_true_eq]
    omega
  unfold Dev.liftRelease
  dsimp only
  rw [hs, ha]
  exact if_neg hc

theorem Dev.released_lift (d : Dev) (p : Page) : (d.released p).lift p = d.lift p - 1 := by
  have ht := Dev.tf_setTf_same d Pg.cc (0x400 + p.val) 1 2 0 (d.lift p - 1) (by decide) (by decide)
  have hlt : d.lift p < 8 := Nat.mod_lt _ (by decide)
  exact ht.trans (Nat.mod_eq_of_lt (by omega))

theorem Dev.liftRelease_short (d : Dev) (p : Page) (h : SMap.get (fun _ => none) d.en.heldSince p.val = none) : d.liftRelease p = d := by
  unfold Dev.liftRelease
  dsimp only
  rw [h]

/-! ## The obligation -/

/-- Settles O19: each clause by the equation of its operation; what a detection leaves is said once in `Detected`. -/
theorem voltageFollowsPace : Obligations.VoltageFollowsPace := by
  refine ⟨fun s p vp hk => ⟨_, rfl, ?_⟩, fun s p hk => ⟨_, rfl, ?_⟩, fun s p count hk hc hr => ⟨_, rfl, ?_⟩,
    fun s p count hk hc ht hr ha => ⟨_, rfl, ?_⟩, fun s p count hk hc hr ha hg hb => ⟨_, rfl, ?_⟩,
    fun s p count hk h0 hc => ⟨_, rfl, ?_⟩, fun s p pace hk => ⟨_, rfl, ?_⟩, fun s p since hs hl ht ha => ⟨_, rfl, ?_⟩,
    fun s p hs => ?_⟩
  case refine_9 =>
    have he : exec (.liftRelease p) s = .next { s with dev := s.dev.liftRelease p } := rfl
    rw [he, s.dev.liftRelease_short p hs]
  all_goals dsimp only
  case refine_1 =>
    rw [Dev.setReqVp_selfTimed _ _ _ hk, Dev.hdr_modHdr_same]
    exact ⟨rfl, rfl, Dev.lift_congr (by simp) p, fun q hq => Dev.hdr_modHdr_other _ _ _ _ hq, by simp⟩
  case refine_2 =>
    by_cases hne : (s.dev.hdr p).grantedVp.val = s.dev.aimVp p
    · rw [s.dev.vpSettled_stays p hne]
      exact ⟨hne, rfl, fun _ _ => rfl, rfl, fun h => absurd hne h⟩
    · obtain ⟨r, he⟩ := s.dev.vpSettled_moves p hk hne
      have hh : ∀ q, (s.dev.vpSettled p).hdr q = (s.dev.modHdr p (fun h => { h with grantedVp := Fin.ofNat 8 (s.dev.aimVp p) })).hdr q :=
        fun q => Dev.hdr_congr (by rw [he]) q
      rw [hh, Dev.hdr_modHdr_same]
      refine ⟨Nat.mod_eq_of_lt (s.dev.aimVp_lt p), rfl, fun q hq => (hh q).trans (Dev.hdr_modHdr_other _ _ _ _ hq), by rw [he]; simp, ?_⟩
      rw [he]
      intro _ i hi hp
      obtain ⟨j, -, rfl⟩ := List.mem_map.mp hi
      exact j.unsampled_of_page p hp
  case refine_3 =>
    obtain ⟨m, he⟩ := s.dev.paceInterval_short p count hk hc
    obtain ⟨hd, hrun⟩ := (s.dev.heldFrom m).shortInterval_first p hr
    rw [he, hd]
    exact ⟨rfl, rfl, hrun⟩
  case refine_4 =>
    obtain ⟨m, he⟩ := s.dev.paceInterval_short p count hk hc
    generalize hx : (s.dev.heldFrom m).shortCounted p = x
    have hxl : x.lift p = s.dev.lift p := by rw [← hx]; rfl
    have hxh : x.pages.hdrs = s.dev.pages.hdrs := by rw [← hx]; rfl
    have hdet := (x.lifted p).detect_paceSource p Evt.PACE_LIFT (.inl rfl) hk
    rw [he, (s.dev.heldFrom m).shortInterval_lifts p hr ha, hx, hdet.lift, x.lifted_lift p (hxl ▸ s.dev.lift_lt_of_aimVp p ht ha), hxl]
    exact ⟨rfl, hdet.raised (by decide), fun q hq => (hdet.others q hq).trans (Dev.hdr_congr hxh q)⟩
  case refine_5 =>
    obtain ⟨m, he⟩ := s.dev.paceInterval_short p count hk hc
    generalize hx : (s.dev.heldFrom m).shortCounted p = x
    have hxl : x.lift p = s.dev.lift p := by rw [← hx]; rfl
    have hdet := (x.breached p).detect_paceSource p Evt.PACE_FLOOR_BREACH (.inr rfl) hk
    obtain ⟨-, -, -, -, -, -, -, hen, -⟩ := hdet.keeps
    rw [he, (s.dev.heldFrom m).shortInterval_breaches p hr ha hg hb, hx, hdet.lift, x.breached_lift, hxl, hdet.persists, hen]
    exact ⟨rfl, hdet.raised (by decide), x.breached_persists p, x.breached_breach p⟩
  case refine_6 =>
    obtain ⟨m, he⟩ := s.dev.paceInterval_full p count hk h0 hc
    obtain ⟨hrun, hbr, hhdr, htbl⟩ := (s.dev.heldFrom m).fullInterval_keeps p
    rw [he, hhdr]
    exact ⟨hrun, hbr, bit_putBit_same _ _ _ (by decide), rfl, htbl⟩
  case refine_7 =>
    rw [Dev.paceMeter_selfTimed _ _ _ hk, Dev.hdr_modHdr_same]
    exact ⟨rfl, rfl, fun q hq => Dev.hdr_modHdr_other _ _ _ _ hq⟩
  case refine_8 =>
    rw [s.dev.liftRelease_due p since hs hl ht ha]
    exact ⟨s.dev.released_lift p, rfl, SMap.get_set_same _ _ _ _⟩

end Sys2Proof.Machine
end

section
/-! Forcing classes to their fallbacks and back (R60, R77). -/

namespace Sys2Proof.Machine

/-- FORCE_FB of each of some classes. -/
def Dev.forceEach (d : Dev) (cs : List Nat) (b : Bool) : Dev := cs.foldl (fun d c => d.setForce c b) d

theorem Dev.forceAll_eq (d : Dev) (cs : List Nat) : d.forceAll cs = d.forceEach cs true := rfl

theorem Dev.mem_unforced {d : Dev} {cs : List Nat} {level c : Nat} :
    c ∈ d.unforced cs level ↔ c ∈ cs ∧ d.classLevel c = level ∧ d.classForced c = false := by
  simp [Dev.unforced]

theorem Dev.setForce_forced (d : Dev) (c k : Nat) (b : Bool) : (d.setForce c b).classForced k = if k = c then b else d.classForced k := by
  unfold Dev.setForce Dev.classForced Dev.tb
  split
  · next h =>
    rw [h, Dev.tw_setTf_same]
    exact bit_putBit_same 5 b _ (by decide)
  · next h => rw [Dev.tw_setTf_entry _ _ _ _ _ _ _ _ _ (by decide) (by decide) (by omega)]

/-- A class reads what it was forced to, and any other as before. -/
theorem Dev.forceEach_forced (cs : List Nat) (b : Bool) (k : Nat) : ∀ d : Dev,
    (d.forceEach cs b).classForced k = if k ∈ cs then b else d.classForced k := by
  induction cs with
  | nil => exact fun d => by rw [if_neg List.not_mem_nil]; rfl
  | cons c cs ih =>
    intro d
    have hstep : d.forceEach (c :: cs) b = (d.setForce c b).forceEach cs b := rfl
    rw [hstep, ih, Dev.setForce_forced]
    by_cases hk : k = c
    · simp [hk]
    · simp [hk, List.mem_cons]

/-- Forcing leaves registers and ledger. -/
theorem Dev.forceEach_keeps (d : Dev) (cs : List Nat) (b : Bool) : (d.forceEach cs b).pages.regs = d.pages.regs ∧ (d.forceEach cs b).en = d.en := by
  refine foldl_keeps (fun x : Dev => x.pages.regs = d.pages.regs ∧ x.en = d.en) _ (fun x c h => ?_) cs d ⟨rfl, rfl⟩
  simpa only [Dev.setForce, Dev.setTf_keeps] using h

end Sys2Proof.Machine
end

section
/-! Firmware's plan and the temperature policy (R57 to R60). -/

namespace Sys2Proof.Machine

/-! ## The islands -/

theorem mem_islands {p : Page} : p ∈ islands ↔ (kindOf p).selfTimed = true := by
  have hp : pg p.val = p := Fin.ext (Nat.mod_eq_of_lt p.isLt)
  unfold islands
  rw [List.mem_filter, List.mem_map]
  exact ⟨fun h => h.2, fun h => ⟨⟨p.val, List.mem_range.mpr p.isLt, hp⟩, h⟩⟩

/-! ## Floors -/

/-- Of registers, headers, ledger and CC's entries, planned floors change the entries of the islands they are planned for alone. -/
structure FloorsOnly (d e : Dev) : Prop where
  regs : e.pages.regs = d.pages.regs
  hdrs : e.pages.hdrs = d.pages.hdrs
  en : e.en = d.en
  /-- every other entry of CC, and that of an island whose floor the host keeps -/
  entries : ∀ b, (∀ p : Page, b = 0x400 + p.val → d.tb Pg.cc b 0 16 = true) → e.tw Pg.cc b 0 = d.tw Pg.cc b 0

theorem FloorsOnly.refl (d : Dev) : FloorsOnly d d := ⟨rfl, rfl, rfl, fun _ _ => rfl⟩

theorem FloorsOnly.trans {d e f : Dev} (h : FloorsOnly d e) (h' : FloorsOnly e f) : FloorsOnly d f where
  regs := h'.regs.trans h.regs
  hdrs := h'.hdrs.trans h.hdrs
  en := h'.en.trans h.en
  entries b hb := (h'.entries b (fun p hp => by rw [Dev.tb, h.entries b hb]; exact hb p hp)).trans (h.entries b hb)

theorem Dev.planFloor_floorsOnly (d : Dev) (p : Page) : FloorsOnly d (d.planFloor p) := by
  unfold Dev.planFloor
  split
  · exact FloorsOnly.refl d
  · next hc =>
    simp only [Bool.or_eq_true, not_or, Bool.not_eq_true] at hc
    dsimp only
    generalize hy : (if kindOf p = .rb then d else d.drawn) = y
    have hpages : y.pages = d.pages := by rw [← hy]; split <;> rfl
    have hen : y.en = d.en := by rw [← hy]; split <;> rfl
    refine ⟨by simp [hpages], by simp [hpages], by simp [hen], fun b hb => ?_⟩
    have hne : b ≠ 0x400 + p.val := fun hbp => by
      have h16 := hb p hbp
      rw [hbp, hc.2] at h16
      exact absurd h16 Bool.false_ne_true
    rw [Dev.tw_setTf_entry _ _ _ _ _ _ _ _ _ (by decide) (by decide) hne]
    exact Dev.tw_congr (by rw [hpages]) _ _ _

theorem Dev.planFloors_floorsOnly (d : Dev) (l : List Page) : FloorsOnly d (l.foldl Dev.planFloor d) :=
  foldl_keeps (FloorsOnly d) _ (fun x p h => h.trans (x.planFloor_floorsOnly p)) l d (FloorsOnly.refl d)

/-! ## Points -/

/-- What a plan is computed from stands: registers, tables, temperatures, and of each header all but REQ_VP. -/
structure SamePlan (d e : Dev) : Prop where
  regs : e.pages.regs = d.pages.regs
  tbl : e.pages.tbl = d.pages.tbl
  en : e.en = d.en
  granted : ∀ p, (e.hdr p).grantedVp = (d.hdr p).grantedVp ∧ (e.hdr p).pace = (d.hdr p).pace

theorem SamePlan.refl (d : Dev) : SamePlan d d := ⟨rfl, rfl, rfl, fun _ => ⟨rfl, rfl⟩⟩

theorem SamePlan.trans {d e f : Dev} (h : SamePlan d e) (h' : SamePlan e f) : SamePlan d f where
  regs := h'.regs.trans h.regs
  tbl := h'.tbl.trans h.tbl
  en := h'.en.trans h.en
  granted p := ⟨(h'.granted p).1.trans (h.granted p).1, (h'.granted p).2.trans (h.granted p).2⟩

theorem SamePlan.holds {d e : Dev} (h : SamePlan d e) (p : Page) (n : Nat) : e.holds p n = d.holds p n := by
  rw [Dev.holds, Dev.floor_congr h.tbl, Dev.rf_congr h.regs, Dev.holds]

theorem SamePlan.predicted {d e : Dev} (h : SamePlan d e) (p : Page) (v : Nat) (t : Int) : e.predicted p v t = d.predicted p v t := by
  obtain ⟨hg, hp⟩ := h.granted p
  unfold Dev.predicted
  dsimp only
  rw [hg, hp]

/-- A point meets the floor with margin at both junctions. -/
def Dev.fitsFloor (d : Dev) (p : Page) (v : Nat) : Bool := d.holds p (d.predicted p v d.en.hot) && d.holds p (d.predicted p v d.en.cold)

theorem Dev.fitsFloor_iff (d : Dev) (p : Page) (v : Nat) : d.fitsFloor p v = true ↔
    d.holds p (d.predicted p v d.en.hot) = true ∧ d.holds p (d.predicted p v d.en.cold) = true := Bool.and_eq_true_iff

theorem SamePlan.fitsFloor {d e : Dev} (h : SamePlan d e) (p : Page) : e.fitsFloor p = d.fitsFloor p := by
  funext v
  rw [Dev.fitsFloor, h.en, h.predicted, h.predicted, h.holds, h.holds, Dev.fitsFloor]

theorem Dev.planVp_eq (d : Dev) (p : Page) : d.planVp p = ((List.range 8).find? (d.fitsFloor p)).getD 7 := rfl

theorem SamePlan.planVp {d e : Dev} (h : SamePlan d e) (p : Page) : e.planVp p = d.planVp p := by
  rw [Dev.planVp_eq, Dev.planVp_eq, h.fitsFloor]

/-- The planned point is the lowest that meets the floor, VP7 where none does (R57). -/
theorem Dev.planVp_lowest (d : Dev) (p : Page) : d.planVp p < 8 ∧ (d.planVp p = 7 ∨ d.fitsFloor p (d.planVp p) = true) ∧
    ∀ v, v < d.planVp p → ¬d.fitsFloor p v = true := by
  rw [Dev.planVp_eq]
  cases hf : (List.range 8).find? (d.fitsFloor p) with
  | none =>
    rw [List.find?_range_eq_none] at hf
    exact ⟨by decide, .inl rfl, fun v (hv : v < 7) => by simpa using hf v (by omega)⟩
  | some n =>
    obtain ⟨hn, hlt, hlow⟩ := List.find?_range_eq_some.mp hf
    exact ⟨List.mem_range.mp hlt, .inr hn, fun v hv => by simpa using hlow v hv⟩

/-- Without heat an island's REQ_VP becomes its planned point. -/
theorem Dev.planIsland_cool (d : Dev) (p : Page) (h : d.en.hotForce = false) : d.planIsland p = d.setReqVp p (Fin.ofNat 8 (d.planVp p)) := by
  unfold Dev.planIsland
  dsimp only
  rw [h, if_neg Bool.false_ne_true]

theorem Dev.setReqVp_samePlan (d : Dev) (p : Page) (v : Fin 8) : SamePlan d (d.setReqVp p v) := by
  unfold Dev.setReqVp
  split
  · refine ⟨by simp, by simp, by simp, fun q => ?_⟩
    by_cases hq : q = p
    · rw [hq, Dev.hdr_modHdr_same]
      exact ⟨rfl, rfl⟩
    · rw [Dev.hdr_modHdr_other _ _ _ _ hq]
      exact ⟨rfl, rfl⟩
  · exact SamePlan.refl d

theorem Dev.setReqVp_others (d : Dev) (p q : Page) (v : Fin 8) (h : q ≠ p) : (d.setReqVp p v).hdr q = d.hdr q := by
  unfold Dev.setReqVp
  split
  · exact Dev.hdr_modHdr_other _ _ _ _ h
  · rfl

theorem Dev.planIsland_samePlan (d : Dev) (p : Page) : SamePlan d (d.planIsland p) := d.setReqVp_samePlan p _

theorem Dev.planIslands_samePlan (d : Dev) (l : List Page) : SamePlan d (l.foldl Dev.planIsland d) :=
  foldl_keeps (SamePlan d) _ (fun x p h => h.trans (x.planIsland_samePlan p)) l d (SamePlan.refl d)

/-- After the plan of a list of islands each of them asks for its planned point. -/
theorem Dev.planIslands_reqVp (p : Page) (hk : (kindOf p).selfTimed = true) (l : List Page) : ∀ d : Dev, d.en.hotForce = false →
    p ∈ l ∨ (d.hdr p).reqVp.val = d.planVp p → ((l.foldl Dev.planIsland d).hdr p).reqVp.val = d.planVp p := by
  induction l with
  | nil => exact fun d _ h => h.resolve_left List.not_mem_nil
  | cons q l ih =>
    intro d hd hp
    have hs := d.planIsland_samePlan q
    rw [List.foldl_cons, ih (d.planIsland q) (by rw [hs.en]; exact hd) ?_, hs.planVp]
    rw [hs.planVp, d.planIsland_cool q hd]
    by_cases hq : p = q
    · right
      rw [← hq, Dev.setReqVp_selfTimed _ _ _ hk, Dev.hdr_modHdr_same]
      exact Nat.mod_eq_of_lt (d.planVp_lowest p).1
    · refine hp.imp (fun h => (List.mem_cons.mp h).resolve_left hq) (fun h => ?_)
      rw [d.setReqVp_others q p _ hq]
      exact h

/-! ## Re-planning -/

/-- A re-plan stores floors, and then only points. -/
theorem Dev.replan_steps (d : Dev) : ∃ e, FloorsOnly d e ∧ SamePlan e d.replan := by
  unfold Dev.replan
  split
  · exact ⟨d, FloorsOnly.refl d, SamePlan.refl d⟩
  · refine ⟨_, d.planFloors_floorsOnly islands, ?_⟩
    dsimp only
    split
    · exact Dev.planIslands_samePlan _ _
    · exact SamePlan.refl _

/-- With PACE_PLAN = 0 it stores floors alone. -/
theorem Dev.replan_floorsOnly (d : Dev) (h : d.rb Pg.cc Reg.CC_FW_CFG 0 = false) : FloorsOnly d d.replan := by
  have hf := d.planFloors_floorsOnly islands
  unfold Dev.replan
  split
  · exact FloorsOnly.refl d
  · dsimp only
    rw [Dev.rb_congr hf.regs, h]
    exact hf

/-- With PACE_PLAN = 1 every self-timed island asks for the point that its new floor needs. -/
theorem Dev.replan_reqVp (d : Dev) (hf : d.fwRuns = true) (hp : d.rb Pg.cc Reg.CC_FW_CFG 0 = true) (hh : d.en.hotForce = false)
    (p : Page) (hk : (kindOf p).selfTimed = true) : (d.replan.hdr p).reqVp.val = d.replan.planVp p := by
  have hfl := d.planFloors_floorsOnly islands
  generalize he : islands.foldl Dev.planFloor d = e at hfl
  have hr : d.replan = islands.foldl Dev.planIsland e := by
    unfold Dev.replan
    dsimp only
    rw [hf, he, Dev.rb_congr hfl.regs, hp]
    rfl
  rw [hr, (e.planIslands_samePlan islands).planVp]
  exact Dev.planIslands_reqVp p hk islands e (by rw [hfl.en]; exact hh) (.inl (mem_islands.mpr hk))

/-! ## Heat -/

/-- The sensors' readings change the junctions alone, beside CC's registers. -/
theorem Dev.setTemps_en (d : Dev) (hot cold : Int) (sensor : Nat) : (d.setTemps hot cold sensor).en = { d.en with hot := hot, cold := cold } ∧
    (d.setTemps hot cold sensor).pages.tbl = d.pages.tbl ∧ (d.setTemps hot cold sensor).sys = d.sys := by
  unfold Dev.setTemps
  dsimp only
  split <;> split <;> simp

/-- What the temperature policy leaves. -/
theorem Dev.heatPolicy_keeps (d : Dev) : d.heatPolicy.pages.regs = d.pages.regs ∧ d.heatPolicy.en.hot = d.en.hot ∧
    d.heatPolicy.en.cold = d.en.cold := by
  unfold Dev.heatPolicy
  split
  · exact ⟨rfl, rfl, rfl⟩
  · split
    · obtain ⟨hregs, hen⟩ := d.forceEach_keeps (d.unforced (List.range 64) 2 ++ d.unforced (List.range 64) 3) true
      dsimp only
      rw [Dev.forceAll_eq, hregs, hen]
      exact ⟨rfl, rfl, rfl⟩
    · split
      · obtain ⟨hregs, hen⟩ := d.forceEach_keeps d.en.heatForced false
        dsimp only
        rw [← Dev.forceEach, hregs, hen]
        exact ⟨rfl, rfl, rfl⟩
      · exact ⟨rfl, rfl, rfl⟩

/-- Above +110 °C every class of levels 2 and 3 is forced to its fallback (R60). -/
theorem Dev.heatPolicy_forces (d : Dev) (c : Nat) (hf : d.fwRuns = true) (hh : d.en.hotForce = false) (ht : 110 < d.en.hot) (hc : c < 64)
    (hl : d.classLevel c = 2 ∨ d.classLevel c = 3) : d.heatPolicy.classForced c = true ∧ d.heatPolicy.en.hotForce = true := by
  generalize hcs : d.unforced (List.range 64) 2 ++ d.unforced (List.range 64) 3 = cs
  have he : d.heatPolicy = { d.forceAll cs with en := { (d.forceAll cs).en with hotForce := true, heatForced := cs } } := by
    unfold Dev.heatPolicy
    dsimp only
    rw [hf, hh, hcs, decide_eq_true ht]
    rfl
  have hmem : c ∈ cs ∨ d.classForced c = true := by
    cases hfc : d.classForced c with
    | true => exact .inr rfl
    | false =>
      have hin : ∀ l, d.classLevel c = l → c ∈ d.unforced (List.range 64) l := fun l h =>
        Dev.mem_unforced.mpr ⟨List.mem_range.mpr hc, h, hfc⟩
      rw [← hcs, List.mem_append]
      exact .inl (hl.imp (hin 2) (hin 3))
  have hcl : (d.forceAll cs).classForced c = true := by
    rw [Dev.forceAll_eq, Dev.forceEach_forced]
    split
    · rfl
    · next hn => exact hmem.resolve_left hn
  rw [he]
  exact ⟨hcl, rfl⟩

/-- The state between the temperature policy and a re-plan. -/
def Dev.edged (d : Dev) (hot cold : Int) (sensor : Nat) (h c : BitVec 5) : Dev :=
  { (d.setTemps hot cold sensor).heatPolicy with en := { (d.setTemps hot cold sensor).heatPolicy.en with edgeHot := h, edgeCold := c } }

theorem Dev.tempEdge_cases (d : Dev) (hot cold : Int) (sensor : Nat) : ∃ h c,
    d.tempEdge hot cold sensor = d.edged hot cold sensor h c ∨ d.tempEdge hot cold sensor = (d.edged hot cold sensor h c).replan := by
  refine ⟨edgesAbove d.en.edgeHot hot, edgesAbove d.en.edgeCold cold, ?_⟩
  unfold Dev.tempEdge
  dsimp only
  split
  · exact .inr rfl
  · exact .inl rfl

/-- A re-plan or none: registers, energy and the class entries stand. -/
theorem Dev.tempEdge_keeps (d : Dev) (hot cold : Int) (sensor : Nat) : ∃ h c,
    (d.tempEdge hot cold sensor).pages.regs = (d.edged hot cold sensor h c).pages.regs ∧
    (d.tempEdge hot cold sensor).en = (d.edged hot cold sensor h c).en ∧
    ∀ k, k < 64 → (d.tempEdge hot cold sensor).classForced k = (d.edged hot cold sensor h c).classForced k := by
  obtain ⟨h, c, he | he⟩ := d.tempEdge_cases hot cold sensor
  · exact ⟨h, c, by rw [he], by rw [he], fun k _ => by rw [he]⟩
  · obtain ⟨f, hf, hp⟩ := (d.edged hot cold sensor h c).replan_steps
    refine ⟨h, c, ?_⟩
    rw [he]
    refine ⟨hp.regs.trans hf.regs, hp.en.trans hf.en, fun k hk => ?_⟩
    have hw := hf.entries (0x200 + k) (fun p hb => by omega)
    rw [Dev.classForced, Dev.tb_congr hp.tbl, Dev.tb, hw, Dev.classForced, Dev.tb]

/-- The coldest junction and the sensor in CC_TJ_NOW. -/
theorem tjNow_cold_sensor (hot cold : Int) (sensor : Fin 24) :
    fld 15 8 (word (unsigned 8 hot + unsigned 8 cold * 2 ^ 8 + sensor.val * 2 ^ 16)) = unsigned 8 cold ∧
      fld 23 16 (word (unsigned 8 hot + unsigned 8 cold * 2 ^ 8 + sensor.val * 2 ^ 16)) = sensor.val := by
  have hh : unsigned 8 hot < 256 := by unfold unsigned; omega
  have hc : unsigned 8 cold < 256 := by unfold unsigned; omega
  have hs := sensor.isLt
  simp only [fld, word_toNat, Nat.shiftRight_eq_div_pow]
  omega

/-! ## The obligation -/

/-- Settles O20: a re-plan stores floors and then points, each the lowest that fits; the policy forces before a re-plan, which leaves the
classes. -/
theorem plansAndTemperatures : Obligations.PlansAndTemperatures := by
  refine ⟨fun s hf hp hh => ⟨_, rfl, fun p hk => ?_⟩, fun s hp => ⟨_, rfl, ?_⟩, fun s hot cold sensor => ⟨_, rfl, ?_⟩,
    fun s hot cold sensor c hf hh ht hc hl => ⟨_, rfl, ?_⟩⟩ <;> dsimp only
  case refine_1 =>
    obtain ⟨-, hfits, hlow⟩ := s.dev.replan.planVp_lowest p
    rw [s.dev.replan_reqVp hf hp hh p hk]
    exact ⟨hfits.imp_right (Dev.fitsFloor_iff _ _ _).mp, fun v hv h => hlow v hv ((Dev.fitsFloor_iff _ _ _).mpr h)⟩
  case refine_2 =>
    have hr := s.dev.replan_floorsOnly hp
    refine ⟨hr.hdrs, hr.regs, fun p h16 => ?_⟩
    rw [Dev.floor, Dev.tf, hr.entries _ (fun _ _ => h16), Dev.floor, Dev.tf]
  case refine_3 =>
    obtain ⟨h, c, hregs, hen, -⟩ := s.dev.tempEdge_keeps hot cold sensor.val
    obtain ⟨hpr, hph, hpc⟩ := (s.dev.setTemps hot cold sensor.val).heatPolicy_keeps
    obtain ⟨hte, -, -⟩ := s.dev.setTemps_en hot cold sensor.val
    obtain ⟨-, -, -, hnow⟩ := s.dev.setTemps_keeps hot cold sensor.val
    have hrf : ∀ a b, (s.dev.tempEdge hot cold sensor.val).rf Pg.cc Reg.CC_TJ_NOW a b =
        fld a b (word (unsigned 8 hot + unsigned 8 cold * 2 ^ 8 + sensor.val * 2 ^ 16)) := fun a b => by
      rw [Dev.rf_congr (hregs.trans hpr), Dev.rf, hnow]
    obtain ⟨hcold, hsensor⟩ := tjNow_cold_sensor hot cold sensor
    rw [hrf, hrf, hrf, hen]
    exact ⟨hph.trans (by rw [hte]), hpc.trans (by rw [hte]), tjNow_hot _ _ _, hcold, hsensor⟩
  case refine_4 =>
    obtain ⟨h, e, -, hen, hcls⟩ := s.dev.tempEdge_keeps hot cold sensor.val
    obtain ⟨hte, htt, hts⟩ := s.dev.setTemps_en hot cold sensor.val
    have hforce := (s.dev.setTemps hot cold sensor.val).heatPolicy_forces c (by rw [Dev.fwRuns, hts]; exact hf) (by rw [hte]; exact hh)
      (by rw [hte]; exact ht) hc (by rw [Dev.classLevel, Dev.tf_congr htt]; exact hl)
    rw [hcls c hc, hen]
    exact hforce

end Sys2Proof.Machine
end

section
/-! The energy ledger and the budgets (R61 to R72). -/

namespace Sys2Proof.Machine

/-! ## Samples -/

theorem addHead_sum (w : List Nat) (n : Nat) : (addHead w n).sum = w.sum + n := by
  cases w with
  | nil => simp [addHead]
  | cons x xs => simp only [addHead, List.sum_cons]; omega

theorem Dev.sShort_eq (d : Dev) : d.sShort = d.en.shortW.sum := List.sum_eq_foldl.symm

theorem Dev.sLong_eq (d : Dev) : d.sLong = d.en.longW.sum := List.sum_eq_foldl.symm

/-- Meters have counted n µJ: both windows hold so much more, and nothing beside windows and meters changed in what the ledger keeps. -/
structure Metered (d e : Dev) (n : Nat) : Prop where
  short : e.sShort = d.sShort + n
  long : e.sLong = d.sLong + n
  en : ∃ m s l w, e.en = { d.en with meters := m, shortW := s, longW := l, meterW := w }
  wk : e.wk = d.wk

theorem Metered.refl (d : Dev) : Metered d d 0 := ⟨rfl, rfl, ⟨_, _, _, _, rfl⟩, rfl⟩

theorem Metered.trans {d e f : Dev} {m n : Nat} (h : Metered d e m) (h' : Metered e f n) : Metered d f (m + n) where
  short := by rw [h'.short, h.short, Nat.add_assoc]
  long := by rw [h'.long, h.long, Nat.add_assoc]
  en := by
    obtain ⟨m, s, l, w, he⟩ := h.en
    obtain ⟨m', s', l', w', hf⟩ := h'.en
    exact ⟨m', s', l', w', by rw [hf, he]⟩
  wk := h'.wk.trans h.wk

theorem Dev.bumpPair_keeps (d : Dev) (p : Page) (lo hi n : Nat) : (d.bumpPair p lo hi n).en = d.en ∧ (d.bumpPair p lo hi n).wk = d.wk := by
  simp only [Dev.bumpPair, Dev.setReg_keeps, and_self]

/-- A meter's count goes into its own buckets and into both windows. -/
theorem Dev.meterAdd_keeps (d : Dev) (m uj : Nat) : (∃ x w, (d.meterAdd m uj).en = { d.en with
    meters := x, meterW := w, shortW := addHead d.en.shortW uj, longW := addHead d.en.longW uj }) ∧ (d.meterAdd m uj).wk = d.wk := by
  unfold Dev.meterAdd
  dsimp only
  obtain ⟨hen, hwk⟩ := Dev.bumpPair_keeps { d with en := { d.en with
    meters := SMap.set (fun _ => 0) d.en.meters m (SMap.get (fun _ => 0) d.en.meters m + uj)
    meterW := SMap.set (fun _ => List.replicate 10 0) d.en.meterW m (addHead (d.meterW m) uj)
    shortW := addHead d.en.shortW uj
    longW := addHead d.en.longW uj } } Pg.cc Reg.CC_ENERGY_TOTAL_LO Reg.CC_ENERGY_TOTAL_HI uj
  exact ⟨⟨_, _, hen⟩, hwk⟩

theorem Dev.meterAdd_metered (d : Dev) (m uj : Nat) : Metered d (d.meterAdd m uj) uj := by
  obtain ⟨⟨x, w, hen⟩, hwk⟩ := d.meterAdd_keeps m uj
  refine ⟨?_, ?_, ⟨_, _, _, _, hen⟩, hwk⟩
  · rw [Dev.sShort_eq, hen, addHead_sum, Dev.sShort_eq]
  · rw [Dev.sLong_eq, hen, addHead_sum, Dev.sLong_eq]

/-- The sample of an update. -/
def Dev.sampled (d : Dev) (ms : List MeterDelta) : Dev := ms.foldl (fun d x => d.meterAdd x.meter.val x.uj) d

theorem Dev.sampled_metered (ms : List MeterDelta) : ∀ d : Dev, Metered d (d.sampled ms) (ms.map (·.uj)).sum := by
  induction ms with
  | nil => exact Metered.refl
  | cons x ms ih =>
    intro d
    rw [List.map_cons, List.sum_cons]
    exact (d.meterAdd_metered x.meter.val x.uj).trans (ih _)

/-! ## Energy of an item -/

/-- An item to which its island's and its DRAM's energy is credited, with so much taken from its reservation. -/
def Item.credited (island dram fall : Nat) (i : Item) : Item :=
  { i with energy := i.energy + island + dram, reserved := i.reserved - fall }

/-- An update's energy of one item: what the island spent on it leaves its reservation and R (R63, R68). -/
def Dev.creditItem (d : Dev) (ms : List MeterDelta) (moved : List Nat) (e : ItemEnergy) : Dev :=
  match d.item? e.ring.val e.seq with
  | none => d
  | some i => (d.release (min e.islandUj i.reserved)).modItem e.ring.val e.seq
      (Item.credited e.islandUj (dramShare ms moved e.bytes) (min e.islandUj i.reserved))

theorem Item.credited_name (island dram fall : Nat) (i : Item) :
    (i.credited island dram fall).ring = i.ring ∧ (i.credited island dram fall).seq = i.seq := ⟨rfl, rfl⟩

theorem Dev.creditItem_some (d : Dev) (ms : List MeterDelta) (moved : List Nat) (e : ItemEnergy) (i : Item)
    (h : d.item? e.ring.val e.seq = some i) : (d.creditItem ms moved e).item? e.ring.val e.seq =
      some (i.credited e.islandUj (dramShare ms moved e.bytes) (min e.islandUj i.reserved)) ∧
    (d.creditItem ms moved e).en = { d.en with reserved := d.en.reserved - min e.islandUj i.reserved } := by
  unfold Dev.creditItem
  rw [h]
  dsimp only
  rw [Dev.item?_modItem_same _ _ _ _ (Item.credited_name _ _ _), Dev.item?_congr (d := d) (e := d.release _) rfl, h]
  exact ⟨rfl, rfl⟩

/-! ## The end of an update -/

/-- BUDGET_OVER neither retires a unit nor resets its page. -/
theorem Dev.detect_budgetOver (d : Dev) : Detected d (d.detect Pg.cc Evt.CC_BUDGET_OVER) Pg.cc Evt.CC_BUDGET_OVER :=
  d.detect_detected _ _ (by decide) (by decide) (by decide)

theorem Detected.wk {d e : Dev} {p : Page} {src : Nat} (h : Detected d e p src) : e.wk = d.wk := by
  obtain ⟨hs, o, pd, he⟩ := h.rest
  rw [he]

/-- Excess is noted; entering it raises BUDGET_OVER (R66). -/
theorem Dev.checkOver_keeps (d : Dev) : (∃ x, d.checkOver.en = { d.en with overrun := x }) ∧ d.checkOver.wk = d.wk ∧
    (d.en.overrun = false → d.en.bShort < d.sShort → raised d.checkOver Pg.cc Evt.CC_BUDGET_OVER) := by
  unfold Dev.checkOver
  dsimp only
  generalize hx : (decide (d.en.bShort < d.sShort) || decide (d.en.bLong < d.sLong)) = x
  generalize hy : ({ d with en := { d.en with overrun := x } } : Dev) = y
  have hyen : y.en = { d.en with overrun := x } := by rw [← hy]
  have hywk : y.wk = d.wk := by rw [← hy]
  have hdet := y.detect_budgetOver
  split
  · obtain ⟨-, -, -, -, -, -, -, hen, -⟩ := hdet.keeps
    exact ⟨⟨x, hen.trans hyen⟩, hdet.wk.trans hywk, fun _ _ => hdet.raised (by decide)⟩
  · next hn =>
    refine ⟨⟨x, hyen⟩, hywk, fun ho hs => absurd ?_ hn⟩
    rw [← hx, ho, decide_eq_true hs]
    rfl

/-- DESCENDING is shown in CC's registers alone. -/
theorem Dev.showDescent_keeps (d : Dev) : d.showDescent.en = d.en ∧ d.showDescent.wk = d.wk ∧ d.showDescent.held = d.held := by
  simp only [Dev.showDescent, Dev.setRb_keeps, and_self]

/-- Without a descent the budgets stand. -/
theorem Dev.descendStep_still (d : Dev) (hs : d.en.descS = none) (hl : d.en.descL = none) : d.descendStep = d.showDescent := by
  have hstill : ∀ n target now, descend n target now none = (now, none) := fun _ _ _ => rfl
  have hS := hstill 1000 d.targetS d.en.bShort
  have hL := hstill 100000 d.targetL d.en.bLong
  rw [← hs] at hS
  rw [← hl] at hL
  unfold Dev.descendStep
  dsimp only
  rw [hS, hL]

/-- An update: the sample, the items' energy, a step of the descents and the test for excess. -/
theorem Dev.ledgerUpdate_eq (d : Dev) (ms : List MeterDelta) (items : List ItemEnergy) (moved : List Nat) (e : Dev)
    (he : items.foldl (fun d x => d.creditItem ms moved x) (d.sampled ms) = e) : d.ledgerUpdate ms items moved =
      if e.en.descS.isSome || e.en.descL.isSome then e.descendStep.checkOver.retestJobs else e.descendStep.checkOver := by
  rw [← he]
  rfl

theorem Dev.ledgerUpdate_still (d : Dev) (ms : List MeterDelta) (items : List ItemEnergy) (moved : List Nat) (e : Dev)
    (he : items.foldl (fun d x => d.creditItem ms moved x) (d.sampled ms) = e) (hs : e.en.descS = none) (hl : e.en.descL = none) :
    d.ledgerUpdate ms items moved = e.showDescent.checkOver := by
  rw [d.ledgerUpdate_eq ms items moved e he, e.descendStep_still hs hl, hs, hl]
  exact if_neg Bool.false_ne_true

/-! ## Jobs -/

theorem Dev.retestJobs_none (d : Dev) (h : d.held = []) : d.retestJobs = d := by
  unfold Dev.retestJobs
  rw [h, List.foldl_nil, ← h]

/-- At a short boundary the oldest 1 ms bucket of the sum and of each meter leaves (R63). -/
theorem Dev.bucketBoundary_short (d : Dev) (h : d.held = []) :
    ∃ w, d.bucketBoundary false = { d with en := { d.en with shortW := 0 :: d.en.shortW.take 9, meterW := w } } :=
  ⟨_, Dev.retestJobs_none _ h⟩

/-! ## Budgets -/

theorem newBudget_atOnce (now target : Nat) : newBudget false now target = (target, none) := if_pos (by simp)

theorem newBudget_rise (b : Bool) (now target : Nat) (h : now ≤ target) : newBudget b now target = (target, none) := if_pos (by simp [h])

theorem newBudget_fall (now target : Nat) (h : target < now) : newBudget true now target = (now, some (now, 0)) :=
  if_neg (by simp [h])

/-- A budget and its descent after its target went from `old` to `target`. -/
def followed (b : Bool) (old target now : Nat) (desc : Option (Nat × Nat)) : Nat × Option (Nat × Nat) :=
  if target = old then (now, desc) else newBudget b now target

/-- A budget at its old target follows at once without DESCEND_EN, and on a rise. -/
theorem followed_target (b : Bool) (old target : Nat) (desc : Option (Nat × Nat)) (h : b = false ∨ old ≤ target) :
    (followed b old target old desc).1 = target := by
  unfold followed
  split
  · next he => exact he.symm
  · obtain rfl | h := h
    · rw [newBudget_atOnce]
    · rw [newBudget_rise _ _ _ h]

theorem followed_fall (old target : Nat) (desc : Option (Nat × Nat)) (h : target < old) :
    followed true old target old desc = (old, some (old, 0)) := by
  unfold followed
  rw [if_neg (Nat.ne_of_lt h), newBudget_fall _ _ h]

/-- The targets are computed from CC's registers, of CC_BUDGET_SCALE the percentage alone, and from the supply as last judged. -/
theorem Dev.targets_congr {d e : Dev} (hr : ∀ off, off ≠ Reg.CC_BUDGET_SCALE → e.reg Pg.cc off = d.reg Pg.cc off)
    (hs : e.rf Pg.cc Reg.CC_BUDGET_SCALE 7 0 = d.rf Pg.cc Reg.CC_BUDGET_SCALE 7 0) (hb : e.en.onBatt = d.en.onBatt) :
    e.targetS = d.targetS ∧ e.targetL = d.targetL := by
  have hp : e.rf Pg.cc Reg.CC_BATT_POLICY 15 8 = d.rf Pg.cc Reg.CC_BATT_POLICY 15 8 := by rw [Dev.rf, hr _ (by decide), Dev.rf]
  have hsc : e.scale = d.scale := by
    unfold Dev.scale
    dsimp only
    rw [hs, hb, hp]
  unfold Dev.targetS Dev.targetL
  rw [hsc, hr Reg.CC_BUDGET_FLOOR (by decide), hr Reg.CC_BUDGET_SHORT (by decide), hr Reg.CC_BUDGET_LONG (by decide)]
  exact ⟨rfl, rfl⟩

theorem Dev.onBattery_congr {d e : Dev} (hr : e.reg Pg.cc Reg.CC_BATT_POLICY = d.reg Pg.cc Reg.CC_BATT_POLICY) (hg : e.en.gpio = d.en.gpio) :
    e.onBattery = d.onBattery := by
  unfold Dev.onBattery Dev.rb Dev.rf
  rw [hr, hg]

/-- The budgets have followed their targets from what these were before. -/
structure Rebudgeted (d e : Dev) (s l : Nat) : Prop where
  short : (e.en.bShort, e.en.descS) = followed (d.rb Pg.cc Reg.CC_LEDGER_CFG 19) s d.targetS d.en.bShort d.en.descS
  long : (e.en.bLong, e.en.descL) = followed (d.rb Pg.cc Reg.CC_LEDGER_CFG 19) l d.targetL d.en.bLong d.en.descL
  onBatt : e.en.onBatt = d.en.onBatt
  gpio : e.en.gpio = d.en.gpio
  regs : ∀ off, off ≠ Reg.CC_BUDGET_SCALE → e.reg Pg.cc off = d.reg Pg.cc off
  percent : e.rf Pg.cc Reg.CC_BUDGET_SCALE 7 0 = d.rf Pg.cc Reg.CC_BUDGET_SCALE 7 0
  descending : e.rb Pg.cc Reg.CC_BUDGET_SCALE 8 = (e.en.descS.isSome || e.en.descL.isSome)

theorem Rebudgeted.targets {d e : Dev} {s l : Nat} (h : Rebudgeted d e s l) : e.targetS = d.targetS ∧ e.targetL = d.targetL :=
  Dev.targets_congr h.regs h.percent h.onBatt

/-- A budget at its old target is at its new one at once without DESCEND_EN, and on a rise. -/
theorem Rebudgeted.short_target {d e : Dev} {s l : Nat} (h : Rebudgeted d e s l) (hb : d.en.bShort = s)
    (hup : d.rb Pg.cc Reg.CC_LEDGER_CFG 19 = false ∨ s ≤ d.targetS) : e.en.bShort = d.targetS := by
  have hs := congrArg Prod.fst h.short
  rw [hb] at hs
  exact hs.trans (followed_target _ _ _ _ hup)

theorem Rebudgeted.long_target {d e : Dev} {s l : Nat} (h : Rebudgeted d e s l) (hb : d.en.bLong = l)
    (hup : d.rb Pg.cc Reg.CC_LEDGER_CFG 19 = false ∨ l ≤ d.targetL) : e.en.bLong = d.targetL := by
  have hs := congrArg Prod.fst h.long
  rw [hb] at hs
  exact hs.trans (followed_target _ _ _ _ hup)

/-- With DESCEND_EN a budget above its new target begins a descent from the value in force. -/
theorem Rebudgeted.short_descends {d e : Dev} {s l : Nat} (h : Rebudgeted d e s l) (hb : d.en.bShort = s)
    (hd : d.rb Pg.cc Reg.CC_LEDGER_CFG 19 = true) (hlt : d.targetS < s) : e.en.bShort = s ∧ e.en.descS = some (s, 0) := by
  have hs := h.short
  rw [hb, hd, followed_fall _ _ _ hlt] at hs
  exact Prod.mk.inj hs

/-- The budgets as they follow, before DESCENDING shows it and held jobs are tested. -/
def Dev.budgeted (d : Dev) (s l : Nat) : Dev :=
  { d with en := { d.en with
    bShort := (followed (d.rb Pg.cc Reg.CC_LEDGER_CFG 19) s d.targetS d.en.bShort d.en.descS).1
    descS := (followed (d.rb Pg.cc Reg.CC_LEDGER_CFG 19) s d.targetS d.en.bShort d.en.descS).2
    bLong := (followed (d.rb Pg.cc Reg.CC_LEDGER_CFG 19) l d.targetL d.en.bLong d.en.descL).1
    descL := (followed (d.rb Pg.cc Reg.CC_LEDGER_CFG 19) l d.targetL d.en.bLong d.en.descL).2 } }

theorem Dev.rebudget_eq (d : Dev) (s l : Nat) : d.rebudget s l = (d.budgeted s l).showDescent.retestJobs := by
  unfold Dev.rebudget Dev.budgeted followed
  dsimp only
  split <;> split <;> rfl

theorem Dev.rebudget_rebudgeted (d : Dev) (s l : Nat) (h : d.held = []) : Rebudgeted d (d.rebudget s l) s l := by
  generalize hx : d.budgeted s l = x
  have hreg : x.pages.regs = d.pages.regs := by rw [← hx]; rfl
  have hheld : x.held = [] := by rw [← hx]; exact h
  obtain ⟨hsen, -, hsheld⟩ := x.showDescent_keeps
  have he : d.rebudget s l = x.showDescent := by rw [d.rebudget_eq, hx, Dev.retestJobs_none _ (hsheld.trans hheld)]
  have hen : (d.rebudget s l).en = (d.budgeted s l).en := by rw [he, hsen, hx]
  refine ⟨by rw [hen]; rfl, by rw [hen]; rfl, by rw [hen]; rfl, by rw [hen]; rfl, fun off ho => ?_, ?_, ?_⟩
  · rw [he, Dev.showDescent, Dev.setRb, Dev.setRf, Dev.reg_setReg_offset _ _ _ _ _ ho, Dev.reg, hreg, ← Dev.reg]
  · rw [he, Dev.showDescent, Dev.setRb, Dev.rf_setRf_field _ _ _ _ _ _ _ _ _ (by decide) (by decide) (by decide), Dev.rf_congr hreg]
  · rw [hen, hx, he, Dev.showDescent, Dev.setRb, Dev.rb, Dev.setRf, Dev.reg_setReg_same]
    exact bit_putBit_same 8 _ _ (by decide)

/-- The percentage is stored as it is given. -/
theorem Dev.setScale_percent (d : Dev) (pct : Nat) (h : pct ≤ 100) :
    (d.setRf Pg.cc Reg.CC_BUDGET_SCALE 7 0 pct).rf Pg.cc Reg.CC_BUDGET_SCALE 7 0 = pct := by
  rw [Dev.rf_setRf_same _ _ _ _ _ _ _ (by decide) (by decide)]
  exact Nat.mod_eq_of_lt (Nat.lt_of_le_of_lt h (by decide))

/-- A write of 1 to 100 percent: the budgets follow the targets of the new percentage (R64). -/
theorem Dev.budgetScale_rebudgeted (d : Dev) (v : Word) (hh : d.held = []) (h1 : 1 ≤ fld 7 0 v) (h100 : fld 7 0 v ≤ 100) :
    ∃ x : Dev, Rebudgeted x (d.budgetScale v) d.targetS d.targetL ∧ x.en = d.en ∧
      x.rf Pg.cc Reg.CC_BUDGET_SCALE 7 0 = fld 7 0 v ∧ x.rb Pg.cc Reg.CC_LEDGER_CFG 19 = d.rb Pg.cc Reg.CC_LEDGER_CFG 19 := by
  generalize hx : d.setRf Pg.cc Reg.CC_BUDGET_SCALE 7 0 (fld 7 0 v) = x
  have hxen : x.en = d.en := by rw [← hx]; simp only [Dev.setRf_keeps]
  have hxheld : x.held = [] := by rw [← hx]; simp only [Dev.setRf_keeps, hh]
  have hc : ¬(decide (fld 7 0 v = 0) || decide (100 < fld 7 0 v)) = true := by
    simp only [Bool.or_eq_true, decide_eq_true_eq]
    omega
  have he : d.budgetScale v = x.rebudget d.targetS d.targetL := by
    unfold Dev.budgetScale
    dsimp only
    rw [if_neg hc, hx]
  refine ⟨x, by rw [he]; exact x.rebudget_rebudgeted _ _ hxheld, hxen, by rw [← hx]; exact d.setScale_percent _ h100, ?_⟩
  rw [← hx, Dev.rb, Dev.setRf, Dev.reg_setReg_offset _ _ _ _ _ (by decide), Dev.rb]

theorem Dev.budgetScale_ignored (d : Dev) (v : Word) (h : fld 7 0 v = 0 ∨ 100 < fld 7 0 v) : d.budgetScale v = d :=
  if_pos (by simpa using h)

/-- The GPIO balls are read. -/
def Dev.gpioRead (d : Dev) (levels : BitVec 16) : Dev :=
  ({ d with en := { d.en with gpio := levels } } : Dev).setRf Pg.cc Reg.CC_GPIO_IN 15 0 levels.toNat

/-- The supply is judged by the balls as read. -/
def Dev.supplyJudged (d : Dev) (levels : BitVec 16) : Dev :=
  { d.gpioRead levels with en := { d.en with gpio := levels, onBatt := (d.gpioRead levels).onBattery } }

theorem Dev.gpioRead_shown (d : Dev) (levels : BitVec 16) : (d.gpioRead levels).rf Pg.cc Reg.CC_GPIO_IN 15 0 = levels.toNat := by
  rw [Dev.gpioRead, Dev.rf_setRf_same _ _ _ _ _ _ _ (by decide) (by decide)]
  exact Nat.mod_eq_of_lt levels.isLt

theorem Dev.gpioRead_cfg (d : Dev) (levels : BitVec 16) : (d.gpioRead levels).rb Pg.cc Reg.CC_LEDGER_CFG 19 = d.rb Pg.cc Reg.CC_LEDGER_CFG 19 := by
  rw [Dev.rb, Dev.gpioRead, Dev.setRf, Dev.reg_setReg_offset _ _ _ _ _ (by decide)]
  rfl

/-- The GPIO balls change: the budgets follow the supply as it is judged again (R64). -/
theorem Dev.battGpio_rebudgeted (d : Dev) (levels : BitVec 16) (hh : d.held = []) :
    Rebudgeted (d.supplyJudged levels) (d.battGpio levels) d.targetS d.targetL :=
  Dev.rebudget_rebudgeted _ _ _ hh

/-! ## The obligation -/

/-- Settles O21: an update of the ledger by its sample, its items and its end; a change of the budgets by `Rebudgeted`. -/
theorem energyLedger : Obligations.EnergyLedger := by
  refine ⟨fun s ms hs hl => ⟨_, rfl, ?_⟩, fun s ms moved e i hs hl hi => ?_, fun s => ⟨_, rfl, rfl, rfl, rfl⟩,
    fun s hh => ⟨_, rfl, ?_⟩, fun s levels hh hd hS hL => ⟨_, rfl, ?_⟩, fun s v hh hd hS hL h1 h100 => ⟨_, rfl, ?_⟩,
    fun s v hh hd hS hL h1 h100 => ⟨_, rfl, ?_⟩, fun s v hv => ?_, fun s n => ⟨_, rfl, rfl, rfl, rfl, rfl⟩⟩
  case refine_1 =>
    have hm := s.dev.sampled_metered ms
    obtain ⟨m, w, l, x, hen⟩ := hm.en
    generalize he : s.dev.sampled ms = e at hm hen
    have hupd := s.dev.ledgerUpdate_still ms [] [] e he (by rw [hen]; exact hs) (by rw [hen]; exact hl)
    obtain ⟨⟨o, hcen⟩, -, hraise⟩ := e.showDescent.checkOver_keeps
    obtain ⟨hsen, -, -⟩ := e.showDescent_keeps
    rw [hsen] at hcen
    dsimp only
    rw [hupd, ← List.sum_eq_foldl, ← hm.short, ← hm.long, Dev.sShort_eq, Dev.sLong_eq, hcen, Dev.sShort_eq, Dev.sLong_eq]
    refine ⟨rfl, rfl, by rw [hen], fun ho hb => hraise (by rw [hsen, hen]; exact ho) ?_⟩
    rw [Dev.sShort_eq, hsen]
    exact hb
  case refine_2 =>
    have hm := s.dev.sampled_metered ms
    obtain ⟨m, w, l, x, hen⟩ := hm.en
    have hi' : (s.dev.sampled ms).item? e.ring.val e.seq = some i := by
      rw [Dev.item?_congr (congrArg Work.items hm.wk), hi]
    obtain ⟨hitem, hfen⟩ := (s.dev.sampled ms).creditItem_some ms moved e i hi'
    generalize hf : (s.dev.sampled ms).creditItem ms moved e = f at hitem hfen
    have hupd := s.dev.ledgerUpdate_still ms [e] moved f hf (by rw [hfen, hen]; exact hs) (by rw [hfen, hen]; exact hl)
    obtain ⟨⟨o, hcen⟩, hcwk, -⟩ := f.showDescent.checkOver_keeps
    obtain ⟨hsen, hswk, -⟩ := f.showDescent_keeps
    refine ⟨_, i.credited e.islandUj (dramShare ms moved e.bytes) (min e.islandUj i.reserved), rfl, ?_, rfl, rfl, ?_⟩
    · dsimp only
      rw [hupd, Dev.item?_congr (congrArg Work.items (hcwk.trans hswk)), hitem]
    · dsimp only
      rw [hupd, hcen, hsen, hfen, hen]
  case refine_3 =>
    obtain ⟨w, he⟩ := s.dev.bucketBoundary_short hh
    dsimp only
    rw [he]
    exact ⟨rfl, rfl, rfl⟩
  case refine_4 =>
    have hr := s.dev.battGpio_rebudgeted levels hh
    have hcfg : (s.dev.supplyJudged levels).rb Pg.cc Reg.CC_LEDGER_CFG 19 = false := (s.dev.gpioRead_cfg levels).trans hd
    obtain ⟨htS, htL⟩ := hr.targets
    refine ⟨hr.gpio, ?_, hr.onBatt.trans (Dev.onBattery_congr (hr.regs _ (by decide)) hr.gpio).symm, ?_, ?_⟩
    · rw [Dev.rf, hr.regs _ (by decide)]
      exact s.dev.gpioRead_shown levels
    · exact (hr.short_target hS (.inl hcfg)).trans htS.symm
    · exact (hr.long_target hL (.inl hcfg)).trans htL.symm
  case refine_5 =>
    obtain ⟨x, hr, hen, hpct, hcfg⟩ := s.dev.budgetScale_rebudgeted v hh h1 h100
    obtain ⟨htS, htL⟩ := hr.targets
    refine ⟨hr.percent.trans hpct, ?_, ?_⟩
    · exact (hr.short_target (by rw [hen]; exact hS) (.inl (hcfg.trans hd))).trans htS.symm
    · exact (hr.long_target (by rw [hen]; exact hL) (.inl (hcfg.trans hd))).trans htL.symm
  case refine_6 =>
    obtain ⟨x, hr, hen, hpct, hcfg⟩ := s.dev.budgetScale_rebudgeted v hh h1 h100
    obtain ⟨htS, -⟩ := hr.targets
    have hxS : x.en.bShort = s.dev.targetS := by rw [hen]; exact hS
    refine ⟨hr.percent.trans hpct, fun hlt => ?_, fun hle => ?_⟩
    · obtain ⟨hb, hdesc⟩ := hr.short_descends hxS (hcfg.trans hd) (htS ▸ hlt)
      exact ⟨hb.trans hS.symm, by rw [hdesc, hS], by rw [hr.descending, hdesc]; rfl⟩
    · exact (hr.short_target hxS (.inr (htS ▸ hle))).trans htS.symm
  case refine_7 =>
    have he : exec (.budgetScaleWrite v) s = .next { s with dev := s.dev.budgetScale v } := rfl
    rw [he, s.dev.budgetScale_ignored v hv]

end Sys2Proof.Machine
end

section
/-! Steps of degrading and restoring (R76, R77). -/

namespace Sys2Proof.Machine

/-! ## The layer ceiling -/

/-- Registers and the ledger stand. -/
def SameRegsEn (d e : Dev) : Prop := e.pages.regs = d.pages.regs ∧ e.en = d.en

theorem SameRegsEn.refl (d : Dev) : SameRegsEn d d := ⟨rfl, rfl⟩

theorem SameRegsEn.trans {d e f : Dev} (h : SameRegsEn d e) (h' : SameRegsEn e f) : SameRegsEn d f := ⟨h'.1.trans h.1, h'.2.trans h.2⟩

/-- A copy's target is kept in PX's tables and beside them. -/
theorem Dev.setTarget_sameRegsEn (d : Dev) (e l : Nat) : SameRegsEn d (d.setTarget e l) := by
  unfold SameRegsEn Dev.setTarget Dev.setCopyX
  simp only [Dev.setTf_keeps, and_self]

/-- Without the adapter a want is a target at once, where it is another. -/
theorem Dev.applyWant_sameRegsEn (d : Dev) (hold : Nat) (w : Want) : SameRegsEn d (d.applyWant false hold w) := by
  have he : d.applyWant false hold w = if d.copyTarget w.1 = w.2.2 then d else d.setTarget w.1 w.2.2 := rfl
  rw [he]
  split
  · exact SameRegsEn.refl d
  · exact d.setTarget_sameRegsEn _ _

theorem Dev.ceilingChanged_sameRegsEn (d : Dev) (l : Nat) : SameRegsEn d (d.ceilingChanged l) := by
  unfold Dev.ceilingChanged
  refine foldl_keeps (SameRegsEn d) _ (fun x w h => h.trans ?_) _ d (SameRegsEn.refl d)
  dsimp only
  split
  · exact x.applyWant_sameRegsEn 0 w
  · generalize (if x.copyTarget w.1 = noLayer then noLayer else minLayer (x.copyTarget w.1) (x.ceiling l)) = c
    split
    · exact SameRegsEn.refl x
    · exact x.setTarget_sameRegsEn _ _

/-- PX_ENERGY_CEIL shows the new ceiling, and the ledger stands. -/
theorem Dev.setCeil_shown (d : Dev) (c : Nat) (hc : c < 256) : (d.setCeil c).rf Pg.px Reg.PX_ENERGY_CEIL 7 0 = c ∧ (d.setCeil c).en = d.en := by
  unfold Dev.setCeil
  dsimp only
  generalize hx : d.setRf Pg.px Reg.PX_ENERGY_CEIL 7 0 c = x
  obtain ⟨hregs, hen⟩ : SameRegsEn x (x.enabledLegs.foldl Dev.ceilingChanged x) :=
    foldl_keeps (SameRegsEn x) _ (fun y l h => h.trans (y.ceilingChanged_sameRegsEn l)) _ x (SameRegsEn.refl x)
  rw [Dev.rf_congr hregs, hen, ← hx, Dev.rf_setRf_same _ _ _ _ _ _ _ (by decide) (by decide)]
  exact ⟨Nat.mod_eq_of_lt hc, by simp only [Dev.setRf_keeps]⟩

theorem ceilDown_le (c : Nat) : ceilDown c ≤ c := by
  unfold ceilDown
  split
  · omega
  · split <;> omega

/-- A ceiling one step down from the register's is one of the register's values. -/
theorem Dev.ceilDown_lt (d : Dev) : ceilDown (d.rf Pg.px Reg.PX_ENERGY_CEIL 7 0) < 256 :=
  Nat.lt_of_le_of_lt (ceilDown_le _) (Nat.mod_lt _ (by decide))

/-! ## A step down -/

/-- While level 3 has a class that is not forced yet, all such classes are the step (R77). -/
theorem Dev.forceNext_three (d : Dev) (k : PageKind) (c : Nat) (h : c ∈ d.unforced (classesOf k) 3) : d.forceNext k =
    { d.forceAll (d.unforced (classesOf k) 3) with en := { (d.forceAll (d.unforced (classesOf k) 3)).en with
      forced := d.unforced (classesOf k) 3 :: (d.forceAll (d.unforced (classesOf k) 3)).en.forced } } := by
  have hne : (!(d.unforced (classesOf k) 3).isEmpty) = true := by
    rw [Bool.not_eq_true', List.isEmpty_eq_false_iff]
    exact List.ne_nil_of_mem h
  have hfind : [3, 2, 1].find? (fun l => !(d.unforced (classesOf k) l).isEmpty) = some 3 := List.find?_cons_of_pos hne
  unfold Dev.forceNext
  dsimp only
  rw [hfind]

/-- An island with classes of its own, CE apart, has no other way to degrade. -/
theorem degrades_classes {k : PageKind} {c : Nat} (h : c ∈ classesOf k) (hne : k ≠ .ce) :
    k ≠ .qm ∧ k ≠ .px ∧ k ≠ .tm ∧ k ≠ .rb ∧ k ≠ .ac := by
  refine ⟨?_, ?_, ?_, ?_, ?_⟩ <;> rintro rfl <;> exact absurd h List.not_mem_nil

theorem Dev.degrade_classes (d : Dev) (p : Page) (c : Nat) (hf : d.fwRuns = true) (hb : SMap.get (fun _ => false) d.en.breach p.val = true)
    (hc : c ∈ classesOf (kindOf p)) (hne : kindOf p ≠ .ce) : d.degrade p = d.forceNext (kindOf p) := by
  obtain ⟨hqm, hpx, htm, hrb, hac⟩ := degrades_classes hc hne
  unfold Dev.degrade
  simp [hf, hb, hqm, hpx, htm, hne, hrb, hac]

/-- QM, PX, TM and CE lower PX's ceiling by one step, once (R77). -/
theorem Dev.degrade_ceiling (d : Dev) (p : Page) (hf : d.fwRuns = true) (hb : SMap.get (fun _ => false) d.en.breach p.val = true)
    (hk : kindOf p = .qm ∨ kindOf p = .px ∨ kindOf p = .tm ∨ kindOf p = .ce) (hn : d.en.forced.any (fun x => x == [ceilingStep]) = false) :
    d.degrade p = { d.setCeil (ceilDown (d.rf Pg.px Reg.PX_ENERGY_CEIL 7 0)) with
      en := { d.en with forced := [ceilingStep] :: d.en.forced } } := by
  have hkb : (kindOf p == .qm || kindOf p == .px || kindOf p == .tm || kindOf p == .ce) = true := by
    obtain h | h | h | h := hk <;> rw [h] <;> rfl
  obtain ⟨-, hen⟩ := d.setCeil_shown _ d.ceilDown_lt
  unfold Dev.degrade
  dsimp only
  rw [hf, hb, hkb, hn]
  simp only [Bool.not_true, Bool.or_self, Bool.false_eq_true, if_false, Bool.not_false, Bool.and_self, if_true, hen]

/-! ## A step up -/

/-- The latest step of forcing is taken back (R77). -/
theorem Dev.restore_forced (d : Dev) (st : List Nat) (rest : List (List Nat)) (hf : d.fwRuns = true)
    (hb : d.en.breach.any (fun x => x.2) = false) (hh : d.en.hotForce = false) (hs : d.en.forced = st :: rest) (hne : st ≠ [ceilingStep]) :
    d.restore = ({ d with en := { d.en with forced := rest } } : Dev).forceEach st false := by
  unfold Dev.restore
  rw [hf, hb, hh, hs]
  exact if_neg hne

theorem Dev.restore_breach (d : Dev) (h : d.en.breach.any (fun x => x.2) = true) : d.restore = d := if_pos (by simp [h])

/-! ## The obligation -/

/-- Settles O22: a step forces the next level's classes or lowers the ceiling; restoring clears what the step had forced. -/
theorem degradationSteps : Obligations.DegradationSteps := by
  refine ⟨fun s p c hf hb hc hne hl hn => ⟨_, rfl, ?_⟩, fun s p hf hb hk hn => ⟨_, rfl, ?_⟩, fun s st rest hf hb hh hs hne => ⟨_, rfl, ?_⟩,
    fun s hb => ?_⟩
  case refine_1 =>
    have hmem : c ∈ s.dev.unforced (classesOf (kindOf p)) 3 := Dev.mem_unforced.mpr ⟨hc, hl, hn⟩
    generalize hcs : s.dev.unforced (classesOf (kindOf p)) 3 = cs at hmem
    obtain ⟨hregs, hen⟩ := s.dev.forceEach_keeps cs true
    have he := s.dev.degrade_classes p c hf hb hc hne
    rw [s.dev.forceNext_three _ c (hcs ▸ hmem), hcs, Dev.forceAll_eq] at he
    have hcl : (s.dev.forceEach cs true).classForced c = true := by rw [Dev.forceEach_forced, if_pos hmem]
    dsimp only
    rw [he]
    exact ⟨hcl, ⟨cs, by rw [hen], hmem⟩, hregs⟩
  case refine_2 =>
    obtain ⟨hceil, -⟩ := s.dev.setCeil_shown _ s.dev.ceilDown_lt
    dsimp only
    rw [s.dev.degrade_ceiling p hf hb hk hn]
    exact ⟨hceil, rfl⟩
  case refine_3 =>
    dsimp only
    rw [s.dev.restore_forced st rest hf hb hh hs hne]
    obtain ⟨hregs, hen⟩ := Dev.forceEach_keeps { s.dev with en := { s.dev.en with forced := rest } } st false
    exact ⟨by rw [hen], fun c hc => by rw [Dev.forceEach_forced, if_pos hc], hregs⟩
  case refine_4 =>
    have he : exec .restoreStep s = .next { s with dev := s.dev.restore } := rfl
    rw [he, s.dev.restore_breach hb]

end Sys2Proof.Machine
end

section
/-! What reset leaves of pages, tags, rings and events (Tables 2.5, 2.6, 2.12, 1.3). -/

namespace Sys2Proof.Machine

/-- Every header stands at its reset value. -/
theorem State.reset_hdr (p : Page) : State.reset.dev.hdr p = Hdr.reset p.val := rfl

/-- Every ring stands at its reset value. -/
theorem State.reset_ring (n : Nat) : State.reset.dev.ring n = Ring.reset := rfl

/-- The pages of stage 1 are TU, PS, SK, PH and HB (Table 21.3). -/
theorem Hdr.reset_enable : ∀ p : Page, (Hdr.reset p.val).enable = (p == Pg.tu || p == Pg.ps || p == Pg.sk || p == Pg.ph || p == Pg.hb) := by
  decide

/-- An enabled page starts, any other is OFF. -/
theorem Hdr.reset_state (p : Nat) : (Hdr.reset p).state = if (Hdr.reset p).enable then .starting else .off := rfl

/-- Settles O6: headers, rings and tags are read off their reset values. -/
theorem resetLeavesTheSpecsValues : Obligations.ResetLeavesTheSpecsValues :=
  ⟨fun p => by rw [State.reset_hdr, Hdr.reset_enable], fun p => by rw [State.reset_hdr, Hdr.reset_state],
    fun _ => ⟨rfl, rfl, rfl, rfl, rfl, rfl⟩, rfl, rfl, fun n => by rw [State.reset_ring]; exact ⟨rfl, rfl⟩, rfl, rfl⟩

end Sys2Proof.Machine
end

section
/-! Rings (chapter 4): what a replaced, halted or dropped ring reads as and what it leaves, and the sources of DX that rings and the
ledger raise. -/

namespace Sys2Proof.Machine

/-! ## Detections of DX -/

/-- Every source of DX but its hang is noted and nothing more: none retires a unit or resets the page (Table 20.2). -/
theorem Dev.detect_dx (d : Dev) (src : Nat) (hs : src < 32) (hne : src ≠ Evt.DX_HANG) : Detected d (d.detect Pg.dx src) Pg.dx src := by
  have hdx : ∀ x : Fin 32, x.val ≠ Evt.DX_HANG → (evDesc (kindOf Pg.dx) x.val).act ≠ .retire ∧ (evDesc (kindOf Pg.dx) x.val).hang = false := by
    decide
  obtain ⟨hact, hhang⟩ := hdx ⟨src, hs⟩ hne
  exact d.detect_detected Pg.dx src (by decide) hact hhang

/-- A detection leaves every unit's INFLIGHT. -/
theorem Detected.inflight {d e : Dev} {p : Page} {src : Nat} (h : Detected d e p src) (q : Page) :
    (e.hdr q).inflight = (d.hdr q).inflight := by
  by_cases hq : q = p
  · obtain ⟨st, lo, hi, l, x, cs, -, he⟩ := h.hdr
    rw [hq, he]
  · rw [h.others q hq]

/-- A detection leaves the jobs that admission holds. -/
theorem Detected.held {d e : Dev} {p : Page} {src : Nat} (h : Detected d e p src) : e.held = d.held := by
  obtain ⟨hs, o, pd, he⟩ := h.rest
  rw [he]

/-! ## Rings -/

theorem Dev.ring_congr {d e : Dev} (h : e.wk.rings = d.wk.rings) (n : Nat) : e.ring n = d.ring n := by rw [Dev.ring, h, Dev.ring]

/-- A dropped head gives up its reservation; nothing else of its ring changes. -/
theorem Dev.ring_dropHead_same (d : Dev) (n : Nat) : (d.dropHead n).ring n = { d.ring n with head := .none } :=
  Dev.ring_modRing_same _ _ _

theorem Dev.ring_dropHead_other (d : Dev) (n m : Nat) (h : m ≠ n) : (d.dropHead n).ring m = d.ring m :=
  Dev.ring_modRing_other _ _ _ _ h

theorem Dev.dropHead_reserved (d : Dev) (n : Nat) : (d.dropHead n).en.reserved = d.en.reserved - (d.ring n).head.uj := rfl

/-- What halting a ring leaves besides its ring and its reservation. -/
theorem Dev.dropHead_keeps (d : Dev) (n : Nat) :
    (d.dropHead n).pages = d.pages ∧ (d.dropHead n).ram = d.ram ∧ (d.dropHead n).wk.items = d.wk.items ∧
      (d.dropHead n).wk.copyA = d.wk.copyA ∧ (d.dropHead n).wk.copyB = d.wk.copyB ∧ (d.dropHead n).wk.okA = d.wk.okA ∧
      (d.dropHead n).wk.okB = d.wk.okB ∧ (d.dropHead n).wk.epoch = d.wk.epoch := by
  and_intros <;> rfl

/-- A halted ring shows its cause and has no head. -/
theorem Dev.ring_haltRing_same (d : Dev) (n c : Nat) :
    (d.haltRing n c).ring n = { d.ring n with head := .none, halted := true, haltCause := c, hold := 1 } := by
  rw [Dev.haltRing, Dev.ring_modRing_same, Dev.ring_dropHead_same]

theorem Dev.ring_haltRing_other (d : Dev) (n m c : Nat) (h : m ≠ n) : (d.haltRing n c).ring m = d.ring m := by
  rw [Dev.haltRing, Dev.ring_modRing_other _ _ _ _ h, Dev.ring_dropHead_other _ _ _ h]

/-- A halt with the source it raises: the ring halts with its cause, and the source stands. -/
theorem Dev.haltRing_detect (d : Dev) (n c src : Nat) (hs : src < 32) (hne : src ≠ Evt.DX_HANG) :
    ((d.haltRing n c).detect Pg.dx src).ring n = { d.ring n with head := .none, halted := true, haltCause := c, hold := 1 } ∧
      raised ((d.haltRing n c).detect Pg.dx src) Pg.dx src := by
  have hd := (d.haltRing n c).detect_dx src hs hne
  exact ⟨by rw [Dev.ring_congr (congrArg Work.rings hd.wk), Dev.ring_haltRing_same], hd.raised hs⟩

end Sys2Proof.Machine
end

section
/-! Doorbells and the head of a ring (R84, R87, R88, R536). -/

namespace Sys2Proof.Machine

/-! ## Doorbells -/

/-- A tail stays where the extended value does not lie beyond it (R84). -/
theorem Dev.sqDoorbell_inRange (d : Dev) (n : Nat) (v : Word) (k : Nat) (hk : k = unsigned 32 ((v.toNat : Int) - (d.ring n).acceptSeq))
    (h1 : 1 ≤ k) (h2 : k ≤ 2 ^ d.sqLog2 n) :
    d.sqDoorbell n v = if (d.ring n).acceptSeq + k ≤ (d.ring n).sqTail then d
      else d.setRing n { d.ring n with sqTail := (d.ring n).acceptSeq + k } := by
  unfold Dev.sqDoorbell
  dsimp only
  rw [← hk, if_neg (by simp; omega)]

theorem Dev.cqDoorbell_inRange (d : Dev) (n : Nat) (v : Word) (k : Nat) (hk : k = unsigned 32 ((d.ring n).postedSeq - (v.toNat : Int)))
    (h : k < 65536) :
    d.cqDoorbell n v = if (d.ring n).postedSeq - k ≤ (d.ring n).cqTail then d
      else d.setRing n { d.ring n with cqTail := (d.ring n).postedSeq - k } := by
  unfold Dev.cqDoorbell
  dsimp only
  rw [← hk, if_neg (Nat.not_le.mpr h)]

theorem Dev.sqDoorbell_outOfRange (d : Dev) (n : Nat) (v : Word) (k : Nat) (hk : k = unsigned 32 ((v.toNat : Int) - (d.ring n).acceptSeq))
    (h : k = 0 ∨ 2 ^ d.sqLog2 n < k) : d.sqDoorbell n v = d.detect Pg.dx Evt.DX_DOORBELL_RANGE := by
  unfold Dev.sqDoorbell
  dsimp only
  rw [← hk, if_pos (by simpa using h)]

theorem Dev.cqDoorbell_outOfRange (d : Dev) (n : Nat) (v : Word) (h : 65536 ≤ unsigned 32 ((d.ring n).postedSeq - (v.toNat : Int))) :
    d.cqDoorbell n v = d.detect Pg.dx Evt.DX_DOORBELL_RANGE := if_pos h

/-- A ring that is replaced or left: its page tables stay, and so does every other ring. -/
theorem Dev.ring_setRing_unless (d : Dev) (n : Nat) (r : Ring) (c : Prop) [Decidable c] :
    (if c then d else d.setRing n r).ring n = (if c then d.ring n else r) ∧
      (∀ m, m ≠ n → (if c then d else d.setRing n r).ring m = d.ring m) ∧ (if c then d else d.setRing n r).pages = d.pages := by
  split
  · exact ⟨rfl, fun _ _ => rfl, rfl⟩
  · exact ⟨Dev.ring_setRing_same _ _ _, fun m hm => Dev.ring_setRing_other _ _ _ _ hm, rfl⟩

/-- A value out of range is discarded and raises DOORBELL_RANGE. -/
theorem Dev.doorbellRange (d : Dev) : (d.detect Pg.dx Evt.DX_DOORBELL_RANGE).wk = d.wk ∧
    raised (d.detect Pg.dx Evt.DX_DOORBELL_RANGE) Pg.dx Evt.DX_DOORBELL_RANGE :=
  have hd := d.detect_dx Evt.DX_DOORBELL_RANGE (by decide) (by decide)
  ⟨hd.wk, hd.raised (by decide)⟩

/-- Settles O24: a value in range moves its tail up if it lies beyond, and any other raises DOORBELL_RANGE. -/
theorem doorbells : Obligations.Doorbells := by
  refine ⟨fun s n v k hk h1 h2 => ⟨_, rfl, ?_⟩, fun s n v k hk h => ⟨_, rfl, ?_⟩, fun s n v k hk h => ⟨_, rfl, ?_⟩, fun s n v h => ⟨_, rfl, ?_⟩⟩ <;>
    dsimp only
  case refine_1 =>
    rw [s.dev.sqDoorbell_inRange n v k hk h1 h2]
    obtain ⟨hr, ho, hp⟩ := s.dev.ring_setRing_unless n { s.dev.ring n with sqTail := (s.dev.ring n).acceptSeq + k }
      ((s.dev.ring n).acceptSeq + k ≤ (s.dev.ring n).sqTail)
    exact ⟨by rw [hr, apply_ite Ring.sqTail]; dsimp only; split <;> omega, ho, hp⟩
  case refine_2 =>
    rw [s.dev.sqDoorbell_outOfRange n v k hk h]
    exact s.dev.doorbellRange
  case refine_3 =>
    rw [s.dev.cqDoorbell_inRange n v k hk h]
    obtain ⟨hr, ho, hp⟩ := s.dev.ring_setRing_unless n { s.dev.ring n with cqTail := (s.dev.ring n).postedSeq - k }
      ((s.dev.ring n).postedSeq - k ≤ (s.dev.ring n).cqTail)
    exact ⟨by rw [hr, apply_ite Ring.cqTail]; dsimp only; split <;> omega, ho, hp⟩
  case refine_4 =>
    rw [s.dev.cqDoorbell_outOfRange n v h]
    exact s.dev.doorbellRange

/-! ## The head test (R87) -/

/-- With nothing fetched and a descriptor due, the head is read. -/
theorem Dev.headTest_reads (d : Dev) (n : Nat) (he : (d.ring n).enabled = true) (hh : (d.ring n).head = .none)
    (hn : (d.ring n).halted = false) (ht : (d.ring n).acceptSeq < (d.ring n).sqTail) (hu : d.up Pg.dx = true) :
    d.headTest n = d.setRing n { d.ring n with head := .reading } := by
  unfold Dev.headTest
  simp only [he, hh, hn, hu, not_le.mpr ht, Bool.not_true, Bool.false_eq_true, if_false]

/-- A descriptor that is here is tested. -/
theorem Dev.headTest_tests (d : Dev) (n : Nat) (x : BitVec 512) (he : (d.ring n).enabled = true) (hh : (d.ring n).head = .here x) :
    d.headTest n = d.testHead n x := by
  unfold Dev.headTest
  simp only [he, hh, Bool.not_true, Bool.false_eq_true, if_false]

/-- A head with no reason to be held is not of a halted ring. -/
theorem Dev.not_halted_of_holdReason (d : Dev) (n : Nat) (x : BitVec 512) (h : d.holdReason n x = 0) : (d.ring n).halted = false := by
  by_contra hc
  unfold Dev.holdReason at h
  rw [Bool.not_eq_false] at hc
  simp [hc] at h

/-- A head of the expected number that nothing holds and R88 does not fault is admitted in a form (R71): its energy is reserved and its
entry is written. -/
theorem Dev.testHead_admitted (d : Dev) (n : Nat) (x : BitVec 512) (f : Form) (e : Nat)
    (hs : x.toNat % 2 ^ 64 = unsigned 64 ((d.ring n).acceptSeq + 1)) (hr : d.holdReason n x = 0) (hf : descFault x = none)
    (ha : d.admission (d.islandOf x) (classOf x .primary) (unitsOf x .primary) (d.fallbackOf x) = some (f, e)) :
    d.testHead n x = (d.reserve e).setRing n { d.ring n with head := .entryWrite x f e, hold := 0 } := by
  have hn := d.not_halted_of_holdReason n x hr
  unfold Dev.testHead
  simp only [hn, hs, hr, hf, ha, Bool.false_eq_true, if_false, ne_eq, not_true, Option.isSome_none]

/-- Such a head that admission does not let in is held by it (R72). -/
theorem Dev.testHead_notAdmitted (d : Dev) (n : Nat) (x : BitVec 512) (hs : x.toNat % 2 ^ 64 = unsigned 64 ((d.ring n).acceptSeq + 1))
    (hr : d.holdReason n x = 0) (hf : descFault x = none)
    (ha : d.admission (d.islandOf x) (classOf x .primary) (unitsOf x .primary) (d.fallbackOf x) = none) :
    d.testHead n x = d.holdAdmission n (classOf x .primary) := by
  have hn := d.not_halted_of_holdReason n x hr
  unfold Dev.testHead
  simp only [hn, hs, hr, hf, ha, Bool.false_eq_true, if_false, ne_eq, not_true, Option.isSome_none]

/-- A wrong sequence number halts the ring (R87). -/
theorem Dev.testHead_seqBreak (d : Dev) (n : Nat) (x : BitVec 512) (hn : (d.ring n).halted = false)
    (hs : x.toNat % 2 ^ 64 ≠ unsigned 64 ((d.ring n).acceptSeq + 1)) :
    d.testHead n x = (d.haltRing n 1).detect Pg.dx Evt.DX_SEQ_BREAK := by
  unfold Dev.testHead
  dsimp only
  rw [hn, if_neg Bool.false_ne_true, if_pos hs]

/-- A condition of R87 that fails holds the head. -/
theorem Dev.testHead_held (d : Dev) (n : Nat) (x : BitVec 512) (hn : (d.ring n).halted = false)
    (hs : x.toNat % 2 ^ 64 = unsigned 64 ((d.ring n).acceptSeq + 1)) (hr : d.holdReason n x ≠ 0) :
    d.testHead n x = d.holdHead n (d.holdReason n x) := by
  unfold Dev.testHead
  dsimp only
  rw [hn, if_neg Bool.false_ne_true, if_neg (not_not.mpr hs), if_pos hr]

/-- A held head shows its reason and stays. -/
theorem Dev.ring_holdHead (d : Dev) (n reason : Nat) :
    (d.holdHead n reason).ring n = { d.ring n with hold := reason, heldSeq := some ((d.ring n).acceptSeq + 1) } :=
  Dev.ring_setRing_same _ _ _

theorem Dev.holdHead_en (d : Dev) (n reason : Nat) : (d.holdHead n reason).en = d.en := by
  unfold Dev.holdHead
  dsimp only
  split <;> simp

/-- Admission holds a head with reason 6 and reserves nothing. -/
theorem Dev.holdAdmission_holds (d : Dev) (n c : Nat) :
    ((d.holdAdmission n c).ring n).hold = 6 ∧ ((d.holdAdmission n c).ring n).head = (d.ring n).head ∧ (d.holdAdmission n c).en = d.en := by
  unfold Dev.holdAdmission
  dsimp only
  rw [Dev.ring_holdHead, Dev.ring_setRing_same, Dev.holdHead_en]
  refine ⟨rfl, rfl, ?_⟩
  split <;> simp [Dev.countHeld]

/-! ## The descriptor read (R134, R536) -/

/-- The head descriptor arrives. -/
theorem Dev.descRead_arrives (d e : Dev) (n : Nat) (bs : List Byte) (hh : (d.ring n).head = .reading)
    (hv : d.virtRead n (d.ringAsid n) (d.sqBase n + unsigned 64 ((d.ring n).acceptSeq + 1) % 2 ^ d.sqLog2 n * 64) 64 = (e, .ok, bs)) :
    d.descRead n .data = e.modRing n (fun r => { r with head := .here (BitVec.ofNat 512 (numLE bs)) }) := by
  unfold Dev.descRead
  simp only [hh, hv, ne_eq, not_true, if_false]

/-- A refused or errored read halts the ring. -/
theorem Dev.descRead_halts (d : Dev) (n : Nat) (r : DescRead) (hh : (d.ring n).head = .reading) (hr : r ≠ .data) :
    d.descRead n r = (d.haltRing n 3).detect Pg.dx Evt.DX_RING_HALT := by
  unfold Dev.descRead
  cases r with
  | data => exact absurd rfl hr
  | _ => simp only [hh, ne_eq, not_true, if_false]

/-- Settles O25: the head test and the descriptor read, branch by branch. -/
theorem ringHeads : Obligations.RingHeads := by
  refine ⟨fun s n he hh hn ht hu => ⟨_, rfl, ?_⟩, fun s n x f e he hh hs hr hf ha => ⟨_, rfl, ?_⟩, fun s n x he hh hn hs => ⟨_, rfl, ?_⟩,
    fun s n x he hh hn hs hr => ⟨_, rfl, ?_⟩, fun s n x he hh hs hr hf ha => ⟨_, rfl, ?_⟩, fun s n d bs hh hv => ⟨_, rfl, ?_⟩,
    fun s n r hr hh => ⟨_, rfl, ?_⟩⟩ <;> dsimp only
  case refine_1 =>
    rw [s.dev.headTest_reads n he hh hn ht hu, Dev.ring_setRing_same]
    exact ⟨rfl, rfl⟩
  case refine_2 =>
    rw [s.dev.headTest_tests n x he hh, s.dev.testHead_admitted n x f e hs hr hf ha, Dev.ring_setRing_same]
    exact ⟨rfl, rfl, rfl, rfl⟩
  case refine_3 =>
    rw [s.dev.headTest_tests n x he hh, s.dev.testHead_seqBreak n x hn hs]
    obtain ⟨h, hraised⟩ := s.dev.haltRing_detect n 1 Evt.DX_SEQ_BREAK (by decide) (by decide)
    rw [h]
    exact ⟨rfl, rfl, rfl, hraised⟩
  case refine_4 =>
    rw [s.dev.headTest_tests n x he hh, s.dev.testHead_held n x hn hs hr, Dev.ring_holdHead]
    exact ⟨rfl, hh⟩
  case refine_5 =>
    rw [s.dev.headTest_tests n x he hh, s.dev.testHead_notAdmitted n x hs hr hf ha]
    obtain ⟨hhold, hhead, hen⟩ := s.dev.holdAdmission_holds n (classOf x .primary)
    exact ⟨hhold, hhead.trans hh, congrArg Energy.reserved hen⟩
  case refine_6 =>
    rw [s.dev.descRead_arrives d n bs hh hv, Dev.ring_modRing_same]
    exact ⟨rfl, rfl⟩
  case refine_7 =>
    rw [s.dev.descRead_halts n r hh hr]
    obtain ⟨h, hraised⟩ := s.dev.haltRing_detect n 3 Evt.DX_RING_HALT (by decide) (by decide)
    rw [h]
    exact ⟨rfl, rfl, hraised⟩

end Sys2Proof.Machine
end

section
/-! Acceptance and the ledger (R88, R89, R94, R97, R536): the copies' answers, what acceptance enters, and what recording changes. -/

namespace Sys2Proof.Machine

/-! ## The copies -/

/-- The entry written stands in a copy that can be written. -/
theorem Dev.putEntry_copyA (d : Dev) (n q : Nat) (e : LEntry) (h : d.wk.okA = true) :
    SMap.get (fun _ => LEntry.invalid) (d.putEntry n q e).wk.copyA.entries (d.slotKey n q) = e := by
  unfold Dev.putEntry
  simp only [h, if_true, SMap.get_set_same]

/-- An entry's write changes the entries of the copies alone. -/
theorem Dev.putEntry_keeps (d : Dev) (n q : Nat) (e : LEntry) :
    (d.putEntry n q e).pages = d.pages ∧ (d.putEntry n q e).en = d.en ∧ (d.putEntry n q e).held = d.held ∧
      (d.putEntry n q e).wk.rings = d.wk.rings ∧ (d.putEntry n q e).wk.items = d.wk.items ∧ (d.putEntry n q e).wk.okA = d.wk.okA ∧
      (d.putEntry n q e).wk.okB = d.wk.okB ∧ (d.putEntry n q e).wk.epoch = d.wk.epoch := by
  and_intros <;> rfl

/-- An entry's write leaves the headers of the copies. -/
theorem Dev.putEntry_headersA (d : Dev) (n q : Nat) (e : LEntry) : (d.putEntry n q e).wk.copyA.headers = d.wk.copyA.headers := by
  unfold Dev.putEntry
  dsimp only
  split <;> rfl

theorem Dev.putEntry_headersB (d : Dev) (n q : Nat) (e : LEntry) : (d.putEntry n q e).wk.copyB.headers = d.wk.copyB.headers := by
  unfold Dev.putEntry
  dsimp only
  split <;> rfl

theorem Dev.slotKey_congr {d e : Dev} (h : e.pages.tbl = d.pages.tbl) (n q : Nat) : e.slotKey n q = d.slotKey n q := by
  rw [Dev.slotKey, Dev.ledgerLog2, Dev.tf_congr h, ← Dev.ledgerLog2, ← Dev.slotKey]

/-- What the copies' answers leave, and which copies are still in use, where the write is recorded (R536). -/
structure Acked (d e : Dev) (okA okB : Bool) : Prop where
  wk : e.wk = { d.wk with okA := d.wk.okA && okA, okB := d.wk.okB && okB }
  tbl : e.pages.tbl = d.pages.tbl
  en : e.en = d.en
  held : e.held = d.held
  inflight : ∀ p, (e.hdr p).inflight = (d.hdr p).inflight

/-- A write that one copy takes is recorded; a copy that fails now raises LEDGER_ONE_COPY. -/
theorem Dev.ackCopies_recorded (d : Dev) (okA okB : Bool) (h : (d.wk.okA && okA || d.wk.okB && okB) = true) :
    ∃ e, d.ackCopies okA okB = (e, true) ∧ Acked d e okA okB := by
  unfold Dev.ackCopies
  dsimp only
  rw [if_pos h]
  generalize he : ({ d with wk := { d.wk with okA := d.wk.okA && okA, okB := d.wk.okB && okB } } : Dev) = e
  have hbase : Acked d e okA okB := by subst he; exact ⟨rfl, rfl, rfl, rfl, fun _ => rfl⟩
  refine ⟨_, rfl, ?_⟩
  split
  · have hd := (e.setRb Pg.dx Reg.DX_LEDGER_STAT 2 true).detect_dx Evt.DX_LEDGER_ONE_COPY (by decide) (by decide)
    obtain ⟨-, -, htbl, -, -, -, -, hen, -⟩ := hd.keeps
    exact ⟨hd.wk.trans hbase.wk, htbl.trans hbase.tbl, hen.trans hbase.en, hd.held.trans hbase.held,
      fun p => (hd.inflight p).trans (hbase.inflight p)⟩
  · exact hbase

/-- A write that no copy takes is lost and halts every ring (R536). -/
theorem Dev.ackCopies_lost (d : Dev) (okA okB : Bool) (h : (d.wk.okA && okA || d.wk.okB && okB) = false) :
    ∃ e : Dev, d.ackCopies okA okB = (e.haltAll.detect Pg.dx Evt.DX_LEDGER_LOST, false) := by
  unfold Dev.ackCopies
  dsimp only
  rw [if_neg (by rw [h]; exact Bool.false_ne_true)]
  exact ⟨_, rfl⟩

/-- A ring halted for a cause stays so while others are halted for it. -/
theorem Dev.haltRings_halted (l : List Nat) (c m : Nat) : ∀ d : Dev, (m ∈ l ∨ (d.ring m).halted = true ∧ (d.ring m).haltCause = c) →
    ((l.foldl (fun d n => d.haltRing n c) d).ring m).halted = true ∧ ((l.foldl (fun d n => d.haltRing n c) d).ring m).haltCause = c := by
  induction l with
  | nil => exact fun d h => h.resolve_left (List.not_mem_nil)
  | cons n l ih =>
    intro d h
    refine ih _ ?_
    by_cases hm : m = n
    · rw [hm, Dev.ring_haltRing_same]
      exact .inr ⟨rfl, rfl⟩
    · rw [Dev.ring_haltRing_other _ _ _ _ hm]
      exact h.imp_left (fun h => (List.mem_cons.mp h).resolve_left hm)

theorem Dev.haltAll_halted (d : Dev) (m : RingNo) : (d.haltAll.ring m.val).halted = true ∧ (d.haltAll.ring m.val).haltCause = 2 :=
  Dev.haltRings_halted _ _ _ d (.inl (List.mem_range.mpr m.isLt))

/-! ## Acceptance (R89) -/

/-- The ACCEPTED entry of a head. -/
def acceptedEntry (x : BitVec 512) (f : Form) (e epoch : Nat) : LEntry :=
  { valid := true, desc := x, state := .accepted, form := f, encored := false, inst := 0xFF, epoch := epoch, reservedUj := e,
    engineState := 0, result := Result.none }

/-- Recorded ACCEPTED entries stand in the copies, and the header write follows. -/
theorem Dev.acceptedAck_recorded (d e : Dev) (n : Nat) (okA okB : Bool) (x : BitVec 512) (f : Form) (uj : Nat)
    (hh : (d.ring n).head = .entryWrite x f uj) (he : d.ackCopies okA okB = (e, true)) :
    d.acceptedAck n okA okB = (e.putEntry n ((e.ring n).acceptSeq + 1).toNat (acceptedEntry x f uj e.wk.epoch)).modRing n
      (fun r => { r with head := .headerWrite x f uj }) := by
  unfold Dev.acceptedAck
  simp only [hh, he]
  rfl

/-- Lost ACCEPTED entries leave nothing but the halt. -/
theorem Dev.acceptedAck_lost (d e : Dev) (n : Nat) (okA okB : Bool) (x : BitVec 512) (f : Form) (uj : Nat)
    (hh : (d.ring n).head = .entryWrite x f uj) (he : d.ackCopies okA okB = (e, false)) : d.acceptedAck n okA okB = e := by
  unfold Dev.acceptedAck
  simp only [hh, he]

/-- An accepted item is entered: the header, the ring's number, the item and the ring's count. -/
def Dev.entered (d : Dev) (n : Nat) (x : BitVec 512) (f : Form) (e : Nat) : Dev :=
  let r := d.ring n
  let d := d.putHeader n (r.acceptSeq + 1) r.postedSeq
  let d := d.setRing n { r with head := .none, acceptSeq := r.acceptSeq + 1, hold := 0 }
  let d := { d with wk := { d.wk with items := d.wk.items ++ [Item.fresh n (r.acceptSeq + 1).toNat x f e] } }
  d.bumpT Pg.dx (ringEntry n 3) 1 31 0

theorem Dev.ring_entered (d : Dev) (n : Nat) (x : BitVec 512) (f : Form) (e : Nat) :
    (d.entered n x f e).ring n = { d.ring n with head := .none, acceptSeq := (d.ring n).acceptSeq + 1, hold := 0 } :=
  SMap.get_set_same _ _ _ _

/-- The accepted item is found under its number. -/
theorem Dev.item?_entered (d : Dev) (n : Nat) (x : BitVec 512) (f : Form) (e : Nat)
    (h : d.item? n ((d.ring n).acceptSeq + 1).toNat = none) : (d.entered n x f e).item? n ((d.ring n).acceptSeq + 1).toNat =
      some (Item.fresh n ((d.ring n).acceptSeq + 1).toNat x f e) := by
  have hitems : (d.entered n x f e).wk.items = d.wk.items ++ [Item.fresh n ((d.ring n).acceptSeq + 1).toNat x f e] := rfl
  rw [Dev.item?] at h ⊢
  rw [hitems, List.find?_append, h]
  simp [Item.fresh]

/-- Counting an admission changes no work. -/
theorem Dev.countAdmitted_wk (d : Dev) (c : Nat) (fb : Option (Nat × Nat)) (f : Form) : (d.countAdmitted c fb f).wk = d.wk := by
  cases f <;> simp [Dev.countAdmitted]

/-- An item that finishes with a status and a cause alone. -/
theorem Dev.finishPlain_eq (d : Dev) (r q : Nat) (st : Status) (c : Nat) (i : Item) (h : d.item? r q = some i) :
    d.finishPlain r q st c = d.finish r q (i.plain st c) := by
  unfold Dev.finishPlain
  rw [h]

/-- An item with its result, which asks for COMPLETED. -/
def Item.finished (x : Result) (i : Item) : Item := { i with result := x, phase := .finishing, pend := some .completed }

theorem Dev.item?_finishPlain (d : Dev) (r q : Nat) (st : Status) (c : Nat) (i : Item) (h : d.item? r q = some i) :
    (d.finishPlain r q st c).item? r q = some (i.finished (i.plain st c)) := by
  rw [d.finishPlain_eq r q st c i h, Dev.item?_finish, h]
  rfl

theorem Dev.ring_finishPlain (d : Dev) (r q : Nat) (st : Status) (c n : Nat) : (d.finishPlain r q st c).ring n = d.ring n := by
  unfold Dev.finishPlain
  split <;> rfl

theorem Dev.finishPlain_ram (d : Dev) (r q : Nat) (st : Status) (c : Nat) : (d.finishPlain r q st c).ram = d.ram := by
  unfold Dev.finishPlain
  split <;> rfl

/-- A NOP that waits for nothing completes (Table 4.6). -/
theorem Dev.nopItem_nop (d : Dev) (n q : Nat) (i : Item) (h : d.item? n q = some i) (he : engineOf i.desc = 0) (hp : i.pend = none)
    (hph : i.phase = .ready) : d.nopItem n q = d.finishPlain n q i.doneStatus 0 := by
  unfold Dev.nopItem
  simp [h, he, hp, hph]

/-- An item of another engine is no NOP. -/
theorem Dev.nopItem_other (d : Dev) (n q : Nat) (i : Item) (h : d.item? n q = some i) (he : engineOf i.desc ≠ 0) : d.nopItem n q = d := by
  unfold Dev.nopItem
  simp [h, he]

/-- An accepted item of an engine is entered and counted. -/
theorem Dev.accept_sound (d : Dev) (n : Nat) (x : BitVec 512) (f : Form) (e : Nat) (hh : (d.ring n).head = .headerWrite x f e)
    (hn : d.item? n ((d.ring n).acceptSeq + 1).toNat = none) (hf : descFault x = none) (he : engineOf x ≠ 0) :
    (d.accept n).wk = (d.entered n x f e).wk := by
  have hacc : d.accept n = ((d.entered n x f e).countAdmitted (classOf x .primary)
      ((d.entered n x f e).fallbackOf x |>.orElse fun _ => some (descF x 8 31 26, descF x 20 31 0)) f).nopItem n
        ((d.ring n).acceptSeq + 1).toNat := by
    unfold Dev.accept
    simp only [hh, hf]
    rfl
  rw [hacc, Dev.nopItem_other _ _ _ (Item.fresh n ((d.ring n).acceptSeq + 1).toNat x f e) _ he, Dev.countAdmitted_wk]
  rw [Dev.item?_congr (congrArg Work.items (Dev.countAdmitted_wk _ _ _ _)), d.item?_entered n x f e hn]

/-- An accepted item whose descriptor R88 faults is entered and completes FAILED. -/
theorem Dev.accept_faulty (d : Dev) (n : Nat) (x : BitVec 512) (f : Form) (e c : Nat) (hh : (d.ring n).head = .headerWrite x f e)
    (hf : descFault x = some c) : d.accept n = (d.entered n x f e).finishPlain n ((d.ring n).acceptSeq + 1).toNat .failed c := by
  unfold Dev.accept
  simp only [hh, hf]
  rfl

/-! ## Transitions (R94) -/

/-- An item whose transition is recorded. -/
def Item.settled (st : LState) (i : Item) : Item := { i with pend := none, recorded := st }

theorem Item.settled_name (st : LState) (i : Item) : (i.settled st).ring = i.ring ∧ (i.settled st).seq = i.seq := ⟨rfl, rfl⟩

/-- An item that is changed beside its entry reads back. -/
theorem Dev.item?_recorded (d : Dev) (n q : Nat) (e : LEntry) (f : Item → Item) (hf : ∀ i, (f i).ring = i.ring ∧ (f i).seq = i.seq) :
    ((d.putEntry n q e).modItem n q f).item? n q = (d.item? n q).map f := by
  obtain ⟨-, -, -, -, hitems, -⟩ := d.putEntry_keeps n q e
  rw [Dev.item?_modItem_same _ _ _ _ hf, Dev.item?_congr hitems]

/-- A transition but COMPLETED is recorded in the copies and in the item. -/
theorem Dev.ledgerAck_records (d e : Dev) (n q : Nat) (okA okB : Bool) (i : Item) (st : LState) (h : d.item? n q = some i)
    (hp : i.pend = some st) (hne : st ≠ .completed) (he : d.ackCopies okA okB = (e, true)) :
    d.ledgerAck n q okA okB = (e.putEntry n q (i.entry e.wk.epoch st)).modItem n q (Item.settled st) := by
  unfold Dev.ledgerAck
  cases st with
  | completed => exact absurd rfl hne
  | _ => simp only [h, hp, he]; rfl

/-- An item is found after the answers as before. -/
theorem Acked.item? {d e : Dev} {okA okB : Bool} (h : Acked d e okA okB) (r q : Nat) : e.item? r q = d.item? r q :=
  Dev.item?_congr (by rw [h.wk]) r q

/-! ## COMPLETED (R97) -/

/-- An item whose COMPLETED is recorded. -/
def Item.closed (i : Item) : Item := { i with pend := none, recorded := .completed, phase := .completed, reserved := 0 }

theorem Item.closed_name (i : Item) : i.closed.ring = i.ring ∧ i.closed.seq = i.seq := ⟨rfl, rfl⟩

/-- An item leaves the unit it is bound to. -/
def Dev.leaveUnit (d : Dev) (i : Item) : Dev :=
  match i.page? with
  | some p => d.subInflight p
  | none => d

/-- An item's departure changes headers alone. -/
theorem Dev.leaveUnit_keeps (d : Dev) (i : Item) :
    (d.leaveUnit i).wk = d.wk ∧ (d.leaveUnit i).en = d.en ∧ (d.leaveUnit i).held = d.held := by
  unfold Dev.leaveUnit
  split <;> exact ⟨rfl, rfl, rfl⟩

theorem Hdr.settle_inflight (h : Hdr) : h.settle.inflight = h.inflight := by
  unfold Hdr.settle
  split <;> rfl

/-- The unit owns one item less. -/
theorem Dev.leaveUnit_inflight (d : Dev) (i : Item) (p : Page) (h : i.page? = some p) :
    ((d.leaveUnit i).hdr p).inflight = (d.hdr p).inflight - 1 := by
  unfold Dev.leaveUnit
  rw [h]
  dsimp only
  rw [Dev.subInflight, Dev.hdr_modHdr_same, Hdr.settle_inflight]

/-- A cost sample changes CC's table alone. -/
theorem Dev.learn_keeps (d : Dev) (i : Item) :
    (d.learn i).wk = d.wk ∧ (d.learn i).en = d.en ∧ (d.learn i).held = d.held ∧ (d.learn i).pages.hdrs = d.pages.hdrs := by
  unfold Dev.learn
  dsimp only
  split
  · exact ⟨rfl, rfl, rfl, rfl⟩
  · split
    · exact ⟨rfl, rfl, rfl, rfl⟩
    · simp [Dev.learnSample, Dev.bumpTSat]

/-- Recording COMPLETED closes the item, takes it out of its unit, lets its engine act and learn, and gives its reservation up. -/
theorem Dev.completedRecorded_closes (d e : Dev) (n q : Nat) (okA okB : Bool) (i : Item) (h : d.item? n q = some i)
    (hp : i.pend = some .completed) (he : d.ackCopies okA okB = (e, true)) :
    d.completedRecorded n q okA okB =
      ((((((e.putEntry n q (i.entry e.wk.epoch .completed)).modItem n q Item.closed).leaveUnit i).recordedHooks i).learn i).release
        i.reserved).retestJobs := by
  unfold Dev.completedRecorded
  rw [h, he]
  exact if_neg (not_not.mpr hp)

/-- NOP, DMA, composition, wire and air items leave nothing for their engine to do at COMPLETED. -/
theorem Dev.recordedHooks_none (d : Dev) (i : Item)
    (h : engineOf i.desc = 0 ∨ engineOf i.desc = 1 ∨ engineOf i.desc = 5 ∨ engineOf i.desc = 7 ∨ engineOf i.desc = 8) :
    d.recordedHooks i = d := by
  unfold Dev.recordedHooks
  obtain h | h | h | h | h := h <;> simp [h]

/-- What is left of a completed item: it is closed, its reservation is given up, and its unit owns one item less. -/
theorem Dev.completedRecorded_leaves (d : Dev) (n q : Nat) (okA okB : Bool) (i : Item) (h : d.item? n q = some i)
    (hp : i.pend = some .completed)
    (he : engineOf i.desc = 0 ∨ engineOf i.desc = 1 ∨ engineOf i.desc = 5 ∨ engineOf i.desc = 7 ∨ engineOf i.desc = 8)
    (hheld : d.held = []) (hok : (d.wk.okA && okA || d.wk.okB && okB) = true) :
    (d.completedRecorded n q okA okB).item? n q = some i.closed ∧
      (d.completedRecorded n q okA okB).en.reserved = d.en.reserved - i.reserved ∧
      ∀ p, i.page? = some p → ((d.completedRecorded n q okA okB).hdr p).inflight = (d.hdr p).inflight - 1 := by
  obtain ⟨x, hx, hack⟩ := d.ackCopies_recorded okA okB hok
  generalize hy : (x.putEntry n q (i.entry x.wk.epoch .completed)).modItem n q Item.closed = y
  have hyitem : y.item? n q = some i.closed := by
    rw [← hy, Dev.item?_recorded _ _ _ _ _ Item.closed_name, hack.item?, h]
    rfl
  have hyen : y.en = d.en := by rw [← hy]; exact hack.en
  have hyheld : y.held = [] := by rw [← hy]; exact hack.held.trans hheld
  have hyhdr : ∀ p, (y.hdr p).inflight = (d.hdr p).inflight := by rw [← hy]; exact hack.inflight
  obtain ⟨huwk, huen, huheld⟩ := y.leaveUnit_keeps i
  obtain ⟨hlwk, hlen, hlheld, hlhdr⟩ := (y.leaveUnit i).learn_keeps i
  have hrest : d.completedRecorded n q okA okB = ((y.leaveUnit i).learn i).release i.reserved := by
    rw [d.completedRecorded_closes x n q okA okB i h hp hx, hy, Dev.recordedHooks_none _ i he, Dev.retestJobs_none]
    exact hlheld.trans (huheld.trans hyheld)
  rw [hrest]
  refine ⟨?_, ?_, fun p hpage => ?_⟩
  · exact (Dev.item?_congr (congrArg Work.items (hlwk.trans huwk)) n q).trans hyitem
  · exact congrArg (fun e : Energy => e.reserved - i.reserved) (hlen.trans (huen.trans hyen))
  · exact (congrArg Hdr.inflight (Dev.hdr_congr hlhdr p)).trans ((y.leaveUnit_inflight i p hpage).trans (by rw [hyhdr]))

/-- Settles O26: the answers of the copies, acceptance, transitions and COMPLETED, each by its own rule. -/
theorem acceptanceAndLedger : Obligations.AcceptanceAndLedger := by
  refine ⟨?entries, ?lost, ?accepted, ?faulty, ?nop, ?transition, ?completed⟩
  case entries =>
    intro s n okA okB x f e hh hok
    obtain ⟨d, hd, hack⟩ := s.dev.ackCopies_recorded okA okB hok
    refine ⟨_, rfl, ?_⟩
    dsimp only
    rw [s.dev.acceptedAck_recorded d n okA okB x f e hh hd]
    have hring : d.ring n = s.dev.ring n := Dev.ring_congr (by rw [hack.wk]) n
    have hepoch : d.wk.epoch = s.dev.wk.epoch := by rw [hack.wk]
    rw [Dev.ring_modRing_same]
    refine ⟨rfl, congrArg Work.okA hack.wk, congrArg Work.okB hack.wk, fun hA => ⟨acceptedEntry x f e d.wk.epoch, ?_, rfl, rfl, rfl, hepoch⟩⟩
    have hcopy := d.putEntry_copyA n ((d.ring n).acceptSeq + 1).toNat (acceptedEntry x f e d.wk.epoch) ((congrArg Work.okA hack.wk).trans hA)
    rw [Dev.slotKey_congr hack.tbl, hring] at hcopy
    rw [hring]
    exact hcopy.symm
  case lost =>
    intro s n okA okB x f e hh hok
    obtain ⟨d, hack⟩ := s.dev.ackCopies_lost okA okB hok
    have hd := d.haltAll.detect_dx Evt.DX_LEDGER_LOST (by decide) (by decide)
    refine ⟨_, rfl, ?_⟩
    dsimp only
    rw [s.dev.acceptedAck_lost _ n okA okB x f e hh hack]
    refine ⟨hd.raised (by decide), fun m => ?_⟩
    rw [Dev.ring_congr (congrArg Work.rings hd.wk)]
    exact d.haltAll_halted m
  case accepted =>
    rintro s n x f e q hh rfl hn hf he
    have hwk := s.dev.accept_sound n x f e hh hn hf he
    refine ⟨_, rfl, ?_⟩
    dsimp only
    rw [Dev.ring_congr (congrArg Work.rings hwk), Dev.item?_congr (congrArg Work.items hwk), Dev.ring_entered,
      s.dev.item?_entered n x f e hn]
    exact ⟨rfl, rfl, rfl, rfl⟩
  case faulty =>
    rintro s n x f e q c hh rfl hn hf
    have hitem := (s.dev.entered n x f e).item?_finishPlain n _ .failed c _ (s.dev.item?_entered n x f e hn)
    have hacc := s.dev.accept_faulty n x f e c hh hf
    have hseq : ((s.dev.accept n).ring n).acceptSeq = (s.dev.ring n).acceptSeq + 1 := by
      rw [hacc, Dev.ring_finishPlain, Dev.ring_entered]
    rw [← hacc] at hitem
    exact ⟨_, _, rfl, hseq, hitem, rfl, rfl, rfl⟩
  case nop =>
    intro s n q i hi he hp hph
    have hnop := s.dev.nopItem_nop n q i hi he hp hph
    have hitem := s.dev.item?_finishPlain n q i.doneStatus 0 i hi
    have hram := s.dev.finishPlain_ram n q i.doneStatus 0
    rw [← hnop] at hitem hram
    exact ⟨_, _, rfl, hitem, rfl, rfl, rfl, hram⟩
  case transition =>
    intro s n q okA okB i st hi hp hne hok
    obtain ⟨d, hd, hack⟩ := s.dev.ackCopies_recorded okA okB hok
    have hrings : d.wk.rings = s.dev.wk.rings := by rw [hack.wk]
    refine ⟨_, i.settled st, rfl, ?_⟩
    dsimp only
    rw [s.dev.ledgerAck_records d n q okA okB i st hi hp hne hd]
    rw [Dev.item?_recorded _ _ _ _ _ (Item.settled_name st), hack.item?, hi]
    exact ⟨rfl, rfl, rfl, hrings⟩
  case completed =>
    intro s n q okA okB i hi hp heng hheld hok
    obtain ⟨hitem, hres, hinfl⟩ := s.dev.completedRecorded_leaves n q okA okB i hi hp heng hheld hok
    exact ⟨_, i.closed, rfl, hitem, rfl, rfl, rfl, rfl, hres, hinfl⟩

end Sys2Proof.Machine
end

section
/-! Completions, dispatch and checkpoints (R91, R92, R95, R106). -/

namespace Sys2Proof.Machine

/-! ## Completion entries -/

/-- The entry of a completed item that is due is written. -/
theorem Dev.completionWrite_writes (d e : Dev) (n : Nat) (i : Item) (hp : (d.ring n).posting = false) (hh : (d.ring n).halted = false)
    (hu : d.up Pg.dx = true) (hi : d.item? n ((d.ring n).postedSeq + 1).toNat = some i) (hph : i.phase = .completed)
    (hv : d.virtWrite n (d.ringAsid n) (d.cqBase n + i.seq % 65536 * 64) (d.completionBytes i) = (e, .ok)) :
    d.completionWrite n = e.modRing n (fun r => { r with posting := true }) := by
  unfold Dev.completionWrite
  simp only [hp, hh, hu, hi, hph, hv, Bool.false_and, Bool.not_true, Bool.or_self, Bool.false_eq_true, if_false, ne_eq, not_true]

/-- A message of the completion ring changes the ring's counts of entries and its delay alone. -/
theorem Dev.ringSignal_keeps (d : Dev) (n : Nat) (flagged : Bool) :
    (∃ k b, (d.ringSignal n flagged).ring n = { d.ring n with sinceIrq := k, delayArmed := b }) ∧
      (d.ringSignal n flagged).wk.items = d.wk.items := by
  unfold Dev.ringSignal
  dsimp only
  split
  · rw [Dev.ringVector, Dev.ring_congr (congrArg Work.rings (Dev.vector_wk _ _)), Dev.ring_setRing_same, Dev.vector_wk]
    exact ⟨⟨_, _, rfl⟩, rfl⟩
  · rw [Dev.ring_setRing_same]
    exact ⟨⟨_, _, rfl⟩, rfl⟩

/-- A count of a ring's outcomes changes no work. -/
theorem Dev.bumpT_if_wk (d : Dev) (c : Prop) [Decidable c] (p : Page) (a k : Nat) : (if c then d.bumpT p a k 31 0 else d).wk = d.wk := by
  split <;> simp

/-- A posted item leaves and its ring's number moves on. -/
theorem Dev.posted_leaves (d : Dev) (n : Nat) (i : Item) :
    (∃ k b, (d.posted n i).ring n = { d.ring n with posting := false, postedSeq := (d.ring n).postedSeq + 1, sinceIrq := k, delayArmed := b }) ∧
      (d.posted n i).wk.items = d.wk.items.filter (fun j => !(j.ring == i.ring && j.seq == i.seq)) := by
  obtain ⟨y, fl, hpost, hring, hitems⟩ : ∃ (y : Dev) (fl : Bool), d.posted n i = y.ringSignal n fl ∧
      y.ring n = { d.ring n with posting := false, postedSeq := (d.ring n).postedSeq + 1 } ∧
      y.wk.items = d.wk.items.filter (fun j => !(j.ring == i.ring && j.seq == i.seq)) := by
    refine ⟨_, _, rfl, ?_, ?_⟩
    · rw [Dev.ring, Dev.bumpT_if_wk, Dev.bumpT_if_wk]
      exact SMap.get_set_same _ _ _ _
    · rw [Dev.bumpT_if_wk, Dev.bumpT_if_wk]
      rfl
  obtain ⟨⟨k, b, hsig⟩, hsigitems⟩ := y.ringSignal_keeps n fl
  rw [hpost, hsig, hsigitems, hring]
  exact ⟨⟨k, b, rfl⟩, hitems⟩

/-- An item that has left is found no more. -/
theorem Dev.item?_left (d : Dev) (l : List Item) (r q : Nat) (h : d.wk.items = l.filter (fun j => !(j.ring == r && j.seq == q))) :
    d.item? r q = none := by
  rw [Dev.item?, h, List.find?_eq_none]
  intro j hj
  have hne := (List.mem_filter.mp hj).2
  rw [Bool.not_eq_true'] at hne
  exact Bool.eq_false_iff.mp hne

/-- An acknowledged entry is posted (R91). -/
theorem Dev.completionAck_posts (d : Dev) (n : Nat) (i : Item) (hp : (d.ring n).posting = true)
    (hi : d.item? n ((d.ring n).postedSeq + 1).toNat = some i) : d.completionAck n true = d.posted n i := by
  unfold Dev.completionAck
  simp only [hp, hi, Bool.not_true, Bool.false_eq_true, if_false]

/-- A refused entry halts the ring with HALT_CAUSE 4 (R536). -/
theorem Dev.completionAck_refused (d : Dev) (n : Nat) (hp : (d.ring n).posting = true) :
    d.completionAck n false = ((d.setRing n { d.ring n with posting := false }).haltRing n 4).detect Pg.dx Evt.DX_RING_HALT := by
  unfold Dev.completionAck
  simp only [hp, Bool.not_true, Bool.false_eq_true, if_false, Bool.not_false, if_true]

/-- A message on a vector that is not masked leaves at once in L0 (R48). -/
theorem Dev.vector_sends (d : Dev) (v : Nat) (hl : d.sys.l0 = true) (hm : d.vectorMasked v = false) : d.vector v = d.emit (.msix v) := by
  unfold Dev.vector
  simp [hl, hm]

/-- An expired delay sends the ring's vector (R92). -/
theorem Dev.irqDelayExpire_sends (d : Dev) (n : Nat) (ha : (d.ring n).delayArmed = true) (he : d.irqEn n = true) (hl : d.sys.l0 = true)
    (hm : d.vectorMasked (60 + n) = false) :
    d.irqDelayExpire n = (d.setRing n { d.ring n with sinceIrq := 0, delayArmed := false }).emit (.msix (60 + n)) := by
  unfold Dev.irqDelayExpire
  dsimp only
  rw [ha, if_neg (by decide)]
  exact (if_pos he).trans (Dev.vector_sends _ _ hl hm)

/-! ## Dispatch (R106) -/

/-- An item is found under its own name. -/
theorem Dev.item?_name {d : Dev} {r q : Nat} {i : Item} (h : d.item? r q = some i) : i.ring = r ∧ i.seq = q := by
  simpa using List.find?_some h

/-- What dispatch asks of an item of an engine: nothing recorded is awaited, no earlier item fences it, DX works and no encore is due,
and its ring's address space is in use. -/
structure Dispatchable (d : Dev) (n q : Nat) (i : Item) : Prop where
  item : d.item? n q = some i
  free : i.pend = none
  ready : i.phase = .ready
  unfenced : d.fenced i = false
  up : d.up Pg.dx = true
  noEncore : d.sys.encoreRunning = false
  engine : engineOf i.desc ≠ 0
  space : (d.identity (d.ringAsid n) || d.asidValid (d.ringAsid n)) = true

theorem Dispatchable.noRefusal {d : Dev} {n q : Nat} {i : Item} (h : Dispatchable d n q i) :
    ¬(!d.identity (d.ringAsid n) && !d.asidValid (d.ringAsid n)) = true := by
  rw [← Bool.not_or, h.space]
  decide

/-- The item is bound where it is taken. -/
theorem Dispatchable.binds {d : Dev} {n q : Nat} {i : Item} (h : Dispatchable d n q i) {k : Nat} (ht : d.target i.desc = some k) :
    d.dispatch n q = d.bind i k := by
  unfold Dev.dispatch
  simp only [h.item, h.free, h.ready, h.unfenced, h.up, h.noEncore, ht]
  rw [if_neg (by simp), if_neg h.engine, if_neg h.noRefusal]

/-- An item that no unit takes is returned, where the unit it names may not come back. -/
theorem Dispatchable.returns {d : Dev} {n q : Nat} {i : Item} (h : Dispatchable d n q i) {k : Nat} (ht : d.target i.desc = none)
    (hk : namedInst i.desc = some k) (hm : d.mayCome i.desc k = false) : d.dispatch n q = d.finishPlain n q .returned Cause.DRAINED := by
  unfold Dev.dispatch
  simp only [h.item, h.free, h.ready, h.unfenced, h.up, h.noEncore, ht, hk, hm]
  rw [if_neg (by simp), if_neg h.engine, if_neg h.noRefusal, if_neg Bool.false_ne_true]

/-- An item bound to a unit of its engine. -/
def Item.boundTo (k : Nat) (i : Item) : Item := { i with inst := some k, phase := .bound }

/-- A bound item counts in its unit's INFLIGHT and in no other. -/
theorem Dev.bind_binds (d : Dev) (n q k : Nat) (i : Item) (p : Page) (h : d.item? n q = some i) (hp : enginePage (engineOf i.desc) k = some p) :
    (d.bind i k).item? n q = some (i.boundTo k) ∧ ((d.bind i k).hdr p).inflight = (d.hdr p).inflight + 1 ∧ sameHdrsBut d (d.bind i k) p := by
  obtain ⟨hr, hq⟩ := Dev.item?_name h
  have hbind : d.bind i k = (d.modItem n q (Item.boundTo k)).addInflight p := by
    unfold Dev.bind
    rw [hp, hr, hq]
    rfl
  have hitem := d.item?_modItem_same n q (Item.boundTo k) (fun _ => ⟨rfl, rfl⟩)
  rw [hbind, Dev.addInflight]
  refine ⟨?_, ?_, fun x hx => Dev.hdr_modHdr_other _ _ _ _ hx⟩
  · rw [h] at hitem
    exact hitem
  · rw [Dev.hdr_modHdr_same, Hdr.settle_inflight]
    rfl

/-! ## Checkpoints (R95) -/

/-- A map filled key by key holds at each key what was put there. -/
theorem SMap.get_foldl_set {α : Type} [DecidableEq α] (d f : Nat → α) (l : List Nat) (n : Nat) : ∀ m : SMap α,
    (n ∈ l ∨ SMap.get d m n = f n) → SMap.get d (l.foldl (fun m k => SMap.set d m k (f k)) m) n = f n := by
  induction l with
  | nil => exact fun m h => h.resolve_left List.not_mem_nil
  | cons k l ih =>
    refine fun m h => ih _ ?_
    by_cases hk : n = k
    · rw [hk, SMap.get_set_same]
      exact .inr rfl
    · rw [SMap.get_set_other _ _ _ _ _ hk]
      exact h.imp_left (fun h => (List.mem_cons.mp h).resolve_left hk)

/-- Settles O27: completion entries, the delay, dispatch and the checkpoint. -/
theorem completionAndDispatch : Obligations.CompletionAndDispatch := by
  refine ⟨?write, ?posts, ?refused, ?delay, ?binds, ?returns, ?checkpoint⟩
  case write =>
    intro s n i d hp hh hu hi hph hv ha
    have hw := s.dev.completionWrite_writes d n i hp hh hu hi hph hv
    refine ⟨_, s.onBus_quiet (·.completionWrite n) (by rw [hw]; exact ha), ?_⟩
    dsimp only
    rw [hw, Dev.ring_modRing_same]
    exact ⟨rfl, rfl⟩
  case posts =>
    intro s n i hp hi
    obtain ⟨⟨k, b, hring⟩, hitems⟩ := s.dev.posted_leaves n i
    refine ⟨_, rfl, ?_⟩
    dsimp only
    rw [s.dev.completionAck_posts n i hp hi, hring]
    exact ⟨rfl, rfl, Dev.item?_left _ _ _ _ hitems, rfl⟩
  case refused =>
    intro s n hp
    obtain ⟨hring, hraised⟩ := (s.dev.setRing n { s.dev.ring n with posting := false }).haltRing_detect n 4 Evt.DX_RING_HALT (by decide) (by decide)
    refine ⟨_, rfl, ?_⟩
    dsimp only
    rw [s.dev.completionAck_refused n hp, hring, Dev.ring_setRing_same]
    exact ⟨rfl, rfl, rfl, hraised⟩
  case delay =>
    intro s n ha he hl hm
    refine ⟨_, rfl, ?_⟩
    dsimp only
    rw [s.dev.irqDelayExpire_sends n ha he hl hm]
    exact ⟨List.mem_cons_self, congrArg Ring.delayArmed (Dev.ring_setRing_same _ _ _)⟩
  case binds =>
    intro s n q k i p hi hp hph hf hu hn he ha ht hpage
    obtain ⟨hitem, hinfl, hothers⟩ := s.dev.bind_binds n q k i p hi hpage
    rw [← Dispatchable.binds ⟨hi, hp, hph, hf, hu, hn, he, ha⟩ ht] at hitem hinfl hothers
    exact ⟨_, _, rfl, hitem, rfl, rfl, hinfl, hothers⟩
  case returns =>
    intro s n q k i hi hp hph hf hu hn he ha ht hk hm
    have hitem := s.dev.item?_finishPlain n q .returned Cause.DRAINED i hi
    rw [← Dispatchable.returns ⟨hi, hp, hph, hf, hu, hn, he, ha⟩ ht hk hm] at hitem
    exact ⟨_, _, rfl, hitem, rfl, rfl, rfl⟩
  case checkpoint =>
    exact fun s => ⟨_, rfl, rfl, rfl, fun n hn => SMap.get_foldl_set _ _ _ n _ (.inl hn), rfl, rfl⟩

end Sys2Proof.Machine
end

section
/-! Ring contexts and the ledger's configuration (R108, R109). -/

namespace Sys2Proof.Machine

/-! ## Stored entries -/

/-- A field of which every bit is written reads as in the written word. -/
theorem fld_merged_written (hi lo : Nat) (old w m : Word) (h : lo ≤ hi) (hm : ∀ i < hi + 1, lo ≤ i → m.getLsbD i = true) :
    fld hi lo ((old &&& ~~~ m) ||| (w &&& m)) = fld hi lo w := by
  apply Nat.eq_of_testBit_eq
  intro i
  rw [fld_testBit, fld_testBit]
  by_cases hi' : i < hi - lo + 1
  · simp [hm (lo + i) (by omega) (by omega)]
  · simp [hi']

/-- A field of which no bit is written reads as before. -/
theorem fld_merged_kept (hi lo : Nat) (old w m : Word) (h : lo ≤ hi) (h32 : hi < 32) (hm : ∀ i < hi + 1, lo ≤ i → m.getLsbD i = false) :
    fld hi lo ((old &&& ~~~ m) ||| (w &&& m)) = fld hi lo old := by
  apply Nat.eq_of_testBit_eq
  intro i
  rw [fld_testBit, fld_testBit]
  by_cases hi' : i < hi - lo + 1
  · have h32' : lo + i < 32 := by omega
    simp only [BitVec.getLsbD_or, BitVec.getLsbD_and, BitVec.getLsbD_not, hm (lo + i) (by omega) (by omega), h32', decide_true, Bool.not_false,
      Bool.and_true, Bool.and_false, Bool.or_false]
  · simp [hi']

/-- A written bit reads as in the written word. -/
theorem bit_merged_written (n : Nat) (old w m : Word) (hm : m.getLsbD n = true) : bit n ((old &&& ~~~ m) ||| (w &&& m)) = bit n w := by
  simp [bit, hm]

/-- The store of a context entry is that of any table entry. -/
theorem Dev.storeEntry_eq (d : Dev) (n k : Nat) (ws : List Word) (ms : List Nat) :
    d.storeEntry n k ws ms = d.storeUnder Pg.dx (ringEntry n k) ms ws := rfl

/-- A stored entry changes the tables alone. -/
theorem Dev.storeEntry_keeps (d : Dev) (n k : Nat) (ws : List Word) (ms : List Nat) :
    (d.storeEntry n k ws ms).wk = d.wk ∧ (d.storeEntry n k ws ms).en = d.en := by
  unfold Dev.storeEntry
  refine foldl_keeps (fun x : Dev => x.wk = d.wk ∧ x.en = d.en) _ (fun x i h => ?_) _ d ⟨rfl, rfl⟩
  simpa using h

/-- A word of a stored entry. -/
theorem Dev.storeEntry_tw (d : Dev) (n k : Nat) (ws : List Word) (ms : List Nat) (i : Nat) (hi : i < 4) :
    (d.storeEntry n k ws ms).tw Pg.dx (ringEntry n k) i =
      (d.tw Pg.dx (ringEntry n k) i &&& ~~~ word (ms.getD i 0)) ||| (ws.getD i 0 &&& word (ms.getD i 0)) := by
  rw [Dev.storeEntry_eq, Dev.storeUnder_tw _ _ _ _ _ _ _ hi, if_pos rfl]
  rfl

/-- START_SEQ lies in an entry of its own. -/
theorem Dev.startSeq_storeEntry (d : Dev) (n : Nat) (ws : List Word) (ms : List Nat) : (d.storeEntry n 0 ws ms).startSeq n = d.startSeq n := by
  have hne : n * 4 + 2 ≠ ringEntry n 0 := by unfold ringEntry; omega
  rw [Dev.startSeq, Dev.storeEntry_eq, Dev.storeUnder_tw _ _ _ _ _ _ _ (by decide), Dev.storeUnder_tw _ _ _ _ _ _ _ (by decide),
    if_neg hne, if_neg hne, Dev.startSeq]

/-! ## RING_EN -/

/-- RING_EN does not bear on the test of an entry's ranges (R109). -/
theorem ctxRefused_putBit (b : Bool) (d2 d3 : Word) : ctxRefused (putBit 8 b d2) d3 = ctxRefused d2 d3 := by
  have hlog : fld 4 0 (putBit 8 b d2) = fld 4 0 d2 := fld_putFld_other 8 8 4 0 _ _ (by decide) (by decide) (by decide)
  unfold ctxRefused
  rw [hlog]

/-- A write out of its ranges, or while the ledger is not in use, is refused whole. -/
theorem Dev.ringEnable_refused (d : Dev) (n : Nat) (w0 w1 w2 w3 : Word)
    (h : ctxRefused w2 w3 = true ∨ d.rb Pg.dx Reg.DX_LEDGER_CFG 0 = false) : d.ringEnable n w0 w1 w2 w3 = d.ledgerCfgEvent := by
  unfold Dev.ringEnable
  dsimp only
  rw [ctxRefused_putBit]
  by_cases hc : ctxRefused w2 w3 = true
  · exact if_pos hc
  · rw [if_neg hc, if_pos]
    rw [h.resolve_left hc]
    rfl

/-- The ring with its context stored, as RING_EN is written. -/
def Dev.withContext (d : Dev) (n : Nat) (w0 w1 w2 w3 : Word) (on : Bool) : Dev :=
  d.storeEntry n 0 [w0, w1, putBit 8 on w2, w3] (entryMasks 0 (d.ringActive n))

/-- An inactive ring starts afresh. -/
theorem Dev.ringEnable_starts (d : Dev) (n : Nat) (w0 w1 w2 w3 : Word) (ha : d.ringActive n = false) (hc : ctxRefused w2 w3 = false)
    (hl : d.rb Pg.dx Reg.DX_LEDGER_CFG 0 = true) (hs : d.sliceFits n (fld 3 0 w3 + 6) = true) (hh : (d.ring n).halted = false) :
    d.ringEnable n w0 w1 w2 w3 = ((d.withContext n w0 w1 w2 w3 true).startRing n).checkpoint := by
  unfold Dev.ringEnable Dev.withContext
  simp only [ctxRefused_putBit, ha, hc, hl, hs, hh, Bool.not_true, Bool.or_self, Bool.false_eq_true, if_false]

/-- A ring as RING_EN resumes it. -/
def Ring.resumed (r : Ring) : Ring := { r with enabled := true, halted := false, haltCause := 0, hold := 0 }

/-- A halted ring that is active resumes with its numbers. -/
theorem Dev.ringEnable_resumes (d : Dev) (n : Nat) (w0 w1 w2 w3 : Word) (hc : ctxRefused w2 w3 = false)
    (hl : d.rb Pg.dx Reg.DX_LEDGER_CFG 0 = true) (ha : d.ringActive n = true) (hs : d.sliceFits n (d.ledgerLog2 n) = true)
    (hh : (d.ring n).halted = true) :
    d.ringEnable n w0 w1 w2 w3 = ((d.withContext n w0 w1 w2 w3 true).setRing n (d.ring n).resumed).checkpoint := by
  unfold Dev.ringEnable Dev.withContext Ring.resumed
  simp only [ctxRefused_putBit, ha, hc, hl, hs, hh, Bool.not_true, Bool.or_self, Bool.false_eq_true, if_false, if_true]

/-- A checkpoint leaves every ring. -/
theorem Dev.ring_checkpoint (d : Dev) (n : Nat) : d.checkpoint.ring n = d.ring n := rfl

theorem Dev.checkpoint_keeps (d : Dev) : d.checkpoint.pages = d.pages ∧ d.checkpoint.en = d.en ∧ d.checkpoint.wk.items = d.wk.items :=
  ⟨rfl, rfl, rfl⟩

/-- Stored contexts stand where the tables stay. -/
theorem Dev.context_congr {d e : Dev} (h : e.pages.tbl = d.pages.tbl) (n : Nat) :
    e.tb Pg.dx (ringEntry n 0) 2 8 = d.tb Pg.dx (ringEntry n 0) 2 8 ∧ e.sqLog2 n = d.sqLog2 n :=
  ⟨Dev.tb_congr h _ _ _ _, Dev.tf_congr h _ _ _ _ _⟩

/-- RING_EN and SQ_LOG2 of a stored context: RING_EN is written always, SQ_LOG2 while the ring is inactive. -/
theorem Dev.withContext_entry (d : Dev) (n : Nat) (w0 w1 w2 w3 : Word) (on : Bool) :
    (d.withContext n w0 w1 w2 w3 on).tb Pg.dx (ringEntry n 0) 2 8 = on ∧
      (d.withContext n w0 w1 w2 w3 on).sqLog2 n = if d.ringActive n then d.sqLog2 n else fld 4 0 w2 := by
  have hw : (d.withContext n w0 w1 w2 w3 on).tw Pg.dx (n * 4) 2 =
      (d.tw Pg.dx (n * 4) 2 &&& ~~~ word ((entryMasks 0 (d.ringActive n)).getD 2 0)) |||
        (putBit 8 on w2 &&& word ((entryMasks 0 (d.ringActive n)).getD 2 0)) := d.storeEntry_tw n 0 _ _ 2 (by decide)
  have hlog : fld 4 0 (putBit 8 on w2) = fld 4 0 w2 := fld_putFld_other 8 8 4 0 _ _ (by decide) (by decide) (by decide)
  have hen : bit 8 (putBit 8 on w2) = on := bit_putBit_same 8 on w2 (by decide)
  refine ⟨?_, ?_⟩
  · refine (congrArg (bit 8) hw).trans ?_
    cases d.ringActive n <;> exact (bit_merged_written 8 _ _ _ (by decide)).trans hen
  · refine (congrArg (fld 4 0) hw).trans ?_
    cases d.ringActive n
    · exact (fld_merged_written 4 0 _ _ _ (by decide) (by decide)).trans hlog
    · exact fld_merged_kept 4 0 _ _ _ (by decide) (by decide) (by decide)

/-- A ring started afresh stands before START_SEQ. -/
theorem Dev.ring_startRing (d : Dev) (n : Nat) :
    ((d.startRing n).ring n).enabled = true ∧ ((d.startRing n).ring n).acceptSeq = (d.startSeq n : Int) - 1 ∧
      ((d.startRing n).ring n).postedSeq = (d.startSeq n : Int) - 1 := by
  have hring : (d.startRing n).ring n = (d.modRing n (fun r => { Ring.reset with
      enabled := true, acceptSeq := (d.startSeq n : Int) - 1, postedSeq := (d.startSeq n : Int) - 1, sqTail := (d.startSeq n : Int) - 1,
      cqTail := (d.startSeq n : Int) - 1, priorAccept := r.priorAccept, priorPosted := r.priorPosted })).ring n := rfl
  rw [hring, Dev.ring_modRing_same]
  exact ⟨rfl, rfl, rfl⟩

theorem Dev.startRing_tbl (d : Dev) (n : Nat) : (d.startRing n).pages.tbl = d.pages.tbl := rfl

/-- RING_EN = 0 stops acceptance and gives up the head's reservation (R73). -/
theorem Dev.ringDisable_stops (d : Dev) (n : Nat) (w0 w1 w2 w3 : Word) (hc : ctxRefused w2 w3 = false) :
    d.ringDisable n w0 w1 w2 w3 =
      (((d.withContext n w0 w1 w2 w3 false).dropHead n).modRing n (fun r => { r with enabled := false, hold := 0 })).checkpoint := by
  unfold Dev.ringDisable Dev.withContext
  simp only [ctxRefused_putBit, hc, Bool.false_eq_true, if_false]

/-! ## The ledger's registers (R108) -/

/-- While a ring is active nothing is stored. -/
theorem Dev.ledgerCfgWrite_refused (d : Dev) (which : Nat) (v : Word) (h : d.anyRingActive = true) : d.ledgerCfgWrite which v = d.ledgerCfgEvent :=
  if_pos h

/-- A base is stored and the copies hold nothing (assumption log 122). -/
theorem Dev.ledgerCfgWrite_base (d : Dev) (which : Nat) (v : Word) (h : d.anyRingActive = false) (hw : which < 4) :
    d.ledgerCfgWrite which v =
      (d.setReg Pg.dx (Reg.DX_LEDGER_A_LO + 4 * which) (v &&& (if which % 2 = 0 then 0xFFFFF000 else 0x1F))).ledgerEmpty.checkpoint := by
  unfold Dev.ledgerCfgWrite
  rw [h, if_neg Bool.false_ne_true, if_pos hw]

/-- The ledger comes into use: its size and both flags of its status. -/
theorem Dev.ledgerCfgWrite_uses (d : Dev) (v : Word) (h : d.anyRingActive = false) (hv : bit 0 v = true) (hs : 2 ≤ fld 10 1 v)
    (hm : d.ledgerMisplaced (fld 10 1 v) = false) : (d.ledgerCfgWrite 4 v).pages =
      (((d.setReg Pg.dx Reg.DX_LEDGER_CFG (word (1 + fld 10 1 v * 2))).setRb Pg.dx Reg.DX_LEDGER_STAT 0 true).setRb Pg.dx
        Reg.DX_LEDGER_STAT 2 false).pages := by
  have hsize : ledgerSize v = fld 10 1 v := if_pos hs
  unfold Dev.ledgerCfgWrite
  simp only [h, hv, hsize, hm]
  rfl

theorem fld_lt (hi lo : Nat) (w : Word) : fld hi lo w < 2 ^ (hi - lo + 1) := Nat.mod_lt _ (Nat.two_pow_pos _)

/-- EN and SIZE_MIB of a stored configuration. -/
theorem ledgerCfg_word (n : Nat) (h : n < 1024) : bit 0 (word (1 + n * 2)) = true ∧ fld 10 1 (word (1 + n * 2)) = n := by
  have hnum : (word (1 + n * 2)).toNat = 1 + n * 2 := by rw [word_toNat]; omega
  refine ⟨?_, ?_⟩
  · rw [bit, BitVec.getLsbD, hnum, Nat.testBit_zero]
    simp
  · rw [fld, hnum, Nat.shiftRight_eq_div_pow]
    omega

/-- The flags that show a ledger in use. -/
theorem Dev.ledgerInUse (d : Dev) (n : Nat) (h : n < 1024) (e : Dev) (he : e.pages = (((d.setReg Pg.dx Reg.DX_LEDGER_CFG
    (word (1 + n * 2))).setRb Pg.dx Reg.DX_LEDGER_STAT 0 true).setRb Pg.dx Reg.DX_LEDGER_STAT 2 false).pages) :
    e.rb Pg.dx Reg.DX_LEDGER_CFG 0 = true ∧ e.rf Pg.dx Reg.DX_LEDGER_CFG 10 1 = n ∧ e.rb Pg.dx Reg.DX_LEDGER_STAT 0 = true := by
  obtain ⟨hen, hsize⟩ := ledgerCfg_word n h
  have hregs := congrArg Pages.regs he
  generalize hx : d.setReg Pg.dx Reg.DX_LEDGER_CFG (word (1 + n * 2)) = x at hregs
  have hcfg : x.reg Pg.dx Reg.DX_LEDGER_CFG = word (1 + n * 2) := by rw [← hx, Dev.reg_setReg_same]
  have hkept : ((x.setRb Pg.dx Reg.DX_LEDGER_STAT 0 true).setRb Pg.dx Reg.DX_LEDGER_STAT 2 false).reg Pg.dx Reg.DX_LEDGER_CFG = word (1 + n * 2) := by
    rw [Dev.setRb, Dev.reg_setRf_other _ _ _ _ _ _ _ _ _ _ (by decide) (by decide) (by decide), Dev.setRb,
      Dev.reg_setRf_other _ _ _ _ _ _ _ _ _ _ (by decide) (by decide) (by decide), hcfg]
  have hstat : ((x.setRb Pg.dx Reg.DX_LEDGER_STAT 0 true).setRb Pg.dx Reg.DX_LEDGER_STAT 2 false).rb Pg.dx Reg.DX_LEDGER_STAT 0 = true := by
    have hw : ((x.setRb Pg.dx Reg.DX_LEDGER_STAT 0 true).setRb Pg.dx Reg.DX_LEDGER_STAT 2 false).reg Pg.dx Reg.DX_LEDGER_STAT =
        putBit 2 false (putBit 0 true (x.reg Pg.dx Reg.DX_LEDGER_STAT)) := by
      rw [Dev.setRb, Dev.setRf, Dev.reg_setReg_same, Dev.setRb, Dev.setRf, Dev.reg_setReg_same]
      rfl
    rw [Dev.rb, hw, bit_putBit_other _ _ _ _ (by decide), bit_putBit_same _ _ _ (by decide)]
  rw [Dev.rb_congr hregs, Dev.rf_congr hregs, Dev.rb_congr hregs, Dev.rb, Dev.rf, hkept]
  exact ⟨hen, hsize, hstat⟩

end Sys2Proof.Machine
end

section
/-! Encore (R101): what the encore of one item and of one ring leaves of the others, and what it restores of its own. -/

namespace Sys2Proof.Machine

/-! ## Folds -/

/-- A fold over distinct things, at the step for one of them: what relates every other step's two sides relates the fold's start to the
state before that step, and the state after it to the fold's end. -/
theorem foldl_at {S B : Type} (R : S → S → Prop) (hrefl : ∀ a, R a a) (htrans : ∀ a b c, R a b → R b c → R a c) (f : S → B → S) (b : B)
    (h : ∀ a x, x ≠ b → R a (f a x)) (l : List B) (hn : l.Nodup) (hb : b ∈ l) : ∀ a, ∃ m, R a m ∧ R (f m b) (l.foldl f a) := by
  have hskip : ∀ (l : List B) (a : S), b ∉ l → R a (l.foldl f a) := by
    intro l a hb
    refine List.foldlRecOn (motive := fun x => R a x) l f (hrefl a) (fun x hx y hy => htrans _ _ _ hx (h x y ?_))
    exact fun he => hb (he ▸ hy)
  induction l with
  | nil => exact absurd hb List.not_mem_nil
  | cons x l ih =>
    intro a
    obtain ⟨hxl, hnl⟩ := List.nodup_cons.mp hn
    by_cases hx : x = b
    · subst hx
      exact ⟨a, hrefl a, hskip l _ hxl⟩
    · obtain ⟨m, ham, hme⟩ := ih hnl ((List.mem_cons.mp hb).resolve_left (fun he => hx he.symm)) (f a x)
      exact ⟨m, htrans _ _ _ (h a x hx) ham, hme⟩

/-! ## What encore leaves of a ring -/

/-- What the encore of other items and rings leaves of ring `n`: its numbers, its headers, and of every entry that a copy shows the
descriptor and the state. Items that have come stay. -/
structure EncoreLeaves (n : Nat) (d e : Dev) : Prop where
  tbl : e.pages.tbl = d.pages.tbl
  ring : e.ring n = d.ring n
  headersA : e.wk.copyA.headers = d.wk.copyA.headers
  headersB : e.wk.copyB.headers = d.wk.copyB.headers
  okA : e.wk.okA = d.wk.okA
  okB : e.wk.okB = d.wk.okB
  epoch : e.wk.epoch = d.wk.epoch
  entries : ∀ q y, d.lowerEntry n q = some y → ∃ x, e.lowerEntry n q = some x ∧ x.desc = y.desc ∧ x.state = y.state
  items : ∀ i ∈ d.wk.items, i ∈ e.wk.items

theorem EncoreLeaves.refl (n : Nat) (d : Dev) : EncoreLeaves n d d :=
  ⟨rfl, rfl, rfl, rfl, rfl, rfl, rfl, fun _ y h => ⟨y, h, rfl, rfl⟩, fun _ h => h⟩

theorem EncoreLeaves.trans (n : Nat) (d e f : Dev) (h : EncoreLeaves n d e) (h' : EncoreLeaves n e f) : EncoreLeaves n d f where
  tbl := h'.tbl.trans h.tbl
  ring := h'.ring.trans h.ring
  headersA := h'.headersA.trans h.headersA
  headersB := h'.headersB.trans h.headersB
  okA := h'.okA.trans h.okA
  okB := h'.okB.trans h.okB
  epoch := h'.epoch.trans h.epoch
  entries := fun q y hy => by
    obtain ⟨x, hx, hxd, hxs⟩ := h.entries q y hy
    obtain ⟨z, hz, hzd, hzs⟩ := h'.entries q x hx
    exact ⟨z, hz, hzd.trans hxd, hzs.trans hxs⟩
  items := fun i hi => h'.items i (h.items i hi)

/-- The header that encore goes by stays. -/
theorem EncoreLeaves.headerOf {n : Nat} {d e : Dev} (h : EncoreLeaves n d e) : e.headerOf n = d.headerOf n := by
  unfold Dev.headerOf Dev.headerIn
  rw [h.headersA, h.headersB, h.okA, h.okB, h.epoch]

/-- Entries that stay as they are stay what encore goes by. -/
theorem Dev.lowerEntry_congr {d e : Dev} (ht : e.pages.tbl = d.pages.tbl) (ha : e.wk.copyA.entries = d.wk.copyA.entries)
    (hb : e.wk.copyB.entries = d.wk.copyB.entries) (hoa : e.wk.okA = d.wk.okA) (hob : e.wk.okB = d.wk.okB) (he : e.wk.epoch = d.wk.epoch)
    (n q : Nat) : e.lowerEntry n q = d.lowerEntry n q := by
  unfold Dev.lowerEntry Dev.entryIn
  rw [Dev.slotKey_congr ht, ha, hb, hoa, hob, he]

/-- What changes a device's rings and adds items but leaves ring `n`, the copies and the tables. -/
theorem EncoreLeaves.of_copies {n : Nat} {d e : Dev} (ht : e.pages.tbl = d.pages.tbl) (hr : e.ring n = d.ring n) (ha : e.wk.copyA = d.wk.copyA)
    (hb : e.wk.copyB = d.wk.copyB) (hoa : e.wk.okA = d.wk.okA) (hob : e.wk.okB = d.wk.okB) (he : e.wk.epoch = d.wk.epoch)
    (hi : ∀ i ∈ d.wk.items, i ∈ e.wk.items) : EncoreLeaves n d e :=
  ⟨ht, hr, by rw [ha], by rw [hb], hoa, hob, he,
    fun q y hy => ⟨y, (Dev.lowerEntry_congr ht (by rw [ha]) (by rw [hb]) hoa hob he n q).trans hy, rfl, rfl⟩, hi⟩

/-- A detection of DX leaves every ring. -/
theorem Detected.encoreLeaves {d e : Dev} {p : Page} {src : Nat} (h : Detected d e p src) (n : Nat) : EncoreLeaves n d e := by
  obtain ⟨-, -, htbl, -⟩ := h.keeps
  exact .of_copies htbl (Dev.ring_congr (by rw [h.wk]) n) (by rw [h.wk]) (by rw [h.wk]) (by rw [h.wk]) (by rw [h.wk]) (by rw [h.wk])
    (fun i hi => by rw [h.wk]; exact hi)

/-! ## Entries -/

/-- Two numbers of one slot have one entry. -/
theorem Dev.lowerEntry_slot (d : Dev) {n q m k : Nat} (h : d.slotKey n q = d.slotKey m k) : d.lowerEntry n q = d.lowerEntry m k := by
  unfold Dev.lowerEntry Dev.entryIn
  rw [h]

/-- The entry that encore goes by stands in a copy in use. -/
theorem Dev.lowerEntry_found {d : Dev} {n q : Nat} {y : LEntry} (h : d.lowerEntry n q = some y) :
    (d.wk.okA = true ∨ d.wk.okB = true) ∧ y.valid = true ∧ y.epoch = d.wk.epoch := by
  have hin : ∀ (ok : Bool) (c : LCopy) (z : LEntry), d.entryIn ok c n q = some z → ok = true ∧ z.valid = true ∧ z.epoch = d.wk.epoch := by
    intro ok c z hz
    unfold Dev.entryIn at hz
    dsimp only at hz
    split at hz
    · next hc =>
      simp only [Bool.and_eq_true, decide_eq_true_eq] at hc
      obtain ⟨⟨hok, hvalid⟩, hepoch⟩ := hc
      rw [← Option.some.inj hz]
      exact ⟨hok, hvalid, hepoch⟩
    · exact absurd hz (by simp)
  unfold Dev.lowerEntry at h
  split at h
  · next a b ha hb =>
    split at h <;> rw [← Option.some.inj h]
    · exact ⟨.inr (hin _ _ _ hb).1, (hin _ _ _ hb).2⟩
    · exact ⟨.inl (hin _ _ _ ha).1, (hin _ _ _ ha).2⟩
  · next a ha hb =>
    rw [← Option.some.inj h]
    exact ⟨.inl (hin _ _ _ ha).1, (hin _ _ _ ha).2⟩
  · exact ⟨.inr (hin _ _ _ h).1, (hin _ _ _ h).2⟩

/-- What a copy shows after an entry was written into it: the entry in its slot, the same as before in every other. -/
theorem Dev.entryIn_putEntry (d : Dev) (n q m k : Nat) (z : LEntry) (ok : Bool) (c : LCopy) (hv : z.valid = true) (he : z.epoch = d.wk.epoch) :
    (d.putEntry m k z).entryIn ok
        (if ok then { c with entries := SMap.set (fun _ => LEntry.invalid) c.entries (d.slotKey m k) z } else c) n q =
      if d.slotKey n q = d.slotKey m k then (if ok then some z else none) else d.entryIn ok c n q := by
  have hkey : (d.putEntry m k z).slotKey n q = d.slotKey n q := Dev.slotKey_congr rfl n q
  have hepoch : (d.putEntry m k z).wk.epoch = d.wk.epoch := rfl
  unfold Dev.entryIn
  rw [hkey, hepoch]
  cases ok with
  | false => simp
  | true =>
    by_cases hs : d.slotKey n q = d.slotKey m k
    · simp [hs, hv, he]
    · simp [hs, SMap.get_set_other _ _ _ _ _ hs]

/-- An entry that is written where encore found one shows in every copy in use; every other slot shows what it did. -/
theorem Dev.lowerEntry_putEntry (d : Dev) (n q m k : Nat) (z : LEntry) (hok : d.wk.okA = true ∨ d.wk.okB = true) (hv : z.valid = true)
    (he : z.epoch = d.wk.epoch) :
    (d.putEntry m k z).lowerEntry n q = if d.slotKey n q = d.slotKey m k then some z else d.lowerEntry n q := by
  have ha : (d.putEntry m k z).entryIn (d.putEntry m k z).wk.okA (d.putEntry m k z).wk.copyA n q = _ :=
    d.entryIn_putEntry n q m k z d.wk.okA d.wk.copyA hv he
  have hb : (d.putEntry m k z).entryIn (d.putEntry m k z).wk.okB (d.putEntry m k z).wk.copyB n q = _ :=
    d.entryIn_putEntry n q m k z d.wk.okB d.wk.copyB hv he
  unfold Dev.lowerEntry
  rw [ha, hb]
  by_cases hs : d.slotKey n q = d.slotKey m k
  · simp only [if_pos hs]
    cases hA : d.wk.okA <;> cases hB : d.wk.okB
    · rw [hA, hB] at hok
      exact absurd hok (by decide)
    all_goals simp
  · simp only [if_neg hs]

/-! ## One item -/

/-- What the ledger's entry of a number becomes: an item given back to dispatch. -/
structure Replayed (n q : Nat) (y : LEntry) (i : Item) : Prop where
  ring : i.ring = n
  seq : i.seq = q
  desc : i.desc = y.desc
  encored : i.encored = true
  inst : i.inst = none
  phase : i.phase = .ready
  recorded : i.recorded = y.state

/-- An entry not yet EMITTED is replayed. -/
theorem LEntry.item_replayed (y : LEntry) (n q left energy : Nat) (h : y.state.rank < 3) : Replayed n q y (y.item n q left energy) := by
  unfold LEntry.item
  cases hs : y.state with
  | emitted | completed => rw [hs] at h; exact absurd h (by decide)
  | accepted | started => constructor <;> simp [hs]

theorem LEntry.item_marked (y : LEntry) (n q left energy : Nat) :
    ({ y with encored := true } : LEntry).item n q left energy = y.item n q left energy := rfl

/-- The encore of an item that no copy shows enters its loss. -/
theorem Dev.encoreItem_lost (d : Dev) (old : List Item) (m k : Nat) (c : EncoreCount) (h : d.lowerEntry m k = none) :
    (d.encoreItem old m k c).1.pages.tbl = d.pages.tbl ∧
      (d.encoreItem old m k c).1.wk = { d.wk with items := d.wk.items ++ [lostItem m k] } := by
  unfold Dev.encoreItem
  simp only [h]
  generalize ((old.find? _).map (·.reserved)).getD 0 = left
  have hd := Dev.detect_dx { d.release left with wk := { (d.release left).wk with items := (d.release left).wk.items ++ [lostItem m k] } }
    Evt.DX_LEDGER_LOST (by decide) (by decide)
  obtain ⟨-, -, htbl, -⟩ := hd.keeps
  exact ⟨htbl, hd.wk⟩

/-- The encore of an item that a copy shows marks the entry in the copies and enters the item. -/
theorem Dev.encoreItem_found (d : Dev) (old : List Item) (m k : Nat) (c : EncoreCount) (y : LEntry) (h : d.lowerEntry m k = some y) :
    (d.encoreItem old m k c).1.pages.tbl = d.pages.tbl ∧ ∃ i, (y.state.rank < 3 → Replayed m k y i) ∧
      (d.encoreItem old m k c).1.wk = { (d.putEntry m k { y with encored := true }).wk with items := d.wk.items ++ [i] } := by
  unfold Dev.encoreItem
  simp only [h]
  split
  · next hr =>
    split
    · exact ⟨rfl, _, fun _ => y.item_replayed m k _ _ hr, rfl⟩
    · exact ⟨rfl, _, fun _ => y.item_replayed m k _ _ hr, rfl⟩
  · next hr => exact ⟨rfl, _, fun hlt => absurd hlt hr, rfl⟩

/-- Marking the entry that encore found leaves what encore goes by of every ring. -/
theorem Dev.putEntry_leaves (d : Dev) (m k n : Nat) (y : LEntry) (h : d.lowerEntry m k = some y) :
    EncoreLeaves n d (d.putEntry m k { y with encored := true }) := by
  obtain ⟨hok, hv, he⟩ := Dev.lowerEntry_found h
  refine ⟨rfl, rfl, d.putEntry_headersA _ _ _, d.putEntry_headersB _ _ _, rfl, rfl, rfl, fun q z hz => ?_, fun _ hi => hi⟩
  rw [d.lowerEntry_putEntry n q m k { y with encored := true } hok hv he]
  split
  · next hs =>
    rw [d.lowerEntry_slot hs, h] at hz
    exact ⟨_, rfl, by rw [← Option.some.inj hz], by rw [← Option.some.inj hz]⟩
  · exact ⟨z, hz, rfl, rfl⟩

/-- The encore of one item leaves every ring, whichever it belongs to. -/
theorem Dev.encoreItem_leaves (d : Dev) (old : List Item) (m k n : Nat) (c : EncoreCount) : EncoreLeaves n d (d.encoreItem old m k c).1 := by
  have hadds : ∀ (x e : Dev) (i : Item), e.pages.tbl = x.pages.tbl → e.wk = { x.wk with items := x.wk.items ++ [i] } → EncoreLeaves n x e :=
    fun x e i htbl hwk => .of_copies htbl (Dev.ring_congr (by rw [hwk]) n) (by rw [hwk]) (by rw [hwk]) (by rw [hwk]) (by rw [hwk])
      (by rw [hwk]) (fun j hj => by rw [hwk]; exact List.mem_append_left _ hj)
  cases hy : d.lowerEntry m k with
  | none =>
    obtain ⟨htbl, hwk⟩ := d.encoreItem_lost old m k c hy
    exact hadds d _ _ htbl hwk
  | some y =>
    obtain ⟨htbl, i, -, hwk⟩ := d.encoreItem_found old m k c y hy
    exact (d.putEntry_leaves m k n y hy).trans _ _ _ _ (hadds _ _ i htbl hwk)

/-! ## One ring -/

/-- The encore of another ring leaves a ring. -/
theorem Dev.encoreRing_leaves (d : Dev) (old : List Item) (m n : Nat) (c : EncoreCount) (h : m ≠ n) :
    EncoreLeaves n d (d.encoreRing old m c).1 := by
  have hset : ∀ (x : Dev) (r : Ring), EncoreLeaves n x (x.setRing m r) := fun x r =>
    .of_copies rfl (Dev.ring_setRing_other _ _ _ _ h.symm) rfl rfl rfl rfl rfl (fun _ hi => hi)
  have hhalt : ∀ (x : Dev) (k : Nat), EncoreLeaves n x (x.haltRing m k) := fun x k =>
    .of_copies rfl (Dev.ring_haltRing_other _ _ _ _ h.symm) rfl rfl rfl rfl rfl (fun _ hi => hi)
  have hitems : ∀ (l : List Int) (f : Int → Nat) (x : Dev × EncoreCount),
      EncoreLeaves n x.1 (l.foldl (fun (x : Dev × EncoreCount) k => x.1.encoreItem old m (f k) x.2) x).1 := fun l f x =>
    List.foldlRecOn (motive := fun y : Dev × EncoreCount => EncoreLeaves n x.1 y.1) l _ (.refl n x.1)
      (fun y hy k _ => hy.trans _ _ _ _ (y.1.encoreItem_leaves old m (f k) n y.2))
  unfold Dev.encoreRing
  dsimp only
  split
  · split
    · exact .refl n d
    · exact (hset d _).trans _ _ _ _ (((Dev.detect_dx _ Evt.DX_LEDGER_LOST (by decide) (by decide)).encoreLeaves n).trans _ _ _ _ (hhalt _ 2))
  · split
    · exact .refl n d
    · exact (hset d _).trans _ _ _ _ (hitems _ _ (_, c))

/-- The distances from POSTED_SEQ + 1 of the numbers accepted and not posted. -/
def notPosted (acc pst : Int) : List Int := (List.range (acc - pst).toNat).map Int.ofNat

/-- Each number accepted and not posted comes once. -/
theorem notPosted_spec (acc pst : Int) : (notPosted acc pst).Nodup ∧ ∀ q : Nat, pst < q → (q : Int) ≤ acc → (q : Int) - (pst + 1) ∈ notPosted acc pst := by
  refine ⟨List.nodup_range.map (fun _ _ h => Int.ofNat.inj h), fun q hp hq => ?_⟩
  exact List.mem_map.mpr ⟨((q : Int) - (pst + 1)).toNat, List.mem_range.mpr (by omega), Int.toNat_of_nonneg (by omega)⟩

/-- A ring as its header restores it. -/
def Ring.restored (r : Ring) (acc pst : Int) : Ring := { r with acceptSeq := acc, postedSeq := pst, posting := false }

/-- An enabled ring with a header goes on from it: its numbers are restored and each of its items not posted is encored. -/
theorem Dev.encoreRing_dev (d : Dev) (old : List Item) (n : Nat) (c : EncoreCount) (acc pst : Int) (hh : d.headerOf n = some (acc, pst))
    (he : (d.ring n).enabled = true) : (d.encoreRing old n c).1 =
      ((notPosted acc pst).foldl (fun (x : Dev × EncoreCount) k => x.1.encoreItem old n (pst + 1 + k).toNat x.2)
        (d.setRing n ((d.ring n).restored acc pst), c)).1 := by
  have hlist : notPosted acc pst = (do let a ← List.range (acc - pst).toNat; pure (a : Int)) := List.map_eq_flatMap
  unfold Dev.encoreRing
  rw [hh, hlist]
  dsimp only
  rw [if_neg (by simp [he])]
  rfl

/-- Its numbers are those of its header. -/
theorem Dev.encoreRing_numbers (d : Dev) (old : List Item) (n : Nat) (c : EncoreCount) (acc pst : Int) (hh : d.headerOf n = some (acc, pst))
    (he : (d.ring n).enabled = true) : (d.encoreRing old n c).1.ring n = (d.ring n).restored acc pst := by
  rw [d.encoreRing_dev old n c acc pst hh he]
  refine List.foldlRecOn (motive := fun x : Dev × EncoreCount => x.1.ring n = (d.ring n).restored acc pst) _ _ (Dev.ring_setRing_same _ _ _)
    (fun x hx k _ => ?_)
  exact (x.1.encoreItem_leaves old n _ n x.2).ring.trans hx

/-- An entry not yet EMITTED is given back to dispatch. -/
theorem Dev.encoreRing_replays (d : Dev) (old : List Item) (n : Nat) (c : EncoreCount) (acc pst : Int) (hh : d.headerOf n = some (acc, pst))
    (he : (d.ring n).enabled = true) (q : Nat) (y : LEntry) (hp : pst < q) (hq : (q : Int) ≤ acc) (hy : d.lowerEntry n q = some y)
    (hr : y.state.rank < 3) : ∃ i ∈ (d.encoreRing old n c).1.wk.items, Replayed n q y i := by
  rw [d.encoreRing_dev old n c acc pst hh he]
  obtain ⟨hnodup, hmem⟩ := notPosted_spec acc pst
  obtain ⟨⟨x, cx⟩, hbefore, hafter⟩ := foldl_at (fun a b : Dev × EncoreCount => EncoreLeaves n a.1 b.1) (fun a => .refl n a.1)
    (fun a b e hab hbe => hab.trans _ _ _ _ hbe) (fun (x : Dev × EncoreCount) k => x.1.encoreItem old n (pst + 1 + k).toNat x.2)
    ((q : Int) - (pst + 1)) (fun a k _ => a.1.encoreItem_leaves old n _ n a.2) (notPosted acc pst) hnodup (hmem q hp hq)
    (d.setRing n ((d.ring n).restored acc pst), c)
  have hnum : (pst + 1 + ((q : Int) - (pst + 1))).toNat = q := by omega
  obtain ⟨z, hz, hzd, hzs⟩ := hbefore.entries q y hy
  rw [hnum] at hafter
  obtain ⟨-, i, hi, hwk⟩ := x.encoreItem_found old n q cx z hz
  obtain ⟨hring, hseq, hdesc, henc, hinst, hphase, hrec⟩ := hi (by rw [hzs]; exact hr)
  refine ⟨i, hafter.items i ?_, ⟨hring, hseq, hdesc.trans hzd, henc, hinst, hphase, hrec.trans hzs⟩⟩
  rw [hwk]
  exact List.mem_append_right _ (List.mem_singleton.mpr rfl)

/-! ## The whole encore -/

/-- What the units give up leaves rings, items and the ledger. -/
theorem Dev.forgetRingWork_keeps (d : Dev) : d.forgetRingWork.wk = d.wk ∧ d.forgetRingWork.pages.tbl = d.pages.tbl := by
  have hleave : d.leaveUnits.wk = d.wk ∧ d.leaveUnits.pages.tbl = d.pages.tbl := by
    unfold Dev.leaveUnits
    refine foldl_keeps (fun x : Dev => x.wk = d.wk ∧ x.pages.tbl = d.pages.tbl) _ (fun x i h => ?_) _ d ⟨rfl, rfl⟩
    split
    · split
      · exact h
      · exact h
    · exact h
  exact hleave

/-- The device as encore begins on the rings. -/
def Dev.encoreBegun (d : Dev) : Dev := { d.forgetRingWork with wk := { d.forgetRingWork.wk with items := [] } }

/-- The rings, one after the other. -/
def Dev.encoreRings (d : Dev) : Dev × EncoreCount :=
  (List.range 256).foldl (fun x n => x.1.encoreRing d.wk.items n x.2) (d.encoreBegun, ⟨0, 0, 0⟩)

/-- Encore begins with every ring's numbers, headers and entries as they are. -/
theorem Dev.encoreBegun_shows (d : Dev) (n : Nat) : d.encoreBegun.ring n = d.ring n ∧ d.encoreBegun.headerOf n = d.headerOf n ∧
    ∀ q, d.encoreBegun.lowerEntry n q = d.lowerEntry n q := by
  obtain ⟨hwk, htbl⟩ := d.forgetRingWork_keeps
  have hitems : d.encoreBegun.wk = { d.wk with items := [] } := by rw [← hwk]; rfl
  refine ⟨Dev.ring_congr (by rw [hitems]) n, ?_, Dev.lowerEntry_congr (e := d.encoreBegun) htbl (by rw [hitems]) (by rw [hitems]) (by rw [hitems]) (by rw [hitems])
    (by rw [hitems]) n⟩
  unfold Dev.headerOf Dev.headerIn
  rw [hitems]

/-- A ring's own encore comes once: before it the others have left the ring, and after it they leave what it made. -/
theorem Dev.encoreRings_at (d : Dev) (n : RingNo) : ∃ x c, EncoreLeaves n.val d.encoreBegun x ∧
    EncoreLeaves n.val (x.encoreRing d.wk.items n.val c).1 d.encoreRings.1 := by
  obtain ⟨⟨x, c⟩, hbefore, hafter⟩ := foldl_at (fun a b : Dev × EncoreCount => EncoreLeaves n.val a.1 b.1) (fun a => .refl n.val a.1)
    (fun a b e hab hbe => hab.trans _ _ _ _ hbe) (fun (x : Dev × EncoreCount) m => x.1.encoreRing d.wk.items m x.2) n.val
    (fun a m hm => a.1.encoreRing_leaves d.wk.items m n.val a.2 hm) (List.range 256) List.nodup_range (List.mem_range.mpr n.isLt)
    (d.encoreBegun, ⟨0, 0, 0⟩)
  exact ⟨x, c, hbefore, hafter⟩

/-- The phase of the boot is shown in CC's registers alone. -/
theorem Dev.notePhase_keeps (d : Dev) : d.notePhase.wk = d.wk ∧ d.notePhase.sys = d.sys := by
  unfold Dev.notePhase
  dsimp only
  have hpeak : ∀ v, (d.peak Pg.cc Reg.CC_BOOT_STAT 2 0 v).wk = d.wk ∧ (d.peak Pg.cc Reg.CC_BOOT_STAT 2 0 v).sys = d.sys := by
    intro v
    unfold Dev.peak
    split <;> simp
  split <;> simp [hpeak]

/-- Encore ends with ENCORE_DONE; rings and items are as its rings have left them. -/
theorem Dev.encore_ends (d : Dev) (hr : d.sys.encoreRunning = true) (hu : d.up Pg.dx = true) :
    d.encore.wk = d.encoreRings.1.wk ∧ d.encore.sys.encoreRunning = false ∧ raised d.encore Pg.dx Evt.DX_ENCORE_DONE := by
  obtain ⟨x, henc, hwk, hsys⟩ : ∃ x : Dev, d.encore = (x.detect Pg.dx Evt.DX_ENCORE_DONE).notePhase ∧ x.wk = d.encoreRings.1.wk ∧
      x.sys.encoreRunning = false := by
    unfold Dev.encore Dev.encoreRings Dev.encoreBegun
    rw [if_neg (by simp [hr, hu])]
    generalize List.range 256 = l
    refine ⟨_, rfl, ?_, ?_⟩ <;> simp only [Dev.setReg_keeps, Dev.setRf_keeps]
  have hd := x.detect_dx Evt.DX_ENCORE_DONE (by decide) (by decide)
  obtain ⟨hpwk, hpsys⟩ := (x.detect Pg.dx Evt.DX_ENCORE_DONE).notePhase_keeps
  obtain ⟨hs, o, pd, hrest⟩ := hd.rest
  rw [henc]
  refine ⟨hpwk.trans (hd.wk.trans hwk), ?_, raised_of_hdrs (Dev.notePhase_hdrs _) (hd.raised (by decide))⟩
  rw [hpsys, hrest]
  exact hsys

/-- A ring with a header goes on from it. -/
theorem Dev.encore_numbers (d : Dev) (n : RingNo) (acc pst : Int) (hr : d.sys.encoreRunning = true) (hu : d.up Pg.dx = true)
    (hh : d.headerOf n.val = some (acc, pst)) (he : (d.ring n.val).enabled = true) :
    d.encore.ring n.val = (d.ring n.val).restored acc pst := by
  obtain ⟨x, c, hbefore, hafter⟩ := d.encoreRings_at n
  obtain ⟨hwk, -⟩ := d.encore_ends hr hu
  obtain ⟨hring, hhead, -⟩ := d.encoreBegun_shows n.val
  rw [Dev.ring_congr (congrArg Work.rings hwk), hafter.ring, x.encoreRing_numbers _ _ c acc pst, hbefore.ring, hring]
  · rw [hbefore.headerOf, hhead, hh]
  · rw [hbefore.ring, hring, he]

/-- An item of it not yet EMITTED is given back to dispatch. -/
theorem Dev.encore_replays (d : Dev) (n : RingNo) (acc pst : Int) (q : Nat) (y : LEntry) (hr : d.sys.encoreRunning = true)
    (hu : d.up Pg.dx = true) (hh : d.headerOf n.val = some (acc, pst)) (he : (d.ring n.val).enabled = true) (hp : pst < q)
    (hq : (q : Int) ≤ acc) (hy : d.lowerEntry n.val q = some y) (hrank : y.state.rank < 3) :
    ∃ i ∈ d.encore.wk.items, Replayed n.val q y i := by
  obtain ⟨x, c, hbefore, hafter⟩ := d.encoreRings_at n
  obtain ⟨hwk, -⟩ := d.encore_ends hr hu
  obtain ⟨hring, hhead, hentry⟩ := d.encoreBegun_shows n.val
  obtain ⟨z, hz, hzd, hzs⟩ := hbefore.entries q y ((hentry q).trans hy)
  obtain ⟨i, hi, hrep⟩ := x.encoreRing_replays d.wk.items n.val c acc pst (by rw [hbefore.headerOf, hhead, hh])
    (by rw [hbefore.ring, hring, he]) q z hp hq hz (by rw [hzs]; exact hrank)
  exact ⟨i, by rw [hwk]; exact hafter.items i hi, { hrep with desc := hrep.desc.trans hzd, recorded := hrep.recorded.trans hzs }⟩

/-- Settles O28: RING_EN, RING_DISABLE and the ledger's registers, and encore's restored numbers and replayed items. -/
theorem ringConfigurationAndEncore : Obligations.RingConfigurationAndEncore := by
  refine ⟨?starts, ?resumes, ?refused, ?disabled, ?held, ?base, ?inUse, ?numbers, ?replays⟩
  case starts =>
    intro s n d0 d1 d2 d3 ha hc hl hs hh
    have hstart := s.dev.ringEnable_starts n d0 d1 d2 d3 ha hc hl hs hh
    obtain ⟨hbit, hlog⟩ := s.dev.withContext_entry n d0 d1 d2 d3 true
    have hseq : (s.dev.withContext n d0 d1 d2 d3 true).startSeq n = s.dev.startSeq n := s.dev.startSeq_storeEntry n _ _
    generalize s.dev.withContext n d0 d1 d2 d3 true = x at hstart hbit hlog hseq
    obtain ⟨hen, hacc, hpst⟩ := x.ring_startRing n
    obtain ⟨hpages, -⟩ := (x.startRing n).checkpoint_keeps
    obtain ⟨htb, hsq⟩ := Dev.context_congr (d := x) (e := (x.startRing n).checkpoint) ((congrArg Pages.tbl hpages).trans (x.startRing_tbl n)) n
    rw [hseq] at hacc hpst
    rw [ha] at hlog
    refine ⟨_, rfl, ?_⟩
    dsimp only
    rw [hstart, Dev.ring_checkpoint, htb, hsq]
    exact ⟨hen, hbit, hacc, hpst, hlog⟩
  case resumes =>
    intro s n d0 d1 d2 d3 hc hl ha hs hh
    have hresume := s.dev.ringEnable_resumes n d0 d1 d2 d3 hc hl ha hs hh
    obtain ⟨-, hlog⟩ := s.dev.withContext_entry n d0 d1 d2 d3 true
    generalize s.dev.withContext n d0 d1 d2 d3 true = x at hresume hlog
    obtain ⟨-, hsq⟩ := Dev.context_congr (d := x) (e := (x.setRing n (s.dev.ring n).resumed).checkpoint)
      (by simp only [Dev.checkpoint_keeps, Dev.setRing_keeps]) n
    rw [ha] at hlog
    refine ⟨_, rfl, ?_⟩
    dsimp only
    rw [hresume, Dev.ring_checkpoint, Dev.ring_setRing_same, hsq]
    exact ⟨rfl, rfl, rfl, rfl, rfl, hlog⟩
  case refused =>
    intro s n d0 d1 d2 d3 h
    have hd := s.dev.detect_dx Evt.DX_LEDGER_CFG (by decide) (by decide)
    obtain ⟨-, -, htbl, -⟩ := hd.keeps
    refine ⟨_, rfl, ?_⟩
    dsimp only
    rw [s.dev.ringEnable_refused n d0 d1 d2 d3 h]
    exact ⟨hd.raised (by decide), hd.wk, htbl⟩
  case disabled =>
    intro s n d0 d1 d2 d3 hc
    obtain ⟨hbit, -⟩ := s.dev.withContext_entry n d0 d1 d2 d3 false
    obtain ⟨hwk, hen⟩ : (s.dev.withContext n d0 d1 d2 d3 false).wk = s.dev.wk ∧ (s.dev.withContext n d0 d1 d2 d3 false).en = s.dev.en :=
      s.dev.storeEntry_keeps n 0 _ _
    have hdis := s.dev.ringDisable_stops n d0 d1 d2 d3 hc
    generalize s.dev.withContext n d0 d1 d2 d3 false = x at hbit hwk hen hdis
    generalize hy : ((x.dropHead n).modRing n (fun r => { r with enabled := false, hold := 0 })).checkpoint = y at hdis
    have hring : y.ring n = { s.dev.ring n with enabled := false, head := .none, hold := 0 } := by
      rw [← hy, Dev.ring_checkpoint, Dev.ring_modRing_same, Dev.ring_dropHead_same, Dev.ring_congr (congrArg Work.rings hwk)]
    have hres : y.en.reserved = s.dev.en.reserved - (s.dev.ring n).head.uj := by
      rw [← hy]
      simp only [Dev.checkpoint_keeps, Dev.modRing_keeps, Dev.dropHead_reserved, hen, Dev.ring_congr (congrArg Work.rings hwk)]
    have hitems : y.wk.items = s.dev.wk.items := by
      rw [← hy]
      simp only [Dev.checkpoint_keeps, Dev.modRing_keeps, Dev.dropHead_keeps, hwk]
    obtain ⟨htb, -⟩ := Dev.context_congr (d := x) (e := y)
      (by rw [← hy]; simp only [Dev.checkpoint_keeps, Dev.modRing_keeps, Dev.dropHead_keeps]) n
    refine ⟨_, rfl, ?_⟩
    dsimp only
    rw [hdis, hring, htb]
    exact ⟨rfl, rfl, hbit, hres, rfl, hitems⟩
  case held =>
    intro s which v h
    have hd := s.dev.detect_dx Evt.DX_LEDGER_CFG (by decide) (by decide)
    obtain ⟨hregs, -⟩ := hd.keeps
    refine ⟨_, rfl, ?_⟩
    dsimp only
    rw [s.dev.ledgerCfgWrite_refused which v h]
    exact ⟨hd.raised (by decide), hregs, hd.wk⟩
  case base =>
    intro s which v h hw
    refine ⟨_, rfl, ?_⟩
    dsimp only
    rw [s.dev.ledgerCfgWrite_base which v h hw]
    exact ⟨Dev.reg_setReg_same _ _ _ _ _, rfl, rfl⟩
  case inUse =>
    intro s v h hv hs hm
    exact ⟨_, rfl, s.dev.ledgerInUse (fld 10 1 v) (fld_lt 10 1 v) _ (s.dev.ledgerCfgWrite_uses v h hv hs hm)⟩
  case numbers =>
    intro s hr hu
    obtain ⟨-, hrun, hraised⟩ := s.dev.encore_ends hr hu
    refine ⟨_, rfl, hrun, hraised, fun n acc pst hh he => ?_⟩
    dsimp only
    rw [s.dev.encore_numbers n acc pst hr hu hh he]
    exact ⟨rfl, rfl, he⟩
  case replays =>
    intro s n acc pst q y hr hu hh he hp hq h0 hlog hy hrank
    obtain ⟨i, hi, hrep⟩ := s.dev.encore_replays n acc pst q y hr hu hh he hp hq hy hrank
    exact ⟨_, i, rfl, hi, hrep.ring, hrep.seq, hrep.desc, hrep.encored, hrep.inst, hrep.phase, hrep.recorded⟩

end Sys2Proof.Machine
end

section
/-! Physical accesses as DX makes them (R14, R113, R114): what a read and a write of memory leave as DX sees it, and which bytes they give
and store. -/

namespace Sys2Proof.Machine

/-- DX stands the same: its work, its channels, its tables and its translation switch. -/
structure SameDx (d e : Dev) : Prop where
  wk : e.wk = d.wk
  dx : e.dx = d.dx
  asks : e.asks = d.asks
  tbl : e.pages.tbl = d.pages.tbl
  cfg : e.rb Pg.dx Reg.DX_CFG 0 = d.rb Pg.dx Reg.DX_CFG 0

theorem SameDx.refl (d : Dev) : SameDx d d := by constructor <;> rfl

theorem SameDx.trans {d e f : Dev} (h : SameDx d e) (h' : SameDx e f) : SameDx d f :=
  ⟨h'.wk.trans h.wk, h'.dx.trans h.dx, h'.asks.trans h.asks, h'.tbl.trans h.tbl, h'.cfg.trans h.cfg⟩

/-- A count in a register other than the translation switch. -/
theorem SameDx.bump (d : Dev) (p : Page) (off hi lo : Nat) (hoff : off < 0x1000) (h : off ≠ Reg.DX_CFG) : SameDx d (d.bump p off hi lo) := by
  refine ⟨by simp, by simp, by simp, by simp, ?_⟩
  rw [Dev.rb, Dev.bump, Dev.reg_setRf_other _ _ _ _ _ _ _ _ _ _ hoff (by decide) (fun e => h e.2.1.symm), Dev.rb]

theorem SameDx.noteRow (d : Dev) (g r : Nat) (u : BitVec 8) : SameDx d (d.noteRow g r u) := by
  have hset : ∀ x, SameDx d (d.setGrp g x) := fun x => ⟨by simp, by simp, by simp, by simp, Dev.rb_congr (by simp) _ _ _ _⟩
  unfold Dev.noteRow
  dsimp only
  split_ifs
  · exact hset _
  · exact (hset _).trans (SameDx.bump _ _ _ _ _ (by decide) (by decide))
  · exact hset _

theorem SameDx.noteRows (d : Dev) (a len : Nat) : SameDx d (d.noteRows a len) := by
  unfold Dev.noteRows
  split
  · exact .refl d
  · exact foldl_keeps (SameDx d) _ (fun e _ h => h.trans (SameDx.noteRow e _ _ _)) _ d (.refl d)

/-- A read's count of reconstructed units touches one register alone: memory and DX stand. -/
theorem Dev.noteReads_same (d : Dev) (a len : Nat) :
    SameDx d (d.noteReads a len) ∧ (d.noteReads a len).grps = d.grps ∧ (d.noteReads a len).ram = d.ram := by
  unfold Dev.noteReads
  split
  · exact ⟨.refl d, rfl, rfl⟩
  · refine foldl_keeps (fun e => SameDx d e ∧ e.grps = d.grps ∧ e.ram = d.ram) _ (fun e _ h => ?_) _ d ⟨.refl d, rfl, rfl⟩
    obtain ⟨hdx, hgrps, hram⟩ := h
    dsimp only
    split
    · exact ⟨hdx, hgrps, hram⟩
    · exact ⟨hdx.trans (SameDx.bump _ _ _ _ _ (by decide) (by decide)), by simp [hgrps], by simp [hram]⟩

/-- A change of the memories alone. -/
theorem SameDx.ram (d : Dev) (r : Ram) : SameDx d { d with ram := r } := by constructor <;> rfl

theorem SameDx.setCell (d : Dev) (g m off : Nat) (b : Byte) : SameDx d (d.setCell g m off b) := .ram d _

theorem SameDx.setDramByte (d : Dev) (a : Nat) (b : Byte) : SameDx d (d.setDramByte a b) := by
  unfold Dev.setDramByte
  dsimp only
  split_ifs
  · exact (SameDx.setCell _ _ _ _ _).trans (SameDx.setCell _ _ _ _ _)
  · exact (SameDx.setCell _ _ _ _ _).trans (SameDx.setCell _ _ _ _ _)
  · exact SameDx.setCell _ _ _ _ _
  · exact (SameDx.setCell _ _ _ _ _).trans (SameDx.setCell _ _ _ _ _)
  · exact SameDx.setCell _ _ _ _ _
  · exact .refl d

theorem SameDx.setPhysByte (d : Dev) (a : Nat) (b : Byte) : SameDx d (d.setPhysByte a b) := by
  unfold Dev.setPhysByte
  split
  · exact SameDx.setDramByte d a b
  · exact .ram d _
  · exact .ram d _
  · exact .refl d

theorem SameDx.putBytes (bs : List Byte) : ∀ (d : Dev) (a : Nat), SameDx d (d.putBytes a bs) := by
  induction bs with
  | nil => exact fun d _ => .refl d
  | cons b bs ih => exact fun d a => (SameDx.setPhysByte d a b).trans (ih _ _)

/-- Memory reads alike: the same members serve, and the memories hold the same. -/
def SameMemory (d e : Dev) : Prop := SameService d e ∧ e.ram = d.ram

theorem SameMemory.of_eq {d e : Dev} (hg : e.grps = d.grps) (hr : e.ram = d.ram) : SameMemory d e := ⟨.of_grps hg, hr⟩

theorem SameMemory.trans {d e f : Dev} (h : SameMemory d e) (h' : SameMemory e f) : SameMemory d f :=
  ⟨h.1.trans h'.1, h'.2.trans h.2⟩

theorem SameMemory.physByte {d e : Dev} (h : SameMemory d e) (a : Nat) : e.physByte a = d.physByte a := Dev.physByte_congr h.1 h.2 a

/-- How an access ends is memory's matter alone. -/
theorem SameMemory.physCheck {d e : Dev} (h : SameMemory d e) (a len : Nat) (wr : Bool) : e.physCheck a len wr = d.physCheck a len wr := by
  simp only [Dev.physCheck, h.physByte]

/-- An access that ends well begins in memory. -/
theorem Dev.targetOf_of_physCheck (d : Dev) (a len : Nat) (wr : Bool) (hl : 0 < len) (h : d.physCheck a len wr = .ok) : targetOf a ≠ .regs := by
  intro ht
  have hhole : ((List.range len).map (fun i => a + i)).any (fun x => !isMemory x) = true := by
    rw [List.any_eq_true]
    exact ⟨a, List.mem_map.mpr ⟨0, List.mem_range.mpr hl, rfl⟩, by simp [isMemory, ht]⟩
  rw [Dev.physCheck, if_pos hhole] at h
  cases h

/-- Bytes that memory answers for are written without error. -/
theorem Dev.physCheck_write (d : Dev) (a len : Nat) (h : ∀ k, k < len → (d.physByte (a + k)).isSome = true) : d.physCheck a len true = .ok := by
  have hmem : ((List.range len).map (fun i => a + i)).any (fun x => !isMemory x) = false := by
    rw [List.any_eq_false]
    intro x hx
    obtain ⟨k, hk, rfl⟩ := List.mem_map.mp hx
    have ht := targetOf_of_physByte d (a + k) (h k (List.mem_range.mp hk))
    simp only [isMemory]
    rcases ht with ht | ht | ht <;> simp [ht]
  rw [Dev.physCheck, if_neg (by rw [hmem]; decide)]
  rfl

/-- The bytes a good read gives. -/
def Dev.bytesAt (d : Dev) (a len : Nat) : List Byte := (List.range len).map (fun i => (d.physByte (a + i)).getD 0)

theorem SameMemory.bytesAt {d e : Dev} (h : SameMemory d e) (a len : Nat) : e.bytesAt a len = d.bytesAt a len := by
  simp only [Dev.bytesAt, h.physByte]

/-- A read that ends well: the access was good and the bytes are memory's. -/
theorem Dev.physRead_ok {d e : Dev} {a len : Nat} {who : Option Nat} {bs : List Byte} (h : d.physRead a len who = (e, .ok, bs)) :
    d.physCheck a len false = .ok ∧ bs = d.bytesAt a len := by
  unfold Dev.physRead at h
  split at h
  · cases h
  · cases h
  · next hc => exact ⟨hc, (congrArg (fun x => x.2.2) h).symm⟩

/-- A good read, and what it leaves. -/
theorem Dev.physRead_reads (d : Dev) (a len : Nat) (who : Option Nat) (h : d.physCheck a len false = .ok) :
    ∃ e, d.physRead a len who = (e, .ok, d.bytesAt a len) ∧ SameDx d e ∧ SameMemory d e := by
  refine ⟨if targetOf a = .dram then d.noteReads a len else d, by rw [Dev.physRead, h]; rfl, ?_⟩
  split
  · obtain ⟨hdx, hgrps, hram⟩ := d.noteReads_same a len
    exact ⟨hdx, .of_eq hgrps hram⟩
  · exact ⟨.refl d, .of_eq rfl rfl⟩

/-- A good write: its bytes stand. -/
theorem Dev.physWrite_stores (d : Dev) (a : Nat) (bs : List Byte) (who : Option Nat)
    (h : ∀ k, k < bs.length → (d.physByte (a + k)).isSome = true) :
    ∃ e, d.physWrite a bs who = (e, .ok) ∧ SameDx d e ∧ ∀ k, k < bs.length → e.physByte (a + k) = bs[k]? := by
  refine ⟨if targetOf a = .dram then (d.putBytes a bs).noteRows a bs.length else d.putBytes a bs,
    by rw [Dev.physWrite, d.physCheck_write a bs.length h], ?_⟩
  have hput : ∀ k, k < bs.length → (d.putBytes a bs).physByte (a + k) = bs[k]? := fun k hk => Dev.putBytes_back bs d a k hk (h k hk)
  split
  · refine ⟨(SameDx.putBytes bs d a).trans (SameDx.noteRows _ _ _), fun k hk => ?_⟩
    rw [Dev.physByte_congr (Dev.noteRows_service _ _ _) (Dev.noteRows_ram _ _ _), hput k hk]
  · exact ⟨SameDx.putBytes bs d a, hput⟩

end Sys2Proof.Machine
end

section
/-! A channel runs its item's beats (R144, R145, R147): what one beat of an untranslated item does to its channel and to memory, and how the
item ends. -/

namespace Sys2Proof.Machine

@[simp] theorem Dev.chan_setChan_same (d : Dev) (n : Nat) (c : Chan) : (d.setChan n c).chan n = c := SMap.get_set_same _ _ _ _

/-- The item of a channel: the one it names, started, with nothing pending. -/
theorem Dev.chanItem_some {d : Dev} {n : Nat} {i : Item} (h : d.chanItem n = some i) :
    d.item? n i.seq = some i ∧ (d.chan n).seq = some i.seq := by
  unfold Dev.chanItem at h
  split at h
  · next q hq =>
    split at h
    · next j hj =>
      split at h
      · cases h
        obtain ⟨-, hseq⟩ := Dev.item?_name hj
        rw [hseq]
        exact ⟨hj, hq⟩
      · cases h
    · cases h
  · cases h

theorem Dev.chanItem_congr {d e : Dev} {n : Nat} (hs : (e.chan n).seq = (d.chan n).seq) (hw : e.wk = d.wk) : e.chanItem n = d.chanItem n := by
  unfold Dev.chanItem
  rw [hs]
  simp only [Dev.item?_congr (congrArg Work.items hw)]

/-- A channel in a given state runs its item with nothing in the way: its addresses are not translated (R133), no request of its is parked,
and no access to register space is due. -/
structure Dev.Runs (d : Dev) (n : Nat) (i : Item) (c : Chan) : Prop where
  chan : d.chan n = c
  item : d.chanItem n = some i
  identity : d.identity (d.ringAsid n) = true
  unparked : d.isParked n = false
  quiet : d.asks = []

namespace Dev.Runs

theorem setChan {d : Dev} {n : Nat} {i : Item} {c : Chan} (h : d.Runs n i c) (c' : Chan) (hs : c'.seq = c.seq) : (d.setChan n c').Runs n i c' where
  chan := d.chan_setChan_same n c'
  item := (Dev.chanItem_congr (d := d) (by rw [Dev.chan_setChan_same, hs, h.chan]) (by simp)).trans h.item
  identity := h.identity
  unparked := h.unparked
  quiet := h.quiet

theorem sameDx {d e : Dev} {n : Nat} {i : Item} {c : Chan} (h : d.Runs n i c) (hs : SameDx d e) : e.Runs n i c where
  chan := by rw [Dev.chan, hs.dx, ← h.chan, Dev.chan]
  item := by rw [Dev.chanItem_congr (by rw [Dev.chan, hs.dx, Dev.chan]) hs.wk, h.item]
  identity := by
    have ha : e.ringAsid n = d.ringAsid n := Dev.tf_congr hs.tbl _ _ _ _ _
    rw [Dev.identity, ha, hs.cfg, ← h.identity, Dev.identity]
  unparked := by rw [← h.unparked, Dev.isParked, Dev.park?, hs.dx, Dev.isParked, Dev.park?]
  quiet := hs.asks.trans h.quiet

end Dev.Runs

/-- The beat that DX issues untranslated. -/
def NextBeat.issued (w : NextBeat) : DmaBeat :=
  { dst := w.dst, idx := w.idx, va := w.va, pa := w.va, len := w.len, bytes := w.bytes, overrun := false, stale := false }

/-- A channel that has issued a beat of COPY or FILL, the beat itself left out. -/
def Chan.advanced (c : Chan) (x : BitVec 512) (w : NextBeat) : Chan :=
  { c with
    cut := false, parked := false, burst := if c.burst = 0 then burstBeats x - 1 else c.burst - 1,
    srcNext := if w.dst then c.srcNext else c.srcNext + 1, dstNext := if w.dst then c.dstNext + 1 else c.dstNext,
    got := if w.dst && opOf x = 0 then c.got.filter (fun g => decide (beatHi (dstOf x) (lengthOf x) w.idx < beatHi (srcOf x) (lengthOf x) g.1))
           else if w.dst then c.got.filter (fun g => g.1 != w.idx) else c.got }

theorem Dev.issueBeat_plain (d : Dev) (n : Nat) (x : BitVec 512) (w : NextBeat) (hp : isPeriph x = false) :
    d.issueBeat n x w w.va = d.setChan n { (d.chan n).advanced x w with out := (d.chan n).out ++ [w.issued] } := by
  simp [Dev.issueBeat, hp, Chan.advanced, NextBeat.issued]

/-- A beat with no other outstanding leaves the channel's list of them empty at its response. -/
theorem NextBeat.answered (w : NextBeat) : [w.issued].filter (fun o => !(o.dst == w.issued.dst && o.idx == w.issued.idx)) = [] := by
  simp

/-- A channel with a source beat's bytes staged. -/
def Chan.stage (c : Chan) (k : Nat) (bs : List Byte) : Chan := { c with got := c.got ++ [(k, bs)] }

/-- A channel with a destination beat acknowledged, not yet folded. -/
def Chan.ack (c : Chan) (k : Nat) (bs : List Byte) : Chan := { c with acked := [(k, bs)] }

/-- A channel with its next destination beat in order acknowledged and folded. -/
def Chan.fold (c : Chan) (k : Nat) (bs : List Byte) : Chan := { (c.ack k bs).sumBytes bs with folded := k + 1, acked := [] }

/-- A source beat of COPY is staged. -/
theorem Dev.beatOk_read (d : Dev) (n : Nat) (x : BitVec 512) (b : DmaBeat) (bs : List Byte) (hd : b.dst = false) (hop : opOf x = 0) :
    d.beatOk n x b bs = d.setChan n ((d.chan n).stage b.idx bs) := by
  rw [Dev.beatOk, if_neg (by rw [hd]; decide), if_pos hop]
  rfl

/-- A channel with one byte more counted. -/
def Chan.countByte (c : Chan) (b : Byte) : Chan := { c.sumByte c.contig b with contig := c.contig + 1 }

theorem Chan.sumBytes_cons (c : Chan) (b : Byte) (bs : List Byte) : c.sumBytes (b :: bs) = (c.countByte b).sumBytes bs := by
  rw [Chan.sumBytes.eq_def, Chan.countByte]

theorem Chan.countByte_keeps (c : Chan) (b : Byte) : (c.countByte b).seq = c.seq ∧ (c.countByte b).srcNext = c.srcNext ∧
    (c.countByte b).dstNext = c.dstNext ∧ (c.countByte b).out = c.out ∧ (c.countByte b).fail = c.fail ∧
    (c.countByte b).contig = c.contig + 1 := by
  simp only [Chan.countByte, Chan.sumByte, and_self]

/-- Folding a run of bytes counts each of them; what the channel issued, waits for and failed stands. -/
@[simp] theorem Chan.sumBytes_keeps (bs : List Byte) : ∀ c : Chan, (c.sumBytes bs).seq = c.seq ∧ (c.sumBytes bs).srcNext = c.srcNext ∧
    (c.sumBytes bs).dstNext = c.dstNext ∧ (c.sumBytes bs).out = c.out ∧ (c.sumBytes bs).fail = c.fail ∧
    (c.sumBytes bs).contig = c.contig + bs.length := by
  induction bs with
  | nil => exact fun c => ⟨rfl, rfl, rfl, rfl, rfl, rfl⟩
  | cons b bs ih =>
    intro c
    obtain ⟨hseq, hsrc, hdst, hout, hfail, hcontig⟩ := ih (c.countByte b)
    obtain ⟨hseq', hsrc', hdst', hout', hfail', hcontig'⟩ := c.countByte_keeps b
    rw [Chan.sumBytes_cons, List.length_cons]
    exact ⟨hseq.trans hseq', hsrc.trans hsrc', hdst.trans hdst', hout.trans hout', hfail.trans hfail', by rw [hcontig, hcontig']; omega⟩

/-- A destination beat alone is folded at once. -/
theorem Dev.foldAcks_one (d : Dev) (n : Nat) (x : BitVec 512) (c : Chan) (bs : List Byte) (hop : opOf x ≠ 3) :
    (d.setChan n (c.ack c.folded bs)).foldAcks n x 1 = (d.setChan n (c.ack c.folded bs)).setChan n (c.fold c.folded bs) := by
  have hfind : (c.ack c.folded bs).acked.find? (fun a => a.1 == (c.ack c.folded bs).folded) = some (c.folded, bs) := by simp [Chan.ack]
  have hrest : (c.ack c.folded bs).acked.filter (fun b => b.1 != (c.ack c.folded bs).folded) = [] := by simp [Chan.ack]
  rw [Dev.foldAcks, Dev.chan_setChan_same]
  simp only [hfind, hrest, if_neg hop]
  rfl

/-- The next destination beat in order is folded at once: its bytes count. -/
theorem Dev.beatOk_write (d : Dev) (n : Nat) (x : BitVec 512) (b : DmaBeat) (bs : List Byte) (hd : b.dst = true) (hov : b.overrun = false)
    (hop : opOf x ≠ 3) (ha : (d.chan n).acked = []) (hf : (d.chan n).folded = b.idx) :
    d.beatOk n x b bs = (d.setChan n ((d.chan n).ack b.idx bs)).setChan n ((d.chan n).fold b.idx bs) := by
  have hack : (if b.overrun then d.chan n else { d.chan n with acked := (d.chan n).acked ++ [(b.idx, bs)] }) = (d.chan n).ack b.idx bs := by
    rw [if_neg (by rw [hov]; decide), ha]
    rfl
  have hone : ((d.chan n).ack b.idx bs).acked.length = 1 := rfl
  rw [Dev.beatOk, if_pos hd]
  simp only [hack, hone]
  rw [← hf, d.foldAcks_one n x (d.chan n) bs hop]

/-- A beat is no longer outstanding. -/
def Dev.returned (d : Dev) (n : Nat) (b : DmaBeat) : Dev :=
  d.modChan n (fun c => { c with out := c.out.filter (fun o => !(o.dst == b.dst && o.idx == b.idx)) })

/-- The good response of a source beat from memory. -/
theorem Dev.beatAnswer_read (d e : Dev) (n : Nat) (x : BitVec 512) (b : DmaBeat) (bs : List Byte) (hd : b.dst = false)
    (ht : targetOf b.pa ≠ .regs) (hr : (d.returned n b).physRead b.pa b.len (some n) = (e, .ok, bs)) :
    d.beatAnswer n x b .ok = e.beatOk n x b bs := by
  rw [Dev.returned] at hr
  unfold Dev.beatAnswer
  dsimp only
  rw [if_neg (by rw [hd]; decide), if_neg ht, hr]

/-- The good response of a destination beat in memory. -/
theorem Dev.beatAnswer_write (d e : Dev) (n : Nat) (x : BitVec 512) (b : DmaBeat) (hd : b.dst = true) (ht : targetOf b.pa ≠ .regs)
    (hw : (d.returned n b).physWrite b.pa b.bytes (some n) = (e, .ok)) : d.beatAnswer n x b .ok = e.beatOk n x b b.bytes := by
  rw [Dev.returned] at hw
  unfold Dev.beatAnswer
  dsimp only
  rw [if_pos hd, if_neg ht, hw]

namespace Dev.Runs

variable {d : Dev} {n : Nat} {i : Item} {c : Chan}

/-- The next beat is issued untranslated. -/
theorem tryIssue (h : d.Runs n i c) {w : NextBeat} (hw : want i.desc c = some w) : d.tryIssue false n = (d.issueBeat n i.desc w w.va, true) := by
  unfold Dev.tryIssue
  rw [h.item, h.chan]
  dsimp only
  rw [hw]
  dsimp only
  rw [if_neg (by rw [h.unparked]; decide), Dev.xlateWith, if_pos h.identity]

/-- A channel with no beat to issue stands. -/
theorem runBeats_rest (h : d.Runs n i c) (hw : want i.desc c = none) (f : Nat) : d.runBeats n f = d := by
  cases f with
  | zero => rfl
  | succ f =>
    have ht : d.tryIssue false n = (d, false) := by
      unfold Dev.tryIssue
      rw [h.item, h.chan]
      dsimp only
      rw [hw]
    rw [Dev.runBeats, h.item, ht]
    rfl

/-- One beat: issued, then answered. -/
theorem runBeats_succ (h : d.Runs n i c) {w : NextBeat} (hw : want i.desc c = some w) (hp : isPeriph i.desc = false) (f : Nat) :
    d.runBeats n (f + 1) = ((d.issueBeat n i.desc w w.va).beatAnswer n i.desc w.issued .ok).runBeats n f := by
  have hl : ((d.issueBeat n i.desc w w.va).chan n).out.getLast? = some w.issued := by
    rw [d.issueBeat_plain n i.desc w hp, Dev.chan_setChan_same]
    exact List.getLast?_concat
  rw [Dev.runBeats, h.item, h.tryIssue hw]
  dsimp only
  rw [if_neg (by decide), hl]

/-- At its response an only beat is no longer outstanding. -/
theorem returned (h : d.Runs n i c) (w : NextBeat) (hp : isPeriph i.desc = false) (ho : c.out = []) :
    ((d.issueBeat n i.desc w w.va).returned n w.issued).Runs n i (c.advanced i.desc w) ∧
      SameMemory d ((d.issueBeat n i.desc w w.va).returned n w.issued) := by
  have hc : ({ c.advanced i.desc w with out := [] } : Chan) = c.advanced i.desc w := by rw [← ho]; rfl
  rw [Dev.returned, Dev.modChan, d.issueBeat_plain n i.desc w hp, Dev.chan_setChan_same, h.chan, ho, List.nil_append, NextBeat.answered, hc]
  exact ⟨(h.setChan _ (by rfl)).setChan _ (by rfl), .of_eq (by simp) (by simp)⟩

/-- A source beat of COPY: the bytes that memory gives are staged (R145). -/
theorem readBeat (h : d.Runs n i c) {w : NextBeat} (hw : want i.desc c = some w) (hop : opOf i.desc = 0) (hd : w.dst = false)
    (ho : c.out = []) (hl : 0 < w.len) (hr : d.physCheck w.va w.len false = .ok) :
    ∃ e, (∀ f, d.runBeats n (f + 1) = Dev.runBeats e n f) ∧ SameMemory d e ∧
      e.Runs n i ((c.advanced i.desc w).stage w.idx (d.bytesAt w.va w.len)) := by
  have hp : isPeriph i.desc = false := by simp [isPeriph, hop]
  obtain ⟨hruns, hmem⟩ := h.returned w hp ho
  obtain ⟨e, he⟩ : ∃ e, (d.issueBeat n i.desc w w.va).returned n w.issued = e := ⟨_, rfl⟩
  rw [he] at hruns hmem
  have hck : e.physCheck w.va w.len false = .ok := by rw [hmem.physCheck, hr]
  obtain ⟨e', he', hdx, hmem'⟩ := e.physRead_reads w.va w.len (some n) hck
  have hruns' := hruns.sameDx hdx
  have hok := e'.beatOk_read n i.desc w.issued (d.bytesAt w.va w.len) hd hop
  rw [hruns'.chan] at hok
  refine ⟨_, fun f => ?_, (hmem.trans hmem').trans (.of_eq (by simp) (by simp)), hruns'.setChan _ (by rfl)⟩
  rw [hmem.bytesAt] at he'
  rw [h.runBeats_succ hw hp, Dev.beatAnswer_read _ e' n i.desc w.issued _ hd (e.targetOf_of_physCheck w.va w.len false hl hck)
    (by rw [he]; exact he'), hok]
  rfl

/-- A destination beat: its bytes stand in memory and count (R147). -/
theorem writeBeat (h : d.Runs n i c) {w : NextBeat} (hw : want i.desc c = some w) (hop : opOf i.desc < 2) (hd : w.dst = true)
    (ho : c.out = []) (ha : c.acked = []) (hf : c.folded = w.idx) (hl : 0 < w.bytes.length)
    (hb : ∀ k, k < w.bytes.length → (d.physByte (w.va + k)).isSome = true) :
    ∃ e : Dev, (∀ f, d.runBeats n (f + 1) = e.runBeats n f) ∧ (∀ k, k < w.bytes.length → e.physByte (w.va + k) = w.bytes[k]?) ∧
      e.Runs n i ((c.advanced i.desc w).fold w.idx w.bytes) := by
  have hp : isPeriph i.desc = false := by simp [isPeriph]; omega
  obtain ⟨hruns, hmem⟩ := h.returned w hp ho
  obtain ⟨e, he⟩ : ∃ e, (d.issueBeat n i.desc w w.va).returned n w.issued = e := ⟨_, rfl⟩
  rw [he] at hruns hmem
  have hb' : ∀ k, k < w.bytes.length → (e.physByte (w.va + k)).isSome = true := fun k hk => by rw [hmem.physByte]; exact hb k hk
  have htarget := e.targetOf_of_physCheck w.va w.bytes.length true hl (e.physCheck_write _ _ hb')
  obtain ⟨e', he', hdx, hstored⟩ := e.physWrite_stores w.va w.bytes (some n) hb'
  have hruns' := hruns.sameDx hdx
  have hok := e'.beatOk_write n i.desc w.issued w.bytes hd rfl (by omega) (by rw [hruns'.chan]; exact ha) (by rw [hruns'.chan]; exact hf)
  rw [hruns'.chan] at hok
  refine ⟨_, fun f => ?_, fun k hk => ?_,
    (hruns'.setChan ((c.advanced i.desc w).ack w.idx w.bytes) (by rfl)).setChan _ (by simp [Chan.fold, Chan.ack])⟩
  · rw [h.runBeats_succ hw hp, Dev.beatAnswer_write _ e' n i.desc w.issued hd htarget (by rw [he]; exact he')]
    exact congrArg (Dev.runBeats · n f) hok
  · rw [(SameMemory.of_eq (by simp) (by simp) : SameMemory e' _).physByte, hstored k hk]

/-- The item ends once every beat is answered, where no notice and no checksum store is due. -/
theorem dmaSettle_finishes (h : d.Runs n i c) (hf : c.fail = none) (ho : c.out = []) (hall : allIssued i.desc c = true)
    (hh : halfIrq i.desc = false) (hfi : fullIrq i.desc = false) (hc : csumStore i.desc = false) : d.dmaSettle n = d.dmaFinish n i := by
  have hover : dataOver i.desc c = true := by simp [dataOver, ho, hall]
  have hhalf : d.halfNotice n i = (d, true) := by simp [Dev.halfNotice, hh]
  have hclose : d.closing n i = (d, true) := by simp [Dev.closing, hfi, hc]
  unfold Dev.dmaSettle
  rw [h.item]
  dsimp only
  rw [if_neg (by rw [h.unparked]; decide), hhalf]
  simp only [h.chan, hover, hf, hclose]
  rfl

/-- What an item that ends without a failure leaves: its result waits for COMPLETED, and memory stands. -/
theorem dmaFinish_leaves (h : d.Runs n i c) (hf : c.fail = none) :
    ∃ j, (d.dmaFinish n i).item? n i.seq = some j ∧ j.pend = some .completed ∧ j.result.status = i.doneStatus ∧
      j.result.result0 = BitVec.ofNat 64 c.contig ∧ SameMemory d (d.dmaFinish n i) ∧ (d.dmaFinish n i).asks = [] := by
  obtain ⟨hitem, -⟩ := Dev.chanItem_some h.item
  have hres : ((d.chan n).result i).status = i.doneStatus ∧ ((d.chan n).result i).result0 = BitVec.ofNat 64 c.contig := by
    rw [h.chan, Chan.result, hf]
    exact ⟨rfl, rfl⟩
  obtain ⟨hstatus, hcount⟩ := hres
  refine ⟨{ i with eligible := i.eligible && (d.chan n).parks == 0 && (d.chan n).preempts == 0, result := (d.chan n).result i,
                   phase := .finishing, pend := some .completed }, ?_, rfl, hstatus, hcount, ?_, ?_⟩
  · rw [Dev.dmaFinish, Dev.item?_finish, Dev.item?_modItem_same _ n i.seq
      (fun j => { j with eligible := j.eligible && (d.chan n).parks == 0 && (d.chan n).preempts == 0 }) (fun _ => ⟨rfl, rfl⟩),
      Dev.item?_congr (d := d) (by simp), hitem]
    rfl
  · exact .of_eq (by simp [Dev.dmaFinish, Dev.finish, Dev.transition]) (by simp [Dev.dmaFinish, Dev.finish, Dev.transition])
  · simp [Dev.dmaFinish, Dev.finish, Dev.transition, h.quiet]

end Dev.Runs

end Sys2Proof.Machine
end

section
/-! COPY and FILL of items whose ranges lie in one beat each (R94, R145 to R147). -/

namespace Sys2Proof.Machine

/-! ## One beat -/

theorem beatCount_one {a len : Nat} (hl : 0 < len) (h : a % 64 + len ≤ 64) : beatCount a len = 1 := by
  rw [beatCount, if_neg (by omega)]
  omega

theorem beatLo_zero (a : Nat) : beatLo a 0 = 0 := if_pos rfl

theorem beatHi_one {a len : Nat} (h : a % 64 + len ≤ 64) : beatHi a len 0 = len := by
  rw [beatHi]
  omega

/-- One staged beat holds a whole transfer of one beat. -/
theorem staged_one {a : Nat} (bs : List Byte) (h : a % 64 + bs.length ≤ 64) : staged a [(0, bs)] 0 bs.length = some bs := by
  have h0 : a % 64 / 64 = 0 := by omega
  have h1 : (a % 64 + bs.length - 1) / 64 = 0 := by omega
  simp [staged, h0, h1, List.range_one, beatLo_zero]

/-- Nothing can be written while nothing is staged. -/
theorem staged_empty {a len : Nat} (h : a % 64 + len ≤ 64) : staged a [] 0 len = none := by
  have h1 : (a % 64 + len - 1) / 64 = 0 := by omega
  simp [staged, h1, List.range_one]

/-! ## What the channel issues -/

/-- The source beat of a COPY of one beat. -/
def readOf (x : BitVec 512) : NextBeat := { dst := false, idx := 0, va := srcOf x, len := lengthOf x, bytes := [] }

/-- The destination beat of a COPY or FILL of one beat, with the bytes it stores. -/
def writeOf (x : BitVec 512) (bs : List Byte) : NextBeat := { dst := true, idx := 0, va := dstOf x, len := lengthOf x, bytes := bs }

section
variable {x : BitVec 512} {c : Chan} (hl : 0 < lengthOf x) (hd : dstOf x % 64 + lengthOf x ≤ 64) (hf : c.fail = none)
include hl hd hf

/-- COPY reads its source first. -/
theorem want_copy_read (hop : opOf x = 0) (hs : srcOf x % 64 + lengthOf x ≤ 64) (hsn : c.srcNext = 0) (hdn : c.dstNext = 0) (hg : c.got = []) :
    want x c = some (readOf x) := by
  have hlen : lengthOf x ≤ 4096 := by omega
  simp [want, wantDst, wantSrc, readOf, hf, hsn, hdn, hg, hop, dstBeats, srcBeats, beatCount_one hl hd, beatCount_one hl hs, beatLo_zero,
    beatHi_one hd, beatHi_one hs, staged_empty hs, hlen]

/-- It writes the destination once the source is staged. -/
theorem want_copy_write (hop : opOf x = 0) (hs : srcOf x % 64 + lengthOf x ≤ 64) (hdn : c.dstNext = 0) {bs : List Byte}
    (hg : c.got = [(0, bs)]) (hb : bs.length = lengthOf x) :
    want x c = some (writeOf x bs) := by
  have hst : staged (srcOf x) [(0, bs)] 0 (lengthOf x) = some bs := by
    rw [← hb]
    exact staged_one bs (by rwa [hb])
  simp [want, wantDst, writeOf, hf, hdn, hg, hop, dstBeats, beatCount_one hl hd, beatLo_zero, beatHi_one hd, hst]

/-- FILL writes its pattern. -/
theorem want_fill (hop : opOf x = 1) (hdn : c.dstNext = 0) :
    want x c = some (writeOf x (fillBytes x 0 (lengthOf x))) := by
  simp [want, wantDst, writeOf, hf, hdn, hop, dstBeats, beatCount_one hl hd, beatLo_zero, beatHi_one hd]

end

/-- A channel whose beats are all issued wants none. -/
theorem want_none {x : BitVec 512} {c : Chan} (hs : srcBeats x ≤ c.srcNext) (hd : dstBeats x ≤ c.dstNext) : want x c = none := by
  simp [want, wantDst, wantSrc, hs, hd]

theorem srcBeats_one {x : BitVec 512} (hop : opOf x = 0) (hl : 0 < lengthOf x) (hs : srcOf x % 64 + lengthOf x ≤ 64) : srcBeats x = 1 := by
  rw [srcBeats, if_pos (by simp [hop]), beatCount_one hl hs]

theorem srcBeats_fill {x : BitVec 512} (hop : opOf x = 1) : srcBeats x = 0 := if_neg (by simp [hop])

theorem dstBeats_one {x : BitVec 512} (hop : opOf x < 2) (hl : 0 < lengthOf x) (hd : dstOf x % 64 + lengthOf x ≤ 64) : dstBeats x = 1 := by
  rw [dstBeats, if_neg (by omega), beatCount_one hl hd]

/-! ## Taking and running an item -/

/-- A channel takes an item that is neither bad nor a peripheral's: it asks for STARTED (R146). -/
theorem Dev.dmaTake_starts (d : Dev) (n : Nat) (i : Item) (hc : (d.chan n).seq = none) (hn : d.nextDma n = some i) (hph : i.phase = .bound)
    (hpe : i.pend = none) (hr : i.recorded = .accepted) (hbad : dmaBad i.desc = false) (hop : opOf i.desc < 2) :
    ∃ c : Chan, c.seq = some i.seq ∧
      d.dmaTake n = ((d.setChan n c).modItem n i.seq (fun j => { j with phase := .running })).transition n i.seq .started := by
  have hper : isPeriph i.desc = false := by simp [isPeriph]; omega
  refine ⟨{ Chan.reset with seq := some i.seq, withdrawn := isPeriph i.desc && 12 ≤ reqLine i.desc }, rfl, ?_⟩
  unfold Dev.dmaTake
  rw [hc, hn]
  simp [hph, hpe, hbad, hper, hr]

/-- A channel that holds an item takes no other. -/
theorem Dev.dmaTake_busy (d : Dev) (n : Nat) (q : Nat) (h : (d.chan n).seq = some q) : d.dmaTake n = d := by
  rw [Dev.dmaTake, h]
  rfl

/-- An item runs once STARTED is recorded. -/
theorem Dev.Runs.runItem {d : Dev} {n : Nat} {i : Item} {c : Chan} (h : d.Runs n i c) (hup : d.up Pg.dx = true) {op : Nat} (hop : opOf i.desc = op) :
    d.runItem n i.seq op = (d.runBeats n (itemBeats i.desc)).dmaSettle n := by
  obtain ⟨-, hseq⟩ := Dev.chanItem_some h.item
  unfold Dev.runItem
  rw [if_neg (by rw [hup]; decide), d.dmaTake_busy n i.seq hseq]
  dsimp only
  rw [h.item]
  simp [hop]

/-- An item that waits for STARTED does not run yet. -/
theorem Dev.chanItem_unstarted (d : Dev) (n q : Nat) (i : Item) (hs : (d.chan n).seq = some q) (hi : d.item? n q = some i)
    (hp : i.pend.isNone = false) : d.chanItem n = none := by
  simp [Dev.chanItem, hs, hi, hp]

/-! ## Whole items of one beat a side -/

/-- A channel that has taken an item and issued nothing. -/
def Chan.taken (q : Nat) : Chan := { Chan.reset with seq := some q }

/-- A channel that has moved every beat of its item, with so many bytes counted. -/
structure Chan.Moved (c : Chan) (x : BitVec 512) (len : Nat) : Prop where
  src : srcBeats x ≤ c.srcNext
  dst : dstBeats x ≤ c.dstNext
  fail : c.fail = none
  out : c.out = []
  contig : c.contig = len

/-- Every beat of a channel's item moves, and leaves the given bytes at the destination. -/
def Dev.Moves (d : Dev) (n : Nat) (i : Item) (f : Nat → Option Byte) : Prop :=
  ∃ c, (d.runBeats n (itemBeats i.desc)).Runs n i c ∧ c.Moved i.desc (lengthOf i.desc) ∧
    ∀ k, k < lengthOf i.desc → (d.runBeats n (itemBeats i.desc)).physByte (dstOf i.desc + k) = f k

/-- Its destination beat done, a channel has moved all that it had. -/
theorem Chan.moved_of_fold {c : Chan} {x : BitVec 512} (bs : List Byte) (hs : srcBeats x ≤ c.srcNext) (hd : dstBeats x ≤ c.dstNext + 1)
    (hf : c.fail = none) (ho : c.out = []) (hc : c.contig = 0) : ((c.advanced x (writeOf x bs)).fold 0 bs).Moved x bs.length := by
  constructor <;> simp [Chan.fold, Chan.ack, Chan.advanced, writeOf, hs, hd, hf, ho, hc]

namespace Dev.Runs

variable {d : Dev} {n q : Nat} {i : Item}

/-- An item whose beats have all moved completes, where no notice and no checksum store is due (R147, R149, R150). -/
theorem completes {c : Chan} (h : d.Runs n i c) {len : Nat} (hm : c.Moved i.desc len) (hh : halfIrq i.desc = false)
    (hfi : fullIrq i.desc = false) (hc : csumStore i.desc = false) :
    ∃ j, (d.dmaSettle n).item? n i.seq = some j ∧ j.pend = some .completed ∧ j.result.status = i.doneStatus ∧
      j.result.result0 = BitVec.ofNat 64 len ∧ SameMemory d (d.dmaSettle n) ∧ (d.dmaSettle n).asks = [] := by
  rw [h.dmaSettle_finishes hm.fail hm.out (by simp [allIssued, hm.src, hm.dst]) hh hfi hc, ← hm.contig]
  exact h.dmaFinish_leaves hm.fail

/-- A COPY of one beat a side: the source's bytes stand at the destination (R145). -/
theorem copies (h : d.Runs n i (Chan.taken q)) (hop : opOf i.desc = 0) (hl : 0 < lengthOf i.desc)
    (hs : srcOf i.desc % 64 + lengthOf i.desc ≤ 64) (hd : dstOf i.desc % 64 + lengthOf i.desc ≤ 64)
    (hr : d.physCheck (srcOf i.desc) (lengthOf i.desc) false = .ok)
    (hw : ∀ k, k < lengthOf i.desc → (d.physByte (dstOf i.desc + k)).isSome = true) :
    d.Moves n i (fun k => (d.bytesAt (srcOf i.desc) (lengthOf i.desc))[k]?) := by
  obtain ⟨bs, hbs⟩ : ∃ bs, d.bytesAt (srcOf i.desc) (lengthOf i.desc) = bs := ⟨_, rfl⟩
  have hlen : bs.length = lengthOf i.desc := by simp [← hbs, Dev.bytesAt]
  have hsrc := srcBeats_one hop hl hs
  have hdst := dstBeats_one (by omega) hl hd
  obtain ⟨e, hbeat, hmem, hruns⟩ := h.readBeat (want_copy_read hl hd rfl hop hs rfl rfl rfl) hop rfl rfl hl hr
  rw [readOf, hbs] at hruns
  obtain ⟨e', hbeat', hbytes, hruns'⟩ := hruns.writeBeat (want_copy_write hl hd rfl hop hs rfl rfl hlen) (by omega) rfl rfl rfl rfl
    (hlen.symm ▸ hl) (fun k hk => by rw [hmem.physByte]; exact hw k (hlen ▸ hk))
  have hmoved := Chan.moved_of_fold (c := ((Chan.taken q).advanced i.desc (readOf i.desc)).stage 0 bs) bs (x := i.desc) (by rw [hsrc]; rfl)
    (by rw [hdst]; rfl) rfl rfl rfl
  rw [hlen] at hmoved
  have he : d.runBeats n (itemBeats i.desc) = e' := by
    rw [itemBeats, hsrc, hdst, hbeat, hbeat', hruns'.runBeats_rest (want_none hmoved.src hmoved.dst)]
  rw [Dev.Moves, he, hbs]
  exact ⟨_, hruns', hmoved, fun k hk => hbytes k (hlen.symm ▸ hk)⟩

/-- A FILL of one beat: its pattern stands at the destination. -/
theorem fills (h : d.Runs n i (Chan.taken q)) (hop : opOf i.desc = 1) (hl : 0 < lengthOf i.desc)
    (hd : dstOf i.desc % 64 + lengthOf i.desc ≤ 64) (hw : ∀ k, k < lengthOf i.desc → (d.physByte (dstOf i.desc + k)).isSome = true) :
    d.Moves n i (fun k => (fillBytes i.desc 0 (lengthOf i.desc))[k]?) := by
  have hlen : (fillBytes i.desc 0 (lengthOf i.desc)).length = lengthOf i.desc := by simp [fillBytes]
  have hsrc := srcBeats_fill hop
  have hdst := dstBeats_one (by omega) hl hd
  obtain ⟨e, hbeat, hbytes, hruns⟩ := h.writeBeat (want_fill hl hd rfl hop rfl) (by omega) rfl rfl rfl rfl
    (hlen.symm ▸ hl) (fun k hk => hw k (hlen ▸ hk))
  have hmoved := Chan.moved_of_fold (c := Chan.taken q) (fillBytes i.desc 0 (lengthOf i.desc)) (x := i.desc) (by rw [hsrc]; exact Nat.zero_le _)
    (by rw [hdst]; rfl) rfl rfl rfl
  rw [hlen] at hmoved
  have he : d.runBeats n (itemBeats i.desc) = e := by
    rw [itemBeats, hsrc, hdst, hbeat, hruns.runBeats_rest (want_none hmoved.src hmoved.dst)]
  rw [Dev.Moves, he]
  exact ⟨_, hruns, hmoved, fun k hk => hbytes k (hlen.symm ▸ hk)⟩

end Dev.Runs

/-- COPY or FILL of an item whose beats move: it completes, and the bytes they stored stand. -/
theorem State.runItem_completes {s : State} {n q : Nat} {i : Item} {f : Nat → Option Byte} (h : s.dev.Runs n i (Chan.taken q))
    (hup : s.dev.up Pg.dx = true) {op : Nat} (hop : opOf i.desc = op) (hh : halfIrq i.desc = false) (hfi : fullIrq i.desc = false)
    (hc : csumStore i.desc = false) (hm : s.dev.Moves n i f) :
    ∃ t j, s.onBus (·.runItem n q op) = .next t ∧ (∀ k, k < lengthOf i.desc → t.dev.physByte (dstOf i.desc + k) = f k) ∧
      t.dev.item? n q = some j ∧ j.pend = some .completed ∧ j.result.status = i.doneStatus ∧
      j.result.result0 = BitVec.ofNat 64 (lengthOf i.desc) := by
  obtain ⟨c, hruns, hmoved, hbytes⟩ := hm
  obtain ⟨j, hitem, hpend, hstatus, hcount, hmem, hasks⟩ := hruns.completes hmoved hh hfi hc
  obtain ⟨-, hseq⟩ := Dev.chanItem_some h.item
  have hq : q = i.seq := by
    rw [h.chan] at hseq
    exact Option.some.inj hseq
  have hrun : s.dev.runItem n q op = (s.dev.runBeats n (itemBeats i.desc)).dmaSettle n := by rw [hq, h.runItem hup hop]
  refine ⟨_, j, s.onBus_quiet _ (by rw [hrun, hasks]), fun k hk => ?_, ?_, hpend, hstatus, hcount⟩
  · rw [hrun, hmem.physByte, hbytes k hk]
  · rw [hrun, hq, hitem]

/-- COPY or FILL of an item not yet started asks for STARTED and moves nothing. -/
theorem State.runItem_starts {s : State} {n q : Nat} {i : Item} (op : Nat) (hb : s.dev.asks = []) (hup : s.dev.up Pg.dx = true)
    (hc : (s.dev.chan n).seq = none) (hn : s.dev.nextDma n = some i) (hq : i.seq = q) (hi : s.dev.item? n q = some i) (hph : i.phase = .bound)
    (hpe : i.pend = none) (hr : i.recorded = .accepted) (hbad : dmaBad i.desc = false) (hop : opOf i.desc < 2) :
    ∃ t j, s.onBus (·.runItem n q op) = .next t ∧ t.dev.item? n q = some j ∧ j.pend = some .started ∧ j.phase = .running ∧
      (t.dev.chan n).seq = some q ∧ t.dev.ram = s.dev.ram := by
  obtain ⟨c, hcs, htake⟩ := s.dev.dmaTake_starts n i hc hn hph hpe hr hbad hop
  rw [hq] at hcs htake
  obtain ⟨e, he⟩ : ∃ e, ((s.dev.setChan n c).modItem n q (fun j => { j with phase := .running })).transition n q .started = e := ⟨_, rfl⟩
  rw [he] at htake
  have hitem : e.item? n q = some { i with phase := .running, pend := some .started } := by
    rw [← he, Dev.item?_phase_transition _ n q .running .started i (by rw [Dev.item?_congr (d := s.dev) (by simp), hi])]
  have hseq : (e.chan n).seq = some q := by
    have hdx : e.dx = (s.dev.setChan n c).dx := by rw [← he]; simp [Dev.transition]
    rw [Dev.chan, hdx, ← hcs]
    exact congrArg Chan.seq (s.dev.chan_setChan_same n c)
  have hrun : s.dev.runItem n q op = e := by
    unfold Dev.runItem
    rw [if_neg (by rw [hup]; decide), htake]
    dsimp only
    rw [e.chanItem_unstarted n q _ hseq hitem rfl]
  have hasks : e.asks = [] := by rw [← he]; simp [Dev.transition, hb]
  have hram : e.ram = s.dev.ram := by rw [← he]; simp [Dev.transition]
  exact ⟨{ s with dev := e }, _, hrun ▸ s.onBus_quiet (·.runItem n q op) (by rw [hrun, hasks]), hitem, rfl, rfl, hseq, hram⟩

/-- Settles O29: each beat is issued and answered by itself (`Dev.Runs.readBeat`, `Dev.Runs.writeBeat`), and the item ends with its bytes counted. -/
theorem copyAndFillMoveBytes : Obligations.CopyAndFillMoveBytes := by
  refine ⟨?_, ?_, ?_⟩
  · intro s n q i c hcop hb hup hc hn hq hi hph hpe hr hbad
    obtain ⟨-, -, -, hasks⟩ := hb
    rcases List.mem_pair.mp hcop with h | h
    all_goals obtain ⟨rfl, hop⟩ := Prod.mk.inj h
    · exact State.runItem_starts 0 hasks hup hc hn hq hi hph hpe hr hbad (by omega)
    · exact State.runItem_starts 1 hasks hup hc hn hq hi hph hpe hr hbad (by omega)
  · intro s n q i d bs hb hup hc hi hop hid hpk hh hfi hcs hl hs hd hr hw
    obtain ⟨-, -, -, hasks⟩ := hb
    have h : s.dev.Runs n.val i (Chan.taken q) := ⟨hc, hi, hid, hpk, hasks⟩
    obtain ⟨hck, rfl⟩ := Dev.physRead_ok hr
    exact State.runItem_completes h hup hop hh hfi hcs (h.copies hop hl hs hd hck hw)
  · intro s n q i hb hup hc hi hop hid hpk hh hfi hcs hl hd hw
    obtain ⟨-, -, -, hasks⟩ := hb
    have h : s.dev.Runs n.val i (Chan.taken q) := ⟨hc, hi, hid, hpk, hasks⟩
    obtain ⟨t, j, hrun, hbytes, hitem, hpend, hstatus, -⟩ := State.runItem_completes h hup hop hh hfi hcs (h.fills hop hl hd hw)
    refine ⟨t, j, hrun, fun k hk => ?_, hitem, hpend, hstatus⟩
    rw [hbytes k hk, fillBytes]
    simp [hk]

end Sys2Proof.Machine
end

section
/-! What a channel fault leaves (R117, R473, R477): memory, registers and every other page's header; and what its group does. -/

namespace Sys2Proof.Machine

/-- What a detection of a page's own source leaves: memory, registers and the headers of all other pages. -/
structure LeavesMemory (p : Page) (d e : Dev) : Prop where
  ram : e.ram = d.ram
  regs : e.pages.regs = d.pages.regs
  others : sameHdrsBut d e p

theorem LeavesMemory.refl (p : Page) (d : Dev) : LeavesMemory p d d := ⟨rfl, rfl, fun _ _ => rfl⟩

theorem LeavesMemory.trans {p : Page} {d e f : Dev} (h : LeavesMemory p d e) (h' : LeavesMemory p e f) : LeavesMemory p d f :=
  ⟨h'.ram.trans h.ram, h'.regs.trans h.regs, fun q hq => (h'.others q hq).trans (h.others q hq)⟩

theorem LeavesMemory.setHdr (d : Dev) (p : Page) (h : Hdr) : LeavesMemory p d (d.setHdr p h) :=
  ⟨by simp, by simp, fun q hq => d.hdr_setHdr_other p q h hq⟩

theorem LeavesMemory.of_pages (p : Page) {d e : Dev} (hr : e.ram = d.ram) (hp : e.pages = d.pages) : LeavesMemory p d e :=
  ⟨hr, by rw [hp], fun q _ => by rw [Dev.hdr, hp, Dev.hdr]⟩

theorem LeavesMemory.signal (d : Dev) (p : Page) (src : Nat) (was : Bool) (eff : Sev) : LeavesMemory p d (d.signal p src was eff) := by
  obtain ⟨o, l, h⟩ := d.signal_cases p src was eff
  rw [h]
  exact LeavesMemory.of_pages p rfl rfl

/-- The retirement of a member replaces its group, forgets its count and queues its record, each or none of it. -/
theorem Dev.retireUnit_mc_cases (d : Dev) (p : Page) (u : Nat) (hk : kindOf p = .mc) :
    (d.retireUnit p u).1 = d ∨ ∃ x : Grp, (d.retireUnit p u).1 = (d.setGrp (instOf p) x).clearCount p u ∨
      ∃ v, (d.retireUnit p u).1 = ((d.setGrp (instOf p) x).clearCount p u).queueRecord p v := by
  unfold Dev.retireUnit
  simp only [hk, PageKind.retiresPage, Bool.false_eq_true, if_false, if_true]
  split
  · exact Or.inl rfl
  · split
    · exact Or.inr ⟨_, Or.inl rfl⟩
    · exact Or.inr ⟨_, Or.inr ⟨_, rfl⟩⟩

@[simp] theorem Dev.queueRecord_ram (d : Dev) (p : Page) (v : Word) : (d.queueRecord p v).ram = d.ram := by
  unfold Dev.queueRecord
  split <;> rfl

theorem Dev.retireUnit_mc_leavesMemory (d : Dev) (p : Page) (u : Nat) (hk : kindOf p = .mc) : LeavesMemory p d (d.retireUnit p u).1 := by
  have hcount : ∀ x : Grp, LeavesMemory p d ((d.setGrp (instOf p) x).clearCount p u) := fun x =>
    (LeavesMemory.of_pages p (by simp) (by simp)).trans (LeavesMemory.setHdr (d.setGrp (instOf p) x) p _)
  obtain h | ⟨x, h | ⟨v, h⟩⟩ := d.retireUnit_mc_cases p u hk
  · rw [h]
    exact LeavesMemory.refl p d
  · rw [h]
    exact hcount x
  · rw [h]
    exact (hcount x).trans (LeavesMemory.of_pages p (by simp) (by simp))

theorem Dev.detectPlain_leavesMemory (d : Dev) (p : Page) (src : Nat) (at_ : Sev) : LeavesMemory p d (d.detectPlain p src at_) := by
  obtain ⟨h, eff, hn, -⟩ := d.note_cases p src 100 at_
  unfold Dev.detectPlain
  rw [hn]
  exact (LeavesMemory.setHdr d p h).trans (LeavesMemory.signal _ p _ _ _)

/-- At PERMANENT a channel fault retires its member; a second one is the loss of the group. -/
theorem Dev.permanent_chanFault (d : Dev) (p : Page) (u : Nat) (hk : kindOf p = .mc) : d.permanent p Evt.MC_CHAN_FAULT (some u) false =
    if (d.retireUnit p u).2 then
      (d.retireUnit p u).1.detectPlain p Evt.MC_GROUP_LOST (((d.retireUnit p u).1.hdr p).sev Evt.MC_GROUP_LOST)
    else (d.retireUnit p u).1 := by
  have ha : (evDesc .mc Evt.MC_CHAN_FAULT).act = .retire := by decide
  unfold Dev.permanent
  simp only [hk, ha]

/-- A detected channel fault is noted, at PERMANENT it acts, and it is signalled. -/
theorem Dev.detectUnit_chanFault_cases (d : Dev) (p : Page) (u : Nat) (hk : kindOf p = .mc) :
    ∃ h was eff e, d.detectUnit p Evt.MC_CHAN_FAULT u = e.signal p Evt.MC_CHAN_FAULT was eff ∧
      (e = d.setHdr p h ∨ e = (d.setHdr p h).permanent p Evt.MC_CHAN_FAULT (some u) false) := by
  obtain ⟨h, eff, hn, -⟩ := d.note_cases p Evt.MC_CHAN_FAULT u ((d.hdr p).sev Evt.MC_CHAN_FAULT)
  have hh : (evDesc .mc Evt.MC_CHAN_FAULT).hang = false := by decide
  refine ⟨h, bit Evt.MC_CHAN_FAULT (d.hdr p).raw, eff,
    if eff = .permanent then (d.setHdr p h).permanent p Evt.MC_CHAN_FAULT (some u) false else d.setHdr p h, ?_, ?_⟩
  · unfold Dev.detectUnit Dev.detectAt
    rw [if_neg (by rw [hk]; decide), if_neg (by simp)]
    simp only [Option.getD_some, hn, hk, hh, Bool.and_false, Bool.false_eq_true, if_false]
  · split
    · exact Or.inr rfl
    · exact Or.inl rfl

theorem Dev.permanent_chanFault_leavesMemory (d : Dev) (p : Page) (u : Nat) (hk : kindOf p = .mc) :
    LeavesMemory p d (d.permanent p Evt.MC_CHAN_FAULT (some u) false) := by
  rw [d.permanent_chanFault p u hk]
  split
  · exact (d.retireUnit_mc_leavesMemory p u hk).trans (Dev.detectPlain_leavesMemory _ p _ _)
  · exact d.retireUnit_mc_leavesMemory p u hk

theorem Dev.detectUnit_chanFault_leavesMemory (d : Dev) (p : Page) (u : Nat) (hk : kindOf p = .mc) :
    LeavesMemory p d (d.detectUnit p Evt.MC_CHAN_FAULT u) := by
  obtain ⟨h, was, eff, e, hd, rfl | rfl⟩ := d.detectUnit_chanFault_cases p u hk
  · rw [hd]
    exact (LeavesMemory.setHdr d p h).trans (LeavesMemory.signal _ p _ _ _)
  · rw [hd]
    exact ((LeavesMemory.setHdr d p h).trans (Dev.permanent_chanFault_leavesMemory _ p u hk)).trans (LeavesMemory.signal _ p _ _ _)

/-- A member that is retired already is not retired again: the fault leaves the groups. -/
theorem Dev.detectUnit_retired_grps (d : Dev) (p : Page) (u : Nat) (hk : kindOf p = .mc)
    (hr : ((d.grp (instOf p)).m u).state = .retired) : (d.detectUnit p Evt.MC_CHAN_FAULT u).grps = d.grps := by
  have hun : ∀ x : Dev, x.grps = d.grps → x.retireUnit p u = (x, false) := by
    intro x hx
    have hx' : ((x.grp (instOf p)).m u).state = .retired := by rw [Dev.grp, hx]; exact hr
    unfold Dev.retireUnit
    simp [hk, PageKind.retiresPage, hx']
  have hsig : ∀ (x : Dev) (was : Bool) (eff : Sev), (x.signal p Evt.MC_CHAN_FAULT was eff).grps = x.grps := by
    intro x was eff
    obtain ⟨o, l, h⟩ := x.signal_cases p Evt.MC_CHAN_FAULT was eff
    rw [h]
  obtain ⟨h, was, eff, e, hd, rfl | rfl⟩ := d.detectUnit_chanFault_cases p u hk
  · rw [hd, hsig]
    simp
  · rw [hd, hsig, Dev.permanent_chanFault _ p u hk, hun _ (by simp)]
    simp

/-- A channel fault counts at most, in its own register, and leaves memory. -/
theorem Dev.chanFault_leaves (d : Dev) (g m : Nat) (hg : g < 4) : (d.chanFault g m).ram = d.ram ∧ sameHdrsBut d (d.chanFault g m) (mcPage g) ∧
    ∀ q off i, off < 0x1000 → off ≠ Reg.MC_CHAN_FAULT_COUNT → (d.chanFault g m).reg q off i = d.reg q off i := by
  unfold Dev.chanFault
  dsimp only
  split
  · exact ⟨rfl, fun _ _ => rfl, fun _ _ _ _ _ => rfl⟩
  · generalize he : d.bumpSat (mcPage g) Reg.MC_CHAN_FAULT_COUNT 15 0 = e
    obtain ⟨hram, hregs, hoth⟩ := e.detectUnit_chanFault_leavesMemory (mcPage g) m (kindOf_mcPage g hg)
    refine ⟨?_, fun q hq => ?_, fun q off i ho hne => ?_⟩
    · rw [hram, ← he]
      simp
    · rw [hoth q hq, ← he]
      exact Dev.hdr_congr (by simp) q
    · rw [Dev.reg, hregs, ← he]
      exact d.reg_setRf_other _ _ _ _ _ _ _ _ _ (by decide) ho (fun h => hne h.2.1)

end Sys2Proof.Machine
end

section
/-! Cells of a parity group written from the other members (R121, R122): a rebuild and a scrub are such writes; and what parity
means for them. -/

namespace Sys2Proof.Machine

/-! ## Parity -/

/-- XOR over every member, where the excluded number is no member. -/
theorem xorBut_notMem (n : Nat) (c : Nat → Byte) (l : List Nat) (hn : n ∉ l) : l.foldl (fun (b : Byte) k => b ^^^ c k) 0 = xorBut n c l := by
  refine List.foldl_ext _ _ 0 (fun b k hk => ?_)
  rw [if_neg (ne_of_mem_of_not_mem hk hn)]

/-- One member taken out of an XOR over all. -/
theorem xorBut_extract (p n : Nat) (c : Nat → Byte) (l : List Nat) (hl : l.Nodup) (hp : p ∈ l) (hn : n ∉ l) :
    xorBut n c l = c p ^^^ xorBut p c l := by
  induction l with
  | nil => exact absurd hp List.not_mem_nil
  | cons k l ih =>
    obtain ⟨hk, hl⟩ := List.nodup_cons.mp hl
    obtain ⟨hnk, hnl⟩ := List.ne_and_not_mem_of_not_mem_cons hn
    rw [xorBut_cons, xorBut_cons, if_neg (Ne.symm hnk)]
    by_cases hkp : k = p
    · subst hkp
      rw [if_pos rfl, ← xorBut_notMem n c l hnl, ← xorBut_notMem k c l hk]
      simp
    · rw [if_neg hkp, ih hl ((List.mem_cons.mp hp).resolve_left (Ne.symm hkp)) hnl]
      ac_rfl

/-- The nine cells agree in parity when one of them is the XOR of the others. -/
theorem Dev.parityOk_iff (d : Dev) (g m off : Nat) (hm : m < 9) : d.parityOk g off = true ↔ d.cell g m off = d.xorOthers g m off := by
  have h9 : (9 : Nat) ∉ List.range 9 := by simp
  rw [Dev.parityOk, beq_iff_eq, xorBut_notMem 9 _ _ h9, xorBut_extract m 9 _ _ List.nodup_range (List.mem_range.mpr hm) h9,
    ← Dev.xorOthers_eq]
  exact BitVec.xor_eq_zero_iff

theorem Dev.parityOk_congr {d e : Dev} (h : e.ram = d.ram) (g off : Nat) : e.parityOk g off = d.parityOk g off := by
  simp only [Dev.parityOk, Dev.cell, h]

/-! ## Cells written from the others -/

/-- A member's cells at some offsets are written from the other eight. -/
def Dev.restoreCells (d : Dev) (g m : Nat) (l : List Nat) : Dev := l.foldl (fun d o => d.setCell g m o (d.xorOthers g m o)) d

theorem Dev.recompute_eq (d : Dev) (g m : Nat) : d.recompute g m = d.restoreCells g m (d.groupOffsets g) := rfl

theorem Dev.restoreCells_keeps (d : Dev) (g m : Nat) (l : List Nat) : (d.restoreCells g m l).pages = d.pages ∧
    (d.restoreCells g m l).ps = d.ps ∧ (d.restoreCells g m l).grps = d.grps :=
  foldl_keeps (fun e : Dev => e.pages = d.pages ∧ e.ps = d.ps ∧ e.grps = d.grps) _ (fun e o h => by simpa using h) l d ⟨rfl, rfl, rfl⟩

/-- The other members' XOR does not see the member that is written. -/
theorem Dev.xorOthers_setCell (d : Dev) (g m o off : Nat) (b : Byte) (hm : m < 9) (ho : o < 2 ^ 32) (hoff : off < 2 ^ 32) :
    (d.setCell g m o b).xorOthers g m off = d.xorOthers g m off := by
  rw [Dev.xorOthers_eq, Dev.xorOthers_eq]
  exact xorBut_congr m _ (fun k hk hkm => d.cell_setCell_other b hm (List.mem_range.mp hk) ho hoff (fun h => hkm h.2.2))

/-- Every listed cell, and one that was so before, is the XOR of the others. -/
theorem Dev.restoreCells_agree (g m : Nat) (hm : m < 9) (off : Nat) (hoff : off < 2 ^ 32) (l : List Nat) (hl : ∀ o ∈ l, o < 2 ^ 32) :
    ∀ d : Dev, off ∈ l ∨ d.cell g m off = d.xorOthers g m off →
      (d.restoreCells g m l).cell g m off = (d.restoreCells g m l).xorOthers g m off := by
  induction l with
  | nil => exact fun d h => h.resolve_left List.not_mem_nil
  | cons o l ih =>
    intro d h
    have ho : o < 2 ^ 32 := hl o List.mem_cons_self
    refine ih (fun x hx => hl x (List.mem_cons_of_mem o hx)) (d.setCell g m o (d.xorOthers g m o)) ?_
    rw [d.xorOthers_setCell g m o off _ hm ho hoff]
    by_cases hoo : off = o
    · right
      rw [hoo, Dev.cell_setCell_same]
    · refine h.imp (fun hmem => (List.mem_cons.mp hmem).resolve_left hoo) (fun hc => ?_)
      rw [d.cell_setCell_other _ hm hm ho hoff (fun he => hoo he.2.1), hc]

/-! ## Rebuild (R121) -/

/-- Offsets of a group's channels lie in them. -/
theorem Dev.groupOffsets_lt (d : Dev) (g : Nat) : ∀ o ∈ d.groupOffsets g, o < 2 ^ 32 := by
  intro o ho
  obtain ⟨e, -, rfl⟩ := List.mem_map.mp ho
  exact Nat.mod_lt _ (by decide)

theorem SMap.get_of_notMem {α : Type} (d : Nat → α) (k : Nat) (m : SMap α) (h : ∀ e ∈ m, e.1 ≠ k) : SMap.get d m k = d k := by
  induction m with
  | nil => rfl
  | cons e m ih =>
    rw [SMap.get, if_neg (fun he => h e List.mem_cons_self he.symm)]
    exact ih (fun x hx => h x (List.mem_cons_of_mem e hx))

/-- Where a group holds nothing at an offset, every member's cell there is 0. -/
theorem Dev.cell_of_notOffset (d : Dev) (g k off : Nat) (hk : k < 9) (hoff : off < 2 ^ 32) (h : off ∉ d.groupOffsets g) : d.cell g k off = 0 := by
  refine SMap.get_of_notMem _ _ _ (fun e he hkey => h (List.mem_map.mpr ⟨e, List.mem_filter.mpr ⟨he, ?_⟩, ?_⟩))
  · rw [hkey, cellKey, beq_iff_eq]
    omega
  · rw [hkey, cellKey]
    omega

/-- A rebuild writes every unit of the member from the other eight. -/
theorem Dev.recompute_agree (d : Dev) (g m off : Nat) (hm : m < 9) (hoff : off < 2 ^ 32) :
    (d.recompute g m).cell g m off = (d.recompute g m).xorOthers g m off := by
  rw [d.recompute_eq]
  refine Dev.restoreCells_agree g m hm off hoff _ (d.groupOffsets_lt g) d ?_
  by_cases h : off ∈ d.groupOffsets g
  · exact Or.inl h
  · right
    have hzero : ∀ k ∈ List.range 9, k ≠ m → d.cell g k off = (fun _ => (0 : Byte)) k :=
      fun k hk _ => d.cell_of_notOffset g k off (List.mem_range.mp hk) hoff h
    rw [d.cell_of_notOffset g m off hm hoff h, Dev.xorOthers_eq, xorBut_congr m (c := fun _ => 0) _ hzero]
    symm
    exact foldl_keeps (fun b : Byte => b = 0) _ (fun b k hb => by simp [hb]) _ 0 rfl

end Sys2Proof.Machine
end

section
/-! What a memory controller does besides requests (R113, R117, R122, R123, R125). -/

namespace Sys2Proof.Machine

theorem mcPage_val (g : Group) : mcPage g.val = Pg.mc g := rfl

/-- Sources of a memory controller that take no action. -/
theorem plainSource_mc : ∀ g < 4, ∀ src ∈ [Evt.MC_REBUILD_DONE, Evt.MC_PARITY_MISMATCH, Evt.MC_REFRESH_LATE, Evt.MC_FREQ_DONE],
    PlainSource (mcPage g) src := by
  unfold PlainSource
  decide

theorem Dev.grp_congr {d e : Dev} (h : e.grps = d.grps) (g : Nat) : e.grp g = d.grp g := by rw [Dev.grp, h, Dev.grp]

theorem Dev.grp_bump (d : Dev) (p : Page) (off hi lo n i g : Nat) : (d.bump p off hi lo n i).grp g = d.grp g := Dev.grp_congr (by simp) g

theorem Grp.not_up {x : Grp} {m : Nat} (h : x.up m = true) : ¬(!x.up m) = true := by simp [h]

/-! ## Timeouts, retries and merge windows -/

/-- A counter that saturates counts by one up to its end, each copy of it by itself. -/
theorem Dev.rf_bumpSat_copy (d : Dev) (p : Page) (off hi lo i : Nat) (h : lo ≤ hi) (h32 : hi < 32) :
    (d.bumpSat p off hi lo 1 i).rf p off hi lo i = min (d.rf p off hi lo i + 1) (2 ^ (hi - lo + 1) - 1) := by
  rw [Dev.bumpSat, Dev.rf_setRf_same _ _ _ _ _ _ _ h h32]
  refine Nat.mod_eq_of_lt (Nat.lt_of_le_of_lt (Nat.min_le_right _ _) ?_)
  exact Nat.sub_lt (Nat.two_pow_pos _) Nat.one_pos

/-- A read that times out is counted and is a channel fault (R117). -/
theorem Dev.readTimeout_faults (d : Dev) (g m : Nat) (hg : g < 4) (hup : (d.grp g).up m = true) :
    raised (d.readTimeout g m) (mcPage g) Evt.MC_CHAN_FAULT ∧ (d.readTimeout g m).ram = d.ram ∧
      (d.readTimeout g m).rf (mcPage g) Reg.MC_CH_TIMEOUTS 15 0 m = min (d.rf (mcPage g) Reg.MC_CH_TIMEOUTS 15 0 m + 1) 65535 := by
  rw [Dev.readTimeout, if_neg (Grp.not_up hup)]
  generalize he : d.bumpSat (mcPage g) Reg.MC_CH_TIMEOUTS 15 0 1 m = e
  obtain ⟨hram, -, hreg⟩ := e.chanFault_leaves g m hg
  have hup' : (e.grp g).up m = true := by
    rwa [Dev.grp_congr (d := d) (by rw [← he]; simp)]
  refine ⟨e.chanFault_raised g m hg hup', ?_, ?_⟩
  · rw [hram, ← he]
    simp
  · rw [Dev.rf, hreg _ _ _ (by decide) (by decide), ← he]
    exact d.rf_bumpSat_copy _ _ 15 0 m (by decide) (by decide)

/-- A merge window ends in a read-modify-write (R113). -/
theorem Dev.combineExpire_due (d : Dev) (g row : Nat) (h : (d.grp g).merges.any (fun e => e.row == row) = true) :
    d.combineExpire g row = (d.modGrp g (fun x => { x with merges := x.merges.filter (fun e => e.row != row) })).bump (mcPage g)
      Reg.MC_RMW_CNT 31 0 := if_pos h

/-! ## Scrub (R122) -/

/-- A row's parity written anew. -/
def Dev.scrubbed (d : Dev) (g row : Nat) : Dev := d.restoreCells g (parityOf row) ((List.range 64).map (fun i => row * 64 + i))

/-- The scrub of a row of a healthy group. -/
theorem Dev.scrubRow_runs (d : Dev) (g row : Nat) (hen : d.rb (mcPage g) Reg.MC_SCRUB_CFG 16 = true) (hs : d.grpServes g = true)
    (hd : (d.grp g).degraded = false) (hl : (d.grp g).lost = false) (hr : row < 2 ^ 26) (e : Dev)
    (he : d.setRf (mcPage g) Reg.MC_SCRUB_STAT 15 0 (row / 1024) = e) :
    d.scrubRow g row = if (List.range 64).all (fun i => e.parityOk g (row * 64 + i)) then e
      else ((e.scrubbed g row).bumpSat (mcPage g) Reg.MC_SCRUB_STAT 31 16).detect (mcPage g) Evt.MC_PARITY_MISMATCH := by
  unfold Dev.scrubRow
  simp only [Nat.mod_eq_of_lt hr, hen, hs, hd, hl, Bool.not_true, Bool.or_self, Bool.false_eq_true, if_false, he, Dev.scrubbed,
    Dev.restoreCells, List.foldl_map]

theorem Dev.scrubbed_parityOk (d : Dev) (g row i : Nat) (hr : row < 2 ^ 26) (hi : i < 64) : (d.scrubbed g row).parityOk g (row * 64 + i) = true := by
  have hlt : ∀ o ∈ (List.range 64).map (fun i => row * 64 + i), o < 2 ^ 32 := by
    intro o ho
    obtain ⟨j, hj, rfl⟩ := List.mem_map.mp ho
    have := List.mem_range.mp hj
    omega
  have hmem : row * 64 + i ∈ (List.range 64).map (fun i => row * 64 + i) := List.mem_map_of_mem (List.mem_range.mpr hi)
  rw [Dev.parityOk_iff _ _ _ _ (parityOf_lt row)]
  exact Dev.restoreCells_agree g _ (parityOf_lt row) _ (hlt _ hmem) _ hlt d (Or.inl hmem)

/-- What a scrub shows, repairs and detects. -/
theorem Dev.scrubRow_agrees (d : Dev) (g row : Nat) (hg : g < 4) (hen : d.rb (mcPage g) Reg.MC_SCRUB_CFG 16 = true)
    (hs : d.grpServes g = true) (hd : (d.grp g).degraded = false) (hl : (d.grp g).lost = false) (hr : row < 2 ^ 26) :
    (d.scrubRow g row).rf (mcPage g) Reg.MC_SCRUB_STAT 15 0 = row / 1024 ∧
      (∀ i, i < 64 → (d.scrubRow g row).parityOk g (row * 64 + i) = true) ∧
      ((∀ i, i < 64 → d.parityOk g (row * 64 + i) = true) → (d.scrubRow g row).ram = d.ram ∧
        (d.scrubRow g row).pages.hdrs = d.pages.hdrs) ∧
      ∀ i, i < 64 → d.parityOk g (row * 64 + i) = false → raised (d.scrubRow g row) (mcPage g) Evt.MC_PARITY_MISMATCH := by
  obtain ⟨e, he⟩ : ∃ e, d.setRf (mcPage g) Reg.MC_SCRUB_STAT 15 0 (row / 1024) = e := ⟨_, rfl⟩
  have hstat : e.rf (mcPage g) Reg.MC_SCRUB_STAT 15 0 = row / 1024 := by
    rw [← he, Dev.rf_setRf_same _ _ _ _ _ _ _ (by decide) (by decide)]
    exact Nat.mod_eq_of_lt (by omega)
  have hpar : ∀ off, e.parityOk g off = d.parityOk g off := Dev.parityOk_congr (by rw [← he]; simp) g
  have hall : (List.range 64).all (fun i => e.parityOk g (row * 64 + i)) = true ↔ ∀ i, i < 64 → d.parityOk g (row * 64 + i) = true := by
    simp [hpar]
  rw [d.scrubRow_runs g row hen hs hd hl hr e he]
  split
  · next h =>
    have hok := hall.mp h
    refine ⟨hstat, fun i hi => (hpar _).trans (hok i hi), fun _ => ?_, fun i hi hbad => ?_⟩
    · rw [← he]
      simp
    · rw [hok i hi] at hbad
      cases hbad
  · next h =>
    have hplain := plainSource_mc g hg Evt.MC_PARITY_MISMATCH (by simp)
    have hleft := Dev.detect_sameBesideEvents ((e.scrubbed g row).bumpSat (mcPage g) Reg.MC_SCRUB_STAT 31 16) _ _ hplain
    refine ⟨?_, fun i hi => ?_, fun hok => absurd (hall.mpr hok) h, fun i hi _ => Dev.detect_raised _ _ _ hplain⟩
    · rw [hleft.rf, Dev.bumpSat, Dev.rf_setRf_field _ _ _ _ _ _ _ _ _ (by decide) (by decide) (by decide),
        Dev.rf_congr (d := e) (by rw [Dev.scrubbed, (e.restoreCells_keeps _ _ _).1]), hstat]
    · rw [Dev.parityOk_congr (d := e.scrubbed g row) (by rw [hleft.ram]; simp)]
      exact e.scrubbed_parityOk g row i hr hi

/-! ## Refresh and polls (R123) -/

/-- A member that refreshes, is polled and may enter self-refresh: active, not lost, its record not being committed. -/
structure Grp.Awake (x : Grp) (m : Nat) : Prop where
  active : (x.m m).state = .active
  kept : (x.m m).lost = false
  staying : x.retiring ≠ some m

theorem Dev.refresh_awake (d : Dev) (g m : Nat) (busy : Bool) (h : (d.grp g).Awake m) : d.refresh g m busy =
    if !busy then d.setGrp g ((d.grp g).modM m (fun y => { y with postponed := 0 }))
    else if ((d.grp g).m m).postponed < min 8 (d.rf (mcPage g) Reg.MC_REFRESH_CFG 4 1) then
      d.setGrp g ((d.grp g).modM m (fun y => { y with postponed := y.postponed + 1 }))
    else d.detect (mcPage g) Evt.MC_REFRESH_LATE := by
  unfold Dev.refresh
  simp [h.active, h.kept, h.staying]

/-- One member's answer to a poll. -/
def Dev.pollMember (d : Dev) (g : Nat) (codes : List (Option (Fin 8))) (m : Nat) : Dev :=
  if ((d.grp g).m m).state ≠ .active || ((d.grp g).m m).lost || (d.grp g).retiring = some m then d
  else match codes.getD m none with
    | some c => d.modGrp g (fun x => x.modM m (fun y => { y with rate := c.val }))
    | none => d.chanFault g m

theorem Dev.mr4Poll_eq (d : Dev) (g : Nat) (codes : List (Option (Fin 8))) :
    d.mr4Poll g codes = (List.range 9).foldl (fun d m => d.pollMember g codes m) d := rfl

theorem Dev.pollMember_ram (d : Dev) (g : Nat) (codes : List (Option (Fin 8))) (m : Nat) (hg : g < 4) :
    (d.pollMember g codes m).ram = d.ram := by
  unfold Dev.pollMember
  split
  · rfl
  · split
    · simp
    · exact (d.chanFault_leaves g m hg).1

theorem Dev.mr4Poll_ram (d : Dev) (g : Nat) (codes : List (Option (Fin 8))) (hg : g < 4) : (d.mr4Poll g codes).ram = d.ram :=
  foldl_keeps (fun e : Dev => e.ram = d.ram) _ (fun e k he => (e.pollMember_ram g codes k hg).trans he) _ d rfl

/-- A member that answers has its rate stored. -/
theorem Dev.pollMember_answers (d : Dev) (g : Nat) (codes : List (Option (Fin 8))) (m : Nat) (c : Fin 8) (h : (d.grp g).Awake m)
    (hc : codes.getD m none = some c) : d.pollMember g codes m = d.modGrp g (fun x => x.modM m (fun y => { y with rate := c.val })) := by
  unfold Dev.pollMember
  simp only [h.active, h.kept, h.staying, hc]
  simp

/-- An answer of one member leaves every other member, and whether a member is awake. -/
theorem Dev.pollMember_others (d : Dev) (g : Nat) (codes : List (Option (Fin 8))) (k m : Nat) (c : Fin 8) (hc : codes.getD k none = some c) :
    (((d.grp g).Awake m) → ((d.pollMember g codes k).grp g).Awake m) ∧
      (m ≠ k → ((d.pollMember g codes k).grp g).m m = (d.grp g).m m) := by
  unfold Dev.pollMember
  split
  · exact ⟨id, fun _ => rfl⟩
  · simp only [hc, Dev.grp_modGrp_same]
    refine ⟨fun h => ?_, fun hm => Grp.m_modM_other _ _ _ _ hm⟩
    by_cases hm : m = k
    · subst hm
      exact ⟨by rw [Grp.m_modM_same]; exact h.active, by rw [Grp.m_modM_same]; exact h.kept, h.staying⟩
    · exact ⟨by rw [Grp.m_modM_other _ _ _ _ hm]; exact h.active, by rw [Grp.m_modM_other _ _ _ _ hm]; exact h.kept, h.staying⟩

/-- A poll that every member answers stores the rate of each that is awake. -/
theorem Dev.pollMembers_rate (g : Nat) (codes : List (Option (Fin 8))) (m : Nat) (c : Fin 8) (hc : codes.getD m none = some c) (l : List Nat)
    (hl : ∀ k ∈ l, (codes.getD k none).isSome = true) : ∀ d : Dev, (d.grp g).Awake m → m ∈ l ∨ ((d.grp g).m m).rate = c.val →
      (((l.foldl (fun d m => d.pollMember g codes m) d).grp g).m m).rate = c.val := by
  induction l with
  | nil => exact fun d _ h => h.resolve_left List.not_mem_nil
  | cons k l ih =>
    intro d ha h
    obtain ⟨ck, hck⟩ := Option.isSome_iff_exists.mp (hl k List.mem_cons_self)
    obtain ⟨hawake, hother⟩ := d.pollMember_others g codes k m ck hck
    refine ih (fun x hx => hl x (List.mem_cons_of_mem k hx)) (d.pollMember g codes k) (hawake ha) ?_
    by_cases hm : m = k
    · subst hm
      right
      rw [d.pollMember_answers g codes m c ha hc, Dev.grp_modGrp_same, Grp.m_modM_same]
    · rw [hother hm]
      exact h.imp_left (fun hmem => (List.mem_cons.mp hmem).resolve_left hm)

/-! ## Self-refresh (R125) -/

theorem Dev.srEntry_enters (d : Dev) (g m : Nat) (h : (d.grp g).Awake m) (hen : d.rb (mcPage g) Reg.MC_SR_IDLE 16 = true)
    (hidle : d.rf (mcPage g) Reg.MC_SR_IDLE 11 0 ≠ 0) :
    d.srEntry g m = d.setGrp g ((d.grp g).modM m (fun y => { y with state := .selfRefresh })) := by
  unfold Dev.srEntry
  simp [h.active, h.kept, h.staying, hen, hidle]

/-! ## The obligation -/

/-- Settles O36: each command of the controller either changes its group's records or detects, and only a scrub writes cells
(`Dev.scrubRow_agrees`). -/
theorem memoryUpkeep : Obligations.MemoryUpkeep := by
  refine ⟨?_, ?_, ?_, ?_, ?_, ?_, ?_, ?_⟩
  · intro s g m hup
    exact ⟨_, rfl, s.dev.readTimeout_faults g.val m.val g.isLt hup⟩
  · intro s g m hup
    have hpass : s.dev.chanRetry g.val m.val true = s.dev.modGrp g.val (fun x => x.modM m.val (fun y => { y with state := .active })) := by
      rw [Dev.chanRetry, if_neg (Grp.not_up hup), if_pos rfl]
    refine ⟨_, rfl, ?_⟩
    dsimp only
    rw [hpass, Dev.grp_modGrp_same, Grp.m_modM_same]
    simp
  · intro s g m hup
    have hfail : s.dev.chanRetry g.val m.val false = s.dev.chanFault g.val m.val := by
      rw [Dev.chanRetry, if_neg (Grp.not_up hup), if_neg Bool.false_ne_true]
    refine ⟨_, rfl, ?_⟩
    dsimp only
    rw [hfail]
    exact ⟨s.dev.chanFault_raised g.val m.val g.isLt hup, (s.dev.chanFault_leaves g.val m.val g.isLt).1⟩
  · intro s g row h
    refine ⟨_, rfl, ?_⟩
    dsimp only
    rw [s.dev.combineExpire_due g.val row h]
    refine ⟨by simp, ?_, ?_⟩
    · rw [Dev.grp_bump, Dev.grp_modGrp_same]
    · rw [mcPage_val, Dev.rf_bump_same _ _ _ _ _ _ (by decide), Dev.rf_congr (d := s.dev) (by simp)]
  · intro s g row hen hs hd hl hr
    exact ⟨_, rfl, s.dev.scrubRow_agrees g.val row g.isLt hen hs hd hl hr⟩
  · intro s g m busy ha hr hl
    refine ⟨_, rfl, ?_⟩
    dsimp only
    rw [s.dev.refresh_awake g.val m.val busy ⟨ha, hl, hr⟩]
    have hplain := plainSource_mc g.val g.isLt Evt.MC_REFRESH_LATE (by simp)
    cases busy with
    | false =>
      refine ⟨by simp, fun _ => ?_, nofun, nofun⟩
      rw [Bool.not_false, if_pos rfl, Dev.grp_setGrp_same, Grp.m_modM_same]
    | true =>
      rw [Bool.not_true, if_neg Bool.false_ne_true]
      split
      · next hlt =>
        refine ⟨by simp, nofun, fun _ _ => ?_, fun _ hge => absurd hlt (Nat.not_lt.mpr hge)⟩
        rw [Dev.grp_setGrp_same, Grp.m_modM_same]
      · next hge =>
        exact ⟨(Dev.detect_sameBesideEvents _ _ _ hplain).ram, nofun, fun _ hlt => absurd hlt hge, fun _ _ => Dev.detect_raised _ _ _ hplain⟩
  · intro s g codes m c ha hl hr hc
    refine ⟨_, rfl, fun hall => ?_, s.dev.mr4Poll_ram g.val codes g.isLt⟩
    · dsimp only
      rw [s.dev.mr4Poll_eq]
      exact Dev.pollMembers_rate g.val codes m.val c hc _ (fun k hk => hall ⟨k, List.mem_range.mp hk⟩) s.dev ⟨ha, hl, hr⟩
        (Or.inl (List.mem_range.mpr m.isLt))
  · intro s g m ha hl hr hen hidle
    refine ⟨_, rfl, ?_⟩
    dsimp only
    rw [s.dev.srEntry_enters g.val m.val ⟨ha, hl, hr⟩ hen hidle, Dev.grp_setGrp_same, Grp.m_modM_same]
    simp

end Sys2Proof.Machine
end

section
/-! Frequency changes of a parity group (R126, R127): how one begins, how it ends, and what the next one leaves of it. -/

namespace Sys2Proof.Machine

theorem Dev.grp_modGrp_other (d : Dev) (g g' : Nat) (f : Grp → Grp) (h : g' ≠ g) : (d.modGrp g f).grp g' = d.grp g' :=
  d.grp_setGrp_other g g' _ h

theorem Dev.rb_setRb_same (d : Dev) (p : Page) (off n : Nat) (b : Bool) (i : Nat) (h : n < 32) : (d.setRb p off n b i).rb p off n i = b := by
  rw [Dev.rb, Dev.setRb, Dev.setRf, Dev.reg_setReg_same]
  exact bit_putBit_same n b _ h

/-- What the steps of a change leave beside the groups, the registers and the timing sets. -/
structure LeavesHeaders (d e : Dev) : Prop where
  ram : e.ram = d.ram
  hdrs : e.pages.hdrs = d.pages.hdrs

theorem LeavesHeaders.refl (d : Dev) : LeavesHeaders d d := ⟨rfl, rfl⟩

theorem LeavesHeaders.trans {d e f : Dev} (h : LeavesHeaders d e) (h' : LeavesHeaders e f) : LeavesHeaders d f :=
  ⟨h'.ram.trans h.ram, h'.hdrs.trans h.hdrs⟩

theorem Dev.showBusy_grps (d : Dev) (g : Nat) : (d.showBusy g).grps = d.grps := by simp [Dev.showBusy]

theorem Dev.showBusy_leaves (d : Dev) (g : Nat) : LeavesHeaders d (d.showBusy g) := ⟨by simp [Dev.showBusy], by simp [Dev.showBusy]⟩

/-- The load of a timing set changes a table and draws values. -/
theorem Dev.loadSet_leaves (d : Dev) (g t : Nat) : LeavesHeaders d (d.loadSet g t) ∧ (d.loadSet g t).grps = d.grps := by
  unfold Dev.loadSet
  dsimp only
  generalize 0x100 + (if (d.grp g).setB then 0 else 1) = a
  split
  · exact ⟨⟨by simp, by simp⟩, by simp⟩
  · exact ⟨⟨by simp, by simp⟩, by simp⟩

/-! ## A change begins -/

/-- Where no group changes, a change begins at once: its sets loaded, the group held, BUSY shown. -/
theorem Dev.startChange_begins (d : Dev) (g t : Nat) (h : ∀ k, k < 4 → (d.grp k).change = none) :
    d.startChange g t = ((d.loadSet g t).modGrp g (fun x => { x with change := some t, waiting := none })).showBusy g := by
  refine if_neg ?_
  simp only [List.any_eq_true, List.mem_range, not_exists, not_and, Bool.not_eq_true]
  intro k hk
  rw [h k hk]
  rfl

/-- A change that begins or waits touches its own group. -/
theorem Dev.startChange_leaves (d : Dev) (g t : Nat) : LeavesHeaders d (d.startChange g t) ∧ ∀ k, k ≠ g → (d.startChange g t).grp k = d.grp k := by
  unfold Dev.startChange
  split
  · refine ⟨LeavesHeaders.trans ⟨by simp, by simp⟩ (Dev.showBusy_leaves _ g), fun k hk => ?_⟩
    rw [Dev.grp_congr (Dev.showBusy_grps _ g), Dev.grp_modGrp_other _ _ _ _ hk]
  · obtain ⟨hleaves, hgrps⟩ := d.loadSet_leaves g t
    refine ⟨(hleaves.trans ⟨by simp, by simp⟩).trans (Dev.showBusy_leaves _ g), fun k hk => ?_⟩
    rw [Dev.grp_congr (Dev.showBusy_grps _ g), Dev.grp_modGrp_other _ _ _ _ hk, Dev.grp_congr hgrps]

/-- FREQ_GO of a group without a change of its own, while no other group changes: its target is taken and the group is held. -/
theorem Dev.freqGo_begins (d : Dev) (g : Nat) (hg : g < 4) (hw : (d.grp g).waiting = none) (hc : ∀ k, k < 4 → (d.grp k).change = none)
    (hs : (d.hdr (mcPage g)).state.serves = true) :
    (d.freqGo g).grp g = { d.grp g with change := some (d.rf (mcPage g) Reg.MC_FREQ_CTRL 1 0), waiting := none } ∧
      (d.freqGo g).rb (mcPage g) Reg.MC_FREQ_CTRL 16 = true := by
  obtain ⟨t, ht⟩ : ∃ t, d.rf (mcPage g) Reg.MC_FREQ_CTRL 1 0 = t := ⟨_, rfl⟩
  have hgo : d.freqGo g = ((d.loadSet g t).modGrp g (fun x => { x with change := some t, waiting := none })).showBusy g := by
    rw [← d.startChange_begins g t hc, Dev.freqGo, if_neg (by simp [hw, hc g hg, hs]), ht]
  have hgrp : ((d.loadSet g t).modGrp g (fun x => { x with change := some t, waiting := none })).grp g =
      { d.grp g with change := some t, waiting := none } := by
    rw [Dev.grp_modGrp_same, Dev.grp_congr (d.loadSet_leaves g t).2]
  rw [hgo, ht, Dev.grp_congr (Dev.showBusy_grps _ g), hgrp]
  refine ⟨rfl, ?_⟩
  rw [Dev.showBusy, Dev.rb_setRb_same _ _ _ _ _ _ (by decide), hgrp]
  rfl

/-- A group in a change holds its requests. -/
theorem Dev.grpServes_changing (d : Dev) (g p : Nat) (h : (d.grp g).change = some p) : d.grpServes g = false := by
  simp [Dev.grpServes, h]

/-- Firmware moves a loaded group up one point (R127). -/
theorem Dev.freqAuto_up (d : Dev) (g b1 b10 : Nat) (hf : d.fwRuns = true) (ha : d.rb (mcPage g) Reg.MC_FREQ_CTRL 8 = true)
    (hl : (d.grp g).lastAuto = 0) (hp : 0 < (d.grp g).point) (hu : usable (d.grp g).point * 70 < b10 * 10000) :
    d.freqAuto g b1 b10 = ((d.modGrp g (fun y => { y with lastAuto := d.nowNs })).setRf (mcPage g) Reg.MC_FREQ_CTRL 1 0
      ((d.grp g).point - 1)).freqGo g := by
  have hload : (decide (0 < (d.grp g).point) && decide (usable (d.grp g).point * 70 < b10 * 100 * 100)) = true := by
    simp only [hp, decide_true, Bool.true_and, decide_eq_true_eq]
    omega
  have hrun : ¬(!d.fwRuns || !d.rb (mcPage g) Reg.MC_FREQ_CTRL 8 ||
      (decide ((d.grp g).lastAuto ≠ 0) && decide (d.nowNs < (d.grp g).lastAuto + 1000000000))) = true := by
    simp [hf, ha, hl]
  unfold Dev.freqAuto
  dsimp only
  rw [if_neg hrun, if_pos hload]

/-- The group that firmware moves begins its change. -/
theorem Dev.freqAuto_begins (d : Dev) (g b1 b10 : Nat) (hg : g < 4) (hf : d.fwRuns = true) (ha : d.rb (mcPage g) Reg.MC_FREQ_CTRL 8 = true)
    (hl : (d.grp g).lastAuto = 0) (hp : 0 < (d.grp g).point) (hp4 : (d.grp g).point < 4)
    (hu : usable (d.grp g).point * 70 < b10 * 10000) (hw : (d.grp g).waiting = none) (hc : ∀ k, k < 4 → (d.grp k).change = none)
    (hs : (d.hdr (mcPage g)).state.serves = true) :
    ((d.freqAuto g b1 b10).grp g).change = some ((d.grp g).point - 1) ∧ ((d.freqAuto g b1 b10).grp g).lastAuto = d.nowNs := by
  rw [d.freqAuto_up g b1 b10 hf ha hl hp hu]
  obtain ⟨e, he⟩ : ∃ e, (d.modGrp g (fun y => { y with lastAuto := d.nowNs })).setRf (mcPage g) Reg.MC_FREQ_CTRL 1 0
      ((d.grp g).point - 1) = e := ⟨_, rfl⟩
  have hgrps : e.grps = (d.modGrp g (fun y => { y with lastAuto := d.nowNs })).grps := by
    rw [← he]
    simp
  have hgrp : e.grp g = { d.grp g with lastAuto := d.nowNs } := by rw [Dev.grp_congr hgrps, Dev.grp_modGrp_same]
  have hchange : ∀ k, k < 4 → (e.grp k).change = none := by
    intro k hk
    by_cases hkg : k = g
    · rw [hkg, hgrp]
      exact hc g hg
    · rw [Dev.grp_congr hgrps, Dev.grp_modGrp_other _ _ _ _ hkg]
      exact hc k hk
  have hhdr : e.hdr (mcPage g) = d.hdr (mcPage g) := Dev.hdr_congr (by rw [← he]; simp) _
  have htarget : e.rf (mcPage g) Reg.MC_FREQ_CTRL 1 0 = (d.grp g).point - 1 := by
    rw [← he, Dev.rf_setRf_same _ _ _ _ _ _ _ (by decide) (by decide)]
    exact Nat.mod_eq_of_lt (by omega)
  rw [he, (e.freqGo_begins g hg (by rw [hgrp]; exact hw) hchange (by rw [hhdr]; exact hs)).1, htarget, hgrp]
  exact ⟨rfl, rfl⟩

/-! ## A change ends -/

/-- The next change leaves a group that does not wait. -/
theorem Dev.nextChange_leaves (d : Dev) : LeavesHeaders d d.nextChange ∧ ∀ g, (d.grp g).waiting = none → d.nextChange.grp g = d.grp g := by
  unfold Dev.nextChange
  split
  · next k hk =>
    obtain ⟨hleaves, hgrp⟩ := d.startChange_leaves k ((d.grp k).waiting.getD 0)
    refine ⟨hleaves, fun g hg => hgrp g ?_⟩
    rintro rfl
    have hsome := List.find?_some hk
    rw [hg] at hsome
    cases hsome
  · exact ⟨LeavesHeaders.refl d, fun _ _ => rfl⟩

/-- A group that holds no request is as it was when it serves again. -/
theorem Dev.serveHeld_leaves (d : Dev) (g : Nat) (h : (d.grp g).held = []) : LeavesHeaders d (d.serveHeld g) ∧ (d.serveHeld g).grp g = d.grp g := by
  unfold Dev.serveHeld
  split
  · exact ⟨LeavesHeaders.refl d, rfl⟩
  · rw [h, List.foldl_nil, Dev.grp_modGrp_same]
    exact ⟨⟨by simp, by simp⟩, by rw [← h]⟩

/-- The members of a group return from self-refresh. -/
def Grp.woken (x : Grp) : Grp :=
  (List.range 9).foldl (fun (y : Grp) m => if (y.m m).state = .selfRefresh then y.modM m (fun z => { z with state := .active }) else y) x

theorem Grp.woken_keeps (x : Grp) : ∃ l, x.woken = { x with mem := l } := by
  refine foldl_keeps (fun y : Grp => ∃ l, y = { x with mem := l }) _ (fun y m hy => ?_) _ x ⟨x.mem, rfl⟩
  obtain ⟨l, rfl⟩ := hy
  split
  · exact ⟨_, rfl⟩
  · exact ⟨l, rfl⟩

/-- The state in which a change has ended and FREQ_DONE is due. -/
def Dev.changed (d : Dev) (g t : Nat) : Dev :=
  let e := (d.setGrp g { (d.grp g).woken with change := none, point := t, setB := !(d.grp g).setB }).showBusy g
  (e.setRf (mcPage g) Reg.MC_FREQ_STAT 15 0 (Config.freeNat e.fresh % 65536)).drawn.bump (mcPage g) Reg.MC_FREQ_STAT 31 16

theorem Dev.endChange_eq (d : Dev) (g t : Nat) :
    d.endChange g t = (((d.changed g t).detect (mcPage g) Evt.MC_FREQ_DONE).serveHeld g).nextChange := rfl

theorem Dev.changed_grp (d : Dev) (g t : Nat) : (d.changed g t).ram = d.ram ∧
    ∃ l, (d.changed g t).grp g = { d.grp g with mem := l, change := none, point := t, setB := !(d.grp g).setB } := by
  obtain ⟨l, hl⟩ := (d.grp g).woken_keeps
  refine ⟨by simp [Dev.changed, Dev.showBusy], l, ?_⟩
  rw [Dev.grp_congr (d := d.setGrp g { (d.grp g).woken with change := none, point := t, setB := !(d.grp g).setB })
    (by simp [Dev.changed, Dev.showBusy]), Dev.grp_setGrp_same, hl]

/-- A change ends with its point and the other timing set in force (R126). -/
theorem Dev.endChange_done (d : Dev) (g t : Nat) (hg : g < 4) (hw : (d.grp g).waiting = none) (hh : (d.grp g).held = []) :
    ((d.endChange g t).grp g).change = none ∧ ((d.endChange g t).grp g).point = t ∧
      ((d.endChange g t).grp g).setB = !(d.grp g).setB ∧ raised (d.endChange g t) (mcPage g) Evt.MC_FREQ_DONE ∧
      (d.endChange g t).ram = d.ram := by
  have hplain := plainSource_mc g hg Evt.MC_FREQ_DONE (by simp)
  obtain ⟨hram, l, hgrp⟩ := d.changed_grp g t
  have hleft := (d.changed g t).detect_sameBesideEvents _ _ hplain
  have hraised := (d.changed g t).detect_raised _ _ hplain
  rw [d.endChange_eq g t]
  generalize (d.changed g t).detect (mcPage g) Evt.MC_FREQ_DONE = e at hleft hraised
  have hegrp := (Dev.grp_congr hleft.grps g).trans hgrp
  obtain ⟨hserve, hservegrp⟩ := e.serveHeld_leaves g (by rw [hegrp]; exact hh)
  obtain ⟨hnext, hnextgrp⟩ := (e.serveHeld g).nextChange_leaves
  rw [hnextgrp g (by rw [hservegrp, hegrp]; exact hw), hservegrp, hegrp]
  refine ⟨rfl, rfl, rfl, raised_of_hdrs (hserve.trans hnext).hdrs hraised, ?_⟩
  rw [(hserve.trans hnext).ram, hleft.ram, hram]

/-- A change whose members all pass ends. -/
theorem Dev.freqDone_passed (d : Dev) (g p : Nat) (passed : BitVec 9) (hc : (d.grp g).change = some p)
    (hp : ∀ m, m < 9 → (d.grp g).up m = true → passed.getLsbD m = true) : d.freqDone g passed = d.endChange g p := by
  have hnone : (List.range 9).filter (fun m => (d.grp g).up m && !passed.getLsbD m) = [] := by
    rw [List.filter_eq_nil_iff]
    intro m hm
    by_cases hup : (d.grp g).up m = true
    · simp [hp m (List.mem_range.mp hm) hup]
    · simp [hup]
  unfold Dev.freqDone
  simp only [hc, hnone, List.foldl_nil, List.all_nil, Option.isSome_some, Bool.and_self, if_true]

end Sys2Proof.Machine
end

section
/-! Rebuild, training and tracking of a parity group (R121, R128, R129). -/

namespace Sys2Proof.Machine

/-! ## Rebuild -/

/-- A write of 0 to a member's record begins its rebuild. -/
theorem Dev.rebuildAsk_begins (d : Dev) (g m : Nat) (hrec : d.rb (mcPage g) Reg.MC_RETIRE_REC m = true) (hl : (d.grp g).lost = false)
    (hr : (d.grp g).rebuild = none) (hs : (d.hdr (mcPage g)).state.serves = true) : d.rebuildAsk g m =
      (d.setGrp g ({ d.grp g with rebuild := some (m, false) }.modM m (fun y => { y with state := .rebuilding }))).showRebuild g true :=
  if_neg (by simp [hrec, hl, hr, hs])

theorem Dev.showRebuild_keeps (d : Dev) (g : Nat) (b : Bool) : (d.showRebuild g b).grps = d.grps ∧ (d.showRebuild g b).ram = d.ram := by
  simp [Dev.showRebuild]

theorem Dev.showRebuild_active (d : Dev) (g : Nat) : (d.showRebuild g true).rb (mcPage g) Reg.MC_REBUILD_STAT 16 = true := by
  rw [Dev.rb, Dev.showRebuild, Dev.reg_setReg_same]
  decide

/-- The member's training decides whether its rebuild goes on. -/
theorem Dev.rebuildTrained_eq (d : Dev) (g m : Nat) (pass : Bool) (h : (d.grp g).rebuild = some (m, false)) : d.rebuildTrained g pass =
    if pass then d.modGrp g (fun x => { x with rebuild := some (m, true) }.modM m (fun y => { y with trained := true }))
    else d.rebuildFail g m := by
  unfold Dev.rebuildTrained
  rw [h]

theorem instOf_mcPage : ∀ g < 4, instOf (mcPage g) = g := by decide

/-- A rebuild that stops leaves its member retired. -/
theorem Dev.rebuildStop_grp (d : Dev) (g m : Nat) : (d.rebuildStop g m).grp g =
    { d.grp g with rebuild := none }.modM m (fun y => { y with state := .retired }) := by
  rw [Dev.rebuildStop, Dev.grp_congr (Dev.showRebuild_keeps _ g false).1, Dev.grp_modGrp_same]

/-- A rebuild that fails ends: its member stays retired and the fault is raised. -/
theorem Dev.rebuildFail_ends (d : Dev) (g m : Nat) (hg : g < 4) : ((d.rebuildFail g m).grp g).rebuild = none ∧
    (((d.rebuildFail g m).grp g).m m).state = .retired ∧ raised (d.rebuildFail g m) (mcPage g) Evt.MC_CHAN_FAULT := by
  have hk := kindOf_mcPage g hg
  obtain ⟨e, he⟩ : ∃ e, (d.rebuildStop g m).bumpSat (mcPage g) Reg.MC_CHAN_FAULT_COUNT 15 0 = e := ⟨_, rfl⟩
  have hgrp : e.grp g = { d.grp g with rebuild := none }.modM m (fun y => { y with state := .retired }) := by
    rw [Dev.grp_congr (d := d.rebuildStop g m) (by rw [← he]; simp), Dev.rebuildStop_grp]
  have hret : ((e.grp g).m m).state = .retired := by rw [hgrp, Grp.m_modM_same]
  have hgrps : (e.detectUnit (mcPage g) Evt.MC_CHAN_FAULT m).grps = e.grps :=
    e.detectUnit_retired_grps (mcPage g) m hk (by rw [instOf_mcPage g hg]; exact hret)
  rw [Dev.rebuildFail, he, Dev.grp_congr hgrps]
  exact ⟨by rw [hgrp]; rfl, hret, e.detectUnit_chanFault_raised _ m hk⟩

/-- Where the record of a group's members lies. -/
theorem pageOf_mcRecord : ∀ g < 4, pageOf ((mcPage g).val * 0x1000 + Reg.MC_RETIRE_REC) = some (mcPage g) ∧
    ((mcPage g).val * 0x1000 + Reg.MC_RETIRE_REC) % 0x1000 = Reg.MC_RETIRE_REC := by decide

/-- A rebuilt member back in service, its record not yet stored. -/
def Dev.memberBack (d : Dev) (g m : Nat) : Dev :=
  (d.recompute g m).modGrp g (fun x => { x with rebuild := none }.modM m (fun y => { y with state := .active }))

theorem Dev.memberBack_keeps (d : Dev) (g m : Nat) : (d.memberBack g m).pages = d.pages ∧ (d.memberBack g m).ps = d.ps := by
  obtain ⟨hpages, hps, -⟩ := d.restoreCells_keeps g m (d.groupOffsets g)
  simp [Dev.memberBack, d.recompute_eq, hpages, hps]

theorem Dev.memberBack_grp (d : Dev) (g m : Nat) : ((d.memberBack g m).grp g).rebuild = none ∧
    (((d.memberBack g m).grp g).m m).state = .active := by
  rw [Dev.memberBack, Dev.grp_modGrp_same, Grp.m_modM_same]
  exact ⟨rfl, rfl⟩

theorem Dev.cell_congr {d e : Dev} (h : e.ram = d.ram) (g m off : Nat) : e.cell g m off = d.cell g m off := by rw [Dev.cell, h, Dev.cell]

theorem Dev.memberBack_agree (d : Dev) (g m off : Nat) (hm : m < 9) (hoff : off < 2 ^ 32) :
    (d.memberBack g m).cell g m off = (d.memberBack g m).xorOthers g m off := by
  have hram : (d.memberBack g m).ram = (d.recompute g m).ram := by simp [Dev.memberBack]
  rw [Dev.cell_congr hram, Dev.xorOthers_congr hram]
  exact d.recompute_agree g m off hm hoff

/-- A record word stored with a member's bit cleared. -/
def Dev.recordStored (d : Dev) (g m i : Nat) : Dev :=
  ((d.program i).setNv ((mcPage g).val * 0x1000 + Reg.MC_RETIRE_REC) (putFld m m 0 (d.reg (mcPage g) Reg.MC_RETIRE_REC))).setReg (mcPage g)
    Reg.MC_RETIRE_REC (putFld m m 0 (d.reg (mcPage g) Reg.MC_RETIRE_REC))

theorem Dev.recordStored_keeps (d : Dev) (g m i : Nat) : (d.recordStored g m i).grps = d.grps ∧ (d.recordStored g m i).ram = d.ram := by
  unfold Dev.recordStored
  simp [Dev.program, Dev.setPsWord]

theorem bit_putFld_zero (n : Nat) (w : Word) (h : n < 32) : bit n (putFld n n 0 w) = false := bit_putBit_same n false w h

theorem Dev.recordStored_clear (d : Dev) (g m i : Nat) (hm : m < 9) : (d.recordStored g m i).rb (mcPage g) Reg.MC_RETIRE_REC m = false := by
  rw [Dev.rb, Dev.recordStored, Dev.reg_setReg_same]
  exact bit_putFld_zero m _ (by omega)

/-- A rebuild that passes: the member's units, its record and its service. -/
theorem Dev.rebuildDone_passed (d : Dev) (g m i : Nat) (hg : g < 4) (hr : (d.grp g).rebuild = some (m, true))
    (hi : wordIndex ((mcPage g).val * 0x1000 + Reg.MC_RETIRE_REC) = some i) (hw : (d.psWord i).worn = false)
    (hwear : d.wear (d.psWord i).slot < endurance)
    (hnv : d.nv ((mcPage g).val * 0x1000 + Reg.MC_RETIRE_REC) ≠ putFld m m 0 (d.reg (mcPage g) Reg.MC_RETIRE_REC)) :
    d.rebuildDone g true = (((d.memberBack g m).recordStored g m i).showRebuild g false).detect (mcPage g) Evt.MC_REBUILD_DONE := by
  obtain ⟨hpages, hps⟩ := d.memberBack_keeps g m
  obtain ⟨hpage, hmod⟩ := pageOf_mcRecord g hg
  have hreg : (d.memberBack g m).reg (mcPage g) Reg.MC_RETIRE_REC = d.reg (mcPage g) Reg.MC_RETIRE_REC := by rw [Dev.reg, hpages, Dev.reg]
  have hword : (d.memberBack g m).psWord i = d.psWord i := by rw [Dev.psWord, hps, Dev.psWord]
  have hcommit := (d.memberBack g m).commitWord_stores _ (putFld m m 0 (d.reg (mcPage g) Reg.MC_RETIRE_REC)) _ i hpage hi
    (by rw [hword]; exact hw) (by rw [hword, Dev.wear, hps]; exact hwear) (by rw [Dev.nv, hps]; exact hnv)
  unfold Dev.rebuildDone
  simp only [hr, Bool.not_true, Bool.false_eq_true, if_false]
  change (Dev.showRebuild ((d.memberBack g m).commitWord _ (putFld m m 0 ((d.memberBack g m).reg (mcPage g) Reg.MC_RETIRE_REC)) .equal).1 g
    false).detect _ _ = _
  rw [Dev.recordStored, hreg, hcommit, hmod]

theorem Dev.rebuildDone_restores (d : Dev) (g m i : Nat) (hg : g < 4) (hm : m < 9) (hr : (d.grp g).rebuild = some (m, true))
    (hi : wordIndex ((mcPage g).val * 0x1000 + Reg.MC_RETIRE_REC) = some i) (hw : (d.psWord i).worn = false)
    (hwear : d.wear (d.psWord i).slot < endurance)
    (hnv : d.nv ((mcPage g).val * 0x1000 + Reg.MC_RETIRE_REC) ≠ putFld m m 0 (d.reg (mcPage g) Reg.MC_RETIRE_REC)) :
    ((d.rebuildDone g true).grp g).rebuild = none ∧ (((d.rebuildDone g true).grp g).m m).state = .active ∧
      (∀ off, off < 2 ^ 32 → (d.rebuildDone g true).cell g m off = (d.rebuildDone g true).xorOthers g m off) ∧
      (d.rebuildDone g true).rb (mcPage g) Reg.MC_RETIRE_REC m = false ∧ raised (d.rebuildDone g true) (mcPage g) Evt.MC_REBUILD_DONE := by
  have hplain := plainSource_mc g hg Evt.MC_REBUILD_DONE (by simp)
  obtain ⟨e, he⟩ : ∃ e, ((d.memberBack g m).recordStored g m i).showRebuild g false = e := ⟨_, rfl⟩
  have hleft := e.detect_sameBesideEvents _ _ hplain
  have hram : (e.detect (mcPage g) Evt.MC_REBUILD_DONE).ram = (d.memberBack g m).ram := by
    rw [hleft.ram, ← he, (Dev.showRebuild_keeps _ g false).2, (Dev.recordStored_keeps _ g m i).2]
  have hgrps : (e.detect (mcPage g) Evt.MC_REBUILD_DONE).grps = (d.memberBack g m).grps := by
    rw [hleft.grps, ← he, (Dev.showRebuild_keeps _ g false).1, (Dev.recordStored_keeps _ g m i).1]
  rw [d.rebuildDone_passed g m i hg hr hi hw hwear hnv, he, Dev.grp_congr hgrps]
  obtain ⟨hreb, hact⟩ := d.memberBack_grp g m
  refine ⟨hreb, hact, fun off hoff => ?_, ?_, e.detect_raised _ _ hplain⟩
  · rw [Dev.cell_congr hram, Dev.xorOthers_congr hram]
    exact d.memberBack_agree g m off hm hoff
  · rw [Dev.rb_congr hleft.regs, ← he, Dev.rb, Dev.showRebuild, Dev.reg_setReg_offset _ _ _ _ _ (by decide)]
    exact (d.memberBack g m).recordStored_clear g m i hm

/-! ## Training -/

theorem Dev.grp_setReg (d : Dev) (p : Page) (off : Nat) (w : Word) (i g : Nat) : (d.setReg p off w i).grp g = d.grp g :=
  Dev.grp_congr (by simp) g

/-- TRAIN_GO takes the members and the kind of the run. -/
theorem Dev.trainGo_begins (d : Dev) (g : Nat) (ht : (d.grp g).train = none) (hs : (d.hdr (dpPage g)).state.serves = true) :
    d.trainGo g = (d.modGrp g (fun x =>
      { x with train := some (d.rf (dpPage g) Reg.DP_TRAIN_CTRL 12 4, d.rb (dpPage g) Reg.DP_TRAIN_CTRL 1) })).setReg (dpPage g)
        Reg.DP_TRAIN_STAT (word (2 ^ 31)) := if_neg (by simp [ht, hs])

/-- A member that passes is trained, and one that never was enters service. -/
def Dev.memberTrained (d : Dev) (g m : Nat) : Dev :=
  d.modGrp g (fun x => x.modM m (fun y => if y.state = .untrained then { y with state := .active, trained := true } else { y with trained := true }))

/-- The members that a run with a mask trains, those that passed and those that failed. -/
def trainRun (mask : Nat) : List Nat := (List.range 9).filter (fun m => mask.testBit m)
def trainPass (mask : Nat) (passed : BitVec 9) : List Nat := (trainRun mask).filter (fun m => passed.getLsbD m)
def trainFail (mask : Nat) (passed : BitVec 9) : List Nat := (trainRun mask).filter (fun m => !passed.getLsbD m)

theorem mem_trainRun {mask m : Nat} : m ∈ trainRun mask ↔ m < 9 ∧ mask.testBit m = true := by simp [trainRun]

/-- The group with the members that passed trained and its run ended. -/
def Dev.membersTrained (d : Dev) (g mask : Nat) (passed : BitVec 9) : Dev :=
  (trainPass mask passed).foldl (fun d m => d.memberTrained g m)
    ((d.modGrp g (fun x => { x with train := none })).setReg (dpPage g) Reg.DP_TRAIN_STAT (word (passed.toNat &&& mask)))

theorem Dev.memberTrained_pages (d : Dev) (g m : Nat) : (d.memberTrained g m).pages = d.pages := by simp [Dev.memberTrained]

theorem Dev.membersTrained_pages (d : Dev) (g mask : Nat) (passed : BitVec 9) : (d.membersTrained g mask passed).pages =
    (d.setReg (dpPage g) Reg.DP_TRAIN_STAT (word (passed.toNat &&& mask))).pages :=
  foldl_keeps (fun x : Dev => x.pages = (d.setReg (dpPage g) Reg.DP_TRAIN_STAT (word (passed.toNat &&& mask))).pages) _
    (fun x m hx => (x.memberTrained_pages g m).trans hx) _ _ rfl

/-- One member that failed is detected, and its channel with it. -/
def Dev.memberFailed (d : Dev) (g m : Nat) : Dev := (d.detect (dpPage g) Evt.DP_TRAIN_FAIL).chanFault g m

/-- A verification outside a start: members passed are trained, members failed are detected (R128). -/
theorem Dev.trainDone_verified (d : Dev) (g mask : Nat) (passed : BitVec 9) (tj : Int) (ht : (d.grp g).train = some (mask, false))
    (hs : (d.hdr (dpPage g)).state ≠ .starting) :
    d.trainDone g passed tj = (trainFail mask passed).foldl (fun d m => d.memberFailed g m) (d.membersTrained g mask passed) := by
  have hstate : ((d.membersTrained g mask passed).hdr (dpPage g)).state ≠ .starting := by
    rw [Dev.hdr, d.membersTrained_pages g mask passed, ← Dev.hdr, Dev.hdr_congr (d := d) (by simp)]
    exact hs
  unfold Dev.trainDone
  rw [ht]
  refine if_neg ?_
  rw [Bool.and_eq_true, Bool.and_eq_true, decide_eq_true_eq]
  exact fun h => hstate h.1.1

theorem Dev.memberTrained_same (d : Dev) (g m : Nat) : (((d.memberTrained g m).grp g).m m).trained = true := by
  rw [Dev.memberTrained, Dev.grp_modGrp_same, Grp.m_modM_same]
  split <;> rfl

theorem Dev.memberTrained_other (d : Dev) (g m k : Nat) (h : k ≠ m) : ((d.memberTrained g m).grp g).m k = (d.grp g).m k := by
  rw [Dev.memberTrained, Dev.grp_modGrp_same, Grp.m_modM_other _ _ _ _ h]

/-- Every listed member is trained, and one that was stays so. -/
theorem Dev.foldl_memberTrained (g m : Nat) (l : List Nat) : ∀ d : Dev, m ∈ l ∨ ((d.grp g).m m).trained = true →
    (((l.foldl (fun d m => d.memberTrained g m) d).grp g).m m).trained = true := by
  induction l with
  | nil => exact fun d h => h.resolve_left List.not_mem_nil
  | cons k l ih =>
    intro d h
    refine ih (d.memberTrained g k) ?_
    by_cases hm : m = k
    · subst hm
      exact Or.inr (d.memberTrained_same g m)
    · rw [d.memberTrained_other g k m hm]
      exact h.imp_left (fun hmem => (List.mem_cons.mp hmem).resolve_left hm)

theorem Dev.membersTrained_train (d : Dev) (g mask : Nat) (passed : BitVec 9) : ((d.membersTrained g mask passed).grp g).train = none := by
  refine foldl_keeps (fun x : Dev => (x.grp g).train = none) _ (fun x m hx => ?_) _ _ ?_
  · rw [Dev.memberTrained, Dev.grp_modGrp_same]
    exact hx
  · rw [Dev.grp_congr (d := d.modGrp g (fun x => { x with train := none })) (by simp), Dev.grp_modGrp_same]

/-- What a run shows and trains where no member failed. -/
theorem Dev.membersTrained_stat (d : Dev) (g mask : Nat) (passed : BitVec 9) :
    (d.membersTrained g mask passed).reg (dpPage g) Reg.DP_TRAIN_STAT = word (passed.toNat &&& mask) := by
  rw [Dev.reg, d.membersTrained_pages g mask passed, ← Dev.reg, Dev.reg_setReg_same]

/-- A mask of members that all passed is what the run reports. -/
theorem passed_and_mask {mask : Nat} {passed : BitVec 9} (hm : mask < 512)
    (h : ∀ m : Member, mask.testBit m.val = true → passed.getLsbD m.val = true) : passed.toNat &&& mask = mask := by
  refine Nat.eq_of_testBit_eq fun i => ?_
  rw [Nat.testBit_and]
  by_cases hi : i < 9
  · cases hb : mask.testBit i with
    | false => exact Bool.and_false _
    | true => rw [show passed.toNat.testBit i = true from h ⟨i, hi⟩ hb, Bool.and_self]
  · rw [Nat.testBit_lt_two_pow (x := mask) (i := i) (lt_of_lt_of_le hm (Nat.pow_le_pow_right (by decide) (Nat.not_lt.mp hi) : 2 ^ 9 ≤ 2 ^ i)),
      Bool.and_false]

theorem trainFail_nil {mask : Nat} {passed : BitVec 9} (h : ∀ m : Member, mask.testBit m.val = true → passed.getLsbD m.val = true) :
    trainFail mask passed = [] := by
  refine List.filter_eq_nil_iff.mpr (fun m hm => ?_)
  obtain ⟨h9, hbit⟩ := mem_trainRun.mp hm
  simp [h ⟨m, h9⟩ hbit]

theorem plainSource_dp : ∀ g < 4, PlainSource (dpPage g) Evt.DP_TRAIN_FAIL := by
  unfold PlainSource
  decide

theorem dpPage_ne_mcPage : ∀ g < 4, dpPage g ≠ mcPage g := by decide

theorem Dev.memberFailed_raised (d : Dev) (g m : Nat) (hg : g < 4) : raised (d.memberFailed g m) (dpPage g) Evt.DP_TRAIN_FAIL := by
  unfold raised Dev.memberFailed
  rw [(Dev.chanFault_leaves _ g m hg).2.1 _ (dpPage_ne_mcPage g hg)]
  exact d.detect_raised _ _ (plainSource_dp g hg)

/-- A run with a member that failed raises TRAIN_FAIL. -/
theorem Dev.foldl_memberFailed_raised (g : Nat) (hg : g < 4) (l : List Nat) (d : Dev) (hl : l ≠ []) :
    raised (l.foldl (fun d m => d.memberFailed g m) d) (dpPage g) Evt.DP_TRAIN_FAIL := by
  obtain ⟨k, l, rfl⟩ := List.exists_cons_of_ne_nil hl
  exact foldl_keeps (fun e : Dev => raised e (dpPage g) Evt.DP_TRAIN_FAIL) _ (fun e m _ => e.memberFailed_raised g m hg) l _
    (d.memberFailed_raised g k hg)

/-! ## Tracking -/

theorem Dev.rf_peak_same (d : Dev) (p : Page) (off hi lo v i : Nat) (h : lo ≤ hi) (h32 : hi < 32) (hv : v < 2 ^ (hi - lo + 1)) :
    (d.peak p off hi lo v i).rf p off hi lo i = max (d.rf p off hi lo i) v := by
  unfold Dev.peak
  split
  · next hlt => rw [d.rf_setRf_same _ _ _ _ _ _ h h32, Nat.mod_eq_of_lt hv, Nat.max_eq_right (Nat.le_of_lt hlt)]
  · next hge => exact (Nat.max_eq_left (Nat.not_lt.mp hge)).symm

/-- A tracking step is counted and its largest movement kept (R129). -/
theorem Dev.wckTrack_counts (d : Dev) (g stepPs : Nat) :
    (d.wckTrack g stepPs).rf (dpPage g) Reg.DP_TRACK_STAT 15 0 = (d.rf (dpPage g) Reg.DP_TRACK_STAT 15 0 + 1) % 65536 ∧
      (d.wckTrack g stepPs).rf (dpPage g) Reg.DP_TRACK_STAT 31 16 = max (d.rf (dpPage g) Reg.DP_TRACK_STAT 31 16) (min stepPs 65535) := by
  rw [Dev.wckTrack]
  constructor
  · rw [Dev.rf_peak_field _ _ _ _ _ _ _ _ _ (by decide) (by decide) (by decide)]
    exact d.rf_bump_same _ _ 15 1 0 (by decide)
  · rw [Dev.rf_peak_same _ _ _ _ _ _ _ (by decide) (by decide) (by omega), Dev.bump,
      Dev.rf_setRf_field _ _ _ _ _ _ _ _ _ (by decide) (by decide) (by decide)]

/-! ## The obligation -/

/-- Settles O37: a rebuild writes each cell from the others (`Dev.rebuildDone_restores`), a change begins and ends with its group
(`Dev.freqGo_begins`, `Dev.endChange_done`), and a run trains member by member (`Dev.trainDone_verified`). -/
theorem rebuildFrequencyAndTraining : Obligations.RebuildFrequencyAndTraining := by
  refine ⟨fun s g m hrec hl hr hs => ⟨_, rfl, ?_⟩, fun s g m hr => ⟨_, rfl, ?_⟩, fun s g m hr => ⟨_, rfl, ?_⟩,
    fun s g m i hr hm hi hw hwear hnv => ⟨_, rfl, s.dev.rebuildDone_restores g.val m i g.isLt hm hr hi hw hwear hnv⟩,
    fun s g hw hc hs => ⟨_, rfl, ?_⟩, fun s g passed p hc hw hh hp => ⟨_, rfl, ?_⟩,
    fun s g b1 b10 hf ha hl hp hp4 hu hw hc hs =>
      ⟨_, rfl, s.dev.freqAuto_begins g.val b1 b10 g.isLt hf ha hl hp hp4 hu hw hc hs⟩,
    fun s g ht hs => ⟨_, rfl, ?_⟩, fun s g passed tj mask ht hs hm hp => ⟨_, rfl, ?_⟩,
    fun s g passed tj mask m ht hs hm hp => ⟨_, rfl, ?_⟩, fun s g stepPs => ⟨_, rfl, s.dev.wckTrack_counts g.val stepPs⟩⟩
  all_goals dsimp only
  case refine_1 =>
    obtain ⟨hgrps, hram⟩ := Dev.showRebuild_keeps (s.dev.setGrp g.val
      ({ s.dev.grp g.val with rebuild := some (m.val, false) }.modM m.val (fun y => { y with state := .rebuilding }))) g.val true
    rw [s.dev.rebuildAsk_begins g.val m.val hrec hl hr hs, Dev.grp_congr hgrps, Dev.grp_setGrp_same, Grp.m_modM_same, hram]
    exact ⟨rfl, rfl, Dev.showRebuild_active _ g.val, by simp⟩
  case refine_2 =>
    rw [s.dev.rebuildTrained_eq g.val m true hr, if_pos rfl, Dev.grp_modGrp_same, Grp.m_modM_same]
    exact ⟨rfl, rfl, by simp⟩
  case refine_3 =>
    rw [s.dev.rebuildTrained_eq g.val m false hr, if_neg Bool.false_ne_true]
    exact s.dev.rebuildFail_ends g.val m g.isLt
  case refine_4 =>
    obtain ⟨hgrp, hbusy⟩ := s.dev.freqGo_begins g.val g.isLt hw hc hs
    refine ⟨by rw [hgrp]; rfl, hbusy, by rw [hgrp], Dev.grpServes_changing _ g.val _ (congrArg Grp.change hgrp)⟩
  case refine_5 =>
    rw [s.dev.freqDone_passed g.val p passed hc (fun m hm => hp ⟨m, hm⟩)]
    exact s.dev.endChange_done g.val p g.isLt hw hh
  case refine_6 =>
    rw [← dpPage_val, s.dev.trainGo_begins g.val ht hs]
    refine ⟨?_, ?_, by simp⟩
    · rw [Dev.rb, Dev.reg_setReg_same]
      decide
    · rw [Dev.grp_setReg, Dev.grp_modGrp_same]
  case refine_7 =>
    rw [s.dev.trainDone_verified g.val mask passed tj ht hs, trainFail_nil hp, List.foldl_nil]
    refine ⟨s.dev.membersTrained_train g.val mask passed, ?_, fun m hbit => ?_⟩
    · rw [← dpPage_val, s.dev.membersTrained_stat g.val mask passed, passed_and_mask hm hp, word_toNat]
      exact Nat.mod_eq_of_lt (by omega)
    · exact Dev.foldl_memberTrained g.val m.val _ _
        (Or.inl (List.mem_filter.mpr ⟨mem_trainRun.mpr ⟨m.isLt, hbit⟩, hp m hbit⟩))
  case refine_8 =>
    have hmem : m.val ∈ trainFail mask passed := List.mem_filter.mpr ⟨mem_trainRun.mpr ⟨m.isLt, hm⟩, by rw [hp]; rfl⟩
    rw [s.dev.trainDone_verified g.val mask passed tj ht hs]
    exact Dev.foldl_memberFailed_raised g.val g.isLt _ _ (List.ne_nil_of_mem hmem)

end Sys2Proof.Machine
end

section
/-! What follows a stored retirement record (Table 20.4, R189, R478) leaves of the persistent store: its words and its queue, the
accesses that wait and what is asked of the whole block. -/

namespace Sys2Proof.Machine

/-- The persistent store, the accesses that wait and the effects asked for have stayed. -/
structure StoreStands (d e : Dev) : Prop where
  ps : e.ps = d.ps
  asks : e.asks = d.asks
  waiting : e.pages.waiting = d.pages.waiting

theorem StoreStands.refl (d : Dev) : StoreStands d d := ⟨rfl, rfl, rfl⟩

theorem StoreStands.trans {d e f : Dev} (h : StoreStands d e) (h' : StoreStands e f) : StoreStands d f :=
  ⟨h'.ps.trans h.ps, h'.asks.trans h.asks, h'.waiting.trans h.waiting⟩

/-- A fold of operations that each leave the store leaves it. -/
theorem StoreStands.foldl {α : Type} (f : Dev → α → Dev) (hf : ∀ d x, StoreStands d (f d x)) (l : List α) (d : Dev) :
    StoreStands d (l.foldl f d) := foldl_keeps (StoreStands d) f (fun e x h => h.trans (hf e x)) l d (StoreStands.refl d)

theorem StoreStands.ite {d e f : Dev} {c : Prop} [Decidable c] (h : StoreStands d e) (h' : StoreStands d f) :
    StoreStands d (if c then e else f) := by
  split
  · exact h
  · exact h'

theorem Detected.storeStands {d e : Dev} {p : Page} {src : Nat} (h : Detected d e p src) : StoreStands d e := by
  obtain ⟨hs, o, pd, he⟩ := h.rest
  rw [he]
  exact ⟨rfl, rfl, rfl⟩

theorem Dev.detect_tableRefused (d : Dev) : StoreStands d (d.detect Pg.px Evt.PX_TABLE_REFUSED) :=
  (d.detect_detected Pg.px Evt.PX_TABLE_REFUSED (by decide) (by decide) (by decide)).storeStands

/-! ## Video engines (R189) -/

theorem Dev.keyReq_storeStands (d : Dev) (src : Nat) (leg : Option Nat) : StoreStands d (d.keyReq src leg) := by
  unfold Dev.keyReq
  refine .ite (.refl d) (.ite ⟨by simp, by simp, by simp⟩ ?_)
  cases leg with
  | none => exact ⟨by simp, by simp, by simp⟩
  | some l => exact ⟨by simp, by simp, by simp⟩

theorem Dev.setLegX_storeStands (d : Dev) (l : Nat) (x : LegX) : StoreStands d (d.setLegX l x) := ⟨rfl, rfl, rfl⟩

theorem Dev.sendPli_storeStands (d : Dev) (h : Nat) : StoreStands d (d.sendPli h) := by
  unfold Dev.sendPli
  exact .ite (.refl d) (.ite (.refl d) ((d.setLegX_storeStands _ _).trans (Dev.keyReq_storeStands _ _ _)))

theorem Dev.setTw_storeStands (d : Dev) (p : Page) (a i : Nat) (w : Word) : StoreStands d (d.setTw p a i w) := ⟨by simp, by simp, by simp⟩
theorem Dev.setTf_storeStands (d : Dev) (p : Page) (a i hi lo v : Nat) : StoreStands d (d.setTf p a i hi lo v) := ⟨by simp, by simp, by simp⟩
theorem Dev.setVctx_storeStands (d : Dev) (h : Nat) (c : VCtx) : StoreStands d (d.setVctx h c) := ⟨rfl, rfl, rfl⟩

theorem Dev.showCtx_storeStands (d : Dev) (h : Nat) : StoreStands d (d.showCtx h) := by
  unfold Dev.showCtx
  exact .ite ⟨by simp, by simp, by simp⟩ ⟨by simp, by simp, by simp⟩

/-- Four packed words put into a context entry. -/
def Dev.putContext (d : Dev) (h k : Nat) (x : BitVec 128) : Dev :=
  (List.range 4).foldl (fun d i => d.setTw (vePage h) (ctxAddr h k) i (wordAt x i)) d

theorem Dev.putContext_storeStands (d : Dev) (h k : Nat) (x : BitVec 128) : StoreStands d (d.putContext h k x) :=
  StoreStands.foldl _ (fun e _ => e.setTw_storeStands _ _ _ _) _ d

theorem Dev.startContext_eq (d : Dev) (h : Nat) (enc : Bool) (charge : Nat) (k0 k1 k3 : BitVec 128) (resync : Bool) :
    d.startContext h enc charge k0 k1 k3 resync =
      ((((((d.putContext h 0 k0).putContext h 1 (if enc then k1 else 0)).putContext h 2 0).putContext h 3 k3).setTf (vePage h) (ctxAddr h 0) 0 1 0
        (1 + enc.toNat * 2)).setVctx h { VCtx.reset with charge := charge, fw := true, cur := { VGen.empty with resync := resync } }).showCtx h :=
  rfl

theorem Dev.startContext_storeStands (d : Dev) (h : Nat) (enc : Bool) (charge : Nat) (k0 k1 k3 : BitVec 128) (resync : Bool) :
    StoreStands d (d.startContext h enc charge k0 k1 k3 resync) := by
  rw [d.startContext_eq]
  have hput := ((d.putContext_storeStands h 0 k0).trans (Dev.putContext_storeStands _ h 1 (if enc then k1 else 0))).trans
    ((Dev.putContext_storeStands _ h 2 0).trans (Dev.putContext_storeStands _ h 3 k3))
  exact ((hput.trans (Dev.setTf_storeStands _ _ _ _ _ _ _)).trans (Dev.setVctx_storeStands _ h _)).trans (Dev.showCtx_storeStands _ h)

/-- The slot a context moves to stays a variable: its search runs over 512 slots and must not be evaluated. -/
theorem Dev.moveContext_storeStands (d : Dev) (h : Nat) : StoreStands d (d.moveContext h) := by
  have hstart := fun (e : Dev) n b q k0 k1 k3 (r : Bool) (v : VCtx) =>
    (e.startContext_storeStands n b q k0 k1 k3 r).trans (Dev.setVctx_storeStands _ n v)
  have hleft := (d.setTf_storeStands (vePage h) (ctxAddr h 0) 0 0 0 0).trans (Dev.setVctx_storeStands _ h VCtx.reset)
  obtain ⟨slot, hslot⟩ : ∃ slot, slot = Dev.freeContext := ⟨_, rfl⟩
  unfold Dev.moveContext
  rw [← hslot]
  refine .ite (.refl d) (hleft.trans ?_)
  dsimp only
  split
  · exact Dev.detect_tableRefused _
  · split
    · exact .refl _
    · exact .ite (hstart _ _ _ _ _ _ _ _ _)
        (((hstart _ _ _ _ _ _ _ _ _).trans (.ite (Dev.setTf_storeStands _ _ _ _ _ _ _) (.refl _))).trans (Dev.sendPli_storeStands _ _))

theorem Dev.release_storeStands (d : Dev) (n : Nat) : StoreStands d (d.release n) := ⟨rfl, rfl, rfl⟩
theorem Dev.subInflight_storeStands (d : Dev) (p : Page) (n : Nat) : StoreStands d (d.subInflight p n) := ⟨by simp, by simp, by simp⟩

theorem Dev.moveContexts_storeStands (d : Dev) (e : Nat) : StoreStands d (d.moveContexts e) := by
  unfold Dev.moveContexts
  have hjobs := StoreStands.foldl (fun (d : Dev) (j : VJob) => (d.release j.uj).subInflight (pg (0x10 + e)))
    (fun x j => (x.release_storeStands j.uj).trans (Dev.subInflight_storeStands _ _ 1))
  have hemptied : ∀ (x : Dev) (v : VEng), StoreStands x (x.setVeng e v) := fun x v => ⟨rfl, rfl, rfl⟩
  refine StoreStands.trans ?_ (.foldl _ (fun x c => x.moveContext_storeStands _) (List.range 512) _)
  exact (hjobs _ d).trans (hemptied _ _)

/-! ## Compositors (R478) -/

theorem Dev.copyOutput_storeStands (d : Dev) (c o c' o' : Nat) : StoreStands d (d.copyOutput c o c' o') := by
  unfold Dev.copyOutput
  exact .foldl _ (fun e i => ⟨by simp, by simp, by simp⟩) _ d

theorem Dev.cpPlanned_storeStands (d : Dev) (c : Nat) : StoreStands d (d.cpPlanned c) := ⟨rfl, rfl, rfl⟩

theorem Dev.rehomeOutputs_storeStands (d : Dev) (c : Nat) : StoreStands d (d.rehomeOutputs c) := by
  unfold Dev.rehomeOutputs
  refine StoreStands.trans (e := d.setCpUnit c CpUnit.reset) ⟨rfl, rfl, rfl⟩ (.foldl _ (fun e o => ?_) _ _)
  have hoff : StoreStands e (e.setTf (cpPage c) (o * 64) 0 0 0 0) := e.setTf_storeStands _ _ _ _ _ _
  refine .ite (.refl e) ?_
  dsimp only
  split
  · exact hoff
  · split
    · exact hoff
    · refine .ite hoff (.trans ?_ (.foldl _ (fun x h => .ite (x.setVctx_storeStands _ _) (.refl x)) _ _))
      exact ((e.copyOutput_storeStands _ _ _ _).trans (Dev.setTf_storeStands _ _ _ _ _ _ _)).trans (Dev.cpPlanned_storeStands _ _)

/-! ## Clusters -/

theorem Dev.queueAudio_storeStands (d : Dev) (c : Nat) (j : DsJob) : StoreStands d (d.queueAudio c j) := ⟨rfl, rfl, rfl⟩

/-- What follows the record of a unit that is its whole page. -/
theorem Dev.recordIsSet_storeStands (d : Dev) (p : Page) (u : Nat) (hk : (kindOf p).retiresPage = true) : StoreStands d (d.recordIsSet p u) := by
  unfold Dev.recordIsSet
  dsimp only
  split
  · exact d.moveContexts_storeStands _
  · exact d.rehomeOutputs_storeStands _
  · next he => rw [he] at hk; cases hk
  · split
    · exact ⟨rfl, rfl, rfl⟩
    · have hempty : StoreStands d (d.setDs (instOf p) { d.ds (instOf p) with queue := [], lanes := [] }) := ⟨rfl, rfl, rfl⟩
      exact (hempty.trans (.foldl _ (fun x _ => x.subInflight_storeStands p 1) _ _)).trans
        (.foldl _ (fun x j => x.queueAudio_storeStands _ _) _ _)
  · next he => rw [he] at hk; cases hk
  · exact StoreStands.refl d

end Sys2Proof.Machine
end

section
/-! Retirement records: the bit written to 0 and to 1, the re-qualification, and the record stored (R119, R471, R477, R484, R485). -/

namespace Sys2Proof.Machine

/-! ## Where the records lie -/

theorem recordOff_lt : ∀ k : PageKind, ∀ off, recordOff k = some off → off < 0x1000 := by
  intro k off h
  cases k <;> cases h <;> decide

theorem recordAt_some {p : Page} {b off : Nat} (h : recordAt p b = some off) : b < recordBits (kindOf p) ∧ recordOff (kindOf p) = some off := by
  unfold recordAt at h
  split at h
  · exact ⟨‹_›, h⟩
  · cases h

/-- The kinds whose unit is the whole page. -/
theorem retiresPage_kinds {k : PageKind} (h : k.retiresPage = true) : k = .ve ∨ k = .ds ∨ k = .cp ∨ k = .ce := by
  cases k <;> simp [PageKind.retiresPage] at h ⊢

theorem recordBits_of_retiresPage {k : PageKind} (h : k.retiresPage = true) : recordBits k = 1 := by
  obtain rfl | rfl | rfl | rfl := retiresPage_kinds h <;> rfl

theorem recordOff_of_retiresPage {k : PageKind} (h : k.retiresPage = true) : ∃ off, recordOff k = some off := by
  obtain rfl | rfl | rfl | rfl := retiresPage_kinds h <;> exact ⟨_, rfl⟩

/-- The word of a record lies in its page. -/
theorem pageOf_record {p : Page} {off : Nat} (h : off < 0x1000) :
    pageOf (p.val * 0x1000 + off) = some p ∧ (p.val * 0x1000 + off) % 0x1000 = off := by
  have hp := p.isLt
  have hq : (p.val * 0x1000 + off) / 0x1000 = p.val := by omega
  refine ⟨?_, by omega⟩
  unfold pageOf
  rw [dif_pos (by omega)]
  exact congrArg some (Fin.ext hq)

/-! ## A bit written to 0 -/

theorem getLsbD_or_twoPow (w : BitVec 32) (b : Nat) (hb : b < 32) : (w ||| BitVec.ofNat 32 (2 ^ b)).getLsbD b = true := by
  rw [BitVec.getLsbD_or, BitVec.getLsbD_ofNat, Nat.testBit_two_pow_self, decide_eq_true hb, Bool.and_true, Bool.or_true]

/-- A written 0 starts the re-qualification where it is not a member's or a chain's. -/
theorem Dev.recordClear_starts (d : Dev) (p : Page) (b : Nat) (hat : (recordAt p b).isSome = true) (hm : kindOf p ≠ .mc) (hr : kindOf p ≠ .rb)
    (hset : (d.records p).testBit b = true) :
    d.recordClear p b = d.modHdr p (fun h => { h with requal := h.requal ||| BitVec.ofNat 32 (2 ^ b) }) := by
  obtain ⟨off, hoff⟩ := Option.isSome_iff_exists.mp hat
  unfold Dev.recordClear
  simp only [hoff, hset, Bool.not_true, Bool.false_eq_true, if_false]

/-! ## A bit written to 1 -/

theorem Dev.mem_queueRecord (d : Dev) (p : Page) (v : Word) (off : Nat) (h : recordOff (kindOf p) = some off) :
    { off := p.val * 0x1000 + off, v := v, record := true } ∈ (d.queueRecord p v).ps.queue := by
  unfold Dev.queueRecord
  rw [h]
  dsimp only
  split <;> simp

/-- A unit whose record waits in the store's queue is out. -/
theorem Dev.unitOut_of_queued (d : Dev) (p : Page) (u : Nat) (v : Word) (off : Nat) (h : recordOff (kindOf p) = some off)
    (hq : { off := p.val * 0x1000 + off, v := v, record := true } ∈ d.ps.queue) (hv : v.getLsbD u = true) : d.unitOut p u = true := by
  unfold Dev.unitOut
  rw [Bool.or_eq_true, List.any_eq_true]
  exact .inr ⟨_, hq, by simp [h, hv]⟩

/-- The persistent store and the registers have stayed, and a page that sits out still does. -/
structure KeepsOut (p : Page) (d e : Dev) : Prop where
  ps : e.ps = d.ps
  regs : e.pages.regs = d.pages.regs
  out : (d.hdr p).state = .sitOut → (e.hdr p).state = .sitOut

theorem KeepsOut.refl (p : Page) (d : Dev) : KeepsOut p d d := ⟨rfl, rfl, id⟩

theorem KeepsOut.trans {p : Page} {d e f : Dev} (h : KeepsOut p d e) (h' : KeepsOut p e f) : KeepsOut p d f :=
  ⟨h'.ps.trans h.ps, h'.regs.trans h.regs, h'.out ∘ h.out⟩

theorem Dev.finishPlain_keepsOut (d : Dev) (p : Page) (r q : Nat) (st : Status) (c : Nat) : KeepsOut p d (d.finishPlain r q st c) := by
  have hpages := d.finishPlain_pages r q st c
  refine ⟨?_, by rw [hpages], fun h => by rw [Dev.hdr, hpages]; exact h⟩
  unfold Dev.finishPlain
  split <;> rfl

/-- A page that sits out does not settle. -/
theorem Hdr.settle_sitOut (h : Hdr) (hs : h.state = .sitOut) : h.settle.state = .sitOut := by
  rw [Hdr.settle, if_neg (by rw [hs]; decide), hs]

theorem Dev.subInflight_keepsOut (d : Dev) (p : Page) (n : Nat) : KeepsOut p d (d.subInflight p n) := by
  refine ⟨by simp, by simp, fun h => ?_⟩
  rw [Dev.subInflight, Dev.hdr_modHdr_same]
  exact Hdr.settle_sitOut _ h

/-- The items of a retired unit are ended or served again; its page stays out. -/
theorem Dev.redispatchRetired_keepsOut (d : Dev) (p : Page) : KeepsOut p d (d.redispatchRetired p) := by
  unfold Dev.redispatchRetired
  refine foldl_keeps (KeepsOut p d) _ (fun e i he => he.trans ?_) _ d (KeepsOut.refl p d)
  split
  · exact KeepsOut.refl p e
  · exact e.finishPlain_keepsOut p _ _ _ _
  · split_ifs
    · exact KeepsOut.refl p e
    · exact KeepsOut.trans (e := e.modItem i.ring i.seq Item.again) ⟨rfl, rfl, id⟩ ((e.modItem i.ring i.seq Item.again).subInflight_keepsOut p 1)
    · exact e.finishPlain_keepsOut p _ _ _ _
    · exact e.finishPlain_keepsOut p _ _ _ _

/-- A unit that is its whole page is taken out at once. -/
theorem Dev.retireUnit_sitsOut (d : Dev) (p : Page) (hk : (kindOf p).retiresPage = true) (hs : (d.hdr p).state ≠ .sitOut) :
    ((d.retireUnit p 0).1.hdr p).state = .sitOut ∧ (d.retireUnit p 0).1.unitOut p 0 = true ∧
      (d.retireUnit p 0).1.pages.regs = d.pages.regs := by
  obtain ⟨off, hoff⟩ := recordOff_of_retiresPage hk
  unfold Dev.retireUnit
  rw [if_pos hk, if_neg hs]
  generalize hv : putFld 0 0 1 (d.reg p ((recordOff (kindOf p)).getD 0)) = v
  generalize hx : (d.modHdr p (fun h => { h with state := .sitOut })).clearCount p 100 = x
  have hout : (x.hdr p).state = .sitOut := by rw [← hx, Dev.clearCount, Dev.hdr_modHdr_same, Dev.hdr_modHdr_same]
  have hregs : x.pages.regs = d.pages.regs := by rw [← hx]; rfl
  obtain ⟨hps, hregs', hout'⟩ := (x.queueRecord p v).redispatchRetired_keepsOut p
  refine ⟨hout' (by rw [Dev.hdr, Dev.queueRecord_pages]; exact hout), ?_, by rw [hregs', Dev.queueRecord_pages, hregs]⟩
  refine Dev.unitOut_of_queued _ p 0 v off hoff (by rw [hps]; exact x.mem_queueRecord p v off hoff) ?_
  rw [← hv]
  exact bit_putBit_same 0 true _ (by decide)

theorem Dev.recordSet_eq (d : Dev) (p : Page) (hk : (kindOf p).retiresPage = true) (ho : d.unitOut p 0 = false) :
    d.recordSet p 0 = (d.retireUnit p 0).1 := by
  obtain ⟨off, hoff⟩ := recordOff_of_retiresPage hk
  have hat : recordAt p 0 = some off := by rw [recordAt, recordBits_of_retiresPage hk, if_pos (by decide), hoff]
  unfold Dev.recordSet
  obtain hkind | hkind | hkind | hkind := retiresPage_kinds hk <;> simp [hat, ho, hkind]

/-! ## The end of a re-qualification -/

theorem Dev.requalEnd_passed (d : Dev) (p : Page) (u off : Nat) (hoff : recordOff (kindOf p) = some off) (hc : kindOf p ≠ .cc)
    (hr : (d.hdr p).requal.getLsbD u = true) : d.requalEnd p u true = d.queueRecord p (putFld u u 0 (d.reg p off)) := by
  unfold Dev.requalEnd
  simp only [hr, hc, hoff, Bool.not_true, Bool.false_eq_true, if_false]

theorem Dev.requalEnd_failed (d : Dev) (p : Page) (u : Nat) (hr : (d.hdr p).requal.getLsbD u = true) :
    d.requalEnd p u false = (d.modHdr p (fun h => { h with requal := h.requal &&& ~~~ BitVec.ofNat 32 (2 ^ u) })).detectAt p
      (retiringSource (kindOf p)) (some u) false .permanent := by
  unfold Dev.requalEnd
  simp only [hr, Bool.not_true, Bool.not_false, Bool.false_eq_true, if_false, if_true]

theorem retiringSource_lt (k : PageKind) : retiringSource k < 32 := by cases k <;> decide

theorem recordOff_ne_dir {k : PageKind} {off : Nat} (h : recordOff k = some off) : k ≠ .dir := by
  rintro rfl
  cases h

/-! ## The record stored -/

/-- What is done for a record word stored with its only bit set. -/
theorem Dev.recordDone_set (d : Dev) (p : Page) (old new_ : Word) (hk : (kindOf p).retiresPage = true) (hn : bit 0 new_ = true) :
    StoreStands d (d.recordDone p old new_) := by
  unfold Dev.recordDone
  rw [recordBits_of_retiresPage hk]
  change StoreStands d (if bit 0 new_ && !bit 0 old then d.recordIsSet p 0 else if bit 0 old && !bit 0 new_ then d.recordIsClear p 0 else d)
  refine .ite (d.recordIsSet_storeStands p 0 hk) ?_
  rw [if_neg (by simp [hn])]
  exact .refl d

theorem bit_or_left (n : Nat) (w x : Word) (h : bit n w = true) : bit n (w ||| x) = true := by simp_all [bit]

/-- A record word that is stored: its value stands in the store, whatever is done for the unit. -/
theorem Dev.finishPs_record (d : Dev) (p : Page) (off i : Nat) (v : Word) (hoff : off < 0x1000) (hk : (kindOf p).retiresPage = true)
    (hv : bit 0 v = true) (hi : wordIndex (p.val * 0x1000 + off) = some i) (hw : (d.psWord i).worn = false)
    (he : d.wear (d.psWord i).slot < endurance) (hne : d.nv (p.val * 0x1000 + off) ≠ v) :
    StoreStands (((d.program i).setNv (p.val * 0x1000 + off) v).setReg p off v)
      (d.finishPs { off := p.val * 0x1000 + off, v := v, record := true } .equal) := by
  obtain ⟨hpage, hmod⟩ := pageOf_record (p := p) hoff
  unfold Dev.finishPs
  simp only [hpage, d.commitWord_stores _ v p i hpage hi hw he hne, hmod, if_true]
  exact Dev.recordDone_set _ p _ _ hk (bit_or_left 0 _ _ (by rw [Dev.reg_setReg_same]; exact hv))

/-- The commit of a queued record word: it is stored and the queue is empty. -/
theorem Dev.recordCommitted_stores (d : Dev) (p : Page) (b off i : Nat) (v : Word) (hat : recordAt p b = some off)
    (hk : (kindOf p).retiresPage = true) (hq : d.ps.queue = [{ off := p.val * 0x1000 + off, v := v, record := true }]) (hv : bit b v = true)
    (hwait : d.pages.waiting = []) (hasks : d.asks = []) (hi : wordIndex (p.val * 0x1000 + off) = some i) (hw : (d.psWord i).worn = false)
    (he : d.wear (d.psWord i).slot < endurance) (hne : d.nv (p.val * 0x1000 + off) ≠ v) :
    (d.recordCommitted p b).asks = [] ∧ (d.recordCommitted p b).nv (p.val * 0x1000 + off) = v ∧ (d.recordCommitted p b).ps.queue = [] := by
  obtain ⟨hb, hoff⟩ := recordAt_some hat
  have hb0 : b = 0 := by
    rw [recordBits_of_retiresPage hk] at hb
    omega
  subst hb0
  have hdone : d.recordCommitted p 0 = d.persistDone .equal := by
    unfold Dev.recordCommitted
    rw [hq, hat]
    exact if_pos (by simpa [bit] using hv)
  rw [hdone, d.persistDone_one _ .equal hq]
  generalize hx : ({ d with ps := { d.ps with queue := [] } } : Dev) = x
  have hstand := x.finishPs_record p off i v (recordOff_lt _ _ hoff) hk hv hi (by rw [← hx]; exact hw) (by rw [← hx]; exact he)
    (by rw [← hx]; exact hne)
  generalize x.finishPs { off := p.val * 0x1000 + off, v := v, record := true } .equal = y at hstand ⊢
  obtain ⟨hps, hask, hwt⟩ := hstand
  rw [y.replay_none (by rw [hwt, ← hx]; exact hwait)]
  refine ⟨by rw [hask, ← hx]; exact hasks, ?_, by rw [hps, ← hx]; rfl⟩
  rw [Dev.nv, hps]
  exact Dev.nv_setNv_same (x.program i) _ v

/-- Settles O15: a bit written to 0 starts the re-qualification, one written to 1 takes the unit out and queues its record; the end of the
re-qualification queues the record clear or detects the fault again; a record that has waited is stored. -/
theorem retirementRecords : Obligations.RetirementRecords := by
  unfold Obligations.RetirementRecords
  refine ⟨?_, ?_, ?_, ?_, ?_⟩
  · intro s p b hat hm hr hset
    have heq := s.dev.recordClear_starts p b.val hat hm hr hset
    refine ⟨_, rfl, ?_⟩
    dsimp only
    rw [heq]
    refine ⟨?_, by simp, fun q hq => Dev.hdr_modHdr_other _ _ _ _ hq⟩
    rw [Dev.hdr_modHdr_same]
    exact getLsbD_or_twoPow _ b.val (by omega)
  · intro s p hk ho hs
    refine ⟨_, rfl, ?_⟩
    have heq := s.dev.recordSet_eq p hk ho
    dsimp only
    exact heq ▸ s.dev.retireUnit_sitsOut p hk hs
  · intro s p b hat hc hr
    obtain ⟨off, hoff⟩ := Option.isSome_iff_exists.mp hat
    have hrec := (recordAt_some hoff).2
    refine ⟨_, { off := p.val * 0x1000 + off, v := putFld b.val b.val 0 (s.dev.reg p off), record := true }, rfl, ?_, rfl,
      bit_putFld_zero _ _ (by omega), ?_⟩
    · dsimp only
      rw [s.dev.requalEnd_passed p b.val off hrec hc hr]
      exact s.dev.mem_queueRecord p _ off hrec
    · rw [hoff, Nat.add_sub_cancel_left]
  · intro s p b hat hr
    obtain ⟨off, hoff⟩ := Option.isSome_iff_exists.mp hat
    refine ⟨_, rfl, ?_⟩
    dsimp only
    rw [s.dev.requalEnd_failed p b.val hr]
    exact (Dev.detectAt_noted _ p _ _ _ _ (retiringSource_lt _) (recordOff_ne_dir (recordAt_some hoff).2) (.inl rfl)).1
  · intro s p b off i v hat hk hq hv hwait hasks hi hw he hne
    obtain ⟨hask, hnv, hqueue⟩ := s.dev.recordCommitted_stores p b.val off i v hat hk hq hv hwait hasks hi hw he hne
    exact ⟨{ s with dev := s.dev.recordCommitted p b.val }, s.onBus_quiet (·.recordCommitted p b.val) hask, hnv, hqueue⟩

end Sys2Proof.Machine
end

section
/-! A burst of a tap's line (R148, R262): the tap's line follows the bytes that the burst leaves in its buffer. -/

namespace Sys2Proof.Machine

/-- A line has risen, with what a peripheral outside the block offers on it. -/
def Dev.offered (d : Dev) (line : Nat) (data : List Byte) : Dev :=
  { d.setLine line true with dx := { (d.setLine line true).dx with
    lineData := if line = 10 then SMap.set (fun _ => []) d.dx.lineData line data else d.dx.lineData } }

/-- The only channel, waiting on a line that rises, starts a burst. -/
theorem Dev.lineAssert_starts (d : Dev) (n : Nat) (line : Nat) (i : Item) (data : List Byte) (hl : line < 12) (hr : d.dmaRings = [n])
    (hi : d.chanItem n = some i) (hw : waitsLine i.desc (d.chan n) = true) (hq : reqLine i.desc = line)
    (hs : lineServes line (opOf i.desc) = true) (he : d.rb Pg.dx Reg.DX_REQ_LINE_EN line = true) :
    d.lineAssert line data = (d.offered line data).startBurst n i.desc := by
  have hb : bit line (d.offered line data).dx.lines = true := bit_putBit_same line true d.dx.lines (by omega)
  have hassert : d.lineAssert line data = (d.offered line data).dmaRings.foldl (fun d n => d.seeLine n) (d.offered line data) := by
    rw [Dev.lineAssert, if_neg (by omega)]
    rfl
  have hrings : (d.offered line data).dmaRings = [n] := hr
  have hitem : (d.offered line data).chanItem n = some i := hi
  have hchan : (d.offered line data).chan n = d.chan n := rfl
  have hen : (d.offered line data).rb Pg.dx Reg.DX_REQ_LINE_EN line = true := he
  rw [hassert, hrings, List.foldl_cons, List.foldl_nil, Dev.seeLine, hitem]
  simp only [hchan, hw, hq, hb, hs, hen, Bool.and_self, if_true]

/-- Bytes that the next burst of a PERIPH_IN moves. -/
def burstBytes (x : BitVec 512) (c : Chan) : Nat :=
  beatHi (dstOf x) (lengthOf x) (c.dstNext + min (burstBeats x) (srcBeats x + dstBeats x - (c.srcNext + c.dstNext)) - 1) -
    beatLo (dstOf x) c.dstNext

/-- An input burst from a tap leaves the tap's line asserted exactly while 256 bytes are left in its buffer. -/
theorem Dev.startBurst_tapLine (d : Dev) (n : Nat) (x : BitVec 512) (hop : opOf x = 2) (h6 : 6 ≤ reqLine x) (h9 : reqLine x ≤ 9) :
    bit (reqLine x) (d.startBurst n x).dx.lines = decide (256 ≤ (d.tap (reqLine x - 6)).length - burstBytes x (d.chan n)) := by
  have h3 : ¬ reqLine x < 3 := by omega
  have ht : 6 + (reqLine x - 6) = reqLine x := by omega
  simp only [Dev.startBurst, if_pos hop, Dev.lineTake, Dev.lineHas, if_neg h3, h6, h9, decide_true, Bool.and_self, if_true]
  change bit (reqLine x) (putBit (6 + (reqLine x - 6)) _ _) = _
  rw [ht, bit_putBit_same _ _ _ (by omega), List.length_drop]
  rfl

/-- A PERIPH_IN of one byte from tap 0, whose line is 6. -/
def tapDesc : BitVec 512 := 1#512 <<< 64 ||| 2#512 <<< 72 ||| 1#512 <<< 320 ||| 6#512 <<< 456

/-- Item 1 of ring 0 with STARTED recorded. -/
def tapItem : Item := { Item.fresh 0 1 tapDesc .primary 0 with phase := .running, recorded := .started, inst := some 0 }

/-- Channel 0 waits on line 6 for a burst of one byte, and tap 0 holds 257. -/
def tapDev : Dev :=
  let d := Dev.reset.setReg Pg.dx Reg.DX_REQ_LINE_EN (-1)
  { d with wk := { d.wk with items := [tapItem] }, dx := { d.dx with chans := [(0, { Chan.reset with seq := some 1 })] },
           am := { d.am with taps := [(0, List.replicate 257 0)] } }

/-- Refutes O30: a burst that leaves 256 bytes in tap 0 leaves line 6 asserted, so the clause that the line a burst starts on
reads 0 afterwards fails there. -/
theorem not_peripheralTransfers : ¬ Obligations.PeripheralTransfers := by
  intro h
  obtain ⟨-, -, -, hsee, -⟩ := h
  have hrings : tapDev.dmaRings = [0] := by decide +kernel
  have hitem : tapDev.chanItem 0 = some tapItem := by decide +kernel
  have hwaits : waitsLine tapItem.desc (tapDev.chan 0) = true := by decide +kernel
  have hen : tapDev.rb Pg.dx Reg.DX_REQ_LINE_EN 6 = true := by decide +kernel
  have hop : opOf tapItem.desc = 2 := by decide +kernel
  have hline : reqLine tapItem.desc = 6 := by decide +kernel
  have hone : burstBytes tapItem.desc ((tapDev.offered 6 []).chan 0) = 1 := by decide +kernel
  have hserves : lineServes 6 (opOf tapItem.desc) = true := by rw [hop]; decide
  obtain ⟨t, ht, -, hlow⟩ := hsee { State.reset with dev := tapDev } 0 6 tapItem [] (by decide) hrings hitem hwaits hline hserves hen
  obtain rfl : { State.reset with dev := tapDev.lineAssert 6 [] } = t := Host.Outcome.next.inj ht
  have hstart := tapDev.lineAssert_starts 0 6 tapItem [] (by decide) hrings hitem hwaits hline hserves hen
  have htap := (tapDev.offered 6 []).startBurst_tapLine 0 tapItem.desc hop (by omega) (by omega)
  rw [← hstart, hline, hone] at htap
  have hleft : 256 ≤ ((tapDev.offered 6 []).tap (6 - 6)).length - 1 := by decide +kernel
  have hhigh := htap.trans (decide_eq_true hleft)
  generalize tapDev.lineAssert 6 [] = e at hlow hhigh
  exact Bool.noConfusion (hlow.symm.trans hhigh)

end Sys2Proof.Machine
end

section
/-! Beats one by one (R144, R147): a response leaves the item alone, a channel with more to do goes on, and the only ready channel takes the
port. -/

namespace Sys2Proof.Machine

/-! ## What a response leaves of its channel -/

/-- A channel's own progress: its item, the other work and the memories stand, and nothing is asked of the register space. -/
structure ChanMoved (d e : Dev) (n : Nat) : Prop where
  seq : (e.chan n).seq = (d.chan n).seq
  wk : e.wk = d.wk
  asks : e.asks = d.asks
  memory : SameMemory d e

theorem ChanMoved.refl (d : Dev) (n : Nat) : ChanMoved d d n := ⟨rfl, rfl, rfl, .of_eq rfl rfl⟩

theorem ChanMoved.trans {d e f : Dev} {n : Nat} (h : ChanMoved d e n) (h' : ChanMoved e f n) : ChanMoved d f n :=
  ⟨h'.seq.trans h.seq, h'.wk.trans h.wk, h'.asks.trans h.asks, h.memory.trans h'.memory⟩

theorem ChanMoved.setChan (d : Dev) (n : Nat) (c : Chan) (h : c.seq = (d.chan n).seq) : ChanMoved d (d.setChan n c) n :=
  ⟨by rw [Dev.chan_setChan_same, h], by simp, by simp, .of_eq (by simp) (by simp)⟩

theorem ChanMoved.returned (d : Dev) (n : Nat) (b : DmaBeat) : ChanMoved d (d.returned n b) n := .setChan d n _ rfl

theorem ChanMoved.chanItem {d e : Dev} {n : Nat} (h : ChanMoved d e n) : e.chanItem n = d.chanItem n := Dev.chanItem_congr h.seq h.wk

/-- Folding acknowledged beats of COPY, FILL or PERIPH_IN is the channel's own progress. -/
theorem Dev.foldAcks_moved (n : Nat) (x : BitVec 512) (hop : opOf x ≠ 3) (f : Nat) : ∀ d : Dev, ChanMoved d (d.foldAcks n x f) n := by
  induction f with
  | zero => exact fun d => .refl d n
  | succ f ih =>
    intro d
    rw [Dev.foldAcks]
    cases (d.chan n).acked.find? (fun a => a.1 == (d.chan n).folded) with
    | none => exact .refl d n
    | some a =>
      simp only [if_neg hop]
      obtain ⟨hseq, -⟩ := Chan.sumBytes_keeps a.2 (d.chan n)
      refine ChanMoved.trans (.setChan d n _ ?_) (ih _)
      exact hseq

/-- A channel with a beat acknowledged, unless its line was withdrawn before the beat was issued. -/
def Chan.counted (c : Chan) (b : DmaBeat) (bs : List Byte) : Chan := if b.overrun then c else { c with acked := c.acked ++ [(b.idx, bs)] }

theorem Chan.counted_seq (c : Chan) (b : DmaBeat) (bs : List Byte) : (c.counted b bs).seq = c.seq := by
  unfold Chan.counted
  split <;> rfl

theorem Dev.beatOk_eq (d : Dev) (n : Nat) (x : BitVec 512) (b : DmaBeat) (bs : List Byte) :
    d.beatOk n x b bs =
      if !b.dst && opOf x = 0 then d.setChan n ((d.chan n).stage b.idx bs)
      else (d.setChan n ((d.chan n).counted b bs)).foldAcks n x ((d.chan n).counted b bs).acked.length := by
  unfold Dev.beatOk Chan.counted Chan.stage
  dsimp only
  by_cases hd : b.dst = true <;> simp [hd]

/-- A good response is the channel's own progress. -/
theorem Dev.beatOk_moved (d : Dev) (n : Nat) (x : BitVec 512) (b : DmaBeat) (bs : List Byte) (hop : opOf x ≠ 3) :
    ChanMoved d (d.beatOk n x b bs) n := by
  rw [Dev.beatOk_eq]
  split
  · exact .setChan d n _ rfl
  · exact (ChanMoved.setChan d n _ ((d.chan n).counted_seq b bs)).trans (Dev.foldAcks_moved n x hop _ _)

/-! ## What falls due -/

section
variable {d : Dev} {n : Nat} {i : Item} (hi : d.chanItem n = some i) (hh : halfIrq i.desc = false)
include hi hh

/-- Nothing falls due at a channel whose data phase goes on, where no half notice is asked for. -/
theorem Dev.dmaSettle_waits (ho : dataOver i.desc (d.chan n) = false) : d.dmaSettle n = d := by
  have hhalf : d.halfNotice n i = (d, true) := by simp [Dev.halfNotice, hh]
  unfold Dev.dmaSettle
  rw [hi]
  dsimp only
  split
  · rfl
  · simp [hhalf, ho]

/-- Where neither notices nor a checksum store are asked for, the end of the item is all that can fall due. -/
theorem Dev.dmaSettle_plain (hf : fullIrq i.desc = false) (hc : csumStore i.desc = false) :
    d.dmaSettle n = d ∨ d.dmaSettle n = d.dmaFinish n i := by
  have hhalf : d.halfNotice n i = (d, true) := by simp [Dev.halfNotice, hh]
  have hclose : d.closing n i = (d, true) := by simp [Dev.closing, hf, hc]
  unfold Dev.dmaSettle
  rw [hi]
  simp only [hhalf, hclose, Bool.not_true, Bool.false_eq_true, if_false, if_true]
  split_ifs <;> simp

end

/-- The end of an item leaves the memories and asks nothing of the register space. -/
theorem Dev.dmaFinish_memory (d : Dev) (n : Nat) (i : Item) : SameMemory d (d.dmaFinish n i) ∧ (d.dmaFinish n i).asks = d.asks :=
  ⟨.of_eq (by simp [Dev.dmaFinish, Dev.finish, Dev.transition]) (by simp [Dev.dmaFinish, Dev.finish, Dev.transition]),
    by simp [Dev.dmaFinish, Dev.finish, Dev.transition]⟩

/-- A channel that has a beat to issue and has not been withdrawn is in its data phase. -/
theorem dataOver_of_want {x : BitVec 512} {c : Chan} {w : NextBeat} (hw : want x c = some w) (hwd : c.withdrawn = false) :
    dataOver x c = false := by
  have hfail : c.fail.isSome = false := by
    rw [Bool.eq_false_iff]
    intro h
    rw [want, if_pos h] at hw
    cases hw
  have hall : ¬(srcBeats x ≤ c.srcNext ∧ dstBeats x ≤ c.dstNext) := by
    rintro ⟨hs, hd⟩
    rw [want_none hs hd] at hw
    cases hw
  simpa [dataOver, allIssued, hfail, hwd] using fun _ hs => by omega

/-! ## Responses -/

theorem Dev.beatResponse_eq {d : Dev} {n : Nat} {i : Item} {b : DmaBeat} {dst : Bool} {idx : Nat} (hi : d.chanItem n = some i)
    (hb : (d.chan n).out.find? (fun o => o.dst == dst && o.idx == idx) = some b) (reply : BeatReply) :
    d.beatResponse n dst idx reply = (d.beatAnswer n i.desc b reply).dmaSettle n := by
  rw [Dev.beatResponse, hi, hb]

/-- An error response fails the beat with its cause. -/
theorem Dev.beatAnswer_error (d : Dev) (n : Nat) (x : BitVec 512) (b : DmaBeat) {reply : BeatReply} {cause : Nat}
    (h : (reply, cause) ∈ [(BeatReply.addressError, Cause.ADDR_ERROR), (.otherError, Cause.RESP_ERROR)]) :
    d.beatAnswer n x b reply = (d.returned n b).modChan n (fun c => c.failed (some b.idx) b.dst cause b.va) := by
  rcases List.mem_pair.mp h with h | h
  all_goals
    obtain ⟨rfl, rfl⟩ := Prod.mk.inj h
    rfl

/-- While other beats are outstanding, a failure is kept and the item goes on. -/
theorem Dev.beatResponse_fails {d : Dev} {n : Nat} {i : Item} {b : DmaBeat} {dst : Bool} {idx : Nat} {reply : BeatReply} {cause : Nat}
    (hr : (reply, cause) ∈ [(BeatReply.addressError, Cause.ADDR_ERROR), (.otherError, Cause.RESP_ERROR)]) (hi : d.chanItem n = some i)
    (hb : (d.chan n).out.find? (fun o => o.dst == dst && o.idx == idx) = some b)
    (ho : (d.chan n).out.any (fun o => !(o.dst == b.dst && o.idx == b.idx)) = true) (hf : (d.chan n).fail = none)
    (hh : halfIrq i.desc = false) :
    d.beatResponse n dst idx reply = (d.returned n b).setChan n { (d.returned n b).chan n with fail := some (some idx, dst, cause, b.va) } := by
  obtain ⟨rfl, rfl⟩ : b.dst = dst ∧ b.idx = idx := by simpa using List.find?_some hb
  have hout : (d.returned n b).chan n = { d.chan n with out := (d.chan n).out.filter (fun o => !(o.dst == b.dst && o.idx == b.idx)) } :=
    d.chan_setChan_same n _
  have hfailed : ((d.returned n b).chan n).failed (some b.idx) b.dst cause b.va =
      { (d.returned n b).chan n with fail := some (some b.idx, b.dst, cause, b.va) } := by
    rw [Chan.failed, hout]
    dsimp only
    rw [hf]
  rw [Dev.beatResponse_eq hi hb, d.beatAnswer_error n i.desc b hr, Dev.modChan, hfailed]
  refine Dev.dmaSettle_waits (i := i) ?_ hh ?_
  · rw [((ChanMoved.returned d n b).trans (.setChan _ n _ (by rfl))).chanItem, hi]
  · rw [Dev.chan_setChan_same, hout]
    simp only [List.any_eq_true] at ho
    obtain ⟨o, hmem, ho⟩ := ho
    have hne : ((d.chan n).out.filter (fun o => !(o.dst == b.dst && o.idx == b.idx))).isEmpty = false :=
      List.isEmpty_eq_false_iff.mpr (List.ne_nil_of_mem (List.mem_filter.mpr ⟨hmem, ho⟩))
    rw [dataOver, hne, Bool.false_and]

/-- The good response of a COPY's or FILL's destination beat: its bytes stand in memory. -/
theorem Dev.beatResponse_stores {d : Dev} {n : Nat} {i : Item} {b : DmaBeat} {idx : Nat} (hi : d.chanItem n = some i) (hop : opOf i.desc ≠ 3)
    (hb : (d.chan n).out.find? (fun o => o.dst == true && o.idx == idx) = some b) (hh : halfIrq i.desc = false)
    (hf : fullIrq i.desc = false) (hc : csumStore i.desc = false) (ht : targetOf b.pa ≠ .regs)
    (hp : ∀ k, k < b.bytes.length → (d.physByte (b.pa + k)).isSome = true) :
    (∀ k, k < b.bytes.length → (d.beatResponse n true idx .ok).physByte (b.pa + k) = b.bytes[k]?) ∧
      (d.beatResponse n true idx .ok).asks = d.asks := by
  obtain ⟨hdst, -⟩ : b.dst = true ∧ b.idx = idx := by simpa using List.find?_some hb
  have hret := ChanMoved.returned d n b
  obtain ⟨e, hw, hdx, hstored⟩ := (d.returned n b).physWrite_stores b.pa b.bytes (some n) (fun k hk => by rw [hret.memory.physByte, hp k hk])
  have hok := e.beatOk_moved n i.desc b b.bytes hop
  have hitem : (e.beatOk n i.desc b b.bytes).chanItem n = some i := by
    rw [hok.chanItem, Dev.chanItem_congr (by rw [Dev.chan, hdx.dx, Dev.chan]) hdx.wk, hret.chanItem, hi]
  obtain ⟨hmem, hasks⟩ : SameMemory e ((e.beatOk n i.desc b b.bytes).dmaSettle n) ∧ ((e.beatOk n i.desc b b.bytes).dmaSettle n).asks = e.asks := by
    rcases Dev.dmaSettle_plain hitem hh hf hc with h | h
    · rw [h]
      exact ⟨hok.memory, hok.asks⟩
    · obtain ⟨hmem, hasks⟩ := (e.beatOk n i.desc b b.bytes).dmaFinish_memory n i
      rw [h]
      exact ⟨hok.memory.trans hmem, hasks.trans hok.asks⟩
  rw [Dev.beatResponse_eq hi hb, Dev.beatAnswer_write d e n i.desc b hdst ht hw]
  exact ⟨fun k hk => by rw [hmem.physByte, hstored k hk], hasks.trans (hdx.asks.trans hret.asks)⟩

/-! ## Issue (R144) -/

/-- Of one ready channel DX chooses that one. -/
theorem Dev.chooseChan_one (d : Dev) (n : Nat) : d.chooseChan [n] = some n := by
  unfold Dev.chooseChan
  cases d.holder with
  | none => rfl
  | some h =>
    by_cases hn : h = n
    · subst hn
      simp [Dev.best]
    · simp [hn, Dev.best]

/-- A channel holds the port and was served last. -/
def Dev.served (d : Dev) (n : Nat) : Dev := { d with dx := { d.dx with port := some n, lastServed := n } }

/-- The only ready channel cuts into no burst but its own. -/
theorem Dev.tookPort_one (d : Dev) (n : Nat) (held : Option Nat) : d.tookPort (held.filter (fun h => [n].contains h)) n = d.served n := by
  obtain hf | hf : held.filter (fun h => [n].contains h) = none ∨ held.filter (fun h => [n].contains h) = some n := by
    cases held with
    | none => exact .inl rfl
    | some h =>
      by_cases hn : h = n
      · exact .inr (by simp [Option.filter, hn])
      · exact .inl (by simp [Option.filter, hn])
  all_goals
    rw [hf]
    simp [Dev.tookPort, Dev.served]

/-- A channel without a peripheral sees no request line. -/
theorem Dev.seeLine_plain {d : Dev} {n : Nat} {i : Item} (hi : d.chanItem n = some i) (hp : isPeriph i.desc = false) : d.seeLine n = d := by
  rw [Dev.seeLine, hi]
  simp [waitsLine, hp]

namespace Dev.Runs

variable {d : Dev} {n : Nat} {i : Item} {c : Chan}

/-- An untranslated beat is issued whether or not a walk may be left to end by itself. -/
theorem tryIssue_later (h : d.Runs n i c) {w : NextBeat} (hw : want i.desc c = some w) :
    d.tryIssue true n = (d.issueBeat n i.desc w w.va, true) := by
  unfold Dev.tryIssue
  rw [h.item, h.chan]
  dsimp only
  rw [hw]
  dsimp only
  rw [if_neg (by rw [h.unparked]; decide), Dev.xlateWith, if_pos h.identity]

/-- The one channel with work takes the port and issues its next beat. -/
theorem beatIssue (h : d.Runs n i c) {w : NextBeat} (hup : d.up Pg.dx = true) (hr : d.dmaRings = [n]) (hp : isPeriph i.desc = false)
    (hh : halfIrq i.desc = false) (hwd : c.withdrawn = false) (hw : want i.desc c = some w) :
    d.beatIssue = (d.setChan n { c.advanced i.desc w with out := c.out ++ [w.issued] }).served n := by
  obtain ⟨-, hseq⟩ := Dev.chanItem_some h.item
  have hsettle : ((d.dmaTake n).seeLine n).dmaSettle n = d := by
    rw [d.dmaTake_busy n i.seq hseq, Dev.seeLine_plain h.item hp, Dev.dmaSettle_waits h.item hh]
    rw [h.chan, dataOver_of_want hw hwd]
  have hwants : d.wants n = true := by simp [Dev.wants, h.item, h.chan, hw, h.unparked]
  have hready : d.dmaRings.filter d.wants = [n] := by rw [hr, List.filter_cons_of_pos hwants, List.filter_nil]
  unfold Dev.beatIssue
  rw [if_neg (by rw [hup]; decide), hr, List.foldl_cons, List.foldl_nil, hsettle]
  dsimp only
  rw [hready, List.length_singleton, Dev.issueFrom, d.chooseChan_one n]
  dsimp only
  rw [h.tryIssue_later hw]
  dsimp only
  rw [if_pos rfl, Dev.tookPort_one, d.issueBeat_plain n i.desc w hp, h.chan]

end Dev.Runs

/-- Settles O31: the one ready channel is chosen (`Dev.Runs.beatIssue`), an error is kept (`Dev.beatResponse_fails`), and a good response has
stored its bytes (`Dev.beatResponse_stores`). -/
theorem dmaBeats : Obligations.DmaBeats := by
  refine ⟨?_, ?_, ?_⟩
  · intro s n i w hb hup hr hi hop hh hwd hw hid hpk
    obtain ⟨-, -, -, hasks⟩ := hb
    have hp : isPeriph i.desc = false := by simp [isPeriph]; omega
    have h : s.dev.Runs n i (s.dev.chan n) := ⟨rfl, hi, hid, hpk, hasks⟩
    have hissue := h.beatIssue hup hr hp hh hwd hw
    have hchan : (s.dev.beatIssue.chan n).out = (s.dev.chan n).out ++ [w.issued] := by
      rw [hissue]
      exact congrArg Chan.out (s.dev.chan_setChan_same n _)
    refine ⟨_, w.issued, s.onBus_quiet (·.beatIssue) ?_, hchan, rfl, rfl, rfl, rfl, rfl, ?_, ?_⟩
    · rw [hissue]
      exact hasks
    · dsimp only
      rw [hissue]
      rfl
    · dsimp only
      rw [hissue]
      rfl
  · intro s n i b dst idx reply cause hb hr hi hf ho hfail hh
    obtain ⟨-, -, -, hasks⟩ := hb
    have heq := Dev.beatResponse_fails hr hi hf ho hfail hh
    refine ⟨_, s.onBus_quiet (·.beatResponse n.val dst idx reply) ?_, ?_⟩
    · rw [heq]
      exact hasks
    · dsimp only
      rw [heq, Dev.chan_setChan_same]
      exact ⟨rfl, congrArg Chan.out (s.dev.chan_setChan_same n.val _), rfl⟩
  · intro s n i b idx hb hi hop hf hh hfi hc ht _ hp
    obtain ⟨-, -, -, hasks⟩ := hb
    obtain ⟨hstored, hquiet⟩ := Dev.beatResponse_stores hi (by omega) hf hh hfi hc ht hp
    exact ⟨_, s.onBus_quiet (·.beatResponse n.val true idx .ok) (hquiet.trans hasks), hstored⟩

end Sys2Proof.Machine
end

section
/-! Parks and translations under way (R135 to R141): what is read back after each change of them, and what it leaves. -/

namespace Sys2Proof.Machine

/-- A wrapping counter counts by one. -/
theorem Dev.rf_bump_field (d : Dev) (p : Page) (off hi lo i : Nat) (h : lo ≤ hi) (h32 : hi < 32) :
    (d.bump p off hi lo 1 i).rf p off hi lo i = (d.rf p off hi lo i + 1) % 2 ^ (hi - lo + 1) := by
  rw [Dev.bump, Dev.rf_setRf_same _ _ _ _ _ _ _ h h32, Nat.mod_mod]

/-- A detection leaves DX's channels, parks, walks and cache. -/
theorem Detected.dx {d e : Dev} {p : Page} {src : Nat} (h : Detected d e p src) : e.dx = d.dx := by
  obtain ⟨hs, o, pd, he⟩ := h.rest
  rw [he]

/-! ## Parks -/

theorem Dev.park?_congr {d e : Dev} (h : e.dx.parks = d.dx.parks) (who : Nat) : e.park? who = d.park? who := by rw [Dev.park?, h, Dev.park?]

theorem Dev.park?_who {d : Dev} {who : Nat} {p : Park} (h : d.park? who = some p) : p.who = who := by simpa using List.find?_some h

theorem Dev.isParked_of_none {d : Dev} {who : Nat} (h : d.park? who = none) : d.isParked who = false := by rw [Dev.isParked, h]

/-- A park that is set reads back, and nothing beside the parks changes. -/
@[simp] theorem Dev.park?_setPark (d : Dev) (p : Park) : (d.setPark p).park? p.who = some p := by
  have hnone : (d.dx.parks.filter (fun x => x.who != p.who)).find? (fun x => x.who == p.who) = none := by
    rw [List.find?_eq_none]
    intro x hx
    simpa using (List.mem_filter.mp hx).2
  simp only [Dev.park?, Dev.setPark, List.find?_append, hnone, Option.none_or, List.find?_cons, beq_self_eq_true]

/-- Change the park of a requester. -/
def Dev.modPark (d : Dev) (who : Nat) (f : Park → Park) : Dev :=
  { d with dx := { d.dx with parks := d.dx.parks.map (fun q => if q.who == who then f q else q) } }

theorem Dev.parkSuccess_eq (d : Dev) (p : Park) :
    d.parkSuccess p = d.modPark p.who (fun q => { q with stage := 3, successes := q.successes + 1 }) := rfl

/-- The park that is found is the changed one. -/
theorem Dev.park?_modPark (d : Dev) (who : Nat) (f : Park → Park) (hf : ∀ q, (f q).who = q.who) :
    (d.modPark who f).park? who = (d.park? who).map f := by
  simp only [Dev.park?, Dev.modPark]
  induction d.dx.parks with
  | nil => rfl
  | cons q l ih =>
    by_cases h : (q.who == who) = true
    · have hfq : ((f q).who == who) = true := by rw [hf q, h]
      simp only [List.map_cons, h, if_true, List.find?_cons, hfq, Option.map_some]
    · rw [List.map_cons, if_neg h, List.find?_cons, List.find?_cons]
      simp only [Bool.not_eq_true] at h
      simp only [h, ih]

/-- A refusal leaves the parks of the others, raises PAGE_REFUSED and counts (R141). -/
structure Refused (d e : Dev) (who : Nat) : Prop where
  dx : e.dx = (d.dropPark who).dx
  raised : raised e Pg.dx Evt.DX_PAGE_REFUSED
  count : e.rf Pg.dx Reg.DX_PARK_COUNT 31 16 = (d.rf Pg.dx Reg.DX_PARK_COUNT 31 16 + 1) % 65536

theorem Dev.refuse_refused (d : Dev) (who : Nat) : Refused d (d.refuse who) who := by
  have hd := ((d.dropPark who).bump Pg.dx Reg.DX_PARK_COUNT 31 16).detect_dx Evt.DX_PAGE_REFUSED (by decide) (by decide)
  refine ⟨?_, hd.raised (by decide), ?_⟩
  · rw [Dev.refuse, hd.dx]
    simp only [Dev.bump_keeps]
  · rw [Dev.refuse, hd.rf, Dev.rf_bump_field _ _ _ _ _ _ (by decide) (by decide)]
    rfl

/-! ## Translations under way -/

theorem Dev.walkOf_congr {d e : Dev} (h : e.dx.walks = d.dx.walks) (who : Nat) : e.walkOf who = d.walkOf who := by
  rw [Dev.walkOf, h, Dev.walkOf]

/-- A translation that has ended is no longer under way. -/
theorem Dev.walkOf_endWalk (d : Dev) (who : Nat) : (d.endWalk who).walkOf who = none := by
  rw [Dev.walkOf, List.find?_eq_none]
  intro x hx
  simpa using (List.mem_filter.mp hx).2

/-! ## Cached translations -/

/-- The translation that was cached last is found. -/
theorem Dev.cached_fillCache (d : Dev) (e : XEntry) (va : Nat) (h : e.va = va / 2 ^ e.size * 2 ^ e.size) :
    (d.fillCache e).cached e.asid va = some e := by
  simp [Dev.cached, Dev.fillCache, h]

theorem Dev.cached_congr {d e : Dev} (h : e.dx.cache = d.dx.cache) (a va : Nat) : e.cached a va = d.cached a va := by
  rw [Dev.cached, h, Dev.cached]

/-- A translation that succeeds may forget a park and changes nothing else. -/
theorem Dev.passed_keeps (d : Dev) (who va : Nat) :
    (d.passed who va).dx.cache = d.dx.cache ∧ (d.passed who va).dx.walks = d.dx.walks ∧ (d.passed who va).ram = d.ram := by
  unfold Dev.passed
  split
  · split <;> exact ⟨rfl, rfl, rfl⟩
  · exact ⟨rfl, rfl, rfl⟩

end Sys2Proof.Machine
end

section
/-! How a translation ends (R135, R136): walks that wait to end, and Translation Completions of the host. -/

namespace Sys2Proof.Machine

/-! ## Walks -/

/-- A walk reads memory and the root of its address space, nothing else. -/
theorem SameMemory.walkFrom {d e : Dev} (h : SameMemory d e) (va : Nat) (l : Nat) : ∀ (table : Nat) (rd wr pr : Bool),
    e.walkFrom va l table rd wr pr = d.walkFrom va l table rd wr pr := by
  induction l with
  | zero => exact fun _ _ _ _ => rfl
  | succ l ih =>
    intro table rd wr pr
    have hnum : ∀ a, e.physNum a 8 = d.physNum a 8 := fun a => by simp only [Dev.physNum, h.physByte]
    simp only [Dev.walkFrom, h.physCheck, hnum, ih]

theorem SameMemory.walk {d e : Dev} (h : SameMemory d e) (ht : e.pages.tbl = d.pages.tbl) (asid va : Nat) : e.walk asid va = d.walk asid va := by
  have hroot : e.asidRoot asid = d.asidRoot asid := by simp only [Dev.asidRoot, Dev.tf_congr ht]
  rw [Dev.walk, hroot, h.walkFrom, Dev.walk]

/-- The device as a walk that has ended leaves it to its outcome: no longer under way, and counted. -/
def Dev.walkEnds (d : Dev) (who : Nat) : Dev := (d.endWalk who).bump Pg.dx Reg.DX_WALK_STAT 15 0

/-- The end of a walk leaves memory, tables, parks and the mode of parking, and takes the walk from those under way. -/
theorem Dev.walkEnds_keeps (d : Dev) (who : Nat) :
    SameMemory d (d.walkEnds who) ∧ (d.walkEnds who).pages.tbl = d.pages.tbl ∧ (d.walkEnds who).dx = (d.endWalk who).dx ∧
      (d.walkEnds who).reg Pg.dx Reg.DX_PARK_MODE = d.reg Pg.dx Reg.DX_PARK_MODE := by
  have hdx : (d.walkEnds who).dx = (d.endWalk who).dx := by simp only [Dev.walkEnds, Dev.bump_keeps]
  refine ⟨.of_eq ?_ ?_, ?_, hdx, ?_⟩
  · simp only [Dev.walkEnds, Dev.bump_keeps]
    rfl
  · simp only [Dev.walkEnds, Dev.bump_keeps]
    rfl
  · simp only [Dev.walkEnds, Dev.bump_keeps]
    rfl
  · exact Dev.reg_setRf_other _ _ _ _ _ _ _ _ _ _ (by decide) (by decide) (by decide)

/-! ## Faults (R139 to R141) -/

/-- A fault is counted in its address space's entry; the entry's flags stand. -/
def Dev.faultCounted (d : Dev) (asid : Nat) : Dev := d.bumpT Pg.dx (0x800 + asid) 3 31 0

theorem Dev.faultCounted_flags (d : Dev) (asid : Nat) :
    (d.faultCounted asid).asidHost asid = d.asidHost asid ∧ (d.faultCounted asid).asidPr asid = d.asidPr asid := by
  have hw : (d.faultCounted asid).tw Pg.dx (0x800 + asid) 0 = d.tw Pg.dx (0x800 + asid) 0 :=
    Dev.tw_setTw_other _ _ _ _ _ _ _ _ (fun hk => by simpa using (tblKey_inj (by decide) (by decide) hk).2)
  exact ⟨congrArg (bit 1) hw, congrArg (bit 2) hw⟩

/-- A fault that may not park is refused. -/
theorem Dev.xfault_refuses (d : Dev) (who asid va : Nat) (wr pr : Bool) (hp : d.isParked who = false) (h : pr = false ∨ d.asidPr asid = false) :
    d.xfault who asid va wr pr = ((d.faultCounted asid).refuse who, .refused) := by
  obtain ⟨-, hpr⟩ := d.faultCounted_flags asid
  have hno : (!d.asidPr asid || !pr) = true := by rcases h with h | h <;> simp [h]
  unfold Dev.xfault
  rw [if_neg (by rw [hp]; decide)]
  dsimp only
  rw [← Dev.faultCounted, if_pos (by rw [hpr, hno]; rfl)]

/-- The park of a device-mode fault whose page request software pops. -/
def devicePark (who asid va : Nat) (wr : Bool) : Park :=
  { who := who, asid := asid, va := va / 4096 * 4096, rd := !wr, wr := wr, host := false, stage := 2, successes := 0 }

/-- A requester that has parked for the first time and asks software for its page. -/
def Dev.parksFor (d : Dev) (p : Park) : Dev :=
  (((d.setPark p).bump Pg.dx Reg.DX_PARK_COUNT 15 0).detect Pg.dx Evt.DX_XLATE_PARK).detect Pg.dx Evt.DX_PAGE_REQ

/-- A device-mode fault that may park parks, where page requests go to software. -/
theorem Dev.xfault_parks (d : Dev) (who asid va : Nat) (wr : Bool) (hp : d.park? who = none) (hh : d.asidHost asid = false)
    (hpr : d.asidPr asid = true) (hm : d.rb Pg.dx Reg.DX_PARK_MODE 0 = false) :
    d.xfault who asid va wr true = ((d.faultCounted asid).parksFor (devicePark who asid va wr), .parked) := by
  obtain ⟨hhost, hflag⟩ := d.faultCounted_flags asid
  rw [hh] at hhost
  rw [hpr] at hflag
  obtain ⟨e, he⟩ : ∃ e, d.faultCounted asid = e := ⟨_, rfl⟩
  have hpark : e.park? who = none := by rw [← he, Dev.park?_congr (d := d) (by simp only [Dev.faultCounted, Dev.bumpT_keeps]), hp]
  have hmode : e.reg Pg.dx Reg.DX_PARK_MODE = d.reg Pg.dx Reg.DX_PARK_MODE := by
    rw [← he]
    rfl
  have hmode0 : e.rb Pg.dx Reg.DX_PARK_MODE 0 = false := by rw [Dev.rb, hmode, ← Dev.rb, hm]
  have hmode' : ∀ p : Park, (((e.setPark p).bump Pg.dx Reg.DX_PARK_COUNT 15 0).detect Pg.dx Evt.DX_XLATE_PARK).rb Pg.dx Reg.DX_PARK_MODE 0 =
      false := by
    intro p
    have hd := ((e.setPark p).bump Pg.dx Reg.DX_PARK_COUNT 15 0).detect_dx Evt.DX_XLATE_PARK (by decide) (by decide)
    rw [Dev.rb_congr hd.keeps.1, Dev.rb, Dev.bump, Dev.reg_setRf_other _ _ _ _ _ _ _ _ _ _ (by decide) (by decide) (by decide)]
    exact hmode0
  unfold Dev.xfault
  rw [if_neg (by rw [Dev.isParked_of_none hp]; decide)]
  dsimp only
  rw [← Dev.faultCounted, he]
  rw [he] at hhost hflag
  simp [hpark, hhost, hflag, hmode0, hmode', Dev.parksFor, devicePark]

/-- Its park stands, and PAGE_REQ is raised. -/
theorem Dev.parksFor_leaves (d : Dev) (p : Park) : raised (d.parksFor p) Pg.dx Evt.DX_PAGE_REQ ∧ (d.parksFor p).park? p.who = some p := by
  have hd := ((d.setPark p).bump Pg.dx Reg.DX_PARK_COUNT 15 0).detect_dx Evt.DX_XLATE_PARK (by decide) (by decide)
  have hd' := (((d.setPark p).bump Pg.dx Reg.DX_PARK_COUNT 15 0).detect Pg.dx Evt.DX_XLATE_PARK).detect_dx Evt.DX_PAGE_REQ
    (by decide) (by decide)
  refine ⟨hd'.raised (by decide), ?_⟩
  rw [Dev.parksFor, Dev.park?_congr (d := d.setPark p) (by rw [hd'.dx, hd.dx]; simp only [Dev.bump_keeps]), Dev.park?_setPark]

/-! ## The end of a walk (R135)

A `match` on a walk is never compared with what it reduces to, for that would have the kernel reduce the walk itself, which is out of its
reach: `Dev.walked_eq` opens the function and not an application of it, and the outcome is put in before the `match` goes. -/

theorem Dev.walked_eq : @Dev.walked = delta% @Dev.walked := rfl

section
variable {d : Dev} {who asid va : Nat} {wr : Bool}

/-- A walk that ends with a page that permits the access is cached. -/
theorem Dev.walked_ok {pa size : Nat} {r x pr : Bool}
    (h : (d.bump Pg.dx Reg.DX_WALK_STAT 15 0).walk asid va = .ok pa size r x pr) (ha : (if wr then x else r) = true) :
    d.walked who asid va wr = (((d.bump Pg.dx Reg.DX_WALK_STAT 15 0).fillCache ⟨asid, va / 2 ^ size * 2 ^ size, size, pa, r, x, pr⟩
      ).passed who va, .ok (pa + va % 2 ^ size)) := by
  rw [Dev.walked_eq]
  simp only [h, XEntry.allows, ha, if_true]

/-- One that ends with a fault ends as the fault does. -/
theorem Dev.walked_fault {pr : Bool} (h : (d.bump Pg.dx Reg.DX_WALK_STAT 15 0).walk asid va = .fault pr) :
    d.walked who asid va wr = (d.bump Pg.dx Reg.DX_WALK_STAT 15 0).xfault who asid va wr pr := by
  rw [Dev.walked_eq]
  simp only [h]

end

section
variable {d : Dev} {who asid va w : Nat} {rd wr : Bool} (hw : d.walkOf who = some (w, asid, va, rd, wr)) (hh : d.asidHost asid = false)
include hw hh

/-- A read error ends the translation: it is counted and raised, and left for the requester's next access. -/
theorem Dev.walkDone_error : d.walkDone who true =
    (((d.walkEnds who).bump Pg.dx Reg.DX_WALK_STAT 31 16).detect Pg.dx Evt.DX_WALK_ERROR).setPark
      { who := who, asid := asid, va := va, rd := !wr, wr := wr, host := false, stage := 5, successes := 0 } := by
  unfold Dev.walkDone
  rw [hw]
  change (if d.asidHost asid = true then d else _) = _
  rw [if_neg (by rw [hh]; decide)]
  change (if true = true then _ else _) = _
  rw [if_pos rfl, ← Dev.walkEnds, Dev.leaveEnd]

/-- A walk without a read error ends as its outcome says. -/
theorem Dev.walkDone_walked {e : Dev} {r : XRes} (he : (d.endWalk who).walked who asid va wr = (e, r)) :
    d.walkDone who false = e.leaveEnd who asid va wr r := by
  unfold Dev.walkDone
  rw [hw]
  change (if d.asidHost asid = true then d else _) = _
  rw [if_neg (by rw [hh]; decide)]
  change (if false = true then _ else _) = _
  rw [if_neg (by decide), he]

/-- A walk that ends with a page that permits the access is cached. -/
theorem Dev.walkDone_ok {pa size : Nat} {r x pr : Bool} (hk : d.walk asid va = .ok pa size r x pr) (ha : (if wr then x else r) = true) :
    d.walkDone who false = ((d.walkEnds who).fillCache ⟨asid, va / 2 ^ size * 2 ^ size, size, pa, r, x, pr⟩).passed who va := by
  obtain ⟨hmem, htbl, -⟩ := d.walkEnds_keeps who
  exact Dev.walkDone_walked hw hh (Dev.walked_ok ((hmem.walk htbl _ _).trans hk) ha)

/-- One that ends with a fault ends as the fault does. -/
theorem Dev.walkDone_fault {pr : Bool} {e : Dev} {r : XRes} (hk : d.walk asid va = .fault pr)
    (he : (d.walkEnds who).xfault who asid va wr pr = (e, r)) : d.walkDone who false = e.leaveEnd who asid va wr r := by
  obtain ⟨hmem, htbl, -⟩ := d.walkEnds_keeps who
  exact Dev.walkDone_walked hw hh ((Dev.walked_fault ((hmem.walk htbl _ _).trans hk)).trans he)

end

/-- A Translation Completion for the page asked for, which permits the access, is cached (R136). -/
theorem Dev.atsCompletion_grants {d : Dev} {who asid va w : Nat} {rd wr : Bool} {a : AtsReply} (hw : d.walkOf who = some (w, asid, va, rd, wr))
    (hh : d.asidHost asid = true) (hp : a.page.toNat / 4096 * 4096 = va) (ha : (if wr then a.wr else a.rd) = true) :
    d.atsCompletion who a = ((d.endWalk who).fillCache ⟨asid, va, 12, 0x10000000000 + a.target.toNat / 4096 * 4096, a.rd, a.wr, true⟩
      ).passed who va := by
  unfold Dev.atsCompletion
  rw [hw]
  dsimp only
  rw [if_neg (by simp [hh, hp]), if_pos ha]

/-- A translation cached at its end stands in the cache, and is no longer under way. -/
theorem Dev.ended_cached (d : Dev) (who : Nat) (e : XEntry) (va : Nat) (hva : e.va = va / 2 ^ e.size * 2 ^ e.size) (hw : d.walkOf who = none) :
    ((d.fillCache e).passed who va).cached e.asid va = some e ∧ ((d.fillCache e).passed who va).walkOf who = none ∧
      ((d.fillCache e).passed who va).ram = d.ram := by
  obtain ⟨hcache, hwalks, hram⟩ := (d.fillCache e).passed_keeps who va
  refine ⟨?_, ?_, hram⟩
  · rw [Dev.cached_congr hcache, d.cached_fillCache e va hva]
  · rw [Dev.walkOf_congr hwalks, ← hw]
    rfl

/-! ## The obligation -/

/-- Settles O32: one lemma for each end of a walk (`Dev.walkDone_ok`, `Dev.walkDone_error`, `Dev.walkDone_fault`) and one for the host's answer. -/
theorem translationsEnd : Obligations.TranslationsEnd := by
  refine ⟨?cached, ?error, ?refused, ?parked, ?granted⟩
  case cached =>
    rintro s who ⟨w, asid, va, rd, wr⟩ pa size r x pr hw hh hk ha
    obtain ⟨hmem, -, hdx, -⟩ := s.dev.walkEnds_keeps who.val
    have hnone : (s.dev.walkEnds who.val).walkOf who.val = none :=
      (Dev.walkOf_congr (congrArg Dx.walks hdx) _).trans (s.dev.walkOf_endWalk who.val)
    obtain ⟨hcached, hended, hram⟩ := (s.dev.walkEnds who.val).ended_cached who.val ⟨asid, va / 2 ^ size * 2 ^ size, size, pa, r, x, pr⟩ va rfl hnone
    rw [← Dev.walkDone_ok hw hh hk ha] at hcached hended hram
    exact ⟨_, _, rfl, hcached, rfl, rfl, rfl, rfl, hended, hram.trans hmem.2⟩
  case error =>
    rintro s who ⟨w, asid, va, rd, wr⟩ hw hh
    have hd := ((s.dev.walkEnds who.val).bump Pg.dx Reg.DX_WALK_STAT 31 16).detect_dx Evt.DX_WALK_ERROR (by decide) (by decide)
    have herr := Dev.walkDone_error hw hh
    generalize ((s.dev.walkEnds who.val).bump Pg.dx Reg.DX_WALK_STAT 31 16).detect Pg.dx Evt.DX_WALK_ERROR = e at hd herr
    have hwalks : e.walkOf who.val = none := by
      rw [← s.dev.walkOf_endWalk who.val]
      refine Dev.walkOf_congr ?_ _
      rw [hd.dx]
      simp only [Dev.walkEnds, Dev.bump_keeps]
    have hcount : e.rf Pg.dx Reg.DX_WALK_STAT 31 16 = (s.dev.rf Pg.dx Reg.DX_WALK_STAT 31 16 + 1) % 65536 := by
      rw [hd.rf, Dev.rf_bump_field _ _ _ _ _ _ (by decide) (by decide), Dev.walkEnds, Dev.bump,
        Dev.rf_setRf_field _ _ _ _ _ _ _ _ _ (by decide) (by decide) (by decide)]
      rfl
    refine ⟨_, ⟨who.val, asid, va, !wr, wr, false, 5, 0⟩, rfl, ?_⟩
    dsimp only
    rw [herr]
    exact ⟨hd.raised (by decide), hwalks, Dev.park?_setPark _ _, rfl, rfl, hcount⟩
  case refused =>
    rintro s who ⟨w, asid, va, rd, wr⟩ pr hw hh hk hpr hpk
    obtain ⟨-, htbl, hdx, -⟩ := s.dev.walkEnds_keeps who.val
    have hparked : (s.dev.walkEnds who.val).isParked who.val = false := by
      rw [Dev.isParked, Dev.park?_congr (d := s.dev) (by rw [hdx]; rfl), ← Dev.isParked, hpk]
    have hflag : pr = false ∨ (s.dev.walkEnds who.val).asidPr asid = false := by rwa [Dev.asidPr, Dev.tb_congr htbl]
    have href := ((s.dev.walkEnds who.val).faultCounted asid).refuse_refused who.val
    refine ⟨_, ⟨who.val, asid, va, !wr, wr, false, 4, 0⟩, rfl, ?_⟩
    dsimp only
    rw [Dev.walkDone_fault hw hh hk (Dev.xfault_refuses _ _ _ _ _ _ hparked hflag)]
    exact ⟨href.raised, Dev.park?_setPark _ _, rfl⟩
  case parked =>
    rintro s who ⟨w, asid, va, rd, wr⟩ hw hh hk hpr hpk hm
    obtain ⟨-, htbl, hdx, hmode⟩ := s.dev.walkEnds_keeps who.val
    have hpark : (s.dev.walkEnds who.val).park? who.val = none := by rw [Dev.park?_congr (d := s.dev) (by rw [hdx]; rfl), hpk]
    have hfault := (s.dev.walkEnds who.val).xfault_parks who.val asid va wr hpark (by rwa [Dev.asidHost, Dev.tb_congr htbl])
      (by rwa [Dev.asidPr, Dev.tb_congr htbl]) (by rwa [Dev.rb, hmode])
    obtain ⟨hreq, hasked⟩ := ((s.dev.walkEnds who.val).faultCounted asid).parksFor_leaves (devicePark who.val asid va wr)
    refine ⟨_, devicePark who.val asid va wr, rfl, ?_⟩
    dsimp only
    rw [Dev.walkDone_fault hw hh hk hfault]
    exact ⟨hreq, hasked, rfl, rfl⟩
  case granted =>
    rintro s who a ⟨w, asid, va, rd, wr⟩ hw hh hp ha
    have hva : va = va / 2 ^ 12 * 2 ^ 12 := by
      dsimp only at hp
      omega
    obtain ⟨hcached, hended, -⟩ := (s.dev.endWalk who.val).ended_cached who.val
      ⟨asid, va, 12, 0x10000000000 + a.target.toNat / 4096 * 4096, a.rd, a.wr, true⟩ va hva (s.dev.walkOf_endWalk who.val)
    rw [← Dev.atsCompletion_grants hw hh hp ha] at hcached hended
    exact ⟨_, _, rfl, hcached, rfl, rfl, rfl, hended⟩

end Sys2Proof.Machine
end

section
/-! Page requests, their answers and invalidations (R138, R140 to R142). -/

namespace Sys2Proof.Machine

/-! ## The oldest request (R140) -/

/-- What DX_PR_POP answers for a request (Table 6.10). -/
def prWord (p : Park) : Word := word (p.who % 512 + p.asid % 64 * 2 ^ 9 + p.rd.toNat * 2 ^ 29 + p.wr.toNat * 2 ^ 30 + 2 ^ 31)

theorem bit_eq_decide (n : Nat) (w : Word) : bit n w = decide (w.toNat / 2 ^ n % 2 = 1) := by
  rw [bit, BitVec.getLsbD, Nat.testBit_eq_decide_div_mod_eq]

/-- Its fields: requester and ASID, whether it writes, and that there is one. -/
theorem prWord_fields (p : Park) :
    fld 8 0 (prWord p) = p.who % 512 ∧ fld 14 9 (prWord p) = p.asid % 64 ∧ bit 30 (prWord p) = p.wr ∧ bit 31 (prWord p) = true := by
  have hr := p.rd.toNat_le
  have hn : (prWord p).toNat = p.who % 512 + p.asid % 64 * 2 ^ 9 + p.rd.toNat * 2 ^ 29 + p.wr.toNat * 2 ^ 30 + 2 ^ 31 := by
    have hw := p.wr.toNat_le
    rw [prWord, word_toNat, Nat.mod_eq_of_lt]
    omega
  simp only [fld, bit_eq_decide, hn, Nat.shiftRight_eq_div_pow]
  cases p.wr <;> simp only [Bool.toNat_false, Bool.toNat_true] <;> refine ⟨by omega, by omega, ?_, decide_eq_true (by omega)⟩
  · exact decide_eq_false (by omega)
  · exact decide_eq_true (by omega)

/-- The oldest request is popped: it is now with software, and its address is latched. -/
theorem Dev.prPop_eq {d : Dev} {p : Park} (h : d.dx.parks.find? (fun q => q.stage == 2) = some p) :
    d.prPop = (((d.modPark p.who (fun q => { q with stage := 1 })).setReg Pg.dx Reg.DX_PR_VA_LO (word (p.va % 2 ^ 32))).setReg Pg.dx
      Reg.DX_PR_VA_HI (word (p.va / 2 ^ 32 % 2 ^ 16))).answer (prWord p) := by
  unfold Dev.prPop
  rw [h]
  rfl

/-- The popped request's requester is found with it, the low half of its address stands in DX_PR_VA_LO, and its word is the read's data. -/
theorem Dev.prPop_leaves {d : Dev} {p q : Park} (h : d.dx.parks.find? (fun q => q.stage == 2) = some p) (hq : d.park? p.who = some q) :
    d.prPop.park? p.who = some { q with stage := 1 } ∧ d.prPop.reg Pg.dx Reg.DX_PR_VA_LO = word (p.va % 2 ^ 32) ∧
      d.prPop.readData = prWord p := by
  have hpark := d.park?_modPark p.who (fun q => { q with stage := 1 }) (fun _ => rfl)
  rw [Dev.prPop_eq h]
  obtain ⟨e, he⟩ : ∃ e, d.modPark p.who (fun q => { q with stage := 1 }) = e := ⟨_, rfl⟩
  rw [he] at hpark ⊢
  refine ⟨?_, ?_, rfl⟩
  · rw [Dev.park?_congr (d := e) (by simp only [Dev.answer_keeps, Dev.setReg_keeps]), hpark, hq]
    rfl
  · have hlow := (e.setReg Pg.dx Reg.DX_PR_VA_LO (word (p.va % 2 ^ 32))).reg_setReg_other Pg.dx Pg.dx Reg.DX_PR_VA_HI Reg.DX_PR_VA_LO
      (word (p.va / 2 ^ 32 % 2 ^ 16)) 0 0 (by decide) (by decide) (by decide)
    rw [Dev.reg_setReg_same] at hlow
    exact hlow

/-- A park that a search finds has a park under its requester. -/
theorem Dev.park?_of_find {d : Dev} {p : Park} {f : Park → Bool} (h : d.dx.parks.find? f = some p) : ∃ q, d.park? p.who = some q := by
  rw [← Option.isSome_iff_exists, Dev.park?, List.find?_isSome]
  exact ⟨p, List.mem_of_find?_eq_some h, beq_self_eq_true _⟩

/-! ## Answers (R141, R142) -/

/-- An answer for a requester that waits for one. -/
theorem Dev.resolve_waiting {d : Dev} {who : Nat} {p : Park} (hp : d.park? who = some p) (hs : p.stage ≤ 2) (ok : Bool) {want : Park → Bool}
    (hw : want p = true) : d.resolve who ok want = if ok then d.parkSuccess p else d.parkRefused p := by
  unfold Dev.resolve
  rw [hp]
  dsimp only
  rw [if_neg]
  simp only [hw, Bool.not_true, Bool.or_false, decide_eq_true_eq]
  omega

/-- An answer for a requester without a park is discarded. -/
theorem Dev.resolve_none {d : Dev} {who : Nat} (hp : d.park? who = none) (ok : Bool) (want : Park → Bool) : d.resolve who ok want = d := by
  rw [Dev.resolve, hp]

/-- A success: the requester tries its access again. -/
theorem Dev.parkSuccess_park {d : Dev} {who : Nat} {p : Park} (hp : d.park? who = some p) :
    (d.parkSuccess p).park? who = some { p with stage := 3, successes := p.successes + 1 } := by
  obtain rfl := Dev.park?_who hp
  rw [d.parkSuccess_eq p, Dev.park?_modPark _ _ _ (by exact fun _ => rfl), hp]
  rfl

/-- A refusal: PAGE_REFUSED is raised and counted, and the park keeps it for the requester's next access. -/
theorem Dev.parkRefused_leaves {d : Dev} {who : Nat} {p : Park} (hp : d.park? who = some p) :
    (d.parkRefused p).park? who = some { p with stage := 4 } ∧ raised (d.parkRefused p) Pg.dx Evt.DX_PAGE_REFUSED ∧
      (d.parkRefused p).rf Pg.dx Reg.DX_PARK_COUNT 31 16 = (d.rf Pg.dx Reg.DX_PARK_COUNT 31 16 + 1) % 65536 := by
  obtain rfl := Dev.park?_who hp
  have href := d.refuse_refused p.who
  exact ⟨(d.refuse p.who).park?_setPark { p with stage := 4 }, href.raised, href.count⟩

/-! ## Invalidation (R138) -/

/-- The cache loses what is named and nothing else. -/
theorem Dev.dropCached_cache (d : Dev) (gone : XEntry → Bool) : (d.dropCached gone).dx.cache = d.dx.cache.filter (fun e => !gone e) := rfl

/-- DX_INV_CTRL takes the scope and the ASID that are written. -/
def Dev.invScoped (d : Dev) (v : Word) : Dev := (d.setRf Pg.dx Reg.DX_INV_CTRL 5 0 (fld 5 0 v)).setRf Pg.dx Reg.DX_INV_CTRL 9 8 (fld 9 8 v)

theorem Dev.invScoped_dx (d : Dev) (v : Word) : (d.invScoped v).dx = d.dx := by simp only [Dev.invScoped, Dev.setRf_keeps]

/-- A GO outside BUSY drops what its scope names; BUSY lasts while requests through it are outstanding. -/
theorem Dev.invalidate_goes {d : Dev} {v : Word} (hv : bit 16 v = true) (hb : d.dx.invBusy = false) :
    (d.invalidate v).dx.cache = d.dx.cache.filter (fun e => !(d.invScoped v).invScope v e) ∧
      (d.invalidate v).dx.invBusy = (d.invalidate v).staleBeats := by
  have hdx := d.invScoped_dx v
  have hgo : d.invalidate v =
      if ((d.invScoped v).dropCached ((d.invScoped v).invScope v)).staleBeats then
        { ((d.invScoped v).dropCached ((d.invScoped v).invScope v)).setRb Pg.dx Reg.DX_INV_CTRL 31 true with
          dx := { ((d.invScoped v).dropCached ((d.invScoped v).invScope v)).dx with invBusy := true } }
      else (d.invScoped v).dropCached ((d.invScoped v).invScope v) := by
    unfold Dev.invalidate
    dsimp only
    rw [← Dev.invScoped, if_neg (by rw [hv, hdx, hb]; decide)]
  have hcache := (d.invScoped v).dropCached_cache ((d.invScoped v).invScope v)
  have hbusy : ((d.invScoped v).dropCached ((d.invScoped v).invScope v)).dx.invBusy = false := by rw [← hb, ← hdx]; rfl
  rw [hdx] at hcache
  rw [hgo]
  split
  · next hs => exact ⟨hcache, hs.symm⟩
  · next hs => exact ⟨hcache, hbusy.trans (Bool.eq_false_iff.mpr hs).symm⟩

/-- The translations that an ATS invalidation of a PASID and range names. -/
def Dev.atsScope (d : Dev) (pasid va pages : Nat) (e : XEntry) : Bool :=
  d.asidHost e.asid && (d.asidPasid e.asid).getD pasid == pasid && e.inRange (va / 4096 * 4096) pages

/-- An ATS invalidation drops them; its completion is due once the requests through them have responded. -/
theorem Dev.atsInvalidate_drops (d : Dev) (pasid va pages : Nat) :
    (d.atsInvalidate pasid va pages).dx.cache = d.dx.cache.filter (fun e => !d.atsScope pasid va pages e) ∧
      if (d.atsInvalidate pasid va pages).staleBeats then (d.atsInvalidate pasid va pages).dx.atsInvDue = true
      else Output.atsInvalidated ∈ (d.atsInvalidate pasid va pages).out := by
  have hdrop : d.atsInvalidate pasid va pages =
      if (d.dropCached (d.atsScope pasid va pages)).staleBeats then
        { d.dropCached (d.atsScope pasid va pages) with dx := { (d.dropCached (d.atsScope pasid va pages)).dx with atsInvDue := true } }
      else (d.dropCached (d.atsScope pasid va pages)).emit .atsInvalidated := rfl
  have hcache := d.dropCached_cache (d.atsScope pasid va pages)
  obtain ⟨e, he⟩ : ∃ e, d.dropCached (d.atsScope pasid va pages) = e := ⟨_, rfl⟩
  rw [he] at hdrop hcache
  rw [hdrop]
  by_cases hs : e.staleBeats = true
  · have hs' : ({ e with dx := { e.dx with atsInvDue := true } } : Dev).staleBeats = true := hs
    rw [if_pos hs, if_pos hs']
    exact ⟨hcache, rfl⟩
  · have hs' : ¬(e.emit .atsInvalidated).staleBeats = true := hs
    rw [if_neg hs, if_neg hs']
    exact ⟨hcache, by simp⟩

/-- Without an outstanding request through a dropped translation the invalidation ends, and a completion that is due leaves. -/
theorem Dev.invalidateDone_ends {d : Dev} (h : d.staleBeats = false) :
    d.invalidateDone.dx.invBusy = false ∧ d.invalidateDone.rb Pg.dx Reg.DX_INV_CTRL 31 = false ∧
      (d.dx.atsInvDue = true → Output.atsInvalidated ∈ d.invalidateDone.out) := by
  have hlow : (d.setRb Pg.dx Reg.DX_INV_CTRL 31 false).rb Pg.dx Reg.DX_INV_CTRL 31 = false := Dev.rb_setRb_same _ _ _ _ _ _ (by decide)
  unfold Dev.invalidateDone
  rw [if_neg (by rw [h]; decide)]
  dsimp only
  split
  · exact ⟨rfl, hlow, fun _ => by simp⟩
  · next hdue => exact ⟨rfl, hlow, fun hd => absurd hd hdue⟩

/-! ## The obligation -/

/-- Settles O33: the pop (`Dev.prPop_eq`), the two ends of an answer (`Dev.parkSuccess_park`, `Dev.parkRefused_leaves`) and the
invalidations (`Dev.invalidate_goes`, `Dev.atsInvalidate_drops`, `Dev.invalidateDone_ends`). -/
theorem pageRequestsAndInvalidations : Obligations.PageRequestsAndInvalidations := by
  refine ⟨?pop, ?empty, ?success, ?refusal, ?discarded, ?prgSuccess, ?prgFailure, ?timeout, ?invalidate, ?ats, ?done, ?config⟩
  case pop =>
    intro s p hf
    obtain ⟨q, hq⟩ := Dev.park?_of_find hf
    obtain ⟨hwho, hasid, hwr, hvalid⟩ := prWord_fields p
    obtain ⟨hpark, hva, hword⟩ := Dev.prPop_leaves hf hq
    rw [← hword] at hwho hasid hwr hvalid
    exact ⟨_, _, rfl, hpark, rfl, hva, hwho, hasid, hwr, hvalid⟩
  case empty =>
    intro s hf
    have hpop : s.dev.prPop = s.dev.answer 0 := by
      unfold Dev.prPop
      rw [hf]
    refine ⟨_, rfl, ?_⟩
    dsimp only
    rw [hpop]
    exact ⟨rfl, by simp⟩
  case success =>
    intro s v p hp hs hv
    have hans := Dev.resolve_waiting hp hs (bit 16 v) (want := fun _ => true) rfl
    rw [if_pos hv] at hans
    refine ⟨_, rfl, ?_⟩
    dsimp only
    rw [hans]
    exact ⟨Dev.parkSuccess_park hp, rfl⟩
  case refusal =>
    intro s v p hp hs hv
    have hans := Dev.resolve_waiting hp hs (bit 16 v) (want := fun _ => true) rfl
    rw [if_neg (by rw [hv]; decide)] at hans
    refine ⟨_, rfl, ?_⟩
    dsimp only
    rw [hans]
    exact Dev.parkRefused_leaves hp
  case discarded =>
    intro s v hp
    exact congrArg (fun d => Host.Outcome.next { s with dev := d }) (Dev.resolve_none hp (bit 16 v) (fun _ => true))
  case prgSuccess =>
    intro s who p hp hs hh
    have hans : s.dev.prgResponse who.val .success = s.dev.parkSuccess p := Dev.resolve_waiting hp hs true hh
    refine ⟨_, rfl, ?_⟩
    dsimp only
    rw [hans]
    exact ⟨Dev.parkSuccess_park hp, rfl⟩
  case prgFailure =>
    intro s who p hp hs hh
    have hans : s.dev.resolve who.val false (·.host) = s.dev.parkRefused p := Dev.resolve_waiting hp hs false hh
    have hfail : s.dev.prgResponse who.val .responseFailure = { s.dev.parkRefused p with dx := { (s.dev.parkRefused p).dx with pri := false } } := by
      rw [← hans]
      rfl
    obtain ⟨hpark, hraised, -⟩ := Dev.parkRefused_leaves hp
    refine ⟨_, rfl, ?_⟩
    dsimp only
    rw [hfail]
    exact ⟨hpark, rfl, hraised⟩
  case timeout =>
    intro s who p hp hs
    have hans : s.dev.resolve who.val false (fun _ => true) = s.dev.parkRefused p := Dev.resolve_waiting hp hs false rfl
    obtain ⟨hpark, hraised, -⟩ := Dev.parkRefused_leaves hp
    refine ⟨_, rfl, ?_⟩
    dsimp only
    rw [hans]
    exact ⟨hpark, hraised⟩
  case invalidate =>
    intro s v hv hb
    obtain ⟨hcache, hbusy⟩ := Dev.invalidate_goes hv hb
    refine ⟨_, rfl, ?_⟩
    dsimp only
    rw [hcache]
    refine ⟨fun e he => List.mem_of_mem_filter he, fun h0 => ?_, fun h1 => ?_, hbusy⟩
    · simp [Dev.invScope, h0]
    · exact List.filter_congr (fun e _ => by simp [Dev.invScope, h1, bne])
  case ats =>
    intro s pasid va pages
    obtain ⟨hcache, hdue⟩ := s.dev.atsInvalidate_drops pasid va.toNat pages
    refine ⟨_, rfl, fun e he hhost hpasid => ?_, hdue⟩
    dsimp only at he
    rw [hcache] at he
    simpa [Dev.atsScope, hhost, hpasid] using (List.mem_filter.mp he).2
  case done =>
    intro s h
    exact ⟨_, rfl, Dev.invalidateDone_ends h⟩
  case config =>
    intro s ats pri
    exact ⟨_, rfl, rfl, rfl, rfl, rfl, rfl⟩

end Sys2Proof.Machine
end

section
/-! Words of the tables: fields and flags that stand beside a replaced field, in the same word, entry, page or outside it. -/

namespace Sys2Proof.Machine

/-- Fields of the page's other entries stay. -/
theorem Dev.tf_setTf_entry (d : Dev) (p : Page) (a b i j hi lo v x y : Nat) (hlt : i < 4) (hj : j < 4) (h : b ≠ a) :
    (d.setTf p a i hi lo v).tf p b j x y = d.tf p b j x y := by
  rw [Dev.tf, Dev.tw_setTf_entry d p a b i j hi lo v hlt hj h, Dev.tf]

/-- Fields of the entry's other words stay. -/
theorem Dev.tf_setTf_word (d : Dev) (p : Page) (a i j hi lo v x y : Nat) (hlt : i < 4) (hj : j < 4) (h : j ≠ i) :
    (d.setTf p a i hi lo v).tf p a j x y = d.tf p a j x y := by
  rw [Dev.tf, Dev.setTf, Dev.tw_setTw_other _ _ _ _ _ _ _ _ (fun hk => h (tblKey_inj hj hlt hk).2), Dev.tf]

/-- A flag of a table word reads as it was set. -/
theorem Dev.tb_setTf_same (d : Dev) (p : Page) (a i n : Nat) (b : Bool) (h : n < 32) : (d.setTf p a i n n b.toNat).tb p a i n = b := by
  rw [Dev.tb, Dev.tw_setTf_same]
  exact bit_putBit_same n b _ h

theorem Dev.tb_setTf_flag (d : Dev) (p : Page) (a i n m v : Nat) (h : m ≠ n) : (d.setTf p a i n n v).tb p a i m = d.tb p a i m := by
  rw [Dev.tb, Dev.tw_setTf_same, bit, putFld_getLsbD _ _ _ _ _ (le_refl n), if_neg (by omega), Dev.tb, bit]

/-- Words of one page's tables stay when another page's are written: entries have numbers below 2^24. -/
theorem Dev.tw_setTf_page (d : Dev) (p q : Page) (a b i j hi lo v : Nat) (ha : a < 2 ^ 24) (hb : b < 2 ^ 24) (hlt : i < 4) (hj : j < 4)
    (h : q ≠ p) : (d.setTf p a i hi lo v).tw q b j = d.tw q b j := by
  refine Dev.tw_setTw_other _ _ _ _ _ _ _ _ (fun hk => h (Fin.ext ?_))
  unfold tblKey at hk
  omega

/-- A bit of a two-bit field. -/
theorem bit_of_fld_two (w : Word) {n i : Nat} (h : fld 1 0 w = n) (hi : i < 2) : bit i w = n.testBit i := by
  rw [← h, fld_testBit, bit]
  simp [hi]

end Sys2Proof.Machine
end

section
/-! Replication (R158, R163): what a walk leaves when it goes on, when it ends, and when it is truncated. -/

namespace Sys2Proof.Machine

/-- The bodies of packets have changed and nothing else. -/
def BodiesChanged (d e : Dev) : Prop := ∃ m, e = { d with qm := { d.qm with bodies := m } }

theorem BodiesChanged.refl (d : Dev) : BodiesChanged d d := ⟨d.qm.bodies, rfl⟩

theorem BodiesChanged.trans {d e f : Dev} (h : BodiesChanged d e) (h' : BodiesChanged e f) : BodiesChanged d f := by
  obtain ⟨m, rfl⟩ := h
  obtain ⟨m', rfl⟩ := h'
  exact ⟨m', rfl⟩

theorem BodiesChanged.keeps {d e : Dev} (h : BodiesChanged d e) : e.px = d.px ∧ e.pages = d.pages := by
  obtain ⟨m, rfl⟩ := h
  exact ⟨rfl, rfl⟩

theorem Dev.setBody_bodiesChanged (d : Dev) (b : Nat) (x : Option Body) : BodiesChanged d (d.setBody b x) := ⟨_, rfl⟩

theorem Dev.modBody_bodiesChanged (d : Dev) (b : Nat) (f : Body → Body) : BodiesChanged d (d.modBody b f) := by
  unfold Dev.modBody
  split
  · exact d.setBody_bodiesChanged b _
  · exact .refl d

theorem Dev.reap_bodiesChanged (d : Dev) (b : Nat) : BodiesChanged d (d.reap b) := by
  unfold Dev.reap
  split
  · split
    · exact d.setBody_bodiesChanged b _
    · exact .refl d
  · exact .refl d

theorem Dev.dropBody_bodiesChanged (d : Dev) (b : Nat) : BodiesChanged d (d.dropBody b) :=
  (d.modBody_bodiesChanged b _).trans (Dev.reap_bodiesChanged _ b)

/-- The walk of a body's packet is over: a body that no copy took out of the reserve is dropped, and one that nobody needs is
forgotten. -/
def Dev.walkOver (d : Dev) (b : Nat) : Dev :=
  match d.body? b with
  | some x => if x.inReserve then (d.setBody b (some { x with walking := false })).dropBody b
              else (d.setBody b (some { x with walking := false })).reap b
  | none => d

theorem Dev.walkOver_bodiesChanged (d : Dev) (b : Nat) : BodiesChanged d (d.walkOver b) := by
  unfold Dev.walkOver
  split
  · split
    · exact (d.setBody_bodiesChanged b _).trans (Dev.dropBody_bodiesChanged _ b)
    · exact (d.setBody_bodiesChanged b _).trans (Dev.reap_bodiesChanged _ b)
  · exact .refl d

/-! ## A walk cut off -/

theorem plainSource_px_replTrunc : PlainSource Pg.px Evt.PX_REPL_TRUNC := by unfold PlainSource; decide

theorem Detected.px {d e : Dev} {p : Page} {src : Nat} (h : Detected d e p src) : e.px = d.px := by
  obtain ⟨hs, o, pd, he⟩ := h.rest
  rw [he]

/-- A walk cut off is raised, and the others wait as before. -/
theorem Dev.truncated_leaves (d : Dev) (b : Nat) :
    ((d.detect Pg.px Evt.PX_REPL_TRUNC).walkOver b).px.walks = d.px.walks ∧
      raised ((d.detect Pg.px Evt.PX_REPL_TRUNC).walkOver b) Pg.px Evt.PX_REPL_TRUNC := by
  obtain ⟨hpx, hpages⟩ := ((d.detect Pg.px Evt.PX_REPL_TRUNC).walkOver_bodiesChanged b).keeps
  refine ⟨?_, raised_of_hdrs (congrArg (·.hdrs) hpages) (d.detect_raised _ _ plainSource_px_replTrunc)⟩
  rw [hpx, (d.detect_detected Pg.px _ (by decide) (by decide) (by decide)).px]

/-! ## A node without copies -/

/-- The packets that wait to be copied, the one under way first. -/
def Dev.withWalks (d : Dev) (ws : List PxWalk) : Dev := { d with px := { d.px with walks := ws } }

/-- Where the node has no copies to make, the walk in front ends, is cut off at 64 nodes, or goes on, and the others wait as before. -/
theorem Dev.replNext_bare {d : Dev} {w : PxWalk} {ws : List PxWalk} (h : d.px.walks = w :: ws) (hc : d.nodeCopies w.node = []) :
    d.replNext = (d.nodeNext w.node).elim ((d.withWalks ws).walkOver w.body) (fun n =>
      if 64 ≤ w.done + 1 then ((d.withWalks ws).detect Pg.px Evt.PX_REPL_TRUNC).walkOver w.body
      else d.withWalks ({ w with node := n, done := w.done + 1 } :: ws)) := by
  have hc' : (d.withWalks ws).nodeCopies w.node = [] := hc
  have hn' : (d.withWalks ws).nodeNext w.node = d.nodeNext w.node := rfl
  have hfront : d.replNext = (d.withWalks ws).walkNode w := by
    unfold Dev.replNext
    rw [h]
    rfl
  rw [hfront, Dev.walkNode, hc']
  dsimp only [List.foldl_nil]
  rw [hn']
  cases d.nodeNext w.node <;> rfl

end Sys2Proof.Machine
end

section
/-! The leg adapter (R169 to R172): targets and waits of a copy entry, key requests, and a leg's estimate. -/

namespace Sys2Proof.Machine

/-! ## Copy entries -/

@[simp] theorem Dev.copyX_setCopyX_same (d : Dev) (e : Nat) (x : CopyX) : (d.setCopyX e x).copyX e = x := SMap.get_set_same _ _ _ _

/-- The record of a copy entry stands beside the tables. -/
@[simp] theorem Dev.setCopyX_keeps (d : Dev) (e : Nat) (x : CopyX) :
    (d.setCopyX e x).pages = d.pages ∧ (d.setCopyX e x).sys = d.sys ∧ (d.setCopyX e x).copyCur e = d.copyCur e ∧
      (d.setCopyX e x).copyTarget e = d.copyTarget e := ⟨rfl, rfl, rfl, rfl⟩

/-- A target given is read back, and waits where it is not the current layer (R166). -/
theorem Dev.setTarget_reads (d : Dev) (e l : Nat) (hl : l < 256) :
    (d.setTarget e l).copyTarget e = l ∧ (d.setTarget e l).copyPending e = (l != d.copyCur e) ∧
      (d.setTarget e l).copyCur e = d.copyCur e ∧ ((d.setTarget e l).copyX e).up = (d.copyX e).up := by
  obtain ⟨x, hx, hup⟩ : ∃ x, d.setTarget e l = ((d.setTf Pg.px (copyState e) 0 15 8 l).setTf Pg.px (copyState e) 0 16 16
      (l != d.copyCur e).toNat).setCopyX e x ∧ x.up = (d.copyX e).up := ⟨_, rfl, rfl⟩
  obtain ⟨hpages, -, hcur, htarget⟩ :=
    ((d.setTf Pg.px (copyState e) 0 15 8 l).setTf Pg.px (copyState e) 0 16 16 (l != d.copyCur e).toNat).setCopyX_keeps e x
  rw [hx]
  refine ⟨?_, ?_, ?_, ?_⟩
  · rw [htarget, Dev.copyTarget, Dev.tf_setTf_field _ _ _ _ _ _ _ _ _ (by decide) (by decide) (by decide),
      Dev.tf_setTf_same _ _ _ _ _ _ _ (by decide) (by decide)]
    exact Nat.mod_eq_of_lt hl
  · rw [Dev.copyPending, Dev.tb_congr (congrArg (·.tbl) hpages), Dev.tb_setTf_same _ _ _ _ _ _ (by decide)]
  · rw [hcur, Dev.copyCur, Dev.tf_setTf_field _ _ _ _ _ _ _ _ _ (by decide) (by decide) (by decide),
      Dev.tf_setTf_field _ _ _ _ _ _ _ _ _ (by decide) (by decide) (by decide), Dev.copyCur]
  · rw [Dev.copyX_setCopyX_same, hup]

theorem Dev.setTarget_sys (d : Dev) (e l : Nat) : (d.setTarget e l).sys = d.sys := by
  unfold Dev.setTarget Dev.setCopyX
  simp only [Dev.setTf_keeps]

/-! ## Wants (R171) -/

theorem Dev.applyWant_lower {d : Dev} {e src want : Nat} (hold : Nat) (h : layerRank want < layerRank (d.copyCur e)) :
    d.applyWant true hold (e, src, want) = (d.setCopyX e { d.copyX e with up := 0 }).setTarget e want := by
  unfold Dev.applyWant
  exact (if_neg (by decide)).trans (if_pos h)

/-- A higher want counts a period, and is the target from the UP_HOLD-th on. -/
theorem Dev.applyWant_higher {d : Dev} {e src want : Nat} (hold : Nat) (h : layerRank (d.copyCur e) < layerRank want) :
    d.applyWant true hold (e, src, want) =
      if hold ≤ (d.copyX e).up + 1 then (d.setCopyX e { d.copyX e with up := (d.copyX e).up + 1 }).setTarget e want
      else d.setCopyX e { d.copyX e with up := (d.copyX e).up + 1 } := by
  unfold Dev.applyWant
  exact (if_neg (by decide)).trans ((if_neg (Nat.lt_asymm h)).trans (if_pos h))

theorem Dev.applyWant_sys (d : Dev) (adapt : Bool) (hold : Nat) (w : Want) : (d.applyWant adapt hold w).sys = d.sys := by
  unfold Dev.applyWant
  dsimp only
  split
  · split
    · rfl
    · exact d.setTarget_sys _ _
  · split
    · exact Dev.setTarget_sys _ _ _
    · split
      · split
        · exact Dev.setTarget_sys _ _ _
        · rfl
      · rfl

/-- A period of one leg with one want, while firmware does not run: the want is applied. -/
theorem Dev.adaptPeriod_single {d : Dev} {l : Nat} {w : Want} (hs : (d.hdr Pg.px).state.serves = true) (hf : d.fwRuns = false)
    (hl : d.enabledLegs = [l]) (hw : d.legWants l = [w]) : d.adaptPeriod = d.applyWant (d.legAdapt l) (d.legUpHold l) w := by
  have hf' : (d.applyWant (d.legAdapt l) (d.legUpHold l) w).fwRuns = false := by
    rw [Dev.fwRuns, Dev.applyWant_sys]
    exact hf
  unfold Dev.adaptPeriod
  rw [hs, hl]
  simp only [List.foldl_cons, List.foldl_nil, hw]
  exact (if_neg (by decide)).trans (if_neg (by rw [hf']; decide))

/-! ## Key requests (R172) -/

theorem plainSource_px_switchTimeout : PlainSource Pg.px Evt.PX_SWITCH_TIMEOUT := by unfold PlainSource; decide

/-- The first request to a source without GDR leaves, and copy entries keep their targets. -/
theorem Dev.keyReq_first (d : Dev) {src : Nat} (l : Nat) (hg : d.srcGdr src = false) (hk : SMap.get (fun _ => none) d.px.keyAt src = none)
    (hl : l < 8192) :
    Output.keyRequest src ∈ (d.keyReq src (some l)).out ∧ ∀ e, (d.keyReq src (some l)).copyTarget e = d.copyTarget e := by
  obtain ⟨c, hc, hout, htbl⟩ : ∃ c : Dev, d.keyReq src (some l) = c.bumpT Pg.px (legAddr l 3) 3 31 0 ∧ Output.keyRequest src ∈ c.out ∧
      c.pages.tbl = d.pages.tbl := by
    unfold Dev.keyReq
    rw [hg, hk]
    exact ⟨_, rfl, by simp, by simp⟩
  rw [hc]
  refine ⟨by simpa using hout, fun e => ?_⟩
  rw [Dev.copyTarget, Dev.bumpT, Dev.tf_setTf_entry _ _ _ _ _ _ _ _ _ _ _ (by decide) (by decide) (by unfold copyState legAddr; omega),
    Dev.tf_congr htbl, Dev.copyTarget]

theorem Dev.copyLeg_lt (d : Dev) (e : Nat) : d.copyLeg e < 8192 := fld_lt 12 0 _

/-- A move that waits for a switch point of a remote source without GDR: the publisher is asked, and the timeout raised. -/
theorem Dev.switchTimeout_waits {d : Dev} {node slot src : Nat} (hn : d.nodeSource node = some src)
    (hv : d.copyValid (node * 64 + slot) = true) (hp : d.copyPending (node * 64 + slot) = true)
    (ht : d.copyTarget (node * 64 + slot) ≠ noLayer) (hm : d.copyCur (node * 64 + slot) / 16 ≠ d.copyTarget (node * 64 + slot) / 16)
    (hl : d.srcLocal src = false) (hg : d.pxGdr (src * 4 + d.copyTarget (node * 64 + slot) / 16) = false) (hf : d.fwRuns = true) :
    d.switchTimeout node slot = (d.keyReq src (some (d.copyLeg (node * 64 + slot)))).detect Pg.px Evt.PX_SWITCH_TIMEOUT := by
  unfold Dev.switchTimeout
  rw [hn]
  simp only [hv, hp, ht, hm, hl, hg, hf, Bool.not_true, decide_false, Bool.or_self, Bool.false_eq_true, if_false, if_true]

/-! ## Reports and closing (R170, R177) -/

/-- An estimate given is capped at MAX_KBPS, which stays. -/
theorem Dev.setEstimate_reads (d : Dev) (l v : Nat) :
    (d.setEstimate l v).legEstimate l = min v (d.legMaxKbps l) ∧ (d.setEstimate l v).legMaxKbps l = d.legMaxKbps l ∧
      (d.setEstimate l v).px = d.px := by
  have hmax : d.legMaxKbps l < 2 ^ 20 := fld_lt 19 0 _
  refine ⟨?_, Dev.tf_setTf_word _ _ _ _ _ _ _ _ _ _ (by decide) (by decide) (by decide), by simp [Dev.setEstimate]⟩
  rw [Dev.legEstimate, Dev.setEstimate, Dev.tf_setTf_same _ _ _ _ _ _ _ (by decide) (by decide)]
  exact Nat.mod_eq_of_lt (lt_of_le_of_lt (min_le_right _ _) hmax)

/-- The rate that a report moves an estimate to. -/
def reportedRate (estimate : Nat) : RtcpReport → Nat
  | .tmmbr k => k
  | .receiver loss => if 10 < loss then estimate * 85 / 100 else estimate * 105 / 100

theorem Dev.rtcpReport_heard {d : Dev} {l : Nat} (r : RtcpReport) (he : d.legEn l = true) (hair : d.legEdge l ≠ 1) (hf : d.fwRuns = true)
    (hr : ∀ loss, r = .receiver loss → 10 < loss ∨ loss < 2) : d.rtcpReport l r = d.setEstimate l (reportedRate (d.legEstimate l) r) := by
  unfold Dev.rtcpReport reportedRate
  rw [if_neg (by simp [he, hair, hf])]
  cases r with
  | tmmbr k => rfl
  | receiver loss =>
    dsimp only
    split
    · rfl
    · exact if_pos (by have := hr loss rfl; omega)

/-- A middling loss moves nothing. -/
theorem Dev.rtcpReport_middling (d : Dev) (l : Nat) {loss : Nat} (h2 : 2 ≤ loss) (h10 : loss ≤ 10) : d.rtcpReport l (.receiver loss) = d := by
  unfold Dev.rtcpReport
  split
  · rfl
  · exact (if_neg (by omega)).trans (if_neg (by omega))

theorem Dev.legClosed_ends {d : Dev} {l : Nat} (hc : d.legClosing l = true) (hi : d.legInflight l = 0) :
    (d.legClosed l).legClosing l = false ∧ (d.legClosed l).legEn l = d.legEn l := by
  have h : d.legClosed l = d.setTf Pg.px (legAddr l 0) 0 1 1 false.toNat := if_pos (by simp [hc, hi])
  rw [h]
  exact ⟨Dev.tb_setTf_same _ _ _ _ _ _ (by decide), Dev.tb_setTf_flag _ _ _ _ _ _ _ (by decide)⟩

theorem Dev.legClosed_waits {d : Dev} {l : Nat} (hi : d.legInflight l ≠ 0) : d.legClosed l = d := if_neg (by simp [hi])

end Sys2Proof.Machine
end

section
/-! Where firmware places a stream context (R178), and what the context's entry then shows. -/

namespace Sys2Proof.Machine

/-- The engine that is chosen is one of the 16 video engines. -/
theorem Dev.placeEngine_lt {d : Dev} {charge e : Nat} (h : d.placeEngine charge = some e) : e < 16 := by
  unfold Dev.placeEngine at h
  refine List.foldlRecOn (motive := fun a : Option Nat => ∀ e, a = some e → e < 16) _ _ (fun _ he => by cases he) ?_ e h
  intro a ha x hx e he
  have hx16 : x < 16 := List.mem_range.mp (List.mem_of_mem_filter hx)
  split at he
  · cases he
    exact hx16
  · split at he
    · cases he
      exact hx16
    · exact ha e he

theorem Dev.freeContext_lt {d : Dev} {e c : Nat} (h : d.freeContext e = some c) : c < 512 := by
  unfold Dev.freeContext at h
  exact List.mem_range.mp (List.mem_of_find?_eq_some h)

theorem ctxAddr_zero_ne (h k : Nat) (hk : 0 < k) : ctxAddr h 0 ≠ ctxAddr h k := by
  unfold ctxAddr
  omega

/-- The words that show a context's generation are none of its configuration. -/
theorem Dev.showCtx_config (d : Dev) (h i : Nat) (hi : i < 4) :
    (d.showCtx h).tw (vePage h) (ctxAddr h 0) i = d.tw (vePage h) (ctxAddr h 0) i := by
  have hput : ∀ (x : Dev) (k j : Nat) (w : Word), 0 < k → j < 4 →
      (x.setTw (vePage h) (ctxAddr h k) j w).tw (vePage h) (ctxAddr h 0) i = x.tw (vePage h) (ctxAddr h 0) i := fun x k j w hk hj =>
    Dev.tw_setTw_other _ _ _ _ _ _ _ _ (fun he => ctxAddr_zero_ne h k hk (tblKey_inj hi hj he).1)
  unfold Dev.showCtx
  dsimp only
  split
  · rw [hput _ 2 3 _ (by decide) (by decide), hput _ 2 2 _ (by decide) (by decide), hput _ 2 1 _ (by decide) (by decide)]
  · rw [hput _ 1 2 _ (by decide) (by decide), hput _ 1 1 _ (by decide) (by decide)]

theorem Dev.showCtx_vctx (d : Dev) (h : Nat) : (d.showCtx h).vctx = d.vctx := by
  unfold Dev.showCtx
  dsimp only
  split <;> simp only [Dev.setTw_keeps]

/-- A context that is started is valid, decodes or encodes as asked, and carries its charge. -/
theorem Dev.startContext_shows (d : Dev) (h : Nat) (enc : Bool) (charge : Nat) (k0 k1 k3 : BitVec 128) (resync : Bool) :
    fld 1 0 ((d.startContext h enc charge k0 k1 k3 resync).tw (vePage h) (ctxAddr h 0) 0) = 1 + enc.toNat * 2 ∧
      ((d.startContext h enc charge k0 k1 k3 resync).vctxOf h).charge = charge := by
  rw [d.startContext_eq]
  generalize (((d.putContext h 0 k0).putContext h 1 (if enc then k1 else 0)).putContext h 2 0).putContext h 3 k3 = x
  generalize hc : ({ VCtx.reset with charge := charge, fw := true, cur := { VGen.empty with resync := resync } } : VCtx) = c
  refine ⟨?_, ?_⟩
  · rw [Dev.showCtx_config _ _ _ (by decide), Dev.tw_congr (d := x.setTf (vePage h) (ctxAddr h 0) 0 1 0 (1 + enc.toNat * 2)) (by simp),
      Dev.tw_setTf_same, fld_putFld_same _ _ _ _ (by decide) (by decide)]
    cases enc <;> rfl
  · rw [Dev.vctxOf, Dev.showCtx_vctx, ← Dev.vctxOf, Dev.vctxOf_setVctx_same, ← hc]

/-- A decode context placed on an engine with room (R178): the entry is valid and the leg shows its handle. -/
theorem Dev.contextPlace_placed {d : Dev} {leg fps e c charge : Nat} {k0 : BitVec 128} (k1 k3 : BitVec 128)
    (hch : charge = chargedPixels (fld 12 0 (wordAt k0 3)) (fld 28 16 (wordAt k0 3)) * fps)
    (he : d.placeEngine charge = some e) (hc : d.freeContext e = some c) :
    d.contextPlace false leg fps k0 k1 k3 =
      (d.startContext (e * 512 + c) false charge k0 k1 k3 false).setTf Pg.px (legAddr leg 0) 1 28 16 (e * 512 + c) := by
  subst hch
  unfold Dev.contextPlace
  simp only [Bool.false_and, Bool.false_eq_true, if_false, he, hc]
  rfl

theorem Dev.contextPlace_refused {d : Dev} {leg fps : Nat} {k0 : BitVec 128} (k1 k3 : BitVec 128)
    (he : d.placeEngine (chargedPixels (fld 12 0 (wordAt k0 3)) (fld 28 16 (wordAt k0 3)) * fps) = none) :
    d.contextPlace false leg fps k0 k1 k3 = d.detect Pg.px Evt.PX_TABLE_REFUSED := by
  unfold Dev.contextPlace
  simp only [Bool.false_and, Bool.false_eq_true, if_false, he]

theorem legAddr_lt {l : Nat} (h : l < 8192) : legAddr l 0 < 2 ^ 24 := by
  unfold legAddr
  omega

theorem ctxAddr_lt (h : Nat) : ctxAddr h 0 < 2 ^ 24 := by
  unfold ctxAddr
  omega

/-- A handle of a video engine is none of PX's pages. -/
theorem vePage_ne_px {h : Nat} (hh : h < 8192) : vePage h ≠ Pg.px := by
  intro he
  have hpage : (0x10 + h / 512) % 61 = 0x2E := congrArg Fin.val he
  omega

/-- The started context as its entry, its record and its leg show it. -/
theorem Dev.contextPlace_shows {d t : Dev} (leg : Fin 8192) {h charge : Nat} (k0 k1 k3 : BitVec 128) (hh : h < 8192)
    (ht : t = (d.startContext h false charge k0 k1 k3 false).setTf Pg.px (legAddr leg.val 0) 1 28 16 h) :
    t.ctxValid h = true ∧ t.ctxEncode h = false ∧ t.legCtx leg.val = h ∧ (t.vctxOf h).charge = charge := by
  obtain ⟨hfld, hcharge⟩ := d.startContext_shows h false charge k0 k1 k3 false
  generalize d.startContext h false charge k0 k1 k3 false = x at hfld hcharge ht
  have hword : t.tw (vePage h) (ctxAddr h 0) 0 = x.tw (vePage h) (ctxAddr h 0) 0 := by
    rw [ht]
    exact Dev.tw_setTf_page _ _ _ _ _ _ _ _ _ _ (legAddr_lt leg.isLt) (ctxAddr_lt h) (by decide) (by decide) (vePage_ne_px hh)
  have hvctx : t.vctx = x.vctx := by
    rw [ht]
    simp only [Dev.setTf_keeps]
  refine ⟨?_, ?_, ?_, ?_⟩
  · rw [Dev.ctxValid, Dev.tb, hword, bit_of_fld_two _ hfld (by decide)]
    rfl
  · rw [Dev.ctxEncode, Dev.tb, hword, bit_of_fld_two _ hfld (by decide)]
    rfl
  · rw [ht, Dev.legCtx, Dev.tf_setTf_same _ _ _ _ _ _ _ (by decide) (by decide)]
    exact Nat.mod_eq_of_lt hh
  · rw [Dev.vctxOf, hvctx, ← Dev.vctxOf, hcharge]

/-! ## The obligation -/

/-- Settles O42: a walk without copies to make (`Dev.replNext_bare`), a period of one want (`Dev.adaptPeriod_single`), a move that waits
(`Dev.switchTimeout_waits`), reports and closing, and a context placed or refused (`Dev.contextPlace_shows`). -/
theorem conferenceAdapts : Obligations.ConferenceAdapts := by
  refine ⟨?goesOn, ?truncated, ?last, ?lower, ?higher, ?switch, ?report, ?middling, ?closed, ?waits, ?placed, ?refused⟩
  case goesOn =>
    intro s w ws n hw hc hn hd
    have hnext := Dev.replNext_bare hw hc
    rw [hn, Option.elim_some, if_neg (by omega)] at hnext
    refine ⟨_, rfl, ?_⟩
    dsimp only
    rw [hnext]
    exact ⟨rfl, rfl⟩
  case truncated =>
    intro s w ws n hw hc hn hd
    have hnext := Dev.replNext_bare hw hc
    rw [hn, Option.elim_some, if_pos hd] at hnext
    refine ⟨_, rfl, ?_⟩
    dsimp only
    rw [hnext]
    exact Dev.truncated_leaves _ w.body
  case last =>
    intro s w ws hw hc hn
    have hnext := Dev.replNext_bare hw hc
    rw [hn, Option.elim_none] at hnext
    refine ⟨_, rfl, ?_⟩
    dsimp only
    rw [hnext, (Dev.walkOver_bodiesChanged _ w.body).keeps.1]
    rfl
  case lower =>
    intro s l e src want hs hf hl ha hw hlt hrank
    have hne : (want != s.dev.copyCur e) = true := bne_iff_ne.mpr (fun h => by rw [h] at hrank; omega)
    refine ⟨_, rfl, ?_⟩
    dsimp only
    rw [Dev.adaptPeriod_single hs hf hl hw, ha, Dev.applyWant_lower _ hrank]
    obtain ⟨ht, hp, hc, hu⟩ := (s.dev.setCopyX e { s.dev.copyX e with up := 0 }).setTarget_reads e want hlt
    exact ⟨ht, hp.trans hne, hc, hu.trans (by rw [Dev.copyX_setCopyX_same])⟩
  case higher =>
    intro s l e src want hs hf hl ha hw hlt hrank
    refine ⟨_, rfl, ?_⟩
    dsimp only
    rw [Dev.adaptPeriod_single hs hf hl hw, ha, Dev.applyWant_higher _ hrank]
    obtain ⟨ht, -, hc, hu⟩ := (s.dev.setCopyX e { s.dev.copyX e with up := (s.dev.copyX e).up + 1 }).setTarget_reads e want hlt
    split
    · exact ⟨hu.trans (by rw [Dev.copyX_setCopyX_same]), hc, ht⟩
    · exact ⟨by rw [Dev.copyX_setCopyX_same], rfl, rfl⟩
  case switch =>
    intro s node slot e src he hn hv hp ht hm hl hg hgt hf hk
    subst he
    obtain ⟨hout, htarget⟩ := s.dev.keyReq_first _ hg hk (s.dev.copyLeg_lt (node.val * 64 + slot.val))
    refine ⟨_, rfl, ?_⟩
    dsimp only
    rw [Dev.switchTimeout_waits hn hv hp ht hm hl hgt hf]
    have hplain := plainSource_px_switchTimeout
    exact ⟨Dev.detect_raised _ _ _ hplain, Dev.detect_out _ _ _ hplain _ hout,
      (Dev.tf_congr (Dev.detect_sameBesideEvents _ _ _ hplain).tbl _ _ _ _ _).trans (htarget _)⟩
  case report =>
    intro s leg r v he hair hf hv
    have hr : reportedRate (s.dev.legEstimate leg.val) r = v ∧ ∀ loss, r = .receiver loss → 10 < loss ∨ loss < 2 := by
      rcases hv with ⟨k, rfl, rfl⟩ | ⟨loss, rfl, hloss, rfl⟩ | ⟨loss, rfl, hloss, rfl⟩
      · exact ⟨rfl, fun _ h => by cases h⟩
      · exact ⟨if_pos hloss, fun _ h => by cases h; exact .inl hloss⟩
      · exact ⟨if_neg (by omega), fun _ h => by cases h; exact .inr hloss⟩
    refine ⟨_, rfl, ?_⟩
    dsimp only
    rw [Dev.rtcpReport_heard r he hair hf hr.2, hr.1]
    exact s.dev.setEstimate_reads leg.val v
  case middling =>
    intro s leg loss h2 h10
    exact congrArg (fun d => Host.Outcome.next { s with dev := d }) (s.dev.rtcpReport_middling leg.val h2 h10)
  case closed =>
    intro s leg hc hi
    exact ⟨_, rfl, Dev.legClosed_ends hc hi⟩
  case waits =>
    intro s leg hi
    exact congrArg (fun d => Host.Outcome.next { s with dev := d }) (Dev.legClosed_waits hi)
  case placed =>
    intro s leg fps k0 k1 k3 e c he hc
    have he16 := Dev.placeEngine_lt he
    have hc512 := Dev.freeContext_lt hc
    have hplaced := Dev.contextPlace_placed (leg := leg.val) k1 k3 rfl he hc
    refine ⟨_, rfl, ?_⟩
    exact Dev.contextPlace_shows leg k0 k1 k3 (by omega) hplaced
  case refused =>
    intro s leg fps k0 k1 k3 he
    refine ⟨_, rfl, ?_⟩
    dsimp only
    rw [Dev.contextPlace_refused k1 k3 he]
    have hdet := s.dev.detect_detected Pg.px Evt.PX_TABLE_REFUSED (by decide) (by decide) (by decide)
    exact ⟨hdet.raised (by decide), hdet.keeps.2.2.1⟩

end Sys2Proof.Machine
end

section
/-! Video engines (chapters 8 and 9): their event sources, and what the operations beside them leave of engines, contexts, items and
picture counts. -/

namespace Sys2Proof.Machine

theorem kindOf_engine (e : Engine) : kindOf (pg (0x10 + e.val)) = .ve := by
  revert e
  decide

/-- A handle's page is its engine's. -/
theorem vePage_handle {e h ctx : Nat} (hh : h = e * 512 + ctx) (hc : ctx < 512) : vePage h = pg (0x10 + e) := by
  rw [vePage, show h / 512 = e by omega]

/-- Every source of a video engine but its hang neither retires the engine nor resets it. -/
theorem evDesc_ve : ∀ src < 32, src ≠ Evt.VE_PIXEL_HANG → (evDesc .ve src).act ≠ .retire ∧ (evDesc .ve src).hang = false := by decide

theorem Dev.detect_ve (d : Dev) {p : Page} (src : Nat) (hp : kindOf p = .ve) (hs : src < 32) (hn : src ≠ Evt.VE_PIXEL_HANG) :
    Detected d (d.detect p src) p src := by
  obtain ⟨ha, hh⟩ := evDesc_ve src hs hn
  exact d.detect_detected p src (by rw [hp]; decide) (by rw [hp]; exact ha) (by rw [hp]; exact hh)

theorem Dev.veng_setVctx (d : Dev) (h e : Nat) (c : VCtx) : (d.setVctx h c).veng e = d.veng e := rfl

theorem Dev.veng_congr {d d' : Dev} (h : d'.ves = d.ves) (e : Nat) : d'.veng e = d.veng e := by rw [Dev.veng, h, Dev.veng]
theorem Dev.vctxOf_congr {d d' : Dev} (h : d'.vctx = d.vctx) (x : Nat) : d'.vctxOf x = d.vctxOf x := by rw [Dev.vctxOf, h, Dev.vctxOf]

/-- The registers that count a video engine's pictures. -/
def CountsPictures (off : Nat) : Prop := off = Reg.VE_DEC_PICS ∨ off = Reg.VE_ENC_PICS

theorem CountsPictures.lt {off : Nat} (h : CountsPictures off) : off < 0x1000 := by rcases h with rfl | rfl <;> decide

/-- Engines, contexts and items stand, and with them the pictures counted and which encoders hand their pictures to PX. -/
structure VideoStands (d d' : Dev) : Prop where
  ves : d'.ves = d.ves
  vctx : d'.vctx = d.vctx
  wk : d'.wk = d.wk
  pics : ∀ p off, kindOf p = .ve → CountsPictures off → d'.reg p off = d.reg p off
  emits : ∀ h, d'.encEmitValid h = d.encEmitValid h

namespace VideoStands

theorem refl (d : Dev) : VideoStands d d := ⟨rfl, rfl, rfl, fun _ _ _ _ => rfl, fun _ => rfl⟩

theorem trans {d e f : Dev} (h : VideoStands d e) (h' : VideoStands e f) : VideoStands d f :=
  ⟨h'.ves.trans h.ves, h'.vctx.trans h.vctx, h'.wk.trans h.wk, fun p o hp ho => (h'.pics p o hp ho).trans (h.pics p o hp ho),
    fun x => (h'.emits x).trans (h.emits x)⟩

theorem ite {d e f : Dev} {c : Prop} [Decidable c] (h : VideoStands d e) (h' : VideoStands d f) : VideoStands d (if c then e else f) := by
  split
  · exact h
  · exact h'

theorem foldl {α : Type} (f : Dev → α → Dev) (hf : ∀ d x, VideoStands d (f d x)) (l : List α) (d : Dev) : VideoStands d (l.foldl f d) :=
  foldl_keeps (VideoStands d) f (fun e x h => h.trans (hf e x)) l d (refl d)

theorem veng {d d' : Dev} (h : VideoStands d d') (e : Nat) : d'.veng e = d.veng e := Dev.veng_congr h.ves e

theorem vctxOf {d d' : Dev} (h : VideoStands d d') (x : Nat) : d'.vctxOf x = d.vctxOf x := Dev.vctxOf_congr h.vctx x

/-- A change beside engines, contexts, items, registers and tables. -/
theorem of_pages {d d' : Dev} (hv : d'.ves = d.ves) (hc : d'.vctx = d.vctx) (hw : d'.wk = d.wk) (hr : d'.pages.regs = d.pages.regs)
    (ht : d'.pages.tbl = d.pages.tbl) : VideoStands d d' :=
  ⟨hv, hc, hw, fun p o _ _ => by rw [Dev.reg, hr, Dev.reg], fun _ => Dev.tb_congr ht _ _ _ _⟩

theorem of_detected {d d' : Dev} {p : Page} {src : Nat} (h : Detected d d' p src) : VideoStands d d' := by
  obtain ⟨hs, o, pd, he⟩ := h.rest
  subst he
  exact of_pages rfl rfl rfl rfl rfl

/-- A register that counts no pictures of a video engine. -/
theorem setReg (d : Dev) (p : Page) (off i : Nat) (w : Word) (hoff : off < 0x1000) (h : kindOf p ≠ .ve ∨ ¬CountsPictures off) :
    VideoStands d (d.setReg p off w i) := by
  refine ⟨by simp, by simp, by simp, fun q o hq ho => ?_, fun _ => Dev.tb_congr (by simp) _ _ _ _⟩
  refine Dev.reg_setReg_other _ _ _ _ _ _ _ _ hoff ho.lt ?_
  rintro ⟨rfl, rfl, -⟩
  exact h.elim (fun hk => hk hq) (fun hn => hn ho)

theorem bump (d : Dev) (p : Page) (off hi lo n i : Nat) (hoff : off < 0x1000) (h : kindOf p ≠ .ve ∨ ¬CountsPictures off) :
    VideoStands d (d.bump p off hi lo n i) :=
  setReg d p off i _ hoff h

/-- A table word that is not the first of an entry 3. -/
theorem setTw (d : Dev) (p : Page) (a i : Nat) (w : Word) (h4 : i < 4) (h : 0 < i ∨ a % 4 ≠ 3) : VideoStands d (d.setTw p a i w) := by
  refine ⟨by simp, by simp, by simp, fun q _ _ _ => by simp [Dev.reg], fun x => ?_⟩
  have hkey : tblKey (vePage x) (ctxAddr x 3) 0 ≠ tblKey p a i := by
    unfold tblKey ctxAddr
    omega
  rw [Dev.encEmitValid, Dev.tb, Dev.tw_setTw_other _ _ _ _ _ _ _ _ hkey, ← Dev.tb, ← Dev.encEmitValid]

theorem bumpT (d : Dev) (p : Page) (a i hi lo n : Nat) (h4 : i < 4) (h : 0 < i ∨ a % 4 ≠ 3) : VideoStands d (d.bumpT p a i hi lo n) :=
  setTw d p a i _ h4 h

/-! ## Memory -/

theorem noteRow (d : Dev) (g n : Nat) (u : BitVec 8) : VideoStands d (d.noteRow g n u) := by
  have hset : ∀ x, VideoStands d (d.setGrp g x) := fun x => of_pages rfl rfl rfl rfl rfl
  unfold Dev.noteRow
  exact .ite (hset _) (.ite ((hset _).trans (bump _ _ _ _ _ _ _ (by decide) (.inr (by unfold CountsPictures; decide)))) (hset _))

theorem noteRows (d : Dev) (a len : Nat) : VideoStands d (d.noteRows a len) := by
  unfold Dev.noteRows
  exact .ite (refl d) (foldl _ (fun e _ => noteRow e _ _ _) _ d)

theorem setDramByte (d : Dev) (a : Nat) (b : Byte) : VideoStands d (d.setDramByte a b) := by
  have hset : ∀ (e : Dev) g m off c, VideoStands e (e.setCell g m off c) := fun _ _ _ _ _ => of_pages rfl rfl rfl rfl rfl
  unfold Dev.setDramByte
  dsimp only
  split_ifs
  · exact (hset _ _ _ _ _).trans (hset _ _ _ _ _)
  · exact (hset _ _ _ _ _).trans (hset _ _ _ _ _)
  · exact hset _ _ _ _ _
  · exact (hset _ _ _ _ _).trans (hset _ _ _ _ _)
  · exact hset _ _ _ _ _
  · exact refl d

theorem setPhysByte (d : Dev) (a : Nat) (b : Byte) : VideoStands d (d.setPhysByte a b) := by
  unfold Dev.setPhysByte
  split
  · exact setDramByte d a b
  · exact of_pages rfl rfl rfl rfl rfl
  · exact of_pages rfl rfl rfl rfl rfl
  · exact refl d

theorem putBytes (bs : List Byte) : ∀ (d : Dev) (a : Nat), VideoStands d (d.putBytes a bs) := by
  induction bs with
  | nil => exact fun d _ => refl d
  | cons b bs ih => exact fun d a => (setPhysByte d a b).trans (ih _ _)

/-- An access outside the map is a matter of FB's page. -/
theorem hole (d : Dev) (a : Nat) (who : Option Nat) : VideoStands d (d.hole a who) := by
  obtain ⟨e, n, he, hd⟩ := d.hole_cases a who
  have hde : VideoStands d e := by
    obtain rfl | rfl := hd
    · exact refl _
    · exact of_pages rfl rfl rfl rfl rfl
  have hlo := setReg e Pg.fb Reg.FB_HOLE_ADDR_LO 0 (word a) (by decide) (.inl (by decide))
  have hhi := setReg (e.setReg Pg.fb Reg.FB_HOLE_ADDR_LO (word a)) Pg.fb Reg.FB_HOLE_ADDR_HI 0
    (word ((a >>> 32) % 2 ^ 16 + n % 512 * 2 ^ 16)) (by decide) (.inl (by decide))
  rw [he]
  exact ((hde.trans hlo).trans hhi).trans (of_detected (Dev.detect_detected _ Pg.fb _ (by decide) (by decide) (by decide)))

theorem physWrite (d : Dev) (a : Nat) (bs : List Byte) (who : Option Nat) : VideoStands d (d.physWrite a bs who).1 := by
  unfold Dev.physWrite
  split
  · split
    · exact of_pages rfl rfl rfl rfl rfl
    · exact hole d a who
  · exact refl d
  · exact .ite ((putBytes bs d a).trans (noteRows _ _ _)) (putBytes bs d a)

/-- A picture written into its slot. -/
theorem writeSlot (d : Dev) (h s : Nat) : VideoStands d (d.writeSlot h s) := by
  have hdrawn : VideoStands d d.drawn := of_pages rfl rfl rfl rfl rfl
  exact hdrawn.trans (physWrite d.drawn _ (d.codedBytes (d.slotPitch h * d.ctxH h * 3 / 2)).2 _)

/-! ## Indications -/

theorem keyReq (d : Dev) (src : Nat) (leg : Option Nat) : VideoStands d (d.keyReq src leg) := by
  have hasked : VideoStands d ((({ d with px := { d.px with keyAt := SMap.set (fun _ => none) d.px.keyAt src (some d.nowNs) } } : Dev).bump
      Pg.px Reg.PX_KEYREQ 15 0).emit (.keyRequest src)) :=
    trans (of_pages rfl rfl rfl rfl rfl) (trans (bump _ Pg.px Reg.PX_KEYREQ 15 0 1 0 (by decide) (.inl (by decide)))
      (of_pages rfl rfl rfl rfl rfl))
  unfold Dev.keyReq
  refine .ite (refl d) (.ite (bump d _ _ _ _ _ _ (by decide) (.inl (by decide))) ?_)
  cases leg with
  | none => exact hasked
  | some l => exact hasked.trans (bumpT _ _ _ 3 _ _ _ (by decide) (.inl (by decide)))

theorem sendPli (d : Dev) (h : Nat) : VideoStands d (d.sendPli h) := by
  have hlegs : ∀ l x, VideoStands d (d.setLegX l x) := fun _ _ => of_pages rfl rfl rfl rfl rfl
  unfold Dev.sendPli
  exact .ite (refl d) (.ite (refl d) ((hlegs _ _).trans (keyReq _ _ _)))

/-! ## Contexts -/

/-- The words that show a context's generation. -/
theorem showCtx (d : Dev) (h : Nat) : VideoStands d (d.showCtx h) := by
  have hput : ∀ (e : Dev) k i w, 0 < i → i < 4 → VideoStands e (e.setTw (vePage h) (ctxAddr h k) i w) :=
    fun e k i w h0 h4 => setTw e _ _ i w h4 (.inl h0)
  unfold Dev.showCtx
  exact .ite (((hput _ 2 1 _ (by decide) (by decide)).trans (hput _ 2 2 _ (by decide) (by decide))).trans
    (hput _ 2 3 _ (by decide) (by decide))) ((hput _ 1 1 _ (by decide) (by decide)).trans (hput _ 1 2 _ (by decide) (by decide)))

/-- A generation that becomes current is counted and shown; nothing else of engines, contexts and items changes. -/
theorem makeCurrent (d : Dev) (h : Nat) (g : VGen) : VideoStands (d.setVctx h { d.vctxOf h with cur := g }) (d.makeCurrent h g) := by
  refine (bumpT _ (vePage h) (ctxAddr h (if (d.setVctx h { d.vctxOf h with cur := g }).ctxEncode h then 2 else 1)) 0 15 0 1 (by decide)
    (.inr ?_)).trans (showCtx _ h)
  unfold ctxAddr
  split <;> omega

/-- A job without an item gives back its reservation and its place in INFLIGHT when it leaves its engine. -/
theorem dropFront (d : Dev) (e : Nat) :
    VideoStands (d.setVeng e { d.veng e with bound := (d.veng e).bound.drop 1 }) (d.dropFront e) := by
  have hleft : ∀ (x : Dev) (uj : Nat) (p : Page), VideoStands x ((x.release uj).subInflight p) := fun _ _ _ => of_pages rfl rfl rfl rfl rfl
  unfold Dev.dropFront
  dsimp only
  split
  · exact .ite (hleft _ _ _) (.refl _)
  · exact .refl _

end VideoStands

theorem Dev.makeCurrent_cur (d : Dev) (h : Nat) (g : VGen) : ((d.makeCurrent h g).vctxOf h).cur = g := by
  rw [(VideoStands.makeCurrent d h g).vctxOf, Dev.vctxOf_setVctx_same]

end Sys2Proof.Machine
end

section
/-! The items of a video engine (R182, R187, R194, R209): those that join its queue, those that fail, and those that keep a generation
until they are recorded. -/

namespace Sys2Proof.Machine

/-- An item at an engine is found under its name. -/
theorem Dev.itemAt_item {d : Dev} {r q e : Nat} {i : Item} (h : d.itemAt r q e = some i) : d.item? r q = some i := by
  unfold Dev.itemAt at h
  split at h
  · next j hj =>
    split at h
    · rw [hj, h]
    · cases h
  · cases h

/-! ## Items that join the queue -/

/-- The job of a ring item, as the queue of its context's engine holds it. -/
def Dev.queuedJob (d : Dev) (h : Nat) (j : VJob) : VJob := { j with id := (d.veng (h / 512)).nextId, ctx := h % 512 }

theorem Dev.queueVideo_eq (d : Dev) (h : Nat) {j : VJob} {x : Nat × Nat} (hj : j.item = some x) :
    d.queueVideo h j = d.setVeng (h / 512) { d.veng (h / 512) with
      queue := (d.veng (h / 512)).queue ++ [d.queuedJob h j], nextId := (d.veng (h / 512)).nextId + 1 } := by
  unfold Dev.queueVideo
  exact if_neg (by simp [hj])

/-- A ring item joins the queue of its context's engine, and nothing else changes. -/
theorem Dev.queueVideo_joins (d : Dev) (h : Nat) {j : VJob} {x : Nat × Nat} (hj : j.item = some x) :
    ((d.queueVideo h j).veng (h / 512)).queue = (d.veng (h / 512)).queue ++ [d.queuedJob h j] ∧ (d.queueVideo h j).wk = d.wk ∧
      (d.queueVideo h j).pages = d.pages := by
  rw [d.queueVideo_eq h hj]
  exact ⟨by rw [Dev.veng_setVeng_same], rfl, rfl⟩

theorem Dev.decodeItem_queues {d : Dev} {r q : Nat} {i : Item} (hi : d.itemAt r q 2 = some i) (ho : opOf i.desc = 0)
    (hc : d.ctxInvalid i false = false) (hq : (d.veng (ctxOf i.desc / 512)).queue.any (fun j => j.item == some (r, q)) = false)
    (hb : (d.veng (ctxOf i.desc / 512)).bound.any (fun p => p.job.item == some (r, q)) = false) :
    d.decodeItem r q = d.queueVideo (ctxOf i.desc) (decodeJob i (d.ringAsid r)) := by
  simp [Dev.decodeItem, hi, ho, hc, hq, hb]

/-- The bytes of a source picture of a context at a pitch: a luma plane and half as much chroma. -/
def Dev.sourceBytes (d : Dev) (i : Item) : Nat := descF i.desc 52 15 0 * d.ctxH (ctxOf i.desc) * 3 / 2

theorem Dev.encodeItem_queues {d : Dev} {r q : Nat} {i : Item} (hi : d.itemAt r q 3 = some i) (ho : opOf i.desc = 0)
    (hc : d.ctxInvalid i true = false) (hl : d.sourceBytes i ≤ lengthOf i.desc)
    (hq : (d.veng (ctxOf i.desc / 512)).queue.any (fun j => j.item == some (r, q)) = false)
    (hb : (d.veng (ctxOf i.desc / 512)).bound.any (fun p => p.job.item == some (r, q)) = false) :
    d.encodeItem r q = d.queueVideo (ctxOf i.desc) (encodeJob i (d.ringAsid r)) := by
  have hl' : ¬lengthOf i.desc < descF i.desc 52 15 0 * d.ctxH (ctxOf i.desc) * 3 / 2 := Nat.not_lt.mpr hl
  simp [Dev.encodeItem, hi, ho, hc, hq, hb, hl']

/-! ## Items that fail -/

/-- The commands of ring items of the video engines: the command, its engine number and OP, and whether its context encodes. -/
def videoCommands (n : RingNo) (q : Nat) : List (Instr × Nat × Nat × Bool) :=
  [(Instr.decode n q, 2, 0, false), (.outputNext n q, 2, 1, false), (.clearCtx n q, 2, 2, false), (.encode n q, 3, 0, true),
    (.rcReset n q, 3, 1, true)]

/-- An item that a video engine refuses: the source raised and the item failed. -/
def Dev.refuseItem (d : Dev) (i : Item) (r q src cause : Nat) : Dev :=
  (d.detect (pg (0x10 + i.inst.getD 0)) src).finishPlain r q .failed cause

/-- Each command refuses an item whose handle names no usable context. -/
theorem exec_ctxInvalid {s : State} {n : RingNo} {q e : Nat} {i : Item} {c : Instr} {enc : Bool}
    (hc : (c, e, opOf i.desc, enc) ∈ videoCommands n q) (hi : s.dev.itemAt n.val q e = some i) (hv : s.dev.ctxInvalid i enc = true) :
    exec c s = .next { s with dev := s.dev.refuseItem i n.val q Evt.VE_CTX_INVALID Cause.CTX_INVALID } := by
  have hnext : ∀ f : Dev → Dev, f s.dev = s.dev.refuseItem i n.val q Evt.VE_CTX_INVALID Cause.CTX_INVALID →
      s.on f = .next { s with dev := s.dev.refuseItem i n.val q Evt.VE_CTX_INVALID Cause.CTX_INVALID } := fun f hf => by rw [State.on, hf]
  simp only [videoCommands, List.mem_cons, List.not_mem_nil, or_false, Prod.mk.injEq] at hc
  rcases hc with ⟨rfl, rfl, ho, rfl⟩ | ⟨rfl, rfl, ho, rfl⟩ | ⟨rfl, rfl, ho, rfl⟩ | ⟨rfl, rfl, ho, rfl⟩ | ⟨rfl, rfl, ho, rfl⟩
  · exact hnext (·.decodeItem n.val q) (by simp [Dev.decodeItem, Dev.refuseItem, hi, ho, hv])
  · exact hnext (·.outputNext n.val q) (by simp [Dev.outputNext, Dev.refuseItem, hi, ho, hv])
  · exact hnext (·.clearItem n.val q) (by simp [Dev.clearItem, Dev.refuseItem, hi, ho, hv])
  · exact hnext (·.encodeItem n.val q) (by simp [Dev.encodeItem, Dev.refuseItem, hi, ho, hv])
  · exact hnext (·.rcResetItem n.val q) (by simp [Dev.rcResetItem, Dev.refuseItem, hi, ho, hv])

theorem Dev.encodeItem_short {d : Dev} {r q : Nat} {i : Item} (hi : d.itemAt r q 3 = some i) (ho : opOf i.desc = 0)
    (hc : d.ctxInvalid i true = false) (hl : lengthOf i.desc < d.sourceBytes i) :
    d.encodeItem r q = d.refuseItem i r q Evt.VE_SRC_FORMAT Cause.SRC_FORMAT := by
  unfold Dev.sourceBytes at hl
  simp [Dev.encodeItem, Dev.refuseItem, hi, ho, hc, hl]

/-- SRC_FORMAT's number stands for no retirement and no hang on any page. -/
theorem evDesc_srcFormat (k : PageKind) : (evDesc k Evt.VE_SRC_FORMAT).act ≠ .retire ∧ (evDesc k Evt.VE_SRC_FORMAT).hang = false := by
  cases k <;> decide

/-- The detection of SRC_FORMAT's number changes no work, on whatever page. -/
theorem Dev.detect_srcFormat_wk (d : Dev) (p : Page) : (d.detect p Evt.VE_SRC_FORMAT).wk = d.wk := by
  by_cases hk : kindOf p = .dir
  · rw [Dev.detect, Dev.detectUnit, Dev.detectAt, if_pos hk]
  · exact (d.detect_detected p _ hk (evDesc_srcFormat _).1 (evDesc_srcFormat _).2).wk

/-- A refused item has failed with its cause, where the detection changed no work. -/
theorem Dev.refuseItem_fails {d : Dev} {i : Item} {r q src : Nat} (cause : Nat) (hi : d.item? r q = some i)
    (hw : (d.detect (pg (0x10 + i.inst.getD 0)) src).wk = d.wk) :
    (d.refuseItem i r q src cause).item? r q = some (i.finished (i.plain .failed cause)) :=
  Dev.item?_finishPlain _ _ _ _ _ _ ((Dev.item?_congr (by rw [hw]) r q).trans hi)

/-! ## Items that keep a generation -/

/-- A generation kept until its item is recorded, under the next number of the context's engine (R186). -/
def Dev.keepGen (d : Dev) (h : Nat) (g : VGen) : Dev :=
  (d.setVeng (h / 512) { d.veng (h / 512) with nextId := (d.veng (h / 512)).nextId + 1 }).setVctx h
    { d.vctxOf h with pend := (d.vctxOf h).pend ++ [((d.veng (h / 512)).nextId, g)] }

/-- An item with the number that its generation is kept under. -/
def Item.keeps (n : Nat) (i : Item) : Item := { i with engineState := BitVec.ofNat 64 (n + 1) }

theorem Dev.item?_keeps {d : Dev} {r q : Nat} {i : Item} (n : Nat) (hi : d.item? r q = some i) :
    (d.modItem r q (Item.keeps n)).item? r q = some (i.keeps n) := by
  rw [Dev.item?_modItem_same d r q (Item.keeps n) (fun _ => ⟨rfl, rfl⟩), hi]
  rfl

/-- An item that keeps a generation carries its number, and finishes with a result. -/
def Dev.keepAndFinish (d : Dev) (r q h : Nat) (g : VGen) (x : Result) : Dev :=
  ((d.keepGen h g).modItem r q (Item.keeps (d.veng (h / 512)).nextId)).finish r q x

theorem Dev.keepAndFinish_leaves {d : Dev} {r q : Nat} {i : Item} (h : Nat) (g : VGen) (x : Result) (hi : d.item? r q = some i) :
    (d.keepAndFinish r q h g x).item? r q = some ((i.keeps (d.veng (h / 512)).nextId).finished x) ∧
      ((d.keepAndFinish r q h g x).vctxOf h).pend = (d.vctxOf h).pend ++ [((d.veng (h / 512)).nextId, g)] ∧
      ((d.keepAndFinish r q h g x).vctxOf h).cur = (d.vctxOf h).cur ∧ (d.keepAndFinish r q h g x).ram = d.ram := by
  obtain ⟨hvctx, hram⟩ : (d.keepAndFinish r q h g x).vctx = (d.keepGen h g).vctx ∧ (d.keepAndFinish r q h g x).ram = d.ram := by
    simp [Dev.keepAndFinish, Dev.finish, Dev.transition, Dev.keepGen]
  have hctx : (d.keepAndFinish r q h g x).vctxOf h = { d.vctxOf h with pend := (d.vctxOf h).pend ++ [((d.veng (h / 512)).nextId, g)] } := by
    rw [Dev.vctxOf_congr hvctx, Dev.keepGen, Dev.vctxOf_setVctx_same]
  refine ⟨?_, by rw [hctx], by rw [hctx], hram⟩
  rw [Dev.keepAndFinish, Dev.item?_finish, Dev.item?_keeps (d := d.keepGen h g) _ hi]
  rfl

/-- The item's result with a status and a cause alone is that of the item as it was. -/
theorem Dev.keepAndFinish_plain {d : Dev} {r q : Nat} {i : Item} (h : Nat) (g : VGen) (st : Status) (c : Nat) (hi : d.item? r q = some i) :
    ((d.keepGen h g).modItem r q (Item.keeps (d.veng (h / 512)).nextId)).finishPlain r q st c =
      d.keepAndFinish r q h g (i.plain st c) :=
  Dev.finishPlain_eq _ r q st c (i.keeps (d.veng (h / 512)).nextId) (Dev.item?_keeps (d := d.keepGen h g) _ hi)

/-- The context of an item waits for nothing: no job is queued or bound, and no generation is kept. -/
structure CtxIdle (d : Dev) (h : Nat) : Prop where
  jobs : d.ctxBusy h = false
  gens : (d.vctxOf h).pend = []

theorem Dev.clearItem_keeps {d : Dev} {r q : Nat} {i : Item} (hi : d.itemAt r q 2 = some i) (ho : opOf i.desc = 2)
    (hc : d.ctxInvalid i false = false) (hidle : CtxIdle d (ctxOf i.desc)) :
    d.clearItem r q = d.keepAndFinish r q (ctxOf i.desc) { (d.vctxOf (ctxOf i.desc)).cur with dpb := [], outSlot := none }
      (i.plain i.doneStatus 0) := by
  rw [← Dev.keepAndFinish_plain _ _ _ _ (Dev.itemAt_item hi)]
  unfold Dev.clearItem
  rw [hi]
  exact (if_neg (by simp [ho])).trans ((if_neg (by simp [hc])).trans (if_neg (by simp [hidle.jobs, hidle.gens])))

theorem Dev.rcResetItem_keeps {d : Dev} {r q : Nat} {i : Item} (hi : d.itemAt r q 3 = some i) (ho : opOf i.desc = 1)
    (hc : d.ctxInvalid i true = false) (hidle : CtxIdle d (ctxOf i.desc)) :
    d.rcResetItem r q = d.keepAndFinish r q (ctxOf i.desc)
      { (d.vctxOf (ctxOf i.desc)).cur with debt := 0, histI := none, histP := none } (i.plain i.doneStatus 0) := by
  rw [← Dev.keepAndFinish_plain _ _ _ _ (Dev.itemAt_item hi)]
  unfold Dev.rcResetItem
  rw [hi]
  exact (if_neg (by simp [ho])).trans ((if_neg (by simp [hc])).trans (if_neg (by simp [hidle.jobs, hidle.gens])))

/-! ## OUTPUT_NEXT -/

/-- ERES of an output picture (Table 8.4). -/
def DpbPic.outputEres (p : DpbPic) : BitVec 128 :=
  eresOf [(0, unsigned 32 p.poc), (4, p.tid % 16), (5, 0xFF), (6, (p.slot.getD 0xFF) % 256), (12, 0x80000000)]

theorem unsigned_lt (n : Nat) (v : Int) : unsigned n v < 2 ^ n := by
  unfold unsigned
  have := Int.emod_lt_of_pos v (show (0 : Int) < (2 ^ n : Nat) by exact_mod_cast Nat.two_pow_pos n)
  have := Int.emod_nonneg v (show ((2 ^ n : Nat) : Int) ≠ 0 by exact_mod_cast (Nat.two_pow_pos n).ne')
  omega

/-- A value at byte 0 is read back below parts that begin at byte 4 or above. -/
theorem eresOf_low (v : Nat) (parts : List (Nat × Nat)) (hv : v < 2 ^ 32) (hp : ∀ x ∈ parts, 4 ≤ x.1) :
    (eresOf ((0, v) :: parts)).toNat % 2 ^ 32 = v := by
  have hsum : ∀ (l : List (Nat × Nat)) (a : Nat), (∀ x ∈ l, 4 ≤ x.1) → l.foldl (fun a x => a + x.2 * 2 ^ (8 * x.1)) a % 2 ^ 32 = a % 2 ^ 32 := by
    intro l
    induction l with
    | nil => exact fun _ _ => rfl
    | cons x l ih =>
      intro a hl
      have hx : 2 ^ 32 ∣ x.2 * 2 ^ (8 * x.1) := Dvd.dvd.mul_left (Nat.pow_dvd_pow 2 (by have := hl x List.mem_cons_self; omega)) _
      rw [List.foldl_cons, ih _ (fun y hy => hl y (List.mem_cons_of_mem _ hy)), Nat.add_mod, Nat.mod_eq_zero_of_dvd hx, Nat.add_zero,
        Nat.mod_mod]
  rw [eresOf, BitVec.toNat_ofNat, Nat.mod_mod_of_dvd _ (Nat.pow_dvd_pow 2 (by decide)), List.foldl_cons, hsum _ _ hp]
  simpa using hv

theorem DpbPic.outputEres_poc (p : DpbPic) : p.outputEres.toNat % 2 ^ 32 = unsigned 32 p.poc :=
  eresOf_low _ _ (unsigned_lt 32 p.poc) (by simp)

/-- The next picture for output without a destination: nothing is copied, the item completes, and the generation after it is kept. -/
theorem Dev.outputNext_keeps {d : Dev} {r q : Nat} {i : Item} {p : DpbPic} (hi : d.itemAt r q 2 = some i) (ho : opOf i.desc = 1)
    (hc : d.ctxInvalid i false = false) (hidle : CtxIdle d (ctxOf i.desc)) (hp : (d.vctxOf (ctxOf i.desc)).cur.nextOut = some p)
    (hd : dstOf i.desc = 0) :
    d.outputNext r q = d.keepAndFinish r q (ctxOf i.desc) ((d.vctxOf (ctxOf i.desc)).cur.output p.poc)
      { i.plain i.doneStatus 0 with flags := word 0, result1 := BitVec.ofNat 64 0, eres := p.outputEres } := by
  unfold Dev.outputNext
  rw [hi]
  dsimp only
  rw [if_neg (not_not.mpr ho), if_neg (by simp [hc]), if_neg (by simp [hidle.jobs, hidle.gens]), hp]
  cases hs : p.slot
  all_goals
    simp only [hd, hs, decide_true, Bool.true_or, if_true, DpbPic.outputEres]
    rfl

/-! ## The obligation -/

/-- Settles O43: an item joins the queue (`Dev.queueVideo_joins`), is refused (`Dev.refuseItem_fails`), or keeps a generation and
finishes (`Dev.keepAndFinish_leaves`). -/
theorem videoItems : Obligations.VideoItems := by
  refine ⟨?decodes, ?encodes, ?invalid, ?short, ?output, ?clear, ?reset⟩
  case decodes =>
    intro s n q i hi ho hc hq hb
    obtain ⟨hring, hseq⟩ := Dev.item?_name (Dev.itemAt_item hi)
    obtain ⟨hqueue, hwk, hpages⟩ := s.dev.queueVideo_joins (ctxOf i.desc) (j := decodeJob i (s.dev.ringAsid n.val)) rfl
    rw [← Dev.decodeItem_queues hi ho hc hq hb] at hqueue hwk hpages
    exact ⟨_, _, rfl, hqueue, by rw [← hring, ← hseq]; rfl, rfl, rfl, rfl, rfl, rfl, hwk, hpages⟩
  case encodes =>
    intro s n q i hi ho hc hl hq hb
    obtain ⟨hring, hseq⟩ := Dev.item?_name (Dev.itemAt_item hi)
    obtain ⟨hqueue, hwk, hpages⟩ := s.dev.queueVideo_joins (ctxOf i.desc) (j := encodeJob i (s.dev.ringAsid n.val)) rfl
    rw [← Dev.encodeItem_queues hi ho hc hl hq hb] at hqueue hwk hpages
    exact ⟨_, _, rfl, hqueue, by rw [← hring, ← hseq]; rfl, rfl, rfl, rfl, rfl, hwk, hpages⟩
  case invalid =>
    intro s n q e i c enc hmem hi hinst hv
    have hdet := s.dev.detect_ve Evt.VE_CTX_INVALID (kindOf_engine ⟨i.inst.getD 0, hinst⟩) (by decide) (by decide)
    refine ⟨_, _, exec_ctxInvalid hmem hi hv, Dev.refuseItem_fails _ (Dev.itemAt_item hi) hdet.wk, rfl, rfl, rfl, ?_⟩
    exact raised_of_hdrs (congrArg (·.hdrs) (Dev.finishPlain_pages _ _ _ _ _)) (hdet.raised (by decide))
  case short =>
    intro s n q i hi ho hc hl
    have hfails := Dev.refuseItem_fails Cause.SRC_FORMAT (Dev.itemAt_item hi) (s.dev.detect_srcFormat_wk _)
    rw [← Dev.encodeItem_short hi ho hc hl] at hfails
    exact ⟨_, _, rfl, hfails, rfl, rfl, rfl⟩
  case output =>
    intro s n q h i p hh hi ho hc hb hpend hp hd
    subst hh
    have heq := Dev.outputNext_keeps hi ho hc ⟨hb, hpend⟩ hp hd
    obtain ⟨hj, hpend', hcur, hram⟩ := Dev.keepAndFinish_leaves (ctxOf i.desc) ((s.dev.vctxOf (ctxOf i.desc)).cur.output p.poc)
      { i.plain i.doneStatus 0 with flags := word 0, result1 := BitVec.ofNat 64 0, eres := p.outputEres } (Dev.itemAt_item hi)
    rw [← heq] at hj hpend' hcur hram
    rw [hpend] at hpend'
    exact ⟨_, _, rfl, hj, rfl, rfl, p.outputEres_poc, hpend', hcur, hram⟩
  case clear =>
    intro s n q h i hh hi ho hc hb hpend
    subst hh
    have heq := Dev.clearItem_keeps hi ho hc ⟨hb, hpend⟩
    obtain ⟨hj, hpend', hcur, -⟩ := Dev.keepAndFinish_leaves (ctxOf i.desc)
      { (s.dev.vctxOf (ctxOf i.desc)).cur with dpb := [], outSlot := none } (i.plain i.doneStatus 0) (Dev.itemAt_item hi)
    rw [← heq] at hj hpend' hcur
    rw [hpend] at hpend'
    exact ⟨_, _, rfl, hj, rfl, rfl, hcur, hpend'⟩
  case reset =>
    intro s n q h i hh hi ho hc hb hpend
    subst hh
    have heq := Dev.rcResetItem_keeps hi ho hc ⟨hb, hpend⟩
    obtain ⟨hj, hpend', hcur, -⟩ := Dev.keepAndFinish_leaves (ctxOf i.desc)
      { (s.dev.vctxOf (ctxOf i.desc)).cur with debt := 0, histI := none, histP := none } (i.plain i.doneStatus 0) (Dev.itemAt_item hi)
    rw [← heq] at hj hpend' hcur
    rw [hpend] at hpend'
    exact ⟨_, _, rfl, hj, rfl, rfl, hcur, hpend'⟩

end Sys2Proof.Machine
end

section
/-! A job bound on a video engine (R187, R190, R192, R211 to R215): what binding does to the engine and to the job's item, and what
parsing and planning leave of the context. -/

namespace Sys2Proof.Machine

/-- A bound picture leaves the queue for the bound pictures; registers, headers and tables stay. -/
theorem Dev.bindPicture_binds (d : Dev) (e : Nat) (p : VPic) :
    ((d.bindPicture e p).veng e).bound = (d.veng e).bound ++ [p] ∧ ((d.bindPicture e p).veng e).queue = (d.veng e).queue.drop 1 ∧
      (d.bindPicture e p).pages = d.pages := by
  obtain ⟨hves, hpages⟩ : (d.bindPicture e p).ves = (d.setVeng e { d.veng e with
      queue := (d.veng e).queue.drop 1, bound := (d.veng e).bound ++ [p] }).ves ∧ (d.bindPicture e p).pages = d.pages := by
    unfold Dev.bindPicture
    split
    · exact ⟨rfl, rfl⟩
    · exact ⟨rfl, rfl⟩
  rw [Dev.veng_congr hves, Dev.veng_setVeng_same]
  exact ⟨rfl, rfl, hpages⟩

/-- The item of a bound job asks for STARTED (Table 4.6). -/
theorem Dev.bindPicture_starts (d : Dev) (e : Nat) {p : VPic} {r q : Nat} {i : Item} (hj : p.job.item = some (r, q)) (hi : d.item? r q = some i) :
    (d.bindPicture e p).item? r q = some { i with phase := .running, pend := some .started } := by
  have heq : d.bindPicture e p = ((d.setVeng e { d.veng e with queue := (d.veng e).queue.drop 1, bound := (d.veng e).bound ++ [p] }).modItem r q
      (fun x => { x with phase := .running })).transition r q .started := by
    unfold Dev.bindPicture
    rw [hj]
  rw [heq]
  exact Dev.item?_phase_transition _ r q .running .started i hi

/-- A context stands for binding: engines, contexts and compositors, its configuration, and its engine's rate control. -/
structure ContextStands (h : Nat) (d d' : Dev) : Prop where
  ves : d'.ves = d.ves
  vctx : d'.vctx = d.vctx
  cps : d'.cps = d.cps
  wk : d'.wk = d.wk
  cfg : ∀ k i, k < 2 → i < 4 → d'.tw (vePage h) (ctxAddr h k) i = d.tw (vePage h) (ctxAddr h k) i
  rc : d'.reg (vePage h) Reg.VE_ENC_RC_CFG = d.reg (vePage h) Reg.VE_ENC_RC_CFG

namespace ContextStands

variable {h : Nat} {d d' : Dev}

theorem refl (h : Nat) (d : Dev) : ContextStands h d d := ⟨rfl, rfl, rfl, rfl, fun _ _ _ _ => rfl, rfl⟩

theorem trans {e : Dev} (hd : ContextStands h d e) (he : ContextStands h e d') : ContextStands h d d' :=
  ⟨he.ves.trans hd.ves, he.vctx.trans hd.vctx, he.cps.trans hd.cps, he.wk.trans hd.wk,
    fun k i hk hi => (he.cfg k i hk hi).trans (hd.cfg k i hk hi), he.rc.trans hd.rc⟩

theorem of_detected {p : Page} {src : Nat} (hd : Detected d d' p src) : ContextStands h d d' := by
  obtain ⟨hs, o, pd, he⟩ := hd.rest
  subst he
  exact ⟨rfl, rfl, rfl, rfl, fun _ _ _ _ => rfl, rfl⟩

/-- The entries beside a context's configuration are counters and what it shows. -/
theorem setTw (d : Dev) (h k i : Nat) (w : Word) (hk : 2 ≤ k ∧ k < 4) (hi : i < 4) :
    ContextStands h d (d.setTw (vePage h) (ctxAddr h k) i w) := by
  refine ⟨by simp, by simp, by simp, by simp, fun m n hm hn => Dev.tw_setTw_other _ _ _ _ _ _ _ _ (fun hkey => ?_), by simp [Dev.reg]⟩
  have haddr := (tblKey_inj hn hi hkey).1
  unfold ctxAddr at haddr
  omega

theorem bumpT (d : Dev) (h k i hi lo n : Nat) (hk : 2 ≤ k ∧ k < 4) (hi4 : i < 4) :
    ContextStands h d (d.bumpT (vePage h) (ctxAddr h k) i hi lo n) := setTw d h k i _ hk hi4

theorem bump (d : Dev) (h : Nat) (p : Page) (off hi lo : Nat) (hlt : off < 0x1000) (hoff : off ≠ Reg.VE_ENC_RC_CFG) :
    ContextStands h d (d.bump p off hi lo) :=
  ⟨by simp, by simp, by simp, by simp, fun _ _ _ _ => by simp [Dev.tw],
    Dev.reg_setRf_other _ _ _ _ _ _ _ _ _ _ hlt (by decide) (fun he => hoff he.2.1.symm)⟩

theorem tf (hs : ContextStands h d d') {k i : Nat} (hk : k < 2) (hi : i < 4) (x y : Nat) :
    d'.tf (vePage h) (ctxAddr h k) i x y = d.tf (vePage h) (ctxAddr h k) i x y := by
  rw [Dev.tf, hs.cfg k i hk hi, Dev.tf]

theorem tb (hs : ContextStands h d d') {k i : Nat} (hk : k < 2) (hi : i < 4) (n : Nat) :
    d'.tb (vePage h) (ctxAddr h k) i n = d.tb (vePage h) (ctxAddr h k) i n := by
  rw [Dev.tb, hs.cfg k i hk hi, Dev.tb]

theorem veng (hs : ContextStands h d d') (e : Nat) : d'.veng e = d.veng e := Dev.veng_congr hs.ves e

theorem item? (hs : ContextStands h d d') (r q : Nat) : d'.item? r q = d.item? r q := Dev.item?_congr (by rw [hs.wk]) r q

theorem freeSlot (hs : ContextStands h d d') : d'.freeSlot h = d.freeSlot h := by
  simp only [Dev.freeSlot, Dev.poolSlots, hs.tf (k := 0) (i := 2) (by decide) (by decide), Dev.slotsInUse, Dev.vctxOf_congr hs.vctx, hs.veng,
    Dev.latchedSlots, Dev.cpUnit, hs.cps]

theorem workGen (hs : ContextStands h d d') : d'.workGen h = d.workGen h := by
  simp only [Dev.workGen, Dev.vctxOf_congr hs.vctx, hs.veng]

theorem pictureUnsupported (hs : ContextStands h d d') (r : ParseResult) : d'.pictureUnsupported h r = d.pictureUnsupported h r := by
  have hw : d'.ctxW h = d.ctxW h := hs.tf (k := 0) (i := 3) (by decide) (by decide) 12 0
  have hh : d'.ctxH h = d.ctxH h := hs.tf (k := 0) (i := 3) (by decide) (by decide) 28 16
  rw [Dev.pictureUnsupported, hw, hh, Dev.pictureUnsupported]

theorem planPicture (hs : ContextStands h d d') (j : VJob) (g : VGen) : d'.planPicture h j g = d.planPicture h j g := by
  simp only [Dev.planPicture, Dev.encGdr, Dev.encIdr, Dev.encLayers, Dev.encPeriod, Dev.encOnDemand, Dev.encPhase,
    hs.tf (k := 1) (i := 2) (by decide) (by decide), hs.tf (k := 1) (i := 3) (by decide) (by decide),
    hs.tb (k := 1) (i := 2) (by decide) (by decide)]
  rfl

end ContextStands

end Sys2Proof.Machine
end

section
/-! Decoding on the engine (R186, R187, R192, R201, R203 to R205): parsing, the frame boundary of a decoded picture, hangs, missing
references and indications. -/

namespace Sys2Proof.Machine

/-! ## Binding -/

/-- What a context's entry shows of a parsed picture (Table 8.8). -/
def Dev.showParsed (d : Dev) (h : Nat) (r : ParseResult) : Dev :=
  (d.setTw (vePage h) (ctxAddr h 2) 0 (word (r.profile.toNat + r.level.toNat * 2 ^ 8 + r.spsId.val * 2 ^ 16))).setTw (vePage h) (ctxAddr h 2) 1
    (word (r.codedW % 2 ^ 13 + r.codedH % 2 ^ 13 * 2 ^ 16))

theorem Dev.showParsed_stands (d : Dev) (h : Nat) (r : ParseResult) : ContextStands h d (d.showParsed h r) :=
  (ContextStands.setTw d h 2 0 _ (by decide) (by decide)).trans (ContextStands.setTw _ h 2 1 _ (by decide) (by decide))

theorem VGen.output_lastPoc (g : VGen) (poc : Int) : (g.output poc).lastPoc = g.lastPoc := by
  unfold VGen.output
  split <;> rfl

/-- An access unit that parses without an error and misses no reference gives a picture in the free slot (R192, R193). -/
theorem Dev.parsePicture_parses {d : Dev} {h sl : Nat} {j : VJob} {r : ParseResult} (hs : j.skip = false)
    (hu : d.pictureUnsupported h r = false) (he : r.syntaxErrors = 0) (hm : r.missing = []) (hf : d.freeSlot h = some sl) :
    ∃ p, d.parsePicture h j r = (d.showParsed h r, p) ∧ p.job = j ∧ p.slot = some sl ∧ p.poc = r.poc ∧ p.fail = 0 ∧ p.gen.lastPoc = r.poc ∧
      p.consumed = r.consumed := by
  have hf' : (d.showParsed h r).freeSlot h = some sl := (d.showParsed_stands h r).freeSlot.trans hf
  rw [Dev.showParsed] at hf'
  unfold Dev.parsePicture
  simp only [hs, he, hm, Dev.syntaxErrors, hu, List.foldl_nil, hf', ne_eq, not_true_eq_false, decide_false, Bool.and_false,
    Bool.false_eq_true, if_false]
  refine ⟨_, rfl, rfl, rfl, rfl, rfl, ?_, rfl⟩
  cases r.output with
  | none => rfl
  | some o => exact VGen.output_lastPoc _ o

/-- The errors of an access unit are counted and raised; the context stands (R197). -/
theorem Dev.syntaxErrors_stands (h : Nat) (hp : kindOf (vePage h) = .ve) (n : Nat) :
    ∀ d : Dev, ContextStands h d (d.syntaxErrors h n) := by
  induction n with
  | zero => exact fun d => .refl h d
  | succ n ih =>
    intro d
    have hdet := Dev.detect_ve ((d.bumpT (vePage h) (ctxAddr h 2) 3 31 0).bump (vePage h) Reg.VE_DEC_CONCEAL 31 16) Evt.VE_SYNTAX_ERR hp
      (by decide) (by decide)
    exact (((ContextStands.bumpT d h 2 3 31 0 1 (by decide) (by decide)).trans
      (ContextStands.bump _ h (vePage h) Reg.VE_DEC_CONCEAL 31 16 (by decide) (by decide))).trans (.of_detected hdet)).trans (ih _)

/-- A picture outside Table 8.1, or one that does not fit its context, fails and is raised (R184, R192). -/
theorem Dev.parsePicture_unsupported {d : Dev} {h : Nat} {j : VJob} {r : ParseResult} (hp : kindOf (vePage h) = .ve) (hs : j.skip = false)
    (hu : d.pictureUnsupported h r = true) :
    ∃ p, d.parsePicture h j r = ((d.syntaxErrors h r.syntaxErrors).detect (vePage h) Evt.VE_UNSUPPORTED, p) ∧ p.fail = Cause.UNSUPPORTED ∧
      p.slot = none := by
  have hu' := ((Dev.syntaxErrors_stands h hp r.syntaxErrors d).pictureUnsupported r).trans hu
  unfold Dev.parsePicture
  simp only [hs, hu', Bool.false_eq_true, if_false, if_true]
  exact ⟨_, rfl, rfl, rfl⟩

theorem Dev.decodeBind_binds {d d' : Dev} {e : Nat} {j : VJob} {r : ParseResult} {p : VPic} (hj : d.canBind e false = some j)
    (hp : d.parsePicture (e * 512 + j.ctx) j r = (d', p)) : d.decodeBind e r = d'.bindPicture e p := by
  unfold Dev.decodeBind
  rw [hj]
  dsimp only
  rw [hp]

/-! ## The front picture leaves -/

/-- The front picture has left its engine and is counted; contexts and items stand. -/
structure PictureLeft (e : Nat) (rest : List VPic) (off : Nat) (d d' : Dev) : Prop where
  bound : (d'.veng e).bound = rest
  vctx : d'.vctx = d.vctx
  wk : d'.wk = d.wk
  count : d'.rf (pg (0x10 + e)) off 31 0 = (d.rf (pg (0x10 + e)) off 31 0 + 1) % 2 ^ 32
  emits : ∀ h, d'.encEmitValid h = d.encEmitValid h

namespace PictureLeft

variable {e off : Nat} {p : VPic} {rest : List VPic} {d d' d'' : Dev}

theorem of_counted (hb : (d.veng e).bound = p :: rest) (hoff : CountsPictures off) (hp : kindOf (pg (0x10 + e)) = .ve) (hs : VideoStands d d') :
    PictureLeft e rest off d ((d'.dropFront e).bump (pg (0x10 + e)) off 31 0) := by
  have hdrop := VideoStands.dropFront d' e
  have hbound : ((d'.dropFront e).veng e).bound = rest := by
    rw [hdrop.veng, Dev.veng_setVeng_same, hs.veng, hb]
    rfl
  refine ⟨(congrArg (·.bound) (Dev.veng_congr (by simp) e)).trans hbound, ?_, ?_, ?_, fun h => ?_⟩
  · exact (by simp : _ = (d'.dropFront e).vctx).trans (hdrop.vctx.trans hs.vctx)
  · exact (by simp : _ = (d'.dropFront e).wk).trans (hdrop.wk.trans hs.wk)
  · rw [Dev.rf_bump_same _ _ _ _ _ _ (by decide), Dev.rf, hdrop.pics _ off hp hoff]
    exact congrArg (fun w => (fld 31 0 w + 1) % 2 ^ 32) (hs.pics _ off hp hoff)
  · exact (Dev.tb_congr (by simp) _ _ _ _).trans ((hdrop.emits h).trans (hs.emits h))

theorem stands (hl : PictureLeft e rest off d d') (hoff : CountsPictures off) (hp : kindOf (pg (0x10 + e)) = .ve) (hs : VideoStands d' d'') :
    PictureLeft e rest off d d'' :=
  ⟨(congrArg (·.bound) (hs.veng e)).trans hl.bound, hs.vctx.trans hl.vctx, hs.wk.trans hl.wk,
    (by rw [Dev.rf, hs.pics _ off hp hoff]; exact hl.count), fun h => (hs.emits h).trans (hl.emits h)⟩

/-- The engine's logs are kept up. -/
theorem logged (hl : PictureLeft e rest off d d') {v : VEng} (hv : v.bound = (d'.veng e).bound) : PictureLeft e rest off d (d'.setVeng e v) :=
  ⟨by rw [Dev.veng_setVeng_same, hv, hl.bound], hl.vctx, hl.wk, hl.count, hl.emits⟩

end PictureLeft

/-- An engine at work ends its front picture, whose job has its item recorded as started or has none. -/
theorem Dev.frameBoundary_ends {d : Dev} {e m : Nat} {p : VPic} {rest : List VPic} (hb : (d.veng e).bound = p :: rest)
    (ha : d.itemActs p.job.item .started = true) (hp : d.isParked (whoVe e) = false) :
    d.frameBoundary e m = if p.job.encode then d.encodeEnd e p m else d.decodeEnd e p := by
  unfold Dev.frameBoundary
  rw [hb]
  dsimp only
  rw [ha, hp]
  cases hj : p.job.item with
  | none => rfl
  | some x =>
    obtain ⟨r, q⟩ := x
    rw [hj, Dev.itemActs] at ha
    cases hi : d.item? r q with
    | none => simp [hi] at ha
    | some i => simp [hi]

/-! ## The frame boundary of a decoded picture -/

/-- A decoded picture is in its slot, has left its engine and is counted, and an indication has gone out for a loss of its own. -/
def Dev.decodeDone (d : Dev) (e : Nat) (p : VPic) : Dev :=
  let h := e * 512 + p.job.ctx
  let page := pg (0x10 + e)
  let d := match p.slot with
    | some s => d.writeSlot h s
    | none => d
  let d := (d.dropFront e).bump page Reg.VE_DEC_PICS 31 0
  let d := if p.flags % 2 = 1 then (d.bump page Reg.VE_DEC_CONCEAL 15 0).bumpT page (ctxAddr h 1) 3 31 0 else d
  let px := chargedPixels (d.tf page (ctxAddr h 2) 1 12 0) (d.tf page (ctxAddr h 2) 1 28 16)
  let d := d.setVeng e { d.veng e with pixDec := logAdd (d.veng e).pixDec d.nowNs 1000000000 px }
  if p.ownLoss then d.sendPli h else d

/-- The generation that the picture's job made becomes current, or is kept with the item, which ends. -/
def Dev.decodeFinish (d : Dev) (e : Nat) (p : VPic) : Dev :=
  let h := e * 512 + p.job.ctx
  match p.job.item with
  | none => d.makeCurrent h p.gen
  | some (r, q) =>
    let d := d.setVctx h { d.vctxOf h with pend := (d.vctxOf h).pend ++ [(p.job.id, p.gen)] }
    match d.item? r q with
    | none => d
    | some i => (d.modItem r q (Item.keeps p.job.id)).finish r q { i.plain i.doneStatus 0 with
        flags := word p.flags, result0 := BitVec.ofNat 64 p.consumed, result1 := BitVec.ofNat 64 0, eres := p.decodeEres }

theorem Dev.decodeDone_left {d : Dev} {e : Nat} {p : VPic} {rest : List VPic} (hb : (d.veng e).bound = p :: rest)
    (hp : kindOf (pg (0x10 + e)) = .ve) : PictureLeft e rest Reg.VE_DEC_PICS d (d.decodeDone e p) := by
  have hoff : CountsPictures Reg.VE_DEC_PICS := .inl rfl
  have hslot : VideoStands d (match p.slot with | some s => d.writeSlot (e * 512 + p.job.ctx) s | none => d) := by
    cases p.slot with
    | none => exact .refl d
    | some s => exact .writeSlot d _ s
  have hconc : ∀ x : Dev, VideoStands x (if p.flags % 2 = 1 then (x.bump (pg (0x10 + e)) Reg.VE_DEC_CONCEAL 15 0).bumpT (pg (0x10 + e))
      (ctxAddr (e * 512 + p.job.ctx) 1) 3 31 0 else x) := fun x =>
    .ite ((VideoStands.bump x _ _ _ _ _ _ (by decide) (.inr (by unfold CountsPictures; decide))).trans
      (.bumpT _ _ _ 3 _ _ _ (by decide) (.inl (by decide)))) (.refl x)
  unfold Dev.decodeDone
  refine PictureLeft.stands ?_ hoff hp (VideoStands.ite (.sendPli _ _) (.refl _))
  exact ((PictureLeft.of_counted hb hoff hp hslot).stands hoff hp (hconc _)).logged rfl

/-- A picture decoded without a destination is not copied. -/
theorem Dev.decodeEnd_uncopied {d : Dev} {e : Nat} {p : VPic} (hf : p.fail = 0) (hs : p.job.skip = false) (hd : p.job.dst = 0) :
    d.decodeEnd e p = (d.decodeDone e p).decodeFinish e p := by
  unfold Dev.decodeEnd
  dsimp only
  rw [if_neg (not_not.mpr hf), if_neg (by simp [hs])]
  cases p.out
  all_goals
    simp only [hd, ne_eq, not_true_eq_false, decide_false, Bool.false_and, Bool.false_eq_true, if_false]
    rfl

theorem Dev.decodeFinish_current {d : Dev} {e : Nat} {p : VPic} (hj : p.job.item = none) :
    d.decodeFinish e p = d.makeCurrent (e * 512 + p.job.ctx) p.gen := by
  unfold Dev.decodeFinish
  rw [hj]

/-- An item's picture: the item ends, and the generation is kept until it is recorded (R97, R186). -/
theorem Dev.decodeFinish_item {d : Dev} {e r q : Nat} {p : VPic} {i : Item} (hj : p.job.item = some (r, q)) (hi : d.item? r q = some i) :
    ∃ k, (d.decodeFinish e p).item? r q = some k ∧ k.pend = some .completed ∧ k.result.status = i.doneStatus ∧
      k.result.result0 = BitVec.ofNat 64 p.consumed ∧ (d.decodeFinish e p).ves = d.ves ∧
      (d.decodeFinish e p).vctxOf (e * 512 + p.job.ctx) = { d.vctxOf (e * 512 + p.job.ctx) with
        pend := (d.vctxOf (e * 512 + p.job.ctx)).pend ++ [(p.job.id, p.gen)] } := by
  generalize hx : d.setVctx (e * 512 + p.job.ctx) { d.vctxOf (e * 512 + p.job.ctx) with
    pend := (d.vctxOf (e * 512 + p.job.ctx)).pend ++ [(p.job.id, p.gen)] } = x
  have hix : x.item? r q = some i := (Dev.item?_congr (by rw [← hx, Dev.setVctx]) r q).trans hi
  obtain ⟨y, hy, hyst, hyr⟩ : ∃ y, d.decodeFinish e p = (x.modItem r q (Item.keeps p.job.id)).finish r q y ∧ y.status = i.doneStatus ∧
      y.result0 = BitVec.ofNat 64 p.consumed := by
    unfold Dev.decodeFinish
    dsimp only
    rw [hj]
    dsimp only
    rw [hx, hix]
    exact ⟨_, rfl, rfl, rfl⟩
  have hitem : (d.decodeFinish e p).item? r q = some ((i.keeps p.job.id).finished y) := by
    rw [hy, Dev.item?_finish, Dev.item?_keeps _ hix]
    rfl
  have hkeeps : (d.decodeFinish e p).ves = x.ves ∧ (d.decodeFinish e p).vctx = x.vctx := by
    rw [hy]
    simp [Dev.finish, Dev.transition]
  refine ⟨_, hitem, rfl, hyst, hyr, ?_, ?_⟩
  · rw [hkeeps.1, ← hx, Dev.setVctx]
  · rw [Dev.vctxOf_congr hkeeps.2, ← hx, Dev.vctxOf_setVctx_same]

/-! ## Missing references and indications -/

/-- The oldest missing reference is popped: its POC is latched, and its context is the read's data (Table 8.7). -/
theorem Dev.refMissPop_pops {d : Dev} {e : Nat} {m : RefMiss} {ms : List RefMiss} (h : (d.veng e).miss = m :: ms) :
    d.refMissPop e = ((d.setVeng e { d.veng e with miss := ms }).setReg (pg (0x10 + e)) Reg.VE_REF_MISS_POC (word (unsigned 32 m.poc))).answer
      (word (m.ctx % 512 + m.lost.toNat * 2 ^ 30 + 2 ^ 31)) := by
  unfold Dev.refMissPop
  dsimp only
  rw [h]

theorem Dev.reg_answer (d : Dev) (w : Word) (p : Page) (o i : Nat) : (d.answer w).reg p o i = d.reg p o i := by simp [Dev.reg]

@[simp] theorem Dev.legX_setLegX_same (d : Dev) (l : Nat) (x : LegX) : (d.setLegX l x).legX l = x := SMap.get_set_same _ _ _ _

theorem Dev.keyReq_legs (d : Dev) (src : Nat) (leg : Option Nat) : (d.keyReq src leg).px.legs = d.px.legs := by
  unfold Dev.keyReq
  cases leg <;> dsimp only <;> split_ifs <;> simp

/-- What an indication of a context needs: firmware runs, the context has a leg without an indication so far, and the encoding that the
leg's source sends refreshes by key pictures (R203). -/
structure PliDue (d : Dev) (h l : Nat) : Prop where
  leg : d.tb (pg (0x10 + h / 512)) (h % 512 * 4 + 3) 0 13 = true
  fw : d.fwRuns = true
  named : l = d.tf (pg (0x10 + h / 512)) (h % 512 * 4 + 3) 0 12 0
  first : (d.legX l).pliAt = none
  keyed : d.pxGdr (d.legSource l * 4 + d.tf (pg (0x10 + h / 512)) (h % 512 * 4 + 3) 0 17 16) = false

theorem Dev.sendPli_asks {d : Dev} {h l : Nat} (hd : PliDue d h l) :
    d.sendPli h = (d.setLegX l { d.legX l with pliAt := some d.nowNs }).keyReq (d.legSource l) (some l) := by
  obtain ⟨hleg, hfw, rfl, hfirst, hkeyed⟩ := hd
  unfold Dev.sendPli
  simp only [hleg, hfw, hfirst, hkeyed, Bool.not_true, Bool.or_self, Bool.false_eq_true, if_false]

/-- The indication leaves as a key request to the leg's source, and its time is kept with the leg. -/
theorem Dev.sendPli_leaves {d : Dev} {h l : Nat} (hd : PliDue d h l) (hg : d.srcGdr (d.legSource l) = false)
    (hk : SMap.get (fun _ => none) d.px.keyAt (d.legSource l) = none) :
    Output.keyRequest (d.legSource l) ∈ (d.sendPli h).out ∧ ((d.sendPli h).legX l).pliAt = some d.nowNs := by
  have hl : l < 8192 := hd.named ▸ fld_lt 12 0 _
  rw [Dev.sendPli_asks hd]
  refine ⟨(Dev.keyReq_first (d.setLegX l { d.legX l with pliAt := some d.nowNs }) l hg hk hl).1, ?_⟩
  rw [Dev.legX, Dev.keyReq_legs, ← Dev.legX, Dev.legX_setLegX_same]

theorem Dev.pliRepeat_sends {d : Dev} {h : Nat} (hv : d.ctxValid h = true) (he : d.ctxEncode h = false)
    (hc : (d.vctxOf h).cur.dpb.any (·.conc) = true) : d.pliRepeat h = d.sendPli h := by
  unfold Dev.pliRepeat
  exact if_neg (by simp [hv, he, hc])

/-! ## The obligation -/

/-- Settles O44: binding by what parsing finds, the frame boundary by `PictureLeft` and the generation that becomes current or is kept, and
each detection, pop and indication by its own rule. -/
theorem decodingOnTheEngine : Obligations.DecodingOnTheEngine := by
  refine ⟨?binds, ?unsupported, ?current, ?item, ?hang, ?pop, ?pli⟩
  case binds =>
    intro s e r j h sl hj hh hs hu he hm hf
    subst hh
    obtain ⟨p, hparse, hjob, hslot, hpoc, hfail, hlast, hcons⟩ := Dev.parsePicture_parses hs hu he hm hf
    have hst := s.dev.showParsed_stands (e.val * 512 + j.ctx) r
    obtain ⟨hbound, hqueue, -⟩ := (s.dev.showParsed (e.val * 512 + j.ctx) r).bindPicture_binds e.val p
    rw [hst.veng] at hbound hqueue
    rw [← Dev.decodeBind_binds hj hparse] at hbound hqueue
    refine ⟨_, p, rfl, hbound, hqueue, hjob, hslot, hpoc, hfail, hlast, hcons, fun n q i hn hi => ?_⟩
    have hstarts := Dev.bindPicture_starts _ e.val (hjob ▸ hn) ((hst.item? n q).trans hi)
    rw [← Dev.decodeBind_binds hj hparse] at hstarts
    exact ⟨_, hstarts, rfl⟩
  case unsupported =>
    intro s e r j hj hctx hs hu
    have hpage : vePage (e.val * 512 + j.ctx) = pg (0x10 + e.val) := vePage_handle rfl hctx
    have hve : kindOf (vePage (e.val * 512 + j.ctx)) = .ve := by rw [hpage, kindOf_engine]
    obtain ⟨p, hparse, hfail, hslot⟩ := Dev.parsePicture_unsupported hve hs hu
    have hdet := Dev.detect_ve (s.dev.syntaxErrors (e.val * 512 + j.ctx) r.syntaxErrors) Evt.VE_UNSUPPORTED hve (by decide) (by decide)
    have hst := (Dev.syntaxErrors_stands _ hve r.syntaxErrors s.dev).trans (ContextStands.of_detected hdet)
    obtain ⟨hbound, -, hpages⟩ := ((s.dev.syntaxErrors (e.val * 512 + j.ctx) r.syntaxErrors).detect (vePage (e.val * 512 + j.ctx))
      Evt.VE_UNSUPPORTED).bindPicture_binds e.val p
    rw [hst.veng] at hbound
    rw [← Dev.decodeBind_binds hj hparse] at hbound hpages
    refine ⟨_, p, rfl, hbound, hfail, hslot, ?_⟩
    rw [← hpage]
    exact raised_of_hdrs (congrArg (·.hdrs) hpages) (hdet.raised (by decide))
  case current =>
    intro s e m h p rest hb hj henc hf hs hd hpk hctx hh
    subst hh
    have hve := kindOf_engine e
    have hleft := Dev.decodeDone_left hb hve
    have hend : s.dev.frameBoundary e.val m = (s.dev.decodeDone e.val p).makeCurrent (e.val * 512 + p.job.ctx) p.gen := by
      rw [Dev.frameBoundary_ends hb (by rw [hj]; rfl) hpk, henc, if_neg (by decide), Dev.decodeEnd_uncopied hf hs hd, Dev.decodeFinish_current hj]
    have hcur := VideoStands.makeCurrent (s.dev.decodeDone e.val p) (e.val * 512 + p.job.ctx) p.gen
    refine ⟨_, rfl, ?_⟩
    dsimp only
    rw [hend]
    refine ⟨?_, Dev.makeCurrent_cur _ _ _, ?_⟩
    · rw [hcur.veng, Dev.veng_setVctx, hleft.bound]
    · rw [Dev.rf, hcur.pics _ _ hve (.inl rfl)]
      exact hleft.count
  case item =>
    intro s e m n q h p rest i hb hj hi hrec hpend henc hf hs hd hpk hh
    subst hh
    have hleft := Dev.decodeDone_left hb (kindOf_engine e)
    have hacts : s.dev.itemActs p.job.item .started = true := by
      rw [hj]
      simp [Dev.itemActs, hi, hrec, hpend]
    have hend : s.dev.frameBoundary e.val m = (s.dev.decodeDone e.val p).decodeFinish e.val p := by
      rw [Dev.frameBoundary_ends hb hacts hpk, henc, if_neg (by decide), Dev.decodeEnd_uncopied hf hs hd]
    obtain ⟨k, hk, hkp, hkst, hkr, hves, hctx⟩ := Dev.decodeFinish_item (e := e.val) hj
      ((Dev.item?_congr (by rw [hleft.wk]) n q).trans hi : (s.dev.decodeDone e.val p).item? n q = some i)
    rw [Dev.vctxOf_congr hleft.vctx] at hctx
    rw [← hend] at hk hves hctx
    exact ⟨_, k, rfl, by rw [Dev.veng_congr hves, hleft.bound], hk, hkp, hkst, hkr, by rw [hctx], by rw [hctx]⟩
  case hang =>
    intro s e hb hpk
    have hdet : s.dev.pixelHang e.val = s.dev.detect (pg (0x10 + e.val)) Evt.VE_PIXEL_HANG := if_neg (by simp [hb, hpk])
    refine ⟨_, rfl, ?_⟩
    dsimp only
    rw [hdet]
    exact (s.dev.detectAt_noted _ Evt.VE_PIXEL_HANG (some 0) false _ (by decide) (by rw [kindOf_engine]; decide) (.inl rfl)).1
  case pop =>
    intro s e m ms hm
    refine ⟨_, rfl, ?_⟩
    dsimp only
    rw [Dev.refMissPop_pops hm]
    generalize hv : { s.dev.veng e.val with miss := ms } = v
    have hveng : ∀ p o i, (s.dev.setVeng e.val v).reg p o i = s.dev.reg p o i := fun p o i => by simp [Dev.reg]
    refine ⟨?_, ?_, rfl, fun p o i ho hne => ?_⟩
    · rw [Dev.veng_congr (d := s.dev.setVeng e.val v) (by simp), Dev.veng_setVeng_same, ← hv]
    · rw [Dev.reg_answer, Dev.reg_setReg_same]
    · rw [Dev.reg_answer, Dev.reg_setReg_other _ _ _ _ _ _ _ _ (by decide) ho hne, hveng]
  case pli =>
    intro s e ctx h l src hh hv henc hc hleg hfw hl hsrc hfirst hkeyed hg hk
    have hdiv : h / 512 = e.val := by omega
    have hmod : h % 512 = ctx.val := by omega
    subst hsrc
    have hdue : PliDue s.dev h l := by
      refine ⟨?_, hfw, ?_, hfirst, ?_⟩
      · rw [hdiv, hmod]
        exact hleg
      · rw [hdiv, hmod]
        exact hl
      · rw [hdiv, hmod]
        exact hkeyed
    have hsend : s.dev.pliRepeat (e.val * 512 + ctx.val) = s.dev.sendPli h := by rw [← hh, Dev.pliRepeat_sends hv henc hc]
    refine ⟨_, rfl, ?_⟩
    dsimp only
    rw [hsend]
    exact Dev.sendPli_leaves hdue hg hk

end Sys2Proof.Machine
end

section
/-! Encoding on the engine (R187, R210, R212, R215, R218, R219): binding, rows, the frame boundary of an encoded picture, and key
requests. -/

namespace Sys2Proof.Machine

/-! ## Binding -/

theorem clampInt_toNat_mem (x : Int) {lo hi : Nat} (h : lo ≤ hi) : lo ≤ (clampInt x lo hi).toNat ∧ (clampInt x lo hi).toNat ≤ hi := by
  unfold clampInt
  split_ifs <;> omega

/-- A destination without room for the least bitstream fails the job and is raised. -/
theorem Dev.encodeBind_full {d : Dev} {e hb least : Nat} {j : VJob} (hj : d.canBind e true = some j) (hl : j.dstSize < least) :
    d.encodeBind e hb least = (d.detect (pg (0x10 + e)) Evt.VE_DST_FULL).bindPicture e
      { VPic.start j (d.workGen (e * 512 + j.ctx)) with fail := Cause.DST_FULL } := by
  unfold Dev.encodeBind
  rw [hj]
  exact if_pos hl

/-- What binding an encode job plans: the slot, the picture's place in its structure, its first QP within the context's bounds, and its
budget (R211 to R215). -/
structure Planned (d : Dev) (h sl hb : Nat) (pl : EncPlan) (p : VPic) : Prop where
  slot : p.slot = some sl
  fail : p.fail = 0
  irap : p.irap = pl.irap
  tid : p.tid = pl.tid
  gen : p.gen = pl.gen
  spent : p.spent = hb
  qpLow : d.encQpMin h ≤ p.qp
  qpHigh : p.qp ≤ d.encQpMax h
  base : p.base = d.encKbps h * 1000 / max (d.encFps h) 1
  budget : p.budget = max (p.base * (if pl.irap then 4 else 1) - (d.workGen h).debt) (p.base * d.rf (vePage h) Reg.VE_ENC_RC_CFG 14 8 / 100)

/-- A context whose refreshes follow their own period absorbs a forced one, which is counted and raised (R218). -/
theorem ContextStands.absorbed (d : Dev) {h : Nat} (hp : kindOf (vePage h) = .ve) (c : Prop) [Decidable c] :
    ContextStands h d (if c then (d.bumpT (vePage h) (ctxAddr h 3) 1 31 0).detect (vePage h) Evt.VE_KEY_ABSORBED else d) := by
  split
  · exact (ContextStands.bumpT d h 3 1 31 0 1 (by decide) (by decide)).trans (.of_detected (Dev.detect_ve _ _ hp (by decide) (by decide)))
  · exact .refl h d

theorem ContextStands.resynced (d : Dev) {h : Nat} (hp : kindOf (vePage h) = .ve) (c : Prop) [Decidable c] :
    ContextStands h d (if c then d.detect (vePage h) Evt.VE_RESYNC_FORCED else d) := by
  split
  · exact .of_detected (Dev.detect_ve _ _ hp (by decide) (by decide))
  · exact .refl h d

theorem Dev.encodeBind_plans {d : Dev} {e h hb least sl : Nat} {j : VJob} (hj : d.canBind e true = some j) (hh : h = e * 512 + j.ctx)
    (hpage : vePage h = pg (0x10 + e)) (hve : kindOf (vePage h) = .ve) (hl : least ≤ j.dstSize) (hf : d.freeSlot h = some sl)
    (hq : d.encQpMin h ≤ d.encQpMax h) :
    ∃ d' p, d.encodeBind e hb least = d'.bindPicture e p ∧ ContextStands h d d' ∧ Planned d h sl hb (d.planPicture h j (d.workGen h)) p := by
  unfold Dev.encodeBind
  rw [hj]
  dsimp only
  rw [← hh, ← hpage, if_neg (Nat.not_lt.mpr hl), hf]
  dsimp only
  have hst := ContextStands.absorbed d hve ((j.forceRefresh && d.encGdr h && !d.encOnDemand h) = true)
  generalize (if (j.forceRefresh && d.encGdr h && !d.encOnDemand h) = true then
    (d.bumpT (vePage h) (ctxAddr h 3) 1 31 0).detect (vePage h) Evt.VE_KEY_ABSORBED else d) = x at hst ⊢
  rw [hst.planPicture]
  have hkbps : x.encKbps h = d.encKbps h := hst.tf (k := 1) (i := 0) (by decide) (by decide) 19 0
  have hfps : x.encFps h = d.encFps h := hst.tf (k := 1) (i := 1) (by decide) (by decide) 6 0
  have hmin : x.encQpMin h = d.encQpMin h := hst.tf (k := 1) (i := 1) (by decide) (by decide) 13 8
  have hmax : x.encQpMax h = d.encQpMax h := hst.tf (k := 1) (i := 1) (by decide) (by decide) 21 16
  have hrc : x.rf (vePage h) Reg.VE_ENC_RC_CFG 14 8 = d.rf (vePage h) Reg.VE_ENC_RC_CFG 14 8 := by rw [Dev.rf, hst.rc, Dev.rf]
  rw [hkbps, hfps, hmin, hmax, hrc]
  refine ⟨_, _, rfl, hst.trans (.resynced x hve _), ?_⟩
  exact { slot := rfl, fail := rfl, irap := rfl, tid := rfl, gen := rfl, spent := rfl, base := rfl, budget := rfl,
          qpLow := (clampInt_toNat_mem _ hq).1, qpHigh := (clampInt_toNat_mem _ hq).2 }

/-! ## Rows -/

theorem Dev.setFront_bound {d d' : Dev} {e : Nat} {p p2 : VPic} {rest : List VPic} (hb : (d.veng e).bound = p :: rest) (hv : d'.ves = d.ves) :
    ((d'.setFront e p2).veng e).bound = p2 :: rest := by
  rw [Dev.setFront, Dev.veng_setVeng_same, Dev.veng_congr hv, hb]
  rfl

/-- The front picture of an engine at work is an encode with rows left, of a job without an item. -/
structure RowDue (d : Dev) (e : Nat) (p : VPic) (rest : List VPic) : Prop where
  bound : (d.veng e).bound = p :: rest
  item : p.job.item = none
  encode : p.job.encode = true
  fail : p.fail = 0
  row : p.row < p.rows
  parked : d.isParked (whoVe e) = false
  running : p.starved = none
  quiet : d.encEmitValid (e * 512 + p.job.ctx) = false

/-- A row that DST has no room for, with what the rows behind it keep, is starved, and every row behind it (R210). -/
theorem Dev.rowEnd_full {d : Dev} {e bits sb bl aft : Nat} {pk : List Nat} {p : VPic} {rest : List VPic} (hd : RowDue d e p rest)
    (ha : aft = d.reserveAfter (e * 512 + p.job.ctx) p.bandAt p.rows p.row) (hfull : p.job.dstSize * 8 < p.spent + bits + aft) :
    ∃ p2, ((d.rowEnd e bits sb bl pk).veng e).bound = p2 :: rest ∧ p2.row = p.row + 1 ∧ p2.spent = p.spent + sb ∧
      p2.starved = some p.row := by
  obtain ⟨hb, hi, henc, hf, hrow, hpk, hrun, hq⟩ := hd
  subst ha
  unfold Dev.rowEnd
  rw [hb]
  simp only [hi, henc, hf, hpk, hrun, hq, hfull, Nat.not_le.mpr hrow, Dev.itemActs, ne_eq, not_true_eq_false, decide_false, decide_true,
    Bool.not_true, Bool.or_self, Bool.false_and, Bool.false_eq_true, if_false, if_true, Option.isNone_none, Option.isSome_some, Bool.and_self,
    Bool.true_or]
  refine ⟨_, Dev.setFront_bound hb ?_, rfl, rfl, rfl⟩
  simp only [Dev.setRf_keeps]

/-- A row that has room is written as it is coded; at the cap the rows behind it are starved, below it the QP follows the plan within the
context's bounds (R215). -/
theorem Dev.rowEnd_room {d : Dev} {e bits sb bl aft : Nat} {pk : List Nat} {p : VPic} {rest : List VPic} (hd : RowDue d e p rest)
    (ha : aft = d.reserveAfter (e * 512 + p.job.ctx) p.bandAt p.rows p.row) (hroom : p.spent + bits + aft ≤ p.job.dstSize * 8)
    (hlast : p.row + 1 < p.rows) (hqp : d.encQpMin (e * 512 + p.job.ctx) ≤ d.encQpMax (e * 512 + p.job.ctx)) :
    ∃ p2, ((d.rowEnd e bits sb bl pk).veng e).bound = p2 :: rest ∧ p2.row = p.row + 1 ∧ p2.spent = p.spent + bits ∧
      p2.rowBits = p.rowBits ++ [bits] ∧ (p.cap ≤ p.spent + bits + aft → p2.starved = some (p.row + 1)) ∧
      (p.spent + bits + aft < p.cap → p2.starved = none ∧ d.encQpMin (e * 512 + p.job.ctx) ≤ p2.qp ∧
        p2.qp ≤ d.encQpMax (e * 512 + p.job.ctx)) := by
  obtain ⟨hb, hi, henc, hf, hrow, hpk, hrun, hq⟩ := hd
  subst ha
  unfold Dev.rowEnd
  rw [hb]
  simp only [hi, henc, hf, hpk, hrun, hq, Nat.not_lt.mpr hroom, Nat.not_le.mpr hrow, Nat.ne_of_lt hlast, Dev.itemActs, ne_eq, not_true_eq_false,
    decide_false, Bool.not_true, Bool.or_self, Bool.false_and, Bool.false_eq_true, if_false, Option.isNone_none, Option.isSome_none,
    Bool.and_false]
  refine ⟨_, Dev.setFront_bound hb ?_, ?_⟩
  · simp only [Dev.setRf_keeps]
  · split
    · next hcap => exact ⟨rfl, rfl, rfl, fun _ => rfl, fun h => absurd h (Nat.not_lt.mpr hcap)⟩
    · next hcap => exact ⟨rfl, rfl, rfl, fun h => absurd h hcap, fun _ => ⟨rfl, clampInt_toNat_mem _ hqp⟩⟩

/-! ## The frame boundary of an encoded picture -/

/-- A starved picture is counted and raised, and a run of four or more raised again (R221). -/
def Dev.noteStarved (d : Dev) (e h run : Nat) : Dev :=
  let page := pg (0x10 + e)
  let d := ((d.bump page Reg.VE_ENC_STARVED 15 0).bumpT page (ctxAddr h 3) 2 31 0).detect page Evt.VE_STARVED
  let d := if run = 4 then d.bump page Reg.VE_ENC_STARVED 31 16 else d
  if 4 ≤ run then d.detect page Evt.VE_RC_STARVE_RUN else d

theorem VideoStands.noteStarved (d : Dev) {e : Nat} (h run : Nat) (hp : kindOf (pg (0x10 + e)) = .ve) : VideoStands d (d.noteStarved e h run) := by
  have hbump : ∀ (x : Dev) (hi lo : Nat), VideoStands x (x.bump (pg (0x10 + e)) Reg.VE_ENC_STARVED hi lo) := fun x hi lo =>
    .bump x _ _ hi lo 1 0 (by decide) (.inr (by unfold CountsPictures; decide))
  have hdet : ∀ (x : Dev) (src : Nat), src < 32 → src ≠ Evt.VE_PIXEL_HANG → VideoStands x (x.detect (pg (0x10 + e)) src) := fun x src hs hn =>
    .of_detected (Dev.detect_ve x src hp hs hn)
  unfold Dev.noteStarved
  exact (((hbump d 15 0).trans (.bumpT _ _ _ 2 31 0 1 (by decide) (.inl (by decide)))).trans (hdet _ _ (by decide) (by decide))).trans
    ((VideoStands.ite (hbump _ 31 16) (.refl _)).trans (.ite (hdet _ _ (by decide) (by decide)) (.refl _)))

/-- An encoded picture is in its slot, has left its engine and is counted, starved or not. -/
def Dev.encodeDone (d : Dev) (e : Nat) (p : VPic) (refBytes : Nat) : Dev :=
  let h := e * 512 + p.job.ctx
  let page := pg (0x10 + e)
  let d := (d.codedBytes (min (ceilDiv p.spent 8) p.job.dstSize)).1
  let d := match p.slot with
    | some s => d.writeSlot h s
    | none => d
  let d := (d.dropFront e).bump page Reg.VE_ENC_PICS 31 0
  let d := if p.starved.isSome && !p.job.skip then d.noteStarved e h (if p.starved.isSome then p.gen.run + 1 else 0) else d
  d.setVeng e { d.veng e with pixEnc := logAdd (d.veng e).pixEnc d.nowNs 1000000000 (chargedPixels (d.ctxW h) (d.ctxH h)),
                              refBytes := logAdd (d.veng e).refBytes d.nowNs 1000000 refBytes }

theorem Dev.encodeDone_left {d : Dev} {e : Nat} {p : VPic} {rest : List VPic} (m : Nat) (hb : (d.veng e).bound = p :: rest)
    (hp : kindOf (pg (0x10 + e)) = .ve) : PictureLeft e rest Reg.VE_ENC_PICS d (d.encodeDone e p m) := by
  have hoff : CountsPictures Reg.VE_ENC_PICS := .inr rfl
  have hdrawn : VideoStands d d.drawn := .of_pages rfl rfl rfl rfl rfl
  have hslot : VideoStands d (match p.slot with | some s => d.drawn.writeSlot (e * 512 + p.job.ctx) s | none => d.drawn) := by
    cases p.slot with
    | none => exact hdrawn
    | some s => exact hdrawn.trans (.writeSlot _ _ s)
  unfold Dev.encodeDone
  exact ((PictureLeft.of_counted hb hoff hp hslot).stands hoff hp (VideoStands.ite (.noteStarved _ _ _ hp) (.refl _))).logged rfl

/-- The generation after an encoded picture (R215, R221): the picture joins the DPB, of which the newest `refs` stay, and DEBT goes on. -/
def VPic.encodedGen (p : VPic) (refs : Nat) : VGen :=
  let run := if p.starved.isSome then p.gen.run + 1 else 0
  let meanQp := if p.coded = 0 then p.qp else (p.qpSum + p.coded / 2) / p.coded
  let hist : RcHist := { bits := p.spent, budget := p.budget, qp := meanQp, rowBits := p.rowBits }
  let pic : DpbPic := { poc := p.poc, slot := p.slot, tid := p.tid, conc := false, subst := false, waiting := false }
  let keep := if p.irap then [] else p.gen.dpb
  { p.gen with dpb := (keep ++ [pic]).drop ((keep.length + 1) - refs), lastPoc := p.poc, outSlot := p.slot,
               outSerial := p.gen.outSerial + 1, debt := p.gen.debt + p.spent - p.base, run := run, meanQp := meanQp,
               histI := if p.irap then some hist else p.gen.histI, histP := if p.irap then p.gen.histP else some hist,
               resync := p.gen.resync && p.flags / 128 % 2 = 0 }

/-- A picture of a context that hands over whole pictures goes to PX (R219). -/
def Dev.handWhole (d : Dev) (e : Nat) (p : VPic) : Dev :=
  let h := e * 512 + p.job.ctx
  if d.encEmitValid h && !d.encSliceEmit h && !p.job.noEmit then
    d.handOver { source := d.encSource h, enc := d.encEnc h, stamp := p.job.stamp, tid := p.tid, ptype := p.ptype, switchPt := p.switchPt,
                 first := true, last := true, packets := [ceilDiv p.spent 8] }
  else d

theorem Dev.handWhole_quiet {d : Dev} {e : Nat} {p : VPic} (h : d.encEmitValid (e * 512 + p.job.ctx) = false) : d.handWhole e p = d :=
  if_neg (by simp [h])

/-- A picture encoded for a job without an item: the generation that its job made becomes current. -/
theorem Dev.encodeEnd_done {d : Dev} {e m : Nat} {p : VPic} (hf : p.fail = 0) (hr : p.rows ≤ p.row) (hj : p.job.item = none) :
    ∃ refs, d.encodeEnd e p m = ((d.encodeDone e p m).makeCurrent (e * 512 + p.job.ctx) (p.encodedGen refs)).handWhole e p := by
  unfold Dev.encodeEnd
  dsimp only
  rw [if_neg (not_not.mpr hf), if_neg (Nat.not_lt.mpr hr), hj]
  exact ⟨_, rfl⟩

/-! ## Key requests -/

theorem Dev.keyRequestAt_key {d : Dev} {h : Nat} (hv : d.ctxValid h = true) (he : d.ctxEncode h = true) (hg : d.encGdr h = false) :
    d.keyRequestAt h = d.setVctx h { d.vctxOf h with
      cur := { (d.vctxOf h).cur with keyPend := true },
      pend := (d.vctxOf h).pend.map (fun x => (x.1, { x.2 with keyPend := true })) } := by
  unfold Dev.keyRequestAt
  rw [if_neg (by simp [hv, he])]
  exact if_pos (by simp [hg])

theorem Dev.keyRequestAt_refresh {d : Dev} {h : Nat} (hv : d.ctxValid h = true) (he : d.ctxEncode h = true) (hg : d.encGdr h = true)
    (ho : d.encOnDemand h = true) : d.keyRequestAt h = (d.setVctx h { d.vctxOf h with
      cur := { (d.vctxOf h).cur with refreshPend := true },
      pend := (d.vctxOf h).pend.map (fun x => (x.1, { x.2 with refreshPend := true })) }).showCtx h := by
  unfold Dev.keyRequestAt
  rw [if_neg (by simp [hv, he])]
  exact (if_neg (by simp [hg])).trans (if_pos ho)

theorem Dev.keyRequestAt_absorbed {d : Dev} {h : Nat} (hv : d.ctxValid h = true) (he : d.ctxEncode h = true) (hg : d.encGdr h = true)
    (ho : d.encOnDemand h = false) :
    d.keyRequestAt h = (d.bumpT (vePage h) (ctxAddr h 3) 1 31 0).detect (vePage h) Evt.VE_KEY_ABSORBED := by
  unfold Dev.keyRequestAt
  rw [if_neg (by simp [hv, he])]
  exact (if_neg (by simp [hg])).trans (if_neg (by simp [ho]))

/-! ## The obligation -/

/-- Settles O45: binding by what is planned (`Planned`), rows by their room, the frame boundary by `PictureLeft` and the generation that
becomes current, and a key request by the context's refreshes. -/
theorem encodingOnTheEngine : Obligations.EncodingOnTheEngine := by
  refine ⟨?binds, ?full, ?room, ?starved, ?boundary, ?key⟩
  case binds =>
    intro s e hb least h sl j pl hj hh hctx hl hf hpl hq
    have hpage : vePage h = pg (0x10 + e.val) := vePage_handle hh hctx
    obtain ⟨d', p, hbind, hst, hp⟩ := Dev.encodeBind_plans (hb := hb) hj hh hpage (by rw [hpage, kindOf_engine]) hl hf hq
    obtain ⟨hbound, hqueue, -⟩ := d'.bindPicture_binds e.val p
    rw [hst.veng, ← hbind] at hbound hqueue
    rw [← hpl] at hp
    exact ⟨_, p, rfl, hbound, hqueue, hp.slot, hp.fail, hp.irap, hp.tid, hp.gen, hp.spent, hp.qpLow, hp.qpHigh, hp.base, hpage ▸ hp.budget⟩
  case full =>
    intro s e hb least j hj hl
    have hdet := s.dev.detect_ve Evt.VE_DST_FULL (kindOf_engine e) (by decide) (by decide)
    obtain ⟨hbound, -, hpages⟩ := (s.dev.detect (pg (0x10 + e.val)) Evt.VE_DST_FULL).bindPicture_binds e.val
      { VPic.start j (s.dev.workGen (e.val * 512 + j.ctx)) with fail := Cause.DST_FULL }
    rw [(VideoStands.of_detected hdet).veng] at hbound
    rw [← Dev.encodeBind_full (hb := hb) hj hl] at hbound hpages
    exact ⟨_, _, rfl, hbound, rfl, raised_of_hdrs (congrArg (·.hdrs) hpages) (hdet.raised (by decide))⟩
  case room =>
    intro s e bits sb bl h aft pk p rest hb hh hctx hi henc hf hrow hpk hrun ha hroom hq hqp
    subst hh
    obtain ⟨p2, hbound, hp2⟩ := Dev.rowEnd_room (sb := sb) (bl := bl) (pk := pk) ⟨hb, hi, henc, hf, Nat.lt_of_succ_lt hrow, hpk, hrun, hq⟩ ha
      hroom hrow hqp
    exact ⟨_, p2, rfl, hbound, hp2⟩
  case starved =>
    intro s e bits sb bl h aft pk p rest hb hh hi henc hf hrow hpk hrun ha hfull hq
    subst hh
    obtain ⟨p2, hbound, hp2⟩ := Dev.rowEnd_full (sb := sb) (bl := bl) (pk := pk) ⟨hb, hi, henc, hf, hrow, hpk, hrun, hq⟩ ha hfull
    exact ⟨_, p2, rfl, hbound, hp2⟩
  case boundary =>
    intro s e m h p rest hb hj henc hf hr hpk hh hctx hq
    subst hh
    have hve := kindOf_engine e
    have hleft := Dev.encodeDone_left m hb hve
    obtain ⟨refs, hend⟩ := Dev.encodeEnd_done (d := s.dev) (e := e.val) (m := m) hf hr hj
    have hcur := VideoStands.makeCurrent (s.dev.encodeDone e.val p m) (e.val * 512 + p.job.ctx) (p.encodedGen refs)
    rw [Dev.handWhole_quiet ((hcur.emits _).trans ((hleft.emits _).trans hq))] at hend
    have hframe : s.dev.frameBoundary e.val m = (s.dev.encodeDone e.val p m).makeCurrent (e.val * 512 + p.job.ctx) (p.encodedGen refs) := by
      rw [Dev.frameBoundary_ends hb (by rw [hj]; rfl) hpk, henc, if_pos rfl, hend]
    refine ⟨_, rfl, ?_⟩
    dsimp only
    rw [hframe, Dev.makeCurrent_cur]
    refine ⟨?_, rfl, rfl, rfl, ?_⟩
    · rw [hcur.veng, Dev.veng_setVctx, hleft.bound]
    · rw [Dev.rf, hcur.pics _ _ hve (.inr rfl)]
      exact hleft.count
  case key =>
    intro s e ctx h hh hv henc
    refine ⟨_, rfl, fun hg => ?_, fun hg ho => ?_, fun hg ho => ?_⟩
    · dsimp only
      rw [← hh, Dev.keyRequestAt_key hv henc hg, Dev.vctxOf_setVctx_same]
      refine ⟨rfl, fun x hx => ?_⟩
      obtain ⟨y, -, rfl⟩ := List.mem_map.mp hx
      rfl
    · dsimp only
      rw [← hh, Dev.keyRequestAt_refresh hv henc hg ho, (VideoStands.showCtx _ h).vctxOf, Dev.vctxOf_setVctx_same]
    · have hpage : vePage h = pg (0x10 + e.val) := vePage_handle hh ctx.isLt
      have hve : kindOf (vePage h) = .ve := by rw [hpage, kindOf_engine]
      have hdet := (s.dev.bumpT (vePage h) (ctxAddr h 3) 1 31 0).detect_ve Evt.VE_KEY_ABSORBED hve (by decide) (by decide)
      dsimp only
      rw [← hh, Dev.keyRequestAt_absorbed hv henc hg ho, ← hpage]
      exact ⟨hdet.raised (by decide), (VideoStands.of_detected hdet).vctx.trans (by simp)⟩

end Sys2Proof.Machine
end

section
/-! Compositors (chapter 10): their event sources, and what the operations beside them leave of frames, outputs, items and counts. -/

namespace Sys2Proof.Machine

theorem kindOf_cpPage (c : Compositor) : kindOf (cpPage c.val) = .cp := by
  revert c
  decide

/-- Every source of a compositor but its hang neither retires the compositor nor resets it. -/
theorem evDesc_cp : ∀ src < 32, src ≠ Evt.CP_BLEND_HANG → (evDesc .cp src).act ≠ .retire ∧ (evDesc .cp src).hang = false := by decide

theorem Dev.detect_cp (d : Dev) {p : Page} (src : Nat) (hp : kindOf p = .cp) (hs : src < 32) (hn : src ≠ Evt.CP_BLEND_HANG) :
    Detected d (d.detect p src) p src := by
  obtain ⟨ha, hh⟩ := evDesc_cp src hs hn
  exact d.detect_detected p src (by rw [hp]; decide) (by rw [hp]; exact ha) (by rw [hp]; exact hh)

/-! ## Units and outputs -/

@[simp] theorem Dev.cpUnit_setCpUnit_same (d : Dev) (c : Nat) (u : CpUnit) : (d.setCpUnit c u).cpUnit c = u := SMap.get_set_same _ _ _ _

theorem Dev.cpUnit_congr {d d' : Dev} (h : d'.cps = d.cps) (c : Nat) : d'.cpUnit c = d.cpUnit c := by rw [Dev.cpUnit, h, Dev.cpUnit]

theorem Dev.cpOut_congr {d d' : Dev} {c : Nat} (h : (d'.cpUnit c).outs = (d.cpUnit c).outs) (o : Nat) : d'.cpOut c o = d.cpOut c o := by
  rw [Dev.cpOut, h, Dev.cpOut]

theorem Dev.frames_setCpOut (d : Dev) (c o : Nat) (x : CpOut) : ((d.setCpOut c o x).cpUnit c).frames = (d.cpUnit c).frames := by
  rw [Dev.setCpOut, Dev.cpUnit_setCpUnit_same]

theorem Dev.cpOut_setCpOut (d : Dev) (c o k : Nat) (x : CpOut) :
    (d.setCpOut c o x).cpOut c k = if k = o then x else d.cpOut c k := by
  rw [Dev.cpOut, Dev.setCpOut, Dev.cpUnit_setCpUnit_same, SMap.get_set, Dev.cpOut]

theorem Dev.cpOut_setCpOut_same (d : Dev) (c o : Nat) (x : CpOut) : (d.setCpOut c o x).cpOut c o = x := by
  rw [Dev.cpOut_setCpOut, if_pos rfl]

/-- An output but for what its layers show. -/
def CpOut.beside (x : CpOut) : CpOut := { x with layers := [] }

/-! ## What stands -/

/-- The frames in progress, the outputs but for their layers, the items and the count of frames published stand. -/
structure FramesStand (c : Nat) (d d' : Dev) : Prop where
  frames : (d'.cpUnit c).frames = (d.cpUnit c).frames
  outs : ∀ o, (d'.cpOut c o).beside = (d.cpOut c o).beside
  wk : d'.wk = d.wk
  count : d'.reg (cpPage c) Reg.CP_FRAMES = d.reg (cpPage c) Reg.CP_FRAMES

/-- The energy ledger stands too, and what the compositor had raised. -/
structure CompositorStands (c : Nat) (d d' : Dev) : Prop extends FramesStand c d d' where
  en : d'.en = d.en
  raised : ∀ x, Machine.raised d (cpPage c) x → Machine.raised d' (cpPage c) x

namespace FramesStand

variable {c : Nat} {d e d' : Dev}

theorem refl (c : Nat) (d : Dev) : FramesStand c d d := ⟨rfl, fun _ => rfl, rfl, rfl⟩

theorem trans (h : FramesStand c d e) (h' : FramesStand c e d') : FramesStand c d d' :=
  ⟨h'.frames.trans h.frames, fun o => (h'.outs o).trans (h.outs o), h'.wk.trans h.wk, h'.count.trans h.count⟩

theorem of_cps (hc : d'.cps = d.cps) (hw : d'.wk = d.wk) (hr : d'.reg (cpPage c) Reg.CP_FRAMES = d.reg (cpPage c) Reg.CP_FRAMES) :
    FramesStand c d d' :=
  ⟨by rw [Dev.cpUnit_congr hc], fun o => congrArg CpOut.beside (Dev.cpOut_congr (by rw [Dev.cpUnit_congr hc]) o), hw, hr⟩

/-- A register other than the count of frames published. -/
theorem setReg (c : Nat) (d : Dev) (p : Page) (off i : Nat) (w : Word) (hoff : off < 0x1000) (h : p ≠ cpPage c ∨ off ≠ Reg.CP_FRAMES) :
    FramesStand c d (d.setReg p off w i) := by
  refine of_cps (by simp) (by simp) (Dev.reg_setReg_other _ _ _ _ _ _ _ _ hoff (by decide) ?_)
  rintro ⟨rfl, rfl, -⟩
  exact h.elim (fun hp => hp rfl) (fun ho => ho rfl)

theorem published (h : FramesStand c d d') (o : Nat) : (d'.cpOut c o).published = (d.cpOut c o).published :=
  (congrArg CpOut.published (h.outs o) :)

theorem pubBase (h : FramesStand c d d') (o : Nat) : (d'.cpOut c o).pubBase = (d.cpOut c o).pubBase := (congrArg CpOut.pubBase (h.outs o) :)

theorem reqs (h : FramesStand c d d') (o : Nat) : (d'.cpOut c o).reqs = (d.cpOut c o).reqs := (congrArg CpOut.reqs (h.outs o) :)

theorem item? (h : FramesStand c d d') (r q : Nat) : d'.item? r q = d.item? r q := Dev.item?_congr (by rw [h.wk]) r q

end FramesStand

namespace CompositorStands

variable {c : Nat} {d e d' : Dev}

theorem refl (c : Nat) (d : Dev) : CompositorStands c d d := ⟨.refl c d, rfl, fun _ h => h⟩

theorem trans (h : CompositorStands c d e) (h' : CompositorStands c e d') : CompositorStands c d d' :=
  ⟨h.toFramesStand.trans h'.toFramesStand, h'.en.trans h.en, fun x hx => h'.raised x (h.raised x hx)⟩

theorem ite {p : Prop} [Decidable p] (h : CompositorStands c d e) (h' : CompositorStands c d d') : CompositorStands c d (if p then e else d') := by
  split
  · exact h
  · exact h'

/-- A change beside headers and ledger, of which the frames take no note. -/
theorem of_frames (h : FramesStand c d d') (he : d'.en = d.en) (hh : d'.pages.hdrs = d.pages.hdrs) : CompositorStands c d d' :=
  ⟨h, he, fun _ hx => raised_of_hdrs hh hx⟩

theorem setReg (c : Nat) (d : Dev) (p : Page) (off i : Nat) (w : Word) (hoff : off < 0x1000) (h : p ≠ cpPage c ∨ off ≠ Reg.CP_FRAMES) :
    CompositorStands c d (d.setReg p off w i) :=
  of_frames (.setReg c d p off i w hoff h) (by simp) (by simp)

/-- A counter other than that of the frames published. -/
theorem bump (c : Nat) (d : Dev) (p : Page) (off hi lo : Nat) (hoff : off < 0x1000) (h : off ≠ Reg.CP_FRAMES) :
    CompositorStands c d (d.bump p off hi lo) := setReg c d p off 0 _ hoff (.inr h)

theorem setTw (c : Nat) (d : Dev) (p : Page) (a i : Nat) (w : Word) : CompositorStands c d (d.setTw p a i w) :=
  of_frames (.of_cps (by simp) (by simp) (by simp [Dev.reg])) (by simp) (by simp)

theorem bumpT (c : Nat) (d : Dev) (p : Page) (a i hi lo : Nat) : CompositorStands c d (d.bumpT p a i hi lo) := setTw c d p a i _

/-- A detection on any page adds to what is raised. -/
theorem of_detected {p : Page} {src : Nat} (h : Detected d d' p src) (hs : src < 32) : CompositorStands c d d' := by
  have hraised : ∀ x, Machine.raised d (cpPage c) x → Machine.raised d' (cpPage c) x := by
    intro x hx
    by_cases hp : cpPage c = p
    · obtain ⟨st, lo, hi, l, y, cs, -, he⟩ := h.hdr
      rw [hp] at hx ⊢
      unfold Machine.raised
      rw [he]
      exact bit_putBit_true src x _ hs hx
    · unfold Machine.raised
      rw [h.others _ hp]
      exact hx
  obtain ⟨hs, o, pd, rfl⟩ := h.rest
  exact ⟨⟨rfl, fun _ => rfl, rfl, rfl⟩, rfl, hraised⟩

theorem detect_cp (d : Dev) (hp : kindOf (cpPage c) = .cp) (src : Nat) (hs : src < 32) (hn : src ≠ Evt.CP_BLEND_HANG) :
    CompositorStands c d (d.detect (cpPage c) src) := of_detected (d.detect_cp src hp hs hn) hs

/-- The compositor's reports and logs. -/
theorem setCpUnit (c : Nat) (d : Dev) (u : CpUnit) (hf : u.frames = (d.cpUnit c).frames) (ho : u.outs = (d.cpUnit c).outs) :
    CompositorStands c d (d.setCpUnit c u) :=
  of_frames ⟨by rw [Dev.cpUnit_setCpUnit_same, hf], fun o => congrArg CpOut.beside
    (Dev.cpOut_congr (by rw [Dev.cpUnit_setCpUnit_same, ho]) o), rfl, rfl⟩ rfl rfl

/-- What the layers of an output show. -/
theorem setLayers (c : Nat) (d : Dev) (o : Nat) (l : SMap CpLayer) :
    CompositorStands c d (d.setCpOut c o { d.cpOut c o with layers := l }) := by
  refine of_frames ⟨d.frames_setCpOut c o _, fun k => ?_, rfl, rfl⟩ rfl rfl
  rw [Dev.cpOut_setCpOut]
  split
  · next hk => rw [hk]; rfl
  · rfl

end CompositorStands

/-! ## Memory -/

/-- A byte of DRAM is stored in the memories alone. -/
theorem Dev.setDramByte_ram (d : Dev) (a : Nat) (b : Byte) : ∃ r, d.setDramByte a b = { d with ram := r } := by
  unfold Dev.setDramByte
  dsimp only
  split_ifs
  all_goals exact ⟨_, rfl⟩

theorem Dev.setPhysByte_ram (d : Dev) (a : Nat) (b : Byte) : ∃ r, d.setPhysByte a b = { d with ram := r } := by
  unfold Dev.setPhysByte
  split
  · exact d.setDramByte_ram a b
  all_goals exact ⟨_, rfl⟩

theorem Dev.putBytes_ram (bs : List Byte) : ∀ (d : Dev) (a : Nat), ∃ r, d.putBytes a bs = { d with ram := r } := by
  induction bs with
  | nil => exact fun d _ => ⟨_, rfl⟩
  | cons b bs ih =>
    intro d a
    obtain ⟨r, hr⟩ := d.setPhysByte_ram a b
    obtain ⟨r', hr'⟩ := ih (d.setPhysByte a b) (a + 1)
    exact ⟨r', by rw [Dev.putBytes, hr', hr]⟩

namespace CompositorStands

theorem putBytes (c : Nat) (d : Dev) (a : Nat) (bs : List Byte) : CompositorStands c d (d.putBytes a bs) := by
  obtain ⟨r, hr⟩ := d.putBytes_ram bs a
  rw [hr]
  exact ⟨⟨rfl, fun _ => rfl, rfl, rfl⟩, rfl, fun _ h => h⟩

theorem noteRow (c : Nat) (d : Dev) (g n : Nat) (u : BitVec 8) : CompositorStands c d (d.noteRow g n u) := by
  have hset : ∀ x, CompositorStands c d (d.setGrp g x) := fun x => ⟨⟨rfl, fun _ => rfl, rfl, rfl⟩, rfl, fun _ h => h⟩
  unfold Dev.noteRow
  exact .ite (hset _) (.ite ((hset _).trans (bump c _ _ _ _ _ (by decide) (by decide))) (hset _))

theorem noteRows (c : Nat) (d : Dev) (a len : Nat) : CompositorStands c d (d.noteRows a len) := by
  unfold Dev.noteRows
  exact .ite (.refl c d) (foldl_keeps (CompositorStands c d) _ (fun e _ h => h.trans (noteRow c e _ _ _)) _ d (.refl c d))

/-- An access outside the map is a matter of FB's page. -/
theorem hole (c : Nat) (d : Dev) (a : Nat) (who : Option Nat) : CompositorStands c d (d.hole a who) := by
  obtain ⟨e, n, he, hd⟩ := d.hole_cases a who
  have hde : CompositorStands c d e := by
    obtain rfl | rfl := hd
    · exact .refl c _
    · exact ⟨⟨rfl, fun _ => rfl, rfl, rfl⟩, rfl, fun _ h => h⟩
  have hset : ∀ (x : Dev) off w, off < 0x1000 → off ≠ Reg.CP_FRAMES → CompositorStands c x (x.setReg Pg.fb off w) :=
    fun x off w hoff ho => setReg c x Pg.fb off 0 w hoff (.inr ho)
  rw [he]
  exact ((hde.trans (hset _ _ _ (by decide) (by decide))).trans (hset _ _ _ (by decide) (by decide))).trans
    (of_detected (Dev.detect_detected _ Pg.fb _ (by decide) (by decide) (by decide)) (by decide))

theorem physWrite (c : Nat) (d : Dev) (a : Nat) (bs : List Byte) (who : Option Nat) : CompositorStands c d (d.physWrite a bs who).1 := by
  unfold Dev.physWrite
  split
  · split
    · exact ⟨⟨rfl, fun _ => rfl, rfl, rfl⟩, rfl, fun _ h => h⟩
    · exact hole c d a who
  · exact .refl c d
  · exact .ite ((putBytes c d a bs).trans (noteRows c _ _ _)) (putBytes c d a bs)

end CompositorStands

end Sys2Proof.Machine
end

section
/-! Opening a frame (R227, R228, R238, R241). -/

namespace Sys2Proof.Machine

/-- What judging a frame's layers leaves of it: its output, its item, its slot and its reservation. -/
def CpFrame.opening (f : CpFrame) : Nat × Option (Nat × Nat) × Nat × Nat := (f.out, f.item, f.slot, f.uj)

/-- Judging a layer changes what it shows, its counts and reports, and the frame's sources and masks. -/
theorem Dev.judgeLayer_stands (d : Dev) {c : Nat} (hp : kindOf (cpPage c) = .cp) (f : CpFrame) (l : Nat) :
    CompositorStands c d (d.judgeLayer c f l).1 ∧ (d.judgeLayer c f l).2.opening = f.opening := by
  have hlay : ∀ (e : Dev) (y : CpLayer), CompositorStands c e (e.setCpOut c f.out { e.cpOut c f.out with
      layers := SMap.set (fun _ => CpLayer.reset) (e.cpOut c f.out).layers l y }) := fun e y => .setLayers c e f.out _
  have htf : ∀ (e : Dev) i hi lo v, CompositorStands c e (e.setTf (cpPage c) (0x4000 + f.out * 32 + l) i hi lo v) :=
    fun e i hi lo v => .setTw c e _ _ _ _
  have hlate : CompositorStands c d (((d.bump (cpPage c) Reg.CP_LATE_CNT 15 0).bumpT (cpPage c) (0x4000 + f.out * 32 + l) 1 31 0).detect
      (cpPage c) Evt.CP_LAYER_LATE) :=
    ((CompositorStands.bump c d _ Reg.CP_LATE_CNT 15 0 (by decide) (by decide)).trans (.bumpT c _ _ _ _ _ _)).trans
      (.detect_cp _ hp Evt.CP_LAYER_LATE (by decide) (by decide))
  have hstale : ∀ (e : Dev) st, CompositorStands c e (((e.setCpUnit c { e.cpUnit c with stale := st }).bump (cpPage c) Reg.CP_LATE_CNT 31 16).detect
      (cpPage c) Evt.CP_LAYER_STALE) := fun e st =>
    ((CompositorStands.setCpUnit c e { e.cpUnit c with stale := st } rfl rfl).trans (.bump c _ _ Reg.CP_LATE_CNT 31 16 (by decide) (by decide))).trans
      (.detect_cp _ hp Evt.CP_LAYER_STALE (by decide) (by decide))
  unfold Dev.judgeLayer
  dsimp only
  split_ifs
  · exact ⟨.refl c d, rfl⟩
  · exact ⟨(hlay d _).trans ((htf _ _ _ _ _).trans (.setTw c _ _ _ _ _)), rfl⟩
  · exact ⟨hlay d _, rfl⟩
  · exact ⟨hlate.trans ((htf _ _ _ _ _).trans (hlay _ _)), rfl⟩
  · exact ⟨hlate.trans ((htf _ _ _ _ _).trans (hlay _ _)), rfl⟩
  · exact ⟨hlate.trans ((htf _ _ _ _ _).trans ((hlay _ _).trans (hstale _ _))), rfl⟩

/-- The layers of a frame that opens, judged in ascending order. -/
def Dev.judgeLayers (d : Dev) (c : Nat) (f : CpFrame) : Dev × CpFrame :=
  (List.range 16).foldl (fun (y : Dev × CpFrame) l => y.1.judgeLayer c y.2 l) (d, f)

theorem Dev.judgeLayers_stands (d : Dev) {c : Nat} (hp : kindOf (cpPage c) = .cp) (f : CpFrame) :
    CompositorStands c d (d.judgeLayers c f).1 ∧ (d.judgeLayers c f).2.opening = f.opening := by
  refine foldl_keeps (fun y : Dev × CpFrame => CompositorStands c d y.1 ∧ y.2.opening = f.opening) _ (fun y l hy => ?_) _ (d, f)
    ⟨.refl c d, rfl⟩
  obtain ⟨hst, hop⟩ := y.1.judgeLayer_stands hp y.2 l
  exact ⟨hy.1.trans hst, hop.trans hy.2⟩

/-- A frame joins those in progress and CPn_STAT shows its output. -/
def Dev.addFrame (d : Dev) (c : Nat) (f : CpFrame) : Dev :=
  ((d.setCpUnit c { d.cpUnit c with frames := (d.cpUnit c).frames ++ [f] }).setRf (cpPage c) Reg.CP_STAT 6 0 f.out).setRb (cpPage c)
    Reg.CP_STAT 7 true

theorem Dev.addFrame_adds (d : Dev) (c : Nat) (f : CpFrame) :
    ((d.addFrame c f).cpUnit c).frames = (d.cpUnit c).frames ++ [f] ∧ (d.addFrame c f).cpOut c = d.cpOut c ∧ (d.addFrame c f).wk = d.wk ∧
      (d.addFrame c f).en = d.en := by
  have hcps : (d.addFrame c f).cps = (d.setCpUnit c { d.cpUnit c with frames := (d.cpUnit c).frames ++ [f] }).cps := by
    simp [Dev.addFrame]
  have hunit := Dev.cpUnit_congr hcps c
  rw [Dev.cpUnit_setCpUnit_same] at hunit
  exact ⟨by rw [hunit], funext (Dev.cpOut_congr (by rw [hunit])), by simp [Dev.addFrame], by simp [Dev.addFrame]⟩

/-- A frame of output `o` is open in slot `sl`, behind those in progress. -/
structure FrameOpened (c o sl : Nat) (item : Option (Nat × Nat)) (uj : Nat) (d d' : Dev) : Prop where
  frame : ∃ f, (d'.cpUnit c).frames = (d.cpUnit c).frames ++ [f] ∧ f.out = o ∧ f.slot = sl ∧ f.item = item ∧ f.uj = uj
  reqs : (d'.cpOut c o).reqs = (d.cpOut c o).reqs
  wk : d'.wk = d.wk
  en : d'.en = d.en

/-- What an opened frame leads to: its item runs and asks for STARTED, or its job counts in INFLIGHT. -/
def Dev.frameStarts (d : Dev) (c : Nat) : Option (Nat × Nat) → Dev
  | some (r, q) => (d.modItem r q (fun i => { i with phase := .running })).transition r q .started
  | none => d.addInflight (cpPage c)

theorem Dev.openFrame_opens (d : Dev) {c : Nat} (hp : kindOf (cpPage c) = .cp) (o : Nat) (item : Option (Nat × Nat)) (sl uj : Nat) :
    ∃ d', d.openFrame c o item sl uj = d'.frameStarts c item ∧ FrameOpened c o sl item uj d d' := by
  obtain ⟨hst, hop⟩ := d.judgeLayers_stands hp { d.frameOf c o item sl with uj := uj }
  generalize hy : d.judgeLayers c { d.frameOf c o item sl with uj := uj } = y at hst hop
  obtain ⟨hout, hitem, hslot, huj⟩ : y.2.out = o ∧ y.2.item = item ∧ y.2.slot = sl ∧ y.2.uj = uj := by
    simpa [CpFrame.opening, Dev.frameOf] using hop
  obtain ⟨hframes, houts, hwk, hen⟩ := y.1.addFrame_adds c y.2
  refine ⟨y.1.addFrame c y.2, ?_, ⟨⟨y.2, by rw [hframes, hst.frames], hout, hslot, hitem, huj⟩, by rw [houts, hst.reqs], hwk.trans hst.wk,
    hen.trans hst.en⟩⟩
  rw [← hy, Dev.addFrame, hy, hout]
  unfold Dev.openFrame
  dsimp only
  rw [← hy]
  cases item <;> rfl

theorem Dev.frameStarts_keeps (d : Dev) (c : Nat) (item : Option (Nat × Nat)) :
    (d.frameStarts c item).cps = d.cps ∧ (d.frameStarts c item).en = d.en := by
  cases item with
  | none => simp [Dev.frameStarts]
  | some x => simp [Dev.frameStarts, Dev.transition]

/-! ## A tick -/

/-- At a tick of an output its composition waits for admission no longer. -/
def Dev.unheld (d : Dev) (c o : Nat) : Dev := { d with held := d.held.filter (fun j => j.what != .compose c o) }

/-- An output skips a frame: the skip is counted in its half of CPn_SKIP_CNT and raised (R227, R228). -/
def Dev.skipFrame (d : Dev) (c o lo src : Nat) : Dev := ((d.unheld c o).bump (cpPage c) Reg.CP_SKIP_CNT (lo + 15) lo).detect (cpPage c) src

/-- A skip leaves the compositors. -/
theorem Dev.skipFrame_counts (d : Dev) {c : Nat} (hp : kindOf (cpPage c) = .cp) (o lo src : Nat) (hs : src < 32) (hn : src ≠ Evt.CP_BLEND_HANG)
    (hlo : lo + 15 < 32) : raised (d.skipFrame c o lo src) (cpPage c) src ∧ (d.skipFrame c o lo src).cps = d.cps ∧
      (d.skipFrame c o lo src).rf (cpPage c) Reg.CP_SKIP_CNT (lo + 15) lo = (d.rf (cpPage c) Reg.CP_SKIP_CNT (lo + 15) lo + 1) % 65536 := by
  have hdet : Detected ((d.unheld c o).bump (cpPage c) Reg.CP_SKIP_CNT (lo + 15) lo) (d.skipFrame c o lo src) (cpPage c) src :=
    Dev.detect_cp _ src hp hs hn
  refine ⟨hdet.raised hs, ?_, ?_⟩
  · obtain ⟨_, _, _, he⟩ := hdet.rest
    rw [he]
    simp [Dev.unheld]
  · rw [hdet.rf, Dev.rf_bump_field _ _ _ _ _ _ (by omega) hlo, Nat.add_sub_cancel_left]
    rfl

/-- A tick finds its output at work: the page is up, the output is on, and an item waits where items are what it composes. -/
structure TickDue (d : Dev) (c o : Nat) : Prop where
  up : d.up (cpPage c) = true
  on : d.tb (cpPage c) (o * 64) 0 0 = true
  work : d.tb (cpPage c) (o * 64) 0 1 = true → (d.cpOut c o).reqs ≠ []

theorem TickDue.goes {d : Dev} {c o : Nat} (h : TickDue d c o) :
    (!(d.hdr (cpPage c)).state.serves || (d.hdr (cpPage c)).rst || !bit 0 (d.tw (cpPage c) (o * 64) 0) ||
      (bit 1 (d.tw (cpPage c) (o * 64) 0) && (d.cpOut c o).reqs.isEmpty)) = false := by
  obtain ⟨hup, hon, hwork⟩ := h
  obtain ⟨hs, hr⟩ : (d.hdr (cpPage c)).state.serves = true ∧ (d.hdr (cpPage c)).rst = false := by simpa [Dev.up] using hup
  rw [Dev.tb] at hon hwork
  simpa [hs, hr, hon] using hwork

/-- An output whose frame is still open skips the next (R227). -/
theorem Dev.frameOpen_late {d : Dev} {c o : Nat} (h : TickDue d c o) (hf : (d.cpUnit c).frames.any (fun f => f.out == o) = true) :
    d.frameOpen c o = d.skipFrame c o 0 Evt.CP_FRAME_LATE :=
  (if_neg (Bool.eq_false_iff.mp h.goes)).trans (if_pos hf)

/-- An output with no free slot skips the frame (R228). -/
theorem Dev.frameOpen_busy {d : Dev} {c o : Nat} (h : TickDue d c o) (hf : (d.cpUnit c).frames.any (fun f => f.out == o) = false)
    (hs : d.cpFreeSlot c o = none) :
    d.frameOpen c o = d.skipFrame c o 16 Evt.CP_OUT_BUSY := by
  refine (if_neg (Bool.eq_false_iff.mp h.goes)).trans ((if_neg (Bool.eq_false_iff.mp hf)).trans ?_)
  split
  · rfl
  · next s heq => exact absurd (hs.symm.trans heq) (by simp)

/-- The oldest item takes the free slot where items are what the output composes. -/
theorem Dev.frameOpen_item {d : Dev} {c o sl : Nat} {x : Nat × Nat} {xs : List (Nat × Nat)} (h : TickDue d c o)
    (hf : (d.cpUnit c).frames.any (fun f => f.out == o) = false) (hs : d.cpFreeSlot c o = some sl)
    (hm : d.tb (cpPage c) (o * 64) 0 1 = true) (hr : (d.cpOut c o).reqs = x :: xs) :
    d.frameOpen c o = ((d.unheld c o).setCpOut c o { d.cpOut c o with reqs := xs }).openFrame c o (some x) sl 0 := by
  refine (if_neg (Bool.eq_false_iff.mp h.goes)).trans ((if_neg (Bool.eq_false_iff.mp hf)).trans ?_)
  split
  · next heq => exact absurd (hs.symm.trans heq) (by simp)
  · next s heq =>
    obtain rfl : sl = s := Option.some.inj (hs.symm.trans heq)
    refine (if_pos hm).trans ?_
    rw [hr]
    rfl

theorem Dev.admitJob_admitted {d : Dev} {j : HeldJob} {f : Form} {e : Nat} (h : d.admission j.page j.cls j.units j.fb = some (f, e)) :
    d.admitJob j = ((d.reserve e).countAdmitted j.cls j.fb f, some (f, e)) := by
  unfold Dev.admitJob
  rw [h]

/-- Counting an admission leaves the energy ledger. -/
theorem Dev.countAdmitted_en (d : Dev) (cls : Nat) (fb : Option (Nat × Nat)) (f : Form) : (d.countAdmitted cls fb f).en = d.en := by
  cases f <;> simp [Dev.countAdmitted]

/-- A composition that admission lets in takes the free slot where the output composes by itself (R176). -/
theorem Dev.frameOpen_admitted {d : Dev} {c o sl e : Nat} {fm : Form} (h : TickDue d c o)
    (hf : (d.cpUnit c).frames.any (fun f => f.out == o) = false) (hs : d.cpFreeSlot c o = some sl)
    (hm : d.tb (cpPage c) (o * 64) 0 1 = false) (ha : d.admission (cpPage c) 11 (d.cpUnits c o) none = some (fm, e)) :
    d.frameOpen c o = (((d.unheld c o).reserve e).countAdmitted 11 none fm).openFrame c o none sl e := by
  refine (if_neg (Bool.eq_false_iff.mp h.goes)).trans ((if_neg (Bool.eq_false_iff.mp hf)).trans ?_)
  split
  · next heq => exact absurd (hs.symm.trans heq) (by simp)
  · next s heq =>
    obtain rfl : sl = s := Option.some.inj (hs.symm.trans heq)
    refine (if_neg (Bool.eq_false_iff.mp hm)).trans ?_
    have hadm := Dev.admitJob_admitted (d := d.unheld c o)
      (j := { cls := 11, units := d.cpUnits c o, fb := none, page := cpPage c, what := .compose c o }) ha
    split
    · next d' f' e' heq' =>
      obtain ⟨rfl, hfe⟩ := Prod.mk.inj (hadm.symm.trans heq')
      obtain ⟨rfl, rfl⟩ := Prod.mk.inj (Option.some.inj hfe)
      rfl
    · next d' heq' => exact absurd (Prod.mk.inj (hadm.symm.trans heq')).2 (by simp)

end Sys2Proof.Machine
end

section
/-! A frame written (R228, R230, R239 to R241). -/

namespace Sys2Proof.Machine

/-! ## Encodes fed by an output -/

namespace FramesStand

variable {c : Nat} {d e d' : Dev}

theorem ite {p : Prop} [Decidable p] (h : FramesStand c d e) (h' : FramesStand c d d') : FramesStand c d (if p then e else d') := by
  split
  · exact h
  · exact h'

/-- A change beside compositors, items and registers. -/
theorem of_regs (hc : d'.cps = d.cps) (hw : d'.wk = d.wk) (hr : d'.pages.regs = d.pages.regs) : FramesStand c d d' :=
  of_cps hc hw (by rw [Dev.reg, hr, Dev.reg])

theorem rf (h : FramesStand c d d') (hi lo : Nat) : d'.rf (cpPage c) Reg.CP_FRAMES hi lo = d.rf (cpPage c) Reg.CP_FRAMES hi lo := by
  rw [Dev.rf, h.count, Dev.rf]

theorem countAdmitted (c : Nat) (d : Dev) (cls : Nat) (fb : Option (Nat × Nat)) (f : Form) : FramesStand c d (d.countAdmitted cls fb f) := by
  cases f with
  | primary => exact of_regs (by simp [Dev.countAdmitted]) (by simp [Dev.countAdmitted]) (by simp [Dev.countAdmitted])
  | fallback =>
    exact (of_regs (by simp) (by simp) (by simp) : FramesStand c d ((d.bumpT Pg.cc (0x200 + (fb.getD (cls, 0)).1) 1 31 0).bumpT Pg.cc
      (0x200 + cls) 3 31 0)).trans (setReg c _ Pg.cc Reg.CC_ADMIT_STAT 0 _ (by decide) (.inr (by decide)))

theorem countHeld (c : Nat) (d : Dev) (cls : Nat) : FramesStand c d (d.countHeld cls) :=
  (of_regs (by simp) (by simp) (by simp) : FramesStand c d (d.bumpT Pg.cc (0x200 + cls) 2 31 0)).trans
    (setReg c _ Pg.cc Reg.CC_ADMIT_STAT 0 _ (by decide) (.inr (by decide)))

/-- A job that asks for admission. -/
theorem of_admitJob {j : HeldJob} {r : Option (Form × Nat)} (h : d.admitJob j = (d', r)) : FramesStand c d d' := by
  obtain rfl : (d.admitJob j).1 = d' := congrArg Prod.fst h
  unfold Dev.admitJob
  split
  · next f e _ => exact (of_regs rfl rfl rfl : FramesStand c d (d.reserve e)).trans (countAdmitted c _ _ _ _)
  · exact (countHeld c d j.cls).trans (of_regs rfl rfl rfl)

theorem queueVideo (c : Nat) (d : Dev) (h : Nat) (j : VJob) : FramesStand c d (d.queueVideo h j) := by
  unfold Dev.queueVideo
  exact .ite (of_regs rfl rfl rfl) (of_regs rfl rfl rfl)

theorem queueEncode (c : Nat) (d : Dev) (h : Nat) (j : VJob) : FramesStand c d (d.queueEncode h j) := by
  have hleft : ∀ v n, FramesStand c d (((d.setVeng (h / 512) v).release n).subInflight (vePage h)) := fun _ _ => of_regs rfl rfl rfl
  unfold Dev.queueEncode
  dsimp only
  split
  · exact queueVideo c d h j
  · split
    · exact (hleft _ _).trans (queueVideo c _ h j)
    · exact queueVideo c d h j

/-- The encodes that an output feeds are a matter of the video engines and of admission. -/
theorem feedEncodes (c : Nat) (d : Dev) (c' o addr pitch size : Nat) : FramesStand c d (d.feedEncodes c' o addr pitch size) := by
  unfold Dev.feedEncodes
  refine foldl_keeps (FramesStand c d) _ (fun e h he => he.trans ?_) _ d (.refl c d)
  dsimp only
  split
  · split
    · next x f uj heq => exact (of_admitJob heq).trans (queueEncode c x h _)
    · next x heq => exact of_admitJob heq
  · exact .refl c e

end FramesStand

/-! ## Rows -/

/-- The rows of a frame are written one after another; an error of one is an error of the frame. -/
def Dev.writeRows (d : Dev) (c base : Nat) (rows : List (Nat × List Byte)) (err : Bool) : Dev × Bool :=
  rows.foldl (fun (y : Dev × Bool) r =>
    let (d, m) := y.1.physWrite (base + r.1) r.2 (some (280 + c))
    (d, y.2 || m != .ok)) (d, err)

theorem Dev.writeRows_stands (d : Dev) (c base : Nat) (rows : List (Nat × List Byte)) (err : Bool) :
    CompositorStands c d (d.writeRows c base rows err).1 :=
  foldl_keeps (fun y : Dev × Bool => CompositorStands c d y.1) _ (fun _ _ h => h.trans (.physWrite c _ _ _ _)) rows (d, err) (.refl c d)

theorem Dev.writeRows_failed (d : Dev) (c base : Nat) (rows : List (Nat × List Byte)) : (d.writeRows c base rows true).2 = true :=
  foldl_keeps (fun y : Dev × Bool => y.2 = true) _ (fun _ _ h => by simp [h]) rows (d, true) rfl

theorem Dev.physWrite_ok {d : Dev} {a : Nat} {bs : List Byte} (who : Option Nat) (h : d.physCheck a bs.length true = .ok) :
    (d.physWrite a bs who).2 = .ok := by
  unfold Dev.physWrite
  rw [h]

/-- Whether a write ends well is a matter of the map alone. -/
theorem Dev.physCheck_write_congr (d e : Dev) (a len : Nat) : d.physCheck a len true = e.physCheck a len true := by
  simp only [Dev.physCheck, Bool.not_true, Bool.false_and]

theorem Dev.writeRows_ok {c base : Nat} {rows : List (Nat × List Byte)} :
    ∀ d : Dev, (∀ r ∈ rows, d.physCheck (base + r.1) r.2.length true = .ok) → (d.writeRows c base rows false).2 = false := by
  induction rows with
  | nil => exact fun _ _ => rfl
  | cons r rows ih =>
    intro d h
    have hok := Dev.physWrite_ok (some (280 + c)) (h r List.mem_cons_self)
    have hrest := ih (d.physWrite (base + r.1) r.2 (some (280 + c))).1
      (fun x hx => (Dev.physCheck_write_congr _ d _ _).trans (h x (List.mem_cons_of_mem r hx)))
    unfold Dev.writeRows at hrest ⊢
    rw [List.foldl_cons]
    simpa [hok] using hrest

/-! ## Regions -/

/-- The regions of a frame, checked against what memory held when it was composed; the mask of those that do not match. -/
def Dev.checkRegions (x d : Dev) (c : Nat) (f : CpFrame) : Dev × Nat :=
  (List.range 8).foldl (fun (y : Dev × Nat) i =>
    let (x, bad) := y.1.checkRegion c f (fun a => ((d.physByte a).getD 0).toNat) (fun b dir ph j => d.coef c b dir ph j) i
    (x, if bad then y.2 + 2 ^ i else y.2)) (x, 0)

theorem CompositorStands.checkRegion {c : Nat} (d : Dev) (hp : kindOf (cpPage c) = .cp) (f : CpFrame) (rd : Nat → Nat)
    (co : Nat → Nat → Nat → Nat → Int) (i : Nat) : CompositorStands c d (d.checkRegion c f rd co i).1 := by
  unfold Dev.checkRegion
  dsimp only
  split_ifs
  · exact .refl c d
  · exact .refl c d
  · exact (CompositorStands.setCpUnit c d { d.cpUnit c with sig := pushSig (d.cpUnit c).sig f.out i (f.regionCrc rd co i) } rfl rfl).trans
      (.detect_cp _ hp Evt.CP_SIG_MISMATCH (by decide) (by decide))

theorem Dev.checkRegions_stands (x d : Dev) {c : Nat} (hp : kindOf (cpPage c) = .cp) (f : CpFrame) :
    CompositorStands c x (x.checkRegions d c f).1 :=
  foldl_keeps (fun y : Dev × Nat => CompositorStands c x y.1) _ (fun y _ h => h.trans (.checkRegion y.1 hp f _ _ _)) _ (x, 0) (.refl c x)

/-- Without a region in use there is nothing to check. -/
theorem Dev.checkRegions_none (x d : Dev) {c : Nat} {f : CpFrame} (h : ∀ i, i < 8 → bit 0 (f.w (36 + i) 0) = false) :
    x.checkRegions d c f = (x, 0) := by
  unfold Dev.checkRegions
  refine List.foldlRecOn (motive := fun y => y = (x, 0)) _ _ rfl (fun y hy i hi => ?_)
  rw [hy]
  simp [Dev.checkRegion, h i (List.mem_range.mp hi)]

/-! ## A frame's end -/

/-- The front frame has left those in progress. -/
def Dev.frameLeft (d : Dev) (c : Nat) (fs : List CpFrame) : Dev := d.setCpUnit c { d.cpUnit c with frames := fs }

theorem Dev.frameLeft_leaves (d : Dev) (c : Nat) (fs : List CpFrame) :
    ((d.frameLeft c fs).cpUnit c).frames = fs ∧ (d.frameLeft c fs).cpOut c = d.cpOut c ∧ (d.frameLeft c fs).wk = d.wk ∧
      (d.frameLeft c fs).pages = d.pages := by
  have hunit := d.cpUnit_setCpUnit_same c { d.cpUnit c with frames := fs }
  exact ⟨congrArg CpUnit.frames hunit, funext (Dev.cpOut_congr (congrArg CpUnit.outs hunit :)), rfl, rfl⟩

/-- The front frame leaves those in progress; an error of a source that it shows is raised. -/
def Dev.frameRead (d : Dev) (c : Nat) (f : CpFrame) (fs : List CpFrame) (err : Bool) : Dev :=
  if err || !d.sourcesRead f then (d.frameLeft c fs).detect (cpPage c) Evt.CP_ACCESS_ERR else d.frameLeft c fs

/-- The rows of a frame, composed from what memory holds. -/
def Dev.frameRows (d : Dev) (c : Nat) (f : CpFrame) : List (Nat × List Byte) :=
  f.rows (fun a => ((d.physByte a).getD 0).toNat) (d.coef c)

/-- The front frame is in its slot, or an error of its write is raised. -/
def Dev.frameStored (d : Dev) (c : Nat) (f : CpFrame) (fs : List CpFrame) (readErr writeErr : Bool) : Dev × Bool :=
  let y := (d.frameRead c f fs readErr).writeRows c (f.poolBase + f.slot * f.slotSize) (d.frameRows c f) writeErr
  (if y.2 then y.1.detect (cpPage c) Evt.CP_ACCESS_ERR else y.1, y.2)

/-- A region that does not match holds its frame back (R240). -/
def CpFrame.heldBack (f : CpFrame) (mask : Nat) : Bool := (List.range 8).any (fun i => mask.testBit i && bit 1 (f.w (36 + i) 0))

/-- Mismatches are counted, and the samples and bytes of a frame logged. -/
def Dev.frameLogged (d : Dev) (c : Nat) (f : CpFrame) (mask : Nat) : Dev :=
  let d5 := if mask ≠ 0 then d.bump (cpPage c) Reg.CP_SIG_CNT 15 0 else d
  let d6 := if f.heldBack mask then d5.bump (cpPage c) Reg.CP_SIG_CNT 31 16 else d5
  let u := d6.cpUnit c
  let inPix := f.layers.foldl (fun a l => match l with
    | .video _ _ _ _ _ _ _ _ cw ch => a + cw * ch
    | .buffer _ _ _ w h => a + w * h
    | _ => a) 0
  d6.setCpUnit c { u with pixOut := logAdd u.pixOut d6.nowNs 1000000000 (f.width * f.height),
                          pixIn := logAdd u.pixIn d6.nowNs 1000000000 inPix,
                          rdBytes := logAdd u.rdBytes d6.nowNs 1000000 (inPix * 3 / 2),
                          wrBytes := logAdd u.wrBytes d6.nowNs 1000000 (f.pitch * f.height * 3 / 2) }

/-- A frame is published: its output shows its slot, it is counted, and the encodes that the output feeds are queued. -/
def Dev.publishFrame (d : Dev) (c : Nat) (f : CpFrame) : Dev :=
  let d := d.setCpOut c f.out { d.cpOut c f.out with published := some f.slot, pubBase := f.poolBase, pubSize := f.slotSize }
  let d := (d.setTw (cpPage c) (f.out * 64 + 1) 2 (word f.slot)).bump (cpPage c) Reg.CP_FRAMES 31 0
  if f.item.isNone then d.feedEncodes c f.out (f.poolBase + f.slot * f.slotSize) f.pitch f.slotSize else d

/-- CPn_STAT shows an idle compositor behind its last frame. -/
def Dev.showIdle (d : Dev) (c : Nat) (fs : List CpFrame) : Dev := if fs.isEmpty then d.setRb (cpPage c) Reg.CP_STAT 7 false else d

/-- The front frame is stored and checked, and published where nothing is in its way. -/
def Dev.framePlaced (d : Dev) (c : Nat) (f : CpFrame) (fs : List CpFrame) (readErr writeErr : Bool) : Dev :=
  let y := d.frameStored c f fs readErr writeErr
  let k := y.1.checkRegions d c f
  let x := k.1.frameLogged c f k.2
  (if !f.heldBack k.2 && !y.2 then x.publishFrame c f else x).showIdle c fs

/-- A frame that is not ring work ends: its job leaves the compositor. -/
theorem Dev.frameWritten_job {d : Dev} {c : Nat} {f : CpFrame} {fs : List CpFrame} (re we : Bool) (hf : (d.cpUnit c).frames = f :: fs)
    (hi : f.item = none) : d.frameWritten c re we = ((d.framePlaced c f fs re we).release f.uj).subInflight (cpPage c) := by
  unfold Dev.frameWritten
  rw [hf]
  refine (if_neg (by simp [Dev.itemActs, hi])).trans ?_
  dsimp only
  split
  · rfl
  · next heq => rw [hi] at heq; cases heq

theorem Dev.frameWritten_failed {d : Dev} {c r q : Nat} {f : CpFrame} {fs : List CpFrame} {i : Item} (re we : Bool)
    (hf : (d.cpUnit c).frames = f :: fs) (hi : f.item = some (r, q)) (ha : d.itemActs f.item .started = true)
    (hw : (d.frameStored c f fs re we).2 = true) (hx : (d.framePlaced c f fs re we).item? r q = some i) :
    d.frameWritten c re we = (d.framePlaced c f fs re we).finishPlain r q .failed Cause.ACCESS := by
  unfold Dev.frameWritten
  rw [hf]
  refine (if_neg (by simp [ha])).trans ?_
  dsimp only
  split
  · next heq => rw [hi] at heq; cases heq
  · next r' q' heq =>
    obtain ⟨rfl, rfl⟩ := Prod.mk.inj (Option.some.inj (hi.symm.trans heq))
    split
    · next hnone => exact absurd (hx.symm.trans hnone) (by simp)
    · next j hj => exact if_pos hw

theorem Dev.frameStored_stands (d : Dev) {c : Nat} (hp : kindOf (cpPage c) = .cp) (f : CpFrame) (fs : List CpFrame) (re we : Bool) :
    CompositorStands c (d.frameLeft c fs) (d.frameStored c f fs re we).1 := by
  have herr : ∀ x : Dev, CompositorStands c x (x.detect (cpPage c) Evt.CP_ACCESS_ERR) := fun x =>
    .detect_cp x hp Evt.CP_ACCESS_ERR (by decide) (by decide)
  have hread : CompositorStands c (d.frameLeft c fs) (d.frameRead c f fs re) := .ite (herr _) (.refl c _)
  exact (hread.trans (Dev.writeRows_stands _ _ _ _ _)).trans (.ite (herr _) (.refl c _))

/-- An error of the write is raised (R230). -/
theorem Dev.frameStored_failed (d : Dev) {c : Nat} (hp : kindOf (cpPage c) = .cp) (f : CpFrame) (fs : List CpFrame) (re : Bool) :
    (d.frameStored c f fs re true).2 = true ∧ raised (d.frameStored c f fs re true).1 (cpPage c) Evt.CP_ACCESS_ERR := by
  have hw := (d.frameRead c f fs re).writeRows_failed c (f.poolBase + f.slot * f.slotSize) (d.frameRows c f)
  refine ⟨hw, ?_⟩
  unfold Dev.frameStored
  dsimp only
  rw [if_pos hw]
  exact (Dev.detect_cp _ Evt.CP_ACCESS_ERR hp (by decide) (by decide)).raised (by decide)

/-- Rows that the map lets be written are written without error. -/
theorem Dev.frameStored_ok (d : Dev) {c : Nat} {f : CpFrame} (fs : List CpFrame) (re : Bool)
    (h : ∀ r, r ∈ d.frameRows c f → d.physCheck (f.poolBase + f.slot * f.slotSize + r.1) r.2.length true = .ok) :
    (d.frameStored c f fs re false).2 = false :=
  Dev.writeRows_ok _ (fun r hr => (Dev.physCheck_write_congr _ d _ _).trans (h r hr))

theorem Dev.frameLogged_stands (d : Dev) (c : Nat) (f : CpFrame) (mask : Nat) : CompositorStands c d (d.frameLogged c f mask) := by
  have hbump : ∀ (x : Dev) (hi lo : Nat), CompositorStands c x (x.bump (cpPage c) Reg.CP_SIG_CNT hi lo) := fun x hi lo =>
    .bump c x _ _ hi lo (by decide) (by decide)
  have hcount : CompositorStands c d (if mask ≠ 0 then d.bump (cpPage c) Reg.CP_SIG_CNT 15 0 else d) := .ite (hbump _ _ _) (.refl c d)
  exact (hcount.trans (.ite (hbump _ _ _) (.refl c _))).trans (.setCpUnit c _ _ rfl rfl)

theorem Dev.showIdle_stands (d : Dev) (c : Nat) (fs : List CpFrame) : CompositorStands c d (d.showIdle c fs) :=
  .ite (.setReg c d _ Reg.CP_STAT 0 _ (by decide) (.inr (by decide))) (.refl c d)

/-- A published frame: its output shows its slot and pool, and it is counted. -/
theorem Dev.publishFrame_publishes (d : Dev) (c : Nat) (f : CpFrame) :
    ((d.publishFrame c f).cpUnit c).frames = (d.cpUnit c).frames ∧ ((d.publishFrame c f).cpOut c f.out).published = some f.slot ∧
      ((d.publishFrame c f).cpOut c f.out).pubBase = f.poolBase ∧
      (d.publishFrame c f).rf (cpPage c) Reg.CP_FRAMES 31 0 = (d.rf (cpPage c) Reg.CP_FRAMES 31 0 + 1) % 2 ^ 32 := by
  generalize hx : d.setCpOut c f.out { d.cpOut c f.out with published := some f.slot, pubBase := f.poolBase, pubSize := f.slotSize } = x
  generalize hy : (x.setTw (cpPage c) (f.out * 64 + 1) 2 (word f.slot)).bump (cpPage c) Reg.CP_FRAMES 31 0 = y
  have hout : y.cpOut c f.out = { d.cpOut c f.out with published := some f.slot, pubBase := f.poolBase, pubSize := f.slotSize } := by
    rw [Dev.cpOut_congr (d := x) (by rw [Dev.cpUnit_congr (d := x) (by rw [← hy]; simp)]), ← hx, Dev.cpOut_setCpOut_same]
  have hframes : (y.cpUnit c).frames = (d.cpUnit c).frames := by
    rw [Dev.cpUnit_congr (d := x) (by rw [← hy]; simp), ← hx, Dev.frames_setCpOut]
  have hcount : y.rf (cpPage c) Reg.CP_FRAMES 31 0 = (d.rf (cpPage c) Reg.CP_FRAMES 31 0 + 1) % 2 ^ 32 := by
    rw [← hy, Dev.rf_bump_same _ _ _ _ _ _ (by decide), Dev.rf_congr (d := d) (by rw [← hx]; simp [Dev.setCpOut])]
  have hfeed : FramesStand c y (d.publishFrame c f) := by
    unfold Dev.publishFrame
    dsimp only
    rw [hx, hy]
    exact .ite (.feedEncodes c y _ _ _ _ _) (.refl c y)
  exact ⟨hfeed.frames.trans hframes, by rw [hfeed.published, hout], by rw [hfeed.pubBase, hout], (hfeed.rf 31 0).trans hcount⟩

/-- A frame written without error, with no region in use, is published. -/
theorem Dev.framePlaced_published {d : Dev} {c : Nat} (hp : kindOf (cpPage c) = .cp) {f : CpFrame} (fs : List CpFrame) (re : Bool)
    (hregions : ∀ i, i < 8 → bit 0 (f.w (36 + i) 0) = false)
    (hrows : ∀ r, r ∈ d.frameRows c f → d.physCheck (f.poolBase + f.slot * f.slotSize + r.1) r.2.length true = .ok) :
    ∃ x, CompositorStands c (d.frameLeft c fs) x ∧ d.framePlaced c f fs re false = (x.publishFrame c f).showIdle c fs := by
  have hst := d.frameStored_stands hp f fs re false
  refine ⟨(d.frameStored c f fs re false).1.frameLogged c f 0, hst.trans (Dev.frameLogged_stands _ _ _ _), ?_⟩
  unfold Dev.framePlaced
  dsimp only
  rw [d.frameStored_ok fs re hrows, Dev.checkRegions_none _ _ hregions]
  rw [if_pos (by simp [CpFrame.heldBack])]

/-- A frame whose write fails is not published: the outputs stand, and the error is raised. -/
theorem Dev.framePlaced_failed (d : Dev) {c : Nat} (hp : kindOf (cpPage c) = .cp) (f : CpFrame) (fs : List CpFrame) (re : Bool) :
    CompositorStands c (d.frameLeft c fs) (d.framePlaced c f fs re true) ∧
      raised (d.framePlaced c f fs re true) (cpPage c) Evt.CP_ACCESS_ERR := by
  obtain ⟨hfail, hraised⟩ := d.frameStored_failed hp f fs re
  have hplaced : CompositorStands c (d.frameStored c f fs re true).1 (d.framePlaced c f fs re true) := by
    unfold Dev.framePlaced
    dsimp only
    rw [hfail, Bool.not_true, Bool.and_false, if_neg Bool.false_ne_true]
    exact ((Dev.checkRegions_stands _ d hp f).trans (Dev.frameLogged_stands _ _ _ _)).trans (Dev.showIdle_stands _ _ _)
  exact ⟨(d.frameStored_stands hp f fs re true).trans hplaced, hplaced.raised _ hraised⟩

/-! ## Reports -/

theorem Dev.stalePop_pops {d : Dev} {c o l : Nat} {lost : Bool} {xs : List (Nat × Nat × Bool)} (h : (d.cpUnit c).stale = (o, l, lost) :: xs) :
    d.stalePop c = (d.setCpUnit c { d.cpUnit c with stale := xs }).answer (word (o + l * 2 ^ 7 + lost.toNat * 2 ^ 30 + 2 ^ 31)) := by
  unfold Dev.stalePop
  dsimp only
  rw [h]

theorem Dev.sigPop_pops {d : Dev} {c o k crc : Nat} {lost : Bool} {xs : List (Nat × Nat × Bool × Nat)}
    (h : (d.cpUnit c).sig = (o, k, lost, crc) :: xs) :
    d.sigPop c = ((d.setCpUnit c { d.cpUnit c with sig := xs }).setReg (cpPage c) Reg.CP_SIG_FOUND (word crc)).answer
      (word (o + k * 2 ^ 7 + lost.toNat * 2 ^ 30 + 2 ^ 31)) := by
  unfold Dev.sigPop
  dsimp only
  rw [h]

/-! ## Items -/

/-- An item of an output that is on and composes items joins those that wait for its tick (R241). -/
theorem Dev.composeItem_joins {d : Dev} {r q c o : Nat} {i : Item} (hi : d.itemAt r q 5 = some i) (hop : opOf i.desc = 0)
    (hc : c = ctxOf i.desc % 512 / 128) (ho : o = ctxOf i.desc % 512 % 128) (hinst : instanceOf i.desc = 0xFF ∨ instanceOf i.desc = c)
    (hon : d.tb (cpPage c) (o * 64) 0 0 = true) (hmode : d.tb (cpPage c) (o * 64) 0 1 = true)
    (hnew : (d.cpOut c o).reqs.any (fun x => x == (r, q)) = false) :
    d.composeItem r q = d.setCpOut c o { d.cpOut c o with reqs := (d.cpOut c o).reqs ++ [(r, q)] } := by
  subst hc ho
  have hnamed : ¬(instanceOf i.desc ≠ 0xFF && instanceOf i.desc ≠ ctxOf i.desc % 512 / 128) = true := by
    rcases hinst with h | h <;> simp [h]
  unfold Dev.composeItem
  rw [hi]
  dsimp only
  rw [if_neg (not_not.mpr hop), if_neg hnamed, hon, hmode, hnew]
  rfl

/-! ## The obligation -/

/-- Settles O46: a tick by `TickDue` and `FrameOpened`, a written frame by where it is placed, and every other clause by its own rule. -/
theorem compositorsOpenAndPublish : Obligations.CompositorsOpenAndPublish := by
  refine ⟨?waits, ?item, ?admitted, ?late, ?busy, ?published, ?failed, ?hang, ?stale, ?sig⟩
  case waits =>
    intro s n q c o i hi hop hc ho hinst hon hmode hnew
    refine ⟨_, rfl, ?_⟩
    dsimp only
    rw [Dev.composeItem_joins hi hop hc ho hinst hon hmode hnew, Dev.cpOut_setCpOut_same]
    exact ⟨rfl, rfl, rfl, rfl⟩
  case item =>
    intro s c o r q sl xs i hup hon hmode hreqs hidle hslot hi
    have hopen := Dev.frameOpen_item ⟨hup, hon, fun _ => by simp [hreqs]⟩ hidle hslot hmode hreqs
    obtain ⟨x, hx, hopened⟩ := Dev.openFrame_opens ((s.dev.unheld c.val o.val).setCpOut c.val o.val { s.dev.cpOut c.val o.val with reqs := xs })
      (kindOf_cpPage c) o.val (some (r, q)) sl 0
    obtain ⟨f, hframes, hout, hfslot, hfitem, -⟩ := hopened.frame
    obtain ⟨hcps, -⟩ := x.frameStarts_keeps c.val (some (r, q))
    have hj : (x.frameStarts c.val (some (r, q))).item? r q = some _ := x.item?_phase_transition r q .running .started i
      ((Dev.item?_congr (by rw [hopened.wk]; rfl) r q).trans hi)
    rw [Dev.frames_setCpOut] at hframes
    have hwaiting := hopened.reqs
    rw [Dev.cpOut_setCpOut_same] at hwaiting
    rw [← hx, ← hopen] at hj hcps
    have hunit := Dev.cpUnit_congr hcps c.val
    exact ⟨_, f, _, rfl, (congrArg CpUnit.frames hunit).trans hframes, hout, hfslot, hfitem,
      (congrArg CpOut.reqs (Dev.cpOut_congr (congrArg CpUnit.outs hunit) o.val)).trans hwaiting, hj, rfl⟩
  case admitted =>
    intro s c o sl e fm hup hon hmode hidle hslot hadm
    have hopen := Dev.frameOpen_admitted ⟨hup, hon, fun h => by simp [hmode] at h⟩ hidle hslot hmode hadm
    obtain ⟨x, hx, hopened⟩ := Dev.openFrame_opens (((s.dev.unheld c.val o.val).reserve e).countAdmitted 11 none fm) (kindOf_cpPage c) o.val
      none sl e
    obtain ⟨f, hframes, hout, hfslot, hfitem, huj⟩ := hopened.frame
    have hcounted := FramesStand.countAdmitted c.val ((s.dev.unheld c.val o.val).reserve e) 11 none fm
    obtain ⟨hcps, hen⟩ := x.frameStarts_keeps c.val none
    have hreserved : x.en.reserved = s.dev.en.reserved + e := by rw [hopened.en, Dev.countAdmitted_en, Dev.reserve]; rfl
    rw [← hx, ← hopen] at hcps hen
    refine ⟨_, f, rfl, ?_, hout, hfslot, hfitem, huj, (congrArg (·.reserved) hen).trans hreserved⟩
    exact (congrArg CpUnit.frames (Dev.cpUnit_congr hcps c.val)).trans (hframes.trans (by rw [hcounted.frames]; rfl))
  case late =>
    intro s c o hup hon hmode hopen
    refine ⟨_, rfl, ?_⟩
    dsimp only
    rw [Dev.frameOpen_late ⟨hup, hon, fun h => by simp [hmode] at h⟩ hopen]
    exact s.dev.skipFrame_counts (kindOf_cpPage c) o.val 0 Evt.CP_FRAME_LATE (by decide) (by decide) (by decide)
  case busy =>
    intro s c o hup hon hmode hidle hslot
    refine ⟨_, rfl, ?_⟩
    dsimp only
    rw [Dev.frameOpen_busy ⟨hup, hon, fun h => by simp [hmode] at h⟩ hidle hslot]
    exact s.dev.skipFrame_counts (kindOf_cpPage c) o.val 16 Evt.CP_OUT_BUSY (by decide) (by decide) (by decide)
  case published =>
    intro s c f fs hf hitem hregions hrows
    obtain ⟨x, hst, hplaced⟩ := s.dev.framePlaced_published (kindOf_cpPage c) fs false hregions hrows
    obtain ⟨hframes, hpub, hbase, hcount⟩ := x.publishFrame_publishes c.val f
    obtain ⟨hleft, -, -, hpages⟩ := s.dev.frameLeft_leaves c.val fs
    have hend : FramesStand c.val (x.publishFrame c.val f) (s.dev.frameWritten c.val false false) := by
      rw [Dev.frameWritten_job false false hf hitem, hplaced]
      exact (Dev.showIdle_stands _ c.val fs).toFramesStand.trans (.of_regs rfl rfl rfl)
    refine ⟨_, rfl, ?_, ?_, ?_, ?_⟩
    · exact hend.frames.trans (hframes.trans (hst.frames.trans hleft))
    · exact (hend.published f.out).trans hpub
    · exact (hend.pubBase f.out).trans hbase
    · refine (hend.rf 31 0).trans (hcount.trans ?_)
      rw [hst.rf 31 0, Dev.rf_congr (congrArg (·.regs) hpages)]
  case failed =>
    intro s c rerr f fs r q i hf hitem hi hrec hpend
    obtain ⟨hst, hraised⟩ := s.dev.framePlaced_failed (kindOf_cpPage c) f fs rerr
    obtain ⟨hleft, houts, hwk, -⟩ := s.dev.frameLeft_leaves c.val fs
    have hx : (s.dev.framePlaced c.val f fs rerr true).item? r q = some i :=
      (hst.item? r q).trans ((Dev.item?_congr (by rw [hwk]) r q).trans hi)
    have hacts : s.dev.itemActs f.item .started = true := by simp [hitem, Dev.itemActs, hi, hrec, hpend]
    have hend := Dev.frameWritten_failed rerr true hf hitem hacts (s.dev.frameStored_failed (kindOf_cpPage c) f fs rerr).1 hx
    obtain ⟨hcps, hpages⟩ : (s.dev.frameWritten c.val rerr true).cps = (s.dev.framePlaced c.val f fs rerr true).cps ∧
        (s.dev.frameWritten c.val rerr true).pages = (s.dev.framePlaced c.val f fs rerr true).pages := by
      rw [hend, Dev.finishPlain_eq _ r q _ _ i hx]
      exact ⟨rfl, rfl⟩
    have hunit := Dev.cpUnit_congr hcps c.val
    refine ⟨_, i.finished (i.plain .failed Cause.ACCESS), rfl, ?_, ?_, rfl, rfl, rfl, ?_, ?_⟩
    · exact (congrArg CpUnit.frames hunit).trans (hst.frames.trans hleft)
    · exact (congrArg (·.item? r q) hend).trans (Dev.item?_finishPlain _ r q _ _ i hx)
    · refine (congrArg CpOut.published (Dev.cpOut_congr (congrArg CpUnit.outs hunit) f.out)).trans ((hst.published f.out).trans ?_)
      rw [houts]
    · exact raised_of_hdrs (congrArg (·.hdrs) hpages) hraised
  case hang =>
    intro s c hf
    have hdet : s.dev.blendHang c.val = s.dev.detect (cpPage c.val) Evt.CP_BLEND_HANG := if_neg (by simpa using hf)
    refine ⟨_, rfl, ?_⟩
    dsimp only
    rw [hdet]
    exact (s.dev.detectAt_noted _ Evt.CP_BLEND_HANG (some 0) false _ (by decide) (by rw [kindOf_cpPage]; decide) (.inl rfl)).1
  case stale =>
    intro s c o l lost xs h
    refine ⟨_, rfl, ?_⟩
    dsimp only
    rw [Dev.stalePop_pops h]
    exact ⟨congrArg CpUnit.stale (s.dev.cpUnit_setCpUnit_same c.val _), rfl, rfl⟩
  case sig =>
    intro s c o k crc lost xs h
    refine ⟨_, rfl, ?_⟩
    dsimp only
    rw [Dev.sigPop_pops h]
    refine ⟨?_, ?_, rfl, fun p off i hoff hne => ?_⟩
    · rw [Dev.cpUnit_congr (d := s.dev.setCpUnit c.val { s.dev.cpUnit c.val with sig := xs }) (by simp), Dev.cpUnit_setCpUnit_same]
    · rw [Dev.reg_answer, Dev.reg_setReg_same]
    · rw [Dev.reg_answer, Dev.reg_setReg_other _ _ _ _ _ _ _ _ (by decide) hoff hne]
      rfl

end Sys2Proof.Machine
end
